-- ==== Sys2Proof/Word.lean ====
section
/-!
DEFINITION. The words of the machine (R6, R7): a byte, a 32-bit register word, and byte sequences.
-/
namespace Sys2Proof

/-- A byte. -/
abbrev Byte := BitVec 8

/-- A BAR0 register word (R7). -/
abbrev Word := BitVec 32

/-- A sequence of bytes, the byte at the lowest address or sent first at the head. -/
abbrev Bytes := List Byte

end Sys2Proof
end

