-- ==== Sys2Proof/Types.lean ====
section
/-!
DEFINITION. The types of the commands' operands beside words and bytes: what the analogue parts of the device measured or
judged, which the spec gives no digital rule for.
-/
namespace Sys2Proof

/-- What a receiver measured over a superframe (R77, R81, R117): the echo reduction (0.01 dB), the SNR of tones (0.25 dB), and the
errors on the sync tones that VEC_ERROR reports, I then Q. -/
structure Mon where
  erle  : BitVec 16 := 0
  snr   : List (BitVec 12 × BitVec 8) := []
  vec   : Bytes := []
  deriving DecidableEq, Repr

/-- What the training of one pseudo-channel finds (R282 to R284): whether every eye is at least 0.25 UI wide at the recorded
bases, the bases (read, write) that a sweep would set by lane, and the TSV bits with no passing base. -/
structure Train where
  eyes  : Bool := true
  bases : List (BitVec 8 × BitVec 8) := []
  bad   : List (BitVec 7) := []
  deriving DecidableEq, Repr

/-- What a start finds (R361, R362): the domains that fail BIST (bit 0 always-on, 1 herder, 2 fabric), whether the IRO,
LREFCLK and HREFCLK are judged good by the end of BIST, the training of the pseudo-channels named, and the units whose record in
a TRIMS section fails the check after its run (R234). -/
structure Boot where
  bist  : BitVec 3 := 0
  iro   : Bool := true
  lref  : Bool := true
  href  : Bool := true
  train : List (BitVec 5 × Train) := []
  bad   : BitVec 48 := 0
  deriving DecidableEq, Repr

/-- What a reflection diagnostic hears (R213, R218, R220): the peaks of the compressed response (distance in 0.25 m, whether
the impedance rises, magnitude in 0.5 dB steps below 0 dB), and the trace of 4,800 values. -/
structure Echo where
  peaks : List (BitVec 13 × Bool × BitVec 8) := []
  trace : List (BitVec 16) := []
  deriving DecidableEq, Repr

/-- The header of a whole Traverse burst (Table 7-4), but for its TYPE and LEN: PASS, CODE, REQ_CODE, SEQ, BASE_SEQ, ACK_SEQ,
ACK_MAP, Q0 and LINK_TAG. -/
structure TrvHdr where
  pass   : Bool := false
  code   : BitVec 2 := 0
  req    : BitVec 2 := 0
  seq    : BitVec 8 := 0
  base   : BitVec 8 := 0
  ackSeq : BitVec 8 := 255
  ackMap : BitVec 8 := 0
  q0     : BitVec 8 := 0
  tag    : Word := 1
  deriving DecidableEq, Repr

end Sys2Proof
end

