-- ==== Sys2Proof/Syntax.lean ====
section
/-!
DEFINITION. The commands the block takes: one constructor for each row of spec/opcode_table.json, in the table's order.
A row is one whole step of the device (spec/95_what_each_step_holds.md). The operands say what the outside brings to
the step: what the host writes, what arrives on a line or a pin, and what an analogue circuit measured or judged.
-/
namespace Sys2Proof

/-- A command: a row of the table of operations and events. -/
inductive Instr where
  /-- REGISTER_WRITE (R10). A BAR0 write to a register with no row of its own changes each field by its access type, enforcing session rights on RWI and RWM fields. -/
  | registerWrite (off : BitVec 24) (len : Nat) (val : BitVec 64)
  /-- READ_CLEAR (R10). A host read of an RC field returns its value and clears it, keeping any count added in the same cycle. -/
  | readClear (off : BitVec 24) (len : Nat) (added : Word)
  /-- WIDE_LOW_WORD_READ (R7). A read of the low word of a 64-bit register latches the high word for the next read of that high word. -/
  | wideLowWordRead (off : BitVec 24)
  /-- CMD_SUBMIT (R310). A write of an opcode to CMD_SUBMIT copies CMD_PARAM into the lowest free slot with the session role and reports a handle, or no free slot, in CMD_ACCEPT. -/
  | cmdSubmit (val : Word)
  /-- CMD_START (R312). Once the herder runs, it takes the oldest waiting command from its slot, checks role and life cycle, and starts it. -/
  | cmdStart
  /-- CMD_CQ_CONS_WRITE (R313). A write of CMD_CQ_CONS consumes completion records and frees their slots, or raises DEV_BAD_ACCESS when out of range. -/
  | cmdCqConsWrite (val : Word)
  /-- UNKNOWN_OPCODE (R315). A command whose opcode is not in Table 11-5 completes when it starts, with UNKNOWN_OPCODE and no effect. -/
  | unknownOpcode (slot : BitVec 6)
  /-- FOLD_LOAD (R31). FOLD_LOAD validates the staged image, writes and reads back the uncommitted slot, and applies it when APPLY is set. -/
  | foldLoad (slot : BitVec 6) (nvFail : Bool) (bad : BitVec 48)
  /-- STRUCTURAL_APPLY_STAGE (R36). A stage of the structural apply timeline of Table 2-14 ends (drain limit, quiesce, re-lay, re-map, port starts) and the next begins. -/
  | structuralApplyStage (bad : BitVec 48)
  /-- FOLD_LOAD_COMPLETION (R37). The FOLD_LOAD completion is posted once every enabled port is up, failed or without partner, or at 450 ms of herder-running time. -/
  | foldLoadCompletion (alone : BitVec 16)
  /-- FOLD_COMMIT (R32). FOLD_COMMIT checks the named slot and writes the commit word, optionally raising DEV_FOLD_FLOOR. -/
  | foldCommit (slot : BitVec 6) (nvFail : Bool)
  /-- PISTE_LOAD (R180). PISTE_LOAD checks a route table from the stack or an NV slot and replaces the active table. -/
  | pisteLoad (slot : BitVec 6)
  /-- PISTE_SAVE (R181). PISTE_SAVE writes the active table with the next SERIAL and SAVE_TIME to the stack or an NV slot and clears DIRTY. -/
  | pisteSave (slot : BitVec 6) (nvFail : Bool)
  /-- POS_FIX (R159). POS_FIX sets the position from a timed fix, sets ORIENT and FIX_VALID, and handles a change of route. -/
  | posFix (slot : BitVec 6)
  /-- CAL_RUN (R233). CAL_RUN makes the named ports and pseudo-channels fall due and completes when each has completed, failed or been held, within 400 ms. -/
  | calRun (slot : BitVec 6)
  /-- CAL_SAVE (R234). CAL_SAVE writes the trims image into the GENERAL partition. -/
  | calSave (slot : BitVec 6)
  /-- CAL_RESTORE (R234). CAL_RESTORE checks a trims image and applies each record that passes its range and post-run checks. -/
  | calRestore (slot : BitVec 6) (bad : BitVec 48)
  /-- DIAG_REFLECT (R213). DIAG_REFLECT sweeps a port's pair with averaged chirps and reports reflection events, optionally storing a baseline and trace. -/
  | diagReflect (slot : BitVec 6) (quiet : BitVec 5) (echo : Echo) (nvFail : Bool)
  /-- DIAG_PASSIVE (R220). DIAG_PASSIVE snapshots the echo response of a port up on ILM and reports reflection events. -/
  | diagPassive (slot : BitVec 6) (echo : Echo) (nvFail : Bool)
  /-- MEM_REPAIR_SPARE_ROW (R279). MEM_REPAIR OP 0 copies a row to the lowest free spare, remaps it and records the repair in NV. -/
  | memRepairSpareRow (slot : BitVec 6) (nvFail : Bool)
  /-- MEM_REPAIR_STEER_TSV (R280). MEM_REPAIR OP 1 steers a TSV bit onto a free spare lane and records the steering in NV. -/
  | memRepairSteerTsv (slot : BitVec 6) (nvFail : Bool)
  /-- MEM_REPAIR_RETURN (R287). MEM_REPAIR OP 2 returns a retired channel to the reserve, taking effect at the next structural apply. -/
  | memRepairReturn (slot : BitVec 6) (nvFail : Bool)
  /-- MEM_RETRAIN (R285). MEM_RETRAIN fences a pseudo-channel, retrains it and lifts the fence, keeping its contents. -/
  | memRetrain (slot : BitVec 6) (train : Train)
  /-- MEM_RELEASE (R275). MEM_RELEASE ends a freeze after the record is read, resuming, sparing the failing row, or retiring the channel. -/
  | memRelease (slot : BitVec 6) (nvFail : Bool)
  /-- EVID_TRIGGER (R401). EVID_TRIGGER triggers the named rings that have CMD_EN set. -/
  | evidTrigger (slot : BitVec 6)
  /-- EVID_EXPORT (R405). EVID_EXPORT reads a frozen segment's records, checks HCRCs, writes the SHA-256 digest and reports the ranges, then releases for OP 2. -/
  | evidExport (slot : BitVec 6)
  /-- EVID_RELEASE (R405). EVID_EXPORT OP 1 frees a segment slot and returns its chunks to the ring. -/
  | evidRelease (slot : BitVec 6)
  /-- PWR_STATE (R327). PWR_STATE requests Run, Drowse, Pen or Winter and carries out the entry sequence up to the completion. -/
  | pwrState (slot : BitVec 6)
  /-- PORT_DISABLE (R147). PORT_DISABLE drains a port under a drain limit and takes its link down with cause DISABLED. -/
  | portDisable (slot : BitVec 6)
  /-- SESSION_OPEN (R382). SESSION_OPEN verifies a signature over the session message against the challenge and opens a session, or denies it. -/
  | sessionOpen (slot : BitVec 6)
  /-- SESSION_CLOSE (R385). SESSION_CLOSE ends any open session, raises SEC_SESSION_END and logs it. -/
  | sessionClose (slot : BitVec 6)
  /-- LC_ADVANCE (R387). LC_ADVANCE ADVANCE checks serial, role and precondition, writes the life cycle word, makes the erasures and schedules a reset. -/
  | lcAdvance (slot : BitVec 6) (nvFail : Option Bool)
  /-- FW_STAGE (R389). LC_ADVANCE FW_STAGE copies staged bytes into the uncommitted firmware slot and, with LAST, checks it. -/
  | fwStage (slot : BitVec 6) (nvFail : Bool)
  /-- FW_COMMIT (R389). LC_ADVANCE FW_COMMIT commits a checked firmware slot and optionally raises DEV_FW_FLOOR. -/
  | fwCommit (slot : BitVec 6) (nvFail : Bool)
  /-- LIFECYCLE_RESET (R387). 1 to 2 ms after the LC_ADVANCE completion the device resets with cause LIFECYCLE. -/
  | lifecycleReset (boot : Boot)
  /-- PORT_ENABLE (R122). A write of 1 to PORT_MODE.ENABLE places the port's paddocks and starts negotiation. -/
  | portEnable (port : BitVec 4) (val : Word)
  /-- PORT_MODE_DISABLE (R146). A write of 0 to PORT_MODE.ENABLE, or to ENABLE in MDIO 30.16, drains and disables the port. -/
  | portModeDisable (port : BitVec 4) (val : Word)
  /-- PORT_MODE_RESTART (R95). A write of 1 to PORT_MODE.RESTART drops the link with cause DISABLED and restarts negotiation with ILM offered again. -/
  | portModeRestart (port : BitVec 4) (val : Word)
  /-- PORT_CUSTOM_WRITE (R50). A write of a PORT_CUSTOM band register sends CUSTOM_DEF to the partner. -/
  | portCustomWrite (port : BitVec 4) (b : Bool) (k : BitVec 3) (val : Word)
  /-- TRIM_WRITE (R232). A write of a trim register takes effect at the next boundary, abandons any run and invalidates T_LAST, or is refused out of range. -/
  | trimWrite (off : BitVec 24) (val : Word)
  /-- PISTE_ENTRY_COMMIT (R183). A write to word 3 of a PISTE window entry commits the shadowed words, storing VALID clear if R164 fails, and sets DIRTY. -/
  | pisteEntryCommit (idx : BitVec 15) (val : Word)
  /-- PISTE_ENTRY_READ (R183). A read of word 0 of a PISTE window entry latches the whole entry for the reads of words 1 to 3. -/
  | pisteEntryRead (idx : BitVec 15)
  /-- PORT_BELL_GO (R209). A write of GO to PORT_BELL_CMD starts a bell sequence, or sets REFUSED on a port up in ILM or legacy mode. -/
  | portBellGo (port : BitVec 4) (val : Word)
  /-- BELL_SEND (R209). The next bell of a running sequence is sent once its interval has passed, or at the start of a Traverse turn. -/
  | bellSend (port : BitVec 4)
  /-- MEM_FLIP_ARM (R272). Setting MEM_FLIP_CTRL.ARM arms the flip mask for the next write by FLIP_REQ to an addressed row. -/
  | memFlipArm (pc : BitVec 5) (val : Word)
  /-- TST_MAN_GO (R375). A write of GO to TST_MAN_CTRL runs manual BIST on an out-of-service block, or sets RESULT 3. -/
  | tstManGo (val sig : Word) (pass : Bool)
  /-- EVID_RING_CFG_WRITE (R397). A write of EVID_RING_CFG is checked for ring overlap, port ownership and segment use, and enables or stops recording. -/
  | evidRingCfgWrite (ring word : BitVec 2) (val : Word)
  /-- CEN_SEL_WRITE (R406). A write of CEN_SEL.EVENT selects a counter's event and clears the counter. -/
  | cenSelWrite (k : BitVec 9) (val : Word)
  /-- EVT_FORCE (R418). A write of 1 to an EVT_FORCE bit raises the source as the device would. -/
  | evtForce (w : BitVec 4) (val : Word)
  /-- NEW_CHAL (R381). A write of 1 to SEC_SESS_CTRL.NEW_CHAL draws a fresh challenge and voids any earlier one. -/
  | newChal
  /-- KEY_READ (R380). SEC_KEY_CTRL GO with OP READ copies a key slot into SEC_KEY_STAGE. -/
  | keyRead (val : Word)
  /-- KEY_ENROL (R380). SEC_KEY_CTRL GO with OP ENROL checks rights and the curve point and writes the staged key into the slot. -/
  | keyEnrol (val : Word) (nvFail : Bool)
  /-- KEY_REVOKE (R380). SEC_KEY_CTRL GO with OP REVOKE empties a key slot, ending a session opened with it. -/
  | keyRevoke (val : Word) (nvFail : Bool)
  /-- IDENTITY_CHALLENGE (R390). A write of GO to SEC_ID_CTRL makes the identity signer sign the nonce, serial, part, stepping and life cycle state. -/
  | identityChallenge (val : Word)
  /-- SOFT_RESET (R360). A write of 1 to DEV_RESET_CTRL.GO in an installer or maker session resets the device with cause SOFT. -/
  | softReset (val : Word) (boot : Boot)
  /-- BAR2_READ (R307). A BAR2 read is allowed or refused by role and completes with the stack outcome, zeros or a poisoned completion. -/
  | bar2Read (off : BitVec 26) (len : Nat)
  /-- BAR2_WRITE (R308). A BAR2 write is allowed or refused by role and written to the stack, or discarded. -/
  | bar2Write (off : BitVec 26) (data : List (Option (BitVec 8)))
  /-- MDIO_READ (R319). A Clause 45 MDIO read frame returns the addressed register, latching the high half of 32-bit values. -/
  | mdioRead (port mmd : BitVec 5) (reg : BitVec 16)
  /-- MDIO_WRITE (R321). A Clause 45 MDIO write is applied only where the ACCESS section grants its group, otherwise counted and SEC_DENIED raised. -/
  | mdioWrite (port mmd : BitVec 5) (reg val : BitVec 16)
  /-- PERST_N (R309). PERST_N resets the PCI Express function, its configuration space, MSI-X state and DEV_BAR2_WIN, and closes the session. -/
  | perstN (low : Bool)
  /-- HOST_FRAME_RECEIVED (R297). A frame received whole on a host lane is staged toward the line, cut at MAX_FRAME or aborted when errored. -/
  | hostFrameReceived (lane : BitVec 4) (bytes : Bytes) (errored stalled : Bool) (took : Nat)
  /-- HOST_PAUSE_FRAME (R141). A PAUSE or matching PFC frame from the host is consumed and stops delivery to the host for its time. -/
  | hostPauseFrame (lane : BitVec 4) (pfc : Bool) (enables : BitVec 8) (quanta : BitVec 16)
  /-- HOST_PAUSE_EXPIRY (R141). The time that the host's PAUSE or PFC frame gave runs out and delivery to the host resumes. -/
  | hostPauseExpiry (port : BitVec 4)
  /-- XOFF_REFRESH (R140). While XOFF holds, the XOFF frame is resent every 400 µs. -/
  | xoffRefresh (port : BitVec 4)
  /-- LANE_LOSS (R299). A lane receive detector declares loss, raising HL_LOSS and ending any frame in progress with ABORT. -/
  | laneLoss (lane : BitVec 4) (det : BitVec 2) (mv : BitVec 16) (frame : Option Bytes)
  /-- LANE_RELOCK (R301). A lost lane re-locks and accepts data from the next start block after an idle, terminate or ordered set. -/
  | laneRelock (lane : BitVec 4) (mv : BitVec 16) (midFrame : Bool) (ppm : BitVec 8)
  /-- SYMBOL_RECEIVED (R84). A received ILM data symbol passes the impulse detector, which flags bands and erases bits or the whole symbol. -/
  | symbolReceived (port : BitVec 4) (err : List (BitVec 8)) (word : BitVec 32)
  /-- ERASURE_EVENT_END (R85). CLEAN_END clean symbols end an erasure event and hand its record to the herder. -/
  | erasureEventEnd (port : BitVec 4)
  /-- SUPERFRAME_BOUNDARY (R41). At each sync symbol the superframe count advances and periodic superframe work is done. -/
  | superframeBoundary (port : BitVec 4) (erased : Bool) (mon : Mon)
  /-- SERVICE_START (R61). At the named service S the codeword stream starts, GEN is reset or kept, and paddocks flush or resume. -/
  | serviceStart (port : BitVec 4)
  /-- CODEWORD_SLOT (R129). On each codeword slot the transmitter sends the oldest resend, a new lot within LIMIT, or an idle lot. -/
  | codewordSlot (port : BitVec 4) (ready : Bool)
  /-- LOT_RECEIVED (R59). A codeword is decoded and its lot is delivered, stored in the reorder area, or lost. -/
  | lotReceived (port : BitVec 4) (word : BitVec 17280) (mag : List (BitVec 8)) (stalled : Bool)
  /-- ACK_WORD (R126). A received ACK reverse word releases transmit lots up to CUM. -/
  | ackWord (port : BitVec 4) (cum : BitVec 24)
  /-- NAK_WORD (R130). A received NAK reverse word queues the named lots for resend, skipping released ones and voiding unreadable ones. -/
  | nakWord (port : BitVec 4) (payload : BitVec 24)
  /-- NAK_WAIT_EXPIRY (R128). A lot asked for has not arrived NAK_WAIT after the asking word, so the receiver asks again. -/
  | nakWaitExpiry (port : BitVec 4)
  /-- SWAP_ANNOUNCE (R67). A received SWAP ANNOUNCE is confirmed, rejected or left unanswered by the confirming end. -/
  | swapAnnounce (port : BitVec 4) (dir : Bool) (kind arg : BitVec 2) (sf : BitVec 16)
  /-- SWAP_CONFIRM (R67). A received SWAP CONFIRM makes the announcing end stop repeating and hold the change as confirmed. -/
  | swapConfirm (port : BitVec 4) (dir : Bool) (kind arg : BitVec 2) (sf : BitVec 16)
  /-- SWAP_REJECT (R66). A received SWAP REJECT ends the announced change at the announcing end. -/
  | swapReject (port : BitVec 4) (dir : Bool) (kind arg : BitVec 2) (sf : BitVec 16)
  /-- SWAP_CANCEL (R68). A received SWAP CANCEL drops the pending change, both words of a two-word change. -/
  | swapCancel (port : BitVec 4) (dir : Bool) (kind arg : BitVec 2) (sf : BitVec 16)
  /-- SWAP_CONFIRM_DEADLINE (R68). At symbol 128 of S − 1 an unconfirmed change is cancelled with CANCEL words, a normal sync and PORT_SWAP_FAIL. -/
  | swapConfirmDeadline (port : BitVec 4)
  /-- LOADING_CHANGE_AT_S (R69). At superframe S a pending change is applied on a flagged sync, dropped on a normal sync, or resolved by PTAG on an erased sync. -/
  | loadingChangeAtS (port : BitVec 4) (erased : Bool) (pts : List (BitVec 16 × BitVec 16))
  /-- BIT_SWAP_REQUEST (R72). The receiver of a direction decides a new Normal loading and sends LOADING_UPDATE. -/
  | bitSwapRequest (port : BitVec 4) (tones : List (BitVec 12))
  /-- PROFILE_SWAP_ANNOUNCE (R171). The leading end announces a profile swap into the zone profile at the first S that R66 allows. -/
  | profileSwapAnnounce (port : BitVec 4)
  /-- TONE_CAP_ANNOUNCE (R75). After the partner acknowledges CAP_UPDATE, the announcing end announces a tone cap for both directions. -/
  | toneCapAnnounce (port : BitVec 4)
  /-- VECTOR_JOIN_END (R82). A joining port's 256-superframe sweep ends and it becomes an active group member at an announced S. -/
  | vectorJoinEnd (port : BitVec 4)
  /-- MSG_ACK (R107). A received MSG_ACK acknowledges an EOC message. -/
  | msgAck (port : BitVec 4) (acked typ : BitVec 8)
  /-- EOC_RESEND_TIMEOUT (R107). 1 ms after its last send an unacknowledged EOC message is resent, or training fails or the link drops with EOC once resends are exhausted. -/
  | eocResendTimeout (port : BitVec 4)
  /-- EOC_RESERVED_MSG (R107). An EOC message of a reserved type is acknowledged and discarded. -/
  | eocReservedMsg (port : BitVec 4) (typ seq : BitVec 8) (noack : Bool)
  /-- TRAIN_SYNC (R98). A received TRAIN_SYNC gives the slave the master's superframe count in phase 1. -/
  | trainSync (port : BitVec 4) (count : BitVec 32)
  /-- TRAIN_START (R98). A received TRAIN_START names the service S and the link tag. -/
  | trainStart (port : BitVec 4) (seq : BitVec 8) (sf tag : BitVec 32)
  /-- WARM_CHECK (R105). A received WARM_CHECK is compared with stored state; a mismatch discards it and returns both ends to cold training. -/
  | warmCheck (port : BitVec 4) (seq : BitVec 8) (tag : BitVec 32) (own partner : BitVec 64) (gen : BitVec 8) (crcs : BitVec 128) (vec prof : BitVec 8) (sf : BitVec 32)
  /-- LINK_DOWN (R118). A received LINK_DOWN message takes the link down with cause PARTNER_NOTICE and keeps or discards stored state by WARM_EXPECTED. -/
  | linkDown (port : BitVec 4) (cause : BitVec 8) (warm : Bool)
  /-- STATUS (R117). A received STATUS message updates the partner's margins FE_MIN and FE_AVG. -/
  | status (port : BitVec 4) (rxMin rxAvg : BitVec 8) (lost : BitVec 32)
  /-- LPI_ENTER (R116). A received LPI_ENTER makes the link enter ILM low-power idle from the named S unless a zone is armed. -/
  | lpiEnter (port : BitVec 4) (seq : BitVec 8) (sf : BitVec 32)
  /-- LPI_WAKE (R116). A received LPI_WAKE restores full data symbols from the next superframe. -/
  | lpiWake (port : BitVec 4)
  /-- RATE_CAP (R46). A received RATE_CAP gives the partner's rate cap for the common R. -/
  | rateCap (port : BitVec 4) (seq : BitVec 8) (cap : BitVec 16)
  /-- LOADING_UPDATE (R72). A received LOADING_UPDATE is checked by the transmitter, which announces the bit swap. -/
  | loadingUpdate (port : BitVec 4) (seq id : BitVec 8) (entries : List (BitVec 32))
  /-- CAP_UPDATE (R75). A received CAP_UPDATE gives the active tone count of a coming tone cap. -/
  | capUpdate (port : BitVec 4) (seq : BitVec 8) (count : BitVec 16)
  /-- CUSTOM_DEF (R50). A received CUSTOM_DEF gives the partner's Custom band definitions for the direction. -/
  | customDef (port : BitVec 4) (seq : BitVec 8) (which : Bool) (bands : List (BitVec 32))
  /-- VEC_ERROR (R81). A received VEC_ERROR reports sync-tone errors for the precoder's coefficient updates. -/
  | vecError (port : BitVec 4) (sf : BitVec 16) (errors : Bytes)
  /-- IDENT (R108). A received IDENT gives the partner's part, serial, identity key, nonce and span. -/
  | ident (port : BitVec 4) (seq : BitVec 8) (part : BitVec 16) (step pport : BitVec 8) (serial : BitVec 64) (key : BitVec 512) (nonce : BitVec 128) (span : BitVec 16)
  /-- IDENT_PROOF (R109). A received IDENT_PROOF is verified and the result recorded in PORT_PARTNER_INFO.AUTH. -/
  | identProof (port : BitVec 4) (seq : BitVec 8) (sig : BitVec 512)
  /-- PAD_PARAMS (R133). A received PAD_PARAMS gives the partner's paddock capacities and sets a new LIMIT. -/
  | padParams (port : BitVec 4) (seq : BitVec 8) (rxLots txLots : BitVec 16) (boosted : Bool)
  /-- PAD_RESUME (R137). A received PAD_RESUME decides whether kept paddocks resume or both ends flush at S. -/
  | padResume (port : BitVec 4) (seq : BitVec 8) (cum high : BitVec 24) (kept : Bool)
  /-- PAD_VOID (R132). A received PAD_VOID makes the receiver use or give up the voided lots and stop asking for them. -/
  | padVoid (port : BitVec 4) (seq : BitVec 8) (ranges : List (BitVec 24 × BitVec 24))
  /-- PISTE_LEAD (R169). A received PISTE_LEAD updates the partner's claim and decides which end leads. -/
  | pisteLead (port : BitVec 4) (claim fixValid stopped : Bool) (route : BitVec 32) (pos : BitVec 40) (speed : BitVec 16)
  /-- AN_COMPLETE (R94). Clause 98 negotiation completes and resolves the highest common mode, timing roles, paddock and LPI use. -/
  | anComplete (port : BitVec 4) (ability : Option (BitVec 32)) (tech : BitVec 5) (master : Bool)
  /-- TRAINING_PHASE_END (R98). A cold training phase completes and the next phase begins. -/
  | trainingPhaseEnd (port : BitVec 4) (span : BitVec 16) (tones : List (BitVec 12 × BitVec 8)) (service : BitVec 32)
  /-- TRAINING_PHASE_LATE (R98). A training phase passes its latest time, failing training with its code and returning to negotiation. -/
  | trainingPhaseLate (port : BitVec 4)
  /-- PARTNER_WAIT_TIMEOUT (R98). Training has not reached its first phase end 500 ms after negotiation, so negotiation restarts with PARTNER_WAIT. -/
  | partnerWaitTimeout (port : BitVec 4)
  /-- PARTNER_SIGNAL_DETECTED (R104). The pilot detector of a port with stored state finds the partner's sync or warm call and the port enters warm restart. -/
  | partnerSignalDetected (port : BitVec 4)
  /-- WARM_CHECK_TIMEOUT (R105). The partner's WARM_CHECK has not arrived by 4.5 ms, so stored state is discarded and cold training follows. -/
  | warmCheckTimeout (port : BitVec 4)
  /-- WARM_HOLD_EXPIRY (R104). WARM_HOLD passes after a link drop and the port falls to negotiation, flushing kept paddocks. -/
  | warmHoldExpiry (port : BitVec 4)
  /-- LOSS_OF_SYNC (R118). No sync symbol has been received without erasure for DOWN_TIME or DOWN_TIME_ZONE, so the link goes down. -/
  | lossOfSync (port : BitVec 4)
  /-- MARGIN_DOWN_TIMEOUT (R118). RX_AVG has been below MARGIN_DOWN for 2 s without erasure, so the link goes down with cause MARGIN. -/
  | marginDownTimeout (port : BitVec 4)
  /-- MARGIN_LOW_TIMEOUT (R117). RX_AVG has stayed below MARGIN_TGT − 3 dB for 1 s, raising PORT_MARGIN_LOW. -/
  | marginLowTimeout (port : BitVec 4)
  /-- ECHO_LOW_TIMEOUT (R77). Echo reduction has stayed below 70 dB for 1 s, raising PORT_ECHO_LOW. -/
  | echoLowTimeout (port : BitVec 4)
  /-- LEGACY_LINK_FAIL (R118). A legacy clause's link status fails and the link goes down with cause LEGACY. -/
  | legacyLinkFail (port : BitVec 4)
  /-- ILM_SUPPRESS_EXPIRY (R95). 60 s after ILM was suppressed, the port offers ILM again. -/
  | ilmSuppressExpiry (port : BitVec 4)
  /-- LPI_IDLE_TIMEOUT (R116). Both directions have carried only idle lots for LPI_IDLE × 16 superframes, so the master sends LPI_ENTER. -/
  | lpiIdleTimeout (port : BitVec 4)
  /-- LEGACY_LPI_IDLE (R115). A legacy port's buffer has held no frame for the clause's idle time, so the line enters low-power idle. -/
  | legacyLpiIdle (port : BitVec 4)
  /-- LINKREQ (R199). A whole LINKREQ burst received by a port that allows Traverse makes it respond with LINKACC. -/
  | linkreq (port : BitVec 4) (hdr : TrvHdr)
  /-- LINKACC (R199). A whole LINKACC burst makes the requester send LINKCFM with PASS and establish the link. -/
  | linkacc (port : BitVec 4) (hdr : TrvHdr)
  /-- LINKCFM (R199). A whole LINKCFM burst establishes the link at the responder, which then holds the token. -/
  | linkcfm (port : BitVec 4) (hdr : TrvHdr)
  /-- DATA_BURST (R205). A whole DATA burst is acknowledged and its good payload's frames delivered in SEQ order. -/
  | dataBurst (port : BitVec 4) (hdr : TrvHdr) (coded : Bytes) (missing : List (BitVec 14))
  /-- TOKEN_BURST (R203). A whole TOKEN burst updates acknowledgements and passes the token. -/
  | tokenBurst (port : BitVec 4) (hdr : TrvHdr)
  /-- IDENT_BURST (R202). A whole IDENT burst carries the partner's IDENT body and, from the requester, its proof. -/
  | identBurst (port : BitVec 4) (hdr : TrvHdr) (coded : Bytes) (missing : List (BitVec 14))
  /-- PROOF_BURST (R202). A whole PROOF burst carries the responder's identity proof. -/
  | proofBurst (port : BitVec 4) (hdr : TrvHdr) (coded : Bytes) (missing : List (BitVec 14))
  /-- LEAVE (R207). A received LEAVE burst takes the Traverse link down with cause PARTNER_NOTICE. -/
  | leave (port : BitVec 4) (hdr : TrvHdr)
  /-- PREAMBLE_DETECTED (R194). Eight consecutive compressed up-chirp peaks detect a preamble and Q0 is measured. -/
  | preambleDetected (port : BitVec 4) (len : BitVec 2) (snr gain : BitVec 8) (delay : BitVec 32)
  /-- FALSE_DETECTION (R195). The down-chirp pair or sync word is not found in time, so the reception is a false detection. -/
  | falseDetection (port : BitVec 4) (sync : Option (BitVec 48))
  /-- SHADOW_RESTART (R196). The shadow correlator finds a stronger preamble within 24 chirp periods and reception restarts on it. -/
  | shadowRestart (port : BitVec 4) (periods : BitVec 8) (len : BitVec 2) (snr gain : BitVec 8) (delay : BitVec 32)
  /-- BURST_TRUNCATED (R197). Four consecutive missing chirp periods end a burst as truncated. -/
  | burstTruncated (port : BitVec 4)
  /-- TURN_START (R203). TURN_GAP after a whole burst with PASS, the end starts its turn, resending unacknowledged bursts first. -/
  | turnStart (port : BitVec 4)
  /-- TOKEN_RECLAIM (R204). The token master hears no preamble for TURN_MAX + 2 ms and takes the token. -/
  | tokenReclaim (port : BitVec 4)
  /-- LINKREQ_RETRY (R199). After a random 0.5 to 1.5 ms wait, a searching port sends another LINKREQ. -/
  | linkreqRetry (port : BitVec 4)
  /-- ACQUISITION_TIMEOUT (R199). No preamble arrives within 1 ms of an acquisition burst, so the end returns to search. -/
  | acquisitionTimeout (port : BitVec 4)
  /-- TRV_LOSS_TIMEOUT (R207). No whole header with the link's tag for LOSS_MS takes the Traverse link down with LOSS_OF_SYNC. -/
  | trvLossTimeout (port : BitVec 4)
  /-- SEARCH_EXPIRY (R198). SEARCH time passes without a link and the port negotiates for TRV_AFTER. -/
  | searchExpiry (port : BitVec 4)
  /-- TRV_AFTER_EXPIRY (R198). Negotiation has run TRV_AFTER without completing, so the port enters Traverse search. -/
  | trvAfterExpiry (port : BitVec 4)
  /-- BELL_ACCEPTED (R211). The bell detector accepts a bell, counts it, records the code, raises PORT_BELL_RX and serves as a wake where asleep. -/
  | bellAccepted (port : BitVec 4) (chirps : BitVec 4) (code : BitVec 16) (boot : Boot)
  /-- ODOMETER_EDGE (R154). A counted edge on ODO_A or ODO_B moves the position by POS_SCALE, or an error transition is counted. -/
  | odometerEdge (a b : Bool) (after stands : BitVec 32)
  /-- POSITION_TICK (R158). Every 1 ms speed and acceleration are estimated and hold is judged. -/
  | positionTick
  /-- HOLD_TIMEOUT (R161). Hold ends after 10 s, edges are counted again and DEGRADED is set. -/
  | holdTimeout
  /-- STOPPED_TIMEOUT (R162). 2 s with no counted edge outside hold declares STOPPED and raises POS_MOTION. -/
  | stoppedTimeout
  /-- FIX_AGE_EXPIRY (R160). With ODO_EN 0, FIX_VALID clears FIX_MAX_AGE seconds after the last fix. -/
  | fixAgeExpiry
  /-- PISTE_ENGINE_TICK (R167). Every 1 ms the piste engine judges every entry against the position. -/
  | pisteEngineTick
  /-- LEARNING_RECORD (R174). The herder takes an erasure record into learning, widening or creating an entry. -/
  | learningRecord (port : BitVec 4)
  /-- PASS_UPDATE (R175). At the end of a pass the herder updates an entry's HITS, AGE and CONF, deleting aged learned entries. -/
  | passUpdate
  /-- AUTOSAVE (R181). When STOPPED begins with DIRTY set and AUTOSAVE on, the herder saves the active table into its bound slot. -/
  | autosave (nvFail : Bool)
  /-- SWEEP_LISTEN_RETRY (R216). After a random 100 to 300 µs wait the port listens again before sweeping. -/
  | sweepListenRetry (port : BitVec 4) (quiet : BitVec 5) (echo : Echo) (nvFail : Bool)
  /-- CABLE_CHECK_PERIOD (R223). The herder runs a periodic DIAG_PASSIVE on a port with a passive baseline. -/
  | cableCheckPeriod (port : BitVec 4) (echo : Echo)
  /-- CAL_UNIT_START (R225). A unit that has fallen due starts its calibration run once no hold applies. -/
  | calUnitStart (unit : BitVec 6)
  /-- CAL_STAGE_END (R230). A calibration stage ends and its new values are checked for range and plausibility. -/
  | calStageEnd (unit : BitVec 6) (vals : List (BitVec 8)) (before after : List (BitVec 16)) (train : Train)
  /-- MEM_REQUEST (R242). A requester's request is translated and placed in its pseudo-channel queue, then served with a read outcome or write. -/
  | memRequest (req : BitVec 6) (part : BitVec 4) (addr : BitVec 40) (en : BitVec 64) (wr : Bool) (data : Bytes) (hint capped full : Bool) (upsets : List (BitVec 10 × BitVec 13))
  /-- MEM_CMD_PARITY_ERROR (R273). A core die reports a command or address parity error, freezing the pseudo-channel. -/
  | memCmdParityError (pc : BitVec 5) (req : BitVec 6) (bank : BitVec 4) (row : BitVec 15) (unit : Option (BitVec 4))
  /-- REFRESH_DUE (R248). A bank's refresh interval passes and its refresh is issued, postponed or pulled in. -/
  | refreshDue (pc : BitVec 5) (bank : BitVec 4) (how : BitVec 2)
  /-- TALLY_PERIOD_END (R251). At each tally period boundary every tally table is cleared. -/
  | tallyPeriodEnd (ch : BitVec 4)
  /-- PAGE_IDLE_EXPIRY (R245). An open row with no request queued for PAGE_IDLE is closed. -/
  | pageIdleExpiry (pc : BitVec 5) (bank : BitVec 4)
  /-- LAME_WINDOW (R256). At the end of each 100 µs window pseudo-channels are judged and marked or cleared lame. -/
  | lameWindow (stats : List (BitVec 16 × BitVec 16))
  /-- GLEANER_ROW (R268). The gleaner reads or fills the next row of its lap, correcting, poisoning or filling. -/
  | gleanerRow (pc : BitVec 5) (upsets : List (BitVec 10 × BitVec 13))
  /-- LAP_ALARM (R270). A lap runs longer than LAP_ALARM seconds and FAB_LAP_ALARM is raised. -/
  | lapAlarm (pc : BitVec 5)
  /-- AUTO_REPAIR (R271). With AUTO_REPAIR on, the herder spares a failing row or steers a failing TSV. -/
  | autoRepair (pc : BitVec 5) (nvFail : Bool)
  /-- FREEZE_AUTO_RELEASE (R275). AUTO_REL × 100 ms after a freeze the pseudo-channel is released automatically. -/
  | freezeAutoRelease (pc : BitVec 5) (nvFail : Bool)
  /-- DROWSE_POWER_DOWN (R253). In Drowse a pseudo-channel whose queue has been empty for 1 µs enters power-down. -/
  | drowsePowerDown (pc : BitVec 5)
  /-- DROVER_PERIOD (R337). Every 100 µs the drover sums demand against the effective budget and applies or reverses caps and level changes. -/
  | droverPeriod
  /-- PL_RAISE_SETTLE (R326). 50 µs after PWR_VID is raised, the core clock switches to the higher level. -/
  | plRaiseSettle
  /-- SENSOR_READ (R343). Every 1 ms each temperature sensor is read and checked against thresholds and its peers. -/
  | sensorRead (base core : List (BitVec 5 × Option (BitVec 16))) (boot : Boot)
  /-- THERMAL_TRIP (R345). A core die above 100 °C or base die above 115 °C for 1 ms silences the pairs, puts the stack in self-refresh and closes the core gates. -/
  | thermalTrip
  /-- HERDER_WATCHDOG_EXPIRY (R324). The herder watchdog expires and the always-on domain restarts the herder alone. -/
  | herderWatchdogExpiry
  /-- PEN_ENTRY_WAIT (R328). At least 1 ms after the entry completion, the herder writes PWR_MODE and the always-on domain powers down the core. -/
  | penEntryWait
  /-- WINTER_AFTER_EXPIRY (R331). WINTER_AFTER minutes in Pen with no wake drive PWR_EN_STACK low and the device enters Winter. -/
  | winterAfterExpiry
  /-- WAKE_N (R332). WAKE_N low for at least 10 µs wakes the device from Drowse, Pen or Winter. -/
  | wakeN (us : BitVec 16) (boot : Boot)
  /-- LINK_ENERGY (R332). ILM pilots, a warm call or Clause 98 pulses seen for 100 µs wake the device from Pen or Winter. -/
  | linkEnergy (port : BitVec 4) (us : BitVec 16) (boot : Boot)
  /-- PCIE_WAKE (R309). Lane 0 of the PCI Express receiver leaving electrical idle wakes the device from Pen or Winter. -/
  | pcieWake (boot : Boot)
  /-- ODOMETER_WAKE (R332). ODO_WAKE_EDGES odometer edges counted since entry wake the device. -/
  | odometerWake (boot : Boot)
  /-- PWR_TIMER_EXPIRY (R332). PWR_TIMER reaches 0 and wakes the device. -/
  | pwrTimerExpiry (boot : Boot)
  /-- CORE_OFF_TIME_END (R425). The 50 µs least off time of PWR_EN_CORE ends and a latched wake starts the return. -/
  | coreOffTimeEnd (boot : Boot)
  /-- PEN_RETURN_STEP (R333). A step of the return from Pen ends and the steps that follow it begin. -/
  | penReturnStep (step : BitVec 3) (ups : List (BitVec 5 × BitVec 4 × BitVec 10 × BitVec 13))
  /-- CLOCK_GATE_REQUEST (R355). A clock gate requests closure and closes once its block acknowledges at a transaction boundary. -/
  | clockGateRequest (block : BitVec 4) (ack demand : Bool)
  /-- GATE_ACK_TIMEOUT (R355). No acknowledgement within 2 µs withdraws the gate request, refusing a power state entry or counting a refusal. -/
  | gateAckTimeout (why : BitVec 4)
  /-- LREFCLK_TRIP (R352). The clock monitor trips on LREFCLK and the device enters clock hold. -/
  | lrefclkTrip
  /-- CLOCK_HOLD_COAST_END (R352). 1 µs after the trip the core gates close, pairs go silent, the stack enters self-refresh and bypass outputs are released. -/
  | clockHoldCoastEnd
  /-- HREFCLK_TRIP (R354). The clock monitor trips on HREFCLK, idling every host lane transmitter while ports stay up. -/
  | hrefclkTrip
  /-- OSCILLATOR_JUDGED (R349). Eight consecutive in-tolerance windows judge an oscillator good. -/
  | oscillatorJudged (which : BitVec 2) (counts : List (BitVec 16)) (boot : Boot)
  /-- IRO_JUDGE_DEADLINE (R350). The IRO is not judged by its 400 µs deadline, marking IRO_FAILED at a start or resetting with CLOCK_LOSS in clock hold. -/
  | iroJudgeDeadline
  /-- XO32_ACCEPTED (R350). Eight consecutive in-tolerance XO32 periods make the always-on domain accept XO32. -/
  | xo32Accepted (counts : List (BitVec 16))
  /-- XO32_DROPPED (R350). An XO32 period outside tolerance makes the always-on domain drop XO32 and keep time from AO-RC. -/
  | xo32Dropped (count : BitVec 16)
  /-- POWER_ON_RESET (R361). VDD_AO rising or falling below its limit resets the device and runs the cold start. -/
  | powerOnReset (boot : Boot)
  /-- SUPPLY_FAULT (R427). A switched rail outside ±8 % for 1 µs resets the device with cause SUPPLY. -/
  | supplyFault (stack : Bool) (boot : Boot)
  /-- RESET_PIN (R357). RESET_N low for at least 10 µs resets the device with cause RESET_PIN. -/
  | resetPin (us : BitVec 16) (boot : Boot)
  /-- DEBUG_RESET (R357). A maker debug session's reset instruction resets the device with cause DEBUG. -/
  | debugReset (boot : Boot)
  /-- DEBUG_HALT (R393). An attached debugger halts the herder, stopping the watchdog and suspending commands and training bounds. -/
  | debugHalt
  /-- DEBUG_RESUME (R393). The debugger lets the halted herder run again. -/
  | debugResume
  /-- BOUNDARY_SCAN_ENTER (R391). A boundary scan instruction that drives the pins drops every link and puts the stack in self-refresh. -/
  | boundaryScanEnter (byp : Byte)
  /-- BOUNDARY_SCAN_EXIT (R391). The TAP leaves a pin-driving instruction and the device returns as from clock hold. -/
  | boundaryScanExit
  /-- SESSION_EXPIRY (R385). A session's lifetime ends in DEV_TIME, ending the session and any debug unlock. -/
  | sessionExpiry
  /-- CHALLENGE_EXPIRY (R381). A challenge becomes void 60 s after it was drawn. -/
  | challengeExpiry
  /-- LOCKOUT_END (R384). A 60 s lockout ends and SESSION_OPEN is judged again. -/
  | lockoutEnd
  /-- ROTATION_SWAP (R367). An idle slice shadows a serving slice and swaps with it at a free symbol 0, freeing it for test. -/
  | rotationSwap (slice : BitVec 7)
  /-- SLICE_TEST_END (R367). A slice test ends; the slice is re-initialised and left idle, or marked failed. -/
  | sliceTestEnd (pass : Bool)
  /-- SR_SEGMENT (R368). Every SEG_GAP a save-and-restore block is saved, tested for one segment and restored. -/
  | srSegment (block : BitVec 7) (served crc pass : Bool)
  /-- SLICE_CHECKER_FIRED (R373). A residue or ECC checker fires on a serving slice, erasing its tones and handing it over to an idle slice. -/
  | sliceCheckerFired (slice : BitVec 7)
  /-- ROTATION_OVERDUE (R369). A slice untested for twice SLICE_PERIOD raises TST_OVERDUE. -/
  | rotationOverdue (slice : BitVec 7)
  /-- DRAIN_END (R146). A drain ends when the paddocks are empty, DRAIN_MS passes or the link drops, then flushes and sends LINK_DOWN. -/
  | drainEnd (port : BitVec 4)
  /-- EVT_TRIG_PIN (R401). A high on EVT_TRIG for at least 10 µs triggers every ring with PIN_EN set. -/
  | evtTrigPin (low high : BitVec 16)
  /-- SEGMENT_FREEZE (R402). POST_S or POST_M after the trigger the segment's last chunk closes and it becomes FROZEN, raising EVID_FROZEN. -/
  | segmentFreeze (seg : BitVec 3)
  /-- CENSUS_LATCH (R407). At each multiple of PERIOD_US every census counter is latched and a dump written, or skipped. -/
  | censusLatch (busy : Bool)
  /-- LEGACY_LINK_UP (R113). A legacy IEEE mode's start-up completes and the clause's link status comes up, so the port is up in that mode. -/
  | legacyLinkUp (port : BitVec 4) (forced : Option (BitVec 3 × Bool)) (needs : Bool)
  /-- LEGACY_FRAME_RECEIVED (R19). A frame received on the line in a legacy mode passes cut-through into the rate adaptation buffer and out to the host lane, is mirrored to evidence, or is discarded when the buffer is full. -/
  | legacyFrameReceived (port : BitVec 4) (bytes : Bytes) (errored : Bool)
  /-- HERDER_RUNNING_AGAIN (R324). The herder is running again after a watchdog restart, so the command that was running completes with ABORTED and waiting commands start. -/
  | herderRunningAgain
  /-- FREEZE_RECORD_READ (R275). A host read of the word at offset 0x27C of a freeze record sets MEM_INTEG_STATE.REC_READ, which allows MEM_RELEASE. -/
  | freezeRecordRead (pc : BitVec 5)
  /-- CONFIGURATION_WRITE (R414). A PCI Express configuration write changes the power state or MSI-X enable, which can bring the function to D0 with MSI-X enabled and send owed messages. -/
  | configurationWrite (d3hot msixEn funcMask : Bool)
  /-- CONTROL_PORT_LINK_UP (R332). The control port link trains again after Pen or a link loss, and owed MSI-X messages, PWR_WAKE's included, are sent. -/
  | controlPortLinkUp
  /-- DEBUGGER_ATTACH (R393). A debugger attaches to the herder through the unlocked debug instructions, so SEC_STATE.DEBUG reads attached and Pen and Winter entries are refused with DEBUG. -/
  | debuggerAttach
  /-- DEBUGGER_DETACH (R393). The debugger detaches from the herder, so the debug state returns to unlocked or locked and power state entries are allowed again. -/
  | debuggerDetach
  /-- TRV_HEADER_DISCARD (R192). A Traverse reception whose header fails HCRC, carries a reserved TYPE or carries a foreign LINK_TAG is ended, counted in PORT_TRV_HDR_ERR where it applies, and the AGC is released. -/
  | trvHeaderDiscard (port : BitVec 4) (hdr : BitVec 128)
  deriving DecidableEq, Repr

end Sys2Proof
end

