-- ==== Sys2Proof/Machine/Codes.lean ====
section
/-!
DEFINITION. Byte order, bit fields, the check sequences that the spec's formats use (CRC-32, CRC-8), and SHA-256.
-/
namespace Sys2Proof.Machine

/-- The little-endian value of a byte sequence (R6). -/
def leVal : Bytes → Nat
  | [] => 0
  | b :: bs => b.toNat + 256 * leVal bs

/-- The `len` little-endian bytes of a value (R6). -/
def leBytes (v : Nat) : Nat → Bytes
  | 0 => []
  | len + 1 => BitVec.ofNat 8 v :: leBytes (v / 256) len

/-- The `len` bytes at an offset; bytes beyond the end read 0. -/
def slice (bs : Bytes) (off len : Nat) : Bytes :=
  let t := (bs.drop off).take len
  t ++ List.replicate (len - t.length) 0

/-- The byte at an offset; beyond the end it reads 0. -/
def u8 (bs : Bytes) (off : Nat) : Nat := (bs.getD off 0).toNat

/-- The little-endian field of `len` bytes at an offset. -/
def uLe (bs : Bytes) (off len : Nat) : Nat := leVal (slice bs off len)

/-- The two's complement value of the low `bits` bits. -/
def signed (bits v : Nat) : Int :=
  if v % 2 ^ bits < 2 ^ (bits - 1) then (v % 2 ^ bits : Nat) else ((v % 2 ^ bits : Nat) : Int) - 2 ^ bits

/-- The low `bits` bits of an integer in two's complement. -/
def unsigned (bits : Nat) (v : Int) : Nat := (v % 2 ^ bits).toNat

/-- The bits `lo` to `lo + len - 1` of a number. -/
def bits (v lo len : Nat) : Nat := (v >>> lo) % 2 ^ len

/-- Bit `i` of a number. -/
def bit (v i : Nat) : Bool := v.testBit i

/-- 1 for true, 0 for false. -/
def b2n (b : Bool) : Nat := if b then 1 else 0

/-- How many of the low `n` bits are 1. -/
def popcount (v : Nat) : Nat → Nat
  | 0 => 0
  | n + 1 => b2n (v.testBit n) + popcount v n

/-- The indices below `n` at which the mask has a 1, ascending. -/
def maskList (v n : Nat) : List Nat := (List.range n).filter fun i => v.testBit i

/-- The mask with a 1 at each listed index. -/
def listMask (l : List Nat) : Nat := l.foldl (fun m i => m ||| (1 <<< i)) 0

/-- One bit step of the reflected CRC-32 register. -/
def crc32Bit (c : Word) : Word :=
  if c.getLsbD 0 then (c >>> 1) ^^^ 0xEDB88320#32 else c >>> 1

/-- One byte into the reflected CRC-32 register. -/
def crc32Byte (c : Word) (b : Byte) : Word :=
  let c := c ^^^ b.zeroExtend 32
  crc32Bit (crc32Bit (crc32Bit (crc32Bit (crc32Bit (crc32Bit (crc32Bit (crc32Bit c)))))))

/-- CRC-32 with the IEEE 802.3 polynomial (Table 2-1, HDR_CRC). -/
def crc32 (bs : Bytes) : Nat := ((bs.foldl crc32Byte 0xFFFFFFFF#32) ^^^ 0xFFFFFFFF#32).toNat

/-- A CRC of `w` bits, most significant bit first, neither reflected nor complemented: one bit into the register. -/
def crcMsbBit (w poly : Nat) (c : Nat) (b : Bool) : Nat :=
  let top := c.testBit (w - 1) != b
  let c := (c <<< 1) % 2 ^ w
  if top then c ^^^ poly else c

/-- The bits of a byte, most significant first. -/
def byteBits (b : Byte) : List Bool := (List.range 8).map fun i => b.getLsbD (7 - i)

/-- A CRC of `w` bits over bytes, each byte taken most significant bit first. -/
def crcMsb (w poly init : Nat) (bs : Bytes) : Nat :=
  bs.foldl (fun c b => (byteBits b).foldl (crcMsbBit w poly) c) init

/-- The CHECK of the commit word (Table 2-13): CRC-8, polynomial 0x07, initial value 0, over bytes 0 and 2 to 7. -/
def commitCheck (w : BitVec 64) : Nat :=
  let bs := leBytes w.toNat 8
  crcMsb 8 0x07 0 (bs.take 1 ++ bs.drop 2)

/-! ## SHA-256 (FIPS 180-4, named by R5) -/

/-- The greatest number whose `k`-th power is at most `x`, by its bits from bit `n - 1` down. -/
def rootBits (k x : Nat) : Nat → Nat → Nat
  | 0, r => r
  | n + 1, r => rootBits k x n (if (r + 2 ^ n) ^ k ≤ x then r + 2 ^ n else r)

/-- The first 32 bits after the point of the `k`-th root of a prime below 512. -/
def rootWord (k p : Nat) : Word := BitVec.ofNat 32 (rootBits k (p * 2 ^ (32 * k)) 37 0)

/-- The primes below `n`. -/
def primesBelow (n : Nat) : List Nat :=
  (List.range n).filter fun p => decide (2 ≤ p) && (List.range p).all fun d => decide (d < 2) || decide (p % d ≠ 0)

/-- A word turned right by three amounts, the results added modulo 2; with `cut` the last one is shifted and not turned. -/
def shaMix (x : Word) (i j k : Nat) (cut : Bool) : Word :=
  x.rotateRight i ^^^ (x.rotateRight j ^^^ (if cut then x >>> k else x.rotateRight k))

/-- What SHA-256 carries from round to round: the schedule's next sixteen words, and the eight working words. -/
structure Sha where
  sched : List Word := []
  work  : List Word := []
  deriving DecidableEq, Repr

/-- A round with its constant: the schedule moves on by one word, and the working words turn by one place. -/
def Sha.round (s : Sha) (k : Word) : Sha :=
  let w (i : Nat) := s.sched.getD i 0
  let v (i : Nat) := s.work.getD i 0
  let pick := v 6 ^^^ (v 4 &&& (v 5 ^^^ v 6))
  let most := (v 0 &&& (v 1 ||| v 2)) ||| (v 1 &&& v 2)
  let t := k + w 0 + v 7 + pick + shaMix (v 4) 6 11 25 false
  { sched := s.sched.drop 1 ++ [w 0 + w 9 + shaMix (w 1) 7 18 3 true + shaMix (w 14) 17 19 10 true]
    work := (most + t + shaMix (v 0) 2 13 22 false) :: [v 0, v 1, v 2, v 3 + t, v 4, v 5, v 6] }

/-- A word of bytes, the first the most significant. -/
def beWord (bs : Bytes) : Word := BitVec.ofNat 32 (leVal bs.reverse)

/-- The chaining words after the blocks of a padded message, `n` of them. -/
def shaChain (ks : List Word) : Nat → Bytes → List Word → List Word
  | 0, _, h => h
  | n + 1, m, h =>
    let sched := (List.range 16).map fun i => beWord ((m.drop (4 * i)).take 4)
    shaChain ks n (m.drop 64) (h.zipWith (· + ·) (ks.foldl Sha.round { sched := sched, work := h }).work)

/-- The SHA-256 digest of a message: 32 bytes. The message is padded with a 1 bit, zeros, and its length in bits. -/
def sha256 (m : Bytes) : Bytes :=
  let blocks := (m.length + 72) / 64
  let fill := List.replicate (64 * blocks - 9 - m.length) (0 : Byte)
  let whole := m ++ 0x80#8 :: fill ++ (leBytes (8 * m.length) 8).reverse
  let ps := primesBelow 312
  (shaChain (ps.map (rootWord 3)) blocks whole ((ps.take 8).map (rootWord 2))).flatMap fun w => (leBytes w.toNat 4).reverse

end Sys2Proof.Machine
end

