-- ==== Sys2Proof/Machine/Curve.lean ====
section
/-!
DEFINITION. ECDSA on the P-256 curve (FIPS 186, named by R5 as the one curve the device uses): the check of a
signature, the making of one, and the test that a point lies on the curve. Keys are x then y and signatures r then s,
each a 32-byte little-endian integer (R20, R380, R390). PRESUMED from the standard; log entry 2.
-/
namespace Sys2Proof.Machine

/-- The field prime of P-256. -/
def curveP : Nat := 2 ^ 256 - 2 ^ 224 + 2 ^ 192 + 2 ^ 96 - 1
/-- The order of the base point of P-256. -/
def curveN : Nat := 0xFFFFFFFF00000000FFFFFFFFFFFFFFFFBCE6FAADA7179E84F3B9CAC2FC632551
/-- The coefficient b of P-256. -/
def curveB : Nat := 0x5AC635D8AA3A93E7B3EBBD55769886BC651D06B0CC53B0F63BCE3C3E27D2604B
/-- The base point of P-256. -/
def curveG : Nat × Nat :=
  (0x6B17D1F2E12C4247F8BCE6E563A440F277037D812DEB33A0F4A13945D898C296,
   0x4FE342E2FE1A7F9B8EE7EB4A7C0F9E162BCE33576B315ECECBB6406837BF51F5)

/-- One square-and-multiply pass over bits of the exponent, most significant first. -/
def powModBits (m b : Nat) (es : List Bool) : Nat :=
  es.foldl (fun a e => let q := a * a % m; if e then q * b % m else q) (1 % m)

/-- The low 256 bits of a number, most significant first. -/
def bits256 (v : Nat) : List Bool := (List.range 256).map fun i => v.testBit (255 - i)

/-- The inverse of `a` modulo a prime `m`. -/
def invMod (m a : Nat) : Nat := powModBits m (a % m) (bits256 (m - 2))

/-- `a - b` modulo `m`. -/
def subMod (m a b : Nat) : Nat := (a % m + (m - b % m)) % m

/-- A point in Jacobian coordinates (X, Y, Z); Z = 0 is the point at infinity. -/
abbrev Jac := Nat × Nat × Nat

/-- Twice a point. -/
def jacDouble (q : Jac) : Jac :=
  let (x, y, z) := q
  let y2 := y * y % curveP
  let sv := 4 * x * y2 % curveP
  let z2 := z * z % curveP
  let mv := 3 * (subMod curveP x z2 * ((x + z2) % curveP)) % curveP
  let x' := subMod curveP (mv * mv) (2 * sv)
  (x', subMod curveP (mv * subMod curveP sv x') (8 * (y2 * y2 % curveP)), 2 * y * z % curveP)

/-- The sum of two points. -/
def jacAdd (q r : Jac) : Jac :=
  let (x1, y1, z1) := q
  let (x2, y2, z2) := r
  if z1 = 0 then r else if z2 = 0 then q else
  let a := z1 * z1 % curveP
  let b := z2 * z2 % curveP
  let u1 := x1 * b % curveP
  let u2 := x2 * a % curveP
  let s1 := y1 * (b * z2 % curveP) % curveP
  let s2 := y2 * (a * z1 % curveP) % curveP
  if u1 = u2 then (if s1 = s2 then jacDouble q else (1, 1, 0)) else
  let h := subMod curveP u2 u1
  let t := subMod curveP s2 s1
  let h2 := h * h % curveP
  let h3 := h2 * h % curveP
  let v := u1 * h2 % curveP
  let x3 := subMod curveP (t * t) (h3 + 2 * v)
  (x3, subMod curveP (t * subMod curveP v x3) (s1 * h3), h * (z1 * z2 % curveP) % curveP)

/-- A multiple of a point. -/
def jacMul (k : Nat) (q : Jac) : Jac :=
  (bits256 k).foldl (fun a e => let d := jacDouble a; if e then jacAdd d q else d) (1, 1, 0)

/-- The affine x coordinate of a point that is not at infinity. -/
def jacX (q : Jac) : Nat :=
  let zi := invMod curveP q.2.2
  q.1 * (zi * zi % curveP) % curveP

/-- A point given as 64 bytes, x then y, lies on the curve. -/
def onCurve (key : Bytes) : Bool :=
  let x := uLe key 0 32
  let y := uLe key 32 32
  decide (x < curveP) && decide (y < curveP) &&
    decide (y * y % curveP = (x * x * x + (curveP - 3) * x + curveB) % curveP)

/-- The signature (r then s, 64 bytes) over the SHA-256 digest of a message verifies under the public key. -/
def ecdsaVerify (key msg sig : Bytes) : Bool :=
  let r := uLe sig 0 32
  let sv := uLe sig 32 32
  let z := leVal (sha256 msg).reverse
  let w := invMod curveN sv
  let q := jacAdd (jacMul (z * w % curveN) (curveG.1, curveG.2, 1))
    (jacMul (r * w % curveN) (uLe key 0 32, uLe key 32 32, 1))
  decide (0 < r) && decide (r < curveN) && decide (0 < sv) && decide (sv < curveN) && onCurve key &&
    decide (q.2.2 ≠ 0) && decide (jacX q % curveN = r)

/-- The signature of a message with the private key `d` and the drawn nonce `k`. -/
def ecdsaSign (d k : Nat) (msg : Bytes) : Bytes :=
  let r := jacX (jacMul k (curveG.1, curveG.2, 1)) % curveN
  let sv := invMod curveN k * ((leVal (sha256 msg).reverse + r * d) % curveN) % curveN
  leBytes r 32 ++ leBytes sv 32

end Sys2Proof.Machine
end

