-- ==== Sys2Proof/Config.lean ====
section
/-!
DEFINITION. What one device fixes and the spec leaves open: free values, as constants without a body. Nothing in Lean
can evaluate them, so a statement about one of them holds for every value it may have.
-/
namespace Sys2Proof

/-- The device's random source (R381 challenge, link tag, nonces, random waits, the nonce of a signature): draw number
`k` gives 32 bits. The spec says only that the value is random. FREE VALUE; see log entry 3. -/
opaque Config.freeWord : Nat → BitVec 32

/-- A count or measurement that the spec names but does not state the value of: the `k`-th one taken.
FREE VALUE; see log entry 4. -/
opaque Config.freeMeasure : Nat → Nat

/-- The check of a firmware image: the version of one whose maker signature verifies, none where it does not. The spec does
not give the format of a firmware image (R323, R389). FREE VALUE; see log entry 5. -/
opaque Config.firmware : List (BitVec 8) → Option (BitVec 32)

/-- The coefficient with which the FEXT precoder of port `k` takes off port `j`'s point on a tone, as the reports of a superframe left
it (R80, R81): real and imaginary part in units of 2^-15, before the limit. The spec gives no adaptation step. FREE VALUE; see log
entry 114. -/
opaque Config.fext (k j tone stamp : Nat) : Int × Int

/-- The coefficient with which the NEXT canceller of port `k` takes off port `j`'s transmitted point on a tone, as the symbol of a
number left it (R79). The spec gives no adaptation step. FREE VALUE; see log entry 114. -/
opaque Config.next (k j tone stamp : Nat) : Int × Int

/-- The long-term average of a band's mean squared error after one more symbol (R84), from the average before it and the symbol's
error, in 0.5 dB steps. The spec does not give the filter. FREE VALUE; see log entry 114. -/
opaque Config.bandAvg (avg err : Nat) : Nat

end Sys2Proof
end

