-- ==== Sys2Proof/Machine/RegMap.lean ====
section
/-!
DEFINITION. The BAR0 register map, row by row from the register tables of the spec (R419, Table 17-7, and the
register tables of each chapter): where each register lies, its fields, their access types (Table 0-6) and
reset values. "hold" says what keeps a field over a reset of the device: nothing (core), the always-on domain (ao),
or the NV store (nv). A reset the tables give as "from fold" or "set at boot" stands as 0 here and is written by the
boot (R33, R361). An index of a register is taken modulo its count.
-/
namespace Sys2Proof.Machine

/-- The access types of Table 0-6 (R9). -/
inductive Access where
  | rw | ro | wo | w1c | w1s | rc | rwi | rwm
  deriving DecidableEq, Repr

/-- What keeps a field's value over a reset of Table 13-6: nothing, the always-on domain, or the NV store. -/
inductive Hold where
  | core | ao | nv
  deriving DecidableEq, Repr

/-- What the first index of a register counts, for the absent resources of the XS708 (R1, R2). -/
inductive Kind where
  | none | port | flock | lane | channel
  deriving DecidableEq, Repr

/-- One field of a register: its lowest bit, its length, access type, reset value on the XS716, reset value on
the XS708, and what keeps it over a reset. -/
structure FieldRow where
  lo    : Nat
  len   : Nat
  acc   : Access
  rst   : Nat
  rst8  : Nat
  hold  : Hold
  deriving DecidableEq, Repr

/-- One register: its BAR0 offset, its indexes (count and stride, the first index first), what the first index
counts, whether it is a 64-bit quantity (R7), and its fields. -/
structure RegRow where
  base   : Nat
  dims   : List (Nat × Nat)
  kind   : Kind
  wide   : Bool
  fields : List FieldRow
  deriving DecidableEq, Repr

/-- A field of a register, by the BAR0 offset of its word, its lowest bit and its length. -/
structure Fld where
  off : Nat
  lo  : Nat
  len : Nat
  deriving DecidableEq, Repr

/-- Registers of the DEV block, part 0. -/
def rowsDev0 : List RegRow := [
  ⟨0x000000, [], .none, false, [⟨16, 16, .ro, 0x716, 0x708, .core⟩, ⟨12, 4, .ro, 0xb, 0xb, .core⟩, ⟨8, 4, .ro, 0, 0, .core⟩, ⟨4, 4, .ro, 8, 4, .core⟩]⟩,  -- DEV_PARTID
  ⟨0x000040, [], .none, false, [⟨24, 8, .ro, 0, 0, .core⟩, ⟨20, 4, .ro, 3, 3, .core⟩, ⟨16, 4, .ro, 0, 0, .core⟩, ⟨10, 2, .ro, 0, 0, .core⟩, ⟨9, 1, .ro, 0, 0, .core⟩, ⟨8, 1, .ro, 0, 0, .core⟩, ⟨7, 1, .ro, 0, 0, .core⟩, ⟨6, 1, .ro, 0, 0, .core⟩, ⟨5, 1, .ro, 0, 0, .nv⟩, ⟨4, 1, .ro, 0, 0, .nv⟩]⟩,  -- DEV_FOLD_STATUS
  ⟨0x000048, [], .none, true, [⟨32, 32, .ro, 0, 0, .core⟩, ⟨0, 32, .ro, 0, 0, .core⟩]⟩,  -- DEV_FOLD_RUN
  ⟨0x000050, [], .none, false, [⟨0, 32, .ro, 0, 0, .nv⟩]⟩,  -- DEV_FOLD_FLOOR
  ⟨0x000058, [], .none, true, [⟨0, 64, .ro, 0, 0, .nv⟩]⟩,  -- DEV_FOLD_COMMIT
  ⟨0x000100, [], .none, true, [⟨32, 32, .rw, 0, 0, .core⟩, ⟨31, 1, .rw, 0, 0, .core⟩, ⟨0, 4, .rw, 0, 0, .core⟩]⟩,  -- DEV_BAR2_WIN
  ⟨0x000108, [], .none, false, [⟨0, 32, .rc, 0, 0, .core⟩]⟩,  -- DEV_MDIO_DENIED
  ⟨0x000060, [], .none, false, [⟨0, 32, .ro, 0, 0, .core⟩]⟩,  -- DEV_FW_VER
  ⟨0x000064, [], .none, false, [⟨30, 2, .ro, 0, 0, .core⟩, ⟨29, 1, .ro, 0, 0, .core⟩, ⟨28, 1, .ro, 0, 0, .core⟩, ⟨27, 1, .ro, 0, 0, .core⟩, ⟨26, 1, .ro, 0, 0, .nv⟩, ⟨0, 16, .ro, 0, 0, .core⟩]⟩,  -- DEV_FW_STATUS
  ⟨0x000068, [], .none, false, [⟨0, 32, .ro, 0, 0, .nv⟩]⟩,  -- DEV_FW_FLOOR
  ⟨0x000070, [], .none, false, [⟨28, 4, .ro, 0, 0, .ao⟩, ⟨16, 9, .ro, 0, 0, .ao⟩, ⟨0, 16, .ro, 0, 0, .ao⟩]⟩,  -- DEV_RESET_CAUSE
  ⟨0x000074, [], .none, false, [⟨0, 1, .rwi, 0, 0, .core⟩]⟩,  -- DEV_RESET_CTRL
  ⟨0x000078, [], .none, true, [⟨0, 64, .ro, 0, 0, .ao⟩]⟩,  -- DEV_TIME
  ⟨0x000004, [], .none, false, [⟨0, 24, .ro, 0, 0, .nv⟩]⟩,  -- DEV_OUI
  ⟨0x040000, [(65536, 0x4)], .none, false, [⟨0, 32, .rwi, 0, 0, .core⟩]⟩,  -- DEV_FOLD_STAGE
  ⟨0x010000, [(32, 0x10), (3, 0x4)], .none, false, [⟨0, 32, .rw, 0, 0, .core⟩]⟩,  -- MSIX_TABLE
  ⟨0x011000, [(1, 0x4)], .none, false, [⟨0, 32, .ro, 0, 0, .core⟩]⟩,  -- MSIX_PBA
  ⟨0x01000c, [(32, 0x10)], .none, false, [⟨0, 1, .rw, 1, 1, .core⟩]⟩  -- MSIX_VCTRL
  ]

/-- The registers of the DEV block (Table 17-7). -/
def rowsDev : List RegRow := rowsDev0

/-- Registers of the EVT block, part 0. -/
def rowsEvt0 : List RegRow := [
  ⟨0x100000, [(10, 0x4)], .none, false, [⟨0, 32, .w1c, 0, 0, .ao⟩]⟩,  -- EVT_STATUS
  ⟨0x100040, [(10, 0x4)], .none, false, [⟨0, 32, .rw, 0xffffffff, 0xffffffff, .ao⟩]⟩,  -- EVT_MASK
  ⟨0x100080, [(10, 0x4)], .none, false, [⟨0, 32, .ro, 0, 0, .core⟩]⟩,  -- EVT_PEND
  ⟨0x1000c0, [(10, 0x4)], .none, false, [⟨0, 32, .w1s, 0, 0, .core⟩]⟩,  -- EVT_FORCE
  ⟨0x100100, [], .none, false, [⟨0, 32, .ro, 0, 0, .core⟩]⟩,  -- EVT_VEC_SUM
  ⟨0x100104, [], .none, false, [⟨0, 1, .ro, 0, 0, .core⟩]⟩,  -- EVT_INTN
  ⟨0x100200, [(6, 0x4)], .none, false, [⟨0, 16, .w1c, 0, 0, .core⟩]⟩,  -- EVT_CAUSE
  ⟨0x100400, [(320, 0x4)], .none, false, [⟨7, 1, .ro, 0, 0, .core⟩, ⟨6, 1, .ro, 0, 0, .core⟩, ⟨5, 1, .ro, 0, 0, .core⟩, ⟨0, 5, .ro, 0, 0, .core⟩]⟩  -- EVT_ROUTE
  ]

/-- The registers of the EVT block (Table 17-7). -/
def rowsEvt : List RegRow := rowsEvt0

/-- Registers of the CMD block, part 0. -/
def rowsCmd0 : List RegRow := [
  ⟨0x200000, [(8, 0x4)], .none, false, [⟨0, 32, .rw, 0, 0, .core⟩]⟩,  -- CMD_PARAM
  ⟨0x200020, [], .none, false, [⟨0, 8, .wo, 0, 0, .core⟩]⟩,  -- CMD_SUBMIT
  ⟨0x200024, [], .none, false, [⟨24, 8, .ro, 0, 0, .core⟩, ⟨0, 16, .ro, 0, 0, .core⟩]⟩,  -- CMD_ACCEPT
  ⟨0x200030, [], .none, false, [⟨0, 32, .ro, 0, 0, .core⟩]⟩,  -- CMD_CQ_PROD
  ⟨0x200034, [], .none, false, [⟨0, 32, .rw, 0, 0, .core⟩]⟩,  -- CMD_CQ_CONS
  ⟨0x200800, [(64, 0x4)], .none, false, [⟨30, 2, .ro, 0, 0, .core⟩, ⟨16, 8, .ro, 0, 0, .core⟩, ⟨0, 16, .ro, 0, 0, .core⟩]⟩,  -- CMD_SLOT_STATE
  ⟨0x201000, [(64, 0x20), (8, 0x4)], .none, false, [⟨0, 32, .ro, 0, 0, .core⟩]⟩  -- CMD_CQ
  ]

/-- The registers of the CMD block (Table 17-7). -/
def rowsCmd : List RegRow := rowsCmd0

/-- Registers of the PORT block, part 0. -/
def rowsPort0 : List RegRow := [
  ⟨0x400400, [(16, 0x20000)], .port, false, [⟨16, 8, .rw, 0, 0, .core⟩, ⟨15, 1, .rw, 0, 0, .core⟩, ⟨12, 2, .rw, 0, 0, .core⟩, ⟨8, 4, .rw, 6, 6, .core⟩, ⟨4, 4, .rw, 4, 4, .core⟩, ⟨3, 1, .rw, 1, 1, .core⟩]⟩,  -- PORT_ILM_CTRL
  ⟨0x400404, [(16, 0x20000)], .port, false, [⟨31, 1, .ro, 0, 0, .core⟩, ⟨30, 1, .ro, 0, 0, .core⟩, ⟨29, 1, .ro, 0, 0, .core⟩, ⟨28, 1, .ro, 0, 0, .core⟩, ⟨27, 1, .ro, 0, 0, .core⟩, ⟨24, 2, .ro, 0, 0, .core⟩, ⟨22, 2, .ro, 0, 0, .core⟩, ⟨20, 2, .ro, 0, 0, .core⟩, ⟨16, 4, .ro, 0, 0, .core⟩, ⟨12, 4, .ro, 0, 0, .core⟩, ⟨10, 2, .ro, 0, 0, .core⟩]⟩,  -- PORT_ILM_STATE
  ⟨0x400408, [(16, 0x20000)], .port, false, [⟨0, 32, .ro, 0, 0, .core⟩]⟩,  -- PORT_ILM_SFC
  ⟨0x40040c, [(16, 0x20000)], .port, false, [⟨16, 12, .ro, 0, 0, .core⟩, ⟨0, 12, .ro, 0, 0, .core⟩]⟩,  -- PORT_ILM_TONES
  ⟨0x400410, [(16, 0x20000)], .port, false, [⟨16, 16, .ro, 0, 0, .core⟩, ⟨0, 16, .ro, 0, 0, .core⟩]⟩,  -- PORT_ILM_RATE
  ⟨0x400414, [(16, 0x20000)], .port, false, [⟨16, 16, .ro, 0, 0, .core⟩, ⟨0, 16, .ro, 0, 0, .core⟩]⟩,  -- PORT_ILM_BITS
  ⟨0x400418, [(16, 0x20000)], .port, false, [⟨16, 16, .ro, 0, 0, .core⟩, ⟨14, 2, .ro, 0, 0, .core⟩, ⟨13, 1, .ro, 0, 0, .core⟩, ⟨4, 4, .ro, 0, 0, .core⟩, ⟨0, 4, .ro, 0, 0, .core⟩]⟩,  -- PORT_ILM_PEND
  ⟨0x40041c, [(16, 0x20000)], .port, false, [⟨20, 4, .rw, 8, 8, .core⟩, ⟨8, 8, .rw, 8, 8, .core⟩, ⟨0, 8, .rw, 0x14, 0x14, .core⟩]⟩,  -- PORT_IMP_CFG
  ⟨0x400420, [(16, 0x20000), (8, 0x4)], .port, false, [⟨31, 1, .rwi, 0, 0, .core⟩, ⟨28, 3, .rwi, 0, 0, .core⟩, ⟨24, 4, .rwi, 0xc, 0xc, .core⟩, ⟨12, 12, .rwi, 0, 0, .core⟩, ⟨0, 12, .rwi, 0, 0, .core⟩]⟩,  -- PORT_CUSTOM_A
  ⟨0x400440, [(16, 0x20000), (8, 0x4)], .port, false, [⟨31, 1, .rwi, 0, 0, .core⟩, ⟨28, 3, .rwi, 0, 0, .core⟩, ⟨24, 4, .rwi, 0xc, 0xc, .core⟩, ⟨12, 12, .rwi, 0, 0, .core⟩, ⟨0, 12, .rwi, 0, 0, .core⟩]⟩,  -- PORT_CUSTOM_B
  ⟨0x400460, [(16, 0x20000)], .port, false, [⟨0, 32, .rc, 0, 0, .core⟩]⟩,  -- PORT_ILM_LOTS_OK
  ⟨0x400464, [(16, 0x20000)], .port, false, [⟨0, 32, .rc, 0, 0, .core⟩]⟩,  -- PORT_ILM_LOTS_LOST
  ⟨0x400468, [(16, 0x20000)], .port, false, [⟨0, 32, .rc, 0, 0, .core⟩]⟩,  -- PORT_ILM_HDR_ERR
  ⟨0x40046c, [(16, 0x20000)], .port, false, [⟨0, 32, .rc, 0, 0, .core⟩]⟩,  -- PORT_ILM_ERASED
  ⟨0x400470, [(16, 0x20000)], .port, false, [⟨0, 32, .rc, 0, 0, .core⟩]⟩,  -- PORT_ILM_ACKW_ERR
  ⟨0x400474, [(16, 0x20000)], .port, false, [⟨0, 32, .rc, 0, 0, .core⟩]⟩,  -- PORT_ILM_SWAP_FAIL
  ⟨0x400478, [(16, 0x20000)], .port, false, [⟨0, 16, .ro, 0, 0, .core⟩]⟩,  -- PORT_ILM_ECHO
  ⟨0x400000, [(16, 0x20000)], .port, false, [⟨31, 1, .rw, 0, 0, .core⟩, ⟨30, 1, .rw, 1, 1, .core⟩, ⟨29, 1, .wo, 0, 0, .core⟩, ⟨28, 1, .rw, 1, 1, .core⟩, ⟨27, 1, .rw, 0, 0, .core⟩, ⟨24, 3, .rw, 1, 1, .core⟩]⟩,  -- PORT_MODE
  ⟨0x400004, [(16, 0x20000)], .port, false, [⟨20, 2, .rw, 0, 0, .core⟩, ⟨19, 1, .rw, 1, 1, .core⟩, ⟨0, 16, .rw, 0x3ff, 0x3ff, .core⟩]⟩,  -- PORT_AN_CTRL
  ⟨0x400008, [(16, 0x20000)], .port, false, [⟨28, 4, .ro, 0, 0, .core⟩, ⟨24, 4, .ro, 0, 0, .core⟩, ⟨16, 8, .ro, 0, 0, .core⟩, ⟨12, 4, .ro, 0, 0, .core⟩, ⟨11, 1, .ro, 0, 0, .core⟩, ⟨10, 1, .ro, 0, 0, .core⟩, ⟨0, 5, .ro, 0, 0, .core⟩]⟩,  -- PORT_AN_STATUS
  ⟨0x40000c, [(16, 0x20000)], .port, false, [⟨31, 1, .ro, 0, 0, .core⟩, ⟨30, 1, .ro, 0, 0, .core⟩, ⟨26, 4, .ro, 0, 0, .core⟩, ⟨22, 4, .ro, 0, 0, .core⟩, ⟨12, 4, .ro, 0, 0, .core⟩, ⟨0, 12, .ro, 0, 0, .core⟩]⟩,  -- PORT_LINK_STATUS
  ⟨0x400010, [(16, 0x20000)], .port, false, [⟨24, 8, .rwi, 0x28, 0x28, .core⟩, ⟨16, 8, .rwi, 0x64, 0x64, .core⟩, ⟨8, 8, .rwi, 0xfc, 0xfc, .core⟩, ⟨5, 3, .rwi, 4, 4, .core⟩, ⟨4, 1, .rwi, 0, 0, .core⟩, ⟨0, 4, .rw, 4, 4, .core⟩]⟩,  -- PORT_LINK_CFG
  ⟨0x400014, [(16, 0x20000)], .port, false, [⟨24, 8, .ro, 0, 0, .core⟩, ⟨16, 8, .ro, 0, 0, .core⟩, ⟨8, 8, .ro, 0, 0, .core⟩, ⟨0, 8, .ro, 0, 0, .core⟩]⟩,  -- PORT_MON_MARGIN
  ⟨0x400018, [(16, 0x20000)], .port, false, [⟨16, 16, .ro, 0, 0, .core⟩, ⟨12, 4, .ro, 0, 0, .core⟩, ⟨10, 2, .ro, 0, 0, .core⟩, ⟨9, 1, .w1c, 0, 0, .core⟩, ⟨0, 8, .ro, 0, 0, .core⟩]⟩  -- PORT_PARTNER_INFO
  ]

/-- Registers of the PORT block, part 1. -/
def rowsPort1 : List RegRow := [
  ⟨0x400020, [(16, 0x20000)], .port, true, [⟨0, 64, .ro, 0, 0, .nv⟩]⟩,  -- PORT_PARTNER_SN
  ⟨0x400028, [(16, 0x20000)], .port, true, [⟨0, 64, .ro, 0, 0, .nv⟩]⟩,  -- PORT_PARTNER_PREV
  ⟨0x400040, [(16, 0x20000)], .port, false, [⟨0, 32, .rc, 0, 0, .core⟩]⟩,  -- PORT_LINK_DOWNS
  ⟨0x400044, [(16, 0x20000)], .port, false, [⟨0, 32, .rc, 0, 0, .core⟩]⟩,  -- PORT_TRAIN_FAILS
  ⟨0x400048, [(16, 0x20000)], .port, false, [⟨0, 32, .rc, 0, 0, .core⟩]⟩,  -- PORT_WARM_OK
  ⟨0x40004c, [(16, 0x20000)], .port, false, [⟨0, 32, .rc, 0, 0, .core⟩]⟩,  -- PORT_WARM_FAIL
  ⟨0x400050, [(16, 0x20000)], .port, false, [⟨0, 32, .rc, 0, 0, .core⟩]⟩,  -- PORT_EOC_RETRY
  ⟨0x400054, [(16, 0x20000)], .port, false, [⟨0, 32, .rc, 0, 0, .core⟩]⟩,  -- PORT_EOC_ERR
  ⟨0x400058, [(16, 0x20000)], .port, false, [⟨0, 32, .rc, 0, 0, .core⟩]⟩,  -- PORT_DOWN_DISCARD
  ⟨0x40005c, [(16, 0x20000)], .port, false, [⟨0, 32, .rc, 0, 0, .core⟩]⟩,  -- PORT_LPI_ENTRIES
  ⟨0x400600, [(16, 0x20000)], .port, false, [⟨24, 8, .rwi, 5, 5, .core⟩, ⟨16, 8, .rw, 0x18, 0x18, .core⟩, ⟨12, 4, .rw, 4, 4, .core⟩]⟩,  -- PORT_PAD_CFG
  ⟨0x400604, [(16, 0x20000)], .port, false, [⟨16, 16, .rwi, 0x400, 0x400, .core⟩, ⟨0, 16, .rwi, 0x100, 0x100, .core⟩]⟩,  -- PORT_PAD_FLOW
  ⟨0x400608, [(16, 0x20000)], .port, false, [⟨31, 1, .ro, 0, 0, .core⟩, ⟨30, 1, .ro, 0, 0, .core⟩, ⟨29, 1, .ro, 0, 0, .core⟩, ⟨28, 1, .ro, 0, 0, .core⟩, ⟨27, 1, .ro, 0, 0, .core⟩, ⟨26, 1, .ro, 0, 0, .core⟩, ⟨25, 1, .ro, 0, 0, .core⟩, ⟨24, 1, .ro, 0, 0, .core⟩]⟩,  -- PORT_PAD_STATE
  ⟨0x40060c, [(16, 0x20000)], .port, false, [⟨16, 16, .ro, 0, 0, .core⟩, ⟨0, 16, .ro, 0, 0, .core⟩]⟩,  -- PORT_PAD_CAP
  ⟨0x400610, [(16, 0x20000)], .port, false, [⟨16, 16, .ro, 0, 0, .core⟩, ⟨0, 16, .ro, 0, 0, .core⟩]⟩,  -- PORT_PAD_FILL
  ⟨0x400614, [(16, 0x20000)], .port, false, [⟨0, 16, .ro, 0, 0, .core⟩]⟩,  -- PORT_PAD_LIMIT
  ⟨0x400618, [(16, 0x20000)], .port, false, [⟨0, 24, .ro, 0, 0, .core⟩]⟩,  -- PORT_PAD_TXSEQ
  ⟨0x40061c, [(16, 0x20000)], .port, false, [⟨0, 24, .ro, 0xffffff, 0xffffff, .core⟩]⟩,  -- PORT_PAD_RXSEQ
  ⟨0x400620, [(16, 0x20000)], .port, false, [⟨16, 16, .rc, 0, 0, .core⟩, ⟨0, 16, .rc, 0, 0, .core⟩]⟩,  -- PORT_PAD_PEAK
  ⟨0x400640, [(16, 0x20000)], .port, false, [⟨0, 32, .rc, 0, 0, .core⟩]⟩,  -- PORT_PAD_RETX
  ⟨0x400644, [(16, 0x20000)], .port, false, [⟨0, 32, .rc, 0, 0, .core⟩]⟩,  -- PORT_PAD_NAK_TX
  ⟨0x400648, [(16, 0x20000)], .port, false, [⟨0, 32, .rc, 0, 0, .core⟩]⟩,  -- PORT_PAD_NAK_RX
  ⟨0x40064c, [(16, 0x20000)], .port, false, [⟨0, 32, .rc, 0, 0, .core⟩]⟩,  -- PORT_PAD_DUP
  ⟨0x400650, [(16, 0x20000)], .port, false, [⟨0, 32, .rc, 0, 0, .core⟩]⟩  -- PORT_PAD_BAD_WORD
  ]

/-- Registers of the PORT block, part 2. -/
def rowsPort2 : List RegRow := [
  ⟨0x400654, [(16, 0x20000)], .port, false, [⟨0, 32, .rc, 0, 0, .core⟩]⟩,  -- PORT_PAD_VOID_TX
  ⟨0x400658, [(16, 0x20000)], .port, false, [⟨0, 32, .rc, 0, 0, .core⟩]⟩,  -- PORT_PAD_VOID_RX
  ⟨0x40065c, [(16, 0x20000)], .port, false, [⟨0, 32, .rc, 0, 0, .core⟩]⟩,  -- PORT_PAD_DROP_TX
  ⟨0x400660, [(16, 0x20000)], .port, false, [⟨0, 32, .rc, 0, 0, .core⟩]⟩,  -- PORT_PAD_DROP_RX
  ⟨0x400664, [(16, 0x20000)], .port, false, [⟨0, 32, .rc, 0, 0, .core⟩]⟩,  -- PORT_PAD_HOST_OVF
  ⟨0x400668, [(16, 0x20000)], .port, false, [⟨0, 32, .rc, 0, 0, .core⟩]⟩,  -- PORT_PAD_RX_OVF
  ⟨0x40066c, [(16, 0x20000)], .port, false, [⟨0, 32, .rc, 0, 0, .core⟩]⟩,  -- PORT_PAD_STAGE_DROP
  ⟨0x400670, [(16, 0x20000)], .port, false, [⟨0, 32, .rc, 0, 0, .core⟩]⟩,  -- PORT_PAD_XOFF
  ⟨0x400674, [(16, 0x20000)], .port, false, [⟨0, 32, .rc, 0, 0, .core⟩]⟩,  -- PORT_PAD_DRAIN_DISC
  ⟨0x400800, [(16, 0x20000)], .port, false, [⟨28, 4, .rw, 4, 4, .core⟩, ⟨26, 2, .rw, 3, 3, .core⟩, ⟨20, 4, .rw, 3, 3, .core⟩, ⟨16, 4, .rw, 6, 6, .core⟩, ⟨8, 8, .rwi, 6, 6, .core⟩, ⟨0, 8, .rwi, 4, 4, .core⟩]⟩,  -- PORT_TRV_CFG
  ⟨0x400804, [(16, 0x20000)], .port, false, [⟨24, 8, .rwi, 0x14, 0x14, .core⟩, ⟨16, 8, .rwi, 0x14, 0x14, .core⟩, ⟨8, 8, .rwi, 0x64, 0x64, .core⟩, ⟨4, 4, .rw, 4, 4, .core⟩]⟩,  -- PORT_TRV_TURN
  ⟨0x400808, [(16, 0x20000)], .port, false, [⟨28, 4, .ro, 0, 0, .core⟩, ⟨27, 1, .ro, 0, 0, .core⟩, ⟨26, 1, .ro, 0, 0, .core⟩, ⟨24, 2, .ro, 0, 0, .core⟩, ⟨22, 2, .ro, 0, 0, .core⟩, ⟨8, 8, .ro, 0, 0, .core⟩, ⟨0, 8, .ro, 0, 0, .core⟩]⟩,  -- PORT_TRV_STATE
  ⟨0x40080c, [(16, 0x20000)], .port, false, [⟨16, 16, .ro, 0, 0, .core⟩, ⟨0, 16, .ro, 0, 0, .core⟩]⟩,  -- PORT_TRV_SPAN
  ⟨0x400810, [(16, 0x20000)], .port, false, [⟨31, 1, .rwi, 1, 1, .core⟩, ⟨0, 16, .rwi, 0, 0, .core⟩]⟩,  -- PORT_BELL_CFG
  ⟨0x400814, [(16, 0x20000)], .port, false, [⟨31, 1, .wo, 0, 0, .core⟩, ⟨16, 8, .rw, 0x14, 0x14, .core⟩, ⟨0, 16, .rw, 0xffff, 0xffff, .core⟩]⟩,  -- PORT_BELL_CMD
  ⟨0x400818, [(16, 0x20000)], .port, false, [⟨31, 1, .ro, 0, 0, .core⟩, ⟨30, 1, .w1c, 0, 0, .core⟩, ⟨16, 8, .ro, 0, 0, .core⟩, ⟨0, 16, .ro, 0, 0, .core⟩]⟩,  -- PORT_BELL_STATE
  ⟨0x400840, [(16, 0x20000)], .port, false, [⟨0, 32, .rc, 0, 0, .core⟩]⟩,  -- PORT_TRV_BURST_TX
  ⟨0x400844, [(16, 0x20000)], .port, false, [⟨0, 32, .rc, 0, 0, .core⟩]⟩,  -- PORT_TRV_BURST_OK
  ⟨0x400848, [(16, 0x20000)], .port, false, [⟨0, 32, .rc, 0, 0, .core⟩]⟩,  -- PORT_TRV_HDR_ERR
  ⟨0x40084c, [(16, 0x20000)], .port, false, [⟨0, 32, .rc, 0, 0, .core⟩]⟩,  -- PORT_TRV_FALSE_SYNC
  ⟨0x400850, [(16, 0x20000)], .port, false, [⟨0, 32, .rc, 0, 0, .core⟩]⟩,  -- PORT_TRV_SHADOW
  ⟨0x400854, [(16, 0x20000)], .port, false, [⟨0, 32, .rc, 0, 0, .core⟩]⟩,  -- PORT_TRV_SHADOW_LATE
  ⟨0x400858, [(16, 0x20000)], .port, false, [⟨0, 32, .rc, 0, 0, .core⟩]⟩,  -- PORT_TRV_TRUNC
  ⟨0x40085c, [(16, 0x20000)], .port, false, [⟨0, 32, .rc, 0, 0, .core⟩]⟩  -- PORT_TRV_PAY_ERR
  ]

/-- Registers of the PORT block, part 3. -/
def rowsPort3 : List RegRow := [
  ⟨0x400860, [(16, 0x20000)], .port, false, [⟨0, 32, .rc, 0, 0, .core⟩]⟩,  -- PORT_TRV_RESEND
  ⟨0x400864, [(16, 0x20000)], .port, false, [⟨0, 32, .rc, 0, 0, .core⟩]⟩,  -- PORT_TRV_ABANDON
  ⟨0x400868, [(16, 0x20000)], .port, false, [⟨0, 32, .rc, 0, 0, .core⟩]⟩,  -- PORT_TRV_DROP_TX
  ⟨0x40086c, [(16, 0x20000)], .port, false, [⟨0, 32, .rc, 0, 0, .core⟩]⟩,  -- PORT_TRV_DROP_RX
  ⟨0x400870, [(16, 0x20000)], .port, false, [⟨0, 32, .rc, 0, 0, .core⟩]⟩,  -- PORT_TRV_TOKEN_RECLAIM
  ⟨0x400874, [(16, 0x20000)], .port, false, [⟨0, 32, .rc, 0, 0, .core⟩]⟩,  -- PORT_BELL_SENT
  ⟨0x400878, [(16, 0x20000)], .port, false, [⟨0, 32, .rc, 0, 0, .core⟩]⟩,  -- PORT_BELL_HEARD
  ⟨0x400a00, [(16, 0x20000)], .port, false, [⟨31, 1, .ro, 0, 0, .core⟩, ⟨30, 1, .ro, 1, 1, .core⟩, ⟨29, 1, .ro, 0, 0, .core⟩, ⟨28, 1, .ro, 0, 0, .core⟩, ⟨26, 2, .ro, 0, 0, .core⟩, ⟨16, 8, .ro, 0x80, 0x80, .core⟩, ⟨8, 8, .ro, 0, 0, .core⟩]⟩,  -- PORT_CAL_STATE
  ⟨0x400a04, [(16, 0x20000)], .port, false, [⟨16, 16, .ro, 0, 0, .core⟩, ⟨8, 8, .ro, 0, 0, .core⟩]⟩,  -- PORT_GRADE
  ⟨0x400a40, [(16, 0x20000), (8, 0x4)], .port, false, [⟨16, 8, .rwi, 0, 0, .core⟩, ⟨8, 8, .rwi, 0, 0, .core⟩, ⟨0, 8, .rwi, 0, 0, .core⟩]⟩,  -- PORT_TRIM_ADC
  ⟨0x400a60, [(16, 0x20000)], .port, false, [⟨8, 6, .rwi, 0, 0, .core⟩, ⟨0, 6, .rwi, 0, 0, .core⟩]⟩,  -- PORT_TRIM_HYB
  ⟨0x400a80, [(16, 0x20000)], .port, false, [⟨31, 1, .ro, 0, 0, .core⟩, ⟨30, 1, .ro, 0, 0, .core⟩, ⟨29, 1, .ro, 0, 0, .core⟩, ⟨28, 1, .ro, 0, 0, .core⟩, ⟨24, 4, .ro, 0, 0, .core⟩, ⟨0, 9, .ro, 0, 0, .core⟩]⟩,  -- PORT_DIAG_STATE
  ⟨0x400aa0, [(16, 0x20000), (8, 0x4)], .port, false, [⟨31, 1, .ro, 0, 0, .core⟩, ⟨30, 1, .ro, 0, 0, .core⟩, ⟨27, 3, .ro, 0, 0, .core⟩, ⟨13, 8, .ro, 0, 0, .core⟩, ⟨0, 13, .ro, 0, 0, .core⟩]⟩,  -- PORT_DIAG_EVT
  ⟨0x400ac0, [(16, 0x20000), (16, 0x4)], .port, false, [⟨31, 1, .ro, 0, 0, .nv⟩, ⟨30, 1, .ro, 0, 0, .nv⟩, ⟨27, 3, .ro, 0, 0, .nv⟩, ⟨13, 8, .ro, 0, 0, .nv⟩, ⟨0, 13, .ro, 0, 0, .nv⟩]⟩,  -- PORT_DIAG_BASE
  ⟨0x410000, [(16, 0x20000), (16384, 0x4)], .port, false, [⟨0, 32, .ro, 0, 0, .core⟩]⟩,  -- PORT_TONE
  ⟨0x408000, [(16, 0x20000), (1024, 0x4)], .port, false, [⟨0, 32, .ro, 0, 0, .core⟩]⟩  -- PORT_SNR
  ]

/-- The registers of the PORT block (Table 17-7). -/
def rowsPort : List RegRow := rowsPort0 ++ rowsPort1 ++ rowsPort2 ++ rowsPort3

/-- Registers of the SLICE block, part 0. -/
def rowsSlice0 : List RegRow := [
  ⟨0x608000, [(4, 0x40)], .flock, false, [⟨16, 8, .ro, 0xff, 0xff, .core⟩, ⟨12, 1, .ro, 0, 0, .core⟩, ⟨8, 4, .ro, 0, 0, .core⟩, ⟨4, 4, .ro, 0, 0, .core⟩, ⟨0, 4, .ro, 0, 0, .core⟩]⟩,  -- FLOCK_VEC_STATE
  ⟨0x608004, [(4, 0x40)], .flock, false, [⟨0, 32, .rc, 0, 0, .core⟩]⟩,  -- FLOCK_VEC_SWEEPS
  ⟨0x600000, [(16, 0x8)], .port, false, [⟨24, 7, .ro, 0x7f, 0x7f, .core⟩, ⟨16, 7, .ro, 0x7f, 0x7f, .core⟩, ⟨8, 7, .ro, 0x7f, 0x7f, .core⟩, ⟨0, 7, .ro, 0x7f, 0x7f, .core⟩]⟩,  -- SLICE_MAP
  ⟨0x600004, [(16, 0x8)], .port, false, [⟨28, 4, .ro, 0, 0, .core⟩, ⟨8, 7, .ro, 0x7f, 0x7f, .core⟩, ⟨0, 7, .ro, 0x7f, 0x7f, .core⟩]⟩  -- SLICE_MAP_W1
  ]

/-- The registers of the SLICE block (Table 17-7). -/
def rowsSlice : List RegRow := rowsSlice0

/-- Registers of the MEM block, part 0. -/
def rowsMem0 : List RegRow := [
  ⟨0x803000, [(16, 0x10000), (2, 0x100)], .channel, false, [⟨31, 1, .ro, 0, 0, .core⟩, ⟨30, 1, .ro, 1, 1, .core⟩, ⟨29, 1, .ro, 0, 0, .core⟩, ⟨27, 2, .ro, 0, 0, .core⟩, ⟨16, 8, .ro, 0x80, 0x80, .core⟩, ⟨8, 8, .ro, 0, 0, .core⟩, ⟨0, 8, .ro, 0, 0, .core⟩]⟩,  -- MEM_CAL_STATE
  ⟨0x803040, [(16, 0x10000), (2, 0x100), (13, 0x4)], .channel, false, [⟨8, 6, .rwi, 0, 0, .core⟩, ⟨0, 6, .rwi, 0, 0, .core⟩]⟩,  -- MEM_TRIM
  ⟨0x803080, [(16, 0x10000), (2, 0x100), (13, 0x4)], .channel, false, [⟨8, 8, .ro, 0, 0, .core⟩, ⟨0, 8, .ro, 0, 0, .core⟩]⟩,  -- MEM_GRADE
  ⟨0x800000, [(16, 0x10000)], .channel, false, [⟨30, 2, .ro, 0, 0, .core⟩, ⟨29, 1, .ro, 0, 0, .core⟩, ⟨28, 1, .ro, 0, 0, .core⟩, ⟨27, 1, .ro, 0, 0, .core⟩, ⟨26, 1, .ro, 0, 0, .core⟩]⟩,  -- MEM_CH_STATE
  ⟨0x800100, [(16, 0x10000), (2, 0x80)], .channel, false, [⟨31, 1, .ro, 0, 0, .core⟩, ⟨24, 4, .ro, 0, 0, .core⟩, ⟨16, 8, .ro, 0, 0, .core⟩, ⟨0, 16, .ro, 0, 0, .core⟩]⟩,  -- MEM_PC_STATE
  ⟨0x800110, [(16, 0x10000), (2, 0x80)], .channel, false, [⟨0, 32, .rc, 0, 0, .core⟩]⟩,  -- MEM_ACTS
  ⟨0x800114, [(16, 0x10000), (2, 0x80)], .channel, false, [⟨0, 32, .rc, 0, 0, .core⟩]⟩,  -- MEM_HITS
  ⟨0x800118, [(16, 0x10000), (2, 0x80)], .channel, false, [⟨0, 32, .rc, 0, 0, .core⟩]⟩,  -- MEM_CAPPED
  ⟨0x80011c, [(16, 0x10000), (2, 0x80)], .channel, false, [⟨0, 32, .rc, 0, 0, .core⟩]⟩,  -- MEM_REF_LIMIT
  ⟨0x800120, [(16, 0x10000), (2, 0x80)], .channel, false, [⟨0, 32, .rc, 0, 0, .core⟩]⟩,  -- MEM_TALLY_TRIG
  ⟨0x800124, [(16, 0x10000), (2, 0x80)], .channel, false, [⟨0, 32, .rc, 0, 0, .core⟩]⟩,  -- MEM_NREF_ROWS
  ⟨0x800128, [(16, 0x10000), (2, 0x80)], .channel, false, [⟨0, 32, .rc, 0, 0, .core⟩]⟩,  -- MEM_QFULL
  ⟨0x80012c, [(16, 0x10000), (2, 0x80)], .channel, false, [⟨0, 32, .rc, 0, 0, .core⟩]⟩,  -- MEM_LAME_MARKS
  ⟨0x800400, [(16, 0x10000), (2, 0x80)], .channel, false, [⟨31, 1, .ro, 0, 0, .ao⟩, ⟨29, 2, .ro, 0, 0, .core⟩, ⟨28, 1, .ro, 0, 0, .core⟩, ⟨27, 1, .ro, 0, 0, .core⟩, ⟨26, 1, .ro, 0, 0, .core⟩, ⟨25, 1, .ro, 0, 0, .core⟩, ⟨24, 1, .ro, 0, 0, .core⟩, ⟨0, 16, .ro, 0, 0, .core⟩]⟩,  -- MEM_INTEG_STATE
  ⟨0x800404, [(16, 0x10000), (2, 0x80)], .channel, false, [⟨16, 16, .ro, 0, 0, .core⟩, ⟨0, 16, .ro, 0, 0, .core⟩]⟩,  -- MEM_GLEAN_LAP
  ⟨0x800408, [(16, 0x10000), (2, 0x80)], .channel, false, [⟨31, 1, .rwi, 0, 0, .core⟩, ⟨8, 6, .rwi, 0, 0, .core⟩, ⟨0, 8, .rwi, 0xff, 0xff, .core⟩]⟩,  -- MEM_FLIP_CTRL
  ⟨0x80040c, [(16, 0x10000), (2, 0x80), (3, 0x4)], .channel, false, [⟨0, 32, .rwi, 0, 0, .core⟩]⟩,  -- MEM_FLIPMASK
  ⟨0x800418, [(16, 0x10000), (2, 0x80)], .channel, false, [⟨0, 8, .rwi, 0, 0, .core⟩]⟩,  -- MEM_FLIPMASK3
  ⟨0x80041c, [(16, 0x10000), (2, 0x80)], .channel, false, [⟨28, 4, .ro, 0, 0, .core⟩, ⟨24, 4, .ro, 0, 0, .core⟩, ⟨23, 1, .ro, 0, 0, .core⟩, ⟨0, 15, .ro, 0, 0, .core⟩]⟩,  -- MEM_FLIP_ADDR
  ⟨0x800420, [(16, 0x10000), (2, 0x80)], .channel, false, [⟨31, 1, .ro, 0, 0, .nv⟩, ⟨24, 7, .ro, 0, 0, .nv⟩, ⟨23, 1, .ro, 0, 0, .nv⟩, ⟨16, 7, .ro, 0, 0, .nv⟩, ⟨0, 10, .ro, 0, 0, .nv⟩]⟩,  -- MEM_TSV_SPARE
  ⟨0x800440, [(16, 0x10000), (2, 0x80)], .channel, false, [⟨0, 32, .rc, 0, 0, .core⟩]⟩,  -- MEM_CE
  ⟨0x800444, [(16, 0x10000), (2, 0x80)], .channel, false, [⟨0, 32, .rc, 0, 0, .core⟩]⟩,  -- MEM_UE_SCRUB
  ⟨0x800448, [(16, 0x10000), (2, 0x80)], .channel, false, [⟨0, 32, .rc, 0, 0, .core⟩]⟩,  -- MEM_POISON_RD
  ⟨0x80044c, [(16, 0x10000), (2, 0x80)], .channel, false, [⟨0, 32, .rc, 0, 0, .core⟩]⟩  -- MEM_UNWRITTEN_RD
  ]

/-- Registers of the MEM block, part 1. -/
def rowsMem1 : List RegRow := [
  ⟨0x800450, [(16, 0x10000), (2, 0x80)], .channel, false, [⟨0, 32, .rc, 0, 0, .core⟩]⟩,  -- MEM_FENCED_REQ
  ⟨0x800460, [(16, 0x10000), (2, 0x80), (8, 0x4)], .channel, false, [⟨28, 4, .ro, 0, 0, .core⟩, ⟨24, 4, .ro, 0, 0, .core⟩, ⟨9, 15, .ro, 0, 0, .core⟩, ⟨0, 9, .ro, 0, 0, .core⟩]⟩,  -- MEM_UE_LOG
  ⟨0x802000, [(16, 0x10000), (2, 0x100)], .channel, false, [⟨28, 4, .ro, 0, 0, .core⟩, ⟨27, 1, .ro, 0, 0, .core⟩, ⟨0, 16, .ro, 0, 0, .core⟩]⟩,  -- MEM_TRAIN_STATE
  ⟨0x802040, [(16, 0x10000), (2, 0x100), (13, 0x4)], .channel, false, [⟨8, 8, .rwm, 0, 0, .core⟩, ⟨0, 8, .rwm, 0, 0, .core⟩]⟩,  -- MEM_TRAIN_DLY
  ⟨0x801000, [(16, 0x10000), (2, 0x400), (160, 0x4)], .channel, false, [⟨0, 32, .ro, 0, 0, .nv⟩]⟩  -- MEM_FREEZE_REC
  ]

/-- The registers of the MEM block (Table 17-7). -/
def rowsMem : List RegRow := rowsMem0 ++ rowsMem1

/-- Registers of the FAB block, part 0. -/
def rowsFab0 : List RegRow := [
  ⟨0x900100, [], .none, false, [⟨0, 32, .ro, 0, 0, .core⟩]⟩,  -- FAB_PAD_TOTAL
  ⟨0x900104, [], .none, false, [⟨0, 32, .ro, 0, 0, .core⟩]⟩,  -- FAB_PAD_FREE
  ⟨0x900000, [], .none, false, [⟨24, 8, .ro, 0x20, 0x10, .core⟩, ⟨16, 8, .ro, 0, 0, .core⟩, ⟨12, 4, .ro, 0, 0, .core⟩]⟩,  -- FAB_STACK
  ⟨0x900008, [], .none, false, [⟨24, 8, .rwi, 0x40, 0x40, .core⟩, ⟨16, 8, .rwi, 0x20, 0x20, .core⟩, ⟨15, 1, .rwi, 1, 1, .core⟩, ⟨0, 12, .rwi, 0x800, 0x800, .core⟩]⟩,  -- FAB_SCHED_CFG
  ⟨0x90000c, [], .none, false, [⟨16, 16, .ro, 0, 0, .core⟩, ⟨0, 16, .ro, 0, 0, .core⟩]⟩,  -- FAB_LAT_MEDIAN
  ⟨0x900200, [(32, 0x4)], .none, false, [⟨31, 1, .ro, 0, 0, .core⟩, ⟨0, 5, .ro, 0, 0, .core⟩]⟩,  -- FAB_PCMAP
  ⟨0x900300, [(16, 0x10)], .none, false, [⟨31, 1, .ro, 0, 0, .core⟩, ⟨16, 8, .ro, 0, 0, .core⟩, ⟨8, 8, .ro, 0, 0, .core⟩, ⟨0, 8, .ro, 0, 0, .core⟩]⟩,  -- FAB_PART
  ⟨0x900304, [(16, 0x10)], .none, false, [⟨0, 32, .ro, 0, 0, .core⟩]⟩,  -- FAB_PART_BASE
  ⟨0x900308, [(16, 0x10)], .none, false, [⟨0, 32, .ro, 0, 0, .core⟩]⟩,  -- FAB_PART_SIZE
  ⟨0x90030c, [(16, 0x10)], .none, false, [⟨0, 32, .ro, 0, 0, .core⟩]⟩,  -- FAB_PART_MIN
  ⟨0x900108, [], .none, false, [⟨0, 16, .ro, 0, 0, .core⟩]⟩,  -- FAB_PAD_DOWN
  ⟨0x900400, [], .none, false, [⟨24, 8, .rwi, 0, 0, .core⟩, ⟨16, 8, .rwi, 0x1e, 0x1e, .core⟩, ⟨8, 8, .rwi, 0x10, 0x10, .core⟩, ⟨4, 4, .rwi, 8, 8, .core⟩, ⟨3, 1, .rwi, 1, 1, .core⟩, ⟨2, 1, .rwi, 0, 0, .core⟩]⟩  -- FAB_INTEG_CFG
  ]

/-- The registers of the FAB block (Table 17-7). -/
def rowsFab : List RegRow := rowsFab0

/-- Registers of the LANE block, part 0. -/
def rowsLane0 : List RegRow := [
  ⟨0xa00000, [(16, 0x1000)], .lane, false, [⟨24, 8, .ro, 0, 0, .core⟩, ⟨22, 2, .ro, 0, 0, .core⟩, ⟨21, 1, .ro, 0, 0, .core⟩, ⟨20, 1, .ro, 0, 0, .core⟩, ⟨17, 3, .ro, 0, 0, .core⟩, ⟨16, 1, .rw, 0, 0, .core⟩, ⟨0, 14, .rw, 0x2600, 0x2600, .core⟩]⟩,  -- HL_CFG
  ⟨0xa00004, [(16, 0x1000)], .lane, false, [⟨16, 5, .ro, 0, 0, .core⟩, ⟨8, 4, .ro, 0, 0, .core⟩, ⟨0, 4, .ro, 0, 0, .core⟩]⟩,  -- HL_EQ
  ⟨0xa00008, [(16, 0x1000)], .lane, false, [⟨31, 1, .ro, 0, 0, .core⟩, ⟨30, 1, .ro, 0, 0, .core⟩, ⟨29, 1, .ro, 0, 0, .core⟩, ⟨28, 1, .ro, 0, 0, .core⟩, ⟨27, 1, .ro, 0, 0, .core⟩, ⟨26, 1, .ro, 0, 0, .core⟩, ⟨25, 1, .ro, 0, 0, .core⟩, ⟨24, 1, .ro, 0, 0, .core⟩, ⟨0, 8, .ro, 0, 0, .core⟩]⟩,  -- HL_STATUS
  ⟨0xa00040, [(16, 0x1000)], .lane, false, [⟨0, 32, .rc, 0, 0, .core⟩]⟩,  -- HL_LOSS_EVENTS
  ⟨0xa00044, [(16, 0x1000)], .lane, false, [⟨0, 32, .rc, 0, 0, .core⟩]⟩,  -- HL_RX_ABORT
  ⟨0xa00048, [(16, 0x1000)], .lane, false, [⟨0, 32, .rc, 0, 0, .core⟩]⟩,  -- HL_RX_RESUME_DISC
  ⟨0xa0004c, [(16, 0x1000)], .lane, false, [⟨0, 32, .rc, 0, 0, .core⟩]⟩,  -- HL_BAD_BLOCK
  ⟨0xa00050, [(16, 0x1000)], .lane, false, [⟨0, 32, .rc, 0, 0, .core⟩]⟩,  -- HL_LONG
  ⟨0xa00054, [(16, 0x1000)], .lane, false, [⟨0, 32, .rc, 0, 0, .core⟩]⟩,  -- HL_IDLE_DEL
  ⟨0xa00058, [(16, 0x1000)], .lane, false, [⟨0, 32, .rc, 0, 0, .core⟩]⟩,  -- HL_IDLE_INS
  ⟨0xa0005c, [(16, 0x1000)], .lane, false, [⟨0, 32, .rc, 0, 0, .core⟩]⟩,  -- HL_FEC_CORR
  ⟨0xa00060, [(16, 0x1000)], .lane, false, [⟨0, 32, .rc, 0, 0, .core⟩]⟩,  -- HL_FEC_UNCORR
  ⟨0xa00064, [(16, 0x1000)], .lane, false, [⟨0, 32, .rc, 0, 0, .core⟩]⟩,  -- HL_TX_ERRORED
  ⟨0xa00068, [(16, 0x1000)], .lane, false, [⟨0, 32, .rc, 0, 0, .core⟩]⟩  -- HL_MACCTL_RX
  ]

/-- The registers of the LANE block (Table 17-7). -/
def rowsLane : List RegRow := rowsLane0

/-- Registers of the PWR block, part 0. -/
def rowsPwr0 : List RegRow := [
  ⟨0xb03000, [], .none, false, [⟨31, 1, .rwi, 1, 1, .core⟩, ⟨16, 8, .rwi, 0x3c, 0x3c, .core⟩, ⟨12, 4, .rwi, 4, 4, .core⟩, ⟨8, 4, .rwi, 3, 3, .core⟩]⟩,  -- THM_CAL_CFG
  ⟨0xb03004, [], .none, false, [⟨31, 1, .ro, 0, 0, .core⟩, ⟨30, 1, .ro, 0, 0, .core⟩, ⟨0, 6, .ro, 0, 0, .core⟩]⟩,  -- THM_CAL_STATUS
  ⟨0xb03040, [], .none, false, [⟨0, 32, .rc, 0, 0, .core⟩]⟩,  -- THM_CAL_RUNS
  ⟨0xb03044, [], .none, false, [⟨0, 32, .rc, 0, 0, .core⟩]⟩,  -- THM_CAL_FAILS
  ⟨0xb03048, [], .none, false, [⟨0, 32, .rc, 0, 0, .core⟩]⟩,  -- THM_CAL_DEFERRED
  ⟨0xb01000, [], .none, false, [⟨30, 2, .ro, 0, 0, .core⟩, ⟨28, 2, .ro, 0, 0, .core⟩, ⟨27, 1, .ro, 0, 0, .core⟩, ⟨26, 1, .ro, 0, 0, .core⟩]⟩,  -- PWR_MODE
  ⟨0xb01004, [], .none, false, [⟨28, 4, .ro, 0, 0, .ao⟩, ⟨27, 1, .ro, 0, 0, .ao⟩, ⟨20, 4, .ro, 0, 0, .ao⟩, ⟨16, 4, .ro, 0, 0, .ao⟩, ⟨14, 2, .ro, 0, 0, .ao⟩, ⟨13, 1, .ro, 0, 0, .ao⟩]⟩,  -- PWR_LAST
  ⟨0xb01008, [], .none, false, [⟨8, 8, .rw, 0x10, 0x10, .core⟩, ⟨0, 6, .rwi, 0, 0, .core⟩]⟩,  -- PWR_WAKE_EN
  ⟨0xb0100c, [], .none, false, [⟨0, 32, .rw, 0, 0, .ao⟩]⟩,  -- PWR_TIMER
  ⟨0xb01040, [(16, 0x4)], .none, false, [⟨0, 32, .rc, 0, 0, .core⟩]⟩,  -- PWR_REFUSE_CNT
  ⟨0xb01080, [], .none, false, [⟨0, 32, .rc, 0, 0, .ao⟩]⟩,  -- PWR_WAKES
  ⟨0xb01100, [(16, 0x8)], .none, false, [⟨0, 32, .ro, 0, 0, .ao⟩]⟩,  -- PWR_WAKE_HIST
  ⟨0xb01104, [(16, 0x8)], .none, false, [⟨15, 1, .ro, 0, 0, .ao⟩, ⟨12, 2, .ro, 0, 0, .ao⟩, ⟨8, 4, .ro, 0, 0, .ao⟩, ⟨0, 4, .ro, 0, 0, .ao⟩]⟩,  -- PWR_WAKE_HIST_W1
  ⟨0xb02000, [], .none, false, [⟨0, 32, .ro, 0, 0, .core⟩]⟩,  -- DRV_BUDGET
  ⟨0xb02004, [], .none, false, [⟨0, 32, .ro, 0, 0, .core⟩]⟩,  -- DRV_EFFECTIVE
  ⟨0xb02008, [], .none, false, [⟨0, 32, .ro, 0, 0, .core⟩]⟩,  -- DRV_SUM
  ⟨0xb0200c, [], .none, false, [⟨30, 2, .ro, 0, 0, .core⟩, ⟨29, 1, .ro, 0, 0, .core⟩, ⟨28, 1, .ro, 0, 0, .core⟩, ⟨27, 1, .ro, 0, 0, .core⟩, ⟨26, 1, .ro, 0, 0, .core⟩, ⟨0, 8, .ro, 0, 0, .core⟩]⟩,  -- DRV_STATE
  ⟨0xb02040, [(16, 0x4)], .port, false, [⟨16, 16, .ro, 0, 0, .core⟩, ⟨13, 3, .ro, 0, 0, .core⟩, ⟨12, 1, .ro, 0, 0, .core⟩, ⟨0, 12, .ro, 0, 0, .core⟩]⟩,  -- DRV_PORT
  ⟨0xb02080, [], .none, false, [⟨0, 32, .rc, 0, 0, .core⟩]⟩,  -- DRV_PL_CHANGES
  ⟨0xb02084, [], .none, false, [⟨0, 32, .rc, 0, 0, .core⟩]⟩,  -- DRV_CAPS
  ⟨0xb02800, [(24, 0x4)], .none, false, [⟨31, 1, .ro, 0, 0, .core⟩, ⟨30, 1, .ro, 0, 0, .core⟩, ⟨29, 1, .ro, 0, 0, .core⟩, ⟨0, 16, .ro, 0, 0, .core⟩]⟩,  -- THM_BASE
  ⟨0xb02880, [(16, 0x4)], .channel, false, [⟨31, 1, .ro, 0, 0, .core⟩, ⟨30, 1, .ro, 0, 0, .core⟩, ⟨29, 1, .ro, 0, 0, .core⟩, ⟨0, 16, .ro, 0, 0, .core⟩]⟩,  -- THM_CORE
  ⟨0xb028c0, [], .none, false, [⟨0, 32, .ro, 0, 0, .ao⟩]⟩,  -- THM_TRIPS
  ⟨0xb00000, [], .none, false, [⟨30, 2, .ro, 0, 0, .core⟩, ⟨29, 1, .ro, 0, 0, .core⟩, ⟨28, 1, .ro, 0, 0, .core⟩, ⟨27, 1, .ro, 0, 0, .core⟩, ⟨26, 1, .ro, 0, 0, .core⟩, ⟨25, 1, .ro, 0, 0, .ao⟩, ⟨24, 1, .ro, 0, 0, .core⟩, ⟨23, 1, .ro, 0, 0, .core⟩]⟩  -- CLK_STATUS
  ]

/-- Registers of the PWR block, part 1. -/
def rowsPwr1 : List RegRow := [
  ⟨0xb00040, [], .none, false, [⟨0, 32, .rc, 0, 0, .core⟩]⟩,  -- CLK_LREF_TRIPS
  ⟨0xb00044, [], .none, false, [⟨0, 32, .rc, 0, 0, .core⟩]⟩,  -- CLK_HREF_TRIPS
  ⟨0xb00048, [], .none, false, [⟨0, 32, .rc, 0, 0, .core⟩]⟩,  -- CLK_HOLD_TIME
  ⟨0xb0004c, [], .none, false, [⟨0, 32, .rc, 0, 0, .core⟩]⟩  -- CLK_GATE_REFUSE
  ]

/-- The registers of the PWR block (Table 17-7). -/
def rowsPwr : List RegRow := rowsPwr0 ++ rowsPwr1

/-- Registers of the POS block, part 0. -/
def rowsPos0 : List RegRow := [
  ⟨0xc00000, [], .none, false, [⟨31, 1, .rwi, 0, 0, .core⟩, ⟨30, 1, .rwi, 0, 0, .core⟩, ⟨16, 8, .rwi, 0x1e, 0x1e, .core⟩, ⟨8, 8, .rwi, 0x19, 0x19, .core⟩, ⟨0, 8, .rwi, 0xa, 0xa, .core⟩]⟩,  -- POS_CFG
  ⟨0xc00004, [], .none, false, [⟨16, 16, .rwi, 0, 0, .core⟩, ⟨0, 16, .rwi, 0, 0, .core⟩]⟩,  -- POS_WHEEL
  ⟨0xc00008, [], .none, true, [⟨0, 40, .ro, 0, 0, .core⟩]⟩,  -- POS_POSITION
  ⟨0xc00010, [], .none, false, [⟨0, 32, .ro, 0, 0, .core⟩]⟩,  -- POS_ROUTE
  ⟨0xc00014, [], .none, false, [⟨31, 1, .ro, 0, 0, .core⟩, ⟨30, 1, .ro, 1, 1, .core⟩, ⟨29, 1, .ro, 0, 0, .core⟩, ⟨28, 1, .ro, 0, 0, .core⟩, ⟨27, 1, .ro, 1, 1, .core⟩, ⟨26, 1, .ro, 1, 1, .core⟩, ⟨25, 1, .ro, 1, 1, .core⟩]⟩,  -- POS_STATE
  ⟨0xc00018, [], .none, false, [⟨16, 16, .ro, 0, 0, .core⟩, ⟨0, 16, .ro, 0, 0, .core⟩]⟩,  -- POS_SPEED
  ⟨0xc0001c, [], .none, false, [⟨0, 32, .ro, 0, 0, .core⟩]⟩,  -- POS_SCALE
  ⟨0xc00020, [], .none, false, [⟨0, 32, .ro, 0, 0, .core⟩]⟩,  -- POS_LAST_JUMP
  ⟨0xc00040, [], .none, false, [⟨0, 32, .rc, 0, 0, .core⟩]⟩,  -- POS_EDGES
  ⟨0xc00044, [], .none, false, [⟨0, 32, .rc, 0, 0, .core⟩]⟩,  -- POS_ODO_ERR
  ⟨0xc00048, [], .none, false, [⟨0, 32, .rc, 0, 0, .core⟩]⟩,  -- POS_HOLDS
  ⟨0xc0004c, [], .none, false, [⟨0, 32, .rc, 0, 0, .core⟩]⟩,  -- POS_REVERSALS
  ⟨0xc00100, [], .none, false, [⟨31, 1, .rwi, 0, 0, .core⟩, ⟨30, 1, .rwi, 0, 0, .core⟩, ⟨29, 1, .rwi, 0, 0, .core⟩, ⟨16, 8, .rwi, 0x32, 0x32, .core⟩, ⟨8, 8, .rwi, 0xa, 0xa, .core⟩, ⟨0, 8, .rwi, 0xa, 0xa, .core⟩]⟩,  -- PISTE_CTRL
  ⟨0xc00104, [], .none, false, [⟨28, 4, .rwi, 2, 2, .core⟩, ⟨20, 8, .rwi, 6, 6, .core⟩, ⟨12, 8, .rwi, 0x19, 0x19, .core⟩, ⟨4, 8, .rwi, 0x28, 0x28, .core⟩, ⟨2, 2, .rwi, 1, 1, .core⟩]⟩,  -- PISTE_LEARN
  ⟨0xc00108, [], .none, false, [⟨31, 1, .ro, 0, 0, .core⟩, ⟨30, 1, .ro, 0, 0, .core⟩, ⟨29, 1, .ro, 0, 0, .core⟩, ⟨0, 16, .ro, 0, 0, .core⟩]⟩,  -- PISTE_STATUS
  ⟨0xc0010c, [], .none, false, [⟨16, 16, .ro, 0, 0, .core⟩, ⟨0, 16, .ro, 0, 0, .core⟩]⟩,  -- PISTE_COUNT
  ⟨0xc00110, [], .none, false, [⟨0, 32, .ro, 0, 0, .core⟩]⟩,  -- PISTE_TABLE_ROUTE
  ⟨0xc00140, [], .none, false, [⟨0, 32, .rc, 0, 0, .core⟩]⟩,  -- PISTE_ARMS
  ⟨0xc00144, [], .none, false, [⟨0, 32, .rc, 0, 0, .core⟩]⟩,  -- PISTE_FULL_DROPS
  ⟨0xc00200, [(16, 0x4)], .port, false, [⟨30, 2, .rwi, 0, 0, .core⟩, ⟨28, 2, .rwi, 0, 0, .core⟩, ⟨27, 1, .ro, 0, 0, .core⟩, ⟨26, 1, .ro, 0, 0, .core⟩, ⟨25, 1, .ro, 0, 0, .core⟩, ⟨24, 1, .ro, 0, 0, .core⟩, ⟨22, 2, .ro, 0, 0, .core⟩, ⟨0, 16, .ro, 0xffff, 0xffff, .core⟩]⟩,  -- PISTE_PORT
  ⟨0xc80000, [(32768, 0x10), (4, 0x4)], .none, false, [⟨0, 32, .rwi, 0, 0, .core⟩]⟩  -- PISTE_ENTRY
  ]

/-- The registers of the POS block (Table 17-7). -/
def rowsPos : List RegRow := rowsPos0

/-- Registers of the EVID block, part 0. -/
def rowsEvid0 : List RegRow := [
  ⟨0xd00000, [], .none, false, [⟨31, 1, .rwi, 1, 1, .core⟩, ⟨0, 20, .rwi, 0x3e8, 0x3e8, .core⟩]⟩,  -- CEN_CFG
  ⟨0xd00004, [], .none, false, [⟨0, 16, .rwi, 0x400, 0x400, .core⟩]⟩,  -- CEN_SAMPLE
  ⟨0xd00008, [], .none, false, [⟨31, 1, .ro, 0, 0, .core⟩, ⟨30, 1, .ro, 0, 0, .core⟩]⟩,  -- CEN_STATUS
  ⟨0xd0000c, [], .none, false, [⟨0, 32, .ro, 0, 0, .core⟩]⟩,  -- CEN_SLOTS
  ⟨0xd00010, [], .none, true, [⟨0, 64, .ro, 0, 0, .core⟩]⟩,  -- CEN_SEQ
  ⟨0xd00018, [], .none, false, [⟨0, 32, .rc, 0, 0, .core⟩]⟩,  -- CEN_SKIPPED
  ⟨0xd01000, [(312, 0x4)], .none, false, [⟨31, 1, .rwi, 0, 0, .nv⟩, ⟨0, 10, .rwi, 0, 0, .nv⟩]⟩,  -- CEN_SEL
  ⟨0xd10000, [(4, 0x40)], .none, false, [⟨31, 1, .rwi, 0, 0, .nv⟩, ⟨0, 16, .rwi, 0, 0, .nv⟩]⟩,  -- EVID_RING_CFG
  ⟨0xd10004, [(4, 0x40)], .none, false, [⟨16, 15, .rwi, 0, 0, .nv⟩, ⟨0, 15, .rwi, 0, 0, .nv⟩]⟩,  -- EVID_RING_CFG1
  ⟨0xd10008, [(4, 0x40)], .none, false, [⟨16, 12, .rwi, 0, 0, .nv⟩, ⟨0, 14, .rwi, 0, 0, .nv⟩]⟩,  -- EVID_RING_CFG2
  ⟨0xd1000c, [(4, 0x40)], .none, false, [⟨16, 16, .rwi, 0, 0, .nv⟩, ⟨0, 12, .rwi, 0, 0, .nv⟩]⟩,  -- EVID_RING_CFG3
  ⟨0xd10010, [(4, 0x40)], .none, false, [⟨3, 2, .rwi, 3, 3, .core⟩, ⟨2, 1, .rwi, 0, 0, .core⟩, ⟨1, 1, .rwi, 1, 1, .core⟩, ⟨0, 1, .rwi, 1, 1, .core⟩]⟩,  -- EVID_TRIG_CFG
  ⟨0xd10014, [(4, 0x40)], .none, false, [⟨0, 32, .rwi, 0, 0, .core⟩]⟩,  -- EVID_TRIG_ROUTE
  ⟨0xd10018, [(4, 0x40)], .none, true, [⟨0, 40, .rwi, 0, 0, .core⟩]⟩,  -- EVID_TRIG_POS
  ⟨0xd10020, [(4, 0x40)], .none, false, [⟨30, 2, .ro, 0, 0, .core⟩, ⟨0, 15, .ro, 0, 0, .core⟩]⟩,  -- EVID_RING_STATE
  ⟨0xd10024, [(4, 0x40)], .none, false, [⟨0, 32, .ro, 0, 0, .core⟩]⟩,  -- EVID_RING_SEQ
  ⟨0xd10030, [(4, 0x40)], .none, false, [⟨0, 32, .rc, 0, 0, .core⟩]⟩,  -- EVID_RECORDS
  ⟨0xd10034, [(4, 0x40)], .none, false, [⟨0, 32, .rc, 0, 0, .core⟩]⟩,  -- EVID_NOT_REC
  ⟨0xd10038, [(4, 0x40)], .none, false, [⟨0, 32, .rc, 0, 0, .core⟩]⟩,  -- EVID_DISCARD
  ⟨0xd10400, [(8, 0x20)], .none, false, [⟨30, 2, .ro, 0, 0, .ao⟩, ⟨28, 2, .ro, 0, 0, .ao⟩, ⟨24, 4, .ro, 0, 0, .ao⟩, ⟨23, 1, .ro, 0, 0, .ao⟩, ⟨22, 1, .ro, 0, 0, .ao⟩, ⟨16, 4, .ro, 0, 0, .ao⟩, ⟨0, 15, .ro, 0, 0, .ao⟩]⟩,  -- EVID_SEG
  ⟨0xd10404, [(8, 0x20)], .none, false, [⟨0, 15, .ro, 0, 0, .ao⟩]⟩,  -- EVID_SEG_W1
  ⟨0xd10408, [(8, 0x20)], .none, true, [⟨0, 64, .ro, 0, 0, .ao⟩]⟩,  -- EVID_SEG_TIME
  ⟨0xd10410, [(8, 0x20)], .none, true, [⟨0, 64, .ro, 0, 0, .ao⟩]⟩,  -- EVID_SEG_POS
  ⟨0xd10418, [(8, 0x20)], .none, false, [⟨0, 32, .ro, 0, 0, .ao⟩]⟩  -- EVID_SEG_FIRST_SEQ
  ]

/-- Registers of the EVID block, part 1. -/
def rowsEvid1 : List RegRow := [
  ⟨0xd1041c, [(8, 0x20)], .none, false, [⟨0, 32, .ro, 0, 0, .ao⟩]⟩,  -- EVID_SEG_LAST_SEQ
  ⟨0xd10600, [(8, 0x4)], .none, false, [⟨0, 32, .ro, 0, 0, .core⟩]⟩,  -- EVID_DIGEST
  ⟨0xd10700, [], .none, false, [⟨0, 32, .rc, 0, 0, .core⟩]⟩,  -- EVID_TRIG_REFUSED
  ⟨0xd11000, [(4096, 0x4)], .none, false, [⟨0, 32, .ro, 0, 0, .ao⟩]⟩  -- EVID_IMAP
  ]

/-- The registers of the EVID block (Table 17-7). -/
def rowsEvid : List RegRow := rowsEvid0 ++ rowsEvid1

/-- Registers of the SEC block, part 0. -/
def rowsSec0 : List RegRow := [
  ⟨0xe00000, [], .none, false, [⟨29, 3, .ro, 0, 0, .nv⟩, ⟨28, 1, .ro, 0, 0, .nv⟩, ⟨26, 2, .ro, 0, 0, .core⟩, ⟨25, 1, .ro, 0, 0, .ao⟩, ⟨20, 5, .ro, 0, 0, .ao⟩]⟩,  -- SEC_STATE
  ⟨0xe00004, [], .none, false, [⟨30, 2, .ro, 0, 0, .core⟩, ⟨27, 3, .ro, 0, 0, .core⟩, ⟨26, 1, .ro, 0, 0, .core⟩, ⟨0, 13, .ro, 0, 0, .core⟩]⟩,  -- SEC_SESSION
  ⟨0xe00008, [], .none, false, [⟨0, 1, .wo, 0, 0, .core⟩]⟩,  -- SEC_SESS_CTRL
  ⟨0xe00010, [(8, 0x4)], .none, false, [⟨0, 32, .ro, 0, 0, .core⟩]⟩,  -- SEC_CHALLENGE
  ⟨0xe00040, [(16, 0x4)], .none, false, [⟨0, 32, .rw, 0, 0, .core⟩]⟩,  -- SEC_RESP
  ⟨0xe00080, [], .none, false, [⟨31, 1, .wo, 0, 0, .core⟩, ⟨30, 1, .ro, 0, 0, .core⟩, ⟨28, 2, .rw, 0, 0, .core⟩, ⟨27, 1, .rw, 0, 0, .core⟩, ⟨24, 3, .rw, 0, 0, .core⟩, ⟨0, 4, .ro, 0, 0, .core⟩]⟩,  -- SEC_KEY_CTRL
  ⟨0xe00084, [], .none, false, [⟨8, 8, .ro, 0, 0, .nv⟩, ⟨0, 8, .ro, 0, 0, .nv⟩]⟩,  -- SEC_KEYS
  ⟨0xe000c0, [(16, 0x4)], .none, false, [⟨0, 32, .rw, 0, 0, .core⟩]⟩,  -- SEC_KEY_STAGE
  ⟨0xe00100, [], .none, true, [⟨0, 64, .ro, 0, 0, .nv⟩]⟩,  -- SEC_ID_SERIAL
  ⟨0xe00108, [], .none, false, [⟨31, 1, .wo, 0, 0, .core⟩, ⟨30, 1, .ro, 0, 0, .core⟩, ⟨29, 1, .ro, 0, 0, .core⟩]⟩,  -- SEC_ID_CTRL
  ⟨0xe00140, [(8, 0x4)], .none, false, [⟨0, 32, .rw, 0, 0, .core⟩]⟩,  -- SEC_ID_NONCE
  ⟨0xe00180, [(16, 0x4)], .none, false, [⟨0, 32, .ro, 0, 0, .core⟩]⟩,  -- SEC_ID_SIG
  ⟨0xe001c0, [(16, 0x4)], .none, false, [⟨0, 32, .ro, 0, 0, .nv⟩]⟩,  -- SEC_ID_PUB
  ⟨0xe00400, [(128, 0x4)], .none, false, [⟨0, 32, .ro, 0, 0, .nv⟩]⟩,  -- SEC_ID_CERT
  ⟨0xe00800, [], .none, false, [⟨0, 32, .ro, 0, 0, .nv⟩]⟩,  -- SEC_AUDIT_HEAD
  ⟨0xe01000, [(256, 0x10), (4, 0x4)], .none, false, [⟨0, 32, .ro, 0, 0, .nv⟩]⟩  -- SEC_AUDIT
  ]

/-- The registers of the SEC block (Table 17-7). -/
def rowsSec : List RegRow := rowsSec0

/-- Registers of the TST block, part 0. -/
def rowsTst0 : List RegRow := [
  ⟨0xf00000, [], .none, false, [⟨31, 1, .ro, 0, 0, .core⟩, ⟨30, 1, .ro, 0, 0, .ao⟩, ⟨27, 3, .ro, 0, 0, .ao⟩, ⟨0, 16, .ro, 0, 0, .core⟩]⟩,  -- TST_BIST_RESULT
  ⟨0xf00004, [], .none, false, [⟨31, 1, .rwm, 1, 1, .nv⟩, ⟨16, 8, .rwm, 0x3c, 0x3c, .nv⟩, ⟨8, 8, .rwm, 0x3c, 0x3c, .nv⟩, ⟨0, 8, .rwm, 0x32, 0x32, .nv⟩]⟩,  -- TST_ROT_CFG
  ⟨0xf00008, [], .none, false, [⟨31, 1, .ro, 0, 0, .core⟩, ⟨24, 7, .ro, 0x7f, 0x7f, .core⟩, ⟨23, 1, .ro, 0, 0, .core⟩, ⟨16, 7, .ro, 0x7f, 0x7f, .core⟩, ⟨8, 8, .ro, 0x24, 4, .core⟩, ⟨0, 8, .ro, 0, 0, .core⟩]⟩,  -- TST_ROT_STATE
  ⟨0xf00100, [(68, 0x4)], .none, false, [⟨29, 3, .ro, 0, 0, .core⟩, ⟨20, 4, .ro, 0, 0, .core⟩, ⟨0, 16, .ro, 0xffff, 0xffff, .core⟩]⟩,  -- TST_SLICE_STATE
  ⟨0xf00300, [(96, 0x4)], .none, false, [⟨30, 2, .ro, 0, 0, .core⟩, ⟨0, 16, .ro, 0xffff, 0xffff, .core⟩]⟩,  -- TST_BLOCK_STATE
  ⟨0xf00080, [], .none, false, [⟨31, 1, .rwm, 0, 0, .core⟩, ⟨29, 2, .ro, 0, 0, .core⟩, ⟨27, 2, .rwm, 0, 0, .core⟩, ⟨20, 7, .rwm, 0, 0, .core⟩, ⟨0, 20, .rwm, 0x10000, 0x10000, .core⟩]⟩,  -- TST_MAN_CTRL
  ⟨0xf00084, [], .none, false, [⟨0, 32, .ro, 0, 0, .core⟩]⟩,  -- TST_MAN_SIG
  ⟨0xf00040, [], .none, false, [⟨0, 32, .rc, 0, 0, .core⟩]⟩,  -- TST_PASSES
  ⟨0xf00044, [], .none, false, [⟨0, 32, .rc, 0, 0, .core⟩]⟩,  -- TST_ABORTS
  ⟨0xf00048, [], .none, false, [⟨0, 32, .rc, 0, 0, .core⟩]⟩,  -- TST_FAULTS
  ⟨0xf0004c, [], .none, false, [⟨0, 32, .rc, 0, 0, .core⟩]⟩,  -- TST_HANDOVERS
  ⟨0xf00050, [], .none, false, [⟨0, 32, .rc, 0, 0, .core⟩]⟩  -- TST_OVERDUE
  ]

/-- The registers of the TST block (Table 17-7). -/
def rowsTst : List RegRow := rowsTst0

/-- The rows of the block in which a BAR0 offset lies (Table 17-7). -/
def blockRows (off : Nat) : List RegRow :=
  match off / 0x100000 with
  | 0 => rowsDev
  | 1 => rowsEvt
  | 2 => rowsCmd
  | 4 => rowsPort
  | 5 => rowsPort
  | 6 => rowsSlice
  | 8 => rowsMem
  | 9 => rowsFab
  | 10 => rowsLane
  | 11 => rowsPwr
  | 12 => rowsPos
  | 13 => rowsEvid
  | 14 => rowsSec
  | 15 => rowsTst
  | _ => []

/-- What is left of an offset after taking the indexes off it, where every index is in range. -/
def dimsRest : List (Nat × Nat) → Nat → Option Nat
  | [], d => some d
  | (c, st) :: ds, d => if d / st < c then dimsRest ds (d % st) else none

/-- Which word of the register `r` the offset names: 0, or 1 for the high word of a 64-bit quantity. -/
def RegRow.covers (r : RegRow) (off : Nat) : Option Nat :=
  if off < r.base then none else
    match dimsRest r.dims (off - r.base) with
    | some 0 => some 0
    | some 4 => if r.wide then some 1 else none
    | _ => none

/-- The first index of the register that the offset names. -/
def RegRow.firstIndex (r : RegRow) (off : Nat) : Nat :=
  match r.dims with
  | [] => 0
  | (_, st) :: _ => (off - r.base) / st

/-- The register row that covers an offset, with the word within it. -/
def findRow : List RegRow → Nat → Option (RegRow × Nat)
  | [], _ => none
  | r :: rs, off =>
    match r.covers off with
    | some w => some (r, w)
    | none => findRow rs off

/-- The register at a BAR0 offset, none where the offset is unmapped (R7, R419). -/
def regAt (off : Nat) : Option (RegRow × Nat) := findRow (blockRows off) off

/-- Table 0-2. -/
def A.DEV_PARTID : Nat := 0x000000
@[inherit_doc A.DEV_PARTID] abbrev F.DEV_PARTID_PART : Fld := ⟨A.DEV_PARTID, 16, 16⟩
@[inherit_doc A.DEV_PARTID] abbrev F.DEV_PARTID_STEP_LETTER : Fld := ⟨A.DEV_PARTID, 12, 4⟩
@[inherit_doc A.DEV_PARTID] abbrev F.DEV_PARTID_STEP_NUM : Fld := ⟨A.DEV_PARTID, 8, 4⟩
@[inherit_doc A.DEV_PARTID] abbrev F.DEV_PARTID_STACK_HIGH : Fld := ⟨A.DEV_PARTID, 4, 4⟩
/-- Table 2-15. -/
def A.DEV_FOLD_STATUS : Nat := 0x000040
@[inherit_doc A.DEV_FOLD_STATUS] abbrev F.DEV_FOLD_STATUS_LAST_ERR : Fld := ⟨A.DEV_FOLD_STATUS, 24, 8⟩
@[inherit_doc A.DEV_FOLD_STATUS] abbrev F.DEV_FOLD_STATUS_FMT_MINOR : Fld := ⟨A.DEV_FOLD_STATUS, 20, 4⟩
@[inherit_doc A.DEV_FOLD_STATUS] abbrev F.DEV_FOLD_STATUS_APPLY_STATE : Fld := ⟨A.DEV_FOLD_STATUS, 16, 4⟩
@[inherit_doc A.DEV_FOLD_STATUS] abbrev F.DEV_FOLD_STATUS_RUN_SRC : Fld := ⟨A.DEV_FOLD_STATUS, 10, 2⟩
@[inherit_doc A.DEV_FOLD_STATUS] abbrev F.DEV_FOLD_STATUS_RUN_COMMITTED : Fld := ⟨A.DEV_FOLD_STATUS, 9, 1⟩
@[inherit_doc A.DEV_FOLD_STATUS] abbrev F.DEV_FOLD_STATUS_FALLBACK : Fld := ⟨A.DEV_FOLD_STATUS, 8, 1⟩
@[inherit_doc A.DEV_FOLD_STATUS] abbrev F.DEV_FOLD_STATUS_SLOT_B_VALID : Fld := ⟨A.DEV_FOLD_STATUS, 7, 1⟩
@[inherit_doc A.DEV_FOLD_STATUS] abbrev F.DEV_FOLD_STATUS_SLOT_A_VALID : Fld := ⟨A.DEV_FOLD_STATUS, 6, 1⟩
@[inherit_doc A.DEV_FOLD_STATUS] abbrev F.DEV_FOLD_STATUS_COMMITTED_SLOT : Fld := ⟨A.DEV_FOLD_STATUS, 5, 1⟩
@[inherit_doc A.DEV_FOLD_STATUS] abbrev F.DEV_FOLD_STATUS_COMMIT_VALID : Fld := ⟨A.DEV_FOLD_STATUS, 4, 1⟩
/-- Table 2-16. -/
def A.DEV_FOLD_RUN : Nat := 0x000048
@[inherit_doc A.DEV_FOLD_RUN] abbrev F.DEV_FOLD_RUN_SERIAL : Fld := ⟨A.DEV_FOLD_RUN + 4, 0, 32⟩
@[inherit_doc A.DEV_FOLD_RUN] abbrev F.DEV_FOLD_RUN_FOLD_ID : Fld := ⟨A.DEV_FOLD_RUN, 0, 32⟩
/-- Table 2-17. -/
def A.DEV_FOLD_FLOOR : Nat := 0x000050
@[inherit_doc A.DEV_FOLD_FLOOR] abbrev F.DEV_FOLD_FLOOR_FLOOR : Fld := ⟨A.DEV_FOLD_FLOOR, 0, 32⟩
/-- Table 2-17. -/
def A.DEV_FOLD_COMMIT : Nat := 0x000058
/-- Table 3-12. -/
def A.PORT_ILM_CTRL (n : Nat) : Nat := 0x400400 + 0x20000 * (n % 16)
@[inherit_doc A.PORT_ILM_CTRL] abbrev F.PORT_ILM_CTRL_PSD_ATTEN (n : Nat) : Fld := ⟨A.PORT_ILM_CTRL n, 16, 8⟩
@[inherit_doc A.PORT_ILM_CTRL] abbrev F.PORT_ILM_CTRL_FORCE_EN (n : Nat) : Fld := ⟨A.PORT_ILM_CTRL n, 15, 1⟩
@[inherit_doc A.PORT_ILM_CTRL] abbrev F.PORT_ILM_CTRL_FORCE_PROF (n : Nat) : Fld := ⟨A.PORT_ILM_CTRL n, 12, 2⟩
@[inherit_doc A.PORT_ILM_CTRL] abbrev F.PORT_ILM_CTRL_MARGIN_TGT (n : Nat) : Fld := ⟨A.PORT_ILM_CTRL n, 8, 4⟩
@[inherit_doc A.PORT_ILM_CTRL] abbrev F.PORT_ILM_CTRL_BS_HOLD (n : Nat) : Fld := ⟨A.PORT_ILM_CTRL n, 4, 4⟩
@[inherit_doc A.PORT_ILM_CTRL] abbrev F.PORT_ILM_CTRL_BITSWAP_EN (n : Nat) : Fld := ⟨A.PORT_ILM_CTRL n, 3, 1⟩
/-- Table 3-13. -/
def A.PORT_ILM_STATE (n : Nat) : Nat := 0x400404 + 0x20000 * (n % 16)
@[inherit_doc A.PORT_ILM_STATE] abbrev F.PORT_ILM_STATE_TIMING_SLAVE (n : Nat) : Fld := ⟨A.PORT_ILM_STATE n, 31, 1⟩
@[inherit_doc A.PORT_ILM_STATE] abbrev F.PORT_ILM_STATE_PADDOCK (n : Nat) : Fld := ⟨A.PORT_ILM_STATE n, 30, 1⟩
@[inherit_doc A.PORT_ILM_STATE] abbrev F.PORT_ILM_STATE_LONG_SPAN (n : Nat) : Fld := ⟨A.PORT_ILM_STATE n, 29, 1⟩
@[inherit_doc A.PORT_ILM_STATE] abbrev F.PORT_ILM_STATE_LEADING (n : Nat) : Fld := ⟨A.PORT_ILM_STATE n, 28, 1⟩
@[inherit_doc A.PORT_ILM_STATE] abbrev F.PORT_ILM_STATE_FORCE_IGNORED (n : Nat) : Fld := ⟨A.PORT_ILM_STATE n, 27, 1⟩
@[inherit_doc A.PORT_ILM_STATE] abbrev F.PORT_ILM_STATE_VERSION (n : Nat) : Fld := ⟨A.PORT_ILM_STATE n, 24, 2⟩
@[inherit_doc A.PORT_ILM_STATE] abbrev F.PORT_ILM_STATE_PROF_TX (n : Nat) : Fld := ⟨A.PORT_ILM_STATE n, 22, 2⟩
@[inherit_doc A.PORT_ILM_STATE] abbrev F.PORT_ILM_STATE_PROF_RX (n : Nat) : Fld := ⟨A.PORT_ILM_STATE n, 20, 2⟩
@[inherit_doc A.PORT_ILM_STATE] abbrev F.PORT_ILM_STATE_GEN_TX (n : Nat) : Fld := ⟨A.PORT_ILM_STATE n, 16, 4⟩
@[inherit_doc A.PORT_ILM_STATE] abbrev F.PORT_ILM_STATE_GEN_RX (n : Nat) : Fld := ⟨A.PORT_ILM_STATE n, 12, 4⟩
@[inherit_doc A.PORT_ILM_STATE] abbrev F.PORT_ILM_STATE_VEC_STATE (n : Nat) : Fld := ⟨A.PORT_ILM_STATE n, 10, 2⟩
/-- Table 3-14. -/
def A.PORT_ILM_SFC (n : Nat) : Nat := 0x400408 + 0x20000 * (n % 16)
@[inherit_doc A.PORT_ILM_SFC] abbrev F.PORT_ILM_SFC_COUNT (n : Nat) : Fld := ⟨A.PORT_ILM_SFC n, 0, 32⟩
/-- Table 3-14. -/
def A.PORT_ILM_TONES (n : Nat) : Nat := 0x40040c + 0x20000 * (n % 16)
@[inherit_doc A.PORT_ILM_TONES] abbrev F.PORT_ILM_TONES_TONE_CAP (n : Nat) : Fld := ⟨A.PORT_ILM_TONES n, 16, 12⟩
@[inherit_doc A.PORT_ILM_TONES] abbrev F.PORT_ILM_TONES_ACTIVE (n : Nat) : Fld := ⟨A.PORT_ILM_TONES n, 0, 12⟩
/-- Table 3-14. -/
def A.PORT_ILM_RATE (n : Nat) : Nat := 0x400410 + 0x20000 * (n % 16)
@[inherit_doc A.PORT_ILM_RATE] abbrev F.PORT_ILM_RATE_RX_MBPS (n : Nat) : Fld := ⟨A.PORT_ILM_RATE n, 16, 16⟩
@[inherit_doc A.PORT_ILM_RATE] abbrev F.PORT_ILM_RATE_TX_MBPS (n : Nat) : Fld := ⟨A.PORT_ILM_RATE n, 0, 16⟩
/-- Table 3-14. -/
def A.PORT_ILM_BITS (n : Nat) : Nat := 0x400414 + 0x20000 * (n % 16)
@[inherit_doc A.PORT_ILM_BITS] abbrev F.PORT_ILM_BITS_BITS_RX (n : Nat) : Fld := ⟨A.PORT_ILM_BITS n, 16, 16⟩
@[inherit_doc A.PORT_ILM_BITS] abbrev F.PORT_ILM_BITS_BITS_TX (n : Nat) : Fld := ⟨A.PORT_ILM_BITS n, 0, 16⟩
/-- Table 3-15. -/
def A.PORT_ILM_PEND (n : Nat) : Nat := 0x400418 + 0x20000 * (n % 16)
@[inherit_doc A.PORT_ILM_PEND] abbrev F.PORT_ILM_PEND_NEXT_SF (n : Nat) : Fld := ⟨A.PORT_ILM_PEND n, 16, 16⟩
@[inherit_doc A.PORT_ILM_PEND] abbrev F.PORT_ILM_PEND_NEXT_KIND (n : Nat) : Fld := ⟨A.PORT_ILM_PEND n, 14, 2⟩
@[inherit_doc A.PORT_ILM_PEND] abbrev F.PORT_ILM_PEND_NEXT_DIR (n : Nat) : Fld := ⟨A.PORT_ILM_PEND n, 13, 1⟩
@[inherit_doc A.PORT_ILM_PEND] abbrev F.PORT_ILM_PEND_PEND_RX (n : Nat) : Fld := ⟨A.PORT_ILM_PEND n, 4, 4⟩
@[inherit_doc A.PORT_ILM_PEND] abbrev F.PORT_ILM_PEND_PEND_TX (n : Nat) : Fld := ⟨A.PORT_ILM_PEND n, 0, 4⟩
/-- Table 3-16. -/
def A.PORT_IMP_CFG (n : Nat) : Nat := 0x40041c + 0x20000 * (n % 16)
@[inherit_doc A.PORT_IMP_CFG] abbrev F.PORT_IMP_CFG_SYM_BANDS (n : Nat) : Fld := ⟨A.PORT_IMP_CFG n, 20, 4⟩
@[inherit_doc A.PORT_IMP_CFG] abbrev F.PORT_IMP_CFG_CLEAN_END (n : Nat) : Fld := ⟨A.PORT_IMP_CFG n, 8, 8⟩
@[inherit_doc A.PORT_IMP_CFG] abbrev F.PORT_IMP_CFG_BAND_THR (n : Nat) : Fld := ⟨A.PORT_IMP_CFG n, 0, 8⟩
/-- Table 3-17. -/
def A.PORT_CUSTOM_A (n k : Nat) : Nat := 0x400420 + 0x20000 * (n % 16) + 0x4 * (k % 8)
@[inherit_doc A.PORT_CUSTOM_A] abbrev F.PORT_CUSTOM_A_VALID (n k : Nat) : Fld := ⟨A.PORT_CUSTOM_A n k, 31, 1⟩
@[inherit_doc A.PORT_CUSTOM_A] abbrev F.PORT_CUSTOM_A_DROP (n k : Nat) : Fld := ⟨A.PORT_CUSTOM_A n k, 28, 3⟩
@[inherit_doc A.PORT_CUSTOM_A] abbrev F.PORT_CUSTOM_A_CAP (n k : Nat) : Fld := ⟨A.PORT_CUSTOM_A n k, 24, 4⟩
@[inherit_doc A.PORT_CUSTOM_A] abbrev F.PORT_CUSTOM_A_END (n k : Nat) : Fld := ⟨A.PORT_CUSTOM_A n k, 12, 12⟩
@[inherit_doc A.PORT_CUSTOM_A] abbrev F.PORT_CUSTOM_A_START (n k : Nat) : Fld := ⟨A.PORT_CUSTOM_A n k, 0, 12⟩
/-- Table 3-17. -/
def A.PORT_CUSTOM_B (n k : Nat) : Nat := 0x400440 + 0x20000 * (n % 16) + 0x4 * (k % 8)
@[inherit_doc A.PORT_CUSTOM_B] abbrev F.PORT_CUSTOM_B_VALID (n k : Nat) : Fld := ⟨A.PORT_CUSTOM_B n k, 31, 1⟩
@[inherit_doc A.PORT_CUSTOM_B] abbrev F.PORT_CUSTOM_B_DROP (n k : Nat) : Fld := ⟨A.PORT_CUSTOM_B n k, 28, 3⟩
@[inherit_doc A.PORT_CUSTOM_B] abbrev F.PORT_CUSTOM_B_CAP (n k : Nat) : Fld := ⟨A.PORT_CUSTOM_B n k, 24, 4⟩
@[inherit_doc A.PORT_CUSTOM_B] abbrev F.PORT_CUSTOM_B_END (n k : Nat) : Fld := ⟨A.PORT_CUSTOM_B n k, 12, 12⟩
@[inherit_doc A.PORT_CUSTOM_B] abbrev F.PORT_CUSTOM_B_START (n k : Nat) : Fld := ⟨A.PORT_CUSTOM_B n k, 0, 12⟩
/-- Table 3-18. -/
def A.PORT_ILM_LOTS_OK (n : Nat) : Nat := 0x400460 + 0x20000 * (n % 16)
@[inherit_doc A.PORT_ILM_LOTS_OK] abbrev F.PORT_ILM_LOTS_OK_COUNT (n : Nat) : Fld := ⟨A.PORT_ILM_LOTS_OK n, 0, 32⟩
/-- Table 3-18. -/
def A.PORT_ILM_LOTS_LOST (n : Nat) : Nat := 0x400464 + 0x20000 * (n % 16)
@[inherit_doc A.PORT_ILM_LOTS_LOST] abbrev F.PORT_ILM_LOTS_LOST_COUNT (n : Nat) : Fld := ⟨A.PORT_ILM_LOTS_LOST n, 0, 32⟩
/-- Table 3-18. -/
def A.PORT_ILM_HDR_ERR (n : Nat) : Nat := 0x400468 + 0x20000 * (n % 16)
@[inherit_doc A.PORT_ILM_HDR_ERR] abbrev F.PORT_ILM_HDR_ERR_COUNT (n : Nat) : Fld := ⟨A.PORT_ILM_HDR_ERR n, 0, 32⟩
/-- Table 3-18. -/
def A.PORT_ILM_ERASED (n : Nat) : Nat := 0x40046c + 0x20000 * (n % 16)
@[inherit_doc A.PORT_ILM_ERASED] abbrev F.PORT_ILM_ERASED_COUNT (n : Nat) : Fld := ⟨A.PORT_ILM_ERASED n, 0, 32⟩
/-- Table 3-18. -/
def A.PORT_ILM_ACKW_ERR (n : Nat) : Nat := 0x400470 + 0x20000 * (n % 16)
@[inherit_doc A.PORT_ILM_ACKW_ERR] abbrev F.PORT_ILM_ACKW_ERR_COUNT (n : Nat) : Fld := ⟨A.PORT_ILM_ACKW_ERR n, 0, 32⟩
/-- Table 3-18. -/
def A.PORT_ILM_SWAP_FAIL (n : Nat) : Nat := 0x400474 + 0x20000 * (n % 16)
@[inherit_doc A.PORT_ILM_SWAP_FAIL] abbrev F.PORT_ILM_SWAP_FAIL_COUNT (n : Nat) : Fld := ⟨A.PORT_ILM_SWAP_FAIL n, 0, 32⟩
/-- Table 3-18. -/
def A.PORT_ILM_ECHO (n : Nat) : Nat := 0x400478 + 0x20000 * (n % 16)
@[inherit_doc A.PORT_ILM_ECHO] abbrev F.PORT_ILM_ECHO_ERLE (n : Nat) : Fld := ⟨A.PORT_ILM_ECHO n, 0, 16⟩
/-- Table 3-20. -/
def A.FLOCK_VEC_STATE (n : Nat) : Nat := 0x608000 + 0x40 * (n % 4)
@[inherit_doc A.FLOCK_VEC_STATE] abbrev F.FLOCK_VEC_STATE_BELLWETHER (n : Nat) : Fld := ⟨A.FLOCK_VEC_STATE n, 16, 8⟩
@[inherit_doc A.FLOCK_VEC_STATE] abbrev F.FLOCK_VEC_STATE_SLAVE (n : Nat) : Fld := ⟨A.FLOCK_VEC_STATE n, 12, 1⟩
@[inherit_doc A.FLOCK_VEC_STATE] abbrev F.FLOCK_VEC_STATE_CONFIG (n : Nat) : Fld := ⟨A.FLOCK_VEC_STATE n, 8, 4⟩
@[inherit_doc A.FLOCK_VEC_STATE] abbrev F.FLOCK_VEC_STATE_JOINING (n : Nat) : Fld := ⟨A.FLOCK_VEC_STATE n, 4, 4⟩
@[inherit_doc A.FLOCK_VEC_STATE] abbrev F.FLOCK_VEC_STATE_ACTIVE (n : Nat) : Fld := ⟨A.FLOCK_VEC_STATE n, 0, 4⟩
/-- Table 3-20. -/
def A.FLOCK_VEC_SWEEPS (n : Nat) : Nat := 0x608004 + 0x40 * (n % 4)
@[inherit_doc A.FLOCK_VEC_SWEEPS] abbrev F.FLOCK_VEC_SWEEPS_COUNT (n : Nat) : Fld := ⟨A.FLOCK_VEC_SWEEPS n, 0, 32⟩
/-- Table 4-9. -/
def A.PORT_MODE (n : Nat) : Nat := 0x400000 + 0x20000 * (n % 16)
@[inherit_doc A.PORT_MODE] abbrev F.PORT_MODE_ENABLE (n : Nat) : Fld := ⟨A.PORT_MODE n, 31, 1⟩
@[inherit_doc A.PORT_MODE] abbrev F.PORT_MODE_AN_EN (n : Nat) : Fld := ⟨A.PORT_MODE n, 30, 1⟩
@[inherit_doc A.PORT_MODE] abbrev F.PORT_MODE_RESTART (n : Nat) : Fld := ⟨A.PORT_MODE n, 29, 1⟩
@[inherit_doc A.PORT_MODE] abbrev F.PORT_MODE_WARM_EN (n : Nat) : Fld := ⟨A.PORT_MODE n, 28, 1⟩
@[inherit_doc A.PORT_MODE] abbrev F.PORT_MODE_FORCE_SLAVE (n : Nat) : Fld := ⟨A.PORT_MODE n, 27, 1⟩
@[inherit_doc A.PORT_MODE] abbrev F.PORT_MODE_FORCE_MODE (n : Nat) : Fld := ⟨A.PORT_MODE n, 24, 3⟩
/-- Table 4-10. -/
def A.PORT_AN_CTRL (n : Nat) : Nat := 0x400004 + 0x20000 * (n % 16)
@[inherit_doc A.PORT_AN_CTRL] abbrev F.PORT_AN_CTRL_ROLE_PREF (n : Nat) : Fld := ⟨A.PORT_AN_CTRL n, 20, 2⟩
@[inherit_doc A.PORT_AN_CTRL] abbrev F.PORT_AN_CTRL_LPI_ADV (n : Nat) : Fld := ⟨A.PORT_AN_CTRL n, 19, 1⟩
@[inherit_doc A.PORT_AN_CTRL] abbrev F.PORT_AN_CTRL_ADV_MASK (n : Nat) : Fld := ⟨A.PORT_AN_CTRL n, 0, 16⟩
/-- Table 4-10. -/
def A.PORT_AN_STATUS (n : Nat) : Nat := 0x400008 + 0x20000 * (n % 16)
@[inherit_doc A.PORT_AN_STATUS] abbrev F.PORT_AN_STATUS_STATE (n : Nat) : Fld := ⟨A.PORT_AN_STATUS n, 28, 4⟩
@[inherit_doc A.PORT_AN_STATUS] abbrev F.PORT_AN_STATUS_PARTNER_VER (n : Nat) : Fld := ⟨A.PORT_AN_STATUS n, 24, 4⟩
@[inherit_doc A.PORT_AN_STATUS] abbrev F.PORT_AN_STATUS_PARTNER_CAPS (n : Nat) : Fld := ⟨A.PORT_AN_STATUS n, 16, 8⟩
@[inherit_doc A.PORT_AN_STATUS] abbrev F.PORT_AN_STATUS_LAST_FAIL (n : Nat) : Fld := ⟨A.PORT_AN_STATUS n, 12, 4⟩
@[inherit_doc A.PORT_AN_STATUS] abbrev F.PORT_AN_STATUS_VEC_MISMATCH (n : Nat) : Fld := ⟨A.PORT_AN_STATUS n, 11, 1⟩
@[inherit_doc A.PORT_AN_STATUS] abbrev F.PORT_AN_STATUS_ILM_SUPPRESSED (n : Nat) : Fld := ⟨A.PORT_AN_STATUS n, 10, 1⟩
@[inherit_doc A.PORT_AN_STATUS] abbrev F.PORT_AN_STATUS_PARTNER_TECH (n : Nat) : Fld := ⟨A.PORT_AN_STATUS n, 0, 5⟩
/-- Table 4-12. -/
def A.PORT_LINK_STATUS (n : Nat) : Nat := 0x40000c + 0x20000 * (n % 16)
@[inherit_doc A.PORT_LINK_STATUS] abbrev F.PORT_LINK_STATUS_UP (n : Nat) : Fld := ⟨A.PORT_LINK_STATUS n, 31, 1⟩
@[inherit_doc A.PORT_LINK_STATUS] abbrev F.PORT_LINK_STATUS_LPI (n : Nat) : Fld := ⟨A.PORT_LINK_STATUS n, 30, 1⟩
@[inherit_doc A.PORT_LINK_STATUS] abbrev F.PORT_LINK_STATUS_MODE (n : Nat) : Fld := ⟨A.PORT_LINK_STATUS n, 26, 4⟩
@[inherit_doc A.PORT_LINK_STATUS] abbrev F.PORT_LINK_STATUS_PHASE (n : Nat) : Fld := ⟨A.PORT_LINK_STATUS n, 22, 4⟩
@[inherit_doc A.PORT_LINK_STATUS] abbrev F.PORT_LINK_STATUS_DOWN_CAUSE (n : Nat) : Fld := ⟨A.PORT_LINK_STATUS n, 12, 4⟩
@[inherit_doc A.PORT_LINK_STATUS] abbrev F.PORT_LINK_STATUS_TRAIN_TIME (n : Nat) : Fld := ⟨A.PORT_LINK_STATUS n, 0, 12⟩
/-- Table 4-12. -/
def A.PORT_LINK_CFG (n : Nat) : Nat := 0x400010 + 0x20000 * (n % 16)
@[inherit_doc A.PORT_LINK_CFG] abbrev F.PORT_LINK_CFG_DOWN_TIME (n : Nat) : Fld := ⟨A.PORT_LINK_CFG n, 24, 8⟩
@[inherit_doc A.PORT_LINK_CFG] abbrev F.PORT_LINK_CFG_DOWN_TIME_ZONE (n : Nat) : Fld := ⟨A.PORT_LINK_CFG n, 16, 8⟩
@[inherit_doc A.PORT_LINK_CFG] abbrev F.PORT_LINK_CFG_MARGIN_DOWN (n : Nat) : Fld := ⟨A.PORT_LINK_CFG n, 8, 8⟩
@[inherit_doc A.PORT_LINK_CFG] abbrev F.PORT_LINK_CFG_WARM_HOLD (n : Nat) : Fld := ⟨A.PORT_LINK_CFG n, 5, 3⟩
@[inherit_doc A.PORT_LINK_CFG] abbrev F.PORT_LINK_CFG_REQUIRE_AUTH (n : Nat) : Fld := ⟨A.PORT_LINK_CFG n, 4, 1⟩
@[inherit_doc A.PORT_LINK_CFG] abbrev F.PORT_LINK_CFG_LPI_IDLE (n : Nat) : Fld := ⟨A.PORT_LINK_CFG n, 0, 4⟩
/-- Table 4-13. -/
def A.PORT_MON_MARGIN (n : Nat) : Nat := 0x400014 + 0x20000 * (n % 16)
@[inherit_doc A.PORT_MON_MARGIN] abbrev F.PORT_MON_MARGIN_FE_AVG (n : Nat) : Fld := ⟨A.PORT_MON_MARGIN n, 24, 8⟩
@[inherit_doc A.PORT_MON_MARGIN] abbrev F.PORT_MON_MARGIN_FE_MIN (n : Nat) : Fld := ⟨A.PORT_MON_MARGIN n, 16, 8⟩
@[inherit_doc A.PORT_MON_MARGIN] abbrev F.PORT_MON_MARGIN_RX_AVG (n : Nat) : Fld := ⟨A.PORT_MON_MARGIN n, 8, 8⟩
@[inherit_doc A.PORT_MON_MARGIN] abbrev F.PORT_MON_MARGIN_RX_MIN (n : Nat) : Fld := ⟨A.PORT_MON_MARGIN n, 0, 8⟩
/-- Table 4-13. -/
def A.PORT_PARTNER_INFO (n : Nat) : Nat := 0x400018 + 0x20000 * (n % 16)
@[inherit_doc A.PORT_PARTNER_INFO] abbrev F.PORT_PARTNER_INFO_PART (n : Nat) : Fld := ⟨A.PORT_PARTNER_INFO n, 16, 16⟩
@[inherit_doc A.PORT_PARTNER_INFO] abbrev F.PORT_PARTNER_INFO_PPORT (n : Nat) : Fld := ⟨A.PORT_PARTNER_INFO n, 12, 4⟩
@[inherit_doc A.PORT_PARTNER_INFO] abbrev F.PORT_PARTNER_INFO_AUTH (n : Nat) : Fld := ⟨A.PORT_PARTNER_INFO n, 10, 2⟩
@[inherit_doc A.PORT_PARTNER_INFO] abbrev F.PORT_PARTNER_INFO_CHANGED (n : Nat) : Fld := ⟨A.PORT_PARTNER_INFO n, 9, 1⟩
@[inherit_doc A.PORT_PARTNER_INFO] abbrev F.PORT_PARTNER_INFO_STEP (n : Nat) : Fld := ⟨A.PORT_PARTNER_INFO n, 0, 8⟩
/-- Table 4-13. -/
def A.PORT_PARTNER_SN (n : Nat) : Nat := 0x400020 + 0x20000 * (n % 16)
/-- Table 4-13. -/
def A.PORT_PARTNER_PREV (n : Nat) : Nat := 0x400028 + 0x20000 * (n % 16)
/-- Table 4-14. -/
def A.PORT_LINK_DOWNS (n : Nat) : Nat := 0x400040 + 0x20000 * (n % 16)
@[inherit_doc A.PORT_LINK_DOWNS] abbrev F.PORT_LINK_DOWNS_COUNT (n : Nat) : Fld := ⟨A.PORT_LINK_DOWNS n, 0, 32⟩
/-- Table 4-14. -/
def A.PORT_TRAIN_FAILS (n : Nat) : Nat := 0x400044 + 0x20000 * (n % 16)
@[inherit_doc A.PORT_TRAIN_FAILS] abbrev F.PORT_TRAIN_FAILS_COUNT (n : Nat) : Fld := ⟨A.PORT_TRAIN_FAILS n, 0, 32⟩
/-- Table 4-14. -/
def A.PORT_WARM_OK (n : Nat) : Nat := 0x400048 + 0x20000 * (n % 16)
@[inherit_doc A.PORT_WARM_OK] abbrev F.PORT_WARM_OK_COUNT (n : Nat) : Fld := ⟨A.PORT_WARM_OK n, 0, 32⟩
/-- Table 4-14. -/
def A.PORT_WARM_FAIL (n : Nat) : Nat := 0x40004c + 0x20000 * (n % 16)
@[inherit_doc A.PORT_WARM_FAIL] abbrev F.PORT_WARM_FAIL_COUNT (n : Nat) : Fld := ⟨A.PORT_WARM_FAIL n, 0, 32⟩
/-- Table 4-14. -/
def A.PORT_EOC_RETRY (n : Nat) : Nat := 0x400050 + 0x20000 * (n % 16)
@[inherit_doc A.PORT_EOC_RETRY] abbrev F.PORT_EOC_RETRY_COUNT (n : Nat) : Fld := ⟨A.PORT_EOC_RETRY n, 0, 32⟩
/-- Table 4-14. -/
def A.PORT_EOC_ERR (n : Nat) : Nat := 0x400054 + 0x20000 * (n % 16)
@[inherit_doc A.PORT_EOC_ERR] abbrev F.PORT_EOC_ERR_COUNT (n : Nat) : Fld := ⟨A.PORT_EOC_ERR n, 0, 32⟩
/-- Table 4-14. -/
def A.PORT_DOWN_DISCARD (n : Nat) : Nat := 0x400058 + 0x20000 * (n % 16)
@[inherit_doc A.PORT_DOWN_DISCARD] abbrev F.PORT_DOWN_DISCARD_COUNT (n : Nat) : Fld := ⟨A.PORT_DOWN_DISCARD n, 0, 32⟩
/-- Table 4-14. -/
def A.PORT_LPI_ENTRIES (n : Nat) : Nat := 0x40005c + 0x20000 * (n % 16)
@[inherit_doc A.PORT_LPI_ENTRIES] abbrev F.PORT_LPI_ENTRIES_COUNT (n : Nat) : Fld := ⟨A.PORT_LPI_ENTRIES n, 0, 32⟩
/-- Table 5-6. -/
def A.PORT_PAD_CFG (n : Nat) : Nat := 0x400600 + 0x20000 * (n % 16)
@[inherit_doc A.PORT_PAD_CFG] abbrev F.PORT_PAD_CFG_DRAIN_MS (n : Nat) : Fld := ⟨A.PORT_PAD_CFG n, 24, 8⟩
@[inherit_doc A.PORT_PAD_CFG] abbrev F.PORT_PAD_CFG_NAK_WAIT (n : Nat) : Fld := ⟨A.PORT_PAD_CFG n, 16, 8⟩
@[inherit_doc A.PORT_PAD_CFG] abbrev F.PORT_PAD_CFG_ACK_EVERY (n : Nat) : Fld := ⟨A.PORT_PAD_CFG n, 12, 4⟩
/-- Table 5-6. -/
def A.PORT_PAD_FLOW (n : Nat) : Nat := 0x400604 + 0x20000 * (n % 16)
@[inherit_doc A.PORT_PAD_FLOW] abbrev F.PORT_PAD_FLOW_XON_HEAD (n : Nat) : Fld := ⟨A.PORT_PAD_FLOW n, 16, 16⟩
@[inherit_doc A.PORT_PAD_FLOW] abbrev F.PORT_PAD_FLOW_XOFF_HEAD (n : Nat) : Fld := ⟨A.PORT_PAD_FLOW n, 0, 16⟩
/-- Table 5-7. -/
def A.PORT_PAD_STATE (n : Nat) : Nat := 0x400608 + 0x20000 * (n % 16)
@[inherit_doc A.PORT_PAD_STATE] abbrev F.PORT_PAD_STATE_ACTIVE (n : Nat) : Fld := ⟨A.PORT_PAD_STATE n, 31, 1⟩
@[inherit_doc A.PORT_PAD_STATE] abbrev F.PORT_PAD_STATE_XOFF (n : Nat) : Fld := ⟨A.PORT_PAD_STATE n, 30, 1⟩
@[inherit_doc A.PORT_PAD_STATE] abbrev F.PORT_PAD_STATE_HOST_PAUSED (n : Nat) : Fld := ⟨A.PORT_PAD_STATE n, 29, 1⟩
@[inherit_doc A.PORT_PAD_STATE] abbrev F.PORT_PAD_STATE_DRAINING (n : Nat) : Fld := ⟨A.PORT_PAD_STATE n, 28, 1⟩
@[inherit_doc A.PORT_PAD_STATE] abbrev F.PORT_PAD_STATE_KEPT (n : Nat) : Fld := ⟨A.PORT_PAD_STATE n, 27, 1⟩
@[inherit_doc A.PORT_PAD_STATE] abbrev F.PORT_PAD_STATE_BOOSTED (n : Nat) : Fld := ⟨A.PORT_PAD_STATE n, 26, 1⟩
@[inherit_doc A.PORT_PAD_STATE] abbrev F.PORT_PAD_STATE_BOOST_SHORT (n : Nat) : Fld := ⟨A.PORT_PAD_STATE n, 25, 1⟩
@[inherit_doc A.PORT_PAD_STATE] abbrev F.PORT_PAD_STATE_SHORT (n : Nat) : Fld := ⟨A.PORT_PAD_STATE n, 24, 1⟩
/-- Table 5-8. -/
def A.PORT_PAD_CAP (n : Nat) : Nat := 0x40060c + 0x20000 * (n % 16)
@[inherit_doc A.PORT_PAD_CAP] abbrev F.PORT_PAD_CAP_RX_LOTS (n : Nat) : Fld := ⟨A.PORT_PAD_CAP n, 16, 16⟩
@[inherit_doc A.PORT_PAD_CAP] abbrev F.PORT_PAD_CAP_TX_LOTS (n : Nat) : Fld := ⟨A.PORT_PAD_CAP n, 0, 16⟩
/-- Table 5-8. -/
def A.PORT_PAD_FILL (n : Nat) : Nat := 0x400610 + 0x20000 * (n % 16)
@[inherit_doc A.PORT_PAD_FILL] abbrev F.PORT_PAD_FILL_RX_FILL (n : Nat) : Fld := ⟨A.PORT_PAD_FILL n, 16, 16⟩
@[inherit_doc A.PORT_PAD_FILL] abbrev F.PORT_PAD_FILL_TX_FILL (n : Nat) : Fld := ⟨A.PORT_PAD_FILL n, 0, 16⟩
/-- Table 5-8. -/
def A.PORT_PAD_LIMIT (n : Nat) : Nat := 0x400614 + 0x20000 * (n % 16)
@[inherit_doc A.PORT_PAD_LIMIT] abbrev F.PORT_PAD_LIMIT_LIMIT (n : Nat) : Fld := ⟨A.PORT_PAD_LIMIT n, 0, 16⟩
/-- Table 5-8. -/
def A.PORT_PAD_TXSEQ (n : Nat) : Nat := 0x400618 + 0x20000 * (n % 16)
@[inherit_doc A.PORT_PAD_TXSEQ] abbrev F.PORT_PAD_TXSEQ_NEXT (n : Nat) : Fld := ⟨A.PORT_PAD_TXSEQ n, 0, 24⟩
/-- Table 5-8. -/
def A.PORT_PAD_RXSEQ (n : Nat) : Nat := 0x40061c + 0x20000 * (n % 16)
@[inherit_doc A.PORT_PAD_RXSEQ] abbrev F.PORT_PAD_RXSEQ_CUM (n : Nat) : Fld := ⟨A.PORT_PAD_RXSEQ n, 0, 24⟩
/-- Table 5-8. -/
def A.PORT_PAD_PEAK (n : Nat) : Nat := 0x400620 + 0x20000 * (n % 16)
@[inherit_doc A.PORT_PAD_PEAK] abbrev F.PORT_PAD_PEAK_RX_PEAK (n : Nat) : Fld := ⟨A.PORT_PAD_PEAK n, 16, 16⟩
@[inherit_doc A.PORT_PAD_PEAK] abbrev F.PORT_PAD_PEAK_TX_PEAK (n : Nat) : Fld := ⟨A.PORT_PAD_PEAK n, 0, 16⟩
/-- Table 5-9. -/
def A.PORT_PAD_RETX (n : Nat) : Nat := 0x400640 + 0x20000 * (n % 16)
@[inherit_doc A.PORT_PAD_RETX] abbrev F.PORT_PAD_RETX_COUNT (n : Nat) : Fld := ⟨A.PORT_PAD_RETX n, 0, 32⟩
/-- Table 5-9. -/
def A.PORT_PAD_NAK_TX (n : Nat) : Nat := 0x400644 + 0x20000 * (n % 16)
@[inherit_doc A.PORT_PAD_NAK_TX] abbrev F.PORT_PAD_NAK_TX_COUNT (n : Nat) : Fld := ⟨A.PORT_PAD_NAK_TX n, 0, 32⟩
/-- Table 5-9. -/
def A.PORT_PAD_NAK_RX (n : Nat) : Nat := 0x400648 + 0x20000 * (n % 16)
@[inherit_doc A.PORT_PAD_NAK_RX] abbrev F.PORT_PAD_NAK_RX_COUNT (n : Nat) : Fld := ⟨A.PORT_PAD_NAK_RX n, 0, 32⟩
/-- Table 5-9. -/
def A.PORT_PAD_DUP (n : Nat) : Nat := 0x40064c + 0x20000 * (n % 16)
@[inherit_doc A.PORT_PAD_DUP] abbrev F.PORT_PAD_DUP_COUNT (n : Nat) : Fld := ⟨A.PORT_PAD_DUP n, 0, 32⟩
/-- Table 5-9. -/
def A.PORT_PAD_BAD_WORD (n : Nat) : Nat := 0x400650 + 0x20000 * (n % 16)
@[inherit_doc A.PORT_PAD_BAD_WORD] abbrev F.PORT_PAD_BAD_WORD_COUNT (n : Nat) : Fld := ⟨A.PORT_PAD_BAD_WORD n, 0, 32⟩
/-- Table 5-9. -/
def A.PORT_PAD_VOID_TX (n : Nat) : Nat := 0x400654 + 0x20000 * (n % 16)
@[inherit_doc A.PORT_PAD_VOID_TX] abbrev F.PORT_PAD_VOID_TX_COUNT (n : Nat) : Fld := ⟨A.PORT_PAD_VOID_TX n, 0, 32⟩
/-- Table 5-9. -/
def A.PORT_PAD_VOID_RX (n : Nat) : Nat := 0x400658 + 0x20000 * (n % 16)
@[inherit_doc A.PORT_PAD_VOID_RX] abbrev F.PORT_PAD_VOID_RX_COUNT (n : Nat) : Fld := ⟨A.PORT_PAD_VOID_RX n, 0, 32⟩
/-- Table 5-9. -/
def A.PORT_PAD_DROP_TX (n : Nat) : Nat := 0x40065c + 0x20000 * (n % 16)
@[inherit_doc A.PORT_PAD_DROP_TX] abbrev F.PORT_PAD_DROP_TX_COUNT (n : Nat) : Fld := ⟨A.PORT_PAD_DROP_TX n, 0, 32⟩
/-- Table 5-9. -/
def A.PORT_PAD_DROP_RX (n : Nat) : Nat := 0x400660 + 0x20000 * (n % 16)
@[inherit_doc A.PORT_PAD_DROP_RX] abbrev F.PORT_PAD_DROP_RX_COUNT (n : Nat) : Fld := ⟨A.PORT_PAD_DROP_RX n, 0, 32⟩
/-- Table 5-9. -/
def A.PORT_PAD_HOST_OVF (n : Nat) : Nat := 0x400664 + 0x20000 * (n % 16)
@[inherit_doc A.PORT_PAD_HOST_OVF] abbrev F.PORT_PAD_HOST_OVF_COUNT (n : Nat) : Fld := ⟨A.PORT_PAD_HOST_OVF n, 0, 32⟩
/-- Table 5-9. -/
def A.PORT_PAD_RX_OVF (n : Nat) : Nat := 0x400668 + 0x20000 * (n % 16)
@[inherit_doc A.PORT_PAD_RX_OVF] abbrev F.PORT_PAD_RX_OVF_COUNT (n : Nat) : Fld := ⟨A.PORT_PAD_RX_OVF n, 0, 32⟩
/-- Table 5-9. -/
def A.PORT_PAD_STAGE_DROP (n : Nat) : Nat := 0x40066c + 0x20000 * (n % 16)
@[inherit_doc A.PORT_PAD_STAGE_DROP] abbrev F.PORT_PAD_STAGE_DROP_COUNT (n : Nat) : Fld := ⟨A.PORT_PAD_STAGE_DROP n, 0, 32⟩
/-- Table 5-9. -/
def A.PORT_PAD_XOFF (n : Nat) : Nat := 0x400670 + 0x20000 * (n % 16)
@[inherit_doc A.PORT_PAD_XOFF] abbrev F.PORT_PAD_XOFF_COUNT (n : Nat) : Fld := ⟨A.PORT_PAD_XOFF n, 0, 32⟩
/-- Table 5-9. -/
def A.PORT_PAD_DRAIN_DISC (n : Nat) : Nat := 0x400674 + 0x20000 * (n % 16)
@[inherit_doc A.PORT_PAD_DRAIN_DISC] abbrev F.PORT_PAD_DRAIN_DISC_COUNT (n : Nat) : Fld := ⟨A.PORT_PAD_DRAIN_DISC n, 0, 32⟩
/-- Table 5-10. -/
def A.FAB_PAD_TOTAL : Nat := 0x900100
@[inherit_doc A.FAB_PAD_TOTAL] abbrev F.FAB_PAD_TOTAL_GRAINS : Fld := ⟨A.FAB_PAD_TOTAL, 0, 32⟩
/-- Table 5-10. -/
def A.FAB_PAD_FREE : Nat := 0x900104
@[inherit_doc A.FAB_PAD_FREE] abbrev F.FAB_PAD_FREE_GRAINS : Fld := ⟨A.FAB_PAD_FREE, 0, 32⟩
/-- Table 6-9. -/
def A.POS_CFG : Nat := 0xc00000
@[inherit_doc A.POS_CFG] abbrev F.POS_CFG_ODO_EN : Fld := ⟨A.POS_CFG, 31, 1⟩
@[inherit_doc A.POS_CFG] abbrev F.POS_CFG_ODO_SENSE : Fld := ⟨A.POS_CFG, 30, 1⟩
@[inherit_doc A.POS_CFG] abbrev F.POS_CFG_ACC_LIMIT : Fld := ⟨A.POS_CFG, 16, 8⟩
@[inherit_doc A.POS_CFG] abbrev F.POS_CFG_GLITCH : Fld := ⟨A.POS_CFG, 8, 8⟩
@[inherit_doc A.POS_CFG] abbrev F.POS_CFG_FIX_MAX_AGE : Fld := ⟨A.POS_CFG, 0, 8⟩
/-- Table 6-9. -/
def A.POS_WHEEL : Nat := 0xc00004
@[inherit_doc A.POS_WHEEL] abbrev F.POS_WHEEL_PPR : Fld := ⟨A.POS_WHEEL, 16, 16⟩
@[inherit_doc A.POS_WHEEL] abbrev F.POS_WHEEL_WHEEL_MM : Fld := ⟨A.POS_WHEEL, 0, 16⟩
/-- Table 6-10. -/
def A.POS_POSITION : Nat := 0xc00008
/-- Table 6-10. -/
def A.POS_ROUTE : Nat := 0xc00010
@[inherit_doc A.POS_ROUTE] abbrev F.POS_ROUTE_ROUTE : Fld := ⟨A.POS_ROUTE, 0, 32⟩
/-- Table 6-10. -/
def A.POS_STATE : Nat := 0xc00014
@[inherit_doc A.POS_STATE] abbrev F.POS_STATE_FIX_VALID : Fld := ⟨A.POS_STATE, 31, 1⟩
@[inherit_doc A.POS_STATE] abbrev F.POS_STATE_STOPPED : Fld := ⟨A.POS_STATE, 30, 1⟩
@[inherit_doc A.POS_STATE] abbrev F.POS_STATE_HOLD : Fld := ⟨A.POS_STATE, 29, 1⟩
@[inherit_doc A.POS_STATE] abbrev F.POS_STATE_DEGRADED : Fld := ⟨A.POS_STATE, 28, 1⟩
@[inherit_doc A.POS_STATE] abbrev F.POS_STATE_DIR : Fld := ⟨A.POS_STATE, 27, 1⟩
@[inherit_doc A.POS_STATE] abbrev F.POS_STATE_ORIENT : Fld := ⟨A.POS_STATE, 26, 1⟩
@[inherit_doc A.POS_STATE] abbrev F.POS_STATE_CAR_FWD : Fld := ⟨A.POS_STATE, 25, 1⟩
/-- Table 6-10. -/
def A.POS_SPEED : Nat := 0xc00018
@[inherit_doc A.POS_SPEED] abbrev F.POS_SPEED_ACCEL : Fld := ⟨A.POS_SPEED, 16, 16⟩
@[inherit_doc A.POS_SPEED] abbrev F.POS_SPEED_SPEED : Fld := ⟨A.POS_SPEED, 0, 16⟩
/-- Table 6-10. -/
def A.POS_SCALE : Nat := 0xc0001c
@[inherit_doc A.POS_SCALE] abbrev F.POS_SCALE_MM_PER_EDGE : Fld := ⟨A.POS_SCALE, 0, 32⟩
/-- Table 6-10. -/
def A.POS_LAST_JUMP : Nat := 0xc00020
@[inherit_doc A.POS_LAST_JUMP] abbrev F.POS_LAST_JUMP_MM : Fld := ⟨A.POS_LAST_JUMP, 0, 32⟩
/-- Table 6-10. -/
def A.POS_EDGES : Nat := 0xc00040
@[inherit_doc A.POS_EDGES] abbrev F.POS_EDGES_COUNT : Fld := ⟨A.POS_EDGES, 0, 32⟩
/-- Table 6-10. -/
def A.POS_ODO_ERR : Nat := 0xc00044
@[inherit_doc A.POS_ODO_ERR] abbrev F.POS_ODO_ERR_COUNT : Fld := ⟨A.POS_ODO_ERR, 0, 32⟩
/-- Table 6-10. -/
def A.POS_HOLDS : Nat := 0xc00048
@[inherit_doc A.POS_HOLDS] abbrev F.POS_HOLDS_COUNT : Fld := ⟨A.POS_HOLDS, 0, 32⟩
/-- Table 6-10. -/
def A.POS_REVERSALS : Nat := 0xc0004c
@[inherit_doc A.POS_REVERSALS] abbrev F.POS_REVERSALS_COUNT : Fld := ⟨A.POS_REVERSALS, 0, 32⟩
/-- Table 6-11. -/
def A.PISTE_CTRL : Nat := 0xc00100
@[inherit_doc A.PISTE_CTRL] abbrev F.PISTE_CTRL_ARM_EN : Fld := ⟨A.PISTE_CTRL, 31, 1⟩
@[inherit_doc A.PISTE_CTRL] abbrev F.PISTE_CTRL_LEARN_EN : Fld := ⟨A.PISTE_CTRL, 30, 1⟩
@[inherit_doc A.PISTE_CTRL] abbrev F.PISTE_CTRL_AUTOSAVE : Fld := ⟨A.PISTE_CTRL, 29, 1⟩
@[inherit_doc A.PISTE_CTRL] abbrev F.PISTE_CTRL_LEAD_M : Fld := ⟨A.PISTE_CTRL, 16, 8⟩
@[inherit_doc A.PISTE_CTRL] abbrev F.PISTE_CTRL_TRAIL_M : Fld := ⟨A.PISTE_CTRL, 8, 8⟩
@[inherit_doc A.PISTE_CTRL] abbrev F.PISTE_CTRL_REV_DM : Fld := ⟨A.PISTE_CTRL, 0, 8⟩
/-- Table 6-11. -/
def A.PISTE_LEARN : Nat := 0xc00104
@[inherit_doc A.PISTE_LEARN] abbrev F.PISTE_LEARN_ARM_CONF : Fld := ⟨A.PISTE_LEARN, 28, 4⟩
@[inherit_doc A.PISTE_LEARN] abbrev F.PISTE_LEARN_AGE_LIMIT : Fld := ⟨A.PISTE_LEARN, 20, 8⟩
@[inherit_doc A.PISTE_LEARN] abbrev F.PISTE_LEARN_MATCH_M : Fld := ⟨A.PISTE_LEARN, 12, 8⟩
@[inherit_doc A.PISTE_LEARN] abbrev F.PISTE_LEARN_MIN_LEN_M : Fld := ⟨A.PISTE_LEARN, 4, 8⟩
@[inherit_doc A.PISTE_LEARN] abbrev F.PISTE_LEARN_LEARN_PROF : Fld := ⟨A.PISTE_LEARN, 2, 2⟩
/-- Table 6-12. -/
def A.PISTE_STATUS : Nat := 0xc00108
@[inherit_doc A.PISTE_STATUS] abbrev F.PISTE_STATUS_LOADING : Fld := ⟨A.PISTE_STATUS, 31, 1⟩
@[inherit_doc A.PISTE_STATUS] abbrev F.PISTE_STATUS_ROUTE_MATCH : Fld := ⟨A.PISTE_STATUS, 30, 1⟩
@[inherit_doc A.PISTE_STATUS] abbrev F.PISTE_STATUS_DIRTY : Fld := ⟨A.PISTE_STATUS, 29, 1⟩
@[inherit_doc A.PISTE_STATUS] abbrev F.PISTE_STATUS_ARMED : Fld := ⟨A.PISTE_STATUS, 0, 16⟩
/-- Table 6-12. -/
def A.PISTE_COUNT : Nat := 0xc0010c
@[inherit_doc A.PISTE_COUNT] abbrev F.PISTE_COUNT_LEARNED : Fld := ⟨A.PISTE_COUNT, 16, 16⟩
@[inherit_doc A.PISTE_COUNT] abbrev F.PISTE_COUNT_VALID : Fld := ⟨A.PISTE_COUNT, 0, 16⟩
/-- Table 6-12. -/
def A.PISTE_TABLE_ROUTE : Nat := 0xc00110
@[inherit_doc A.PISTE_TABLE_ROUTE] abbrev F.PISTE_TABLE_ROUTE_ROUTE : Fld := ⟨A.PISTE_TABLE_ROUTE, 0, 32⟩
/-- Table 6-12. -/
def A.PISTE_ARMS : Nat := 0xc00140
@[inherit_doc A.PISTE_ARMS] abbrev F.PISTE_ARMS_COUNT : Fld := ⟨A.PISTE_ARMS, 0, 32⟩
/-- Table 6-12. -/
def A.PISTE_FULL_DROPS : Nat := 0xc00144
@[inherit_doc A.PISTE_FULL_DROPS] abbrev F.PISTE_FULL_DROPS_COUNT : Fld := ⟨A.PISTE_FULL_DROPS, 0, 32⟩
/-- Table 6-13. -/
def A.PISTE_PORT (n : Nat) : Nat := 0xc00200 + 0x4 * (n % 16)
@[inherit_doc A.PISTE_PORT] abbrev F.PISTE_PORT_FACING (n : Nat) : Fld := ⟨A.PISTE_PORT n, 30, 2⟩
@[inherit_doc A.PISTE_PORT] abbrev F.PISTE_PORT_LEAD_OVR (n : Nat) : Fld := ⟨A.PISTE_PORT n, 28, 2⟩
@[inherit_doc A.PISTE_PORT] abbrev F.PISTE_PORT_CLAIM (n : Nat) : Fld := ⟨A.PISTE_PORT n, 27, 1⟩
@[inherit_doc A.PISTE_PORT] abbrev F.PISTE_PORT_LEADING (n : Nat) : Fld := ⟨A.PISTE_PORT n, 26, 1⟩
@[inherit_doc A.PISTE_PORT] abbrev F.PISTE_PORT_PARTNER_CLAIM (n : Nat) : Fld := ⟨A.PISTE_PORT n, 25, 1⟩
@[inherit_doc A.PISTE_PORT] abbrev F.PISTE_PORT_SWAP_PEND (n : Nat) : Fld := ⟨A.PISTE_PORT n, 24, 1⟩
@[inherit_doc A.PISTE_PORT] abbrev F.PISTE_PORT_ZONE_PROF (n : Nat) : Fld := ⟨A.PISTE_PORT n, 22, 2⟩
@[inherit_doc A.PISTE_PORT] abbrev F.PISTE_PORT_ZONE_ENTRY (n : Nat) : Fld := ⟨A.PISTE_PORT n, 0, 16⟩
/-- Table 7-7. -/
def A.PORT_TRV_CFG (n : Nat) : Nat := 0x400800 + 0x20000 * (n % 16)
@[inherit_doc A.PORT_TRV_CFG] abbrev F.PORT_TRV_CFG_SYNC_TOL (n : Nat) : Fld := ⟨A.PORT_TRV_CFG n, 28, 4⟩
@[inherit_doc A.PORT_TRV_CFG] abbrev F.PORT_TRV_CFG_CODE_MAX (n : Nat) : Fld := ⟨A.PORT_TRV_CFG n, 26, 2⟩
@[inherit_doc A.PORT_TRV_CFG] abbrev F.PORT_TRV_CFG_MARGIN (n : Nat) : Fld := ⟨A.PORT_TRV_CFG n, 20, 4⟩
@[inherit_doc A.PORT_TRV_CFG] abbrev F.PORT_TRV_CFG_SHADOW_DB (n : Nat) : Fld := ⟨A.PORT_TRV_CFG n, 16, 4⟩
@[inherit_doc A.PORT_TRV_CFG] abbrev F.PORT_TRV_CFG_TRV_AFTER (n : Nat) : Fld := ⟨A.PORT_TRV_CFG n, 8, 8⟩
@[inherit_doc A.PORT_TRV_CFG] abbrev F.PORT_TRV_CFG_SEARCH (n : Nat) : Fld := ⟨A.PORT_TRV_CFG n, 0, 8⟩
/-- Table 7-7. -/
def A.PORT_TRV_TURN (n : Nat) : Nat := 0x400804 + 0x20000 * (n % 16)
@[inherit_doc A.PORT_TRV_TURN] abbrev F.PORT_TRV_TURN_TURN_MAX (n : Nat) : Fld := ⟨A.PORT_TRV_TURN n, 24, 8⟩
@[inherit_doc A.PORT_TRV_TURN] abbrev F.PORT_TRV_TURN_TURN_GAP (n : Nat) : Fld := ⟨A.PORT_TRV_TURN n, 16, 8⟩
@[inherit_doc A.PORT_TRV_TURN] abbrev F.PORT_TRV_TURN_LOSS_MS (n : Nat) : Fld := ⟨A.PORT_TRV_TURN n, 8, 8⟩
@[inherit_doc A.PORT_TRV_TURN] abbrev F.PORT_TRV_TURN_RETRY_MAX (n : Nat) : Fld := ⟨A.PORT_TRV_TURN n, 4, 4⟩
/-- Table 7-8. -/
def A.PORT_TRV_STATE (n : Nat) : Nat := 0x400808 + 0x20000 * (n % 16)
@[inherit_doc A.PORT_TRV_STATE] abbrev F.PORT_TRV_STATE_STATE (n : Nat) : Fld := ⟨A.PORT_TRV_STATE n, 28, 4⟩
@[inherit_doc A.PORT_TRV_STATE] abbrev F.PORT_TRV_STATE_TOKEN (n : Nat) : Fld := ⟨A.PORT_TRV_STATE n, 27, 1⟩
@[inherit_doc A.PORT_TRV_STATE] abbrev F.PORT_TRV_STATE_REQUESTER (n : Nat) : Fld := ⟨A.PORT_TRV_STATE n, 26, 1⟩
@[inherit_doc A.PORT_TRV_STATE] abbrev F.PORT_TRV_STATE_CODE_TX (n : Nat) : Fld := ⟨A.PORT_TRV_STATE n, 24, 2⟩
@[inherit_doc A.PORT_TRV_STATE] abbrev F.PORT_TRV_STATE_CODE_RX (n : Nat) : Fld := ⟨A.PORT_TRV_STATE n, 22, 2⟩
@[inherit_doc A.PORT_TRV_STATE] abbrev F.PORT_TRV_STATE_Q0_RX (n : Nat) : Fld := ⟨A.PORT_TRV_STATE n, 8, 8⟩
@[inherit_doc A.PORT_TRV_STATE] abbrev F.PORT_TRV_STATE_Q0_PARTNER (n : Nat) : Fld := ⟨A.PORT_TRV_STATE n, 0, 8⟩
/-- Table 7-8. -/
def A.PORT_TRV_SPAN (n : Nat) : Nat := 0x40080c + 0x20000 * (n % 16)
@[inherit_doc A.PORT_TRV_SPAN] abbrev F.PORT_TRV_SPAN_SPAN_LAST (n : Nat) : Fld := ⟨A.PORT_TRV_SPAN n, 16, 16⟩
@[inherit_doc A.PORT_TRV_SPAN] abbrev F.PORT_TRV_SPAN_SPAN_ACQ (n : Nat) : Fld := ⟨A.PORT_TRV_SPAN n, 0, 16⟩
/-- Table 7-9. -/
def A.PORT_BELL_CFG (n : Nat) : Nat := 0x400810 + 0x20000 * (n % 16)
@[inherit_doc A.PORT_BELL_CFG] abbrev F.PORT_BELL_CFG_LISTEN (n : Nat) : Fld := ⟨A.PORT_BELL_CFG n, 31, 1⟩
@[inherit_doc A.PORT_BELL_CFG] abbrev F.PORT_BELL_CFG_GROUP (n : Nat) : Fld := ⟨A.PORT_BELL_CFG n, 0, 16⟩
/-- Table 7-9. -/
def A.PORT_BELL_CMD (n : Nat) : Nat := 0x400814 + 0x20000 * (n % 16)
@[inherit_doc A.PORT_BELL_CMD] abbrev F.PORT_BELL_CMD_GO (n : Nat) : Fld := ⟨A.PORT_BELL_CMD n, 31, 1⟩
@[inherit_doc A.PORT_BELL_CMD] abbrev F.PORT_BELL_CMD_COUNT (n : Nat) : Fld := ⟨A.PORT_BELL_CMD n, 16, 8⟩
@[inherit_doc A.PORT_BELL_CMD] abbrev F.PORT_BELL_CMD_GROUP (n : Nat) : Fld := ⟨A.PORT_BELL_CMD n, 0, 16⟩
/-- Table 7-9. -/
def A.PORT_BELL_STATE (n : Nat) : Nat := 0x400818 + 0x20000 * (n % 16)
@[inherit_doc A.PORT_BELL_STATE] abbrev F.PORT_BELL_STATE_SENDING (n : Nat) : Fld := ⟨A.PORT_BELL_STATE n, 31, 1⟩
@[inherit_doc A.PORT_BELL_STATE] abbrev F.PORT_BELL_STATE_REFUSED (n : Nat) : Fld := ⟨A.PORT_BELL_STATE n, 30, 1⟩
@[inherit_doc A.PORT_BELL_STATE] abbrev F.PORT_BELL_STATE_LEFT (n : Nat) : Fld := ⟨A.PORT_BELL_STATE n, 16, 8⟩
@[inherit_doc A.PORT_BELL_STATE] abbrev F.PORT_BELL_STATE_LAST_RX (n : Nat) : Fld := ⟨A.PORT_BELL_STATE n, 0, 16⟩
/-- Table 7-10. -/
def A.PORT_TRV_BURST_TX (n : Nat) : Nat := 0x400840 + 0x20000 * (n % 16)
@[inherit_doc A.PORT_TRV_BURST_TX] abbrev F.PORT_TRV_BURST_TX_COUNT (n : Nat) : Fld := ⟨A.PORT_TRV_BURST_TX n, 0, 32⟩
/-- Table 7-10. -/
def A.PORT_TRV_BURST_OK (n : Nat) : Nat := 0x400844 + 0x20000 * (n % 16)
@[inherit_doc A.PORT_TRV_BURST_OK] abbrev F.PORT_TRV_BURST_OK_COUNT (n : Nat) : Fld := ⟨A.PORT_TRV_BURST_OK n, 0, 32⟩
/-- Table 7-10. -/
def A.PORT_TRV_HDR_ERR (n : Nat) : Nat := 0x400848 + 0x20000 * (n % 16)
@[inherit_doc A.PORT_TRV_HDR_ERR] abbrev F.PORT_TRV_HDR_ERR_COUNT (n : Nat) : Fld := ⟨A.PORT_TRV_HDR_ERR n, 0, 32⟩
/-- Table 7-10. -/
def A.PORT_TRV_FALSE_SYNC (n : Nat) : Nat := 0x40084c + 0x20000 * (n % 16)
@[inherit_doc A.PORT_TRV_FALSE_SYNC] abbrev F.PORT_TRV_FALSE_SYNC_COUNT (n : Nat) : Fld := ⟨A.PORT_TRV_FALSE_SYNC n, 0, 32⟩
/-- Table 7-10. -/
def A.PORT_TRV_SHADOW (n : Nat) : Nat := 0x400850 + 0x20000 * (n % 16)
@[inherit_doc A.PORT_TRV_SHADOW] abbrev F.PORT_TRV_SHADOW_COUNT (n : Nat) : Fld := ⟨A.PORT_TRV_SHADOW n, 0, 32⟩
/-- Table 7-10. -/
def A.PORT_TRV_SHADOW_LATE (n : Nat) : Nat := 0x400854 + 0x20000 * (n % 16)
@[inherit_doc A.PORT_TRV_SHADOW_LATE] abbrev F.PORT_TRV_SHADOW_LATE_COUNT (n : Nat) : Fld := ⟨A.PORT_TRV_SHADOW_LATE n, 0, 32⟩
/-- Table 7-10. -/
def A.PORT_TRV_TRUNC (n : Nat) : Nat := 0x400858 + 0x20000 * (n % 16)
@[inherit_doc A.PORT_TRV_TRUNC] abbrev F.PORT_TRV_TRUNC_COUNT (n : Nat) : Fld := ⟨A.PORT_TRV_TRUNC n, 0, 32⟩
/-- Table 7-10. -/
def A.PORT_TRV_PAY_ERR (n : Nat) : Nat := 0x40085c + 0x20000 * (n % 16)
@[inherit_doc A.PORT_TRV_PAY_ERR] abbrev F.PORT_TRV_PAY_ERR_COUNT (n : Nat) : Fld := ⟨A.PORT_TRV_PAY_ERR n, 0, 32⟩
/-- Table 7-10. -/
def A.PORT_TRV_RESEND (n : Nat) : Nat := 0x400860 + 0x20000 * (n % 16)
@[inherit_doc A.PORT_TRV_RESEND] abbrev F.PORT_TRV_RESEND_COUNT (n : Nat) : Fld := ⟨A.PORT_TRV_RESEND n, 0, 32⟩
/-- Table 7-10. -/
def A.PORT_TRV_ABANDON (n : Nat) : Nat := 0x400864 + 0x20000 * (n % 16)
@[inherit_doc A.PORT_TRV_ABANDON] abbrev F.PORT_TRV_ABANDON_COUNT (n : Nat) : Fld := ⟨A.PORT_TRV_ABANDON n, 0, 32⟩
/-- Table 7-10. -/
def A.PORT_TRV_DROP_TX (n : Nat) : Nat := 0x400868 + 0x20000 * (n % 16)
@[inherit_doc A.PORT_TRV_DROP_TX] abbrev F.PORT_TRV_DROP_TX_COUNT (n : Nat) : Fld := ⟨A.PORT_TRV_DROP_TX n, 0, 32⟩
/-- Table 7-10. -/
def A.PORT_TRV_DROP_RX (n : Nat) : Nat := 0x40086c + 0x20000 * (n % 16)
@[inherit_doc A.PORT_TRV_DROP_RX] abbrev F.PORT_TRV_DROP_RX_COUNT (n : Nat) : Fld := ⟨A.PORT_TRV_DROP_RX n, 0, 32⟩
/-- Table 7-10. -/
def A.PORT_TRV_TOKEN_RECLAIM (n : Nat) : Nat := 0x400870 + 0x20000 * (n % 16)
@[inherit_doc A.PORT_TRV_TOKEN_RECLAIM] abbrev F.PORT_TRV_TOKEN_RECLAIM_COUNT (n : Nat) : Fld := ⟨A.PORT_TRV_TOKEN_RECLAIM n, 0, 32⟩
/-- Table 7-10. -/
def A.PORT_BELL_SENT (n : Nat) : Nat := 0x400874 + 0x20000 * (n % 16)
@[inherit_doc A.PORT_BELL_SENT] abbrev F.PORT_BELL_SENT_COUNT (n : Nat) : Fld := ⟨A.PORT_BELL_SENT n, 0, 32⟩
/-- Table 7-10. -/
def A.PORT_BELL_HEARD (n : Nat) : Nat := 0x400878 + 0x20000 * (n % 16)
@[inherit_doc A.PORT_BELL_HEARD] abbrev F.PORT_BELL_HEARD_COUNT (n : Nat) : Fld := ⟨A.PORT_BELL_HEARD n, 0, 32⟩
/-- Table 8-9. -/
def A.PORT_CAL_STATE (n : Nat) : Nat := 0x400a00 + 0x20000 * (n % 16)
@[inherit_doc A.PORT_CAL_STATE] abbrev F.PORT_CAL_STATE_RUNNING (n : Nat) : Fld := ⟨A.PORT_CAL_STATE n, 31, 1⟩
@[inherit_doc A.PORT_CAL_STATE] abbrev F.PORT_CAL_STATE_DUE (n : Nat) : Fld := ⟨A.PORT_CAL_STATE n, 30, 1⟩
@[inherit_doc A.PORT_CAL_STATE] abbrev F.PORT_CAL_STATE_HELD_ZONE (n : Nat) : Fld := ⟨A.PORT_CAL_STATE n, 29, 1⟩
@[inherit_doc A.PORT_CAL_STATE] abbrev F.PORT_CAL_STATE_LAST_FAILED (n : Nat) : Fld := ⟨A.PORT_CAL_STATE n, 28, 1⟩
@[inherit_doc A.PORT_CAL_STATE] abbrev F.PORT_CAL_STATE_FAIL_STAGE (n : Nat) : Fld := ⟨A.PORT_CAL_STATE n, 26, 2⟩
@[inherit_doc A.PORT_CAL_STATE] abbrev F.PORT_CAL_STATE_T_LAST (n : Nat) : Fld := ⟨A.PORT_CAL_STATE n, 16, 8⟩
@[inherit_doc A.PORT_CAL_STATE] abbrev F.PORT_CAL_STATE_T_NOW (n : Nat) : Fld := ⟨A.PORT_CAL_STATE n, 8, 8⟩
/-- Table 8-9. -/
def A.PORT_GRADE (n : Nat) : Nat := 0x400a04 + 0x20000 * (n % 16)
@[inherit_doc A.PORT_GRADE] abbrev F.PORT_GRADE_ECHO (n : Nat) : Fld := ⟨A.PORT_GRADE n, 16, 16⟩
@[inherit_doc A.PORT_GRADE] abbrev F.PORT_GRADE_SPUR (n : Nat) : Fld := ⟨A.PORT_GRADE n, 8, 8⟩
/-- Table 8-10. -/
def A.PORT_TRIM_ADC (n k : Nat) : Nat := 0x400a40 + 0x20000 * (n % 16) + 0x4 * (k % 8)
@[inherit_doc A.PORT_TRIM_ADC] abbrev F.PORT_TRIM_ADC_SKEW (n k : Nat) : Fld := ⟨A.PORT_TRIM_ADC n k, 16, 8⟩
@[inherit_doc A.PORT_TRIM_ADC] abbrev F.PORT_TRIM_ADC_GAIN (n k : Nat) : Fld := ⟨A.PORT_TRIM_ADC n k, 8, 8⟩
@[inherit_doc A.PORT_TRIM_ADC] abbrev F.PORT_TRIM_ADC_OFFSET (n k : Nat) : Fld := ⟨A.PORT_TRIM_ADC n k, 0, 8⟩
/-- Table 8-10. -/
def A.PORT_TRIM_HYB (n : Nat) : Nat := 0x400a60 + 0x20000 * (n % 16)
@[inherit_doc A.PORT_TRIM_HYB] abbrev F.PORT_TRIM_HYB_HYB_CAP (n : Nat) : Fld := ⟨A.PORT_TRIM_HYB n, 8, 6⟩
@[inherit_doc A.PORT_TRIM_HYB] abbrev F.PORT_TRIM_HYB_HYB_RES (n : Nat) : Fld := ⟨A.PORT_TRIM_HYB n, 0, 6⟩
/-- Table 8-11. -/
def A.PORT_DIAG_STATE (n : Nat) : Nat := 0x400a80 + 0x20000 * (n % 16)
@[inherit_doc A.PORT_DIAG_STATE] abbrev F.PORT_DIAG_STATE_RUNNING (n : Nat) : Fld := ⟨A.PORT_DIAG_STATE n, 31, 1⟩
@[inherit_doc A.PORT_DIAG_STATE] abbrev F.PORT_DIAG_STATE_SOURCE (n : Nat) : Fld := ⟨A.PORT_DIAG_STATE n, 30, 1⟩
@[inherit_doc A.PORT_DIAG_STATE] abbrev F.PORT_DIAG_STATE_REDUCED (n : Nat) : Fld := ⟨A.PORT_DIAG_STATE n, 29, 1⟩
@[inherit_doc A.PORT_DIAG_STATE] abbrev F.PORT_DIAG_STATE_FAR_END (n : Nat) : Fld := ⟨A.PORT_DIAG_STATE n, 28, 1⟩
@[inherit_doc A.PORT_DIAG_STATE] abbrev F.PORT_DIAG_STATE_COUNT (n : Nat) : Fld := ⟨A.PORT_DIAG_STATE n, 24, 4⟩
@[inherit_doc A.PORT_DIAG_STATE] abbrev F.PORT_DIAG_STATE_CHANGED (n : Nat) : Fld := ⟨A.PORT_DIAG_STATE n, 0, 9⟩
/-- Table 8-11. -/
def A.PORT_DIAG_EVT (n k : Nat) : Nat := 0x400aa0 + 0x20000 * (n % 16) + 0x4 * (k % 8)
@[inherit_doc A.PORT_DIAG_EVT] abbrev F.PORT_DIAG_EVT_VALID (n k : Nat) : Fld := ⟨A.PORT_DIAG_EVT n k, 31, 1⟩
@[inherit_doc A.PORT_DIAG_EVT] abbrev F.PORT_DIAG_EVT_SIGN (n k : Nat) : Fld := ⟨A.PORT_DIAG_EVT n k, 30, 1⟩
@[inherit_doc A.PORT_DIAG_EVT] abbrev F.PORT_DIAG_EVT_KIND (n k : Nat) : Fld := ⟨A.PORT_DIAG_EVT n k, 27, 3⟩
@[inherit_doc A.PORT_DIAG_EVT] abbrev F.PORT_DIAG_EVT_AMPL (n k : Nat) : Fld := ⟨A.PORT_DIAG_EVT n k, 13, 8⟩
@[inherit_doc A.PORT_DIAG_EVT] abbrev F.PORT_DIAG_EVT_DIST (n k : Nat) : Fld := ⟨A.PORT_DIAG_EVT n k, 0, 13⟩
/-- Table 8-11. -/
def A.PORT_DIAG_BASE (n k : Nat) : Nat := 0x400ac0 + 0x20000 * (n % 16) + 0x4 * (k % 16)
@[inherit_doc A.PORT_DIAG_BASE] abbrev F.PORT_DIAG_BASE_VALID (n k : Nat) : Fld := ⟨A.PORT_DIAG_BASE n k, 31, 1⟩
@[inherit_doc A.PORT_DIAG_BASE] abbrev F.PORT_DIAG_BASE_SIGN (n k : Nat) : Fld := ⟨A.PORT_DIAG_BASE n k, 30, 1⟩
@[inherit_doc A.PORT_DIAG_BASE] abbrev F.PORT_DIAG_BASE_KIND (n k : Nat) : Fld := ⟨A.PORT_DIAG_BASE n k, 27, 3⟩
@[inherit_doc A.PORT_DIAG_BASE] abbrev F.PORT_DIAG_BASE_AMPL (n k : Nat) : Fld := ⟨A.PORT_DIAG_BASE n k, 13, 8⟩
@[inherit_doc A.PORT_DIAG_BASE] abbrev F.PORT_DIAG_BASE_DIST (n k : Nat) : Fld := ⟨A.PORT_DIAG_BASE n k, 0, 13⟩
/-- Table 8-12. -/
def A.MEM_CAL_STATE (n k : Nat) : Nat := 0x803000 + 0x10000 * (n % 16) + 0x100 * (k % 2)
@[inherit_doc A.MEM_CAL_STATE] abbrev F.MEM_CAL_STATE_RUNNING (n k : Nat) : Fld := ⟨A.MEM_CAL_STATE n k, 31, 1⟩
@[inherit_doc A.MEM_CAL_STATE] abbrev F.MEM_CAL_STATE_DUE (n k : Nat) : Fld := ⟨A.MEM_CAL_STATE n k, 30, 1⟩
@[inherit_doc A.MEM_CAL_STATE] abbrev F.MEM_CAL_STATE_LAST_FAILED (n k : Nat) : Fld := ⟨A.MEM_CAL_STATE n k, 29, 1⟩
@[inherit_doc A.MEM_CAL_STATE] abbrev F.MEM_CAL_STATE_FAIL_STAGE (n k : Nat) : Fld := ⟨A.MEM_CAL_STATE n k, 27, 2⟩
@[inherit_doc A.MEM_CAL_STATE] abbrev F.MEM_CAL_STATE_T_LAST (n k : Nat) : Fld := ⟨A.MEM_CAL_STATE n k, 16, 8⟩
@[inherit_doc A.MEM_CAL_STATE] abbrev F.MEM_CAL_STATE_T_NOW (n k : Nat) : Fld := ⟨A.MEM_CAL_STATE n k, 8, 8⟩
@[inherit_doc A.MEM_CAL_STATE] abbrev F.MEM_CAL_STATE_MIN_EYE (n k : Nat) : Fld := ⟨A.MEM_CAL_STATE n k, 0, 8⟩
/-- Table 8-12. -/
def A.MEM_TRIM (n k j : Nat) : Nat := 0x803040 + 0x10000 * (n % 16) + 0x100 * (k % 2) + 0x4 * (j % 13)
@[inherit_doc A.MEM_TRIM] abbrev F.MEM_TRIM_WR (n k j : Nat) : Fld := ⟨A.MEM_TRIM n k j, 8, 6⟩
@[inherit_doc A.MEM_TRIM] abbrev F.MEM_TRIM_RD (n k j : Nat) : Fld := ⟨A.MEM_TRIM n k j, 0, 6⟩
/-- Table 8-12. -/
def A.MEM_GRADE (n k j : Nat) : Nat := 0x803080 + 0x10000 * (n % 16) + 0x100 * (k % 2) + 0x4 * (j % 13)
@[inherit_doc A.MEM_GRADE] abbrev F.MEM_GRADE_WR_EYE (n k j : Nat) : Fld := ⟨A.MEM_GRADE n k j, 8, 8⟩
@[inherit_doc A.MEM_GRADE] abbrev F.MEM_GRADE_RD_EYE (n k j : Nat) : Fld := ⟨A.MEM_GRADE n k j, 0, 8⟩
/-- Table 8-13. -/
def A.THM_CAL_CFG : Nat := 0xb03000
@[inherit_doc A.THM_CAL_CFG] abbrev F.THM_CAL_CFG_AUTO_EN : Fld := ⟨A.THM_CAL_CFG, 31, 1⟩
@[inherit_doc A.THM_CAL_CFG] abbrev F.THM_CAL_CFG_CABLE_PERIOD : Fld := ⟨A.THM_CAL_CFG, 16, 8⟩
@[inherit_doc A.THM_CAL_CFG] abbrev F.THM_CAL_CFG_DT : Fld := ⟨A.THM_CAL_CFG, 12, 4⟩
@[inherit_doc A.THM_CAL_CFG] abbrev F.THM_CAL_CFG_HEALTH_DB : Fld := ⟨A.THM_CAL_CFG, 8, 4⟩
/-- Table 8-13. -/
def A.THM_CAL_STATUS : Nat := 0xb03004
@[inherit_doc A.THM_CAL_STATUS] abbrev F.THM_CAL_STATUS_TRIMS_SKIPPED : Fld := ⟨A.THM_CAL_STATUS, 31, 1⟩
@[inherit_doc A.THM_CAL_STATUS] abbrev F.THM_CAL_STATUS_TRIMS_REFUSED : Fld := ⟨A.THM_CAL_STATUS, 30, 1⟩
@[inherit_doc A.THM_CAL_STATUS] abbrev F.THM_CAL_STATUS_RUNNING : Fld := ⟨A.THM_CAL_STATUS, 0, 6⟩
/-- Table 8-13. -/
def A.THM_CAL_RUNS : Nat := 0xb03040
@[inherit_doc A.THM_CAL_RUNS] abbrev F.THM_CAL_RUNS_COUNT : Fld := ⟨A.THM_CAL_RUNS, 0, 32⟩
/-- Table 8-13. -/
def A.THM_CAL_FAILS : Nat := 0xb03044
@[inherit_doc A.THM_CAL_FAILS] abbrev F.THM_CAL_FAILS_COUNT : Fld := ⟨A.THM_CAL_FAILS, 0, 32⟩
/-- Table 8-13. -/
def A.THM_CAL_DEFERRED : Nat := 0xb03048
@[inherit_doc A.THM_CAL_DEFERRED] abbrev F.THM_CAL_DEFERRED_COUNT : Fld := ⟨A.THM_CAL_DEFERRED, 0, 32⟩
/-- Table 9-7. -/
def A.FAB_STACK : Nat := 0x900000
@[inherit_doc A.FAB_STACK] abbrev F.FAB_STACK_FITTED_PC : Fld := ⟨A.FAB_STACK, 24, 8⟩
@[inherit_doc A.FAB_STACK] abbrev F.FAB_STACK_N : Fld := ⟨A.FAB_STACK, 16, 8⟩
@[inherit_doc A.FAB_STACK] abbrev F.FAB_STACK_RESERVE_CH : Fld := ⟨A.FAB_STACK, 12, 4⟩
/-- Table 9-7. -/
def A.FAB_SCHED_CFG : Nat := 0x900008
@[inherit_doc A.FAB_SCHED_CFG] abbrev F.FAB_SCHED_CFG_AGE_CAP : Fld := ⟨A.FAB_SCHED_CFG, 24, 8⟩
@[inherit_doc A.FAB_SCHED_CFG] abbrev F.FAB_SCHED_CFG_PAGE_IDLE : Fld := ⟨A.FAB_SCHED_CFG, 16, 8⟩
@[inherit_doc A.FAB_SCHED_CFG] abbrev F.FAB_SCHED_CFG_LAME_EN : Fld := ⟨A.FAB_SCHED_CFG, 15, 1⟩
@[inherit_doc A.FAB_SCHED_CFG] abbrev F.FAB_SCHED_CFG_TALLY_THRESH : Fld := ⟨A.FAB_SCHED_CFG, 0, 12⟩
/-- Table 9-8. -/
def A.FAB_LAT_MEDIAN : Nat := 0x90000c
@[inherit_doc A.FAB_LAT_MEDIAN] abbrev F.FAB_LAT_MEDIAN_QUALIFIED : Fld := ⟨A.FAB_LAT_MEDIAN, 16, 16⟩
@[inherit_doc A.FAB_LAT_MEDIAN] abbrev F.FAB_LAT_MEDIAN_NS : Fld := ⟨A.FAB_LAT_MEDIAN, 0, 16⟩
/-- Table 9-8. -/
def A.FAB_PCMAP (n : Nat) : Nat := 0x900200 + 0x4 * (n % 32)
@[inherit_doc A.FAB_PCMAP] abbrev F.FAB_PCMAP_VALID (n : Nat) : Fld := ⟨A.FAB_PCMAP n, 31, 1⟩
@[inherit_doc A.FAB_PCMAP] abbrev F.FAB_PCMAP_PC (n : Nat) : Fld := ⟨A.FAB_PCMAP n, 0, 5⟩
/-- Table 9-8. -/
def A.FAB_PART (n : Nat) : Nat := 0x900300 + 0x10 * (n % 16)
@[inherit_doc A.FAB_PART] abbrev F.FAB_PART_VALID (n : Nat) : Fld := ⟨A.FAB_PART n, 31, 1⟩
@[inherit_doc A.FAB_PART] abbrev F.FAB_PART_PAGE (n : Nat) : Fld := ⟨A.FAB_PART n, 16, 8⟩
@[inherit_doc A.FAB_PART] abbrev F.FAB_PART_MAP (n : Nat) : Fld := ⟨A.FAB_PART n, 8, 8⟩
@[inherit_doc A.FAB_PART] abbrev F.FAB_PART_TYPE (n : Nat) : Fld := ⟨A.FAB_PART n, 0, 8⟩
/-- Table 9-8. -/
def A.FAB_PART_BASE (n : Nat) : Nat := 0x900304 + 0x10 * (n % 16)
@[inherit_doc A.FAB_PART_BASE] abbrev F.FAB_PART_BASE_BASE_MIB (n : Nat) : Fld := ⟨A.FAB_PART_BASE n, 0, 32⟩
/-- Table 9-8. -/
def A.FAB_PART_SIZE (n : Nat) : Nat := 0x900308 + 0x10 * (n % 16)
@[inherit_doc A.FAB_PART_SIZE] abbrev F.FAB_PART_SIZE_SIZE_MIB (n : Nat) : Fld := ⟨A.FAB_PART_SIZE n, 0, 32⟩
/-- Table 9-8. -/
def A.FAB_PART_MIN (n : Nat) : Nat := 0x90030c + 0x10 * (n % 16)
@[inherit_doc A.FAB_PART_MIN] abbrev F.FAB_PART_MIN_MIN_MIB (n : Nat) : Fld := ⟨A.FAB_PART_MIN n, 0, 32⟩
/-- Table 9-9. -/
def A.MEM_CH_STATE (n : Nat) : Nat := 0x800000 + 0x10000 * (n % 16)
@[inherit_doc A.MEM_CH_STATE] abbrev F.MEM_CH_STATE_ROLE (n : Nat) : Fld := ⟨A.MEM_CH_STATE n, 30, 2⟩
@[inherit_doc A.MEM_CH_STATE] abbrev F.MEM_CH_STATE_HOT (n : Nat) : Fld := ⟨A.MEM_CH_STATE n, 29, 1⟩
@[inherit_doc A.MEM_CH_STATE] abbrev F.MEM_CH_STATE_CATCHUP (n : Nat) : Fld := ⟨A.MEM_CH_STATE n, 28, 1⟩
@[inherit_doc A.MEM_CH_STATE] abbrev F.MEM_CH_STATE_SELF_REFRESH (n : Nat) : Fld := ⟨A.MEM_CH_STATE n, 27, 1⟩
@[inherit_doc A.MEM_CH_STATE] abbrev F.MEM_CH_STATE_POWER_DOWN (n : Nat) : Fld := ⟨A.MEM_CH_STATE n, 26, 1⟩
/-- Table 9-9. -/
def A.MEM_PC_STATE (n k : Nat) : Nat := 0x800100 + 0x10000 * (n % 16) + 0x80 * (k % 2)
@[inherit_doc A.MEM_PC_STATE] abbrev F.MEM_PC_STATE_LAME (n k : Nat) : Fld := ⟨A.MEM_PC_STATE n k, 31, 1⟩
@[inherit_doc A.MEM_PC_STATE] abbrev F.MEM_PC_STATE_LAME_RUN (n k : Nat) : Fld := ⟨A.MEM_PC_STATE n k, 24, 4⟩
@[inherit_doc A.MEM_PC_STATE] abbrev F.MEM_PC_STATE_QDEPTH (n k : Nat) : Fld := ⟨A.MEM_PC_STATE n k, 16, 8⟩
@[inherit_doc A.MEM_PC_STATE] abbrev F.MEM_PC_STATE_LAT_NS (n k : Nat) : Fld := ⟨A.MEM_PC_STATE n k, 0, 16⟩
/-- Table 9-10. -/
def A.MEM_ACTS (n k : Nat) : Nat := 0x800110 + 0x10000 * (n % 16) + 0x80 * (k % 2)
@[inherit_doc A.MEM_ACTS] abbrev F.MEM_ACTS_COUNT (n k : Nat) : Fld := ⟨A.MEM_ACTS n k, 0, 32⟩
/-- Table 9-10. -/
def A.MEM_HITS (n k : Nat) : Nat := 0x800114 + 0x10000 * (n % 16) + 0x80 * (k % 2)
@[inherit_doc A.MEM_HITS] abbrev F.MEM_HITS_COUNT (n k : Nat) : Fld := ⟨A.MEM_HITS n k, 0, 32⟩
/-- Table 9-10. -/
def A.MEM_CAPPED (n k : Nat) : Nat := 0x800118 + 0x10000 * (n % 16) + 0x80 * (k % 2)
@[inherit_doc A.MEM_CAPPED] abbrev F.MEM_CAPPED_COUNT (n k : Nat) : Fld := ⟨A.MEM_CAPPED n k, 0, 32⟩
/-- Table 9-10. -/
def A.MEM_REF_LIMIT (n k : Nat) : Nat := 0x80011c + 0x10000 * (n % 16) + 0x80 * (k % 2)
@[inherit_doc A.MEM_REF_LIMIT] abbrev F.MEM_REF_LIMIT_COUNT (n k : Nat) : Fld := ⟨A.MEM_REF_LIMIT n k, 0, 32⟩
/-- Table 9-10. -/
def A.MEM_TALLY_TRIG (n k : Nat) : Nat := 0x800120 + 0x10000 * (n % 16) + 0x80 * (k % 2)
@[inherit_doc A.MEM_TALLY_TRIG] abbrev F.MEM_TALLY_TRIG_COUNT (n k : Nat) : Fld := ⟨A.MEM_TALLY_TRIG n k, 0, 32⟩
/-- Table 9-10. -/
def A.MEM_NREF_ROWS (n k : Nat) : Nat := 0x800124 + 0x10000 * (n % 16) + 0x80 * (k % 2)
@[inherit_doc A.MEM_NREF_ROWS] abbrev F.MEM_NREF_ROWS_COUNT (n k : Nat) : Fld := ⟨A.MEM_NREF_ROWS n k, 0, 32⟩
/-- Table 9-10. -/
def A.MEM_QFULL (n k : Nat) : Nat := 0x800128 + 0x10000 * (n % 16) + 0x80 * (k % 2)
@[inherit_doc A.MEM_QFULL] abbrev F.MEM_QFULL_COUNT (n k : Nat) : Fld := ⟨A.MEM_QFULL n k, 0, 32⟩
/-- Table 9-10. -/
def A.MEM_LAME_MARKS (n k : Nat) : Nat := 0x80012c + 0x10000 * (n % 16) + 0x80 * (k % 2)
@[inherit_doc A.MEM_LAME_MARKS] abbrev F.MEM_LAME_MARKS_COUNT (n k : Nat) : Fld := ⟨A.MEM_LAME_MARKS n k, 0, 32⟩
/-- Table 10-9. -/
def A.MEM_INTEG_STATE (n k : Nat) : Nat := 0x800400 + 0x10000 * (n % 16) + 0x80 * (k % 2)
@[inherit_doc A.MEM_INTEG_STATE] abbrev F.MEM_INTEG_STATE_FROZEN (n k : Nat) : Fld := ⟨A.MEM_INTEG_STATE n k, 31, 1⟩
@[inherit_doc A.MEM_INTEG_STATE] abbrev F.MEM_INTEG_STATE_CAUSE (n k : Nat) : Fld := ⟨A.MEM_INTEG_STATE n k, 29, 2⟩
@[inherit_doc A.MEM_INTEG_STATE] abbrev F.MEM_INTEG_STATE_REC_READ (n k : Nat) : Fld := ⟨A.MEM_INTEG_STATE n k, 28, 1⟩
@[inherit_doc A.MEM_INTEG_STATE] abbrev F.MEM_INTEG_STATE_REC_STALE (n k : Nat) : Fld := ⟨A.MEM_INTEG_STATE n k, 27, 1⟩
@[inherit_doc A.MEM_INTEG_STATE] abbrev F.MEM_INTEG_STATE_FILL_DONE (n k : Nat) : Fld := ⟨A.MEM_INTEG_STATE n k, 26, 1⟩
@[inherit_doc A.MEM_INTEG_STATE] abbrev F.MEM_INTEG_STATE_TRAINING (n k : Nat) : Fld := ⟨A.MEM_INTEG_STATE n k, 25, 1⟩
@[inherit_doc A.MEM_INTEG_STATE] abbrev F.MEM_INTEG_STATE_GLEAN_ACTIVE (n k : Nat) : Fld := ⟨A.MEM_INTEG_STATE n k, 24, 1⟩
@[inherit_doc A.MEM_INTEG_STATE] abbrev F.MEM_INTEG_STATE_SUSPECT (n k : Nat) : Fld := ⟨A.MEM_INTEG_STATE n k, 0, 16⟩
/-- Table 10-9. -/
def A.MEM_GLEAN_LAP (n k : Nat) : Nat := 0x800404 + 0x10000 * (n % 16) + 0x80 * (k % 2)
@[inherit_doc A.MEM_GLEAN_LAP] abbrev F.MEM_GLEAN_LAP_LAPS (n k : Nat) : Fld := ⟨A.MEM_GLEAN_LAP n k, 16, 16⟩
@[inherit_doc A.MEM_GLEAN_LAP] abbrev F.MEM_GLEAN_LAP_LAST_100MS (n k : Nat) : Fld := ⟨A.MEM_GLEAN_LAP n k, 0, 16⟩
/-- Table 10-10. -/
def A.MEM_FLIP_CTRL (n k : Nat) : Nat := 0x800408 + 0x10000 * (n % 16) + 0x80 * (k % 2)
@[inherit_doc A.MEM_FLIP_CTRL] abbrev F.MEM_FLIP_CTRL_ARM (n k : Nat) : Fld := ⟨A.MEM_FLIP_CTRL n k, 31, 1⟩
@[inherit_doc A.MEM_FLIP_CTRL] abbrev F.MEM_FLIP_CTRL_FLIP_REQ (n k : Nat) : Fld := ⟨A.MEM_FLIP_CTRL n k, 8, 6⟩
@[inherit_doc A.MEM_FLIP_CTRL] abbrev F.MEM_FLIP_CTRL_BEATS (n k : Nat) : Fld := ⟨A.MEM_FLIP_CTRL n k, 0, 8⟩
/-- Table 10-10. -/
def A.MEM_FLIPMASK (n k j : Nat) : Nat := 0x80040c + 0x10000 * (n % 16) + 0x80 * (k % 2) + 0x4 * (j % 3)
@[inherit_doc A.MEM_FLIPMASK] abbrev F.MEM_FLIPMASK_MASK (n k j : Nat) : Fld := ⟨A.MEM_FLIPMASK n k j, 0, 32⟩
/-- Table 10-10. -/
def A.MEM_FLIPMASK3 (n k : Nat) : Nat := 0x800418 + 0x10000 * (n % 16) + 0x80 * (k % 2)
@[inherit_doc A.MEM_FLIPMASK3] abbrev F.MEM_FLIPMASK3_MASK (n k : Nat) : Fld := ⟨A.MEM_FLIPMASK3 n k, 0, 8⟩
/-- Table 10-10. -/
def A.MEM_FLIP_ADDR (n k : Nat) : Nat := 0x80041c + 0x10000 * (n % 16) + 0x80 * (k % 2)
@[inherit_doc A.MEM_FLIP_ADDR] abbrev F.MEM_FLIP_ADDR_BANK (n k : Nat) : Fld := ⟨A.MEM_FLIP_ADDR n k, 28, 4⟩
@[inherit_doc A.MEM_FLIP_ADDR] abbrev F.MEM_FLIP_ADDR_UNIT (n k : Nat) : Fld := ⟨A.MEM_FLIP_ADDR n k, 24, 4⟩
@[inherit_doc A.MEM_FLIP_ADDR] abbrev F.MEM_FLIP_ADDR_VALID (n k : Nat) : Fld := ⟨A.MEM_FLIP_ADDR n k, 23, 1⟩
@[inherit_doc A.MEM_FLIP_ADDR] abbrev F.MEM_FLIP_ADDR_ROW (n k : Nat) : Fld := ⟨A.MEM_FLIP_ADDR n k, 0, 15⟩
/-- Table 10-11. -/
def A.MEM_TSV_SPARE (n k : Nat) : Nat := 0x800420 + 0x10000 * (n % 16) + 0x80 * (k % 2)
@[inherit_doc A.MEM_TSV_SPARE] abbrev F.MEM_TSV_SPARE_S1_VALID (n k : Nat) : Fld := ⟨A.MEM_TSV_SPARE n k, 31, 1⟩
@[inherit_doc A.MEM_TSV_SPARE] abbrev F.MEM_TSV_SPARE_S1_TSV (n k : Nat) : Fld := ⟨A.MEM_TSV_SPARE n k, 24, 7⟩
@[inherit_doc A.MEM_TSV_SPARE] abbrev F.MEM_TSV_SPARE_S0_VALID (n k : Nat) : Fld := ⟨A.MEM_TSV_SPARE n k, 23, 1⟩
@[inherit_doc A.MEM_TSV_SPARE] abbrev F.MEM_TSV_SPARE_S0_TSV (n k : Nat) : Fld := ⟨A.MEM_TSV_SPARE n k, 16, 7⟩
@[inherit_doc A.MEM_TSV_SPARE] abbrev F.MEM_TSV_SPARE_ROWS_SPARED (n k : Nat) : Fld := ⟨A.MEM_TSV_SPARE n k, 0, 10⟩
/-- Table 10-11. -/
def A.MEM_CE (n k : Nat) : Nat := 0x800440 + 0x10000 * (n % 16) + 0x80 * (k % 2)
@[inherit_doc A.MEM_CE] abbrev F.MEM_CE_COUNT (n k : Nat) : Fld := ⟨A.MEM_CE n k, 0, 32⟩
/-- Table 10-11. -/
def A.MEM_UE_SCRUB (n k : Nat) : Nat := 0x800444 + 0x10000 * (n % 16) + 0x80 * (k % 2)
@[inherit_doc A.MEM_UE_SCRUB] abbrev F.MEM_UE_SCRUB_COUNT (n k : Nat) : Fld := ⟨A.MEM_UE_SCRUB n k, 0, 32⟩
/-- Table 10-11. -/
def A.MEM_POISON_RD (n k : Nat) : Nat := 0x800448 + 0x10000 * (n % 16) + 0x80 * (k % 2)
@[inherit_doc A.MEM_POISON_RD] abbrev F.MEM_POISON_RD_COUNT (n k : Nat) : Fld := ⟨A.MEM_POISON_RD n k, 0, 32⟩
/-- Table 10-11. -/
def A.MEM_UNWRITTEN_RD (n k : Nat) : Nat := 0x80044c + 0x10000 * (n % 16) + 0x80 * (k % 2)
@[inherit_doc A.MEM_UNWRITTEN_RD] abbrev F.MEM_UNWRITTEN_RD_COUNT (n k : Nat) : Fld := ⟨A.MEM_UNWRITTEN_RD n k, 0, 32⟩
/-- Table 10-11. -/
def A.MEM_FENCED_REQ (n k : Nat) : Nat := 0x800450 + 0x10000 * (n % 16) + 0x80 * (k % 2)
@[inherit_doc A.MEM_FENCED_REQ] abbrev F.MEM_FENCED_REQ_COUNT (n k : Nat) : Fld := ⟨A.MEM_FENCED_REQ n k, 0, 32⟩
/-- Table 10-11. -/
def A.MEM_UE_LOG (n k j : Nat) : Nat := 0x800460 + 0x10000 * (n % 16) + 0x80 * (k % 2) + 0x4 * (j % 8)
@[inherit_doc A.MEM_UE_LOG] abbrev F.MEM_UE_LOG_BANK (n k j : Nat) : Fld := ⟨A.MEM_UE_LOG n k j, 28, 4⟩
@[inherit_doc A.MEM_UE_LOG] abbrev F.MEM_UE_LOG_UNIT (n k j : Nat) : Fld := ⟨A.MEM_UE_LOG n k j, 24, 4⟩
@[inherit_doc A.MEM_UE_LOG] abbrev F.MEM_UE_LOG_ROW (n k j : Nat) : Fld := ⟨A.MEM_UE_LOG n k j, 9, 15⟩
@[inherit_doc A.MEM_UE_LOG] abbrev F.MEM_UE_LOG_LAP (n k j : Nat) : Fld := ⟨A.MEM_UE_LOG n k j, 0, 9⟩
/-- Table 10-12. -/
def A.MEM_TRAIN_STATE (n k : Nat) : Nat := 0x802000 + 0x10000 * (n % 16) + 0x100 * (k % 2)
@[inherit_doc A.MEM_TRAIN_STATE] abbrev F.MEM_TRAIN_STATE_STATE (n k : Nat) : Fld := ⟨A.MEM_TRAIN_STATE n k, 28, 4⟩
@[inherit_doc A.MEM_TRAIN_STATE] abbrev F.MEM_TRAIN_STATE_SWEPT (n k : Nat) : Fld := ⟨A.MEM_TRAIN_STATE n k, 27, 1⟩
@[inherit_doc A.MEM_TRAIN_STATE] abbrev F.MEM_TRAIN_STATE_TIME_US (n k : Nat) : Fld := ⟨A.MEM_TRAIN_STATE n k, 0, 16⟩
/-- Table 10-12. -/
def A.MEM_TRAIN_DLY (n k j : Nat) : Nat := 0x802040 + 0x10000 * (n % 16) + 0x100 * (k % 2) + 0x4 * (j % 13)
@[inherit_doc A.MEM_TRAIN_DLY] abbrev F.MEM_TRAIN_DLY_WR_BASE (n k j : Nat) : Fld := ⟨A.MEM_TRAIN_DLY n k j, 8, 8⟩
@[inherit_doc A.MEM_TRAIN_DLY] abbrev F.MEM_TRAIN_DLY_RD_BASE (n k j : Nat) : Fld := ⟨A.MEM_TRAIN_DLY n k j, 0, 8⟩
/-- Table 10-13. -/
def A.FAB_PAD_DOWN : Nat := 0x900108
@[inherit_doc A.FAB_PAD_DOWN] abbrev F.FAB_PAD_DOWN_PORTS : Fld := ⟨A.FAB_PAD_DOWN, 0, 16⟩
/-- Table 10-13. -/
def A.FAB_INTEG_CFG : Nat := 0x900400
@[inherit_doc A.FAB_INTEG_CFG] abbrev F.FAB_INTEG_CFG_AUTO_REL : Fld := ⟨A.FAB_INTEG_CFG, 24, 8⟩
@[inherit_doc A.FAB_INTEG_CFG] abbrev F.FAB_INTEG_CFG_LAP_ALARM : Fld := ⟨A.FAB_INTEG_CFG, 16, 8⟩
@[inherit_doc A.FAB_INTEG_CFG] abbrev F.FAB_INTEG_CFG_PACE : Fld := ⟨A.FAB_INTEG_CFG, 8, 8⟩
@[inherit_doc A.FAB_INTEG_CFG] abbrev F.FAB_INTEG_CFG_CANARY_CE : Fld := ⟨A.FAB_INTEG_CFG, 4, 4⟩
@[inherit_doc A.FAB_INTEG_CFG] abbrev F.FAB_INTEG_CFG_AUTO_REPAIR : Fld := ⟨A.FAB_INTEG_CFG, 3, 1⟩
@[inherit_doc A.FAB_INTEG_CFG] abbrev F.FAB_INTEG_CFG_MODE : Fld := ⟨A.FAB_INTEG_CFG, 2, 1⟩
/-- Table 11-10. -/
def A.HL_CFG (n : Nat) : Nat := 0xa00000 + 0x1000 * (n % 16)
@[inherit_doc A.HL_CFG] abbrev F.HL_CFG_PORT (n : Nat) : Fld := ⟨A.HL_CFG n, 24, 8⟩
@[inherit_doc A.HL_CFG] abbrev F.HL_CFG_RATE (n : Nat) : Fld := ⟨A.HL_CFG n, 22, 2⟩
@[inherit_doc A.HL_CFG] abbrev F.HL_CFG_FEC (n : Nat) : Fld := ⟨A.HL_CFG n, 21, 1⟩
@[inherit_doc A.HL_CFG] abbrev F.HL_CFG_FLOW (n : Nat) : Fld := ⟨A.HL_CFG n, 20, 1⟩
@[inherit_doc A.HL_CFG] abbrev F.HL_CFG_PFC_PRIO (n : Nat) : Fld := ⟨A.HL_CFG n, 17, 3⟩
@[inherit_doc A.HL_CFG] abbrev F.HL_CFG_RF_ON_LOSS (n : Nat) : Fld := ⟨A.HL_CFG n, 16, 1⟩
@[inherit_doc A.HL_CFG] abbrev F.HL_CFG_MAX_FRAME (n : Nat) : Fld := ⟨A.HL_CFG n, 0, 14⟩
/-- Table 11-10. -/
def A.HL_EQ (n : Nat) : Nat := 0xa00004 + 0x1000 * (n % 16)
@[inherit_doc A.HL_EQ] abbrev F.HL_EQ_FFE_POST (n : Nat) : Fld := ⟨A.HL_EQ n, 16, 5⟩
@[inherit_doc A.HL_EQ] abbrev F.HL_EQ_FFE_PRE (n : Nat) : Fld := ⟨A.HL_EQ n, 8, 4⟩
@[inherit_doc A.HL_EQ] abbrev F.HL_EQ_CTLE (n : Nat) : Fld := ⟨A.HL_EQ n, 0, 4⟩
/-- Table 11-11. -/
def A.HL_STATUS (n : Nat) : Nat := 0xa00008 + 0x1000 * (n % 16)
@[inherit_doc A.HL_STATUS] abbrev F.HL_STATUS_LOCKED (n : Nat) : Fld := ⟨A.HL_STATUS n, 31, 1⟩
@[inherit_doc A.HL_STATUS] abbrev F.HL_STATUS_SIGNAL (n : Nat) : Fld := ⟨A.HL_STATUS n, 30, 1⟩
@[inherit_doc A.HL_STATUS] abbrev F.HL_STATUS_CDR_LOCK (n : Nat) : Fld := ⟨A.HL_STATUS n, 29, 1⟩
@[inherit_doc A.HL_STATUS] abbrev F.HL_STATUS_BLOCK_LOCK (n : Nat) : Fld := ⟨A.HL_STATUS n, 28, 1⟩
@[inherit_doc A.HL_STATUS] abbrev F.HL_STATUS_FEC_LOCK (n : Nat) : Fld := ⟨A.HL_STATUS n, 27, 1⟩
@[inherit_doc A.HL_STATUS] abbrev F.HL_STATUS_HI_BER (n : Nat) : Fld := ⟨A.HL_STATUS n, 26, 1⟩
@[inherit_doc A.HL_STATUS] abbrev F.HL_STATUS_RF_SENDING (n : Nat) : Fld := ⟨A.HL_STATUS n, 25, 1⟩
@[inherit_doc A.HL_STATUS] abbrev F.HL_STATUS_LF_SENDING (n : Nat) : Fld := ⟨A.HL_STATUS n, 24, 1⟩
@[inherit_doc A.HL_STATUS] abbrev F.HL_STATUS_PPM (n : Nat) : Fld := ⟨A.HL_STATUS n, 0, 8⟩
/-- Table 11-12. -/
def A.HL_LOSS_EVENTS (n : Nat) : Nat := 0xa00040 + 0x1000 * (n % 16)
@[inherit_doc A.HL_LOSS_EVENTS] abbrev F.HL_LOSS_EVENTS_COUNT (n : Nat) : Fld := ⟨A.HL_LOSS_EVENTS n, 0, 32⟩
/-- Table 11-12. -/
def A.HL_RX_ABORT (n : Nat) : Nat := 0xa00044 + 0x1000 * (n % 16)
@[inherit_doc A.HL_RX_ABORT] abbrev F.HL_RX_ABORT_COUNT (n : Nat) : Fld := ⟨A.HL_RX_ABORT n, 0, 32⟩
/-- Table 11-12. -/
def A.HL_RX_RESUME_DISC (n : Nat) : Nat := 0xa00048 + 0x1000 * (n % 16)
@[inherit_doc A.HL_RX_RESUME_DISC] abbrev F.HL_RX_RESUME_DISC_COUNT (n : Nat) : Fld := ⟨A.HL_RX_RESUME_DISC n, 0, 32⟩
/-- Table 11-12. -/
def A.HL_BAD_BLOCK (n : Nat) : Nat := 0xa0004c + 0x1000 * (n % 16)
@[inherit_doc A.HL_BAD_BLOCK] abbrev F.HL_BAD_BLOCK_COUNT (n : Nat) : Fld := ⟨A.HL_BAD_BLOCK n, 0, 32⟩
/-- Table 11-12. -/
def A.HL_LONG (n : Nat) : Nat := 0xa00050 + 0x1000 * (n % 16)
@[inherit_doc A.HL_LONG] abbrev F.HL_LONG_COUNT (n : Nat) : Fld := ⟨A.HL_LONG n, 0, 32⟩
/-- Table 11-12. -/
def A.HL_IDLE_DEL (n : Nat) : Nat := 0xa00054 + 0x1000 * (n % 16)
@[inherit_doc A.HL_IDLE_DEL] abbrev F.HL_IDLE_DEL_COUNT (n : Nat) : Fld := ⟨A.HL_IDLE_DEL n, 0, 32⟩
/-- Table 11-12. -/
def A.HL_IDLE_INS (n : Nat) : Nat := 0xa00058 + 0x1000 * (n % 16)
@[inherit_doc A.HL_IDLE_INS] abbrev F.HL_IDLE_INS_COUNT (n : Nat) : Fld := ⟨A.HL_IDLE_INS n, 0, 32⟩
/-- Table 11-12. -/
def A.HL_FEC_CORR (n : Nat) : Nat := 0xa0005c + 0x1000 * (n % 16)
@[inherit_doc A.HL_FEC_CORR] abbrev F.HL_FEC_CORR_COUNT (n : Nat) : Fld := ⟨A.HL_FEC_CORR n, 0, 32⟩
/-- Table 11-12. -/
def A.HL_FEC_UNCORR (n : Nat) : Nat := 0xa00060 + 0x1000 * (n % 16)
@[inherit_doc A.HL_FEC_UNCORR] abbrev F.HL_FEC_UNCORR_COUNT (n : Nat) : Fld := ⟨A.HL_FEC_UNCORR n, 0, 32⟩
/-- Table 11-12. -/
def A.HL_TX_ERRORED (n : Nat) : Nat := 0xa00064 + 0x1000 * (n % 16)
@[inherit_doc A.HL_TX_ERRORED] abbrev F.HL_TX_ERRORED_COUNT (n : Nat) : Fld := ⟨A.HL_TX_ERRORED n, 0, 32⟩
/-- Table 11-12. -/
def A.HL_MACCTL_RX (n : Nat) : Nat := 0xa00068 + 0x1000 * (n % 16)
@[inherit_doc A.HL_MACCTL_RX] abbrev F.HL_MACCTL_RX_COUNT (n : Nat) : Fld := ⟨A.HL_MACCTL_RX n, 0, 32⟩
/-- Table 11-13. -/
def A.DEV_BAR2_WIN : Nat := 0x000100
@[inherit_doc A.DEV_BAR2_WIN] abbrev F.DEV_BAR2_WIN_BASE_MIB : Fld := ⟨A.DEV_BAR2_WIN + 4, 0, 32⟩
@[inherit_doc A.DEV_BAR2_WIN] abbrev F.DEV_BAR2_WIN_ENABLE : Fld := ⟨A.DEV_BAR2_WIN, 31, 1⟩
@[inherit_doc A.DEV_BAR2_WIN] abbrev F.DEV_BAR2_WIN_PART : Fld := ⟨A.DEV_BAR2_WIN, 0, 4⟩
/-- Table 11-13. -/
def A.DEV_MDIO_DENIED : Nat := 0x000108
@[inherit_doc A.DEV_MDIO_DENIED] abbrev F.DEV_MDIO_DENIED_COUNT : Fld := ⟨A.DEV_MDIO_DENIED, 0, 32⟩
/-- Table 11-14. -/
def A.CMD_PARAM (n : Nat) : Nat := 0x200000 + 0x4 * (n % 8)
@[inherit_doc A.CMD_PARAM] abbrev F.CMD_PARAM_WORD (n : Nat) : Fld := ⟨A.CMD_PARAM n, 0, 32⟩
/-- Table 11-14. -/
def A.CMD_SUBMIT : Nat := 0x200020
@[inherit_doc A.CMD_SUBMIT] abbrev F.CMD_SUBMIT_OPCODE : Fld := ⟨A.CMD_SUBMIT, 0, 8⟩
/-- Table 11-14. -/
def A.CMD_ACCEPT : Nat := 0x200024
@[inherit_doc A.CMD_ACCEPT] abbrev F.CMD_ACCEPT_RESULT : Fld := ⟨A.CMD_ACCEPT, 24, 8⟩
@[inherit_doc A.CMD_ACCEPT] abbrev F.CMD_ACCEPT_HANDLE : Fld := ⟨A.CMD_ACCEPT, 0, 16⟩
/-- Table 11-14. -/
def A.CMD_CQ_PROD : Nat := 0x200030
@[inherit_doc A.CMD_CQ_PROD] abbrev F.CMD_CQ_PROD_COUNT : Fld := ⟨A.CMD_CQ_PROD, 0, 32⟩
/-- Table 11-14. -/
def A.CMD_CQ_CONS : Nat := 0x200034
@[inherit_doc A.CMD_CQ_CONS] abbrev F.CMD_CQ_CONS_COUNT : Fld := ⟨A.CMD_CQ_CONS, 0, 32⟩
/-- Table 11-14. -/
def A.CMD_SLOT_STATE (n : Nat) : Nat := 0x200800 + 0x4 * (n % 64)
@[inherit_doc A.CMD_SLOT_STATE] abbrev F.CMD_SLOT_STATE_STATE (n : Nat) : Fld := ⟨A.CMD_SLOT_STATE n, 30, 2⟩
@[inherit_doc A.CMD_SLOT_STATE] abbrev F.CMD_SLOT_STATE_OPCODE (n : Nat) : Fld := ⟨A.CMD_SLOT_STATE n, 16, 8⟩
@[inherit_doc A.CMD_SLOT_STATE] abbrev F.CMD_SLOT_STATE_HANDLE (n : Nat) : Fld := ⟨A.CMD_SLOT_STATE n, 0, 16⟩
/-- Table 11-14. -/
def A.CMD_CQ (n k : Nat) : Nat := 0x201000 + 0x20 * (n % 64) + 0x4 * (k % 8)
@[inherit_doc A.CMD_CQ] abbrev F.CMD_CQ_RECORD (n k : Nat) : Fld := ⟨A.CMD_CQ n k, 0, 32⟩
/-- Table 12-12. -/
def A.DEV_FW_VER : Nat := 0x000060
@[inherit_doc A.DEV_FW_VER] abbrev F.DEV_FW_VER_VERSION : Fld := ⟨A.DEV_FW_VER, 0, 32⟩
/-- Table 12-12. -/
def A.DEV_FW_STATUS : Nat := 0x000064
@[inherit_doc A.DEV_FW_STATUS] abbrev F.DEV_FW_STATUS_RUN_SLOT : Fld := ⟨A.DEV_FW_STATUS, 30, 2⟩
@[inherit_doc A.DEV_FW_STATUS] abbrev F.DEV_FW_STATUS_FALLBACK : Fld := ⟨A.DEV_FW_STATUS, 29, 1⟩
@[inherit_doc A.DEV_FW_STATUS] abbrev F.DEV_FW_STATUS_SLOT_A_VALID : Fld := ⟨A.DEV_FW_STATUS, 28, 1⟩
@[inherit_doc A.DEV_FW_STATUS] abbrev F.DEV_FW_STATUS_SLOT_B_VALID : Fld := ⟨A.DEV_FW_STATUS, 27, 1⟩
@[inherit_doc A.DEV_FW_STATUS] abbrev F.DEV_FW_STATUS_COMMITTED_SLOT : Fld := ⟨A.DEV_FW_STATUS, 26, 1⟩
@[inherit_doc A.DEV_FW_STATUS] abbrev F.DEV_FW_STATUS_RESTARTS : Fld := ⟨A.DEV_FW_STATUS, 0, 16⟩
/-- Table 12-12. -/
def A.DEV_FW_FLOOR : Nat := 0x000068
@[inherit_doc A.DEV_FW_FLOOR] abbrev F.DEV_FW_FLOOR_FLOOR : Fld := ⟨A.DEV_FW_FLOOR, 0, 32⟩
/-- Table 12-13. -/
def A.PWR_MODE : Nat := 0xb01000
@[inherit_doc A.PWR_MODE] abbrev F.PWR_MODE_STATE : Fld := ⟨A.PWR_MODE, 30, 2⟩
@[inherit_doc A.PWR_MODE] abbrev F.PWR_MODE_TARGET : Fld := ⟨A.PWR_MODE, 28, 2⟩
@[inherit_doc A.PWR_MODE] abbrev F.PWR_MODE_ENTERING : Fld := ⟨A.PWR_MODE, 27, 1⟩
@[inherit_doc A.PWR_MODE] abbrev F.PWR_MODE_WAKE_LATCHED : Fld := ⟨A.PWR_MODE, 26, 1⟩
/-- Table 12-13. -/
def A.PWR_LAST : Nat := 0xb01004
@[inherit_doc A.PWR_LAST] abbrev F.PWR_LAST_REFUSER : Fld := ⟨A.PWR_LAST, 28, 4⟩
@[inherit_doc A.PWR_LAST] abbrev F.PWR_LAST_ABORTED : Fld := ⟨A.PWR_LAST, 27, 1⟩
@[inherit_doc A.PWR_LAST] abbrev F.PWR_LAST_WAKE_SRC : Fld := ⟨A.PWR_LAST, 20, 4⟩
@[inherit_doc A.PWR_LAST] abbrev F.PWR_LAST_WAKE_PORT : Fld := ⟨A.PWR_LAST, 16, 4⟩
@[inherit_doc A.PWR_LAST] abbrev F.PWR_LAST_WAKE_FROM : Fld := ⟨A.PWR_LAST, 14, 2⟩
@[inherit_doc A.PWR_LAST] abbrev F.PWR_LAST_REPLAYED : Fld := ⟨A.PWR_LAST, 13, 1⟩
/-- Table 12-13. -/
def A.PWR_WAKE_EN : Nat := 0xb01008
@[inherit_doc A.PWR_WAKE_EN] abbrev F.PWR_WAKE_EN_ODO_WAKE_EDGES : Fld := ⟨A.PWR_WAKE_EN, 8, 8⟩
@[inherit_doc A.PWR_WAKE_EN] abbrev F.PWR_WAKE_EN_ENABLE : Fld := ⟨A.PWR_WAKE_EN, 0, 6⟩
/-- Table 12-13. -/
def A.PWR_TIMER : Nat := 0xb0100c
@[inherit_doc A.PWR_TIMER] abbrev F.PWR_TIMER_SECONDS : Fld := ⟨A.PWR_TIMER, 0, 32⟩
/-- Table 12-14. -/
def A.PWR_REFUSE_CNT (n : Nat) : Nat := 0xb01040 + 0x4 * (n % 16)
@[inherit_doc A.PWR_REFUSE_CNT] abbrev F.PWR_REFUSE_CNT_COUNT (n : Nat) : Fld := ⟨A.PWR_REFUSE_CNT n, 0, 32⟩
/-- Table 12-14. -/
def A.PWR_WAKES : Nat := 0xb01080
@[inherit_doc A.PWR_WAKES] abbrev F.PWR_WAKES_COUNT : Fld := ⟨A.PWR_WAKES, 0, 32⟩
/-- Table 12-14. -/
def A.PWR_WAKE_HIST (n : Nat) : Nat := 0xb01100 + 0x8 * (n % 16)
@[inherit_doc A.PWR_WAKE_HIST] abbrev F.PWR_WAKE_HIST_TIME_MS (n : Nat) : Fld := ⟨A.PWR_WAKE_HIST n, 0, 32⟩
/-- Table 12-14. -/
def A.PWR_WAKE_HIST_W1 (n : Nat) : Nat := 0xb01104 + 0x8 * (n % 16)
@[inherit_doc A.PWR_WAKE_HIST_W1] abbrev F.PWR_WAKE_HIST_W1_REPLAYED (n : Nat) : Fld := ⟨A.PWR_WAKE_HIST_W1 n, 15, 1⟩
@[inherit_doc A.PWR_WAKE_HIST_W1] abbrev F.PWR_WAKE_HIST_W1_FROM (n : Nat) : Fld := ⟨A.PWR_WAKE_HIST_W1 n, 12, 2⟩
@[inherit_doc A.PWR_WAKE_HIST_W1] abbrev F.PWR_WAKE_HIST_W1_PORT (n : Nat) : Fld := ⟨A.PWR_WAKE_HIST_W1 n, 8, 4⟩
@[inherit_doc A.PWR_WAKE_HIST_W1] abbrev F.PWR_WAKE_HIST_W1_SRC (n : Nat) : Fld := ⟨A.PWR_WAKE_HIST_W1 n, 0, 4⟩
/-- Table 12-15. -/
def A.DRV_BUDGET : Nat := 0xb02000
@[inherit_doc A.DRV_BUDGET] abbrev F.DRV_BUDGET_MW : Fld := ⟨A.DRV_BUDGET, 0, 32⟩
/-- Table 12-15. -/
def A.DRV_EFFECTIVE : Nat := 0xb02004
@[inherit_doc A.DRV_EFFECTIVE] abbrev F.DRV_EFFECTIVE_MW : Fld := ⟨A.DRV_EFFECTIVE, 0, 32⟩
/-- Table 12-15. -/
def A.DRV_SUM : Nat := 0xb02008
@[inherit_doc A.DRV_SUM] abbrev F.DRV_SUM_MW : Fld := ⟨A.DRV_SUM, 0, 32⟩
/-- Table 12-15. -/
def A.DRV_STATE : Nat := 0xb0200c
@[inherit_doc A.DRV_STATE] abbrev F.DRV_STATE_PL : Fld := ⟨A.DRV_STATE, 30, 2⟩
@[inherit_doc A.DRV_STATE] abbrev F.DRV_STATE_THERMAL : Fld := ⟨A.DRV_STATE, 29, 1⟩
@[inherit_doc A.DRV_STATE] abbrev F.DRV_STATE_LIMIT : Fld := ⟨A.DRV_STATE, 28, 1⟩
@[inherit_doc A.DRV_STATE] abbrev F.DRV_STATE_SHORT : Fld := ⟨A.DRV_STATE, 27, 1⟩
@[inherit_doc A.DRV_STATE] abbrev F.DRV_STATE_FLIGHT : Fld := ⟨A.DRV_STATE, 26, 1⟩
@[inherit_doc A.DRV_STATE] abbrev F.DRV_STATE_QUEUE : Fld := ⟨A.DRV_STATE, 0, 8⟩
/-- Table 12-15. -/
def A.DRV_PORT (n : Nat) : Nat := 0xb02040 + 0x4 * (n % 16)
@[inherit_doc A.DRV_PORT] abbrev F.DRV_PORT_DEMAND (n : Nat) : Fld := ⟨A.DRV_PORT n, 16, 16⟩
@[inherit_doc A.DRV_PORT] abbrev F.DRV_PORT_PRIORITY (n : Nat) : Fld := ⟨A.DRV_PORT n, 13, 3⟩
@[inherit_doc A.DRV_PORT] abbrev F.DRV_PORT_CAPPED (n : Nat) : Fld := ⟨A.DRV_PORT n, 12, 1⟩
@[inherit_doc A.DRV_PORT] abbrev F.DRV_PORT_CAP_A (n : Nat) : Fld := ⟨A.DRV_PORT n, 0, 12⟩
/-- Table 12-15. -/
def A.DRV_PL_CHANGES : Nat := 0xb02080
@[inherit_doc A.DRV_PL_CHANGES] abbrev F.DRV_PL_CHANGES_COUNT : Fld := ⟨A.DRV_PL_CHANGES, 0, 32⟩
/-- Table 12-15. -/
def A.DRV_CAPS : Nat := 0xb02084
@[inherit_doc A.DRV_CAPS] abbrev F.DRV_CAPS_COUNT : Fld := ⟨A.DRV_CAPS, 0, 32⟩
/-- Table 12-16. -/
def A.THM_BASE (n : Nat) : Nat := 0xb02800 + 0x4 * (n % 24)
@[inherit_doc A.THM_BASE] abbrev F.THM_BASE_VALID (n : Nat) : Fld := ⟨A.THM_BASE n, 31, 1⟩
@[inherit_doc A.THM_BASE] abbrev F.THM_BASE_FAILED (n : Nat) : Fld := ⟨A.THM_BASE n, 30, 1⟩
@[inherit_doc A.THM_BASE] abbrev F.THM_BASE_DISAGREE (n : Nat) : Fld := ⟨A.THM_BASE n, 29, 1⟩
@[inherit_doc A.THM_BASE] abbrev F.THM_BASE_TEMP (n : Nat) : Fld := ⟨A.THM_BASE n, 0, 16⟩
/-- Table 12-16. -/
def A.THM_CORE (n : Nat) : Nat := 0xb02880 + 0x4 * (n % 16)
@[inherit_doc A.THM_CORE] abbrev F.THM_CORE_VALID (n : Nat) : Fld := ⟨A.THM_CORE n, 31, 1⟩
@[inherit_doc A.THM_CORE] abbrev F.THM_CORE_FAILED (n : Nat) : Fld := ⟨A.THM_CORE n, 30, 1⟩
@[inherit_doc A.THM_CORE] abbrev F.THM_CORE_DISAGREE (n : Nat) : Fld := ⟨A.THM_CORE n, 29, 1⟩
@[inherit_doc A.THM_CORE] abbrev F.THM_CORE_TEMP (n : Nat) : Fld := ⟨A.THM_CORE n, 0, 16⟩
/-- Table 12-16. -/
def A.THM_TRIPS : Nat := 0xb028c0
@[inherit_doc A.THM_TRIPS] abbrev F.THM_TRIPS_COUNT : Fld := ⟨A.THM_TRIPS, 0, 32⟩
/-- Table 13-8. -/
def A.CLK_STATUS : Nat := 0xb00000
@[inherit_doc A.CLK_STATUS] abbrev F.CLK_STATUS_STATE : Fld := ⟨A.CLK_STATUS, 30, 2⟩
@[inherit_doc A.CLK_STATUS] abbrev F.CLK_STATUS_LREF_GOOD : Fld := ⟨A.CLK_STATUS, 29, 1⟩
@[inherit_doc A.CLK_STATUS] abbrev F.CLK_STATUS_HREF_GOOD : Fld := ⟨A.CLK_STATUS, 28, 1⟩
@[inherit_doc A.CLK_STATUS] abbrev F.CLK_STATUS_IRO_RUN : Fld := ⟨A.CLK_STATUS, 27, 1⟩
@[inherit_doc A.CLK_STATUS] abbrev F.CLK_STATUS_IRO_GOOD : Fld := ⟨A.CLK_STATUS, 26, 1⟩
@[inherit_doc A.CLK_STATUS] abbrev F.CLK_STATUS_IRO_FAILED : Fld := ⟨A.CLK_STATUS, 25, 1⟩
@[inherit_doc A.CLK_STATUS] abbrev F.CLK_STATUS_XO32_OK : Fld := ⟨A.CLK_STATUS, 24, 1⟩
@[inherit_doc A.CLK_STATUS] abbrev F.CLK_STATUS_LPLL_LOCK : Fld := ⟨A.CLK_STATUS, 23, 1⟩
/-- Table 13-9. -/
def A.CLK_LREF_TRIPS : Nat := 0xb00040
@[inherit_doc A.CLK_LREF_TRIPS] abbrev F.CLK_LREF_TRIPS_COUNT : Fld := ⟨A.CLK_LREF_TRIPS, 0, 32⟩
/-- Table 13-9. -/
def A.CLK_HREF_TRIPS : Nat := 0xb00044
@[inherit_doc A.CLK_HREF_TRIPS] abbrev F.CLK_HREF_TRIPS_COUNT : Fld := ⟨A.CLK_HREF_TRIPS, 0, 32⟩
/-- Table 13-9. -/
def A.CLK_HOLD_TIME : Nat := 0xb00048
@[inherit_doc A.CLK_HOLD_TIME] abbrev F.CLK_HOLD_TIME_US : Fld := ⟨A.CLK_HOLD_TIME, 0, 32⟩
/-- Table 13-9. -/
def A.CLK_GATE_REFUSE : Nat := 0xb0004c
@[inherit_doc A.CLK_GATE_REFUSE] abbrev F.CLK_GATE_REFUSE_COUNT : Fld := ⟨A.CLK_GATE_REFUSE, 0, 32⟩
/-- Table 13-10. -/
def A.DEV_RESET_CAUSE : Nat := 0x000070
@[inherit_doc A.DEV_RESET_CAUSE] abbrev F.DEV_RESET_CAUSE_CAUSE : Fld := ⟨A.DEV_RESET_CAUSE, 28, 4⟩
@[inherit_doc A.DEV_RESET_CAUSE] abbrev F.DEV_RESET_CAUSE_SEEN : Fld := ⟨A.DEV_RESET_CAUSE, 16, 9⟩
@[inherit_doc A.DEV_RESET_CAUSE] abbrev F.DEV_RESET_CAUSE_COUNT : Fld := ⟨A.DEV_RESET_CAUSE, 0, 16⟩
/-- Table 13-10. -/
def A.DEV_RESET_CTRL : Nat := 0x000074
@[inherit_doc A.DEV_RESET_CTRL] abbrev F.DEV_RESET_CTRL_GO : Fld := ⟨A.DEV_RESET_CTRL, 0, 1⟩
/-- Table 13-10. -/
def A.DEV_TIME : Nat := 0x000078
/-- Table 14-4. -/
def A.TST_BIST_RESULT : Nat := 0xf00000
@[inherit_doc A.TST_BIST_RESULT] abbrev F.TST_BIST_RESULT_PASS : Fld := ⟨A.TST_BIST_RESULT, 31, 1⟩
@[inherit_doc A.TST_BIST_RESULT] abbrev F.TST_BIST_RESULT_PREV_FAIL : Fld := ⟨A.TST_BIST_RESULT, 30, 1⟩
@[inherit_doc A.TST_BIST_RESULT] abbrev F.TST_BIST_RESULT_PREV_DOMAINS : Fld := ⟨A.TST_BIST_RESULT, 27, 3⟩
@[inherit_doc A.TST_BIST_RESULT] abbrev F.TST_BIST_RESULT_TIME_US : Fld := ⟨A.TST_BIST_RESULT, 0, 16⟩
/-- Table 14-4. -/
def A.TST_ROT_CFG : Nat := 0xf00004
@[inherit_doc A.TST_ROT_CFG] abbrev F.TST_ROT_CFG_ENABLE : Fld := ⟨A.TST_ROT_CFG, 31, 1⟩
@[inherit_doc A.TST_ROT_CFG] abbrev F.TST_ROT_CFG_SLICE_PERIOD : Fld := ⟨A.TST_ROT_CFG, 16, 8⟩
@[inherit_doc A.TST_ROT_CFG] abbrev F.TST_ROT_CFG_SR_PERIOD : Fld := ⟨A.TST_ROT_CFG, 8, 8⟩
@[inherit_doc A.TST_ROT_CFG] abbrev F.TST_ROT_CFG_SEG_GAP : Fld := ⟨A.TST_ROT_CFG, 0, 8⟩
/-- Table 14-4. -/
def A.TST_ROT_STATE : Nat := 0xf00008
@[inherit_doc A.TST_ROT_STATE] abbrev F.TST_ROT_STATE_SLICE_BUSY : Fld := ⟨A.TST_ROT_STATE, 31, 1⟩
@[inherit_doc A.TST_ROT_STATE] abbrev F.TST_ROT_STATE_SLICE : Fld := ⟨A.TST_ROT_STATE, 24, 7⟩
@[inherit_doc A.TST_ROT_STATE] abbrev F.TST_ROT_STATE_SR_BUSY : Fld := ⟨A.TST_ROT_STATE, 23, 1⟩
@[inherit_doc A.TST_ROT_STATE] abbrev F.TST_ROT_STATE_BLOCK : Fld := ⟨A.TST_ROT_STATE, 16, 7⟩
@[inherit_doc A.TST_ROT_STATE] abbrev F.TST_ROT_STATE_FREE_SPARES : Fld := ⟨A.TST_ROT_STATE, 8, 8⟩
@[inherit_doc A.TST_ROT_STATE] abbrev F.TST_ROT_STATE_FAILED : Fld := ⟨A.TST_ROT_STATE, 0, 8⟩
/-- Table 14-5. -/
def A.TST_SLICE_STATE (n : Nat) : Nat := 0xf00100 + 0x4 * (n % 68)
@[inherit_doc A.TST_SLICE_STATE] abbrev F.TST_SLICE_STATE_STATE (n : Nat) : Fld := ⟨A.TST_SLICE_STATE n, 29, 3⟩
@[inherit_doc A.TST_SLICE_STATE] abbrev F.TST_SLICE_STATE_PORT (n : Nat) : Fld := ⟨A.TST_SLICE_STATE n, 20, 4⟩
@[inherit_doc A.TST_SLICE_STATE] abbrev F.TST_SLICE_STATE_AGE_S (n : Nat) : Fld := ⟨A.TST_SLICE_STATE n, 0, 16⟩
/-- Table 14-5. -/
def A.TST_BLOCK_STATE (n : Nat) : Nat := 0xf00300 + 0x4 * (n % 96)
@[inherit_doc A.TST_BLOCK_STATE] abbrev F.TST_BLOCK_STATE_STATE (n : Nat) : Fld := ⟨A.TST_BLOCK_STATE n, 30, 2⟩
@[inherit_doc A.TST_BLOCK_STATE] abbrev F.TST_BLOCK_STATE_AGE_S (n : Nat) : Fld := ⟨A.TST_BLOCK_STATE n, 0, 16⟩
/-- Table 14-6. -/
def A.SLICE_MAP (n : Nat) : Nat := 0x600000 + 0x8 * (n % 16)
@[inherit_doc A.SLICE_MAP] abbrev F.SLICE_MAP_SLICE3 (n : Nat) : Fld := ⟨A.SLICE_MAP n, 24, 7⟩
@[inherit_doc A.SLICE_MAP] abbrev F.SLICE_MAP_SLICE2 (n : Nat) : Fld := ⟨A.SLICE_MAP n, 16, 7⟩
@[inherit_doc A.SLICE_MAP] abbrev F.SLICE_MAP_SLICE1 (n : Nat) : Fld := ⟨A.SLICE_MAP n, 8, 7⟩
@[inherit_doc A.SLICE_MAP] abbrev F.SLICE_MAP_SLICE0 (n : Nat) : Fld := ⟨A.SLICE_MAP n, 0, 7⟩
/-- Table 14-6. -/
def A.SLICE_MAP_W1 (n : Nat) : Nat := 0x600004 + 0x8 * (n % 16)
@[inherit_doc A.SLICE_MAP_W1] abbrev F.SLICE_MAP_W1_COUNT (n : Nat) : Fld := ⟨A.SLICE_MAP_W1 n, 28, 4⟩
@[inherit_doc A.SLICE_MAP_W1] abbrev F.SLICE_MAP_W1_SLICE5 (n : Nat) : Fld := ⟨A.SLICE_MAP_W1 n, 8, 7⟩
@[inherit_doc A.SLICE_MAP_W1] abbrev F.SLICE_MAP_W1_SLICE4 (n : Nat) : Fld := ⟨A.SLICE_MAP_W1 n, 0, 7⟩
/-- Table 14-7. -/
def A.TST_MAN_CTRL : Nat := 0xf00080
@[inherit_doc A.TST_MAN_CTRL] abbrev F.TST_MAN_CTRL_GO : Fld := ⟨A.TST_MAN_CTRL, 31, 1⟩
@[inherit_doc A.TST_MAN_CTRL] abbrev F.TST_MAN_CTRL_RESULT : Fld := ⟨A.TST_MAN_CTRL, 29, 2⟩
@[inherit_doc A.TST_MAN_CTRL] abbrev F.TST_MAN_CTRL_CLASS : Fld := ⟨A.TST_MAN_CTRL, 27, 2⟩
@[inherit_doc A.TST_MAN_CTRL] abbrev F.TST_MAN_CTRL_INDEX : Fld := ⟨A.TST_MAN_CTRL, 20, 7⟩
@[inherit_doc A.TST_MAN_CTRL] abbrev F.TST_MAN_CTRL_PATTERNS : Fld := ⟨A.TST_MAN_CTRL, 0, 20⟩
/-- Table 14-7. -/
def A.TST_MAN_SIG : Nat := 0xf00084
@[inherit_doc A.TST_MAN_SIG] abbrev F.TST_MAN_SIG_SIG : Fld := ⟨A.TST_MAN_SIG, 0, 32⟩
/-- Table 14-7. -/
def A.TST_PASSES : Nat := 0xf00040
@[inherit_doc A.TST_PASSES] abbrev F.TST_PASSES_COUNT : Fld := ⟨A.TST_PASSES, 0, 32⟩
/-- Table 14-7. -/
def A.TST_ABORTS : Nat := 0xf00044
@[inherit_doc A.TST_ABORTS] abbrev F.TST_ABORTS_COUNT : Fld := ⟨A.TST_ABORTS, 0, 32⟩
/-- Table 14-7. -/
def A.TST_FAULTS : Nat := 0xf00048
@[inherit_doc A.TST_FAULTS] abbrev F.TST_FAULTS_COUNT : Fld := ⟨A.TST_FAULTS, 0, 32⟩
/-- Table 14-7. -/
def A.TST_HANDOVERS : Nat := 0xf0004c
@[inherit_doc A.TST_HANDOVERS] abbrev F.TST_HANDOVERS_COUNT : Fld := ⟨A.TST_HANDOVERS, 0, 32⟩
/-- Table 14-7. -/
def A.TST_OVERDUE : Nat := 0xf00050
@[inherit_doc A.TST_OVERDUE] abbrev F.TST_OVERDUE_COUNT : Fld := ⟨A.TST_OVERDUE, 0, 32⟩
/-- Table 15-9. -/
def A.SEC_STATE : Nat := 0xe00000
@[inherit_doc A.SEC_STATE] abbrev F.SEC_STATE_LC : Fld := ⟨A.SEC_STATE, 29, 3⟩
@[inherit_doc A.SEC_STATE] abbrev F.SEC_STATE_PENDING : Fld := ⟨A.SEC_STATE, 28, 1⟩
@[inherit_doc A.SEC_STATE] abbrev F.SEC_STATE_DEBUG : Fld := ⟨A.SEC_STATE, 26, 2⟩
@[inherit_doc A.SEC_STATE] abbrev F.SEC_STATE_LOCKOUT : Fld := ⟨A.SEC_STATE, 25, 1⟩
@[inherit_doc A.SEC_STATE] abbrev F.SEC_STATE_FAILS : Fld := ⟨A.SEC_STATE, 20, 5⟩
/-- Table 15-9. -/
def A.SEC_SESSION : Nat := 0xe00004
@[inherit_doc A.SEC_SESSION] abbrev F.SEC_SESSION_ROLE : Fld := ⟨A.SEC_SESSION, 30, 2⟩
@[inherit_doc A.SEC_SESSION] abbrev F.SEC_SESSION_SLOT : Fld := ⟨A.SEC_SESSION, 27, 3⟩
@[inherit_doc A.SEC_SESSION] abbrev F.SEC_SESSION_DEBUG : Fld := ⟨A.SEC_SESSION, 26, 1⟩
@[inherit_doc A.SEC_SESSION] abbrev F.SEC_SESSION_REMAIN_MIN : Fld := ⟨A.SEC_SESSION, 0, 13⟩
/-- Table 15-9. -/
def A.SEC_SESS_CTRL : Nat := 0xe00008
@[inherit_doc A.SEC_SESS_CTRL] abbrev F.SEC_SESS_CTRL_NEW_CHAL : Fld := ⟨A.SEC_SESS_CTRL, 0, 1⟩
/-- Table 15-9. -/
def A.SEC_CHALLENGE (n : Nat) : Nat := 0xe00010 + 0x4 * (n % 8)
@[inherit_doc A.SEC_CHALLENGE] abbrev F.SEC_CHALLENGE_WORD (n : Nat) : Fld := ⟨A.SEC_CHALLENGE n, 0, 32⟩
/-- Table 15-9. -/
def A.SEC_RESP (n : Nat) : Nat := 0xe00040 + 0x4 * (n % 16)
@[inherit_doc A.SEC_RESP] abbrev F.SEC_RESP_WORD (n : Nat) : Fld := ⟨A.SEC_RESP n, 0, 32⟩
/-- Table 15-10. -/
def A.SEC_KEY_CTRL : Nat := 0xe00080
@[inherit_doc A.SEC_KEY_CTRL] abbrev F.SEC_KEY_CTRL_GO : Fld := ⟨A.SEC_KEY_CTRL, 31, 1⟩
@[inherit_doc A.SEC_KEY_CTRL] abbrev F.SEC_KEY_CTRL_BUSY : Fld := ⟨A.SEC_KEY_CTRL, 30, 1⟩
@[inherit_doc A.SEC_KEY_CTRL] abbrev F.SEC_KEY_CTRL_OP : Fld := ⟨A.SEC_KEY_CTRL, 28, 2⟩
@[inherit_doc A.SEC_KEY_CTRL] abbrev F.SEC_KEY_CTRL_CLASS : Fld := ⟨A.SEC_KEY_CTRL, 27, 1⟩
@[inherit_doc A.SEC_KEY_CTRL] abbrev F.SEC_KEY_CTRL_SLOT : Fld := ⟨A.SEC_KEY_CTRL, 24, 3⟩
@[inherit_doc A.SEC_KEY_CTRL] abbrev F.SEC_KEY_CTRL_RESULT : Fld := ⟨A.SEC_KEY_CTRL, 0, 4⟩
/-- Table 15-10. -/
def A.SEC_KEYS : Nat := 0xe00084
@[inherit_doc A.SEC_KEYS] abbrev F.SEC_KEYS_INSTALLER : Fld := ⟨A.SEC_KEYS, 8, 8⟩
@[inherit_doc A.SEC_KEYS] abbrev F.SEC_KEYS_OPERATOR : Fld := ⟨A.SEC_KEYS, 0, 8⟩
/-- Table 15-10. -/
def A.SEC_KEY_STAGE (n : Nat) : Nat := 0xe000c0 + 0x4 * (n % 16)
@[inherit_doc A.SEC_KEY_STAGE] abbrev F.SEC_KEY_STAGE_WORD (n : Nat) : Fld := ⟨A.SEC_KEY_STAGE n, 0, 32⟩
/-- Table 15-11. -/
def A.SEC_ID_SERIAL : Nat := 0xe00100
/-- Table 15-11. -/
def A.SEC_ID_CTRL : Nat := 0xe00108
@[inherit_doc A.SEC_ID_CTRL] abbrev F.SEC_ID_CTRL_GO : Fld := ⟨A.SEC_ID_CTRL, 31, 1⟩
@[inherit_doc A.SEC_ID_CTRL] abbrev F.SEC_ID_CTRL_DONE : Fld := ⟨A.SEC_ID_CTRL, 30, 1⟩
@[inherit_doc A.SEC_ID_CTRL] abbrev F.SEC_ID_CTRL_BUSY : Fld := ⟨A.SEC_ID_CTRL, 29, 1⟩
/-- Table 15-11. -/
def A.SEC_ID_NONCE (n : Nat) : Nat := 0xe00140 + 0x4 * (n % 8)
@[inherit_doc A.SEC_ID_NONCE] abbrev F.SEC_ID_NONCE_WORD (n : Nat) : Fld := ⟨A.SEC_ID_NONCE n, 0, 32⟩
/-- Table 15-11. -/
def A.SEC_ID_SIG (n : Nat) : Nat := 0xe00180 + 0x4 * (n % 16)
@[inherit_doc A.SEC_ID_SIG] abbrev F.SEC_ID_SIG_WORD (n : Nat) : Fld := ⟨A.SEC_ID_SIG n, 0, 32⟩
/-- Table 15-11. -/
def A.SEC_ID_PUB (n : Nat) : Nat := 0xe001c0 + 0x4 * (n % 16)
@[inherit_doc A.SEC_ID_PUB] abbrev F.SEC_ID_PUB_WORD (n : Nat) : Fld := ⟨A.SEC_ID_PUB n, 0, 32⟩
/-- Table 15-11. -/
def A.SEC_ID_CERT (n : Nat) : Nat := 0xe00400 + 0x4 * (n % 128)
@[inherit_doc A.SEC_ID_CERT] abbrev F.SEC_ID_CERT_WORD (n : Nat) : Fld := ⟨A.SEC_ID_CERT n, 0, 32⟩
/-- Table 15-11. -/
def A.SEC_AUDIT_HEAD : Nat := 0xe00800
@[inherit_doc A.SEC_AUDIT_HEAD] abbrev F.SEC_AUDIT_HEAD_COUNT : Fld := ⟨A.SEC_AUDIT_HEAD, 0, 32⟩
/-- Table 15-11. -/
def A.SEC_AUDIT (n k : Nat) : Nat := 0xe01000 + 0x10 * (n % 256) + 0x4 * (k % 4)
@[inherit_doc A.SEC_AUDIT] abbrev F.SEC_AUDIT_ENTRY (n k : Nat) : Fld := ⟨A.SEC_AUDIT n k, 0, 32⟩
/-- Table 16-5. -/
def A.CEN_CFG : Nat := 0xd00000
@[inherit_doc A.CEN_CFG] abbrev F.CEN_CFG_ENABLE : Fld := ⟨A.CEN_CFG, 31, 1⟩
@[inherit_doc A.CEN_CFG] abbrev F.CEN_CFG_PERIOD_US : Fld := ⟨A.CEN_CFG, 0, 20⟩
/-- Table 16-5. -/
def A.CEN_SAMPLE : Nat := 0xd00004
@[inherit_doc A.CEN_SAMPLE] abbrev F.CEN_SAMPLE_SAMPLE_N : Fld := ⟨A.CEN_SAMPLE, 0, 16⟩
/-- Table 16-5. -/
def A.CEN_STATUS : Nat := 0xd00008
@[inherit_doc A.CEN_STATUS] abbrev F.CEN_STATUS_RUNNING : Fld := ⟨A.CEN_STATUS, 31, 1⟩
@[inherit_doc A.CEN_STATUS] abbrev F.CEN_STATUS_NO_PART : Fld := ⟨A.CEN_STATUS, 30, 1⟩
/-- Table 16-5. -/
def A.CEN_SLOTS : Nat := 0xd0000c
@[inherit_doc A.CEN_SLOTS] abbrev F.CEN_SLOTS_COUNT : Fld := ⟨A.CEN_SLOTS, 0, 32⟩
/-- Table 16-5. -/
def A.CEN_SEQ : Nat := 0xd00010
/-- Table 16-5. -/
def A.CEN_SKIPPED : Nat := 0xd00018
@[inherit_doc A.CEN_SKIPPED] abbrev F.CEN_SKIPPED_COUNT : Fld := ⟨A.CEN_SKIPPED, 0, 32⟩
/-- Table 16-5. -/
def A.CEN_SEL (n : Nat) : Nat := 0xd01000 + 0x4 * (n % 312)
@[inherit_doc A.CEN_SEL] abbrev F.CEN_SEL_CHAIN (n : Nat) : Fld := ⟨A.CEN_SEL n, 31, 1⟩
@[inherit_doc A.CEN_SEL] abbrev F.CEN_SEL_EVENT (n : Nat) : Fld := ⟨A.CEN_SEL n, 0, 10⟩
/-- Table 16-6. -/
def A.EVID_RING_CFG (n : Nat) : Nat := 0xd10000 + 0x40 * (n % 4)
@[inherit_doc A.EVID_RING_CFG] abbrev F.EVID_RING_CFG_ENABLE (n : Nat) : Fld := ⟨A.EVID_RING_CFG n, 31, 1⟩
@[inherit_doc A.EVID_RING_CFG] abbrev F.EVID_RING_CFG_PORTS (n : Nat) : Fld := ⟨A.EVID_RING_CFG n, 0, 16⟩
/-- Table 16-6. -/
def A.EVID_RING_CFG1 (n : Nat) : Nat := 0xd10004 + 0x40 * (n % 4)
@[inherit_doc A.EVID_RING_CFG1] abbrev F.EVID_RING_CFG1_BASE_MIB (n : Nat) : Fld := ⟨A.EVID_RING_CFG1 n, 16, 15⟩
@[inherit_doc A.EVID_RING_CFG1] abbrev F.EVID_RING_CFG1_SIZE_MIB (n : Nat) : Fld := ⟨A.EVID_RING_CFG1 n, 0, 15⟩
/-- Table 16-6. -/
def A.EVID_RING_CFG2 (n : Nat) : Nat := 0xd10008 + 0x40 * (n % 4)
@[inherit_doc A.EVID_RING_CFG2] abbrev F.EVID_RING_CFG2_PRE_S (n : Nat) : Fld := ⟨A.EVID_RING_CFG2 n, 16, 12⟩
@[inherit_doc A.EVID_RING_CFG2] abbrev F.EVID_RING_CFG2_SNAP (n : Nat) : Fld := ⟨A.EVID_RING_CFG2 n, 0, 14⟩
/-- Table 16-6. -/
def A.EVID_RING_CFG3 (n : Nat) : Nat := 0xd1000c + 0x40 * (n % 4)
@[inherit_doc A.EVID_RING_CFG3] abbrev F.EVID_RING_CFG3_POST_M (n : Nat) : Fld := ⟨A.EVID_RING_CFG3 n, 16, 16⟩
@[inherit_doc A.EVID_RING_CFG3] abbrev F.EVID_RING_CFG3_POST_S (n : Nat) : Fld := ⟨A.EVID_RING_CFG3 n, 0, 12⟩
/-- Table 16-6. -/
def A.EVID_TRIG_CFG (n : Nat) : Nat := 0xd10010 + 0x40 * (n % 4)
@[inherit_doc A.EVID_TRIG_CFG] abbrev F.EVID_TRIG_CFG_DIR (n : Nat) : Fld := ⟨A.EVID_TRIG_CFG n, 3, 2⟩
@[inherit_doc A.EVID_TRIG_CFG] abbrev F.EVID_TRIG_CFG_POS_ARM (n : Nat) : Fld := ⟨A.EVID_TRIG_CFG n, 2, 1⟩
@[inherit_doc A.EVID_TRIG_CFG] abbrev F.EVID_TRIG_CFG_PIN_EN (n : Nat) : Fld := ⟨A.EVID_TRIG_CFG n, 1, 1⟩
@[inherit_doc A.EVID_TRIG_CFG] abbrev F.EVID_TRIG_CFG_CMD_EN (n : Nat) : Fld := ⟨A.EVID_TRIG_CFG n, 0, 1⟩
/-- Table 16-6. -/
def A.EVID_TRIG_ROUTE (n : Nat) : Nat := 0xd10014 + 0x40 * (n % 4)
@[inherit_doc A.EVID_TRIG_ROUTE] abbrev F.EVID_TRIG_ROUTE_ROUTE (n : Nat) : Fld := ⟨A.EVID_TRIG_ROUTE n, 0, 32⟩
/-- Table 16-6. -/
def A.EVID_TRIG_POS (n : Nat) : Nat := 0xd10018 + 0x40 * (n % 4)
/-- Table 16-6. -/
def A.EVID_RING_STATE (n : Nat) : Nat := 0xd10020 + 0x40 * (n % 4)
@[inherit_doc A.EVID_RING_STATE] abbrev F.EVID_RING_STATE_STATE (n : Nat) : Fld := ⟨A.EVID_RING_STATE n, 30, 2⟩
@[inherit_doc A.EVID_RING_STATE] abbrev F.EVID_RING_STATE_CUR_MIB (n : Nat) : Fld := ⟨A.EVID_RING_STATE n, 0, 15⟩
/-- Table 16-6. -/
def A.EVID_RING_SEQ (n : Nat) : Nat := 0xd10024 + 0x40 * (n % 4)
@[inherit_doc A.EVID_RING_SEQ] abbrev F.EVID_RING_SEQ_SEQ (n : Nat) : Fld := ⟨A.EVID_RING_SEQ n, 0, 32⟩
/-- Table 16-6. -/
def A.EVID_RECORDS (n : Nat) : Nat := 0xd10030 + 0x40 * (n % 4)
@[inherit_doc A.EVID_RECORDS] abbrev F.EVID_RECORDS_COUNT (n : Nat) : Fld := ⟨A.EVID_RECORDS n, 0, 32⟩
/-- Table 16-6. -/
def A.EVID_NOT_REC (n : Nat) : Nat := 0xd10034 + 0x40 * (n % 4)
@[inherit_doc A.EVID_NOT_REC] abbrev F.EVID_NOT_REC_COUNT (n : Nat) : Fld := ⟨A.EVID_NOT_REC n, 0, 32⟩
/-- Table 16-6. -/
def A.EVID_DISCARD (n : Nat) : Nat := 0xd10038 + 0x40 * (n % 4)
@[inherit_doc A.EVID_DISCARD] abbrev F.EVID_DISCARD_COUNT (n : Nat) : Fld := ⟨A.EVID_DISCARD n, 0, 32⟩
/-- Table 16-7. -/
def A.EVID_SEG (n : Nat) : Nat := 0xd10400 + 0x20 * (n % 8)
@[inherit_doc A.EVID_SEG] abbrev F.EVID_SEG_STATE (n : Nat) : Fld := ⟨A.EVID_SEG n, 30, 2⟩
@[inherit_doc A.EVID_SEG] abbrev F.EVID_SEG_RING (n : Nat) : Fld := ⟨A.EVID_SEG n, 28, 2⟩
@[inherit_doc A.EVID_SEG] abbrev F.EVID_SEG_SRC (n : Nat) : Fld := ⟨A.EVID_SEG n, 24, 4⟩
@[inherit_doc A.EVID_SEG] abbrev F.EVID_SEG_EXPORTED (n : Nat) : Fld := ⟨A.EVID_SEG n, 23, 1⟩
@[inherit_doc A.EVID_SEG] abbrev F.EVID_SEG_SHORT (n : Nat) : Fld := ⟨A.EVID_SEG n, 22, 1⟩
@[inherit_doc A.EVID_SEG] abbrev F.EVID_SEG_MARKS (n : Nat) : Fld := ⟨A.EVID_SEG n, 16, 4⟩
@[inherit_doc A.EVID_SEG] abbrev F.EVID_SEG_FIRST_MIB (n : Nat) : Fld := ⟨A.EVID_SEG n, 0, 15⟩
/-- Table 16-7. -/
def A.EVID_SEG_W1 (n : Nat) : Nat := 0xd10404 + 0x20 * (n % 8)
@[inherit_doc A.EVID_SEG_W1] abbrev F.EVID_SEG_W1_LAST_MIB (n : Nat) : Fld := ⟨A.EVID_SEG_W1 n, 0, 15⟩
/-- Table 16-7. -/
def A.EVID_SEG_TIME (n : Nat) : Nat := 0xd10408 + 0x20 * (n % 8)
/-- Table 16-7. -/
def A.EVID_SEG_POS (n : Nat) : Nat := 0xd10410 + 0x20 * (n % 8)
/-- Table 16-7. -/
def A.EVID_SEG_FIRST_SEQ (n : Nat) : Nat := 0xd10418 + 0x20 * (n % 8)
@[inherit_doc A.EVID_SEG_FIRST_SEQ] abbrev F.EVID_SEG_FIRST_SEQ_FIRST_SEQ (n : Nat) : Fld := ⟨A.EVID_SEG_FIRST_SEQ n, 0, 32⟩
/-- Table 16-7. -/
def A.EVID_SEG_LAST_SEQ (n : Nat) : Nat := 0xd1041c + 0x20 * (n % 8)
@[inherit_doc A.EVID_SEG_LAST_SEQ] abbrev F.EVID_SEG_LAST_SEQ_LAST_SEQ (n : Nat) : Fld := ⟨A.EVID_SEG_LAST_SEQ n, 0, 32⟩
/-- Table 16-7. -/
def A.EVID_DIGEST (n : Nat) : Nat := 0xd10600 + 0x4 * (n % 8)
@[inherit_doc A.EVID_DIGEST] abbrev F.EVID_DIGEST_WORD (n : Nat) : Fld := ⟨A.EVID_DIGEST n, 0, 32⟩
/-- Table 16-7. -/
def A.EVID_TRIG_REFUSED : Nat := 0xd10700
@[inherit_doc A.EVID_TRIG_REFUSED] abbrev F.EVID_TRIG_REFUSED_COUNT : Fld := ⟨A.EVID_TRIG_REFUSED, 0, 32⟩
/-- Table 16-7. -/
def A.EVID_IMAP (n : Nat) : Nat := 0xd11000 + 0x4 * (n % 4096)
@[inherit_doc A.EVID_IMAP] abbrev F.EVID_IMAP_MARKS (n : Nat) : Fld := ⟨A.EVID_IMAP n, 0, 32⟩
/-- Table 17-6. -/
def A.EVT_STATUS (n : Nat) : Nat := 0x100000 + 0x4 * (n % 10)
@[inherit_doc A.EVT_STATUS] abbrev F.EVT_STATUS_PENDING (n : Nat) : Fld := ⟨A.EVT_STATUS n, 0, 32⟩
/-- Table 17-6. -/
def A.EVT_MASK (n : Nat) : Nat := 0x100040 + 0x4 * (n % 10)
@[inherit_doc A.EVT_MASK] abbrev F.EVT_MASK_MASK (n : Nat) : Fld := ⟨A.EVT_MASK n, 0, 32⟩
/-- Table 17-6. -/
def A.EVT_PEND (n : Nat) : Nat := 0x100080 + 0x4 * (n % 10)
@[inherit_doc A.EVT_PEND] abbrev F.EVT_PEND_ACTIVE (n : Nat) : Fld := ⟨A.EVT_PEND n, 0, 32⟩
/-- Table 17-6. -/
def A.EVT_FORCE (n : Nat) : Nat := 0x1000c0 + 0x4 * (n % 10)
@[inherit_doc A.EVT_FORCE] abbrev F.EVT_FORCE_FORCE (n : Nat) : Fld := ⟨A.EVT_FORCE n, 0, 32⟩
/-- Table 17-6. -/
def A.EVT_VEC_SUM : Nat := 0x100100
@[inherit_doc A.EVT_VEC_SUM] abbrev F.EVT_VEC_SUM_VECTORS : Fld := ⟨A.EVT_VEC_SUM, 0, 32⟩
/-- Table 17-6. -/
def A.EVT_INTN : Nat := 0x100104
@[inherit_doc A.EVT_INTN] abbrev F.EVT_INTN_DRIVEN : Fld := ⟨A.EVT_INTN, 0, 1⟩
/-- Table 17-6. -/
def A.EVT_CAUSE (n : Nat) : Nat := 0x100200 + 0x4 * (n % 6)
@[inherit_doc A.EVT_CAUSE] abbrev F.EVT_CAUSE_CAUSE (n : Nat) : Fld := ⟨A.EVT_CAUSE n, 0, 16⟩
/-- Table 17-6. -/
def A.EVT_ROUTE (n : Nat) : Nat := 0x100400 + 0x4 * (n % 320)
@[inherit_doc A.EVT_ROUTE] abbrev F.EVT_ROUTE_UNMASK (n : Nat) : Fld := ⟨A.EVT_ROUTE n, 7, 1⟩
@[inherit_doc A.EVT_ROUTE] abbrev F.EVT_ROUTE_INTN (n : Nat) : Fld := ⟨A.EVT_ROUTE n, 6, 1⟩
@[inherit_doc A.EVT_ROUTE] abbrev F.EVT_ROUTE_MSIX (n : Nat) : Fld := ⟨A.EVT_ROUTE n, 5, 1⟩
@[inherit_doc A.EVT_ROUTE] abbrev F.EVT_ROUTE_VECTOR (n : Nat) : Fld := ⟨A.EVT_ROUTE n, 0, 5⟩
/-- Table 17-8. -/
def A.DEV_OUI : Nat := 0x000004
@[inherit_doc A.DEV_OUI] abbrev F.DEV_OUI_OUI : Fld := ⟨A.DEV_OUI, 0, 24⟩
/-- Table 2-15. -/
def A.DEV_FOLD_STAGE (n : Nat) : Nat := 0x040000 + 0x4 * (n % 65536)
@[inherit_doc A.DEV_FOLD_STAGE] abbrev F.DEV_FOLD_STAGE_WORD (n : Nat) : Fld := ⟨A.DEV_FOLD_STAGE n, 0, 32⟩
/-- Table 3-16. -/
def A.PORT_TONE (n k : Nat) : Nat := 0x410000 + 0x20000 * (n % 16) + 0x4 * (k % 16384)
@[inherit_doc A.PORT_TONE] abbrev F.PORT_TONE_WORD (n k : Nat) : Fld := ⟨A.PORT_TONE n k, 0, 32⟩
/-- Table 4-14. -/
def A.PORT_SNR (n k : Nat) : Nat := 0x408000 + 0x20000 * (n % 16) + 0x4 * (k % 1024)
@[inherit_doc A.PORT_SNR] abbrev F.PORT_SNR_WORD (n k : Nat) : Fld := ⟨A.PORT_SNR n k, 0, 32⟩
/-- Table 10-6. -/
def A.MEM_FREEZE_REC (n k j : Nat) : Nat := 0x801000 + 0x10000 * (n % 16) + 0x400 * (k % 2) + 0x4 * (j % 160)
@[inherit_doc A.MEM_FREEZE_REC] abbrev F.MEM_FREEZE_REC_WORD (n k j : Nat) : Fld := ⟨A.MEM_FREEZE_REC n k j, 0, 32⟩
/-- Table 6-4. -/
def A.PISTE_ENTRY (n k : Nat) : Nat := 0xc80000 + 0x10 * (n % 32768) + 0x4 * (k % 4)
@[inherit_doc A.PISTE_ENTRY] abbrev F.PISTE_ENTRY_WORD (n k : Nat) : Fld := ⟨A.PISTE_ENTRY n k, 0, 32⟩
/-- Table 11-14. -/
def A.MSIX_TABLE (n k : Nat) : Nat := 0x010000 + 0x10 * (n % 32) + 0x4 * (k % 3)
@[inherit_doc A.MSIX_TABLE] abbrev F.MSIX_TABLE_WORD (n k : Nat) : Fld := ⟨A.MSIX_TABLE n k, 0, 32⟩
/-- Table 11-14. -/
def A.MSIX_PBA (n : Nat) : Nat := 0x011000 + 0x4 * (n % 1)
@[inherit_doc A.MSIX_PBA] abbrev F.MSIX_PBA_WORD (n : Nat) : Fld := ⟨A.MSIX_PBA n, 0, 32⟩
/-- Table 11-3. -/
def A.MSIX_VCTRL (n : Nat) : Nat := 0x01000c + 0x10 * (n % 32)
@[inherit_doc A.MSIX_VCTRL] abbrev F.MSIX_VCTRL_MASK (n : Nat) : Fld := ⟨A.MSIX_VCTRL n, 0, 1⟩

end Sys2Proof.Machine
end

