-- ==== Sys2Proof/Machine/Tbl.lean ====
section
/-!
DEFINITION. Sparse tables in one canonical form: a list of key and value pairs, keys strictly rising, no value equal to
what an unlisted key reads as. Equal tables are equal lists.
-/
namespace Sys2Proof.Machine

/-- A sparse table of values by number. What an unlisted key reads as is given where the table is read and written. -/
abbrev Tbl (α : Type) := List (Nat × α)

/-- The value at key `k`; `d` where the key is not listed. -/
def Tbl.get {α : Type} (t : Tbl α) (d : α) (k : Nat) : α :=
  match t with
  | [] => d
  | (j, v) :: r => if j = k then v else Tbl.get r d k

/-- The table without key `k`. -/
def Tbl.drop {α : Type} (t : Tbl α) (k : Nat) : Tbl α :=
  match t with
  | [] => []
  | (j, v) :: r => if j = k then Tbl.drop r k else (j, v) :: Tbl.drop r k

/-- The table with an entry for the key `k`, which it does not list, put in its place. -/
def Tbl.place {α : Type} (t : Tbl α) (k : Nat) (v : α) : Tbl α :=
  match t with
  | [] => [(k, v)]
  | (j, w) :: r => if k < j then (k, v) :: (j, w) :: r else (j, w) :: Tbl.place r k v

/-- The table that reads `v` at key `k`, where an unlisted key reads `d`. -/
def Tbl.set {α : Type} [DecidableEq α] (t : Tbl α) (d : α) (k : Nat) (v : α) : Tbl α :=
  if v = d then Tbl.drop t k else Tbl.place (Tbl.drop t k) k v

/-- The canonical form, with every key at least `lo`: keys strictly rising, and no value equal to what an unlisted key
reads as, which `d` gives. -/
def Tbl.wfFrom {α : Type} [DecidableEq α] (d : Nat → α) : Nat → Tbl α → Bool
  | _, [] => true
  | lo, (j, v) :: r => decide (lo ≤ j) && decide (v ≠ d j) && Tbl.wfFrom d (j + 1) r

/-- The canonical form of a table whose unlisted keys read as `d` says. -/
def Tbl.wf {α : Type} [DecidableEq α] (d : Nat → α) (t : Tbl α) : Bool := Tbl.wfFrom d 0 t

/-- The entries whose key satisfies `p`. -/
def Tbl.keep {α : Type} (t : Tbl α) (p : Nat → Bool) : Tbl α := t.filter fun e => p e.1

end Sys2Proof.Machine
end

