-- ==== Sys2Proof/Machine/State.lean ====
section
/-!
DEFINITION. The state of the device: plain data, holding everything the spec gives it. The BAR0 registers (`regs`) are
the one home of every value that BAR0 shows; the other fields hold what no register shows.
-/
namespace Sys2Proof.Machine

/-- The two parts (Table 0-1). No command changes the part. -/
inductive Part where
  | xs716 | xs708
  deriving DecidableEq, Repr

/-- The point of a tone in a symbol that the device sends (R44, R45): the levels on the I and Q axes, the mean square of the
constellation's levels in thirds, by which the point is scaled to unit average energy, and the fine gain in 0.1 dB. -/
structure Pt where
  tone : Nat := 0
  i    : Int := 0
  q    : Int := 0
  ms3  : Nat := 3
  gain : Int := 0
  deriving DecidableEq, Repr

/-- What the device puts on its lines, lanes, pins and host ports; newest first in `State.out`. -/
inductive Output where
  /-- A BAR0 read completes with this word (R7). -/
  | barRead (off : Nat) (val : Word)
  /-- A BAR access completes as Unsupported Request (R304). -/
  | unsupportedRequest
  /-- A BAR2 read completes with these bytes, poisoned or not (R308). -/
  | bar2Read (bytes : Bytes) (poisoned : Bool)
  /-- An MDIO read returns this value (R319). -/
  | mdioRead (val : BitVec 16)
  /-- An MSI-X message of a vector: address and data of its table entry (R317). -/
  | msix (vector : Nat) (addr : Nat) (data : Word)
  /-- A request's answer (R263): requester, outcome, and for a read the bytes of the unit. -/
  | memAnswer (req : Nat) (outcome : Nat) (bytes : Bytes)
  /-- A frame to the host MAC of lane `lane` (R297), errored or not. -/
  | hostFrame (lane : Nat) (bytes : Bytes) (errored : Bool)
  /-- A PFC or PAUSE frame to the host MAC (R140): the time it carries. -/
  | flowFrame (lane : Nat) (pfc : Bool) (prio : Nat) (quanta : Nat)
  /-- A codeword on the line (R53, R58): the lot's header, and the 17,280 bits of the codeword, u0 in bit 0. -/
  | codeword (port : Nat) (header : Bytes) (word : BitVec 17280)
  /-- A reverse word on the ack tones (R62). -/
  | reverse (port : Nat) (word : BitVec 32)
  /-- A symbol on the line, before precoding: superframe, number in it, the points of the tones that are not silent in ascending
  order, and what the precoder takes off (R80): for other active members of the group, their port, and for each tone the
  coefficient by which their point on it is multiplied, in units of 2^-15. -/
  | symbol (port : Nat) (sf sym : Nat) (points : List Pt) (pre : List (Nat × List (Nat × Int × Int)))
  /-- The pages of Clause 98 negotiation (R92, R93, R96): the IEEE modes of the base page in MODES order, its master-slave
  configuration (none automatic, some whether it forces SLAVE), and bits D16 to D47 of the message page and of the unformatted
  page that follows it, where they are sent. -/
  | anPages (port : Nat) (tech : Nat) (force : Option Bool) (msg : Option (Nat × Nat))
  /-- The sync symbol of superframe `sf` (R44): the Walsh sign is negative, the sync is flagged. -/
  | sync (port : Nat) (sf : Nat) (negative flagged : Bool)
  /-- LINK_DOWN, sent in three consecutive superframes before the pair falls silent (R107). -/
  | notice (port : Nat) (cause : Nat) (warm : Bool)
  /-- A burst on a Traverse line (R190, R191): its header, and its payload as coded with CRC-32 and parity. -/
  | burst (port : Nat) (header : Bytes) (payload : Bytes)
  /-- A bell of a group code (R208). -/
  | bell (port : Nat) (group : Nat)
  /-- Sweeps of a port (R213), so many, and by how many dB below full amplitude (R217). -/
  | sweep (port : Nat) (count : Nat) (down : Nat)
  /-- A legacy mode's line carries this frame. -/
  | lineFrame (port : Nat) (bytes : Bytes) (errored : Bool)
  deriving DecidableEq, Repr

/-- The MDIO interface (R319 to R321): the high halves latched by reads of low halves, by port address and register, and the
values last written to the IEEE registers of a port. -/
structure Mdio where
  latch : Tbl (Option Nat) := []
  regs  : Tbl (Option Nat) := []
  deriving DecidableEq, Repr

/-- What a mailbox slot holds beside CMD_SLOT_STATE (R310, R312): the parameter words copied at submission, the role and key slot of
the session then in force, its place in the order of submission, whether its effect has begun, and working values of a
command whose effect runs over several steps. -/
structure Slot where
  params : List Word := []
  role   : Nat := 0
  keySlot : Nat := 0
  order  : Nat := 0
  begun  : Bool := false
  work   : List Nat := []
  deriving DecidableEq, Repr

/-- The mailbox beside its registers: the slots, and the number of submissions so far. -/
structure Box where
  slots : Tbl Slot := []
  count : Nat := 0
  deriving DecidableEq, Repr

/-- The running fold: the body of each section in force, by section identifier, and the CRC the image's directory gave
it (R35). An empty fold is the blank fold (R33). -/
structure Fold where
  sections : Tbl Bytes := []
  crcs     : Tbl Nat := []
  deriving DecidableEq, Repr

/-- The NV store beside what registers show of it. -/
structure Nv where
  /-- Fold image slots A and B (R30); empty where nothing valid was ever written. -/
  foldSlots : Tbl Bytes := []
  /-- Firmware slots A and B; for a slot that has passed the checks of FW_STAGE (R389), the version it holds. -/
  fwSlots   : Tbl Bytes := []
  fwVer     : Tbl (Option Nat) := []
  /-- The firmware commit word's slot is DEV_FW_STATUS.COMMITTED_SLOT; whether the word is valid. -/
  fwCommitted : Bool := true
  /-- Keys: operator slots 0-7 at 0-7, installer slots 0-7 at 8-15 (R380); 64 bytes each, x then y. -/
  keys      : Tbl Bytes := []
  makerKey  : Bytes := []
  /-- The private half of the identity key (R390). -/
  idPriv    : Nat := 1
  /-- Power-on resets since manufacture (Table 15-5 EPOCH). -/
  epoch     : Nat := 1
  /-- Repair records: the rows spared of each bank (16 x pseudo-channel + bank), newest first (R278). -/
  repair    : Tbl (List (Nat × Nat)) := []
  /-- Retired channels (R287), as a mask, and those that MEM_REPAIR OP 2 returns at the next structural apply. -/
  retired   : Nat := 0
  returning : Nat := 0
  /-- The training record (R282): write base x 256 + read base of lane b of pseudo-channel pc, at 13 pc + b. -/
  train     : Tbl Nat := []
  /-- Route table slots A and B (R181), and the THRESH of the baselines (R221), at 2 x port + kind. -/
  piste     : Tbl Bytes := []
  thresh    : Tbl Nat := []
  deriving DecidableEq, Repr

/-- The always-on domain beside what registers show of it. -/
structure Ao where
  /-- DEV_TIME in tenths of a nanosecond (R356). -/
  time10  : Nat := 0
  /-- Mailbox slot generations (R311). -/
  gens    : Tbl Nat := []
  /-- The end of the lockout in DEV_TIME (R384). -/
  lockEnd : Nat := 0
  /-- The MEMMAP section and the in-service list of the fold that ran before the reset (R265). -/
  memmap  : Bytes := []
  pcList  : List Nat := []
  /-- When PWR_TIMER was last written; it reads the seconds left of the value written. -/
  timerAt : Nat := 0
  deriving DecidableEq, Repr

/-- The security block beside its registers (R381 to R386). -/
structure Sec where
  /-- A challenge is drawn and not void. -/
  chal     : Bool := false
  chalTime : Nat := 0
  /-- The end of the open session's lifetime, in DEV_TIME. -/
  sessEnd  : Nat := 0
  sessLife : Nat := 0
  /-- BAR0 blocks whose first RWI and first RWM write of this session has been logged. -/
  rwiSeen  : List Nat := []
  rwmSeen  : List Nat := []
  /-- A LC_ADVANCE completion has been posted and its reset is due (R387). -/
  lcReset  : Bool := false
  deriving DecidableEq, Repr

/-- The event block beside its registers: messages owed by vector (R414), and the herder's private copy (R416). -/
structure Evt where
  owed   : Nat := 0
  herder : Nat := 0
  deriving DecidableEq, Repr

/-- The PCI Express function (R304, R309): link up, D3hot, MSI-X enable, function mask, and PERST_N held. -/
structure Pci where
  link     : Bool := true
  d3hot    : Bool := false
  msixEn   : Bool := false
  funcMask : Bool := false
  perst    : Bool := false
  deriving DecidableEq, Repr

/-- A request in a pseudo-channel's queue (R242): requester, bank, row, unit, write, byte enables, data, and the page
policy of its partition with its open-page hint (R245). -/
structure MemReq where
  req  : Nat := 0
  bank : Nat := 0
  row  : Nat := 0
  unit : Nat := 0
  wr   : Bool := false
  en   : Nat := 0
  data : Bytes := []
  page : Nat := 1
  hint : Bool := false
  deriving DecidableEq, Repr

/-- A command the controller issued, for the freeze record (Table 10-5). -/
structure MemCmd where
  time : Nat := 0
  cmd  : Nat := 0
  bank : Nat := 0
  unit : Nat := 0
  req  : Nat := 0
  outc : Nat := 0
  row  : Nat := 0
  synd : Nat := 0
  deriving DecidableEq, Repr

/-- A pseudo-channel controller beside its registers (R244, R268 to R276, R254). -/
structure Pch where
  /-- Requests waiting, oldest first. -/
  queue     : List MemReq := []
  /-- Commands issued since it last started or left self-refresh, newest first, at most 32. -/
  hist      : List MemCmd := []
  powerDown : Bool := false
  /-- The gleaner's place in its lap: 16 x row + bank; when the lap began; whether it is a fill lap. -/
  gleanPos  : Nat := 0
  lapStart  : Nat := 0
  fillLap   : Bool := true
  /-- This lap: MEM_SCRUB_UE raised, FAB_LAP_ALARM raised, banks that showed an error. -/
  lapUe     : Bool := false
  lapAlarm  : Bool := false
  lapErr    : Nat := 0
  /-- Rows (32768 x bank + row) in which errors were corrected, in this lap and in the one before; rows due for
  sparing (R271); corrected units of this lap by TSV. -/
  corrNow   : List Nat := []
  corrPrev  : List Nat := []
  spareDue  : List Nat := []
  tsvHits   : Tbl Nat := []
  /-- Units (16 x (32768 x bank + row) + unit) to which a flip was applied since their last write. -/
  flipped   : List Nat := []
  /-- TSVs due for steering (R271), and when the gleaner last started a row (R268). -/
  tsvDue    : List Nat := []
  rowAt     : Nat := 0
  /-- A retrain is in progress (R285), and the mailbox slot of a release in progress plus 1 (Table 10-6). -/
  retrain   : Bool := false
  deriving DecidableEq, Repr

/-- A bank (R246, R248, R251, R264): open row, predictor and last row, refresh and neighbour refresh, tally table,
fill state with its always-on FILLED flag, and the row repairs in force. -/
structure Bank where
  openRow  : Option Nat := none
  pred     : Nat := 2
  lastRow  : Option Nat := none
  refNext  : Nat := 0
  postpone : Nat := 0
  pulled   : Nat := 0
  catchup  : Nat := 0
  nref     : List Nat := []
  /-- Tally entries (row, count, base), lowest entry first, at most 24. -/
  tally    : List (Nat × Nat × Nat) := []
  water    : Nat := 0
  fillMap  : List Nat := []
  filled   : Bool := false
  spares   : List (Nat × Nat) := []
  deriving DecidableEq, Repr

/-- The herder (R15, R324): running or not, held by a debugger, a debugger attached, restarting after its watchdog. -/
structure Herder where
  running  : Bool := true
  halted   : Bool := false
  attached : Bool := false
  restart  : Bool := false
  deriving DecidableEq, Repr

/-- Power states beside their registers (R327 to R335): the state in force (0 Run, 1 Drowse, 2 Pen, 3 Winter), an entry in
progress (its target and mailbox slot, how far R328 has come), the latched wake, and the return from Pen in progress. -/
structure Pwr where
  mode      : Nat := 0
  /-- The last step of R328 that has ended: 0 no entry, 2 draining, 4 gates closing, 6 the completion is posted. -/
  entry     : Nat := 0
  target    : Nat := 0
  slot      : Nat := 0
  winterAfter : Nat := 0
  drained   : Nat := 0
  discarded : Nat := 0
  /-- Gates that the entry has closed, in the order of step 5, and when the state in force was entered. -/
  closed    : Nat := 0
  since     : Nat := 0
  /-- The latched wake: source and port. -/
  latched   : Option (Nat × Nat) := none
  /-- Odometer edges since entry (Table 12-4). -/
  edges     : Nat := 0
  /-- The 50 us least off time of PWR_EN_CORE runs (R425), and a wake waits for its end. -/
  offHold   : Bool := false
  /-- Steps of Table 12-5 that have begun, with their times, and that have ended, in a return from Pen. -/
  begun     : List (Nat × Nat) := []
  ended     : List Nat := []
  /-- Pen entries (word 1 of a canary), and the pseudo-channels whose service rows hold the canaries of the last (R290). -/
  penCount  : Nat := 0
  canaries  : List Nat := []
  /-- Why the device is held: 0 not held; 1 safe state after a failed BIST (R365); 2 reset held for LREFCLK (R352);
  3 thermal trip (R345); 4 start-up waiting for LREFCLK (R362). -/
  held      : Nat := 0
  /-- PWR_VID waits 50 us before a raise of the level (R326): the level coming. -/
  raise     : Option Nat := none
  /-- A clock gate request outstanding (R355): the block's code of Table 12-3. -/
  gate      : Option Nat := none
  deriving DecidableEq, Repr

/-- The output pins the device drives: bypass outputs held (mask), PWR_VID, PWR_EN_CORE, PWR_EN_STACK, BIST_FAIL_N
asserted. -/
structure Pins where
  byp      : Nat := 0
  vid      : Nat := 0
  enCore   : Bool := true
  enStack  : Bool := true
  bistFail : Bool := false
  deriving DecidableEq, Repr

/-- The census beside its registers (R406 to R408): the 48-bit counters, samples by channel newest first, flags of the
next dump, and when CEN_SKIP was last raised. -/
structure Cen where
  ctr      : Tbl Nat := []
  samples  : Tbl (List Nat) := []
  sampled  : Tbl Nat := []
  overrun  : Tbl Bool := []
  gap      : Bool := false
  first    : Bool := true
  config   : Bool := false
  seq      : Nat := 0
  lastSkip : Option Nat := none
  /-- DEV_TIME, in microseconds, up to which the microseconds have been taken into their counters. -/
  usAt     : Nat := 0
  deriving DecidableEq, Repr

/-- A ring's writer (R397 to R400): recording, the byte within the current chunk, frames not admitted since the last
record, and for each chunk the time of its last record and the SEQ of its first. -/
structure Ring where
  on     : Bool := false
  pos    : Nat := 0
  missed : Nat := 0
  chunks : Tbl (Nat × Nat) := []
  deriving DecidableEq, Repr

/-- The evidence block beside its registers: the rings, the ends of the stretches of segments in POST (time, and
position where POST_M is not 0), the budget of R399, the EVT_TRIG pin, and whether a debug unlock taints records. -/
structure Evid where
  rings     : Tbl Ring := []
  postTime  : Tbl Nat := []
  postPos   : Tbl (Option Int) := []
  bucket    : Nat := 262144
  bucketAt  : Nat := 0
  budgetAt  : Option Nat := none
  pinReady  : Bool := true
  taint     : Bool := false
  deriving DecidableEq, Repr

/-- A frame that waits, of a number of its own: its bytes, whether it ended cut short, how many of its bytes have been put into
lots, and where it stands in the rate adaptation buffer in the stack, none where it passes cut-through (R19). -/
structure Frame where
  id      : Nat := 0
  bytes   : Bytes := []
  aborted : Bool := false
  done    : Nat := 0
  at_     : Option Nat := none
  deriving DecidableEq, Repr

/-- Where a lot's payload lies in the PADDOCK partition: its first `n1` bytes at `a1`, the rest at `a2` (R120). -/
structure Place where
  a1 : Nat := 0
  n1 : Nat := 0
  a2 : Nat := 0
  deriving DecidableEq, Repr

/-- A lot of a transmit window (R120, R126): its SEQ, where its payload lies, the frames with bytes in it, and the frames
that end in it. -/
structure TxLot where
  seq    : Nat := 0
  place  : Place := {}
  frames : List Nat := []
  ends   : List Nat := []
  /-- Voided and not yet seen released (R132). -/
  void   : Bool := false
  deriving DecidableEq, Repr

/-- A lot of a reorder area: its SEQ, where its payload lies, and its FPTR. -/
structure RxLot where
  seq   : Nat := 0
  place : Place := {}
  fptr : Nat := 0xFFFF
  deriving DecidableEq, Repr

/-- A port's paddock engine beside its registers (chapter 5). -/
structure Pad where
  /-- Grains of the transmit window, the reorder area and the rate adaptation buffer, in order (R120, R122). -/
  txGrains  : List Nat := []
  rxGrains  : List Nat := []
  bufGrains : List Nat := []
  /-- The boost in force, in MiB (R145). -/
  boost     : Nat := 0
  /-- Grains at the ends of the two paddocks that a boost added. -/
  extraTx   : Nat := 0
  extraRx   : Nat := 0
  /-- Lots not yet released, oldest first; SEQs in the resend queue (R130). -/
  tx        : List TxLot := []
  resend    : List Nat := []
  /-- Host frames not yet wholly put into lots, oldest first, and the number the next frame takes. -/
  staged    : List Frame := []
  nextId    : Nat := 0
  /-- The reorder area's lots, ascending; the highest SEQ received; SEQs asked for and when (R128). -/
  rx        : List RxLot := []
  high      : Nat := 0xFFFFFF
  asked     : List (Nat × Nat) := []
  /-- Void lots not held (R132); lots voided while the link was down, to be named in PAD_VOID. -/
  voided    : List Nat := []
  voidDue   : List Nat := []
  /-- Where delivery stands in the lot after CUM, the frame in progress, whether delivery looks for an FPTR (R60), and whether
  the frame whose bytes it passes over on the way has been counted. -/
  rxPos     : Nat := 0
  rxFrame   : Option Bytes := none
  hunt      : Bool := false
  huntHad   : Bool := false
  /-- On-die staging (R123): received lots that wait for the stack (SEQ, FPTR, payload), and bytes of host frames that do. -/
  rxStage   : List (Nat × Nat × Bytes) := []
  hostStage : List Frame := []
  /-- The partner's capacities from its last PAD_PARAMS (R133), and its PAD_RESUME (R137): CUM, highest SEQ, KEPT. -/
  partnerRx : Nat := 0
  partnerTx : Nat := 0
  resume    : Option (Nat × Nat × Bool) := none
  resumeAcked : Bool := false
  /-- A drain: when it ends, the cause it takes the link down with, the mailbox slot of its PORT_DISABLE plus 1, frames all released during it, whether a
  structural apply holds XOFF after it, and whether ENABLE was written 1 meanwhile (R146 to R148). -/
  drainEnd  : Option Nat := none
  drainCause : Nat := 0
  drainSlot : Nat := 0
  drainOk   : Nat := 0
  drainHold : Bool := false
  reenable  : Bool := false
  /-- The host's PAUSE runs out at this time (R141); when the last XOFF frame went out (R140). -/
  pauseEnd  : Option Nat := none
  xoffAt    : Nat := 0
  /-- A rate adaptation buffer: frames toward the line and toward the host (R143), and the byte of its grains at which the next frame
  is written. -/
  toLine    : List Frame := []
  toHost    : List Frame := []
  bufPos    : Nat := 0
  deriving DecidableEq, Repr

/-- A message of the embedded operations channel (Table 4-4). -/
structure Eoc where
  typ   : Nat := 0
  seq   : Nat := 0
  noack : Bool := false
  body  : Bytes := []
  deriving DecidableEq, Repr

/-- A message not yet acknowledged: when it was last sent, and how often it was resent (R107). -/
structure Unacked where
  msg     : Eoc := {}
  sentAt  : Nat := 0
  resends : Nat := 0
  deriving DecidableEq, Repr

/-- A loading change pending in one direction (R66 to R69). KIND 0 bit swap, 1 profile swap, 2 tone cap. -/
structure Change where
  kind      : Nat := 0
  /-- The superframe S. -/
  sf        : Nat := 0
  arg       : Nat := 0
  /-- The direction: false the one this end transmits. -/
  rxDir     : Bool := false
  /-- This end announced it; its CONFIRM was received or sent. -/
  mine      : Bool := false
  confirmed : Bool := false
  /-- The entries of a bit swap (Table 3-8), and the tone count of a tone cap. -/
  entries   : List Nat := []
  cap       : Nat := 0
  deriving DecidableEq, Repr

/-- What an erased sync leaves to be resolved by a later PTAG (R70): the loading before S and the one applied. -/
structure Resolve where
  sf      : Nat := 0
  oldProf : Nat := 0
  oldGen  : Nat := 0
  oldCap  : Nat := 0
  oldEnts : List Nat := []
  newProf : Nat := 0
  newGen  : Nat := 0
  /-- The slices whose capacity counted, and Custom definitions, before S. -/
  oldSlices : Nat := 0
  oldCust : List Nat := []
  deriving DecidableEq, Repr

/-- The stored state of a link (chapter 4, Warm restart): role, tag, partner's serial, GENs, and whether the vector
group's coefficients for the port are held. The profiles stand in PORT_TONE. -/
structure Stored where
  slave  : Bool := false
  tag    : Nat := 0
  serial : Nat := 0
  genTx  : Nat := 0
  genRx  : Nat := 0
  coeffs : Bool := false
  fextAt : List Nat := []
  /-- The mode (6 to 8), whether paddock retransmission ran, the superframe count, and when it was kept. -/
  mode   : Nat := 7
  paddock : Bool := false
  count  : Nat := 0
  at_    : Nat := 0
  deriving DecidableEq, Repr

/-- A port's line beside its registers (chapters 3 and 4). -/
structure Line where
  /-- Data symbols since the last ACK; CUM has advanced since the last ACK; an ACK is owed (R127). -/
  ackGap    : Nat := 0
  cumAdv    : Bool := false
  ackDue    : Bool := false
  /-- Reverse words owed: NAK payloads, SWAP payloads, and the bytes of the EOC stream (R64, R106). -/
  nakQ      : List Nat := []
  swapQ     : List Nat := []
  eocQ      : Bytes := []
  /-- The receive side of the EOC stream: bytes of the message under way, and zeros seen while resynchronising. -/
  eocRx     : Bytes := []
  eocSkip   : Option Nat := none
  /-- Acknowledged messages: next SEQ to send, sent and not acknowledged, waiting, next SEQ expected (R107). -/
  eocSeq    : Nat := 0
  unacked   : List Unacked := []
  waiting   : List Eoc := []
  eocExp    : Nat := 0
  /-- Loading changes pending, and CANCEL words still to send by superframe (R66 to R68). -/
  pend      : List Change := []
  cancels   : List (Nat × Nat) := []
  /-- Changes that lost under R16, to be announced again. -/
  again     : List Change := []
  /-- The last superframe at which a bit swap took effect, by direction; LOADING_UPDATE sent and received: ID, entries. -/
  bsTx      : Option Nat := none
  bsRx      : Option Nat := none
  updSent   : Option (Nat × List Nat) := none
  updRcvd   : Option (Nat × List Nat) := none
  updNext   : Nat := 0
  /-- CAP_UPDATE: sent and acknowledged, received. -/
  capSent   : Option (Nat × Bool) := none
  capRcvd   : Option Nat := none
  /-- Tone cap in force beyond what slices allow, in the transmit and the receive direction; 4084 where none. The slices whose
  capacity counts; 0 for the fold's grant. -/
  toneCap   : Nat := 4084
  toneCapRx : Nat := 4084
  slices    : Nat := 0
  /-- Custom definitions (8 words of A, 8 of B): the partner's last, this end's last acknowledged, and those in force by
  direction, transmit then receive. -/
  custPart  : List Nat := []
  custAck   : List Nat := []
  custTx    : List Nat := []
  custRx    : List Nat := []
  resolve   : Option Resolve := none
  /-- Symbol number in the superframe; impulse detector: symbols without erasure, an event under way, its start
  (superframe, symbol, position, whether R174 lets learning use it) and length in symbols. -/
  sym       : Nat := 0
  clean     : Nat := 255
  /-- The long-term average of the mean squared decision error of each band, in 0.5 dB steps (R84). -/
  avg       : List Nat := []
  /-- Bits of the codeword stream not yet mapped, first bit lowest, and their number (R61); received bits of codewords not yet
  decoded, as runs: the superframe they were mapped in, how many, and whether they are erased (R84). -/
  txBits    : Nat := 0
  txLen     : Nat := 0
  rxRuns    : List (Nat × Nat × Bool) := []
  /-- The symbol (256 x superframe + number) from which the equaliser, the echo canceller and the NEXT canceller last adapted, and
  the one that last moved the timing loop's frequency estimate (R77, R79, R86). -/
  adaptAt   : Nat := 0
  loopAt    : Nat := 0
  /-- FEXT coefficients of this port's precoder (R80, R81): for each of the 64 sets of tones t mod 64, the superframe whose reports
  last updated them plus 1, 0 for never; and the superframes of the run of four that have been reported. -/
  fextAt    : List Nat := []
  vecRun    : List Nat := []
  /-- A join sweep (R82): the superframe in which it began. The port leaves its group at the next superframe boundary (R83). -/
  joinAt    : Option Nat := none
  leaving   : Bool := false
  event     : Option (Nat × Nat × Int × Bool) := none
  eventLen  : Nat := 0
  /-- Erasure records handed to the herder: start superframe, symbol, length in symbols, position (R85), and whether
  R174 lets learning use it. -/
  records   : List (Nat × Nat × Nat × Int × Bool) := []
  /-- PISTE_LEAD: one has arrived since service, sends left of the three, and leading given up until the next (R170). -/
  leadSeen  : Bool := false
  leadLeft  : Nat := 0
  leadOff   : Bool := false
  /-- The link tag, the service S announced, and the codeword stream running. -/
  tag       : Nat := 0
  service   : Option Nat := none
  streaming : Bool := false
  /-- Negotiation: the role seed, the partner's ability word, when negotiation ended, the roles and options resolved. -/
  seed      : Nat := 0
  ability   : Nat := 0
  anDone    : Nat := 0
  /-- Since when negotiation has run without completing since the port was last up or enabled; none once it has completed (R198). -/
  anSince   : Option Nat := none
  paddock   : Bool := false
  lpi       : Bool := false
  /-- Low-power idle (R116): the S of an LPI_ENTER, whether both ends hold it, a wake under way, superframes in which both directions carried only
  idle lots, and whether a lot with frame bytes went either way in this superframe. -/
  lpiAt     : Option Nat := none
  lpiConf   : Bool := false
  lpiOut    : Bool := false
  idle      : Nat := 0
  busy      : Bool := false
  /-- Training: when it started, the nonce sent, the partner's IDENT body and proof result, rate caps, loadings sent. -/
  trainAt   : Nat := 0
  /-- The slave is locked and sends sync symbols; the master has heard the slave's (R98). -/
  locked    : Bool := false
  nonce     : Bytes := []
  ident     : Bytes := []
  proofOk   : Option Bool := none
  rateCap   : Nat := 0
  padParams : Bool := false
  /-- Consecutive cold trainings failed in ILM (R95); when ILM was suppressed. -/
  fails     : Nat := 0
  suppressAt : Nat := 0
  stored    : Option Stored := none
  /-- The end of a warm hold; this end's WARM_CHECK sent. -/
  holdEnd   : Option Nat := none
  warmAt    : Nat := 0
  warmChecked : Bool := false
  lostLots  : Nat := 0
  /-- When the last sync symbol came without erasure; since when RX_AVG has been below MARGIN_TGT - 3 dB, below
  MARGIN_DOWN, and the echo reduction below 70 dB. -/
  lastSync  : Nat := 0
  lowAt     : Option Nat := none
  downAt    : Option Nat := none
  echoAt    : Option Nat := none
  /-- The port awaits the drover's token since this time (R339). -/
  tokenAt   : Option Nat := none
  /-- The mode resolved or forced, as MODE of PORT_LINK_STATUS; 9 for a Traverse search. This end is timing slave. -/
  target    : Nat := 0
  slave     : Bool := false
  /-- This end's own IDENT body. -/
  identOwn  : Bytes := []
  /-- The port starts again when the herder runs (R15), or when clock hold ends (R353). -/
  owed      : Bool := false
  deriving DecidableEq, Repr

/-- A sequenced Traverse burst not yet acknowledged (R205): its type, SEQ, payload, whether it has gone out, how often it was
resent, and the frames with bytes in it. -/
structure Burst where
  typ     : Nat := 0
  seq     : Nat := 0
  payload : Bytes := []
  sent    : Bool := false
  resends : Nat := 0
  frames  : List Nat := []
  deriving DecidableEq, Repr

/-- A reception under way (R193 to R197): the chirp length's number (0 for 2.56 us, 1 for 0.64 us, 2 for 0.16 us), the mean
peak in 0.5 dB steps, the interval from the end of this end's last passing burst where this is the first preamble since, in 0.1 ns
(R200), and the fast AGC's gain in 0.5 dB steps with whether it is frozen (R193; without a reception it stands at the highest, 48 dB). -/
structure Rcpt where
  len    : Nat := 0
  peak   : Nat := 0
  delay  : Option Nat := none
  gain   : Nat := 96
  frozen : Bool := false
  deriving DecidableEq, Repr

/-- A port's Traverse link beside its registers (chapter 7). -/
structure Trv where
  /-- LINK_TAG; what the end awaits: 0 nothing, 1 a LINKACC, 2 a LINKCFM; the end of its own last burst. -/
  tag      : Nat := 0
  awaits   : Nat := 0
  ownEnd   : Nat := 0
  /-- The next preamble of the partner measures the span (R200); the last span measured, in 0.25 m. -/
  measures : Bool := false
  span     : Nat := 0
  /-- When a preamble was last heard, and the last whole header with the tag (R204, R207). -/
  heardAt  : Nat := 0
  wholeAt  : Nat := 0
  /-- Sending: next SEQ, bursts held, the partner's acknowledgement. -/
  nextSeq  : Nat := 0
  held     : List Burst := []
  /-- Receiving: the SEQ with every earlier one received, bursts received after it, frame in progress, looking for SOF. -/
  ackSeq   : Nat := 0xFF
  got      : List (Nat × Bytes) := []
  frame    : Option Bytes := none
  hunt     : Bool := false
  /-- Codes: requested by this end, by the partner; whole bursts in a row that support a higher code. -/
  reqRx    : Nat := 0
  reqTx    : Nat := 0
  streak   : Nat := 0
  /-- Identity: the nonce and the IDENT body sent, this end has judged the partner's proof. -/
  nonce    : Bytes := []
  own      : Bytes := []
  judged   : Bool := false
  /-- When this end's turn starts; the reception under way. -/
  turnAt   : Nat := 0
  rcpt     : Option Rcpt := none
  /-- When the search began; the next LINKREQ's time. -/
  since    : Nat := 0
  retryAt  : Nat := 0
  /-- The last bell of the running sequence. -/
  bellAt   : Nat := 0
  deriving DecidableEq, Repr

/-- The drover beside its registers (R337 to R342): units moved by the stack in this period, times of the cold starts of the
last 40 ms, the steps of R340 in force, newest first (port and the count before it), periods under the threshold, and a
lower level that waits for its caps. -/
structure Drv where
  moved  : Nat := 0
  starts : List Nat := []
  steps  : List (Nat × Nat) := []
  under  : Nat := 0
  lower  : Option Nat := none
  deriving DecidableEq, Repr

/-- The odometer and the position beside their registers (R154 to R162). Distances are in 2^-24 mm. -/
structure Pos where
  frac     : Nat := 0
  /-- The inputs' levels, the times of their last rising edges, and of the last counted edge. -/
  a        : Bool := false
  b        : Bool := false
  riseA    : Option Nat := none
  riseB    : Option Nat := none
  edgeAt   : Nat := 0
  /-- The times of the last two edges that are no error, newest first, from which the speed is estimated (R158). -/
  edges    : List Nat := []
  /-- Travel counted by the odometer, and its values over the last second, newest first (time, travel). -/
  odo      : Int := 0
  track    : List (Nat × Int) := []
  /-- The furthest position (mm) in the direction of DIR since it last changed; the car has moved since reset. -/
  far      : Int := 0
  /-- Where the counter began to move on in the direction of DIR after a fix turned ORIENT. -/
  turnAt   : Int := 0
  moved    : Bool := false
  faultAt  : Option Nat := none
  /-- The last speed estimates, newest first, at most 101; the time of the last tick. -/
  speeds   : List Nat := []
  tickAt   : Nat := 0
  /-- The time to which the position has been extrapolated (R160, R161). -/
  exAt     : Nat := 0
  /-- Hold: the speed held, when it began, and how many ticks the measured speed has stayed close. -/
  heldMms  : Nat := 0
  holdAt   : Nat := 0
  near     : Nat := 0
  /-- The last fix: its time, and its speed along the route in mm/s. -/
  fixAt    : Nat := 0
  fixMms   : Int := 0
  /-- STOPPED has begun and the table may be saved (R181). -/
  saveDue  : Bool := false
  deriving DecidableEq, Repr

/-- A piste entry that is armed or tracked (R165, R176): its index, the direction in which it armed, the values it armed
with, whether it is tracked, whether it is confirmed for this pass, and band flags counted inside its zone. -/
structure Armed where
  idx   : Nat := 0
  up    : Bool := true
  w0    : Nat := 0
  w1    : Nat := 0
  track : Bool := false
  conf  : Bool := false
  bands : Nat := 0
  /-- The lead and trail in m it armed with; the entry was written since; a fix has moved the position out of the span. -/
  lead  : Nat := 0
  trail : Nat := 0
  stale : Bool := false
  jumped : Bool := false
  deriving DecidableEq, Repr

/-- The piste map beside its registers. -/
structure Piste where
  /-- Armed and tracked entries, in the order in which they armed. -/
  armed   : List Armed := []
  /-- Entries created inside their own span, or that crossed ARM_CONF, which wait to be entered (R176). -/
  wait    : List Nat := []
  serial  : Nat := 0
  /-- The entry latched by a read of its word 0, and the shadow of words 0 to 2 written (R183). -/
  latch   : Option (Nat × List Word) := none
  shadow  : List Word := []
  /-- Passes that ended and are not yet taken into HITS, AGE and CONF (index, confirmed). -/
  passes  : List (Nat × Bool) := []
  /-- The position in mm at the last judgement, none after a fix (R401). -/
  prev    : Option Int := none
  deriving DecidableEq, Repr

/-- A calibration unit's run (R225 to R230): units 0 to 15 are ports, 16 + i pseudo-channel i. -/
structure Cal where
  /-- 0 none; 1 ADC, 2 hybrid, 3 read trims, 4 write trims. -/
  stage   : Nat := 0
  /-- Stages failed in this run (FAIL_STAGE), and the trim words as they were before the run. -/
  failed  : Nat := 0
  old     : List Word := []
  /-- T_LAST is valid. -/
  valid   : Bool := false
  /-- A CAL_RUN made the unit due; its outcome for that CAL_RUN: 0 open, 1 passed, 2 failed, 3 held or abandoned. -/
  asked   : Bool := false
  outcome : Nat := 0
  /-- A CAL_RUN made the unit due, and no run of it has completed since (R233). -/
  owed    : Bool := false
  deriving DecidableEq, Repr

/-- A diagnostic that waits to listen again (R216): its mailbox slot plus 1, failed listens, sweeps still to send, whether they are
reduced (R217), when the command began, and when the port listens again. -/
structure Diag where
  slot    : Nat := 0
  fails   : Nat := 0
  left    : Nat := 0
  reduced : Bool := false
  since   : Nat := 0
  retryAt : Nat := 0
  deriving DecidableEq, Repr

/-- The clocks beside their registers (R347 to R356). -/
structure Clk where
  /-- LREFCLK and HREFCLK have tripped and are being judged again; when the hold began; coasting to the gates' closing. -/
  tripAt   : Nat := 0
  coasting : Bool := false
  /-- Up to when the time in clock hold is counted in CLK_HOLD_TIME. -/
  countAt  : Nat := 0
  /-- When the IRO was enabled; clock gates closed, by the block's code of Table 12-3 (mask). -/
  iroAt    : Nat := 0
  gates    : Nat := 0
  /-- A wake in Drowse, latched through the hold. -/
  wake     : Option (Nat × Nat) := none
  /-- The start waits for LREFCLK before the fold is applied (R362), or before the core is released (R352). -/
  startDue : Bool := false
  /-- The committed slot's structure is to be restored, since the hold abandoned an apply (R38). -/
  restore  : Bool := false
  /-- HREFCLK tripped while the core did not run from the line PLL. -/
  hrefDue  : Bool := false
  /-- A boundary scan instruction drives the pins (R391). -/
  scan     : Bool := false
  /-- The port to which each slave flock's PLL locks (R42, R99). -/
  pll      : Tbl (Option Nat) := []
  deriving DecidableEq, Repr

/-- What the outside brought to a start (R361): the training results and the references, kept while the start waits. -/
structure Start where
  boot  : Boot := {}
  deriving DecidableEq, Repr

/-- The rotation beside its registers (R366 to R375). -/
structure Tst where
  /-- The save-and-restore block's segments run, and the time of the last; blocks whose last test failed. -/
  segs    : Nat := 0
  segAt   : Nat := 0
  failing : List Nat := []
  /-- When the rotation last started (R366). -/
  since   : Nat := 0
  /-- Seconds at which a slice's overdue event was last raised. -/
  overdue : Tbl Nat := []
  /-- When slices and blocks last passed (slices 0 to 67, blocks at 128 + b), in ns. -/
  passAt  : Tbl Nat := []
  deriving DecidableEq, Repr

/-- Heat beside its registers (R343 to R345): since when a sensor has stood above its trip limit (base-die sensors, and channels
at 32 + c), and the limit rows of Table 12-8 in force. -/
structure Thm where
  hot     : Tbl Nat := []
  coreLim : Bool := false
  baseLim : Bool := false
  deriving DecidableEq, Repr

/-- A fold apply under way (R35 to R38): its stage of Table 2-14 (0 none), its mailbox slot plus 1, when it started, the image
and its source (RUN_SRC), ports that cold-train and lanes that change (masks), frames sent and discarded in the drains,
and the skipped section identifiers. -/
structure Apply where
  stage   : Nat := 0
  slot    : Nat := 0
  start   : Nat := 0
  image   : Bytes := []
  src     : Nat := 0
  cold    : Nat := 0
  lanes   : Nat := 0
  sent    : Nat := 0
  disc    : Nat := 0
  skipped : List Nat := []
  /-- Time the herder was held halted since the start, and when the halt in force began. -/
  halted  : Nat := 0
  haltAt  : Nat := 0
  /-- A re-lay under the running fold (R289); a channel retired after the re-lay of this apply, so that one more is due. -/
  relay   : Bool := false
  again   : Bool := false
  /-- Ports whose negotiation or training has failed since the ports started (mask); lanes without a port whose host the apply
  holds (mask). -/
  tried   : Nat := 0
  held    : Nat := 0
  deriving DecidableEq, Repr

/-- A host lane beside its registers (R297 to R302). -/
structure Lane where
  /-- The lane waits for an idle or terminate block or an ordered set after a re-lock (R301). -/
  waitIdle : Bool := false
  /-- Local Fault is sent toward the host (R118). -/
  fault    : Bool := false
  deriving DecidableEq, Repr

/-- The state of the device. -/
structure State where
  part    : Part := .xs716
  regs    : Tbl Word := []
  latch   : Tbl (Option Word) := []
  nv      : Nv := {}
  ao      : Ao := {}
  fold    : Fold := {}
  box     : Box := {}
  sec     : Sec := {}
  evt     : Evt := {}
  pci     : Pci := {}
  mdio    : Mdio := {}
  cen     : Cen := {}
  evid    : Evid := {}
  pch     : Tbl Pch := []
  bank    : Tbl Bank := []
  line    : Tbl Line := []
  pad     : Tbl Pad := []
  lane    : Tbl Lane := []
  trv     : Tbl Trv := []
  drv     : Drv := {}
  apply   : Apply := {}
  pos     : Pos := {}
  piste   : Piste := {}
  cal     : Tbl Cal := []
  diag    : Tbl Diag := []
  clk     : Clk := {}
  start   : Start := {}
  tst     : Tst := {}
  thm     : Thm := {}
  dram    : List Host.Cell := []
  chk     : Tbl Byte := []
  herder  : Herder := {}
  pwr     : Pwr := {}
  pins    : Pins := {}
  out     : List Output := []
  freeCtr : Nat := 0
  pending : List Instr := []
  deriving DecidableEq, Repr

/-! ## Reset -/

/-- The identity public key of the device at reset, as sixteen words: the base point of P-256, the key whose private half is 1
(DESIGN CHOICE; see log entry 7). -/
def keyWords : List Nat :=
  [0xD898C296, 0xF4A13945, 0x2DEB33A0, 0x77037D81, 0x63A440F2, 0xF8BCE6E5, 0xE12C4247, 0x6B17D1F2,
   0x37BF51F5, 0xCBB64068, 0x6B315ECE, 0x2BCE3357, 0x7C0F9E16, 0x8EE7EB4A, 0xFE1A7F9B, 0x4FE342E2]

/-- Words at rising offsets, as entries of a register table. -/
def wordsAt (off : Nat) (ws : List Nat) : Tbl Word := ws.zipIdx.map fun e => (off + 4 * e.2, BitVec.ofNat 32 e.1)

/-- MEM_TRAIN_STATE of both pseudo-channels of a channel: trained, without an error. -/
def trainedRegs (c : Nat) : Tbl Word := [(A.MEM_TRAIN_STATE c 0, 0x50000000#32), (A.MEM_TRAIN_STATE c 1, 0x50000000#32)]

/-- The registers that differ from the register tables once the cold start has ended. -/
def resetRegsAt : Tbl Word :=
  [(A.DEV_FW_VER, 0x01000000#32), (A.DEV_FW_STATUS, 0x50000000#32), (A.DEV_RESET_CAUSE, 0x10010000#32),
   (A.EVT_STATUS 9, 1#32), (A.EVT_CAUSE 0, 2#32)] ++
  (List.range 15).flatMap trainedRegs ++ [(A.MEM_CH_STATE 15, 0x40000000#32)] ++ trainedRegs 15 ++
  [(A.FAB_STACK, 0x201E1000#32)] ++ ((List.range 30).map fun i => (A.FAB_PCMAP i, BitVec.ofNat 32 (0x80000000 + i))) ++
  ((List.range 16).map fun m => (A.HL_CFG m, 0xFF002600#32)) ++
  [(A.CLK_STATUS, 0x34800000#32), (A.CEN_STATUS, 0x40000000#32), (A.SEC_STATE, 0x04000000#32)] ++
  wordsAt (A.SEC_ID_PUB 0) keyWords ++
  [(A.SEC_ID_CERT 0, 0x54524344#32), (A.SEC_ID_CERT 1, 1#32), (A.SEC_ID_CERT 4, 0x00B00716#32)] ++
  wordsAt (A.SEC_ID_CERT 8) keyWords ++
  [(A.TST_BIST_RESULT, 0x80000000#32)]

/-- A pseudo-channel after the cold start: it has left self-refresh and refreshed each bank once (R254). -/
def resetPch : Pch :=
  { hist := ((List.range 16).reverse.map fun b => { time := 60000000, cmd := 4, bank := b, req := 0x3F }) ++
      [{ time := 60000000, cmd := 9, req := 0x3F }] }

/-- The device right after reset: a power-on reset and the cold start that follows (R361), with the NV store as a new device may
hold it. What the spec does not state of that store is a DESIGN CHOICE (log entries 6 and 7). -/
def State.reset : State :=
  { regs := resetRegsAt
    nv := { fwVer := [(0, some 0x01000000)], makerKey := keyWords.flatMap fun w => leBytes w 4 }
    ao := { time10 := 600000000, pcList := List.range 30 }
    evt := { herder := 5 * 2 ^ 288 }
    pch := (List.range 32).map fun pc => (pc, resetPch)
    bank := (List.range 512).map fun k => (k, { refNext := 1 }) }

/-- The reasons a step can stop with a fault. -/
inductive Fault where
  /-- Raised by a meaning whose operands break `Instr.wf`: no hardware can produce such a command. Safe: the model
  stops where nothing can happen. -/
  | illFormed
  deriving DecidableEq, Repr

/-- The reasons a step can be refused. -/
inductive Refusal where
  /-- Raised by `exec` for a command whose meaning is not yet written, by its mnemonic. Safe: the model stops. -/
  | notModelled (mnemonic : String)
  deriving DecidableEq, Repr

end Sys2Proof.Machine
end

