-- ==== Sys2Proof/Machine/Update.lean ====
section
/-!
DEFINITION. One update for each field of the state, so that what a step leaves alone can be read off the updates it
makes. Every other operation changes the state through these.
-/
namespace Sys2Proof.Machine

/-- The state with its field `part` replaced. -/
def State.withPart (s : State) (v : Part) : State := { s with part := v }

/-- The state with its field `regs` replaced. -/
def State.withRegs (s : State) (v : Tbl Word) : State := { s with regs := v }

/-- The state with its field `latch` replaced. -/
def State.withLatch (s : State) (v : Tbl (Option Word)) : State := { s with latch := v }

/-- The state with its field `nv` replaced. -/
def State.withNv (s : State) (v : Nv) : State := { s with nv := v }

/-- The state with its field `ao` replaced. -/
def State.withAo (s : State) (v : Ao) : State := { s with ao := v }

/-- The state with its field `fold` replaced. -/
def State.withFold (s : State) (v : Fold) : State := { s with fold := v }

/-- The state with its field `box` replaced. -/
def State.withBox (s : State) (v : Box) : State := { s with box := v }

/-- The state with its field `sec` replaced. -/
def State.withSec (s : State) (v : Sec) : State := { s with sec := v }

/-- The state with its field `evt` replaced. -/
def State.withEvt (s : State) (v : Evt) : State := { s with evt := v }

/-- The state with its field `pci` replaced. -/
def State.withPci (s : State) (v : Pci) : State := { s with pci := v }

/-- The state with its field `mdio` replaced. -/
def State.withMdio (s : State) (v : Mdio) : State := { s with mdio := v }

/-- The state with its field `cen` replaced. -/
def State.withCen (s : State) (v : Cen) : State := { s with cen := v }

/-- The state with its field `evid` replaced. -/
def State.withEvid (s : State) (v : Evid) : State := { s with evid := v }

/-- The state with its field `pch` replaced. -/
def State.withPch (s : State) (v : Tbl Pch) : State := { s with pch := v }

/-- The state with its field `bank` replaced. -/
def State.withBank (s : State) (v : Tbl Bank) : State := { s with bank := v }

/-- The state with its field `line` replaced. -/
def State.withLine (s : State) (v : Tbl Line) : State := { s with line := v }

/-- The state with its field `pad` replaced. -/
def State.withPad (s : State) (v : Tbl Pad) : State := { s with pad := v }

/-- The state with its field `lane` replaced. -/
def State.withLane (s : State) (v : Tbl Lane) : State := { s with lane := v }

/-- The state with its field `trv` replaced. -/
def State.withTrv (s : State) (v : Tbl Trv) : State := { s with trv := v }

/-- The state with its field `drv` replaced. -/
def State.withDrv (s : State) (v : Drv) : State := { s with drv := v }

/-- The state with its field `apply` replaced. -/
def State.withApply (s : State) (v : Apply) : State := { s with apply := v }

/-- The state with its field `pos` replaced. -/
def State.withPos (s : State) (v : Pos) : State := { s with pos := v }

/-- The state with its field `piste` replaced. -/
def State.withPiste (s : State) (v : Piste) : State := { s with piste := v }

/-- The state with its field `cal` replaced. -/
def State.withCal (s : State) (v : Tbl Cal) : State := { s with cal := v }

/-- The state with its field `diag` replaced. -/
def State.withDiag (s : State) (v : Tbl Diag) : State := { s with diag := v }

/-- The state with its field `clk` replaced. -/
def State.withClk (s : State) (v : Clk) : State := { s with clk := v }

/-- The state with its field `start` replaced. -/
def State.withStart (s : State) (v : Start) : State := { s with start := v }

/-- The state with its field `tst` replaced. -/
def State.withTst (s : State) (v : Tst) : State := { s with tst := v }

/-- The state with its field `thm` replaced. -/
def State.withThm (s : State) (v : Thm) : State := { s with thm := v }

/-- The state with its field `dram` replaced. -/
def State.withDram (s : State) (v : List Host.Cell) : State := { s with dram := v }

/-- The state with its field `chk` replaced. -/
def State.withChk (s : State) (v : Tbl Byte) : State := { s with chk := v }

/-- The state with its field `herder` replaced. -/
def State.withHerder (s : State) (v : Herder) : State := { s with herder := v }

/-- The state with its field `pwr` replaced. -/
def State.withPwr (s : State) (v : Pwr) : State := { s with pwr := v }

/-- The state with its field `pins` replaced. -/
def State.withPins (s : State) (v : Pins) : State := { s with pins := v }

/-- The state with its field `out` replaced. -/
def State.withOut (s : State) (v : List Output) : State := { s with out := v }

/-- The state with its field `freeCtr` replaced. -/
def State.withFreeCtr (s : State) (v : Nat) : State := { s with freeCtr := v }

/-- The state with its field `pending` replaced. -/
def State.withPending (s : State) (v : List Instr) : State := { s with pending := v }

end Sys2Proof.Machine
end

