-- ==== Sys2Proof/Machine/Ops.lean ====
section
/-!
DEFINITION. The named operations over the registers and the other fields of the state, on which every meaning rests.
-/
namespace Sys2Proof.Machine

/-! ## Bits of a register word -/

/-- The field of a word at `lo`, `len` bits long. -/
def getBits (w : Word) (lo len : Nat) : Nat := (w.toNat >>> lo) % 2 ^ len

/-- The mask of a field. -/
def bitMask (lo len : Nat) : Word := BitVec.ofNat 32 ((2 ^ len - 1) <<< lo)

/-- The word with a field replaced; bits of the value beyond the field's length are dropped. -/
def setBits (w : Word) (lo len v : Nat) : Word :=
  (w &&& ~~~ bitMask lo len) ||| BitVec.ofNat 32 ((v % 2 ^ len) <<< lo)

/-! ## Registers -/

/-- The reset value of one field, as the part has it. -/
def FieldRow.reset (f : FieldRow) (p : Part) : Nat :=
  match p with
  | .xs716 => f.rst
  | .xs708 => f.rst8

/-- The part of a field that lies in word `w` of its register: its place in that word and its value there. -/
def FieldRow.inWord (f : FieldRow) (w v : Nat) : Word :=
  BitVec.ofNat 32 (((v % 2 ^ f.len) <<< f.lo) >>> (32 * w))

/-- The bits of word `w` that belong to a field. -/
def FieldRow.mask (f : FieldRow) (w : Nat) : Word := f.inWord w (2 ^ f.len - 1)

/-- The reset value of word `w` of a register. -/
def RegRow.resetWord (r : RegRow) (p : Part) (w : Nat) : Word :=
  r.fields.foldl (fun a f => a ||| f.inWord w (f.reset p)) 0

/-- The value the register word at an offset has after reset; 0 where the offset is unmapped. -/
def resetWord (p : Part) (off : Nat) : Word :=
  match regAt off with
  | some (r, w) => r.resetWord p w
  | none => 0

/-- The register word stored at an offset. -/
def State.word (s : State) (off : Nat) : Word := Tbl.get s.regs (resetWord s.part off) off

/-- The state with the register word at an offset replaced. -/
def State.putWord (s : State) (off : Nat) (w : Word) : State :=
  s.withRegs (Tbl.set s.regs (resetWord s.part off) off w)

/-- The state with `len` bytes of register words from an offset at their reset values. -/
def State.dropWords (s : State) (off len : Nat) : State :=
  s.withRegs (Tbl.keep s.regs fun a => !(decide (off ≤ a) && decide (a < off + len)))

/-- The value of a register field. -/
def State.get (s : State) (f : Fld) : Nat := getBits (s.word f.off) f.lo f.len

/-- The state with a register field replaced. -/
def State.put (s : State) (f : Fld) (v : Nat) : State := s.putWord f.off (setBits (s.word f.off) f.lo f.len v)

/-- A one-bit field as a truth value. -/
def State.flag (s : State) (f : Fld) : Bool := s.get f != 0

/-- Count `k` more in a counter field that saturates at its greatest value. -/
def State.count (s : State) (f : Fld) (k : Nat) : State := s.put f (min (s.get f + k) (2 ^ f.len - 1))

/-- A 64-bit quantity in two words, the low one at `off` (R7). -/
def State.wide (s : State) (off : Nat) : Nat := (s.word off).toNat + 2 ^ 32 * (s.word (off + 4)).toNat

/-- The state with a 64-bit quantity replaced. -/
def State.putWide (s : State) (off v : Nat) : State :=
  (s.putWord off (BitVec.ofNat 32 v)).putWord (off + 4) (BitVec.ofNat 32 (v / 2 ^ 32))

/-- The bytes of `n` consecutive register words, in ascending order (R6). -/
def State.wordBytes (s : State) (off : Nat) : Nat → Bytes
  | 0 => []
  | n + 1 => leBytes (s.word off).toNat 4 ++ s.wordBytes (off + 4) n

/-- The state with consecutive register words written from bytes, four at a time. -/
def State.putBytes (s : State) (off : Nat) : Nat → Bytes → State
  | 0, _ => s
  | n + 1, bs => (s.putWord off (BitVec.ofNat 32 (leVal (bs.take 4)))).putBytes (off + 4) n (bs.drop 4)

/-! ## The part's resources (R1, R12, R13) -/

/-- Pair ports, and host lanes, of the part. -/
def State.nPorts (s : State) : Nat := match s.part with | .xs716 => 16 | .xs708 => 8
/-- Memory channels of the part. -/
def State.nChans (s : State) : Nat := match s.part with | .xs716 => 16 | .xs708 => 8
/-- Pseudo-channels of the part. -/
def State.nPcs (s : State) : Nat := 2 * s.nChans
/-- Flocks of the part. -/
def State.nFlocks (s : State) : Nat := match s.part with | .xs716 => 4 | .xs708 => 2
/-- DSP slices that can be assigned; the rotation spares are 64 to 67 on both parts (R13). -/
def State.nSlices (s : State) : Nat := match s.part with | .xs716 => 64 | .xs708 => 32
/-- PART as DEV_PARTID and the images name it. -/
def State.partCode (s : State) : Nat := match s.part with | .xs716 => 0x0716 | .xs708 => 0x0708

/-- Whether the first index of a register names a resource that the part has (R2). -/
def State.present (s : State) (k : Kind) (i : Nat) : Bool :=
  match k with
  | .none => true
  | .port => decide (i < s.nPorts)
  | .lane => decide (i < s.nPorts)
  | .channel => decide (i < s.nChans)
  | .flock => decide (i < s.nFlocks)

/-- The core domains are powered and not held: Run or Drowse, with no safe state, trip or reset in force (R415). -/
def State.coreOn (s : State) : Bool := decide (s.pwr.mode < 2) && (s.pwr.held == 0 || s.pwr.held == 4)

/-- A BAR access of the host (R304): none while the core domains are off or PERST_N is held, and in D3hot it completes as
Unsupported Request. -/
def State.bar (s : State) (f : State → State) : State :=
  if !s.coreOn || s.pci.perst then s else if s.pci.d3hot then s.withOut (.unsupportedRequest :: s.out) else f s

/-- The core domains are clocked: on, and not in the gated phase of clock hold (R352). -/
def State.clocked (s : State) : Bool := s.coreOn && decide (s.get F.CLK_STATUS_STATE ≠ 1)

/-- The herder is running (R15); in the gated phase of clock hold it stands (R352). -/
def State.herderRuns (s : State) : Bool := s.herder.running && !s.herder.halted && decide (s.get F.CLK_STATUS_STATE ≠ 1)

/-! ## Outputs, free values, repetition -/

/-- Put one more output on the record of what the device sent. -/
def State.emit (s : State) (o : Output) : State := s.withOut (o :: s.out)

/-- Several outputs, in order. -/
def State.emits (s : State) (os : List Output) : State := s.withOut (os.reverse ++ s.out)

/-- The next draw of the random source. -/
def State.freeNow (s : State) : Word := Config.freeWord s.freeCtr
/-- The state after `n` draws. -/
def State.drawn (s : State) (n : Nat) : State := s.withFreeCtr (s.freeCtr + n)
/-- The next `n` draws of the random source, as bytes. -/
def State.freeBytes (s : State) (n : Nat) : Bytes :=
  (List.range n).flatMap fun i => leBytes (Config.freeWord (s.freeCtr + i)).toNat 4

/-- One operation after another, for each of a list. -/
def State.each {α : Type} (s : State) (l : List α) (f : State → α → State) : State := l.foldl f s

/-- An operation where a condition holds. -/
def State.when (s : State) (c : Bool) (f : State → State) : State := if c then f s else s

/-! ## Device time (R356) -/

/-- DEV_TIME in ns. -/
def State.time (s : State) : Nat := s.ao.time10 / 10 % 2 ^ 64
/-- DEV_TIME moved on to at least `t` ns: a time-driven step comes no earlier than its time. -/
def State.timeTo (s : State) (t : Nat) : State := s.withAo { s.ao with time10 := max s.ao.time10 (10 * t) }
/-- DEV_TIME moved on by `ns` nanoseconds. -/
def State.timeOn (s : State) (ns : Nat) : State := s.withAo { s.ao with time10 := s.ao.time10 + 10 * ns }

/-! ## Census counters (R406, Tables 16-3 and 16-4) -/

/-- Add `n` to counter `k` where it counts event `ev`: 48 bits, wrapping; an even counter with CHAIN carries into the
odd one above it, and an odd counter under CHAIN counts nothing else. -/
def State.cenBump (s : State) (ev n k : Nat) : State :=
  let chained (j : Nat) := decide (j % 2 = 0) && s.flag (F.CEN_SEL_CHAIN j)
  if s.get (F.CEN_SEL_EVENT k) = ev && !(decide (k % 2 = 1) && chained (k - 1)) then
    let v := Tbl.get s.cen.ctr 0 k + n
    let c := Tbl.set s.cen.ctr 0 k (v % 2 ^ 48)
    let c := if chained k then Tbl.set c 0 (k + 1) ((Tbl.get c 0 (k + 1) + v / 2 ^ 48) % 2 ^ 48) else c
    s.withCen { s.cen with ctr := c }
  else s

/-- Count event `ev` in the counters `base` to `base + len - 1`; the census runs in Run and Drowse. -/
def State.cenAdd (s : State) (base len ev n : Nat) : State :=
  if n = 0 || !s.coreOn then s else s.each (List.range len) fun t j => t.cenBump ev n (base + j)

/-- A census event of port `p`. -/
def State.cenPort (s : State) (p ev n : Nat) : State := s.cenAdd (8 * p) 8 ev n
/-- A census event of pseudo-channel `i`. -/
def State.cenPc (s : State) (i ev n : Nat) : State := s.cenAdd (128 + 4 * i) 4 ev n
/-- A census event of host lane `m`. -/
def State.cenLane (s : State) (m ev n : Nat) : State := s.cenAdd (256 + 2 * m) 2 ev n
/-- A census event of the fabric. -/
def State.cenFab (s : State) (ev n : Nat) : State := s.cenAdd 288 16 ev n
/-- A census event of the herder. -/
def State.cenHerd (s : State) (ev n : Nat) : State := s.cenAdd 304 8 ev n

end Sys2Proof.Machine
end

