-- ==== Sys2Proof/Machine/Flags.lean ====
section
/-!
DEFINITION. The event flags (chapter 17): sources and their numbers, status, mask, routing, interrupt messages and
INT_N. Every raising of an event goes through `State.raise` and `State.raiseCause`.
-/
namespace Sys2Proof.Machine

/-! ## Source numbers (R410, Tables 17-1 to 17-3) -/

/-- Port event `j` of port `n`. -/
def Ev.port (n j : Nat) : Nat := 14 * n + j
/-- Channel event `j` of channel `c`. -/
def Ev.chan (c j : Nat) : Nat := 224 + 4 * c + j
/-- System source `x`. -/
def Ev.sys (x : Nat) : Nat := 288 + x

def Ev.portLinkDown (n : Nat) : Nat := Ev.port n 0
def Ev.portErasure (n : Nat) : Nat := Ev.port n 1
def Ev.portSwapFail (n : Nat) : Nat := Ev.port n 2
def Ev.portMarginLow (n : Nat) : Nat := Ev.port n 3
def Ev.portEchoLow (n : Nat) : Nat := Ev.port n 4
def Ev.portVecChange (n : Nat) : Nat := Ev.port n 5
def Ev.portPadHigh (n : Nat) : Nat := Ev.port n 6
def Ev.portPadDrop (n : Nat) : Nat := Ev.port n 7
def Ev.portLeadConflict (n : Nat) : Nat := Ev.port n 8
def Ev.portBellRx (n : Nat) : Nat := Ev.port n 9
def Ev.portPartnerIdChange (n : Nat) : Nat := Ev.port n 10
def Ev.portPartnerAuthFail (n : Nat) : Nat := Ev.port n 11
def Ev.portCableChange (n : Nat) : Nat := Ev.port n 12
def Ev.portCalFail (n : Nat) : Nat := Ev.port n 13
def Ev.memFreeze (c : Nat) : Nat := Ev.chan c 0
def Ev.memScrubUe (c : Nat) : Nat := Ev.chan c 1
def Ev.memTrimFail (c : Nat) : Nat := Ev.chan c 2
def Ev.memLame (c : Nat) : Nat := Ev.chan c 3
def Ev.devReset : Nat := Ev.sys 0
def Ev.devBadAccess : Nat := Ev.sys 1
def Ev.devHerderRestart : Nat := Ev.sys 4
def Ev.cmdDone : Nat := Ev.sys 5
def Ev.secDenied : Nat := Ev.sys 6
def Ev.secAuthFail : Nat := Ev.sys 7
def Ev.secSessionEnd : Nat := Ev.sys 8
def Ev.secDebug : Nat := Ev.sys 9
def Ev.clkHold : Nat := Ev.sys 10
def Ev.clkRestored : Nat := Ev.sys 11
def Ev.clkHrefLoss : Nat := Ev.sys 12
def Ev.pwrWake : Nat := Ev.sys 13
def Ev.pwrRefused : Nat := Ev.sys 14
def Ev.drvShort : Nat := Ev.sys 15
def Ev.thmCap : Nat := Ev.sys 16
def Ev.thmSensorFail : Nat := Ev.sys 18
def Ev.posOdoFault : Nat := Ev.sys 19
def Ev.posHold : Nat := Ev.sys 20
def Ev.posMotion : Nat := Ev.sys 21
def Ev.pisteRoute : Nat := Ev.sys 22
def Ev.pisteFull : Nat := Ev.sys 23
def Ev.fabLapAlarm : Nat := Ev.sys 24
def Ev.fabRetire : Nat := Ev.sys 25
def Ev.fabCanary : Nat := Ev.sys 26
def Ev.evidFrozen : Nat := Ev.sys 28
def Ev.cenSkip : Nat := Ev.sys 30

/-- The group of a grouped source (Table 17-4). -/
def groupOf (i : Nat) : Option Nat :=
  if i = 290 then some 0 else if i = 291 then some 1 else if i = 305 then some 2
  else if i = 315 then some 3 else if i = 317 then some 4 else if i = 319 then some 5 else none

/-- The source of a group. -/
def groupSource : Nat → Nat
  | 0 => 290 | 1 => 291 | 2 => 305 | 3 => 315 | 4 => 317 | _ => 319

/-- A source that the part has (R410: on the XS708, 112 to 223 and 256 to 287 are absent). -/
def State.srcPresent (s : State) (i : Nat) : Bool :=
  decide (i < 320) && match s.part with
    | .xs716 => true
    | .xs708 => !((decide (112 ≤ i) && decide (i < 224)) || (decide (256 ≤ i) && decide (i < 288)))

/-- The always-on sources: PORT_BELL_RX of each port and PWR_WAKE (R415). -/
def alwaysOnSrc (i : Nat) : Bool := (decide (i < 224) && decide (i % 14 = 9)) || decide (i = 301)

/-- The bits of word `w` of a per-source register that belong to always-on sources. -/
def alwaysOnMask (w : Nat) : Word :=
  BitVec.ofNat 32 (listMask ((List.range 32).filter fun b => alwaysOnSrc (32 * w + b)))

/-- The field of source `i` in a per-source register array whose words begin at `base`. -/
def srcBit (base i : Nat) : Fld := ⟨base + 4 * (i / 32 % 10), i % 32, 1⟩

/-! ## Pending, active, asserted (R411, R412, R317) -/

/-- A source's status: its bit, or the OR of its cause bits (R411). -/
def State.isPending (s : State) (i : Nat) : Bool :=
  match groupOf i with
  | some g => s.get (F.EVT_CAUSE_CAUSE g) != 0
  | none => s.flag (srcBit (A.EVT_STATUS 0) i)

/-- A source that is pending and unmasked (R412). -/
def State.isActive (s : State) (i : Nat) : Bool := s.isPending i && !s.flag (srcBit (A.EVT_MASK 0) i)

/-- A vector is asserted while a source routed to it with MSIX is active (R317). -/
def State.asserted (s : State) (v : Nat) : Bool :=
  (List.range 320).any fun i =>
    s.isActive i && s.flag (F.EVT_ROUTE_MSIX i) && decide (s.get (F.EVT_ROUTE_VECTOR i) = v)

/-- EVT_VEC_SUM (Table 17-6). -/
def State.vecSum (s : State) : Nat := listMask ((List.range 32).filter s.asserted)

/-- INT_N is driven low while an active source has INTN set (R318, R415). It is released in reset and BIST, and in the safe state that
a failed BIST leaves (R365). -/
def State.intN (s : State) : Bool :=
  decide (s.pwr.held ≠ 1) && decide (s.pwr.held ≠ 2) && (List.range 320).any fun i => s.isActive i && s.flag (F.EVT_ROUTE_INTN i)

/-! ## Messages (R317, R414) -/

/-- The vector's message can go out: the function is in D0 with MSI-X enabled, the link is up, and neither the function
mask nor the vector's own mask is set. -/
def State.msixOpen (s : State) (v : Nat) : Bool :=
  s.pci.link && !s.pci.perst && !s.pci.d3hot && s.pci.msixEn && !s.pci.funcMask && !s.flag (F.MSIX_VCTRL_MASK v)

/-- Send the message of vector `v` where it is owed and can go out. -/
def State.sendOwed (s : State) (v : Nat) : State :=
  if s.evt.owed.testBit v && s.msixOpen v then
    (s.withEvt { s.evt with owed := s.evt.owed ^^^ (1 <<< v) }).emit
      (.msix v (s.get (F.MSIX_TABLE_WORD v 0) + 2 ^ 32 * s.get (F.MSIX_TABLE_WORD v 1)) (s.word (A.MSIX_TABLE v 2)))
  else s

/-- Send every owed message that can go out (R414). -/
def State.sendAllOwed (s : State) : State :=
  if s.evt.owed = 0 then s else s.each (List.range 32) State.sendOwed

/-- The vector owes a message (R414). -/
def State.owe (s : State) (v : Nat) : State :=
  (s.withEvt { s.evt with owed := s.evt.owed ||| (1 <<< v) }).sendOwed v

/-- Source `i`, about to become pending, brings a message: it is unmasked and routed with MSIX to a vector that is not
asserted. -/
def State.bringsMessage (s : State) (i : Nat) : Bool :=
  !s.flag (srcBit (A.EVT_MASK 0) i) && s.flag (F.EVT_ROUTE_MSIX i) && !s.asserted (s.get (F.EVT_ROUTE_VECTOR i))

/-- Do `f`, which makes source `i` pending, and owe the message this brings. -/
def State.becomePending (s : State) (i : Nat) (f : State → State) : State :=
  if s.bringsMessage i then (f s).owe (s.get (F.EVT_ROUTE_VECTOR i)) else f s

/-- The herder's private copy of a raise (R416). -/
def State.herderSees (s : State) (i : Nat) : State := s.withEvt { s.evt with herder := s.evt.herder ||| (1 <<< i) }

/-- Raise a source (R412): its status bit sets, merging with one already pending; the herder sees it. Absent sources
raise nothing (R2), and while the core domains are off only the always-on sources do (R415). -/
def State.raise (s : State) (i : Nat) : State :=
  if s.srcPresent i && (s.coreOn || alwaysOnSrc i) then
    (((s.becomePending i fun t => t.put (srcBit (A.EVT_STATUS 0) i) 1).herderSees i).cenFab 0x0F 1)
  else s

/-- Raise the named event `c` of group `g` (R411, Table 17-4). -/
def State.raiseCause (s : State) (g c : Nat) : State :=
  if s.coreOn && !(g == 5 && decide (s.nPorts ≤ c)) then
    ((s.becomePending (groupSource g) fun t => t.put ⟨A.EVT_CAUSE g, c, 1⟩ 1).herderSees (groupSource g)).cenFab 0x0F 1
  else s

/-- Do `f`, which changes masks, routes or status, and owe a message for every vector that it brings to be asserted
(R317, R413, R414). -/
def State.reroute (s : State) (f : State → State) : State :=
  let t := f s
  t.each ((List.range 32).filter fun v => t.asserted v && !s.asserted v) State.owe

/-! The grouped events by name (Table 17-4). -/
def State.raiseFoldFallback (s : State) : State := s.raiseCause 0 0
def State.raiseNoFold (s : State) : State := s.raiseCause 0 1
def State.raiseFwFallback (s : State) : State := s.raiseCause 1 0
def State.raiseNoFw (s : State) : State := s.raiseCause 1 1
def State.raiseCoreLimit (s : State) : State := s.raiseCause 2 0
def State.raiseBaseLimit (s : State) : State := s.raiseCause 2 1
def State.raiseTstFault (s : State) : State := s.raiseCause 3 0
def State.raiseSparesOut (s : State) : State := s.raiseCause 3 1
def State.raiseTstOverdue (s : State) : State := s.raiseCause 3 2
def State.raiseTrigRefused (s : State) : State := s.raiseCause 4 0
def State.raiseSegLost (s : State) : State := s.raiseCause 4 1
def State.raiseEvidBudget (s : State) : State := s.raiseCause 4 2
def State.raiseHlLoss (s : State) (m : Nat) : State := s.raiseCause 5 m

end Sys2Proof.Machine
end

