-- ==== Sys2Proof/Machine/Memory.lean ====
section
/-!
DEFINITION. The stack (chapters 9 and 10): the byte code, map orders, banks and their rows, fills, freezes and fences,
as operations that the meanings share.
-/
namespace Sys2Proof.Machine

/-! ## The byte code (R259 to R262) -/

/-- The check bits c4 to c0 of a data byte (Table 10-1; c4 makes the XOR of all 13 bits 0). -/
def checkBits (d : Nat) : Nat :=
  let x (l : List Nat) : Bool := l.foldl (fun a i => a != d.testBit i) false
  let c0 := x [0, 1, 3, 4, 6]
  let c1 := x [0, 2, 3, 5, 6]
  let c2 := x [1, 2, 3, 7]
  let c3 := x [4, 5, 6, 7]
  let c4 := x [0, 1, 2, 3, 4, 5, 6, 7] != (c0 != (c1 != (c2 != c3)))
  b2n c0 + 2 * b2n c1 + 4 * b2n c2 + 8 * b2n c3 + 16 * b2n c4

/-- The columns of Table 10-1: data bits 0 to 7, then c0 to c3. -/
def codeColumns : List Nat := [0x3, 0x5, 0x6, 0x7, 0x9, 0xA, 0xB, 0xC, 0x1, 0x2, 0x4, 0x8]

/-- The syndrome bits s3 to s0 of a stored byte. -/
def syndrome (d c : Nat) : Nat := (checkBits d ^^^ c) % 16

/-- The parity p of all 13 stored bits. -/
def parity13 (d c : Nat) : Bool := (popcount d 8 + popcount c 5) % 2 = 1

/-- How one byte reads (R261, R262). `corrected` names the bit in error: 0 to 7 data, 8 to 12 check bits c0 to c4. -/
inductive ByteRead where
  | clean (v : Nat)
  | corrected (v bit : Nat)
  | ue
  | poison
  deriving DecidableEq, Repr

/-- The reading of a stored byte: poison first (R262), then Table 10-2. -/
def decodeByte (d c : Nat) : ByteRead :=
  if popcount d 8 + popcount (c ^^^ 31) 5 ≤ 1 then .poison else
  let s := syndrome d c
  if parity13 d c then
    if s = 0 then .corrected d 12 else
    match codeColumns.findIdx? (· = s) with
    | some i => .corrected (if i < 8 then d ^^^ (1 <<< i) else d) i
    | none => .ue
  else if s = 0 then .clean d else .ue

/-- The five syndrome bits of a byte as the freeze record keeps them: p, then s3 to s0 (Table 10-4). -/
def syndBits (d c : Nat) : Nat := 16 * b2n (parity13 d c) + syndrome d c

/-! ## Pseudo-channels and banks -/

/-- Pseudo-channel `pc`. -/
def State.pc (s : State) (pc : Nat) : Pch := Tbl.get s.pch {} pc
/-- The state with pseudo-channel `pc` changed. -/
def State.modPc (s : State) (pc : Nat) (f : Pch → Pch) : State := s.withPch (Tbl.set s.pch {} pc (f (s.pc pc)))
/-- Bank `b` of pseudo-channel `pc`. -/
def State.bk (s : State) (pc b : Nat) : Bank := Tbl.get s.bank {} (16 * pc + b)
/-- The state with a bank changed. -/
def State.modBk (s : State) (pc b : Nat) (f : Bank → Bank) : State :=
  s.withBank (Tbl.set s.bank {} (16 * pc + b) (f (s.bk pc b)))

/-- The two indices a register of pseudo-channel `pc` takes: channel and half (R12). -/
def pcIdx (pc : Nat) : Nat × Nat := (pc / 2, pc % 2)

/-- A channel's role (Table 9-9): 0 in service, 1 reserve, 2 retired, 3 absent. -/
def State.chRole (s : State) (c : Nat) : Nat := if c < s.nChans then s.get (F.MEM_CH_STATE_ROLE c) else 3

/-- The pseudo-channel is frozen (R273). -/
def State.frozen (s : State) (pc : Nat) : Bool := s.flag (F.MEM_INTEG_STATE_FROZEN (pc / 2) (pc % 2))

/-- The pseudo-channel is fenced: frozen, in a retrain, or of a retired channel (R274, R285, R287). -/
def State.fenced (s : State) (pc : Nat) : Bool := s.frozen pc || (s.pc pc).retrain || decide (s.chRole (pc / 2) = 2)

/-- The stack serves requests: not in self-refresh, not quiesced, and trained. -/
def State.selfRefresh (s : State) (c : Nat) : Bool := s.flag (F.MEM_CH_STATE_SELF_REFRESH c)

/-- The in-service list (R239) as FAB_PCMAP reports it. -/
def State.inService (s : State) : List Nat :=
  ((List.range 32).filter fun i => s.flag (F.FAB_PCMAP_VALID i)).map fun i => s.get (F.FAB_PCMAP_PC i)

/-- A bank is suspect (R292). -/
def State.suspect (s : State) (pc b : Nat) : Bool := (s.get (F.MEM_INTEG_STATE_SUSPECT (pc / 2) (pc % 2))).testBit b

/-! ## Partitions and map orders (R240, R241) -/

/-- Where a byte lies: pseudo-channel, bank index, row, column byte. -/
structure Loc where
  pc   : Nat
  bank : Nat
  row  : Nat
  col  : Nat
  deriving DecidableEq, Repr

/-- A partition of FAB_PART is present. -/
def State.partValid (s : State) (k : Nat) : Bool := s.flag (F.FAB_PART_VALID k)
/-- Bytes of a partition. -/
def State.partBytes (s : State) (k : Nat) : Nat := s.get (F.FAB_PART_SIZE_SIZE_MIB k) * 1048576
/-- The index of the first partition of a type (1 PADDOCK, 2 EVIDENCE, 3 CENSUS, 4 GENERAL). -/
def State.partOf (s : State) (ty : Nat) : Option Nat :=
  (List.range 16).find? fun k => s.partValid k && decide (s.get (F.FAB_PART_TYPE k) = ty)

/-- The blocks `j0` to `j0 + k - 1` that lie at index `i` of a list of `n`: the first of them and how many. -/
def blocksAt (n j0 k i : Nat) : Nat × Nat :=
  let first := j0 + (i + n - j0 % n) % n
  (first, if first < j0 + k then (j0 + k - 1 - first) / n + 1 else 0)

/-- LINEAR: the block with number `b`, counted index by index (Table 9-2). -/
def linearBlock (n j0 k : Nat) : List Nat → Nat → Nat
  | [], _ => j0
  | i :: is, b =>
    let (first, cnt) := blocksAt n j0 k i
    if b < cnt then first + n * b else linearBlock n j0 k is (b - cnt)

/-- The byte of a partition at a relative address, under the partition's map order (R241). -/
def State.locate (s : State) (k a : Nat) : Loc :=
  let list := s.inService
  let n := max list.length 1
  let j0 := 16 * s.get (F.FAB_PART_BASE_BASE_MIB k)
  let kk := 16 * s.get (F.FAB_PART_SIZE_SIZE_MIB k)
  let o := a % 65536
  let at_ (j : Nat) : Nat × Nat := (list.getD (j % n) 0, j / n)
  match s.get (F.FAB_PART_MAP k) with
  | 0 =>
    let (pc, q) := at_ (linearBlock n j0 kk (List.range n) (a / 65536))
    ⟨pc, 4 * bits o 10 2 + bits o 12 2, 4 * q + bits o 14 2, o % 1024⟩
  | 1 =>
    let u := a / 64
    let g := u / (1024 * n)
    let ng := max (min n (kk - g * n)) 1
    let u' := u - 1024 * n * g
    let w := u' / ng
    let (pc, q) := at_ (j0 + g * n + u' % ng)
    ⟨pc, 4 * bits w 4 2 + bits w 6 2, 4 * q + bits w 8 2, 64 * bits w 0 4 + a % 64⟩
  | 2 =>
    let (pc, q) := at_ (j0 + a / 65536)
    ⟨pc, 4 * (bits o 10 2 ^^^ bits q 0 2) + bits o 12 2, 4 * q + bits o 14 2, o % 1024⟩
  | _ =>
    let (pc, q) := at_ (j0 + a / 65536)
    let row := 4 * q + bits o 14 2
    let h := bits row 0 4 ^^^ bits row 4 4 ^^^ bits row 8 4 ^^^ bits row 12 3
    ⟨pc, (4 * bits o 10 2 + bits o 12 2) ^^^ h, row, o % 1024⟩

/-- The blocks (pseudo-channel, block q) that the MiB `c` of a partition lies in. -/
def State.mibBlocks (s : State) (k c : Nat) : List (Nat × Nat) :=
  let step := if s.get (F.FAB_PART_MAP k) = 1 then 64 else 65536
  ((List.range (1048576 / step)).map fun i =>
    let l := s.locate k (1048576 * c + step * i); (l.pc, l.row / 4)).eraseDups

/-! ## Cells -/

/-- The row of the array that holds row `r` of a bank: its spare where it is spared (R278). Spare `i` is row
32768 + i, the service row 32832. -/
def Bank.physRow (b : Bank) (r : Nat) : Nat :=
  match b.spares.find? fun e => e.1 = r with
  | some e => 32768 + e.2
  | none => r

/-- The service row of a bank (R278). -/
def serviceRow : Nat := 32832

/-- The address of a cell: pseudo-channel, bank, row of the array, column byte. -/
def cellAddr (pc b row col : Nat) : Nat := ((16 * pc + b) * 65536 + row) * 1024 + col

/-- The data byte and the check bits stored in a cell. A cell not listed holds 0 with valid code. -/
def State.cell (s : State) (a : Nat) : Nat × Nat := ((Tbl.get s.dram 0 a).toNat, (Tbl.get s.chk 0 a).toNat)

/-- The state with a cell's 13 bits replaced. -/
def State.putCell (s : State) (a d c : Nat) : State :=
  (s.withDram (Tbl.set s.dram 0 a (BitVec.ofNat 8 d))).withChk (Tbl.set s.chk 0 a (BitVec.ofNat 8 (c % 32)))

/-- Write a byte with its code. -/
def State.storeByte (s : State) (a d : Nat) : State := s.putCell a d (checkBits d)

/-- Write the poison word (R262). -/
def State.storePoison (s : State) (a : Nat) : State := s.putCell a 0 31

/-- Bits that the cells of a row have lost since they were last read: pairs of a column byte and a 13-bit mask (data in
bits 7:0, check bits in 12:8). -/
def State.upset (s : State) (pc b prow : Nat) (l : List (Nat × Nat)) : State :=
  s.each l fun t (col, m) =>
    let a := cellAddr pc b prow (col % 1024)
    let (d, c) := t.cell a
    t.putCell a (d ^^^ (m % 256)) (c ^^^ ((m / 256) % 32))

/-! ## Fill state (R264 to R267) -/

/-- A row is filled. -/
def Bank.rowFilled (b : Bank) (r : Nat) : Bool := b.filled || decide (r < b.water) || b.fillMap.contains (r / 4)

/-- Fill the group of a row, where it is not filled. Its cells then hold zeros with valid code: a reset of the fill
state has dropped what they held. -/
def State.fillGroup (s : State) (pc b r : Nat) : State :=
  if (s.bk pc b).rowFilled r then s else s.modBk pc b fun x => { x with fillMap := (r / 4) :: x.fillMap }

/-- Drop the cells whose address satisfies `p`. -/
def State.dropCells (s : State) (p : Nat → Bool) : State :=
  (s.withDram (s.dram.filter fun e => !p e.1)).withChk (s.chk.filter fun e => !p e.1)

/-- FILL_DONE reads whether every bank of the pseudo-channel is filled (R267). -/
def State.setFillDone (s : State) (pc : Nat) : State :=
  s.put (F.MEM_INTEG_STATE_FILL_DONE (pc / 2) (pc % 2)) (b2n ((List.range 16).all fun b => (s.bk pc b).filled))

/-- The group of rows that a row of the array belongs to: its own, or that of the row it replaces; none for a spare that
replaces none, and the service row. -/
def Bank.groupAt (b : Bank) (prow : Nat) : Option Nat :=
  if prow < 32768 then some (prow / 4)
  else ((b.spares.find? fun e => 32768 + e.2 = prow).filter fun e => b.physRow e.1 = prow).map fun e => e.1 / 4

/-- Reset a bank's fill state (R265), except the groups in `keep`: the watermark goes to 0, FILLED clears, and a fill lap
begins. -/
def State.resetFill (s : State) (pc b : Nat) (keep : List Nat) : State :=
  let x := s.bk pc b
  let kept := keep.filter fun g => x.rowFilled (4 * g)
  let t := s.dropCells fun a => decide (a / 1024 / 65536 = 16 * pc + b) && decide (a / 1024 % 65536 ≠ 32832) &&
    (match x.groupAt (a / 1024 % 65536) with | some g => !kept.contains g | none => true)
  ((t.modBk pc b fun y => { y with water := 0, filled := false, fillMap := kept }).modPc pc fun p =>
    { p with fillLap := true, gleanPos := 0, lapErr := 0, lapUe := false, lapAlarm := false, corrNow := [], tsvHits := [] }).setFillDone pc

/-- After a reset that keeps the stack: a bank with FILLED set is wholly filled, any other restarts from W = 0 with an
empty map (R265). -/
def State.restartFill (s : State) (pc b : Nat) : State :=
  if (s.bk pc b).filled then s else s.resetFill pc b []

/-! ## Commands of a controller -/

/-- Record a command in the history (Table 10-5). -/
def State.issue (s : State) (pc : Nat) (c : MemCmd) : State :=
  s.modPc pc fun p => { p with hist := ({ c with time := s.time } :: p.hist).take 32 }

/-- Leave power-down for a command (R253). -/
def State.wakePc (s : State) (pc : Nat) (req : Nat) : State :=
  if (s.pc pc).powerDown then
    let t := (s.modPc pc fun p => { p with powerDown := false }).issue pc { cmd := 7, req := req }
    t.put (F.MEM_CH_STATE_POWER_DOWN (pc / 2)) (b2n (t.pc (pc / 2 * 2 + (1 - pc % 2))).powerDown)
  else s

/-- Close a bank's open row. -/
def State.closeRow (s : State) (pc b req : Nat) : State :=
  match (s.bk pc b).openRow with
  | some r => (s.modBk pc b fun x => { x with openRow := none }).issue pc { cmd := 3, bank := b, row := r, req := req }
  | none => s

/-- Rows restored by a neighbour refresh of row `r`: r - 2, r - 1, r + 1, r + 2 within 0 to 32767 (R251), with the rows
beside the spare's place for `r` and for each of those that a spare holds. -/
def Bank.neighbours (b : Bank) (r : Nat) : List Nat :=
  let around (x lo hi : Nat) := [0, 1, 3, 4].filterMap fun k =>
    if lo + 2 ≤ x + k ∧ x + k ≤ hi + 2 then some (x + k - 2) else none
  let beside := around r 0 32767
  beside ++ (r :: beside).flatMap fun x => if b.physRow x = x then [] else around (b.physRow x) 32768 32831

/-- Issue the pending neighbour refreshes of a bank (R251): the bank's row closes, and the restored rows are counted. -/
def State.neighbourRefresh (s : State) (pc b : Nat) : State :=
  let x := s.bk pc b
  if x.nref = [] then s else
  let t := s.closeRow pc b 0x3F
  let rows := x.nref.flatMap x.neighbours
  let t := t.each x.nref fun u r => u.issue pc { cmd := 5, bank := b, row := r, req := 0x3F }
  ((t.modBk pc b fun y => { y with nref := [] }).count (F.MEM_NREF_ROWS_COUNT (pc / 2) (pc % 2)) rows.length).cenPc pc 6 x.nref.length

/-- TALLY_THRESH in force (Table 9-7). -/
def State.tallyThresh (s : State) : Nat := min 2048 (max 256 (s.get F.FAB_SCHED_CFG_TALLY_THRESH))

/-- The index of the entry with the least count, the lowest on ties. -/
def leastEntry : List (Nat × Nat × Nat) → Nat
  | [] => 0
  | [_] => 0
  | e :: es =>
    let j := leastEntry es
    if e.2.1 ≤ (es.getD j (0, 0, 0)).2.1 then 0 else j + 1

/-- The tally table on an activate of row `r`, and whether it marks a neighbour refresh for `r` (R251). -/
def tallyOn (thresh : Nat) (t : List (Nat × Nat × Nat)) (r : Nat) : List (Nat × Nat × Nat) × Bool :=
  let (t, i) := match t.findIdx? fun e => e.1 = r with
    | some i => (t.modify i fun e => (e.1, (e.2.1 + 1) % 2 ^ 18, e.2.2), i)
    | none =>
      if t.length < 24 then (t ++ [(r, 1, 0)], t.length)
      else
        let i := leastEntry t
        (t.modify i fun e => (r, (e.2.1 + 1) % 2 ^ 18, e.2.1), i)
  let e := t.getD i (0, 0, 0)
  if thresh ≤ e.2.1 - e.2.2 then (t.modify i fun e => (e.1, e.2.1, e.2.1), true) else (t, false)

/-- Activate row `r` of a bank: a pending neighbour refresh goes first, an open row closes, and the tally table counts
the activate (R244, R245, R251). -/
def State.activate (s : State) (pc b r req : Nat) : State :=
  let s := (s.neighbourRefresh pc b).closeRow pc b req
  let x := s.bk pc b
  let (t, mark) := tallyOn s.tallyThresh x.tally r
  let u := (((s.modBk pc b fun y => { y with openRow := some r, tally := t }).issue pc
    { cmd := 0, bank := b, row := r, req := req }).count (F.MEM_ACTS_COUNT (pc / 2) (pc % 2)) 1).cenPc pc 3 1
  if mark then (u.modBk pc b fun y => { y with nref := y.nref ++ [r] }).count (F.MEM_TALLY_TRIG_COUNT (pc / 2) (pc % 2)) 1
  else u

/-- A requester's class (Table 9-3): a paddock engine is LINE. -/
def reqIsLine (req : Nat) : Bool := decide (req < 0x20)

/-- Whether the row stays open after an access, with the predictor updated where it decides (R245, R246, Table 9-4). -/
def Bank.afterAccess (x : Bank) (page req r : Nat) (hint : Bool) : Bank :=
  if req = 0x24 then x
  else if page = 2 then { x with openRow := none }
  else if page = 0 && reqIsLine req then (if hint then x else { x with openRow := none })
  else
    let p := if x.lastRow = none then x.pred
      else if x.lastRow = some r then min 3 (x.pred + 1) else x.pred - 1
    { x with pred := p, lastRow := some r, openRow := if 2 ≤ p then x.openRow else none }

/-! ## Reading and writing a unit (R237, R259, R263) -/

/-- An outcome of R263, in the order in which they hold: 0 CLEAN, 1 CORRECTED, 2 UE, 3 POISON as a freeze record writes
them (Table 10-5), 4 UNWRITTEN, 5 FENCED. -/
abbrev outClean : Nat := 0
abbrev outCorrected : Nat := 1
abbrev outUe : Nat := 2
abbrev outPoison : Nat := 3
abbrev outUnwritten : Nat := 4
abbrev outFenced : Nat := 5

/-- The columns of a unit that the byte enables name. -/
def unitCols (unit en : Nat) : List Nat := (maskList en 64).map fun i => 64 * unit + i

/-- How each named byte of a row reads. -/
def State.readCells (s : State) (pc b prow : Nat) (cols : List Nat) : List (Nat × ByteRead) :=
  cols.map fun col => let (d, c) := s.cell (cellAddr pc b prow col); (col, decodeByte d c)

/-- The outcome over the bytes of a unit: UE before POISON before CORRECTED (R263). -/
def outcomeOf (l : List (Nat × ByteRead)) : Nat :=
  if l.any fun e => e.2 = .ue then outUe
  else if l.any fun e => e.2 = .poison then outPoison
  else if l.any fun e => match e.2 with | .corrected _ _ => true | _ => false then outCorrected
  else outClean

/-- The value a byte reads as: a poisoned or uncorrectable byte reads 0. -/
def ByteRead.val : ByteRead → Nat
  | .clean v => v
  | .corrected v _ => v
  | _ => 0

/-- How many bytes were corrected. -/
def correctedBytes (l : List (Nat × ByteRead)) : Nat :=
  (l.filter fun e => match e.2 with | .corrected _ _ => true | _ => false).length

/-- The syndrome bits of the first beat of a unit that has a nonzero syndrome, and that beat. -/
def State.firstSynd (s : State) (pc b prow unit : Nat) : Option (Nat × Nat) :=
  ((List.range 8).map fun beat =>
    (beat, (List.range 8).foldl (fun a k =>
      let (d, c) := s.cell (cellAddr pc b prow (64 * unit + 8 * beat + k)); a + syndBits d c * 2 ^ (5 * k)) 0)).find?
    fun e => e.2 ≠ 0

/-- The bytes of a unit after the read, 0 where not enabled. -/
def unitBytes (unit : Nat) (l : List (Nat × ByteRead)) : Bytes :=
  (List.range 64).map fun i =>
    match l.find? fun e => e.1 = 64 * unit + i with
    | some e => BitVec.ofNat 8 e.2.val
    | none => 0

/-- Bring the row of an access to be open: a hit is counted, any other opens the row (R244, Table 9-10). -/
def State.openFor (s : State) (pc b r req : Nat) : State :=
  let s := (s.wakePc pc req).withDrv { s.drv with moved := s.drv.moved + 1 }
  if (s.bk pc b).openRow = some r then (s.count (F.MEM_HITS_COUNT (pc / 2) (pc % 2)) 1).cenPc pc 4 1
  else s.activate pc b r req

/-- The request sampler of the channel (R408): one request in SAMPLE_N is kept, the newest 64. -/
def State.sampleReq (s : State) (pc : Nat) (q : MemReq) : State :=
  let n := s.get F.CEN_SAMPLE_SAMPLE_N
  let c := pc / 2
  let k := Tbl.get s.cen.sampled 0 c + 1
  if n = 0 then s
  else if k < n then s.withCen { s.cen with sampled := Tbl.set s.cen.sampled 0 c k }
  else
    let old := Tbl.get s.cen.samples [] c
    let lat := min (Config.freeMeasure s.freeCtr) 2047
    let v := q.req + 64 * b2n q.wr + 128 * (pc % 2) + 256 * q.bank + 4096 * q.row + 2 ^ 27 * q.unit + 2 ^ 31 * lat +
      2 ^ 42 * min (s.pc pc).queue.length 63
    (s.withCen { s.cen with
      sampled := Tbl.set s.cen.sampled 0 c 0,
      samples := Tbl.set s.cen.samples [] c ((v :: old).take 64),
      overrun := if 64 ≤ old.length then Tbl.set s.cen.overrun false c true else s.cen.overrun }).drawn 1

/-- Read the enabled bytes of a unit, for a requester that the pseudo-channel serves: the outcome, the bytes and the
state after. A row that is not filled returns zeros with UNWRITTEN (R266). -/
def State.readUnit (s : State) (q : MemReq) (pc page : Nat) (hint : Bool) : State × Nat × Bytes :=
  let s := (((s.sampleReq pc q).openFor pc q.bank q.row q.req).cenPc pc 1 1).cenPc pc 0x0B 1
  let x := s.bk pc q.bank
  let cols := unitCols q.unit q.en
  let (l, out) := if x.rowFilled q.row then
      let l := s.readCells pc q.bank (x.physRow q.row) cols
      (l, outcomeOf l)
    else (cols.map fun c => (c, ByteRead.clean 0), outUnwritten)
  let synd := if x.rowFilled q.row then ((s.firstSynd pc q.bank (x.physRow q.row) q.unit).map (·.2)).getD 0 else 0
  let oc := if out = outUnwritten then 0 else out
  let s := s.issue pc { cmd := 1, bank := q.bank, unit := q.unit, req := q.req, row := q.row, synd := synd, outc := oc }
  let n := correctedBytes l
  let s := (s.count (F.MEM_CE_COUNT (pc / 2) (pc % 2)) n).cenPc pc 7 n
  let s := if out = outPoison then (s.count (F.MEM_POISON_RD_COUNT (pc / 2) (pc % 2)) 1).cenPc pc 8 1 else s
  let s := if out = outUnwritten then s.count (F.MEM_UNWRITTEN_RD_COUNT (pc / 2) (pc % 2)) 1 else s
  (s.modBk pc q.bank (fun y => y.afterAccess page q.req q.row hint), out, unitBytes q.unit l)

/-- The 104-bit flip mask of a pseudo-channel (R272). -/
def State.flipMask (s : State) (pc : Nat) : Nat :=
  let (c, p) := pcIdx pc
  s.get (F.MEM_FLIPMASK_MASK c p 0) + 2 ^ 32 * s.get (F.MEM_FLIPMASK_MASK c p 1) +
    2 ^ 64 * s.get (F.MEM_FLIPMASK_MASK c p 2) + 2 ^ 96 * s.get (F.MEM_FLIPMASK3_MASK c p)

/-- What the flip mask XORs into byte `k` of a beat: data bits from byte lane k, check bit j from bit k of lane 8 + j
(R260, R272). -/
def flipOf (mask k : Nat) : Nat × Nat :=
  (bits mask (8 * k) 8, listMask ((List.range 5).filter fun j => mask.testBit (64 + 8 * j + k)))

/-- Write the enabled bytes of a unit: the row's group is filled first (R266), each byte's 13-bit word is replaced
(R259), and an armed flip mask for this requester is applied and cleared (R272). -/
def State.writeUnit (s : State) (q : MemReq) (pc page : Nat) (hint : Bool) : State :=
  let (c, p) := pcIdx pc
  let s := (((s.sampleReq pc q).openFor pc q.bank q.row q.req).cenPc pc 2 1).cenPc pc 0x0B 1
  let s := s.fillGroup pc q.bank q.row
  let prow := (s.bk pc q.bank).physRow q.row
  let flip := s.flag (F.MEM_FLIP_CTRL_ARM c p) && decide (s.get (F.MEM_FLIP_CTRL_FLIP_REQ c p) = q.req)
  let beats := s.get (F.MEM_FLIP_CTRL_BEATS c p)
  let mask := s.flipMask pc
  let s := s.each (maskList q.en 64) fun t i =>
    let d := (q.data.getD i 0).toNat
    let (fd, fc) := if flip && beats.testBit (i / 8) then flipOf mask (i % 8) else (0, 0)
    t.putCell (cellAddr pc q.bank prow (64 * q.unit + i)) (d ^^^ fd) (checkBits d ^^^ fc)
  let unitNo := 16 * (32768 * q.bank + q.row) + q.unit
  let s := s.modPc pc fun x => { x with flipped := (if flip then [unitNo] else []) ++ x.flipped.filter (· ≠ unitNo) }
  let s := if flip then
      ((((s.put (F.MEM_FLIP_CTRL_ARM c p) 0).put (F.MEM_FLIP_ADDR_BANK c p) q.bank).put (F.MEM_FLIP_ADDR_UNIT c p) q.unit).put
        (F.MEM_FLIP_ADDR_VALID c p) 1).put (F.MEM_FLIP_ADDR_ROW c p) q.row
    else s
  (s.issue pc { cmd := 2, bank := q.bank, unit := q.unit, req := q.req, row := q.row }).modBk pc q.bank fun y =>
    y.afterAccess page q.req q.row hint

/-- Answer a request FENCED (R274): a read returns zeros, a write is discarded; counted (R263). -/
def State.answerFenced (s : State) (pc req : Nat) (wr : Bool) : State :=
  (s.count (F.MEM_FENCED_REQ_COUNT (pc / 2) (pc % 2)) 1).emit
    (.memAnswer req outFenced (if wr then [] else List.replicate 64 0))

/-! ## The freeze record (R273, Table 10-4) -/

/-- A command entry of the freeze record. -/
def cmdBytes (now : Nat) (e : MemCmd) : Bytes :=
  leBytes (min (now - e.time) 65535 * 65536 + e.cmd * 4096 + e.bank * 256 + e.unit * 16) 4 ++
    leBytes (e.req * 2 ^ 26 + e.outc * 2 ^ 24 + e.row) 4 ++ leBytes e.synd 4 ++ leBytes (e.synd / 2 ^ 32) 4

/-- The state of a bank as the freeze record keeps it. -/
def Bank.freezeWord (b : Bank) : Nat :=
  (match b.openRow with | some r => r + 32768 | none => 0) + b.refNext * 65536 + min b.postpone 4 * 2 ^ 29

/-- The temperature of core-die sensor `c` in whole degrees, as a signed byte. -/
def State.coreTempByte (s : State) (c : Nat) : Nat := unsigned 8 (signed 16 (s.get (F.THM_CORE_TEMP c)) / 4)

/-- The 640 bytes of the freeze record for cause `cause` at the newest command of the history. `col` says whether that
command is a column command. -/
def State.freezeRecord (s : State) (pc cause : Nat) (q : MemReq) (col : Bool) : Bytes :=
  let p := s.pc pc
  let c := pc / 2
  let prow := (s.bk pc q.bank).physRow q.row
  let ueBeat := (List.range 8).find? fun beat => (List.range 8).any fun k =>
    let (d, ch) := s.cell (cellAddr pc q.bank prow (64 * q.unit + 8 * beat + k)); decide (decodeByte d ch = .ue)
  let beat := if col && cause = 1 then ueBeat else none
  let ueMask := match beat with
    | some b => listMask ((List.range 8).filter fun k =>
        let (d, ch) := s.cell (cellAddr pc q.bank prow (64 * q.unit + 8 * b + k)); decide (decodeByte d ch = .ue))
    | none => 0
  let synd := match beat with
    | some b => (List.range 8).foldl (fun a k =>
        let (d, ch) := s.cell (cellAddr pc q.bank prow (64 * q.unit + 8 * b + k)); a + syndBits d ch * 2 ^ (5 * k)) 0
    | none => 0
  let flags := b2n (s.flag (F.MEM_CH_STATE_HOT c)) + 2 * b2n (s.flag (F.MEM_CH_STATE_CATCHUP c)) +
    4 * b2n (s.flag (F.MEM_PC_STATE_LAME c (pc % 2))) + 8 * b2n (s.flag (F.MEM_CAL_STATE_RUNNING c (pc % 2))) +
    16 * b2n (p.flipped.contains (16 * (32768 * q.bank + q.row) + q.unit))
  [BitVec.ofNat 8 cause, BitVec.ofNat 8 q.req, BitVec.ofNat 8 q.bank, if col then BitVec.ofNat 8 q.unit else 0xFF] ++
    leBytes q.row 2 ++ [match beat with | some b => BitVec.ofNat 8 b | none => 0xFF, BitVec.ofNat 8 ueMask] ++
    leBytes synd 8 ++ leBytes s.time 8 ++
    [BitVec.ofNat 8 (s.coreTempByte c), BitVec.ofNat 8 flags, BitVec.ofNat 8 (min 64 p.queue.length), BitVec.ofNat 8 p.hist.length] ++
    List.replicate 36 0 ++ ((List.range 16).flatMap fun b => leBytes (s.bk pc b).freezeWord 4) ++
    slice (p.hist.flatMap (cmdBytes s.time)) 0 512

/-- Freeze a pseudo-channel (R273): the queue stops as it stood, the record is captured and copied to NV, the
pseudo-channel is fenced and MEM_FREEZE raised. -/
def State.freezePc (s : State) (pc cause : Nat) (q : MemReq) (col : Bool) : State :=
  if s.frozen pc then s else
  let (c, p) := pcIdx pc
  let rec_ := s.freezeRecord pc cause q col
  let s := s.putBytes (A.MEM_FREEZE_REC c p 0) 160 rec_
  let s := (((s.put (F.MEM_INTEG_STATE_FROZEN c p) 1).put (F.MEM_INTEG_STATE_CAUSE c p) cause).put
    (F.MEM_INTEG_STATE_REC_READ c p) 0).put (F.MEM_INTEG_STATE_REC_STALE c p) 0
  s.raise (Ev.memFreeze c)

/-! ## Sparing a row (R278, R279) -/

/-- The lowest spare of a bank that no repair has taken. -/
def Bank.freeSpare (b : Bank) : Option Nat := (List.range 64).find? fun i => !b.spares.any fun e => e.2 = i

/-- Copy a row's 16 units into a spare: bytes that decode are written corrected, UE bytes with poison, and poison stays
poison (R279, R262). -/
def State.copyRow (s : State) (pc b src dst : Nat) : State :=
  s.each (List.range 1024) fun t col =>
    let (d, c) := t.cell (cellAddr pc b src col)
    match decodeByte d c with
    | .clean v => t.storeByte (cellAddr pc b dst col) v
    | .corrected v _ => t.storeByte (cellAddr pc b dst col) v
    | _ => t.storePoison (cellAddr pc b dst col)

/-- Spare row `r` of a bank onto spare `i`: copy, remap, and record the repair in NV unless that write fails. -/
def State.spareRow (s : State) (pc b r i : Nat) (nvFail : Bool) : State :=
  let s := s.copyRow pc b ((s.bk pc b).physRow r) (32768 + i)
  let s := s.modBk pc b fun x => { x with spares := (r, i) :: x.spares }
  if nvFail then s else
  let s := s.withNv { s.nv with repair := Tbl.set s.nv.repair [] (16 * pc + b) (s.bk pc b).spares }
  s.put (F.MEM_TSV_SPARE_ROWS_SPARED (pc / 2) (pc % 2))
    (((List.range 16).map fun k => (Tbl.get s.nv.repair [] (16 * pc + k)).length).sum)

/-- A free TSV spare lane (R280). -/
def State.freeTsv (s : State) (pc : Nat) : Option Nat :=
  let (c, p) := pcIdx pc
  if !s.flag (F.MEM_TSV_SPARE_S0_VALID c p) then some 0
  else if !s.flag (F.MEM_TSV_SPARE_S1_VALID c p) then some 1 else none

/-- Free TSV spares of a pseudo-channel. -/
def State.freeTsvs (s : State) (pc : Nat) : Nat :=
  let (c, p) := pcIdx pc
  2 - s.get (F.MEM_TSV_SPARE_S0_VALID c p) - s.get (F.MEM_TSV_SPARE_S1_VALID c p)

/-- Steer a TSV bit onto spare lane `i` and record it (R280). -/
def State.steerTsv (s : State) (pc tsv i : Nat) : State :=
  let (c, p) := pcIdx pc
  if i = 0 then (s.put (F.MEM_TSV_SPARE_S0_VALID c p) 1).put (F.MEM_TSV_SPARE_S0_TSV c p) tsv
  else (s.put (F.MEM_TSV_SPARE_S1_VALID c p) 1).put (F.MEM_TSV_SPARE_S1_TSV c p) tsv

/-! ## Self-refresh (R254, R255) -/

/-- A pseudo-channel enters self-refresh by its controller's own steps (R254): the queue empties except a frozen one,
postponed refreshes and pending neighbour refreshes are issued, and open rows close. -/
def State.quietPc (s : State) (pc : Nat) : State :=
  let s := if s.frozen pc then s else s.modPc pc fun p => { p with queue := [] }
  let s := s.each (List.range 16) fun t b =>
    let t := (t.neighbourRefresh pc b).closeRow pc b 0x3F
    t.modBk pc b fun x => { x with refNext := (x.refNext + x.postpone) % 8192, postpone := 0 }
  s.issue pc { cmd := 8, req := 0x3F }

/-- A channel is put into self-refresh: SELF_REFRESH reads 1 and rows are closed. -/
def State.enterSelfRefresh (s : State) : State :=
  s.each (List.range s.nChans) fun t c =>
    if t.chRole c = 2 then t else
    let t := t.put (F.MEM_CH_STATE_SELF_REFRESH c) 1
    t.each [2 * c, 2 * c + 1] fun u pc =>
      u.each (List.range 16) fun w b => w.modBk pc b fun x => { x with openRow := none }

/-- The controllers start again under R254: each pseudo-channel leaves self-refresh and issues one refresh to every bank
before it serves anything. The command history begins afresh (Table 10-4 COUNT). -/
def State.leaveSelfRefresh (s : State) : State :=
  s.each (List.range s.nChans) fun t c =>
    if t.chRole c = 2 then t else
    let t := t.put (F.MEM_CH_STATE_SELF_REFRESH c) 0
    t.each [2 * c, 2 * c + 1] fun u pc =>
      let u := (u.modPc pc fun p => { p with hist := [] }).issue pc { cmd := 9, req := 0x3F }
      u.each (List.range 16) fun w b =>
        let w := w.issue pc { cmd := 4, bank := b, row := 4 * (w.bk pc b).refNext, req := 0x3F }
        w.modBk pc b fun x => { x with refNext := (x.refNext + 1) % 8192 }

end Sys2Proof.Machine
end

