-- ==== Sys2Proof/Machine/Ports.lean ====
section
/-!
DEFINITION. A port's parts, what the running fold grants it, and its two message channels: reverse words on the ack tones
(R62 to R64) and the embedded operations channel (R106, R107).
-/
namespace Sys2Proof.Machine

/-! ## The parts of a port -/

/-- The line of port `n`. -/
def State.ln (s : State) (n : Nat) : Line := Tbl.get s.line {} n
/-- The state with the line of port `n` changed. -/
def State.modLn (s : State) (n : Nat) (f : Line → Line) : State := s.withLine (Tbl.set s.line {} n (f (s.ln n)))
/-- The paddock engine of port `n`. -/
def State.pd (s : State) (n : Nat) : Pad := Tbl.get s.pad {} n
/-- The state with the paddock engine of port `n` changed. -/
def State.modPd (s : State) (n : Nat) (f : Pad → Pad) : State := s.withPad (Tbl.set s.pad {} n (f (s.pd n)))
/-- Host lane `m`. -/
def State.hl (s : State) (m : Nat) : Lane := Tbl.get s.lane {} m
/-- The state with host lane `m` changed. -/
def State.modHl (s : State) (m : Nat) (f : Lane → Lane) : State := s.withLane (Tbl.set s.lane {} m (f (s.hl m)))

/-- The lane that serves port `n` (R24). -/
def State.laneOf (s : State) (n : Nat) : Option Nat :=
  (List.range s.nPorts).find? fun m => decide (s.get (F.HL_CFG_RATE m) ≠ 0) && decide (s.get (F.HL_CFG_PORT m) = n)

/-! ## Entries of the piste map (Table 6-1), as their two 64-bit words -/

/-- START, and the other fields of an entry by their names. -/
def eStart (w0 : Nat) : Int := signed 40 w0
@[inherit_doc eStart] def eLen (w0 : Nat) : Nat := bits w0 40 24
@[inherit_doc eStart] def ePorts (w1 : Nat) : Nat := bits w1 0 16
/-- The entry arms in a direction of travel: true toward increasing position. -/
def eDir (w1 : Nat) (up : Bool) : Bool := w1.testBit (if up then 16 else 17)
@[inherit_doc eStart] def eProf (w1 : Nat) : Nat := bits w1 18 2
@[inherit_doc eStart] def eBoost (w1 : Nat) : Nat := bits w1 20 7
@[inherit_doc eStart] def eConf (w1 : Nat) : Nat := bits w1 28 4
@[inherit_doc eStart] def eHits (w1 : Nat) : Nat := bits w1 32 12
@[inherit_doc eStart] def eAge (w1 : Nat) : Nat := bits w1 44 8
@[inherit_doc eStart] def eLead (w1 : Nat) : Nat := bits w1 52 8
@[inherit_doc eStart] def eLearned (w1 : Nat) : Bool := w1.testBit 60
@[inherit_doc eStart] def eValid (w1 : Nat) : Bool := w1.testBit 61
@[inherit_doc eStart] def eLock (w1 : Nat) : Bool := w1.testBit 62
/-- What R164 asks of a valid entry. -/
def entryOk (w0 w1 : Nat) : Bool :=
  decide (eLen w0 ≠ 0) && decide (eBoost w1 ≤ 64) && decide (eStart w0 + eLen w0 < 549755813888) && !w1.testBit 27 && !w1.testBit 63

/-- An entry that names port `n` is armed (R165). -/
def State.zoneArmed (s : State) (n : Nat) : Bool := s.piste.armed.any fun a => !a.track && (ePorts a.w1).testBit n

/-! ## Calibration units: ports 0 to 15, pseudo-channel i at 16 + i (R224) -/

/-- The run of a unit. -/
def State.calOf (s : State) (u : Nat) : Cal := Tbl.get s.cal {} u
/-- The state with the run of a unit changed. -/
def State.modCal (s : State) (u : Nat) (f : Cal → Cal) : State := s.withCal (Tbl.set s.cal {} u (f (s.calOf u)))

/-- The trim registers of a unit. -/
def trimRegs (u : Nat) : List Nat :=
  if u < 16 then (List.range 8).map (A.PORT_TRIM_ADC u) ++ [A.PORT_TRIM_HYB u]
  else (List.range 13).map (A.MEM_TRIM ((u - 16) / 2) ((u - 16) % 2))

/-- RUNNING, DUE, LAST_FAILED, FAIL_STAGE and T_LAST of a unit. -/
def calRunning (u : Nat) : Fld := if u < 16 then F.PORT_CAL_STATE_RUNNING u else F.MEM_CAL_STATE_RUNNING ((u - 16) / 2) ((u - 16) % 2)
@[inherit_doc calRunning] def calDue (u : Nat) : Fld :=
  if u < 16 then F.PORT_CAL_STATE_DUE u else F.MEM_CAL_STATE_DUE ((u - 16) / 2) ((u - 16) % 2)
@[inherit_doc calRunning] def calFailed (u : Nat) : Fld :=
  if u < 16 then F.PORT_CAL_STATE_LAST_FAILED u else F.MEM_CAL_STATE_LAST_FAILED ((u - 16) / 2) ((u - 16) % 2)
@[inherit_doc calRunning] def calFailStage (u : Nat) : Fld :=
  if u < 16 then F.PORT_CAL_STATE_FAIL_STAGE u else F.MEM_CAL_STATE_FAIL_STAGE ((u - 16) / 2) ((u - 16) % 2)
@[inherit_doc calRunning] def calTLast (u : Nat) : Fld :=
  if u < 16 then F.PORT_CAL_STATE_T_LAST u else F.MEM_CAL_STATE_T_LAST ((u - 16) / 2) ((u - 16) % 2)

/-- Units in a run, as THM_CAL_STATUS shows them. -/
def State.showRuns (s : State) : State := s.put F.THM_CAL_STATUS_RUNNING (s.cal.filter fun e => decide (e.2.stage ≠ 0)).length

/-- DIAG_REFLECT's sweeps run on the port: negotiation, a wait for a token and search are suspended (R215). -/
def State.sweeps (s : State) (n : Nat) : Bool := s.flag (F.PORT_DIAG_STATE_RUNNING n)

/-- The port's unit has no T_LAST and is in its ADC stage, which is done before training starts (Table 8-6). -/
def State.adcFirst (s : State) (n : Nat) : Bool := decide ((s.calOf n).stage = 1) && !(s.calOf n).valid

/-- A run ends without completing: its unit keeps the values it had before the run, and stays due. -/
def State.dropRun (s : State) (u : Nat) : State :=
  let c := s.calOf u
  if c.stage = 0 then s else
  let s := s.each ((trimRegs u).zip c.old) fun t e => t.putWord e.1 e.2
  ((s.modCal u fun c => { c with stage := 0, failed := 0, old := [], outcome := 3 }).put (calRunning u) 0).showRuns

/-! ## The running fold (chapter 2) -/

/-- The body of a section of the running fold; empty where it has none. -/
def State.sec_ (s : State) (id : Nat) : Bytes := Tbl.get s.fold.sections [] id
/-- MODES of port `n` (Table 2-4). -/
def State.pModes (s : State) (n : Nat) : Nat := uLe (s.sec_ 1) (16 * n) 2
/-- SLICES of port `n`. -/
def State.pSlices (s : State) (n : Nat) : Nat := u8 (s.sec_ 1) (16 * n + 2)
/-- PRIORITY of port `n`. -/
def State.pPriority (s : State) (n : Nat) : Nat := u8 (s.sec_ 1) (16 * n + 3)
/-- MAX_RATE of port `n`. -/
def State.pMaxRate (s : State) (n : Nat) : Nat := uLe (s.sec_ 1) (16 * n + 4) 2
/-- PFLAGS of port `n`. -/
def State.pFlags (s : State) (n : Nat) : Nat := u8 (s.sec_ 1) (16 * n + 6)
/-- PAD_TX_MIB, PAD_RX_MIB, PAD_MIN_MIB of port `n`; 0 where its MODES does not allow paddock retransmission (R25). -/
def State.pPad (s : State) (n : Nat) : Nat × Nat × Nat :=
  if (s.pModes n).testBit 9 then (u8 (s.sec_ 1) (16 * n + 8), u8 (s.sec_ 1) (16 * n + 9), u8 (s.sec_ 1) (16 * n + 10))
  else (0, 0, 0)
/-- VEC_MASK of flock `k` (Table 2-6). -/
def State.vecMask (s : State) (k : Nat) : Nat := u8 (s.sec_ 1) (0x100 + 8 * k) % 16
/-- Port `n` is in its flock's VEC_MASK. -/
def State.inVec (s : State) (n : Nat) : Bool := (s.vecMask (n / 4)).testBit (n % 4)
/-- An enabled bypass pair `m`: front and rear port. -/
def State.bypass (s : State) (m : Nat) : Option (Nat × Nat) :=
  let e := 0x120 + 4 * m
  if u8 (s.sec_ 1) (e + 2) = 1 then some (u8 (s.sec_ 1) e, u8 (s.sec_ 1) (e + 1)) else none

/-! ## Link state -/

/-- The link of port `n` is in service. -/
def State.up (s : State) (n : Nat) : Bool := s.flag (F.PORT_LINK_STATUS_UP n)
/-- MODE of PORT_LINK_STATUS. -/
def State.mode (s : State) (n : Nat) : Nat := s.get (F.PORT_LINK_STATUS_MODE n)
/-- The port is up in ILM. -/
def State.upIlm (s : State) (n : Nat) : Bool := s.up n && decide (6 ≤ s.mode n) && decide (s.mode n ≤ 8)
/-- The port is up in a legacy mode. -/
def State.upLegacy (s : State) (n : Nat) : Bool := s.up n && decide (1 ≤ s.mode n) && decide (s.mode n ≤ 5)
/-- The port is up in Traverse. -/
def State.upTrv (s : State) (n : Nat) : Bool := s.up n && decide (s.mode n = 9)
/-- STATE of PORT_AN_STATUS. -/
def State.an (s : State) (n : Nat) : Nat := s.get (F.PORT_AN_STATUS_STATE n)
/-- Paddock retransmission runs on the link. -/
def State.padOn (s : State) (n : Nat) : Bool := s.flag (F.PORT_PAD_STATE_ACTIVE n)
/-- The running or coming link is ILM v2 (R90). -/
def State.isV2 (s : State) (n : Nat) : Bool := decide (s.get (F.PORT_ILM_STATE_VERSION n) = 2)
/-- The superframe count. -/
def State.sfc (s : State) (n : Nat) : Nat := s.get (F.PORT_ILM_SFC_COUNT n)
/-- The profile in force in a direction. -/
def State.prof (s : State) (n : Nat) (rx : Bool) : Nat := s.get (if rx then F.PORT_ILM_STATE_PROF_RX n else F.PORT_ILM_STATE_PROF_TX n)
/-- Any profile other than Normal is in force on the link (R72). -/
def State.swapped (s : State) (n : Nat) : Bool := s.upIlm n && (decide (s.prof n false ≠ 0) || decide (s.prof n true ≠ 0))
/-- The embedded operations channel is open: from phase 1 of training to the end of service (R106). -/
def State.eocOpen (s : State) (n : Nat) : Bool :=
  decide (s.get (F.PORT_LINK_STATUS_PHASE n) ≠ 0) || decide (s.an n = 5) || s.upIlm n

/-- Counts compared modulo 2^32 (R41): `a` lies after `c`. -/
def sfAfter (a c : Nat) : Bool := let d := (a + 2 ^ 32 - c % 2 ^ 32) % 2 ^ 32; decide (1 ≤ d) && decide (d < 2 ^ 31)
/-- SEQ values compared modulo 2^24 (R124). -/
def seqAfter (a c : Nat) : Bool := let d := (a + 2 ^ 24 - c % 2 ^ 24) % 2 ^ 24; decide (1 ≤ d) && decide (d < 2 ^ 23)
/-- The SEQ `k` after `a`. -/
def seqAdd (a k : Nat) : Nat := (a + k) % 2 ^ 24
/-- The distance from `c` forward to `a`. -/
def seqSub (a c : Nat) : Nat := (a + 2 ^ 24 - c % 2 ^ 24) % 2 ^ 24

/-! ## Reverse words (R62, Table 3-5) -/

/-- CRC-16 of HCRC and of EOC messages (Table 3-3). -/
def crc16 (bs : Bytes) : Nat := crcMsb 16 0x1021 0xFFFF bs

/-! ## The Traverse header (R190) -/

/-- The Traverse link of port `n`. -/
def State.tv (s : State) (n : Nat) : Trv := Tbl.get s.trv {} n
/-- The state with the Traverse link of port `n` changed. -/
def State.modTv (s : State) (n : Nat) (f : Trv → Trv) : State := s.withTrv (Tbl.set s.trv {} n (f (s.tv n)))

/-- The header of a burst that port `n` sends (Table 7-4). -/
def State.trvHeader (s : State) (n typ : Nat) (pass : Bool) (cause code len seq : Nat) : Bytes :=
  let t := s.tv n
  let base := match t.held with | b :: _ => b.seq | [] => t.nextSeq
  let map_ := listMask ((List.range 8).filter fun i => t.got.any fun e => e.1 = (t.ackSeq + 2 + i) % 256)
  let h := [typ, b2n pass + 16 * cause, code + 4 * t.reqRx, len % 256, len / 256, seq, base, t.ackSeq, map_,
    s.get (F.PORT_TRV_STATE_Q0_RX n)].map (BitVec.ofNat 8) ++ leBytes t.tag 4
  h ++ leBytes (crc16 h) 2

/-- Send a header-only burst of a type. -/
def State.sendTrv (s : State) (n typ : Nat) (pass : Bool) (cause : Nat) : State :=
  ((s.emit (.burst n (s.trvHeader n typ pass cause 0 0 0) [])).count (F.PORT_TRV_BURST_TX_COUNT n) 1).cenPort n 0x0F 1

/-- A whole burst received is counted. -/
def State.burstOk (s : State) (n : Nat) : State := (s.count (F.PORT_TRV_BURST_OK_COUNT n) 1).cenPort n 0x10 1

/-- CHECK of a reverse word: CRC-6 over bits 31:30 and then 23:0, most significant first. -/
def revCheck (typ payload : Nat) : Nat :=
  let bs := [typ.testBit 1, typ.testBit 0] ++ (List.range 24).map fun i => payload.testBit (23 - i)
  bs.foldl (crcMsbBit 6 0x03) 0

/-- A reverse word. -/
def revWord (typ payload : Nat) : BitVec 32 :=
  BitVec.ofNat 32 (typ * 2 ^ 30 + revCheck typ payload * 2 ^ 24 + payload % 2 ^ 24)

/-- The CHECK of a received reverse word holds. -/
def revOk (w : BitVec 32) : Bool := decide (bits w.toNat 24 6 = revCheck (bits w.toNat 30 2) (bits w.toNat 0 24))

/-- Owe a NAK word (Table 5-1): FIRST, GOBACK, RUN. -/
def State.oweNak (s : State) (n first run : Nat) : State :=
  let p := if run ≤ 128 then (first % 65536) * 256 + (run - 1) else (first % 65536) * 256 + 128
  (s.modLn n fun l => { l with nakQ := l.nakQ ++ [p] }).count (F.PORT_PAD_NAK_TX_COUNT n) 1

/-- A SWAP payload (Table 3-6). -/
def swapPayload (op : Nat) (dir : Bool) (kind arg sf : Nat) : Nat :=
  op * 2 ^ 21 + b2n dir * 2 ^ 20 + kind * 2 ^ 18 + arg * 2 ^ 16 + sf % 65536

/-- Owe a SWAP word. -/
def State.oweSwap (s : State) (n op : Nat) (dir : Bool) (kind arg sf : Nat) : State :=
  s.modLn n fun l => { l with swapQ := l.swapQ ++ [swapPayload op dir kind arg sf] }

/-- The reverse word for the next data symbol: NAK, SWAP, ACK, then EOC (R64). -/
def State.nextWord (s : State) (n : Nat) : State × BitVec 32 :=
  let l := s.ln n
  match l.nakQ, l.swapQ with
  | p :: r, _ => ((s.modLn n fun l => { l with nakQ := r }).cenPort n 0x06 1, revWord 1 p)
  | [], p :: r => (s.modLn n fun l => { l with swapQ := r }, revWord 2 p)
  | [], [] =>
    if l.ackDue && s.padOn n then
      (s.modLn n fun l => { l with ackDue := false, ackGap := 0, cumAdv := false }, revWord 0 (s.get (F.PORT_PAD_RXSEQ_CUM n)))
    else (s.modLn n fun l => { l with eocQ := l.eocQ.drop 3 }, revWord 3 (uLe l.eocQ 0 3))

/-! ## The embedded operations channel (R106, R107) -/

/-- Message types that carry NOACK (Tables 4-5 and 6-3). -/
def eocNoack (typ : Nat) : Bool := [0x01, 0x10, 0x13, 0x14, 0x16, 0x24, 0x50].contains typ

/-- The bytes of a message on the stream, with the fill that follows it (Table 4-4). -/
def Eoc.bytes (m : Eoc) (resend : Bool) : Bytes :=
  let b := [BitVec.ofNat 8 m.typ, BitVec.ofNat 8 m.seq, BitVec.ofNat 8 (b2n m.noack + 2 * b2n resend)] ++
    leBytes m.body.length 2 ++ m.body
  b ++ leBytes (crc16 b) 2 ++ [0, 0, 0]

/-- Put a message on the stream, and take its SEQ where it is acknowledged. -/
def State.putEoc (s : State) (n : Nat) (m : Eoc) : State :=
  let s := s.cenHerd 0x03 1
  if m.noack then s.modLn n fun l => { l with eocQ := l.eocQ ++ m.bytes false }
  else
    let m := { m with seq := (s.ln n).eocSeq }
    s.modLn n fun l => { l with
      eocQ := l.eocQ ++ m.bytes false, eocSeq := (l.eocSeq + 1) % 256,
      unacked := l.unacked ++ [{ msg := m, sentAt := s.time }] }

/-- Send a message: at most eight unacknowledged, further ones wait (R107). -/
def State.sendEoc (s : State) (n typ : Nat) (body : Bytes) : State :=
  if !s.eocOpen n then s
  else if eocNoack typ then s.putEoc n { typ := typ, noack := true, body := body }
  else if (s.ln n).unacked.length < 8 then s.putEoc n { typ := typ, body := body }
  else s.modLn n fun l => { l with waiting := l.waiting ++ [{ typ := typ, body := body }] }

/-- Send messages that wait, while fewer than eight are unacknowledged. -/
def State.sendWaiting (s : State) (n : Nat) : Nat → State
  | 0 => s
  | k + 1 =>
    match (s.ln n).waiting with
    | m :: r =>
      if (s.ln n).unacked.length < 8 then ((s.modLn n fun l => { l with waiting := r }).putEoc n m).sendWaiting n k else s
    | [] => s

/-- Numbering starts again from 0, and what the last service left unacknowledged is discarded (R107). -/
def State.eocRestart (s : State) (n : Nat) : State :=
  s.modLn n fun l => { l with
    eocSeq := 0, unacked := [], waiting := [], eocExp := 0, eocQ := [], eocRx := [], eocSkip := none, nakQ := [], swapQ := [] }

/-- Receive a message of a SEQ: whether it is delivered, and the state after the acknowledgement (R107). -/
def State.eocIn (s : State) (n typ seq : Nat) : State × Bool :=
  if !s.eocOpen n then (s, false)
  else if eocNoack typ then (s, true)
  else
    let e := (s.ln n).eocExp
    let ack (t : State) := t.sendEoc n 0x01 [BitVec.ofNat 8 seq, BitVec.ofNat 8 typ]
    if seq % 256 = e then (ack (s.modLn n fun l => { l with eocExp := (e + 1) % 256 }), true)
    else if 1 ≤ (e + 256 - seq % 256) % 256 && (e + 256 - seq % 256) % 256 ≤ 127 then (ack s, false)
    else (s, false)

/-- A message of the stream: do `f` where it is delivered. -/
def State.eocDo (s : State) (n typ seq : Nat) (f : State → State) : State :=
  let (t, ok) := s.eocIn n typ seq
  if ok then f t else t

/-- Take bytes of the receive stream (R106): a message whose CRC fails is counted, and bytes are then discarded until
three consecutive zeros have been seen. A whole message is a step of its own. -/
def eocByte (e : Nat × Bytes × Option Nat) (b : Byte) : Nat × Bytes × Option Nat :=
  let (errs, rx, skip) := e
  match skip with
  | some z => (errs, [], if b = 0 then (if z + 1 ≥ 3 then none else some (z + 1)) else some 0)
  | none =>
    if rx = [] && b = 0 then (errs, [], none) else
    let rx := rx ++ [b]
    let len := uLe rx 3 2
    if rx.length < 5 then (errs, rx, none)
    else if 2048 < len then (errs + 1, [], some 0)
    else if rx.length < 7 + len then (errs, rx, none)
    else if uLe rx (5 + len) 2 = crc16 (rx.take (5 + len)) then (errs, [], none)
    else (errs + 1, [], some 0)

/-- The bytes of an EOC reverse word. -/
def State.eocBytesIn (s : State) (n : Nat) (bs : Bytes) : State :=
  let l := s.ln n
  let (errs, rx, skip) := bs.foldl eocByte (0, l.eocRx, l.eocSkip)
  (s.modLn n fun l => { l with eocRx := rx, eocSkip := skip }).count (F.PORT_EOC_ERR_COUNT n) errs

end Sys2Proof.Machine
end

