-- ==== Sys2Proof/Machine/Evidence.lean ====
section
/-!
DEFINITION. Writes to a partition of the stack, and the evidence rings (chapter 16): records, the budget, chunks and
their marks, triggers and frozen segments.
-/
namespace Sys2Proof.Machine

/-! ## Writing a partition (R241, R242) -/

/-- The units that a byte range touches: the partition-relative address of each, its byte enables, and the place in the
range of its byte 0 (as an offset plus 64). -/
def unitsOf (a len : Nat) : List (Nat × Nat × Nat) :=
  if len = 0 then [] else
  (List.range ((a + len - 1) / 64 - a / 64 + 1)).map fun i =>
    let u := 64 * (a / 64 + i)
    (u, listMask ((List.range 64).filter fun b => decide (a ≤ u + b) && decide (u + b < a + len)), u + 64 - a)

/-- The 64 bytes of a unit of a range, 0 where the range does not reach. -/
def unitData (bs : Bytes) (o : Nat) : Bytes := (List.range 64).map fun b => if o + b < 64 then 0 else bs.getD (o + b - 64) 0

/-- The request for one unit of a partition. -/
def State.unitReq (s : State) (req k u en : Nat) (wr : Bool) (data : Bytes) : MemReq × Nat :=
  let l := s.locate k u
  ({ req := req, bank := l.bank, row := l.row, unit := l.col / 64, wr := wr, en := en, data := data }, l.pc)

/-- The open-page hint: on every access but the last to each 1 KiB chunk (R122). -/
def hintOf (u : Nat) : Bool := decide (u % 1024 ≠ 960)

/-- Write bytes to a partition; a fenced unit's write is discarded and answered FENCED (R274). The result says whether
any was. -/
def State.stackPut (s : State) (req k a : Nat) (bs : Bytes) : State × Bool :=
  (unitsOf a bs.length).foldl (fun (r : State × Bool) (e : Nat × Nat × Nat) =>
    let (q, pc) := r.1.unitReq req k e.1 e.2.1 true (unitData bs e.2.2)
    if r.1.fenced pc then (r.1.answerFenced pc req true, true)
    else (r.1.writeUnit q pc (r.1.get (F.FAB_PART_PAGE k)) (hintOf e.1), r.2)) (s, false)

/-! ## Chunks and marks (R399, R404) -/

/-- The device's position in mm (POS_POSITION, signed 40 bits). -/
def State.posMm (s : State) : Int := signed 40 (s.wide A.POS_POSITION)

/-- The EVIDENCE partition. -/
def State.evPart (s : State) : Option Nat := s.partOf 2

/-- Ring `r`'s range: first chunk and number of chunks. -/
def State.ringRange (s : State) (r : Nat) : Nat × Nat := (s.get (F.EVID_RING_CFG1_BASE_MIB r), s.get (F.EVID_RING_CFG1_SIZE_MIB r))

/-- A ring records only with ENABLE, an EVIDENCE partition, and its range within that partition (R397). -/
def State.ringValid (s : State) (r : Nat) : Bool :=
  s.flag (F.EVID_RING_CFG_ENABLE r) && match s.evPart with
    | some k => let (b, n) := s.ringRange r; decide (0 < n) && decide (b + n ≤ s.get (F.FAB_PART_SIZE_SIZE_MIB k))
    | none => false

/-- Ring `r`'s writer. -/
def State.ring (s : State) (r : Nat) : Ring := Tbl.get s.evid.rings {} r
/-- The state with a ring's writer changed. -/
def State.modRing (s : State) (r : Nat) (f : Ring → Ring) : State :=
  s.withEvid { s.evid with rings := Tbl.set s.evid.rings {} r (f (s.ring r)) }

/-- A segment descriptor in POST or FROZEN. -/
def State.segHeld (s : State) (k : Nat) : Bool := decide (s.get (F.EVID_SEG_STATE k) = 1) || decide (s.get (F.EVID_SEG_STATE k) = 2)

/-- Chunk `c` lies in a segment: from FIRST_MIB to LAST_MIB in ring order; in POST, to the chunk being written. -/
def State.segCovers (s : State) (k c : Nat) : Bool :=
  let r := s.get (F.EVID_SEG_RING k)
  let (b, n) := s.ringRange r
  let first := s.get (F.EVID_SEG_FIRST_MIB k)
  let last := if s.get (F.EVID_SEG_STATE k) = 1 then s.get (F.EVID_RING_STATE_CUR_MIB r) else s.get (F.EVID_SEG_W1_LAST_MIB k)
  decide (b ≤ c) && decide (c < b + n) &&
    (if first ≤ last then decide (first ≤ c) && decide (c ≤ last) else decide (first ≤ c) || decide (c ≤ last))

/-- Chunk `c` may not be overwritten (R402). -/
def State.chunkHeld (s : State) (c : Nat) : Bool := (List.range 8).any fun k => s.segHeld k && s.segCovers k c

/-- The marks of a chunk (EVID_IMAP). -/
def imapFld (c : Nat) : Fld := ⟨A.EVID_IMAP (c / 4), 8 * (c % 4), 8⟩

/-- Set a mark of a chunk, and show it in the descriptors of its segments (R404). -/
def State.markChunk (s : State) (m c : Nat) : State :=
  let t := s.put (imapFld c) (s.get (imapFld c) ||| (1 <<< m))
  t.each (List.range 8) fun u k =>
    if u.segHeld k && u.segCovers k c then u.put (F.EVID_SEG_MARKS k) (u.get (F.EVID_SEG_MARKS k) ||| (1 <<< m)) else u

/-- Mark every chunk that has a block of pseudo-channel `pc` satisfying `p`. -/
def State.markPc (s : State) (m pc : Nat) (p : Nat → Bool) : State :=
  match s.evPart with
  | some k => s.each (List.range (s.get (F.FAB_PART_SIZE_SIZE_MIB k))) fun t c =>
      if (t.mibBlocks k c).any fun e => e.1 = pc && p e.2 then t.markChunk m c else t
  | none => s

/-- The chunks of a ring after the current one, in ring order. -/
def State.chunksAfter (s : State) (r : Nat) : List Nat :=
  let (b, n) := s.ringRange r
  let cur := s.get (F.EVID_RING_STATE_CUR_MIB r)
  (List.range n).map fun i => b + (cur - b + 1 + i) % n

/-- Set a mark of the chunks of the EVIDENCE partition that satisfy `p`. -/
def State.markChunks (s : State) (m : Nat) (p : Nat → Nat → Bool) : State :=
  match s.evPart with
  | some k => s.each ((List.range (s.get (F.FAB_PART_SIZE_SIZE_MIB k))).filter (p k)) fun t c => t.markChunk m c
  | none => s

/-- Begin chunk `c` (R404): its marks clear, but during an unlock they stay; one that taints adds DEBUG. -/
def State.beginChunk (s : State) (r c : Nat) : State :=
  let marks := if s.flag F.SEC_SESSION_DEBUG then s.get (imapFld c) ||| (if s.evid.taint then 4 else 0) else 0
  ((s.put (F.EVID_RING_STATE_CUR_MIB r) c).put (imapFld c) marks).modRing r fun x =>
    { x with pos := 0, chunks := Tbl.set x.chunks (0, 0) c (s.time, s.get (F.EVID_RING_SEQ_SEQ r)) }

/-- Begin the next unfrozen chunk; with none the ring waits with STATE 3. -/
def State.nextChunk (s : State) (r : Nat) : State :=
  match (s.chunksAfter r).find? fun c => !s.chunkHeld c with
  | some c => s.beginChunk r c
  | none => s.put (F.EVID_RING_STATE_STATE r) 3

/-! ## Records (R398 to R400, Table 16-1) -/

/-- FLAGS of a record, before ERRORED and CUT. -/
def State.recFlags (s : State) : Nat :=
  b2n (s.flag F.POS_STATE_FIX_VALID) + 2 * b2n (s.flag F.POS_STATE_HOLD) + 4 * b2n (s.flag F.POS_STATE_DIR) +
    8 * b2n (s.flag F.POS_STATE_STOPPED)

/-- A record's header. -/
def State.recHeader (s : State) (r typ port len flags orig : Nat) : Bytes :=
  let h := [BitVec.ofNat 8 typ, BitVec.ofNat 8 port] ++ leBytes len 2 ++ leBytes (s.get (F.EVID_RING_SEQ_SEQ r)) 4 ++
    leBytes s.time 8 ++ leBytes (unsigned 40 s.posMm) 5 ++ [BitVec.ofNat 8 flags] ++
    leBytes (min (s.ring r).missed 65535) 2 ++ leBytes (s.get F.POS_ROUTE_ROUTE) 4 ++ leBytes orig 2
  h ++ leBytes (crc16 h) 2

/-- Write one record at the writer's place; a write answered FENCED is discarded, counted and marked LOST (R404). -/
def State.putRecord (s : State) (r : Nat) (rec_ : Bytes) : State :=
  match s.evPart with
  | none => s
  | some k =>
    let c := s.get (F.EVID_RING_STATE_CUR_MIB r)
    let (t, lost) := s.stackPut 0x20 k (1048576 * c + (s.ring r).pos) rec_
    let t := if lost then (t.count (F.EVID_DISCARD_COUNT r) 1).markChunk 3 c else t
    let t := t.when s.evid.taint fun u => u.markChunk 2 c
    let firstSeq := (Tbl.get (s.ring r).chunks (0, 0) c).2
    let t := t.modRing r fun x =>
      { x with pos := x.pos + rec_.length, missed := 0, chunks := Tbl.set x.chunks (0, 0) c (s.time, firstSeq) }
    ((((t.put (F.EVID_RING_SEQ_SEQ r) (t.get (F.EVID_RING_SEQ_SEQ r) + 1)).count (F.EVID_RECORDS_COUNT r) 1).cenFab 0x07 1).cenFab
      0x08 rec_.length)

/-- Fill the rest of the chunk with one PAD record. Where the rest is longer than LEN can say, LEN is a free value; where it
is shorter than a header, nothing is written. -/
def State.padChunk (s : State) (r : Nat) : State :=
  let rest := 1048576 - (s.ring r).pos
  if rest < 32 then s else
  let (len, s) := if rest - 32 < 65536 then (rest - 32, s) else (s.freeNow.toNat % 65536, s.drawn 1)
  s.putRecord r (s.recHeader r 0 0 len s.recFlags 0 ++ List.replicate (rest - 32) 0)

/-! ## Triggers and segments (R401 to R403) -/

/-- The segment of ring `r` that is in POST. -/
def State.postSeg (s : State) (r : Nat) : Option Nat :=
  (List.range 8).find? fun k => decide (s.get (F.EVID_SEG_STATE k) = 1) && decide (s.get (F.EVID_SEG_RING k) = r)

/-- Unfrozen chunks of a ring. -/
def State.freeChunks (s : State) (r : Nat) : Nat := ((s.chunksAfter r).filter fun c => !s.chunkHeld c).length

/-- The end of the stretch of a trigger now. -/
def State.stretch (s : State) (r k : Nat) : State :=
  let postS := max 1 (s.get (F.EVID_RING_CFG3_POST_S r))
  let e := s.evid
  s.withEvid { e with
    postTime := Tbl.set e.postTime 0 k (s.time + 1000000000 * postS)
    postPos := Tbl.set e.postPos none k (if s.get (F.EVID_RING_CFG3_POST_M r) = 0 then none else some s.posMm) }

/-- Freeze a segment in POST: its last chunk closes and the ring goes on in the next unfrozen chunk. `atRecord` freezes it
at the last record written and leaves the writer where it is (R403). -/
def State.freezeSeg (s : State) (k : Nat) (short atRecord : Bool) : State :=
  let r := s.get (F.EVID_SEG_RING k)
  let s := if atRecord then s else s.padChunk r
  let s := ((s.put (F.EVID_SEG_W1_LAST_MIB k) (s.get (F.EVID_RING_STATE_CUR_MIB r))).put (F.EVID_SEG_LAST_SEQ_LAST_SEQ k)
    (s.get (F.EVID_RING_SEQ_SEQ r) + 2 ^ 32 - 1)).put (F.EVID_SEG_STATE k) 2
  let s := (s.put (F.EVID_SEG_SHORT k) (b2n short)).withEvid
    { s.evid with postTime := Tbl.set s.evid.postTime 0 k 0, postPos := Tbl.set s.evid.postPos none k none }
  let s := if s.get (F.EVID_RING_STATE_STATE r) = 2 then s.put (F.EVID_RING_STATE_STATE r) 1 else s
  (if atRecord then s else s.nextChunk r).raise Ev.evidFrozen

/-- The stretch would leave the ring fewer than two unfrozen chunks: frozen at once with SHORT (R403). -/
def State.shortCheck (s : State) (r : Nat) : State :=
  match s.postSeg r with
  | some k => if s.freeChunks r < 2 then s.freezeSeg k true false else s
  | none => s

/-- Write a record of `len` bytes, in the next chunk where it does not fit. -/
def State.record (s : State) (r typ port flags orig : Nat) (body : Bytes) : State :=
  let size := 32 + (body.length + 7) / 8 * 8
  let s := if (s.ring r).pos + size ≤ 1048576 then s else ((s.padChunk r).nextChunk r).shortCheck r
  if s.get (F.EVID_RING_STATE_STATE r) = 3 then s else
  s.putRecord r (s.recHeader r typ port body.length flags orig ++ body ++ List.replicate (size - 32 - body.length) 0)

/-- The writer of ring `r` records. -/
def State.recording (s : State) (r : Nat) : Bool :=
  s.coreOn && (s.ring r).on && (decide (s.get (F.EVID_RING_STATE_STATE r) = 1) || decide (s.get (F.EVID_RING_STATE_STATE r) = 2))

/-- The record budget now: 10 Gbit/s, at most 256 KiB saved up (R399). -/
def State.budget (s : State) : Nat := min 262144 (s.evid.bucket + (s.time - s.evid.bucketAt) * 5 / 4)

/-- Mirror a frame delivered to the host lane of a port (R398, R399). -/
def State.mirror (s : State) (port : Nat) (bytes : Bytes) (errored : Bool) : State :=
  match (List.range 4).find? fun r => s.recording r && (s.get (F.EVID_RING_CFG_PORTS r)).testBit port with
  | none => s
  | some r =>
    let snap := max 64 (min 9728 (s.get (F.EVID_RING_CFG2_SNAP r)))
    let body := bytes.take snap
    let size := 32 + (body.length + 7) / 8 * 8
    let b := s.budget
    if size ≤ b then
      ((s.withEvid { s.evid with bucket := b - size, bucketAt := s.time }).record r 1 port
        (s.recFlags + 16 * b2n errored + 32 * b2n (decide (snap < bytes.length))) bytes.length body).cenPort port 0x12 1
    else
      let t := (((s.count (F.EVID_NOT_REC_COUNT r) 1).modRing r fun x => { x with missed := x.missed + 1 }).cenFab 0x09 1).cenPort
        port 0x13 1
      if s.evid.budgetAt.all fun t0 => decide (t0 + 1000000000 ≤ s.time) then
        (t.withEvid { t.evid with budgetAt := some s.time }).raiseEvidBudget
      else t

/-- A trigger of source `src` on ring `r` (R402, R403). -/
def State.trigger (s : State) (r src : Nat) : State :=
  let refuse (t : State) := (t.count F.EVID_TRIG_REFUSED_COUNT 1).raiseTrigRefused
  if !s.recording r then refuse s else
  let s := s.record r 2 src s.recFlags 0 []
  match s.postSeg r with
  | some k => s.stretch r k
  | none =>
    match (List.range 8).find? fun k => decide (s.get (F.EVID_SEG_STATE k) = 0) with
    | none => refuse s
    | some k =>
      let pre := s.time - 1000000000 * s.get (F.EVID_RING_CFG2_PRE_S r)
      let cs := (s.chunksAfter r).filter fun c => !s.chunkHeld c && (s.ring r).chunks.any fun e => e.1 = c
      let first := ((cs.find? fun c => pre ≤ (Tbl.get (s.ring r).chunks (0, 0) c).1).orElse fun _ => cs.head?).getD
        (s.get (F.EVID_RING_STATE_CUR_MIB r))
      let s := s.each [(F.EVID_SEG_STATE k, 1), (F.EVID_SEG_RING k, r), (F.EVID_SEG_SRC k, src), (F.EVID_SEG_EXPORTED k, 0),
        (F.EVID_SEG_SHORT k, 0), (F.EVID_SEG_FIRST_MIB k, first), (F.EVID_SEG_W1_LAST_MIB k, 0),
        (F.EVID_SEG_FIRST_SEQ_FIRST_SEQ k, (Tbl.get (s.ring r).chunks (0, 0) first).2), (F.EVID_SEG_LAST_SEQ_LAST_SEQ k, 0)]
        fun t e => t.put e.1 e.2
      let s := (s.putWide (A.EVID_SEG_TIME k) s.time).putWide (A.EVID_SEG_POS k) (unsigned 64 s.posMm)
      let (b, n) := s.ringRange r
      let marks := (List.range n).foldl (fun m i => if s.segCovers k (b + i) then m ||| s.get (imapFld (b + i)) else m) 0
      let s := (s.put (F.EVID_SEG_MARKS k) marks).put (F.EVID_RING_STATE_STATE r) 2
      (s.stretch r k).shortCheck r

/-- The oldest unfrozen chunk of a ring: one that holds no record of the ring, and otherwise the one whose newest record is oldest;
of equal ones the first in ring order after the current chunk. -/
def State.oldestChunk (s : State) (r : Nat) : Option Nat :=
  let age (c : Nat) : Nat := (Tbl.get (s.ring r).chunks (0, 0) c).1
  ((s.chunksAfter r).filter fun c => !s.chunkHeld c).foldl (fun (o : Option Nat) c => match o with
    | none => some c
    | some d => if age c < age d then some c else some d) none

/-- Where a ring's writer stands before it starts: at its current chunk, or, where that is outside the range or nothing is written
yet, at the last chunk of the range, so that BASE_MIB comes next. -/
def State.seekRing (s : State) (r : Nat) : State :=
  let (b, n) := s.ringRange r
  let cur := s.get (F.EVID_RING_STATE_CUR_MIB r)
  let here := decide (b ≤ cur) && decide (cur < b + n) && !(s.ring r).chunks.isEmpty
  if here then s else s.put (F.EVID_RING_STATE_CUR_MIB r) (b + n - 1)

/-- The writer begins at the oldest unfrozen chunk; with a segment in POST it goes on in the next chunk, so that the stretch stays
whole. -/
def State.firstChunk (s : State) (r : Nat) : State :=
  match s.postSeg r, s.oldestChunk r with
  | none, some c => s.beginChunk r c
  | _, _ => (s.nextChunk r).shortCheck r

/-- Start a ring's writer at its oldest unfrozen chunk with a RESUME record (R397). -/
def State.startRing (s : State) (r : Nat) : State :=
  if (s.ring r).on || !s.ringValid r then s else
  let s := s.seekRing r
  let s := (s.put (F.EVID_RING_STATE_STATE r) (1 + b2n (s.postSeg r).isSome)).modRing r fun x => { x with on := true }
  let s := s.firstChunk r
  if s.get (F.EVID_RING_STATE_STATE r) = 3 then s else s.record r 3 0 s.recFlags 0 []

/-- Stop a ring's writer at a record boundary; a segment in POST freezes there (R403). -/
def State.stopRing (s : State) (r : Nat) : State :=
  let s := match s.postSeg r with | some k => s.freezeSeg k false true | none => s
  if !(s.ring r).on then s else (s.modRing r fun x => { x with on := false }).put (F.EVID_RING_STATE_STATE r) 0

/-- Every segment in use becomes LOST (R403). -/
def State.loseSegs (s : State) : State :=
  let held := (List.range 8).filter s.segHeld
  let t := s.each held fun t k => t.put (F.EVID_SEG_STATE k) 3
  if held = [] then t else t.raiseSegLost

/-- Free the segment descriptors and clear the integrity map (R403). -/
def State.clearEvidence (s : State) : State :=
  let t := s.each (List.range 8) fun t k => t.each [A.EVID_SEG k, A.EVID_SEG_W1 k, A.EVID_SEG_TIME k, A.EVID_SEG_TIME k + 4,
    A.EVID_SEG_POS k, A.EVID_SEG_POS k + 4, A.EVID_SEG_FIRST_SEQ k, A.EVID_SEG_LAST_SEQ k] fun u a => u.putWord a 0
  t.dropWords (A.EVID_IMAP 0) 16384

end Sys2Proof.Machine
end

