-- ==== Sys2Proof/Machine/Security.lean ====
section
/-!
DEFINITION. Roles, sessions, the audit log and the debug state (chapter 15).
-/
namespace Sys2Proof.Machine

/-! ## Life cycle and rights (R377, R378) -/

/-- The life cycle state: 0 MFG, 1 PROV, 2 FIELD, 3 RMA, 4 END. -/
def State.lc (s : State) : Nat := s.get F.SEC_STATE_LC

/-- The role of the session in force: 0 none, 1 operator, 2 installer, 3 maker. -/
def State.role (s : State) : Nat := s.get F.SEC_SESSION_ROLE

/-- A right of least role `need` under a role: in MFG every right is held without a session, in END none is. -/
def State.mayAs (s : State) (role need : Nat) : Bool := decide (s.lc ≠ 4) && (decide (s.lc = 0) || decide (need ≤ role))

/-- A right of least role `need`, for an access that arrives now (R379). -/
def State.may (s : State) (need : Nat) : Bool := s.mayAs s.role need

/-- OP_CMDS of the running fold (R379, Table 15-2). -/
def State.opCmds (s : State) : Nat := if s.sec_ 9 = [] then 0x180 else uLe (s.sec_ 9) 0 4
/-- CENSUS_OP of the running fold. -/
def State.censusOp (s : State) : Bool := bit (u8 (s.sec_ 9) 4) 0
/-- AUDIT_OP of the running fold. -/
def State.auditOp (s : State) : Bool := bit (u8 (s.sec_ 9) 4) 1
/-- OP_LIFE_MIN and INST_LIFE_MIN of the running fold. -/
def State.opLife (s : State) : Nat := if s.sec_ 9 = [] then 60 else uLe (s.sec_ 9) 6 2
@[inherit_doc State.opLife] def State.instLife (s : State) : Nat := if s.sec_ 9 = [] then 60 else uLe (s.sec_ 9) 8 2
/-- MDIO write groups granted for port `n`. -/
def State.mdioGrant (s : State) (n : Nat) : Nat := u8 (s.sec_ 9) (16 + n) % 8

/-- A command right of operator bit `b` of OP_CMDS: any higher role holds it. -/
def State.opMay (s : State) (role b : Nat) : Bool :=
  s.mayAs role 2 || (s.mayAs role 1 && s.opCmds.testBit b)

/-! ## The audit log (R386) -/

/-- Enter a happening of a role and key slot (Table 15-5). -/
def State.auditAs (s : State) (kind role slot result object : Nat) : State :=
  let k := s.get F.SEC_AUDIT_HEAD_COUNT
  let e := k % 256
  let s := (s.putWord (A.SEC_AUDIT e 0) (BitVec.ofNat 32 s.time)).putWord (A.SEC_AUDIT e 1) (BitVec.ofNat 32 (s.time / 2 ^ 32))
  let s := s.putWord (A.SEC_AUDIT e 2)
    (BitVec.ofNat 32 (s.nv.epoch % 65536 * 65536 + kind * 256 + role * 16 + (if role = 3 then 0 else slot)))
  let s := s.putWord (A.SEC_AUDIT e 3) (BitVec.ofNat 32 (result * 2 ^ 24 + object % 2 ^ 24))
  s.put F.SEC_AUDIT_HEAD_COUNT (k + 1)

/-- Enter a happening of the session in force. -/
def State.audit (s : State) (kind result object : Nat) : State :=
  s.auditAs kind s.role (s.get F.SEC_SESSION_SLOT) result object

/-! ## Debug state (R392) -/

/-- Debug instructions are unlocked. -/
def State.unlocked (s : State) : Bool := decide (s.lc = 0) || (decide (s.lc ≠ 4) && s.flag F.SEC_SESSION_DEBUG)

/-- SEC_STATE.DEBUG: locked, unlocked, attached, attached and halted. -/
def State.showDebug (s : State) : State :=
  s.put F.SEC_STATE_DEBUG
    (if !s.unlocked then 0 else if s.herder.attached then (if s.herder.halted then 3 else 2) else 1)

/-- An unlock begins: in PROV and FIELD every chunk that holds records is marked DEBUG (R392, R404). -/
def State.unlockBegins (s : State) (life : Nat) : State :=
  let s := (s.audit 0x0B 0 life).raise Ev.secDebug
  let s := if s.lc = 1 || s.lc = 2 then
      let s := s.withEvid { s.evid with taint := true }
      s.each (List.range 4) fun t r => t.each ((t.ring r).chunks.map (·.1)) fun u c => u.markChunk 2 c
    else s
  s.showDebug

/-- A halt of the herder ends: the bounds of trainings and of a structural apply were suspended through it (R393). -/
def State.haltEnds (s : State) : State :=
  if !s.herder.halted then s else
  let d := s.time - s.apply.haltAt
  let s := (s.withHerder { s.herder with halted := false }).withApply { s.apply with halted := s.apply.halted + d }
  s.each (List.range s.nPorts) fun t n => t.modLn n fun l => { l with trainAt := l.trainAt + d, anDone := l.anDone + d }

/-- An unlock ends; a debugger is detached with it, and a halted herder runs again. -/
def State.unlockEnds (s : State) (life : Nat) : State :=
  let s := ((s.audit 0x0C 0 life).raise Ev.secDebug).withEvid { s.evid with taint := false }
  let s := s.haltEnds
  s.withHerder { s.herder with attached := false }

/-! ## Sessions (R381 to R385) -/

/-- End the open session with a cause of Table 15-4. -/
def State.endSession (s : State) (cause : Nat) : State :=
  if s.role = 0 then s else
  let s := s.audit 0x03 0 cause
  let s := if s.flag F.SEC_SESSION_DEBUG then s.unlockEnds s.sec.sessLife else s
  let s := s.putWord A.SEC_SESSION 0
  ((s.withSec { s.sec with sessEnd := 0, sessLife := 0, rwiSeen := [], rwmSeen := [] }).showDebug).raise Ev.secSessionEnd

/-- The challenge becomes void: it reads as zeros. -/
def State.voidChallenge (s : State) : State :=
  (s.putBytes (A.SEC_CHALLENGE 0) 8 []).withSec { s.sec with chal := false }

/-- A lockout is in force (R384). -/
def State.lockedOut (s : State) : Bool := s.flag F.SEC_STATE_LOCKOUT

/-- Minutes left of the open session, rounded up. -/
def State.remainMin (s : State) : Nat :=
  if s.role = 0 then 0 else (s.sec.sessEnd - s.time + 59999999999) / 60000000000

/-- The key that a session of a role and slot is verified with; empty where the slot is empty. -/
def State.keyOf (s : State) (role slot : Nat) : Bytes :=
  if role = 3 then s.nv.makerKey else Tbl.get s.nv.keys [] ((if role = 2 then 8 else 0) + slot)

/-- SEC_KEYS: the enrolled slots. -/
def State.showKeys (s : State) : State :=
  let m (o : Nat) := listMask ((List.range 8).filter fun i => Tbl.get s.nv.keys [] (o + i) ≠ [])
  (s.put F.SEC_KEYS_OPERATOR (m 0)).put F.SEC_KEYS_INSTALLER (m 8)

/-- The session message (Table 15-3). -/
def State.sessionMessage (s : State) (role slot dbg life : Nat) : Bytes :=
  [0x53, 0x45, 0x53, 0x4E] ++ s.wordBytes (A.SEC_CHALLENGE 0) 8 ++ s.wordBytes A.SEC_ID_SERIAL 2 ++
    [BitVec.ofNat 8 role, BitVec.ofNat 8 (if role = 3 then 0 else slot), BitVec.ofNat 8 dbg, BitVec.ofNat 8 s.lc] ++
    leBytes life 2 ++ List.replicate 14 0

/-- The lifetime granted (R383). -/
def State.grantLife (s : State) (role dbg life : Nat) : Nat :=
  let ceil := if role = 1 then s.opLife else if role = 2 then s.instLife else if dbg = 1 then 4320 else 480
  min ceil (max 1 life)

/-- The reason that SESSION_OPEN meets (R383); 0 where it opens. -/
def State.openReason (s : State) (role slot dbg life : Nat) : Nat :=
  if s.lockedOut then 5
  else if !s.sec.chal then 1
  else if role = 0 || (s.lc = 3 && role ≠ 3) || (dbg = 1 && role ≠ 3) then 4
  else if s.keyOf role slot = [] then 2
  else if ecdsaVerify (s.keyOf role slot) (s.sessionMessage role slot dbg life) (s.wordBytes (A.SEC_RESP 0) 16) then 0
  else 3

/-- SESSION_OPEN's effect on everything but its completion: the reason and the lifetime granted. -/
def State.openSession (s : State) (role slot dbg life : Nat) : State × Nat × Nat :=
  let r := s.openReason role slot dbg life
  if r = 0 then
    let g := s.grantLife role dbg life
    let s := if s.flag F.SEC_SESSION_DEBUG then s.unlockEnds s.sec.sessLife else s
    let s := ((((s.voidChallenge).put F.SEC_SESSION_ROLE role).put F.SEC_SESSION_SLOT (if role = 3 then 0 else slot)).put
      F.SEC_SESSION_DEBUG dbg).put F.SEC_STATE_FAILS 0
    let s := s.withSec { s.sec with sessEnd := s.time + g * 60000000000, sessLife := g, rwiSeen := [], rwmSeen := [] }
    let s := s.audit 0x01 0 g
    (if dbg = 1 then s.unlockBegins g else s.showDebug, 0, g)
  else
    let s := (s.voidChallenge).auditAs 0x02 role slot 5 r
    if r = 5 then (s, r, 0) else
    let n := min 31 (s.get F.SEC_STATE_FAILS + 1)
    let s := s.put F.SEC_STATE_FAILS n
    if 8 ≤ n then
      (((s.put F.SEC_STATE_LOCKOUT 1).withAo { s.ao with lockEnd := s.time + 60000000000 }).raise Ev.secAuthFail, r, 0)
    else (s, r, 0)

end Sys2Proof.Machine
end

