-- ==== Sys2Proof/Machine/Mailbox.lean ====
section
/-!
DEFINITION. The command mailbox (R310 to R316): slots, completions, submission, starting, and the rights that a command
needs when it starts.
-/
namespace Sys2Proof.Machine

/-- Mailbox slot `k`. -/
def State.slot (s : State) (k : Nat) : Slot := Tbl.get s.box.slots {} k
/-- The state with a slot changed. -/
def State.modSlot (s : State) (k : Nat) (f : Slot → Slot) : State :=
  s.withBox { s.box with slots := Tbl.set s.box.slots {} k (f (s.slot k)) }
/-- STATE of a slot: 0 free, 1 waiting, 2 running, 3 done. -/
def State.slotState (s : State) (k : Nat) : Nat := s.get (F.CMD_SLOT_STATE_STATE k)
/-- The opcode in a slot. -/
def State.slotOp (s : State) (k : Nat) : Nat := s.get (F.CMD_SLOT_STATE_OPCODE k)
/-- Parameter word `i` of a slot. -/
def State.param (s : State) (k i : Nat) : Nat := ((s.slot k).params.getD i 0).toNat

/-- The slot holds a command of this opcode that has started and whose effect has not begun. -/
def State.taken (s : State) (k op : Nat) : Bool :=
  decide (k < 64) && decide (s.slotState k = 2) && decide (s.slotOp k = op) && !(s.slot k).begun

/-- The effect of a slot's command has begun and goes on over further steps. -/
def State.begin (s : State) (k : Nat) (work : List Nat) : State := s.modSlot k fun x => { x with begun := true, work := work }

/-- The running slot with this opcode whose effect has begun. -/
def State.runningOp (s : State) (op : Nat) : Option Nat :=
  (List.range 64).find? fun k => decide (s.slotState k = 2) && decide (s.slotOp k = op) && (s.slot k).begun

/-- Status codes (Table 11-7). -/
abbrev stOk : Nat := 0
abbrev stBusy : Nat := 1
abbrev stInvalid : Nat := 2
abbrev stAborted : Nat := 3
abbrev stNv : Nat := 4
abbrev stDenied : Nat := 5
abbrev stRefused : Nat := 6
abbrev stUnknown : Nat := 7

/-- End the command of a slot (R312, Table 11-6): status, DETAIL, and result words 1 to 7. -/
def State.complete (s : State) (k status detail : Nat) (results : List Nat) : State :=
  if s.slotState k ≠ 2 then s else
  let prod := s.get F.CMD_CQ_PROD_COUNT
  let e := prod % 64
  let w0 := s.get (F.CMD_SLOT_STATE_HANDLE k) * 65536 + status * 256 + detail % 256
  let s := s.each (List.range 8) fun t i =>
    t.putWord (A.CMD_CQ e i) (BitVec.ofNat 32 (if i = 0 then w0 else results.getD (i - 1) 0))
  let s := (s.put (F.CMD_SLOT_STATE_STATE k) 3).put F.CMD_CQ_PROD_COUNT (prod + 1)
  (s.raise Ev.cmdDone).cenHerd 0x02 1

/-- End a command that the audit log enters (Table 15-4). -/
def State.completeLogged (s : State) (k kind object status detail : Nat) (results : List Nat) : State :=
  (s.auditAs kind (s.slot k).role (s.slot k).keySlot status object).complete k status detail results

/-! ## Calibration runs that end (R225, R233) -/

/-- Units that a CAL_RUN named, with an outcome. -/
def State.askedMask (s : State) (ports : Bool) (outcome : Nat) : Nat :=
  listMask ((s.cal.filter fun e => e.2.asked && decide (e.2.outcome = outcome) && (decide (e.1 < 16) == ports)).map
    fun e => if ports then e.1 else e.1 - 16)

/-- The CAL_RUN in progress completes once every unit it named has an outcome, or before 400 ms have passed: the
drover's periods of 100 µs look at it too. -/
def State.calRunCheck (s : State) : State :=
  match s.runningOp 0x20 with
  | none => s
  | some k =>
    let late := decide ((s.slot k).work.headD 0 + 399900000 ≤ s.time)
    let s := if late then s.withCal (s.cal.map fun e =>
        (e.1, if e.2.asked && e.2.outcome = 0 then { e.2 with outcome := 3 } else e.2)) else s
    if s.cal.any fun e => e.2.asked && decide (e.2.outcome = 0) then s
    else
      let s := s.complete k stOk 0 [0, s.askedMask true 1, s.askedMask true 2, s.askedMask true 3,
        s.askedMask false 1, s.askedMask false 2, s.askedMask false 3]
      s.each (List.range 48) fun t u => t.modCal u fun c => { c with asked := false, outcome := 0 }

/-- A run is abandoned (R225): its unit keeps the values it had before the run, and stays due. -/
def State.abandonCal (s : State) (u : Nat) : State := if (s.calOf u).stage = 0 then s else (s.dropRun u).calRunCheck

/-- Every run is abandoned (Table 8-6, Power and Herder). -/
def State.abandonRuns (s : State) : State := (s.each (List.range 48) State.dropRun).calRunCheck

/-! ## Submission (R310, R311) -/

/-- The lowest free slot. -/
def State.freeSlot (s : State) : Option Nat := (List.range 64).find? fun k => decide (s.slotState k = 0)

/-- A write of CMD_SUBMIT; in END the command completes at once with DENIED (R395). -/
def State.submit (s : State) (op : Nat) : State :=
  match s.freeSlot with
  | none => (s.put F.CMD_ACCEPT_RESULT 1).put F.CMD_ACCEPT_HANDLE 0
  | some k =>
    let g := Tbl.get s.ao.gens 0 k % 1023 + 1
    let h := k * 1024 + g
    let s := s.withAo { s.ao with gens := Tbl.set s.ao.gens 0 k g }
    let sl : Slot := { params := (List.range 8).map fun i => s.word (A.CMD_PARAM i), role := s.role,
                       keySlot := s.get F.SEC_SESSION_SLOT, order := s.box.count + 1 }
    let s := s.withBox { slots := Tbl.set s.box.slots {} k sl, count := s.box.count + 1 }
    let s := ((s.put (F.CMD_SLOT_STATE_STATE k) 1).put (F.CMD_SLOT_STATE_OPCODE k) op).put (F.CMD_SLOT_STATE_HANDLE k) h
    let s := (s.put F.CMD_ACCEPT_RESULT 0).put F.CMD_ACCEPT_HANDLE h
    if s.lc = 4 then (s.put (F.CMD_SLOT_STATE_STATE k) 2).complete k stDenied 0 [] else s

/-- A write of CMD_CQ_CONS (R313): the slot of every record consumed is free; a count out of range raises DEV_BAD_ACCESS. -/
def State.consume (s : State) (v : Nat) : State :=
  let old := s.get F.CMD_CQ_CONS_COUNT
  let n := (v + 2 ^ 32 - old) % 2 ^ 32
  let held := (s.get F.CMD_CQ_PROD_COUNT + 2 ^ 32 - old) % 2 ^ 32
  if held < n then s.raise Ev.devBadAccess else
  let s := s.each (List.range (min n 64)) fun t i =>
    let h := (t.word (A.CMD_CQ ((old + i) % 64) 0)).toNat / 65536
    (t.putWord (A.CMD_SLOT_STATE (h / 1024)) 0).modSlot (h / 1024) fun _ => {}
  s.put F.CMD_CQ_CONS_COUNT v

/-! ## Starting (R312, R315) -/

/-- The opcodes of Table 11-5. -/
def opcodes : List Nat :=
  [0x01, 0x02, 0x10, 0x11, 0x12, 0x20, 0x21, 0x22, 0x23, 0x24, 0x30, 0x31, 0x32, 0x40, 0x41, 0x50, 0x51, 0x60, 0x61, 0x62]

/-- The role and the life cycle state allow a command (R315, Tables 2-11 and 15-1). LC_ADVANCE judges its own role (R387),
SESSION_OPEN and SESSION_CLOSE need none. -/
def State.cmdAllowed (s : State) (op role w0 : Nat) : Bool :=
  decide (s.lc ≠ 4) && match op with
    | 0x01 => if s.lc = 3 then s.mayAs role 3 else s.mayAs role 2
    | 0x02 => if s.lc = 3 then s.mayAs role 3 else s.mayAs role 2
    | 0x10 => s.mayAs role 2
    | 0x11 => if w0 % 4 = 0 then s.opMay role 1 else s.mayAs role 2
    | 0x12 => s.opMay role 0
    | 0x20 => s.opMay role 2
    | 0x21 => s.opMay role 3
    | 0x22 => s.mayAs role 2
    | 0x23 => s.opMay role 4
    | 0x24 => s.opMay role 5
    | 0x30 => if bits w0 16 2 = 2 then s.mayAs role 3 else s.mayAs role 2
    | 0x31 => s.mayAs role 2
    | 0x32 => if bits w0 8 2 = 0 then s.opMay role 6 else s.mayAs role 2
    | 0x40 => s.opMay role 7
    | 0x41 => if bits w0 8 2 = 0 then s.opMay role 8 else s.mayAs role 2
    | 0x50 => s.opMay role 9
    | 0x51 => s.opMay role 10
    | _ => true

/-- The audit kind and object of a command refused at its start, for the kinds that are commands. -/
def State.refusedKind (s : State) (op k : Nat) : Option (Nat × Nat) :=
  let w0 := s.param k 0
  match op with
  | 0x01 => some (0x06, (s.word (A.DEV_FOLD_STAGE 7)).toNat)
  | 0x02 => some (0x07, uLe (Tbl.get s.nv.foldSlots [] (w0 % 2)) 0x1C 4)
  | 0x10 => some (0x0F, 0)
  | 0x22 => some (0x10, 0)
  | 0x30 => some (0x11, w0 % 32 + 256 * bits w0 16 2)
  | 0x32 => if bits w0 8 2 = 0 then none else some (0x11, w0 % 32 + 256 * bits w0 8 2)
  | _ => none

/-- The waiting slot submitted first. -/
def State.oldestWaiting (s : State) : Option Nat :=
  (List.range 64).foldl (fun (a : Option Nat) k =>
    if s.slotState k = 1 then
      match a with
      | none => some k
      | some j => if (s.slot k).order < (s.slot j).order then some k else some j
    else a) none

/-- The herder takes the oldest waiting command: it runs, or completes with DENIED. -/
def State.startCommand (s : State) : State :=
  if !(s.herderRuns && s.coreOn) then s else
  match s.oldestWaiting with
  | none => s
  | some k =>
    let op := s.slotOp k
    let s := (s.put (F.CMD_SLOT_STATE_STATE k) 2).cenHerd 0x01 1
    if s.cmdAllowed op (s.slot k).role (s.param k 0) then s
    else
      let s := s.raise Ev.secDenied
      match s.refusedKind op k with
      | some (kind, obj) => s.completeLogged k kind obj stDenied 0 []
      | none => s.complete k stDenied 0 []

/-! ## The rows of the mailbox -/

/-- CMD_SUBMIT: the host's write of a word to it. -/
def execCmdSubmit (val : Word) (s : State) : Host.Outcome State Fault Refusal :=
  .next (s.bar fun t => t.submit (val.toNat % 256))

/-- CMD_START. -/
def execCmdStart (s : State) : Host.Outcome State Fault Refusal := .next s.startCommand

/-- CMD_CQ_CONS_WRITE. -/
def execCmdCqConsWrite (val : Word) (s : State) : Host.Outcome State Fault Refusal :=
  .next (s.bar fun t => if t.lc = 4 then t else t.consume val.toNat)

/-- UNKNOWN_OPCODE: a started command whose opcode Table 11-5 does not have. -/
def execUnknownOpcode (slot : BitVec 6) (s : State) : Host.Outcome State Fault Refusal :=
  let k := slot.toNat
  .next (if s.slotState k = 2 && !(s.slot k).begun && !opcodes.contains (s.slotOp k) then s.complete k stUnknown 0 [] else s)

/-- SESSION_OPEN (R382 to R384). -/
def execSessionOpen (slot : BitVec 6) (s : State) : Host.Outcome State Fault Refusal :=
  let k := slot.toNat
  .next (if s.taken k 0x60 then
      let w0 := s.param k 0
      let (t, r, g) := s.openSession (w0 % 4) (bits w0 8 3) (bits w0 16 1) (s.param k 1 % 65536)
      t.complete k (if r = 0 then stOk else stDenied) 0 [0, r, g]
    else s)

/-- SESSION_CLOSE (R385). -/
def execSessionClose (slot : BitVec 6) (s : State) : Host.Outcome State Fault Refusal :=
  let k := slot.toNat
  .next (if s.taken k 0x61 then (s.endSession 1).complete k stOk 0 [] else s)

/-- SESSION_EXPIRY (R385): the open session's lifetime ends in DEV_TIME. In Pen, and in the return up to its step 4, the end waits
for that step (R394). -/
def execSessionExpiry (s : State) : Host.Outcome State Fault Refusal :=
  .next (if s.role ≠ 0 && s.coreOn && (s.pwr.begun = [] || s.pwr.ended.contains 4) then (s.timeTo s.sec.sessEnd).endSession 2 else s)

/-- NEW_CHAL (R381): the host's write to SEC_SESS_CTRL. -/
def State.newChallenge (s : State) : State :=
  let bs := s.freeBytes 8
  let s := (s.putBytes (A.SEC_CHALLENGE 0) 8 bs).drawn 8
  s.withSec { s.sec with chal := true, chalTime := s.time }

/-- NEW_CHAL (R381). -/
def execNewChal (s : State) : Host.Outcome State Fault Refusal :=
  .next (s.bar fun t => if t.lc = 4 then t else t.newChallenge)

/-- CHALLENGE_EXPIRY (R381): 60 s after the draw. -/
def execChallengeExpiry (s : State) : Host.Outcome State Fault Refusal :=
  .next (if s.sec.chal then (s.timeTo (s.sec.chalTime + 60000000000)).voidChallenge else s)

/-- LOCKOUT_END (R384). -/
def execLockoutEnd (s : State) : Host.Outcome State Fault Refusal :=
  .next (if s.lockedOut then (s.timeTo s.ao.lockEnd).put F.SEC_STATE_LOCKOUT 0 else s)

end Sys2Proof.Machine
end

