-- ==== Sys2Proof/Machine/Loading.lean ====
section
/-!
DEFINITION. Loading tables, profiles, tone capacity and rate, and the changes of loading (R45 to R51, R64 to R75, R87).
-/
namespace Sys2Proof.Machine

/-! ## Tables (Table 3-19, R46 to R50) -/

/-- The word of the PORT_TONE window that holds tones `2w` and `2w + 1` of a table. -/
def toneWord (n : Nat) (rx : Bool) (p w : Nat) : Nat := A.PORT_TONE n ((4 * b2n rx + p) * 2048 + w)
/-- The entry of a tone. -/
def toneFld (n : Nat) (rx : Bool) (p t : Nat) : Fld := ⟨toneWord n rx p (t / 2), 16 * (t % 2), 16⟩

/-- The data tones (Table 3-1; under v2 those below 2,048, R90). -/
def isDataTone (v2 : Bool) (t : Nat) : Bool :=
  ((decide (8 ≤ t) && decide (t < 16)) || (decide (32 ≤ t) && decide (t ≤ 4091))) && !([512, 1536, 2560, 3584].contains t) &&
    (!v2 || decide (t < 2048))

/-- Bits of an entry, and the entry with its bits replaced. -/
def entBits (e : Nat) : Nat := e % 16
def entWith (e b : Nat) : Nat := e - e % 16 + b

/-- One band of a Custom definition applied to a tone's bits (R50). -/
def bandOn (t b w : Nat) : Nat :=
  let first := bits w 0 12
  let last := bits w 12 12
  let cap := bits w 24 4
  if w.testBit 31 && first ≤ last && cap ≤ 12 && first ≤ t && t ≤ last then min (b - bits w 28 3) cap else b

/-- The bits of a derived profile on a tone (R49, R50). -/
def derivedBits (p t b : Nat) (bands : List Nat) : Nat := if p = 1 then b - 3 else bands.foldl (bandOn t) b

/-- The Custom definitions in force in a direction: the bands of a profile. -/
def Line.bands (l : Line) (rx : Bool) (p : Nat) : List Nat :=
  let d := if rx then l.custRx else l.custTx
  if p = 2 then d.take 8 else (d.drop 8).take 8

/-- Compute a derived profile of a direction from Normal (R48). -/
def State.derive (s : State) (n : Nat) (rx : Bool) (p : Nat) : State :=
  let bands := (s.ln n).bands rx p
  let one (t e : Nat) : Nat := entWith e (derivedBits p t (entBits e) bands)
  s.each (List.range 2048) fun u w =>
    let x := (u.word (toneWord n rx 0 w)).toNat
    let lo := x % 65536
    let hi := x / 65536
    u.putWord (toneWord n rx p w) (BitVec.ofNat 32 (one (2 * w) lo + 65536 * one (2 * w + 1) hi))

/-- Recompute the derived profiles after a change of Normal. -/
def State.deriveAll (s : State) (n : Nat) (rx : Bool) : State :=
  if s.isV2 n then s else ((s.derive n rx 1).derive n rx 2).derive n rx 3

/-- An entry of a LOADING_UPDATE (Table 3-8) set in Normal. -/
def State.setEntry (s : State) (n : Nat) (rx : Bool) (e : Nat) : State :=
  let t := e % 4096
  if isDataTone (s.isV2 n) t then s.put (toneFld n rx 0 t) (bits e 12 4 + 16 * bits e 16 6) else s

/-! ## Tones and rates (R46, R87, Table 3-10) -/

/-- Tones per slice at a performance level. -/
def tonesPerSlice : Nat → Nat
  | 0 => 1024 | 1 => 853 | 2 => 683 | _ => 512

/-- The active tone count that slices and a performance level allow (R87; R90 for v2). -/
def State.toneCapAt (s : State) (n pl : Nat) : Nat :=
  let k := if (s.ln n).slices = 0 then s.pSlices n else (s.ln n).slices
  let eff := if s.flag (F.PORT_ILM_STATE_LONG_SPAN n) then k - 2 else k
  let a := min 4084 (tonesPerSlice pl * eff)
  if s.isV2 n then min 2040 a else a

/-- The active tone count in force in a direction. -/
def State.activeIn (s : State) (n : Nat) (rx : Bool) : Nat :=
  min (s.toneCapAt n (s.get F.DRV_STATE_PL)) (if rx then (s.ln n).toneCapRx else (s.ln n).toneCap)

/-- The active tone count in force, as the transmit direction has it. -/
def State.activeTones (s : State) (n : Nat) : Nat := s.activeIn n false

/-- The loaded data tones of a direction and profile below an active count, with their bits, ascending. An entry that no word lists
is that of a tone not loaded (Table 3-19). -/
def State.loaded (s : State) (n : Nat) (rx : Bool) (p active : Nat) : List (Nat × Nat) :=
  let o := toneWord n rx p 0
  (((s.regs.filter fun e => decide (o ≤ e.1) && decide (e.1 < o + 8192)).flatMap fun e =>
    let t := (e.1 - o) / 2
    [(t, e.2.toNat % 16), (t + 1, e.2.toNat / 65536 % 16)]).filter fun x =>
      decide (x.2 ≠ 0) && isDataTone (s.isV2 n) x.1 && decide (x.1 < 8 + active))

/-- B of a direction: the bits over its active data tones in the profile in force. -/
def State.sumBits (s : State) (n : Nat) (rx : Bool) (p active : Nat) : Nat := ((s.loaded n rx p active).map (·.2)).sum

/-- This end's rate cap in units of 100 Mbit/s; 0 for none (R46, R24). -/
def State.rateCap (s : State) (n : Nat) : Nat :=
  let m := s.pMaxRate n
  let lane := match s.laneOf n with
    | some k => if s.get (F.HL_CFG_RATE k) = 1 then 100 else 0
    | none => 0
  if m = 0 then lane else if lane = 0 then m else min m lane

/-- R in Mbit/s. -/
def State.linkRate (s : State) (n : Nat) : Nat :=
  let cap (c r : Nat) := if c = 0 then r else min r (100 * c)
  cap (s.rateCap n) (cap (s.ln n).rateCap (if s.isV2 n then 10000 else 25000))

/-- B_cap = ⌈R / 842,108.2⌉. -/
def State.bCap (s : State) (n : Nat) : Nat := (s.linkRate n * 10000000 + 8421081) / 8421082

/-- The payload rate reported for B bits per symbol, in Mbit/s. -/
def State.mbps (s : State) (n b : Nat) : Nat := min (s.linkRate n) (b * 8421082 / 10000000)

/-- Tones, bits and rates as the registers show them (Table 3-14). -/
def State.showLoading (s : State) (n : Nat) : State :=
  let a := s.activeTones n
  let bt := s.sumBits n false (s.prof n false) a
  let br := s.sumBits n true (s.prof n true) (s.activeIn n true)
  s.each [(F.PORT_ILM_TONES_TONE_CAP n, s.toneCapAt n (s.get F.DRV_STATE_PL)), (F.PORT_ILM_TONES_ACTIVE n, a),
    (F.PORT_ILM_BITS_BITS_TX n, bt), (F.PORT_ILM_BITS_BITS_RX n, br),
    (F.PORT_ILM_RATE_TX_MBPS n, s.mbps n bt), (F.PORT_ILM_RATE_RX_MBPS n, s.mbps n br)] fun t e => t.put e.1 e.2

/-! ## The Normal loading (R47) -/

/-- 10 log10(2^b - 1) in 0.01 dB, for 1 to 12 bits (R117). -/
def qamGap (b : Nat) : Nat := [0, 0, 477, 845, 1176, 1491, 1799, 2104, 2407, 2708, 3010, 3311, 3612].getD b 0

/-- The margin, in 0.01 dB, of a tone with `b` bits at an SNR `q` in 0.25 dB (R117): less the gap of 8 dB. -/
def toneMargin (q b : Nat) : Int := 25 * (q : Int) - 800 - (qamGap b : Int)

/-- The most bits that a tone carries at an SNR `q` in 0.25 dB and a target margin in dB: 2^b - 1 at most
10^((q/4 - 8 - M)/10) (R47, with the gap of 8.0 dB). -/
def loadBits (q m : Nat) : Nat :=
  if q < 32 + 4 * m then 0 else
  ((List.range 13).filter fun b => decide ((2 ^ b - 1) ^ 40 ≤ 10 ^ (q - 32 - 4 * m))).length - 1

/-- A tone as the loading rule takes it: its SNR in 0.25 dB, the fine gain it was measured with in 0.1 dB, and its bits. -/
structure Meas where
  tone : Nat := 0
  snr  : Nat := 0
  gain : Int := 0
  bits : Nat := 0
  deriving DecidableEq, Repr

/-- Tone `x` has a lower margin than tone `y` (R117). -/
def lowerMargin (x y : Meas) : Bool :=
  decide (10 ^ x.snr * (2 ^ y.bits - 1) ^ 40 < 10 ^ y.snr * (2 ^ x.bits - 1) ^ 40)

/-- Remove one bit at a time from the loaded tone with the least margin; of tones with the same margin the lowest loses the bit
(DESIGN CHOICE; see log entry 115). -/
def trimBits : Nat → List Meas → List Meas
  | 0, l => l
  | k + 1, l =>
    let least := l.foldl (fun (a : Option Meas) x =>
      if x.bits = 0 then a else
      match a with
      | none => some x
      | some y => if lowerMargin x y then some x else a) none
    match least with
    | none => l
    | some y => trimBits k (l.map fun x => if x.tone = y.tone then { x with bits := x.bits - 1 } else x)

/-- The fine gain of a loaded tone, in 0.1 dB: the margins are brought to the middle of those measured, as far as -3.2 to +3.1 dB
reach. DESIGN CHOICE: the common margin; see log entry 115. -/
def fineGain (l : List Meas) (x : Meas) : Int :=
  let at_ (y : Meas) : Int := toneMargin y.snr y.bits - 10 * y.gain
  let ms := (l.filter fun y => decide (y.bits ≠ 0)).map at_
  let mid := (ms.foldl min (ms.headD 0) + ms.foldl max (ms.headD 0)) / 2
  if x.bits = 0 then 0 else max (-32) (min 31 ((mid - at_ x + 5) / 10))

/-- The Normal loading that the receiver sets from its measurements, as entries of a LOADING_UPDATE (R47, Table 3-8). -/
def State.decideNormal (s : State) (n : Nat) (tones : List Meas) : List Nat :=
  let m := s.get (F.PORT_ILM_CTRL_MARGIN_TGT n)
  let l := (tones.filter fun e => isDataTone (s.isV2 n) e.tone && decide (e.tone < 8 + s.activeIn n true)).map fun e =>
    { e with bits := loadBits e.snr m }
  let l := trimBits ((l.map (·.bits)).sum - s.bCap n) l
  l.map fun x => x.tone + 4096 * x.bits + 65536 * unsigned 6 (fineGain l x)

/-- The SNR in PORT_SNR of the active data tones, with the fine gains in force (R117). -/
def State.snrNow (s : State) (n : Nat) : List Meas :=
  (((List.range (s.activeIn n true)).map (· + 8)).filter (isDataTone (s.isV2 n))).map fun t =>
    { tone := t, snr := s.get ⟨A.PORT_SNR n (t / 4), 8 * (t % 4), 8⟩, gain := signed 6 (s.get (toneFld n true 0 t) / 16) }

/-! ## Pending changes (R16, R65, R66) -/

/-- Precedence of R16: a profile swap, a tone cap, a bit swap. -/
def changeRank (kind : Nat) : Nat := if kind = 1 then 2 else if kind = 2 then 1 else 0

/-- PORT_ILM_PEND (Table 3-15). -/
def State.showPend (s : State) (n : Nat) : State :=
  let p := (s.ln n).pend
  let c := s.sfc n
  let first := p.foldl (fun (a : Option Change) x =>
    match a with
    | none => some x
    | some y => if (x.sf + 2 ^ 32 - c) % 2 ^ 32 < (y.sf + 2 ^ 32 - c) % 2 ^ 32 then some x else some y) none
  let (sf, kind, dir) := match first with | some x => (x.sf % 65536, x.kind, b2n x.rxDir) | none => (0, 0, 0)
  s.each [(F.PORT_ILM_PEND_NEXT_SF n, sf), (F.PORT_ILM_PEND_NEXT_KIND n, kind), (F.PORT_ILM_PEND_NEXT_DIR n, dir),
    (F.PORT_ILM_PEND_PEND_RX n, (p.filter fun x => x.rxDir).length), (F.PORT_ILM_PEND_PEND_TX n, (p.filter fun x => !x.rxDir).length),
    (F.PISTE_PORT_SWAP_PEND n, b2n (p.any fun x => x.mine && x.kind = 1))]
    fun t e => t.put e.1 e.2

/-- Change the list of pending changes. -/
def State.modPend (s : State) (n : Nat) (f : List Change → List Change) : State :=
  (s.modLn n fun l => { l with pend := f l.pend }).showPend n

/-- The superframe that a SWAP word's SF names at count `c`; none where it has begun or passed (R65). -/
def sfOf (c sf : Nat) : Option Nat :=
  let d := (sf + 65536 - (c + 1) % 65536) % 65536
  if d < 32768 then some ((c + 1 + d) % 2 ^ 32) else none

/-- Changes pending in a direction. -/
def State.pendDir (s : State) (n : Nat) (rx : Bool) : List Change := (s.ln n).pend.filter fun x => x.rxDir = rx

/-- The first superframe at or after `from_` at which no pending change of the same or a higher precedence stands in the directions
that a change needs (R16, R66). -/
def State.freeSf (s : State) (n kind from_ : Nat) (dirs : List Bool) : Nat :=
  ((List.range 9).find? fun d => dirs.all fun rx =>
    !(s.pendDir n rx).any fun x => x.sf = (from_ + d) % 2 ^ 32 && changeRank kind ≤ changeRank x.kind).getD 0 + from_

/-- Drop changes that satisfy `p`; those of a two-word change go together (R68). -/
def State.dropChanges (s : State) (n : Nat) (p : Change → Bool) : State :=
  let gone := (s.ln n).pend.filter p
  s.modPend n fun l => l.filter fun x => !(p x || gone.any fun y => decide (x.kind ≠ 0) && decide (x.kind = y.kind) &&
    decide (x.sf = y.sf) && x.mine = y.mine)

/-- Changes that lose their superframe to another (R16): this end announces its own again. -/
def State.displace (s : State) (n : Nat) (losers : List Change) : State :=
  if losers = [] then s else
  (s.modLn n fun l => { l with again := l.again ++ losers.filter (·.mine) }).dropChanges n fun x => losers.contains x

/-- The pending changes that a new one displaces at its superframe: those of a lower precedence there; and, for a piste swap, which no
lower change defers, the last of those where a direction already has four (R16, R66). -/
def State.losers (s : State) (n kind sf : Nat) (dirs : List Bool) : List Change :=
  dirs.flatMap fun rx =>
    let here := s.pendDir n rx
    let at_ := here.filter fun x => x.sf = sf && changeRank x.kind < changeRank kind
    if at_ ≠ [] || here.length < 4 || kind ≠ 1 then at_
    else (here.filter fun x => decide (x.kind ≠ 1)).reverse.take 1

/-- The bands a profile swap into a Custom profile brings to a direction (R50). -/
def State.newBands (s : State) (n : Nat) (rx : Bool) (p : Nat) : List Nat :=
  let d := if rx then (s.ln n).custAck else (s.ln n).custPart
  if p = 2 then d.take 8 else if p = 3 then (d.drop 8).take 8 else []

/-- Another change can be held pending in each of the directions (R66). -/
def State.roomFor (s : State) (n kind sf : Nat) (dirs : List Bool) : Bool :=
  dirs.all fun rx => decide ((s.pendDir n rx).length < 4) || (s.losers n kind sf [rx]) ≠ []

/-- Announce a change in the named directions for the first superframe at or after `from_` that is free for it (R66, R67). A change
of a lower precedence that is pending there stands aside (R16). Nothing is announced while four changes are pending. -/
def State.announce (s : State) (n kind arg from_ : Nat) (dirs : List Bool) (entries : List Nat) (cap : Nat) : State :=
  let sf := s.freeSf n kind from_ dirs % 2 ^ 32
  if !s.roomFor n kind sf dirs then s else
  let s := s.displace n (s.losers n kind sf dirs)
  let s := s.modPend n fun p => p ++ dirs.map fun rx =>
    { kind := kind, sf := sf, arg := arg, rxDir := rx, mine := true,
      entries := if kind = 1 then s.newBands n rx arg else entries, cap := cap }
  s.each dirs fun t rx => t.oweSwap n 0 rx kind arg sf

/-- A loading with these entries in a direction would exceed B_cap (R66). -/
def State.overCap (s : State) (n : Nat) (rx : Bool) (entries : List Nat) : Bool :=
  let t := entries.foldl (fun (t : State) e => t.setEntry n rx e) s
  decide (s.bCap n < t.sumBits n rx 0 (s.activeIn n rx))

/-- Entries of a LOADING_UPDATE that a transmitter accepts: data tones, at most 12 bits, within B_cap (R46, R72). -/
def State.loadingOk (s : State) (n : Nat) (es : List Nat) : Bool :=
  es.all (fun e => isDataTone (s.isV2 n) (e % 4096) && decide (bits e 12 4 ≤ 12)) && !s.overCap n false es

/-- A bit swap may be requested or announced for the port (R72). -/
def State.bitSwapOk (s : State) (n : Nat) : Bool := !s.zoneArmed n && !s.swapped n

/-- The first superframe that the spacing of bit swaps allows in a direction (R72). -/
def State.bitSwapFrom (s : State) (n : Nat) (rx : Bool) : Nat :=
  let c := s.sfc n + 4
  let done := match (if rx then (s.ln n).bsRx else (s.ln n).bsTx) with | none => [] | some last => [last]
  let swaps := done ++ ((s.pendDir n rx).filter fun x => x.kind = 0).map (·.sf)
  swaps.foldl (fun c last =>
    let due := last + 16 * s.get (F.PORT_ILM_CTRL_BS_HOLD n)
    if sfAfter (due % 2 ^ 32) (c % 2 ^ 32) then due else c) c

/-! ## A change takes effect (R69 to R71) -/

/-- GEN of a direction. -/
def genFld (n : Nat) (rx : Bool) : Fld := if rx then F.PORT_ILM_STATE_GEN_RX n else F.PORT_ILM_STATE_GEN_TX n
/-- The profile in force of a direction. -/
def profFld (n : Nat) (rx : Bool) : Fld := if rx then F.PORT_ILM_STATE_PROF_RX n else F.PORT_ILM_STATE_PROF_TX n

/-- A pending change takes effect in its direction. A swap out of Normal abandons the port's calibration run (Table 8-6). -/
def State.applyChange (s : State) (n : Nat) (c : Change) : State :=
  let s : State := match c.kind with
    | 0 =>
      let t := (s.each c.entries fun t e => t.setEntry n c.rxDir e).deriveAll n c.rxDir
      t.modLn n fun l => if c.rxDir then { l with bsRx := some c.sf } else { l with bsTx := some c.sf }
    | 1 =>
      let t := (if c.arg = 0 then s else s.abandonCal n).put (profFld n c.rxDir) c.arg
      let t : State := if 2 ≤ c.arg && c.entries ≠ [] then
          let set (d : List Nat) := if c.arg = 2 then c.entries ++ d.drop 8 else (d ++ List.replicate (8 - d.length) 0).take 8 ++ c.entries
          (t.modLn n fun l => if c.rxDir then { l with custRx := set l.custRx } else { l with custTx := set l.custTx }).derive n
            c.rxDir c.arg
        else t
      if c.rxDir then t else t.cenFab 0x06 1
    | _ => s.modLn n fun l => { l with
        toneCap := if c.rxDir then l.toneCap else c.cap, toneCapRx := if c.rxDir then c.cap else l.toneCapRx,
        capRcvd := if c.mine then l.capRcvd else none, slices := s.get (F.SLICE_MAP_W1_COUNT n) }
  (s.put (genFld n c.rxDir) (s.get (genFld n c.rxDir) + 1)).showLoading n

/-- What the loading of the receive direction was before a change, for R70. -/
def State.snapshot (s : State) (n : Nat) (c : Change) : Resolve :=
  { sf := c.sf, oldProf := s.prof n true, oldGen := s.get (genFld n true), oldCap := s.activeIn n true,
    oldSlices := (s.ln n).slices, oldCust := (s.ln n).custRx,
    oldEnts := if c.kind = 0 then c.entries.map fun e => e % 4096 + 4096 * s.get (toneFld n true 0 (e % 4096)) else [],
    newProf := if c.kind = 1 then c.arg else s.prof n true, newGen := (s.get (genFld n true) + 1) % 16 }

/-- Return to the loading before an erased sync's change (R70). -/
def State.revert (s : State) (n : Nat) (r : Resolve) : State :=
  let s := ((s.put (profFld n true) r.oldProf).put (genFld n true) r.oldGen).count (F.PORT_ILM_SWAP_FAIL_COUNT n) 1
  let s := s.each r.oldEnts fun t e => t.put (toneFld n true 0 (e % 4096)) (e / 4096)
  let s := s.modLn n fun l => { l with resolve := none, toneCapRx := r.oldCap, slices := max l.slices r.oldSlices, custRx := r.oldCust }
  (if r.oldEnts = [] && (s.ln n).custRx = r.oldCust then s else s.deriveAll n true).showLoading n

/-- The PTAG of the first lot mapped in S resolves an erased sync (R70). -/
def State.resolvePtag (s : State) (n ptag sf : Nat) : State :=
  match (s.ln n).resolve with
  | some r =>
    if sf ≠ r.sf then s
    else if ptag % 64 = r.newProf + 4 * r.newGen then s.modLn n fun l => { l with resolve := none }
    else s.revert n r
  | none => s

end Sys2Proof.Machine
end

