-- ==== Sys2Proof/Machine/Drover.lean ====
section
/-!
DEFINITION. The drover's demand and effective budget (R337, R338, Table 12-7).
-/
namespace Sys2Proof.Machine

/-- The demand factor D of a performance level, in thousandths (Table 12-1). -/
def levelD : Nat → Nat
  | 0 => 1000 | 1 => 866 | 2 => 755 | _ => 665

/-- A demand in thousandths of a mW at PL0, scaled by D where the table marks it, rounded up to whole mW (R337). -/
def roundDemand (milli d : Nat) : Nat := (milli * d + 999999) / 1000000

/-- A sensor that is read and not failed. -/
def State.sensorOk (s : State) (f : Fld) : Bool := s.flag f && !s.flag ⟨f.off, 30, 1⟩

/-- The readings of the working base-die sensors, in 0.25 °C. -/
def State.baseTemps (s : State) : List Int :=
  ((List.range 24).filter fun k => s.sensorOk (F.THM_BASE_VALID k)).map fun k => signed 16 (s.get (F.THM_BASE_TEMP k))

/-- The hottest base-die sensor, T_B, in 0.25 °C; 0 where none has been read. -/
def State.baseTemp (s : State) : Int :=
  match s.baseTemps with
  | [] => 0
  | t :: ts => ts.foldl max t

/-- The temperature at which channel `c` stands, in 0.25 °C (R344): its own sensor, or the other of its die where it has
failed, or the hotter of two that disagree; 96 °C where the die has no working sensor; none before a reading. -/
def State.chanTemp (s : State) (c : Nat) : Option Int :=
  let t (k : Nat) : Int := signed 16 (s.get (F.THM_CORE_TEMP k))
  let ok (k : Nat) := s.sensorOk (F.THM_CORE_VALID k)
  let o := c / 2 * 2 + (1 - c % 2)
  if !s.flag (F.THM_CORE_VALID c) && !s.flag (F.THM_CORE_VALID o) then none
  else if ok c && ok o && s.flag (F.THM_CORE_DISAGREE c) then some (max (t c) (t o))
  else if ok c then some (t c)
  else if ok o then some (t o)
  else some 384

/-- The hottest core die, in 0.25 °C; none before a reading. -/
def State.coreTemp (s : State) : Option Int :=
  ((List.range s.nChans).filterMap s.chanTemp).foldl (fun (a : Option Int) t => some (match a with | some u => max u t | none => t)) none

/-- The least whole number of mW not below 6,800 × 2^((T_B − 100 °C) / 20 °C), with T_B in 0.25 °C. -/
def leakage (tb : Int) : Nat :=
  let e := (tb - 400)
  let ok (m : Nat) : Bool := if 0 ≤ e then decide (6800 ^ 80 * 2 ^ e.toNat ≤ m ^ 80) else decide (6800 ^ 80 ≤ m ^ 80 * 2 ^ (-e).toNat)
  let below := (List.range 17).foldl (fun a i => if ok (a + 2 ^ (16 - i)) then a else a + 2 ^ (16 - i)) 0
  below + 1

/-- The demand of an ILM port up at the rates it shows. -/
def State.ilmDemand (s : State) (n mbps level : Nat) : Nat :=
  let long := s.flag (F.PORT_ILM_STATE_LONG_SPAN n)
  roundDemand (900000 + 80 * mbps + (if long then 200000 * (s.pSlices n - 4) else 0)) (levelD level)

/-- The demand of a start: training or restarting warm. -/
def State.startDemand (s : State) (n level : Nat) : Nat :=
  roundDemand (if s.flag (F.PORT_ILM_STATE_LONG_SPAN n) then 3300000 else 2900000) (levelD level)

/-- The demand of a port at a performance level (Table 12-7); 0 where the fold does not use the port. -/
def State.portDemandAt (s : State) (n level : Nat) : Nat :=
  if s.upIlm n then
    if s.flag (F.PORT_LINK_STATUS_LPI n) then roundDemand 600000 (levelD level)
    else s.ilmDemand n (max (s.get (F.PORT_ILM_RATE_TX_MBPS n)) (s.get (F.PORT_ILM_RATE_RX_MBPS n))) level
  else if s.an n = 8 || s.upTrv n then 400
  else
    let m := if s.upLegacy n then s.mode n else if s.an n = 3 && (s.ln n).target ≤ 5 then (s.ln n).target else 0
    if 3 ≤ m then 1300 else if m = 2 then 350 else if m = 1 then 120
    else if s.an n = 3 || s.an n = 5 then s.startDemand n level
    else if s.pModes n ≠ 0 then 12 else 0

/-- The demand of everything but the ports, at a performance level. -/
def State.restDemand (s : State) (level : Nat) : Nat :=
  let lanes := ((List.range s.nPorts).filter fun m => decide (s.get (F.HL_CFG_RATE m) ≠ 0)).length
  let pcs := 2 * ((List.range s.nChans).filter fun c => decide (s.chRole c < 2)).length
  219 * lanes + (80000000 * pcs + 8640 * s.drv.moved + 999999) / 1000000 + roundDemand 6000000 (levelD level) + 800 + 1500 +
    leakage s.baseTemp

/-- The sum of demands at a performance level. -/
def State.demandAt (s : State) (level : Nat) : Nat :=
  s.restDemand level + ((List.range s.nPorts).map fun n => s.portDemandAt n level).sum

/-- The reduction r of R338 in 1/80ths: 0.05 for each °C, 0.25 °C at a time, at most 0.5. -/
def State.reduction (s : State) : Nat :=
  let core := match s.coreTemp with | some t => (t - 352).toNat | none => 0
  let base := (s.baseTemp - 400).toNat
  min 40 (max core base)

/-- The effective budget of R338 in mW. -/
def State.effective (s : State) : Nat := s.get F.DRV_BUDGET_MW * (80 - s.reduction) / 80

/-- A cap that the drover announced is not yet in force (R341). -/
def State.capInFlight (s : State) (n : Nat) : Bool :=
  (s.ln n).capSent.isSome || (s.ln n).pend.any fun x => x.kind = 2 && x.mine

/-- The drover may grant starts at all (R340, R341). -/
def State.mayGrant (s : State) : Bool :=
  !s.flag F.DRV_STATE_SHORT && !(List.range s.nPorts).any s.capInFlight

/-- A token that covers a start of port `n` with a demand fits the effective budget. -/
def State.tokenFits (s : State) (n demand : Nat) : Bool :=
  let l := s.get F.DRV_STATE_PL
  s.mayGrant && decide (s.demandAt l + demand ≤ s.effective + s.portDemandAt n l)

end Sys2Proof.Machine
end

