-- ==== Sys2Proof/Machine/Paddock.lean ====
section
/-!
DEFINITION. Paddock retransmission (chapter 5): grains and their placement, freezes, reads of the stack, lots and segments,
delivery, flow control, flushes.
-/
namespace Sys2Proof.Machine

/-! ## Grains (R120, R122) -/

/-- A lot's payload bytes. -/
abbrev lotBytes : Nat := 2016

/-- Lots that a list of grains holds (R120). -/
def capacity (grains : List Nat) : Nat := grains.length * 65536 / lotBytes

/-- The PADDOCK partition and its number of grains. -/
def State.padPart (s : State) : Option (Nat × Nat) := (s.partOf 1).map fun k => (k, 16 * s.get (F.FAB_PART_SIZE_SIZE_MIB k))

/-- The address in the partition of byte `x` of the grains, grain `g` at 65,536 g. A grain is one block (R120, R238): under STRIPE64 its
units stand apart in the partition's addresses, in the other map orders they follow each other. -/
def State.padAddr (s : State) (k x : Nat) : Nat :=
  if s.get (F.FAB_PART_MAP k) ≠ 1 then x else
  let n := max s.inService.length 1
  let g := x / 65536
  let o := x % 65536
  let ng := max (min n (16 * s.get (F.FAB_PART_SIZE_SIZE_MIB k) - g / n * n)) 1
  64 * (1024 * n * (g / n) + o / 64 * ng + g % n) + o % 64

/-- Runs of consecutive addresses in the partition, of the bytes of the grains from `x` on. -/
def State.padRuns (s : State) (k x len : Nat) : List (Nat × Nat) :=
  if s.get (F.FAB_PART_MAP k) ≠ 1 then [(x, len)]
  else (List.range ((x % 64 + len + 63) / 64)).map fun i =>
    let lo := max x (64 * (x / 64 + i))
    (s.padAddr k lo, min (x + len) (64 * (x / 64 + i + 1)) - lo)

/-- The pseudo-channel of a grain. -/
def State.grainPc (s : State) (k g : Nat) : Nat := (s.locate k (s.padAddr k (65536 * g))).pc

/-- Grains that paddocks and buffers hold. -/
def State.grainsHeld (s : State) : List Nat := s.pad.flatMap fun e => e.2.txGrains ++ e.2.rxGrains ++ e.2.bufGrains

/-- Placement passes over a pseudo-channel that is fenced, lame, or has a suspect bank (a grain lies in all its banks). -/
def State.passedOver (s : State) (pc : Nat) : Bool :=
  s.fenced pc || s.flag (F.MEM_PC_STATE_LAME (pc / 2) (pc % 2)) ||
    decide (s.get (F.MEM_INTEG_STATE_SUSPECT (pc / 2) (pc % 2)) ≠ 0)

/-- Free grains by index of the in-service list, ascending. -/
def State.grainPool (s : State) : List (List Nat) :=
  match s.padPart with
  | none => []
  | some (k, n) =>
    let held := s.grainsHeld
    let free := ((List.range n).filter fun g => !held.contains g).map fun g => (g, s.grainPc k g)
    s.inService.map fun pc => if s.passedOver pc then [] else (free.filter fun e => e.2 = pc).map (·.1)

/-- Take a free grain at list index `i` or the next index that qualifies: the grain, the index after it, the pool left. -/
def takeGrain (pool : List (List Nat)) (i : Nat) : Option (Nat × Nat × List (List Nat)) :=
  let n := pool.length
  match (List.range n).find? fun d => (pool.getD ((i + d) % n) []) ≠ [] with
  | none => none
  | some d =>
    let j := (i + d) % n
    match pool.getD j [] with
    | g :: gs => some (g, (j + 1) % n, pool.set j gs)
    | [] => none

/-- Take up to `k` grains, one index after another. -/
def takeGrains : Nat → List (List Nat) → Nat → List Nat × Nat × List (List Nat)
  | 0, pool, i => ([], i, pool)
  | k + 1, pool, i =>
    match takeGrain pool i with
    | none => ([], i, pool)
    | some (g, i', pool') =>
      let (gs, j, p) := takeGrains k pool' i'
      (g :: gs, j, p)

/-- The list index after a paddock's last grain, or its starting index where it has none (R122, R145). -/
def State.nextIndex (s : State) (grains : List Nat) (start : Nat) : Nat :=
  let n := max s.inService.length 1
  match s.padPart, grains.getLast? with
  | some (k, _), some g => ((s.inService.findIdx? (· = s.grainPc k g)).getD 0 + 1) % n
  | _, _ => start % n

/-- Add grains toward the fold sizes, one to the transmit window and one to the reorder area in turn. -/
def growTurns : Nat → Nat → Nat → List Nat × Nat → List Nat × Nat → List (List Nat) →
    (List Nat × Nat) × (List Nat × Nat) × List (List Nat)
  | 0, _, _, tx, rx, pool => (tx, rx, pool)
  | k + 1, wantTx, wantRx, tx, rx, pool =>
    let (t, i, p) := if tx.1.length < wantTx then takeGrains 1 pool tx.2 else ([], tx.2, pool)
    let (r, j, q) := if rx.1.length < wantRx then takeGrains 1 p rx.2 else ([], rx.2, p)
    growTurns k wantTx wantRx (tx.1 ++ t, i) (rx.1 ++ r, j) q

/-- Grains added toward the sizes wanted, until these are reached or the pool is empty. -/
def growTo (wantTx wantRx : Nat) (tx rx : List Nat × Nat) (pool : List (List Nat)) :
    (List Nat × Nat) × (List Nat × Nat) × List (List Nat) :=
  growTurns (wantTx + wantRx) wantTx wantRx tx rx pool

/-- Capacities, LIMIT and SHORT as the registers show them (Tables 5-7 and 5-8). -/
def State.showPad (s : State) (n : Nat) : State :=
  let p := s.pd n
  let (wt, wr, _) := s.pPad n
  let t := (s.put (F.PORT_PAD_CAP_TX_LOTS n) (capacity p.txGrains)).put (F.PORT_PAD_CAP_RX_LOTS n) (capacity p.rxGrains)
  (t.put (F.PORT_PAD_LIMIT_LIMIT n) (min (capacity p.txGrains) p.partnerRx)).put (F.PORT_PAD_STATE_SHORT n)
    (b2n (decide (p.txGrains.length < 16 * wt) || decide (p.rxGrains.length < 16 * wr)))

/-- FAB_PAD_TOTAL and FAB_PAD_FREE: grains outside fenced ranges (Table 5-10). -/
def State.showFree (s : State) : State :=
  match s.padPart with
  | none => (s.put F.FAB_PAD_TOTAL_GRAINS 0).put F.FAB_PAD_FREE_GRAINS 0
  | some (k, n) =>
    let held := s.grainsHeld
    let ok := (List.range n).filter fun g => !s.fenced (s.grainPc k g)
    (s.put F.FAB_PAD_TOTAL_GRAINS ok.length).put F.FAB_PAD_FREE_GRAINS (ok.filter fun g => !held.contains g).length

/-- Return a port's grains to the free pool. -/
def State.dropGrains (s : State) (n : Nat) : State :=
  s.modPd n fun p => { p with txGrains := [], rxGrains := [], bufGrains := [], boost := 0, extraTx := 0, extraRx := 0 }

/-- Return a port's paddock grains to the free pool; its rate adaptation buffer stays where it stands whole, for a mode that needs no
paddock (R14, R122). -/
def State.dropPaddocks (s : State) (n : Nat) : State :=
  s.modPd n fun p => { p with
    txGrains := [], rxGrains := [], bufGrains := if p.bufGrains.length < 16 then [] else p.bufGrains, boost := 0, extraTx := 0, extraRx := 0 }

/-- Place the paddocks of ports, in ascending order (R122): rate adaptation buffers and floors first, then toward the fold
sizes port by port. The result names the ports whose floors could not be met; their grains return to the pool. -/
def State.place (s : State) (ports : List Nat) : State × List Nat :=
  let s := s.each ports State.dropGrains
  let step1 (r : State × List (List Nat)) (n : Nat) : State × List (List Nat) :=
    let (_, _, m) := s.pPad n
    let len := max s.inService.length 1
    let (b, _, pool) := takeGrains 16 r.2 ((2 * n + 2) % len)
    let (t, _, pool) := takeGrains (16 * m) pool ((2 * n) % len)
    let (x, _, pool) := takeGrains (16 * m) pool ((2 * n + 1) % len)
    (r.1.modPd n fun p => { p with txGrains := t, rxGrains := x, bufGrains := b }, pool)
  let (s, pool) := ports.foldl step1 (s, s.grainPool)
  let bad := ports.filter fun n =>
    let p := s.pd n
    let (_, _, m) := s.pPad n
    decide (p.bufGrains.length < 16) || decide (p.txGrains.length < 16 * m) || decide (p.rxGrains.length < 16 * m)
  let step2 (r : State × List (List Nat)) (n : Nat) : State × List (List Nat) :=
    let p := r.1.pd n
    let (wt, wr, _) := s.pPad n
    let len := max s.inService.length 1
    let (t, x, pool) := growTurns (16 * max wt wr) (16 * wt) (16 * wr)
      (p.txGrains, r.1.nextIndex p.txGrains (2 * n % len)) (p.rxGrains, r.1.nextIndex p.rxGrains ((2 * n + 1) % len)) r.2
    (r.1.modPd n fun p => { p with txGrains := t.1, rxGrains := x.1 }, pool)
  let s := s.each bad State.dropPaddocks
  let pool := if bad = [] then pool else s.grainPool
  let (s, _) := (ports.filter fun n => !bad.contains n).foldl step2 (s, pool)
  ((s.each ports State.showPad).showFree, bad)

/-- Send PAD_PARAMS (Table 5-2). -/
def State.sendPadParams (s : State) (n : Nat) : State :=
  let p := s.pd n
  if s.padOn n || (s.ln n).paddock then
    s.sendEoc n 0x40 (leBytes (capacity p.rxGrains) 2 ++ leBytes (capacity p.txGrains) 2 ++
      [BitVec.ofNat 8 (b2n (s.flag (F.PORT_PAD_STATE_BOOSTED n)))])
  else s

/-! ## Places of lots -/

/-- The addresses of a list of grains from byte `o` on: where a lot of slot `slot` lies. -/
def placeAt (grains : List Nat) (slot : Nat) : Place :=
  let o := slot * lotBytes
  let g := o / 65536
  let n1 := min lotBytes (65536 - o % 65536)
  ⟨65536 * grains.getD g 0 + o % 65536, n1, 65536 * grains.getD (g + 1) 0⟩

/-- The two runs of a place: address and length. -/
def Place.runs (p : Place) : List (Nat × Nat) :=
  (p.a1, p.n1) :: (if p.n1 < lotBytes then [(p.a2, lotBytes - p.n1)] else [])

/-- Two places overlap. -/
def Place.meets (p q : Place) : Bool :=
  p.runs.any fun x => q.runs.any fun y => decide (x.1 < y.1 + y.2) && decide (y.1 < x.1 + x.2)

/-- The grains a place lies in. -/
def Place.grains (p : Place) : List Nat := p.runs.map fun x => x.1 / 65536

/-- The place of a lot with SEQ `seq`: slot SEQ modulo capacity (R131), or the next slot that no held lot touches. -/
def freePlace (grains : List Nat) (held : List Place) (seq : Nat) : Option Place :=
  let cap := capacity grains
  ((List.range cap).map fun d => placeAt grains ((seq + d) % cap)).find? fun p => !held.any p.meets

/-! ## Fill and flow control (R139, R140) -/

/-- Bytes staged and not yet in lots. -/
def stagedBytes (l : List Frame) : Nat := (l.map fun f => f.bytes.length - f.done).sum

/-- The transmit fill (R139), or the bytes in the rate adaptation buffer where the link has no paddock (R143). -/
def State.txFill (s : State) (n : Nat) : Nat :=
  (s.pd n).tx.length + (stagedBytes ((s.pd n).staged ++ (s.pd n).hostStage) + lotBytes - 1) / lotBytes
/-- Bytes in the rate adaptation buffer, which on a Traverse port also holds the bursts awaiting acknowledgement (R206). -/
def State.bufFill (s : State) (n : Nat) : Nat :=
  stagedBytes (s.pd n).staged + stagedBytes (s.pd n).toLine + stagedBytes (s.pd n).toHost +
    ((s.tv n).held.map fun b => b.payload.length).sum

/-- A threshold of R139 in lots free: ⌈KiB × 1,024 / 2,016⌉. -/
def headLots (kib : Nat) : Nat := (kib * 1024 + lotBytes - 1) / lotBytes

/-- The fills at which XOFF is asserted and released. -/
def State.flowPoints (s : State) (n : Nat) : Nat × Nat :=
  let cap := capacity (s.pd n).txGrains
  let xoff := max 96 (s.get (F.PORT_PAD_FLOW_XOFF_HEAD n))
  let xon := s.get (F.PORT_PAD_FLOW_XON_HEAD n)
  let xon := if xon ≤ xoff then xoff + 64 else xon
  (cap - headLots xoff, cap - headLots xon)

/-- A flow control frame to the host MAC of a lane (R140): XOFF or XON. -/
def State.laneHold (s : State) (m : Nat) (xoff : Bool) : State :=
  (s.emit (.flowFrame m (decide (s.get (F.HL_CFG_FLOW m) = 0)) (s.get (F.HL_CFG_PFC_PRIO m)) (if xoff then 0xFFFF else 0))).cenLane m 0x0A 1

/-- A flow control frame to the host MAC of the port's lane. -/
def State.flowFrame (s : State) (n : Nat) (xoff : Bool) : State :=
  match s.laneOf n with
  | none => s
  | some m => s.laneHold m xoff

/-- Assert XOFF, where it does not hold (R140). -/
def State.xoff (s : State) (n : Nat) : State :=
  if s.flag (F.PORT_PAD_STATE_XOFF n) then s else
  (((((s.put (F.PORT_PAD_STATE_XOFF n) 1).modPd n fun p => { p with xoffAt := s.time }).flowFrame n true).count (F.PORT_PAD_XOFF_COUNT n) 1).cenPort n 0x0E 1).raise (Ev.portPadHigh n)

/-- Release the hold with XON. -/
def State.xon (s : State) (n : Nat) : State :=
  if s.flag (F.PORT_PAD_STATE_XOFF n) then (s.put (F.PORT_PAD_STATE_XOFF n) 0).flowFrame n false else s

/-- The partner's signal has been detected for a warm restart, which awaits the token or runs (R104, R119). -/
def State.warmComing (s : State) (n : Nat) : Bool :=
  decide (s.an n = 5) || (decide (s.an n = 2) && decide ((s.ln n).target = 0) && (s.ln n).stored.isSome)

/-- The device holds the host for another reason than the fill: a drain, a structural apply, or a warm restart whose
partner has been detected (R119, R146). -/
def State.holdsHost (s : State) (n : Nat) : Bool :=
  s.flag (F.PORT_PAD_STATE_DRAINING n) || (s.pd n).drainHold || s.warmComing n

/-- Show the fills and their peaks, and assert or release XOFF as they cross the thresholds. -/
def State.fillCheck (s : State) (n : Nat) : State :=
  let tx := s.txFill n
  let rx := (s.pd n).rx.length
  let s := (s.put (F.PORT_PAD_FILL_TX_FILL n) (min tx 65535)).put (F.PORT_PAD_FILL_RX_FILL n) rx
  let s := (s.put (F.PORT_PAD_PEAK_TX_PEAK n) (max (s.get (F.PORT_PAD_PEAK_TX_PEAK n)) (min tx 65535))).put
    (F.PORT_PAD_PEAK_RX_PEAK n) (max (s.get (F.PORT_PAD_PEAK_RX_PEAK n)) rx)
  let (fill, hi, lo) := if s.padOn n then (tx, s.flowPoints n) else (s.bufFill n, (786432, 262144))
  if hi ≤ fill && s.up n then s.xoff n
  else if (decide (fill ≤ lo) || !s.up n) && !s.holdsHost n then s.xon n
  else s

/-- Count dropped frames in one of the counters of R153, and raise PORT_PAD_DROP. -/
def State.dropped (s : State) (n : Nat) (f : Fld) (k : Nat) : State :=
  if k = 0 then s else ((s.count f k).raise (Ev.portPadDrop n)).cenPort n 0x0B k

/-! ## Freezes as the paddock engines meet them (R150) -/

/-- Name lots in PAD_VOID messages, eight ranges at most in each (Table 5-2); while the link is down they wait for it. -/
def State.nameVoid (s : State) (n : Nat) (seqs : List Nat) : State :=
  if seqs = [] then s
  else if !s.padOn n then s.modPd n fun p => { p with voidDue := p.voidDue ++ seqs }
  else s.each (List.range ((seqs.length + 7) / 8)) fun t i =>
    let part := (seqs.drop (8 * i)).take 8
    t.sendEoc n 0x42 (BitVec.ofNat 8 part.length :: part.flatMap fun q => leBytes q 3 ++ leBytes 1 3)

/-- Void lots that can never be sent again (R132). They stay in the window's order until they are seen released (R126). -/
def State.voidTx (s : State) (n : Nat) (seqs : List Nat) : State :=
  let new := ((s.pd n).tx.filter fun l => !l.void && seqs.contains l.seq).map (·.seq)
  let s := s.modPd n fun p => { p with
    tx := p.tx.map fun l => if new.contains l.seq then { l with void := true } else l,
    resend := p.resend.filter fun q => !new.contains q }
  (s.nameVoid n new).count (F.PORT_PAD_VOID_TX_COUNT n) new.length

/-- Ask for lots: NAK words for runs of missing SEQs from `from_`, `len` long, not asked for already (R128). -/
def State.askFor (s : State) (n first len : Nat) : State :=
  let p := s.pd n
  let miss := ((List.range len).map (seqAdd first ·)).filter fun q => seqAfter q (s.get (F.PORT_PAD_RXSEQ_CUM n)) &&
    !(p.asked.any fun e => e.1 = q) && !(p.rx.any fun l => l.seq = q) && !p.voided.contains q
  match miss with
  | [] => s
  | q :: _ =>
    let span := seqSub (miss.getLastD q) q + 1
    (s.modPd n fun p => { p with asked := p.asked ++ miss.map fun m => (m, s.time) }).oweNak n q span

/-- A port's engine replaces its grains of fenced ranges and deals with the lots that lay in them (R150). -/
def State.relist (s : State) (n : Nat) : State :=
  match s.padPart with
  | none => s
  | some (k, _) =>
    let p := s.pd n
    let bad (g : Nat) := s.fenced (s.grainPc k g)
    if !(p.txGrains ++ p.rxGrains ++ p.bufGrains).any bad then s else
    let swap (gs : List Nat) (start : Nat) (pool : List (List Nat)) : List Nat × List (List Nat) :=
      let good := gs.filter fun g => !bad g
      (gs.foldl (fun (a : (List Nat × List (List Nat)) × Nat) g =>
        if bad g then
          match takeGrain a.1.2 a.2 with
          | some (h, j, q) => ((a.1.1 ++ [h], q), j)
          | none => a
        else ((a.1.1 ++ [g], a.1.2), a.2)) (([], pool), s.nextIndex good start)).1
    let (t, pool) := swap p.txGrains (2 * n) s.grainPool
    let (x, pool) := swap p.rxGrains (2 * n + 1) pool
    let (b, _) := swap p.bufGrains (2 * n + 2) pool
    let lost := (p.tx.filter fun l => !l.void && l.place.grains.any bad)
    let gone := (p.rx.filter fun l => l.place.grains.any bad).map (·.seq)
    let nextSlot := s.get (F.PORT_PAD_TXSEQ_NEXT n)
    let stagedAt := p.staged.foldl (fun (a : List (Nat × Bool) × Nat) f =>
      let len := f.bytes.length - f.done
      let cap := max (capacity p.txGrains) 1
      let hit := (List.range (len / lotBytes + 1)).any fun i =>
        (placeAt p.txGrains ((nextSlot + (a.2 + i * lotBytes) / lotBytes) % cap)).grains.any bad
      (a.1 ++ [(f.id, hit)], a.2 + len)) ([], 0)
    let drop := p.staged.filter fun f =>
      (stagedAt.1.any fun e => e.1 = f.id && e.2) || (decide (f.done ≠ 0) && lost.any fun l => l.frames.contains f.id)
    let s := s.modPd n fun q => { q with
      txGrains := t, rxGrains := x, bufGrains := b,
      staged := q.staged.filter fun f => !drop.contains f,
      rx := q.rx.filter fun l => !gone.contains l.seq,
      asked := q.asked.filter fun e => !gone.contains e.1 }
    let s := (s.voidTx n (lost.map (·.seq))).dropped n (F.PORT_PAD_DROP_TX_COUNT n) drop.length
    let s := s.each gone fun u q => if u.padOn n then u.askFor n q 1 else u
    let s := s.showPad n
    let s := if t.length < p.txGrains.length || x.length < p.rxGrains.length then s.sendPadParams n else s
    s.fillCheck n

/-- Freeze a pseudo-channel, with what follows for the paddocks (R150) and the evidence map (R404). -/
def State.freeze (s : State) (pc cause : Nat) (q : MemReq) (col : Bool) : State :=
  if s.frozen pc then s else
  let s := ((s.freezePc pc cause q col).abandonCal (16 + pc)).markPc 3 pc fun _ => true
  (s.each (List.range s.nPorts) State.relist).showFree

/-! ## Reading a partition -/

/-- Read one unit for a requester (R263, R273, R274): a fenced unit reads zeros, and an uncorrectable one freezes its
pseudo-channel. -/
def State.unitGet (s : State) (q : MemReq) (pc page : Nat) (hint : Bool) : State × Nat × Bytes :=
  if s.fenced pc then (s.answerFenced pc q.req false, outFenced, List.replicate 64 0) else
  let (t, out, bs) := s.readUnit q pc page hint
  if out = outUe then (t.freeze pc 1 q true, out, bs) else (t, out, bs)

/-- Read bytes of a partition: the outcomes met, and the bytes. -/
def State.stackGet (s : State) (req k a len : Nat) : State × List Nat × Bytes :=
  (unitsOf a len).foldl (fun (r : State × List Nat × Bytes) (e : Nat × Nat × Nat) =>
    let (q, pc) := r.1.unitReq req k e.1 e.2.1 false []
    let (t, out, bs) := r.1.unitGet q pc (r.1.get (F.FAB_PART_PAGE k)) (hintOf e.1)
    let part := (maskList e.2.1 64).map fun i => bs.getD i 0
    (t, out :: r.2.1, r.2.2 ++ part)) (s, [], [])

/-- A read of a paddock that gives no payload (R142, Table 10-3). -/
def badOutcome (outs : List Nat) : Bool := outs.any fun o => o = outUe || o = outPoison || o = outUnwritten || o = outFenced

/-- Read a lot's payload; none where it cannot be read. -/
def State.lotGet (s : State) (req : Nat) (p : Place) : State × Option Bytes :=
  match s.padPart with
  | none => (s, none)
  | some (k, _) =>
    let (t, outs, bs) := (p.runs.flatMap fun x => s.padRuns k x.1 x.2).foldl (fun (r : State × List Nat × Bytes) (x : Nat × Nat) =>
      let (t, o, b) := r.1.stackGet req k x.1 x.2
      (t, r.2.1 ++ o, r.2.2 ++ b)) (s, [], [])
    (t, if badOutcome outs then none else some bs)

/-- Write a lot's payload. -/
def State.lotPut (s : State) (req : Nat) (p : Place) (bs : Bytes) : State :=
  match s.padPart with
  | none => s
  | some (k, _) => ((p.runs.flatMap fun x => s.padRuns k x.1 x.2).foldl (fun (r : State × Bytes) x =>
      ((r.1.stackPut req k x.1 (r.2.take x.2)).1, r.2.drop x.2)) (s, bs)).1

/-! ## The rate adaptation buffer (R19, R143, R242) -/

/-- Runs of addresses of `len` bytes of a port's rate adaptation buffer, from byte `o` on; it is used round and round. -/
def State.bufRuns (s : State) (k n o len : Nat) : List (Nat × Nat) :=
  let gs := (s.pd n).bufGrains
  let size := 65536 * gs.length
  (List.range (len / 65536 + 2)).flatMap fun i =>
    let lo := if i = 0 then o else 65536 * (o / 65536 + i)
    let hi := min (o + len) (65536 * (o / 65536 + i + 1))
    if hi ≤ lo || size = 0 then [] else s.padRuns k (65536 * gs.getD (lo % size / 65536) 0 + lo % 65536) (hi - lo)

/-- A frame put into the buffer by the engine of its direction. Without a buffer in the stack it passes as it is. -/
def State.bufPut (s : State) (n req : Nat) (f : Frame) : State × Frame :=
  match s.padPart with
  | none => (s, f)
  | some (k, _) =>
    let size := 65536 * (s.pd n).bufGrains.length
    if size = 0 then (s, f) else
    let o := (s.pd n).bufPos % size
    let s := s.modPd n fun p => { p with bufPos := (o + f.bytes.length) % size }
    (((s.bufRuns k n o f.bytes.length).foldl (fun (r : State × Bytes) x =>
      ((r.1.stackPut req k x.1 (r.2.take x.2)).1, r.2.drop x.2)) (s, f.bytes)).1, { f with at_ := some o })

/-- A frame taken out of the buffer: none where a unit of it cannot be read. -/
def State.bufGet (s : State) (n req : Nat) (f : Frame) : State × Option Frame :=
  match f.at_, s.padPart with
  | some o, some (k, _) =>
    let (t, outs, bs) := (s.bufRuns k n o f.bytes.length).foldl (fun (r : State × List Nat × Bytes) (x : Nat × Nat) =>
      let (t, os, b) := r.1.stackGet req k x.1 x.2
      (t, r.2.1 ++ os, r.2.2 ++ b)) (s, [], [])
    (t, if badOutcome outs then none else some { f with bytes := bs, at_ := none })
  | _, _ => (s, some { f with at_ := none })

/-- Frames taken out of the buffer, in order; those that cannot be read are dropped and counted in `drop`. -/
def State.bufTake (s : State) (n : Nat) (rx : Bool) (fs : List Frame) : State × List Frame :=
  fs.foldl (fun (r : State × List Frame) f =>
    let (t, g) := r.1.bufGet n (2 * n + b2n rx) f
    match g with
    | some g => (t, r.2 ++ [g])
    | none => (if rx then t.dropped n (F.PORT_PAD_DROP_RX_COUNT n) 1 else t.dropped n (F.PORT_PAD_DROP_TX_COUNT n) 1, r.2)) (s, [])

/-! ## Segments and lots (R54 to R57) -/

/-- Pack frames into a payload with `room` bytes left at `off`: the bytes, the frames with bytes in it, the frames that end
in it, FPTR, and the frames left. What follows a fill header is 0 (DESIGN CHOICE; see log entry 117). -/
def packLot : List Frame → Nat → Nat → Bytes × List Nat × List Nat × Nat × List Frame
  | [], _, room => (if room = 1 then [0] else if room = 0 then [] else leBytes 0xC000 2 ++ List.replicate (room - 2) 0,
      [], [], 0xFFFF, [])
  | f :: fs, off, room =>
    let rem := f.bytes.drop f.done
    if room < 3 && !(room = 2 && rem = [] && f.aborted) then
      (if room = 1 then [0] else if room = 0 then [] else leBytes 0xC000 2, [], [], 0xFFFF, f :: fs)
    else
      let t := rem.take (room - 2)
      let eof := decide (t.length = rem.length)
      let sof := decide (f.done = 0)
      let h := t.length + 2048 * b2n sof + 4096 * b2n eof + 8192 * b2n (eof && f.aborted)
      let seg := leBytes h 2 ++ t
      if eof then
        let (bs, ids, ends, fp, rest) := packLot fs (off + seg.length) (room - seg.length)
        (seg ++ bs, f.id :: ids, f.id :: ends, if sof then off else fp, rest)
      else (seg, [f.id], [], if sof then off else 0xFFFF, { f with done := f.done + t.length } :: fs)

/-- FPTR of a payload, by walking the segment headers from offset 0 (R121). -/
def walkFptr (bs : Bytes) (size : Nat) : Nat → Nat → Nat
  | 0, _ => 0xFFFF
  | k + 1, pos =>
    if size < pos + 2 then 0xFFFF else
    let h := uLe bs pos 2
    if h / 16384 ≠ 0 then 0xFFFF
    else if bit h 11 then pos
    else walkFptr bs size k (pos + 2 + h % 2048)

/-- A lot header (Table 3-3). -/
def lotHeader (seq flags fptr ptag : Nat) : Bytes :=
  let h := leBytes seq 3 ++ [BitVec.ofNat 8 flags] ++ leBytes fptr 2 ++ [BitVec.ofNat 8 ptag]
  h ++ leBytes (crc16 h) 2

/-- PTAG now, in a direction: profile and GEN. -/
def State.ptag (s : State) (n : Nat) (rx : Bool) : Nat :=
  s.prof n rx + 4 * s.get (if rx then F.PORT_ILM_STATE_GEN_RX n else F.PORT_ILM_STATE_GEN_TX n)

/-- `n` bits of the PRBS-31 x^31 + x^28 + 1, as a number, first bit lowest (R56). The seed's bit k is the register's stage k + 1, and
each bit put out is the sum that is shifted in (DESIGN CHOICE; see log entry 114). -/
def prbs31 : Nat → Nat → Nat → Nat → Nat
  | 0, _, _, acc => acc
  | n + 1, st, i, acc =>
    let b := st.testBit 30 != st.testBit 27
    prbs31 n ((2 * st + b2n b) % 2 ^ 31) (i + 1) (acc + b2n b * 2 ^ i)

/-- The payload scrambled, or a scrambled payload restored (R56). -/
def scramble (seq : Nat) (bs : Bytes) : Bytes :=
  leBytes (leVal bs ^^^ prbs31 (8 * lotBytes) ((seq * 128 + 0x55) % 2 ^ 31) 0 0) lotBytes

/-! ## Delivery (R131, R132, R60) -/

/-- Hand a frame to the host lane of a port (R18, R398). -/
def State.toHost (s : State) (n : Nat) (bytes : Bytes) (errored : Bool) : State :=
  match s.laneOf n with
  | none => s
  | some m =>
    let t := (((s.emit (.hostFrame m bytes errored)).cenPort n 0x07 1).cenPort n 0x09 bytes.length).cenLane m 0x02 1
    let t := (t.cenLane m 0x04 bytes.length).when errored fun u => u.count (F.HL_TX_ERRORED_COUNT m) 1
    t.mirror n bytes errored

/-- Where the delivery of a payload stands. -/
structure Delivery where
  pos     : Nat := 0
  frame   : Option Bytes := none
  frames  : List (Bytes × Bool) := []
  hdrErr  : Bool := false
  deriving DecidableEq, Repr

/-- Walk the segments of a payload from a place on, collecting whole frames; where the host pauses it stops at a frame boundary
(R141). A broken segment makes the rest fill and drops the frame in progress (R55). LEN 0 without ABORT breaks the segment, and ABORT
without EOF is ignored (DESIGN CHOICE; see log entry 117). -/
def walkSegs (bs : Bytes) (size : Nat) (paused : Bool) : Nat → Delivery → Delivery
  | 0, d => { d with pos := size }
  | k + 1, d =>
    if size < d.pos + 2 then { d with pos := size }
    else if paused && d.frame = none then d
    else
      let h := uLe bs d.pos 2
      let len := h % 2048
      let sof := bit h 11
      let eof := bit h 12
      let abort := bit h 13 && eof
      let bad := { d with pos := size, frame := none, hdrErr := true }
      if h / 16384 = 3 then { d with pos := size }
      else if h / 16384 ≠ 0 || decide (size < d.pos + 2 + len) || (decide (len = 0) && !abort) || sof != d.frame.isNone then bad
      else
        let fr := d.frame.getD [] ++ slice bs (d.pos + 2) len
        let d := { d with pos := d.pos + 2 + len }
        walkSegs bs size paused k (if eof then { d with frame := none, frames := d.frames ++ [(fr, abort)] } else { d with frame := some fr })

/-- A payload begins with the rest of a frame that was begun in an earlier lot. -/
def continues (bs : Bytes) : Bool :=
  let h := uLe bs 0 2
  decide (h / 16384 = 0) && !bit h 11 && decide (h % 2048 ≠ 0)

/-- A lot that delivery passes over in search of a frame start: the frame whose rest stands in it was begun in a lot that was lost,
and is counted once (R60, R132). DESIGN CHOICE: where a frame was in progress at the loss, this is taken to be its rest; see log
entry 117. -/
def State.passRest (s : State) (n : Nat) (bs : Bytes) : State :=
  if !(s.pd n).huntHad && continues bs then
    (s.modPd n fun p => { p with huntHad := true }).dropped n (F.PORT_PAD_DROP_RX_COUNT n) 1
  else s

/-- Deliver from one payload: from `pos`, or from FPTR where delivery looks for a frame start. `give` hands a frame on. -/
def State.deliverBy (s : State) (n : Nat) (bs : Bytes) (fptr : Nat) (paused : Bool) (give : State → Bytes → Bool → State) : State :=
  let hunt := (s.pd n).hunt && decide ((s.pd n).rxPos = 0)
  let s := if hunt then s.passRest n bs else s
  let p := s.pd n
  if hunt && fptr = 0xFFFF then s.modPd n fun p => { p with rxPos := lotBytes, rxFrame := none }
  else
    let d := walkSegs bs lotBytes paused 1009 { pos := if hunt then fptr else p.rxPos, frame := if hunt then none else p.rxFrame }
    let s := s.modPd n fun p => { p with rxPos := d.pos, rxFrame := d.frame, hunt := false, huntHad := false }
    let s := s.each d.frames fun t f => give t f.1 f.2
    if d.hdrErr then s.count (F.PORT_ILM_HDR_ERR_COUNT n) 1 else s

/-- Deliver from one payload to the host, which may hold the port. -/
def State.deliverLot (s : State) (n : Nat) (bs : Bytes) (fptr : Nat) : State :=
  s.deliverBy n bs fptr (s.flag (F.PORT_PAD_STATE_HOST_PAUSED n)) fun t b e => t.toHost n b e

/-- Lose a lot: the frame in progress is dropped, and delivery resumes at the FPTR of the next lot (R60, R132). -/
def State.loseLot (s : State) (n : Nat) : State :=
  let had := (s.pd n).rxFrame.isSome
  (s.modPd n fun p => { p with rxFrame := none, hunt := true, huntHad := had || (p.hunt && p.huntHad), rxPos := 0 }).dropped n
    (F.PORT_PAD_DROP_RX_COUNT n) (b2n had)

/-- CUM advances over a lot. -/
def State.release (s : State) (n q : Nat) : State :=
  ((s.put (F.PORT_PAD_RXSEQ_CUM n) q).modPd n fun p => { p with
    rxPos := 0, rx := p.rx.filter (fun l => l.seq ≠ q), voided := p.voided.filter (· ≠ q),
    asked := p.asked.filter (fun e => e.1 ≠ q), high := if seqAfter q p.high then q else p.high }).modLn n fun l =>
      { l with cumAdv := true }

/-- Deliver in SEQ order as far as lots are held and the host allows (R131). -/
def State.deliver (s : State) (n : Nat) : Nat → State
  | 0 => s
  | k + 1 =>
    let p := s.pd n
    let q := seqAdd (s.get (F.PORT_PAD_RXSEQ_CUM n)) 1
    if p.voided.contains q then ((s.loseLot n).release n q).deliver n k
    else match p.rx.find? fun l => l.seq = q with
      | none => s
      | some l =>
        if s.flag (F.PORT_PAD_STATE_HOST_PAUSED n) && p.rxFrame = none then s else
        let (t, pay) := s.lotGet (2 * n + 1) l.place
        match pay with
        | none => (t.modPd n fun p => { p with rx := p.rx.filter fun x => x.seq ≠ q }).askFor n q 1
        | some bs =>
          let t := t.deliverLot n bs l.fptr
          if lotBytes ≤ (t.pd n).rxPos then (t.release n q).deliver n k else t

/-- Swap grains of lame pseudo-channels whose lots are all released for free grains elsewhere (R151). -/
def State.lameSwap (s : State) (n : Nat) : State :=
  match s.padPart with
  | none => s
  | some (k, _) =>
    let p := s.pd n
    let lame (g : Nat) := let pc := s.grainPc k g; s.flag (F.MEM_PC_STATE_LAME (pc / 2) (pc % 2))
    if !(p.txGrains ++ p.rxGrains).any lame then s else
    let swap (gs : List Nat) (held : List Place) (pool : List (List Nat)) (i : Nat) : (List Nat × List (List Nat)) × Nat :=
      gs.foldl (fun (a : (List Nat × List (List Nat)) × Nat) g =>
        if lame g && !held.any fun x => x.grains.contains g then
          match takeGrain a.1.2 a.2 with
          | some (h, j, q) => ((a.1.1 ++ [h], q), j)
          | none => ((a.1.1 ++ [g], a.1.2), a.2)
        else ((a.1.1 ++ [g], a.1.2), a.2)) (([], pool), i)
    let t := swap p.txGrains ((p.tx.filter fun l => !l.void).map (·.place)) s.grainPool (s.nextIndex p.txGrains (2 * n))
    let r := swap p.rxGrains (p.rx.map (·.place)) t.1.2 (s.nextIndex p.rxGrains (2 * n + 1))
    (s.modPd n fun p => { p with txGrains := t.1.1, rxGrains := r.1.1 }).showFree

/-- Deliver all that can be delivered, move out of lame grains that this empties, and show the fills. -/
def State.deliverAll (s : State) (n : Nat) : State :=
  ((s.deliver n ((s.pd n).rx.length + (s.pd n).voided.length + 1)).lameSwap n).fillCheck n

/-- Pass frames of a rate adaptation buffer to the host, unless the host holds the port (R143). -/
def State.passToHost (s : State) (n : Nat) : State :=
  if s.flag (F.PORT_PAD_STATE_HOST_PAUSED n) then s.fillCheck n else
  let (s, fs) := s.bufTake n true (s.pd n).toHost
  ((s.modPd n fun p => { p with toHost := [] }).each fs fun t f => t.toHost n f.bytes f.aborted).fillCheck n

/-- A frame from a line without paddock retransmission goes to the host lane, cut-through where the buffer holds none before it and
the host does not hold the port; else through the rate adaptation buffer, or it is discarded where that is full (R19, R143). -/
def State.fromLine (s : State) (n : Nat) (bytes : Bytes) (errored : Bool) : State :=
  if !s.flag (F.PORT_PAD_STATE_HOST_PAUSED n) && (s.pd n).toHost = [] then s.toHost n bytes errored
  else if 1048576 < s.bufFill n + bytes.length then s.dropped n (F.PORT_PAD_RX_OVF_COUNT n) 1
  else
    let (s, f) := s.bufPut n (2 * n + 1) { id := (s.pd n).nextId, bytes := bytes, aborted := errored }
    (s.modPd n fun p => { p with nextId := p.nextId + 1, toHost := p.toHost ++ [f] }).passToHost n

/-! ## Flush (R124, R136) -/

/-- The number of frames that lots and staging hold, each counted once. -/
def Pad.txFrames (p : Pad) : Nat :=
  ((p.tx.flatMap (·.frames)) ++ p.staged.map (·.id) ++ p.hostStage.map (·.id)).eraseDups.length

/-- The payload of a lot as the reorder area's cells hold it, without a request. -/
def State.peekLot (s : State) (p : Place) : Bytes :=
  match s.padPart with
  | none => []
  | some (k, _) => (p.runs.flatMap fun x => s.padRuns k x.1 x.2).flatMap fun x => (List.range x.2).map fun i =>
      let q := s.locate k (x.1 + i)
      BitVec.ofNat 8 (s.cell (cellAddr q.pc q.bank ((s.bk q.pc q.bank).physRow q.row) q.col)).1

/-- Frames in the reorder area that were never passed on: one in progress, and those with a start in a held lot, but for what the
partly delivered lot has already given. -/
def State.rxFrames (s : State) (n : Nat) : Nat :=
  let p := s.pd n
  let first := seqAdd (s.get (F.PORT_PAD_RXSEQ_CUM n)) 1
  p.rx.foldl (fun a l =>
    let part := l.seq = first && p.rxPos ≠ 0
    let d := walkSegs (s.peekLot l.place) lotBytes false 1009
      { pos := if part then p.rxPos else if l.fptr = 0xFFFF then lotBytes else l.fptr, frame := if part then p.rxFrame else none }
    a + d.frames.length + b2n d.frame.isSome - b2n (part && p.rxFrame.isSome)) (b2n p.rxFrame.isSome)

/-- Frames that a flush discards: those toward the line, and those toward the host (R136). -/
def State.flushCounts (s : State) (n : Nat) : Nat × Nat :=
  ((s.pd n).txFrames + (s.pd n).toLine.length, s.rxFrames n + (s.pd n).toHost.length)

/-- Flush both paddocks and the staged frames, count what is discarded, and restart numbering (R136, R124). -/
def State.flushPad (s : State) (n : Nat) : State :=
  let (tx, rx) := s.flushCounts n
  let s := s.modPd n fun p => { p with
    tx := [], resend := [], staged := [], hostStage := [], rxStage := [], rx := [], high := 0xFFFFFF, asked := [], voided := [],
    voidDue := [], rxPos := 0, rxFrame := none, hunt := false, huntHad := false, toLine := [], toHost := [], resume := none,
    resumeAcked := false }
  let s := ((s.put (F.PORT_PAD_TXSEQ_NEXT n) 0).put (F.PORT_PAD_RXSEQ_CUM n) 0xFFFFFF).put (F.PORT_PAD_STATE_KEPT n) 0
  ((s.dropped n (F.PORT_PAD_DROP_TX_COUNT n) tx).dropped n (F.PORT_PAD_DROP_RX_COUNT n) rx).fillCheck n

end Sys2Proof.Machine
end

