-- ==== Sys2Proof/Machine/Slices.lean ====
section
/-!
DEFINITION. The DSP slices (R13, R367, R370, R373): which slice serves which port, and the idle ones.
-/
namespace Sys2Proof.Machine

/-- The slices of the part: those that can be granted, then the rotation spares 64 to 67. -/
def State.sliceList (s : State) : List Nat := List.range s.nSlices ++ [64, 65, 66, 67]

/-- STATE of a slice: 0 idle, 1 serving, 2 under test, 3 failed. -/
def State.sliceState (s : State) (x : Nat) : Nat := s.get (F.TST_SLICE_STATE_STATE x)

/-- The slices in a port's map, in the order of their tone blocks (Table 14-6). -/
def State.servedBy (s : State) (n : Nat) : List Nat :=
  ([F.SLICE_MAP_SLICE0 n, F.SLICE_MAP_SLICE1 n, F.SLICE_MAP_SLICE2 n, F.SLICE_MAP_SLICE3 n, F.SLICE_MAP_W1_SLICE4 n,
    F.SLICE_MAP_W1_SLICE5 n].take (s.get (F.SLICE_MAP_W1_COUNT n))).map fun f => s.get f

/-- Write a port's map. -/
def State.putMap (s : State) (n : Nat) (l : List Nat) : State :=
  let v (i : Nat) := l.getD i 0x7F
  (s.putWord (A.SLICE_MAP n) (BitVec.ofNat 32 (v 0 + 256 * v 1 + 65536 * v 2 + 16777216 * v 3))).putWord (A.SLICE_MAP_W1 n)
    (BitVec.ofNat 32 (v 4 + 256 * v 5 + 268435456 * min l.length 6))

/-- FREE_SPARES shows the idle slices; reaching 0 raises TST_SPARES_OUT (R373). -/
def State.showSpares (s : State) : State :=
  let k := (s.sliceList.filter fun x => s.sliceState x = 0).length
  let t := s.put F.TST_ROT_STATE_FREE_SPARES k
  if k = 0 && s.get F.TST_ROT_STATE_FREE_SPARES ≠ 0 then t.raiseSparesOut else t

/-- The slice under test, if any. -/
def State.tested (s : State) : Option Nat :=
  if s.flag F.TST_ROT_STATE_SLICE_BUSY then some (s.get F.TST_ROT_STATE_SLICE) else none

/-- No slice is under test. -/
def State.endSliceTest (s : State) : State := (s.put F.TST_ROT_STATE_SLICE_BUSY 0).put F.TST_ROT_STATE_SLICE 0x7F

/-- A slice goes to serve port `n`. -/
def State.assign (s : State) (x n : Nat) : State := (s.put (F.TST_SLICE_STATE_STATE x) 1).put (F.TST_SLICE_STATE_PORT x) n

/-- A slice serves no port. -/
def State.unassign (s : State) (x st : Nat) : State := (s.put (F.TST_SLICE_STATE_STATE x) st).put (F.TST_SLICE_STATE_PORT x) 0

/-- Take one slice for port `n` (R370): the lowest idle one, or, where there is none, the slice under test, whose test is
aborted. -/
def State.takeSlice (s : State) (n : Nat) : State × Option Nat :=
  match s.sliceList.find? fun x => s.sliceState x = 0 with
  | some x => (s.assign x n, some x)
  | none =>
    match s.tested with
    | some x =>
      if (List.range s.nPorts).any fun p => (s.servedBy p).contains x then (s, none)
      else (((s.endSliceTest).count F.TST_ABORTS_COUNT 1).assign x n, some x)
    | none => (s, none)

/-- A port that starts takes its grant, or what is left (R370, R373). -/
def State.takeSlices (s : State) (n : Nat) : State :=
  if s.servedBy n ≠ [] then s else
  let (t, l) := (List.range (s.pSlices n)).foldl (fun (r : State × List Nat) _ =>
    match r.1.takeSlice n with
    | (u, some x) => (u, r.2 ++ [x])
    | (u, none) => (u, r.2)) (s, [])
  ((t.putMap n l).modLn n fun x => { x with slices := if l.length < s.pSlices n then l.length else 0 }).showSpares

/-- The slices of a port that is down are idle again. A slice under test stays so. -/
def State.freeSlices (s : State) (n : Nat) : State :=
  if s.servedBy n = [] then s else
  let t := s.each (s.servedBy n) fun t x => if t.sliceState x = 1 then t.unassign x 0 else t
  ((t.putMap n []).modLn n fun x => { x with slices := 0 }).showSpares

/-- Send CAP_UPDATE; the change is announced once the partner has acknowledged it (R75). -/
def State.sendCap (s : State) (n a : Nat) : State :=
  (s.sendEoc n 0x22 (leBytes a 2)).modLn n fun l => { l with capSent := some (a, false) }

end Sys2Proof.Machine
end

