-- ==== Sys2Proof/Machine/Symbol.lean ====
section
/-!
DEFINITION. Symbols on the line (chapter 3): constellations and the mapping of bits to tones (R43 to R45, R61, R62), the bands of
the impulse detector (R84), the precoder (R80, R81), and the decoder of the code (R58, R59).
-/
namespace Sys2Proof.Machine

/-! ## Points (R45, R62) -/

/-- The binary value of an `m`-bit Gray label. -/
def grayVal (m g : Nat) : Nat := (List.range m).foldl (fun a k => a ^^^ (g >>> k)) 0 % 2 ^ m

/-- The level that an `m`-bit label puts on an axis; an axis without bits stays at 0. -/
def axisLevel (m g : Nat) : Int := if m = 0 then 0 else 2 * (grayVal m g : Int) - ((2 ^ m : Nat) - 1 : Int)

/-- The label of `m` bits of a stream from bit `o` on: the first bit taken is the most significant. -/
def labelAt (w o m : Nat) : Nat := (List.range m).foldl (fun a k => 2 * a + b2n (w.testBit (o + k))) 0

/-- The point of a tone that takes `b` bits of a stream from bit `o` on. -/
def pointOf (t w o b : Nat) (gain : Int) : Pt :=
  let mi := (b + 1) / 2
  let mq := b / 2
  { tone := t, i := axisLevel mi (labelAt w o mi), q := axisLevel mq (labelAt w (o + mi) mq), ms3 := 4 ^ mi - 1 + (4 ^ mq - 1),
    gain := gain }

/-- The QPSK point of a two-bit label, its high bit on the I axis. -/
def qpsk (t label : Nat) : Pt :=
  { tone := t, i := axisLevel 1 (bits label 1 1), q := axisLevel 1 (bits label 0 1), ms3 := 6 }

/-- The opposite point (R81). -/
def Pt.neg (p : Pt) : Pt := { p with i := -p.i, q := -p.q }

/-- The ack tones (Table 3-1). -/
def isAckTone (t : Nat) : Bool := decide (16 ≤ t) && decide (t < 32)
/-- The pilots; under v2 those at 512 and 1,536 alone (R90). -/
def isPilot (v2 : Bool) (t : Nat) : Bool := [512, 1536, 2560, 3584].contains t && (!v2 || decide (t < 2048))

/-- The points of pilots and ack tones: the pilots with label `pilot`, the ack tones with two bits each of `word` (R43, R62). -/
def ackPoint (v2 : Bool) (pilot word t : Nat) : Option Pt :=
  if isPilot v2 t then some (qpsk t pilot) else if isAckTone t then some (qpsk t (bits word (2 * (t - 16)) 2)) else none

/-- The PRBS-11 x^11 + x^9 + 1 from all ones: its 2,047 bits (R44). Each bit is the sum that is shifted in (DESIGN CHOICE; see log
entry 114). -/
def prbs11 : Nat → Nat → List Nat
  | 0, _ => []
  | n + 1, st =>
    let b := b2n (st.testBit 10 != st.testBit 8)
    b :: prbs11 n ((2 * st + b) % 2048)

/-- The QPSK label of pair `k` of the PRBS-11, the first bit on the I axis. -/
def prbsLabel (seq : List Nat) (k : Nat) : Nat := 2 * seq.getD (2 * k % 2047) 0 + seq.getD ((2 * k + 1) % 2047) 0

/-- The active tones of a direction, ascending (R87). -/
def State.tones (s : State) (n : Nat) (rx : Bool) : List Nat := (List.range (s.activeIn n rx)).map (· + 8)

/-- The loading entry of a tone in the profile in force. -/
def State.entryNow (s : State) (n : Nat) (rx : Bool) (t : Nat) : Nat := s.get (toneFld n rx (s.prof n rx) t)

/-- The points of data tones by a PRBS-11 from pair `from_` on (R44, Table 4-2). -/
def State.prbsPoints (s : State) (n from_ : Nat) (neg : Bool) : List Pt :=
  let seq := prbs11 2047 2047
  ((s.tones n false).filter (isDataTone (s.isV2 n))).zipIdx.map fun e =>
    let p := qpsk e.1 (prbsLabel seq (from_ + e.2))
    if neg then p.neg else p

/-- The points of data tones by the codeword stream: each takes the bits of its entry, in ascending order; a tone with no bits is
silent (R43, R61). -/
def State.streamPoints (s : State) (n : Nat) : List Pt :=
  let w := (s.ln n).txBits
  (((s.tones n false).filter (isDataTone (s.isV2 n))).foldl (fun (a : List Pt × Nat) t =>
    let e := s.entryNow n false t
    let b := entBits e
    if b = 0 then a else (pointOf t w a.2 b (signed 6 (e / 16)) :: a.1, a.2 + b)) ([], 0)).1.reverse

/-- Points in ascending order of their tones. -/
def mergePts (a b : List Pt) : List Pt := (a ++ b).mergeSort fun x y => x.tone ≤ y.tone

/-! ## Vector groups (R81 to R83, R97, R99) -/

/-- Members of flock `k` that are joining (1) or active (2), as flock positions. -/
def State.vecIn (s : State) (k st : Nat) : List Nat :=
  (List.range 4).filter fun p => decide (s.get (F.PORT_ILM_STATE_VEC_STATE (4 * k + p)) = st)

/-- FLOCK_VEC_STATE (Table 3-20), and the port to which the PLL of a slave group locks: the bellwether, or while no member is active
the lowest-numbered one that is joining (R42, R99). -/
def State.showFlock (s : State) (k : Nat) : State :=
  let act := s.vecIn k 2
  let join := s.vecIn k 1
  let slave := (act ++ join).any fun p => s.flag (F.PORT_ILM_STATE_TIMING_SLAVE (4 * k + p))
  let bell := match act with | p :: _ => if slave then 4 * k + p else 0xFF | [] => 0xFF
  let pll := if slave then ((act ++ join).head?).map (4 * k + ·) else none
  let s := s.withClk { s.clk with pll := Tbl.set s.clk.pll none k pll }
  s.each [(F.FLOCK_VEC_STATE_ACTIVE k, listMask act), (F.FLOCK_VEC_STATE_JOINING k, listMask join),
    (F.FLOCK_VEC_STATE_SLAVE k, b2n slave), (F.FLOCK_VEC_STATE_BELLWETHER k, bell)] fun t e => t.put e.1 e.2

/-- The ports of flock `k` in its VEC_MASK. -/
def State.vecPorts (s : State) (k : Nat) : List Nat :=
  ((List.range 4).filter fun p => (s.vecMask k).testBit p).map (4 * k + ·)

/-- Set a port's VEC_STATE. A change of the active members raises PORT_VEC_CHANGE on every member (R83). A port that is no member has
no coefficients. Once the group is empty again its role seed is drawn anew at the next negotiation (R97). -/
def State.setVec (s : State) (n st : Nat) : State :=
  let k := n / 4
  let old := s.get (F.PORT_ILM_STATE_VEC_STATE n)
  let s := s.modLn n fun l => { l with joinAt := none, leaving := false, vecRun := [], fextAt := if st = 0 then [] else l.fextAt }
  if old = st then s else
  let who := (s.vecIn k 1 ++ s.vecIn k 2 ++ [n % 4]).eraseDups
  let t := (s.put (F.PORT_ILM_STATE_VEC_STATE n) st).showFlock k
  let t := if t.vecIn k 1 ++ t.vecIn k 2 = [] then
      t.each ((t.vecPorts k).filter fun p => t.an p ≠ 1) fun u p => u.modLn p fun l => { l with seed := 0 }
    else t
  if old = 2 || st = 2 then t.each who fun u p => u.raise (Ev.portVecChange (4 * k + p)) else t

/-- The port leaves its vector group: an active member at the next superframe boundary (R83), a joining one at once. -/
def State.leaveGroup (s : State) (n : Nat) : State :=
  if s.get (F.PORT_ILM_STATE_VEC_STATE n) = 2 then s.modLn n fun l => { l with leaving := true } else s.setVec n 0

/-- The members of flock `k` that are leaving leave (R83). -/
def State.leaveNow (s : State) (k : Nat) : State :=
  s.each (((List.range 4).map (4 * k + ·)).filter fun p => (s.ln p).leaving) fun t p => t.setVec p 0

/-! ## The precoder (R80, R81) -/

/-- A coefficient limited to a magnitude of 0.5, in units of 2^-15. DESIGN CHOICE: its phase is kept; see log entry 114. -/
def limitHalf (c : Int × Int) : Int × Int :=
  let m := (c.1 * c.1 + c.2 * c.2).toNat
  if m ≤ 2 ^ 28 then c else
  let r : Int := ((List.range 32).foldl (fun a k => let b := a + 2 ^ (31 - k); if b * b ≤ m then b else a) 0 + 1 : Nat)
  (c.1 * 16384 / r, c.2 * 16384 / r)

/-- The superframe, plus 1, whose reports last updated a port's FEXT coefficients on a tone; 0 for never. -/
def Line.fextStamp (l : Line) (t : Nat) : Nat := l.fextAt.getD (t % 64) 0

/-- c_kj of a tone: the coefficient with which port `k`'s precoder takes off port `j`'s point. -/
def State.fext (s : State) (k j t : Nat) : Int × Int := limitHalf (Config.fext k j t ((s.ln k).fextStamp t))

/-- The NEXT coefficient with which port `k` takes off port `j`'s transmitted point on a tone (R79). -/
def State.next (s : State) (k j t : Nat) : Int × Int := Config.next k j t (s.ln k).adaptAt

/-- The other active members of a port's group, where it is one. -/
def State.coMembers (s : State) (n : Nat) : List Nat :=
  if s.get (F.PORT_ILM_STATE_VEC_STATE n) ≠ 2 then []
  else ((List.range 4).map (4 * (n / 4) + ·)).filter fun j => decide (j ≠ n) && decide (s.get (F.PORT_ILM_STATE_VEC_STATE j) = 2)

/-- What the precoder takes off a port's data symbol (R80). -/
def State.precode (s : State) (n : Nat) : List (Nat × List (Nat × Int × Int)) :=
  (s.coMembers n).map fun j => (j, (s.tones n false).map fun t => (t, s.fext n j t))

/-! ## What a data symbol carries (R43, R82, R116, Table 4-2) -/

/-- What stands on the tones of a port's data symbols: 0 nothing; 1 pilots and ack tones; 2 those and PRBS data; 3 those and the
codeword stream. DESIGN CHOICE: pilots and ack tones are sent wherever the embedded operations channel is open and data tones are
silent; see log entry 114. -/
def State.dataKind (s : State) (n : Nat) : Nat :=
  let slave := s.flag (F.PORT_ILM_STATE_TIMING_SLAVE n)
  let joining := decide (s.get (F.PORT_ILM_STATE_VEC_STATE n) = 1)
  if s.upIlm n then
    if s.flag (F.PORT_LINK_STATUS_LPI n) && (s.ln n).sym ≠ 1 && (s.ln n).sym ≠ 128 then 0
    else if joining then 1 else 3
  else if s.an n = 5 then (if (s.ln n).warmChecked && !joining then 3 else 1)
  else
    match s.get (F.PORT_LINK_STATUS_PHASE n) with
    | 0 => 0
    | 1 => if slave && !(s.ln n).locked then 0 else 1
    | 2 => 1
    | 3 => 1
    | 4 => if slave then 1 else 2
    | 5 => if slave then 2 else 1
    | _ => 2

/-- The bits that the next data symbol takes from the codeword stream. -/
def State.bitsNow (s : State) (n : Nat) (rx : Bool) : Nat := s.sumBits n rx (s.prof n rx) (s.activeIn n rx)

/-- The points of a data symbol with a reverse word. -/
def State.dataPoints (s : State) (n kind word : Nat) : List Pt :=
  let v2 := s.isV2 n
  let ack := (s.tones n false).filterMap (ackPoint v2 0 word)
  let data := match kind with
    | 2 =>
      let k := ((s.tones n false).filter (isDataTone v2)).length
      s.prbsPoints n ((s.ln n).sym * k) false
    | 3 => s.streamPoints n
    | _ => []
  mergePts ack data

/-- The points of a sync symbol (R44): the Walsh sign on the data tones; pilots and ack tones say whether it is flagged. -/
def State.syncPoints (s : State) (n : Nat) (neg flagged : Bool) : List Pt :=
  let l := if flagged then 3 else 0
  mergePts ((s.tones n false).filterMap (ackPoint (s.isV2 n) l (if flagged then 0xFFFFFFFF else 0))) (s.prbsPoints n 0 neg)

/-- The receiver's decision on a sync symbol from the 20 pilot and ack points it receives: the sum of their correlations with
label 0b00 is negative (R44). -/
def syncFlagged (pts : List (BitVec 16 × BitVec 16)) : Bool := decide ((pts.map fun p => -p.1.toInt - p.2.toInt).sum < 0)

/-! ## Bands of the impulse detector (R84) -/

/-- The band, of 16, of an active tone. -/
def bandOf (active t : Nat) : Nat := (t - 8) * 16 / max active 1

/-- The bands of a received data symbol whose mean squared error exceeds their long-term average by more than BAND_THR. A band whose
average has not formed yet is not flagged. -/
def State.flagged (s : State) (n : Nat) (err : List (BitVec 8)) : List Nat :=
  let thr := max 1 (s.get (F.PORT_IMP_CFG_BAND_THR n))
  let avg := (s.ln n).avg
  (List.range 16).filter fun b => decide (b < err.length) && decide (b < avg.length) && decide (avg.getD b 0 + thr < (err.getD b 0).toNat)

/-- The averages after a symbol that is not erased. -/
def newAvg (avg : List Nat) (err : List (BitVec 8)) : List Nat :=
  (List.range 16).map fun b => match avg[b]? with
    | some a => Config.bandAvg a (err.getD b 0).toNat
    | none => (err.getD b 0).toNat

/-- The received bits of a data symbol, band by band: how many, and whether they are erased. -/
def State.symbolRuns (s : State) (n : Nat) (erased : Bool) (bands : List Nat) : List (Nat × Nat × Bool) :=
  let a := s.activeIn n true
  ((List.range 16).map fun b =>
    (s.sfc n, (((s.tones n true).filter fun t => isDataTone (s.isV2 n) t && decide (bandOf a t = b)).map fun t =>
      entBits (s.entryNow n true t)).sum, erased || bands.contains b)).filter fun e => e.2.1 ≠ 0

/-- The first `k` bits of a list of runs, and what follows them. -/
def takeRuns : Nat → List (Nat × Nat × Bool) → List (Nat × Nat × Bool) × List (Nat × Nat × Bool)
  | _, [] => ([], [])
  | k, (sf, m, e) :: r =>
    if m ≤ k then let (a, b) := takeRuns (k - m) r; ((sf, m, e) :: a, b)
    else if k = 0 then ([], (sf, m, e) :: r)
    else ([(sf, k, e)], (sf, m - k, e) :: r)

/-- Erased bits among runs. -/
def erasedBits (runs : List (Nat × Nat × Bool)) : Nat := ((runs.filter (·.2.2)).map (·.2.1)).sum

/-- The positions of erased bits, as a mask. -/
def erasedMask (runs : List (Nat × Nat × Bool)) : Nat :=
  (runs.foldl (fun (a : Nat × Nat) e => (if e.2.2 then a.1 + (2 ^ e.2.1 - 1) * 2 ^ a.2 else a.1, a.2 + e.2.1)) (0, 0)).1

/-! ## The code (R58) -/

/-- A cyclic shift right by `k` of a block of 108 bits: bit `a` of the product is bit (a + k) mod 108 of the block. -/
def rot108 (x k : Nat) : Nat := ((x >>> (k % 108)) ||| (x <<< (108 - k % 108))) % 2 ^ 108

/-- The rows of an information column and their shifts. -/
def ldpcRows (j : Nat) : List (Nat × Nat) :=
  let q := (j / 10) % 4
  [j % 10, (j + 1 + q) % 10, (j + 5 + q) % 10].map fun i => (i, (7 * j + 13 * i + 3 * i * (j / 10)) % 108)

/-- The sums that the information bits put into the ten rows of H. -/
def ldpcSums (info : Nat) : List Nat :=
  (List.range 10).map fun i => (List.range 150).foldl (fun a j =>
    (ldpcRows j).foldl (fun b e => if e.1 = i then b ^^^ rot108 (bits info (108 * j) 108) e.2 else b) a) 0

/-- The parity blocks of an information word, columns 150 to 159. -/
def ldpcParity (info : Nat) : List Nat :=
  let sm := ldpcSums info
  let p0 := sm.foldl (· ^^^ ·) 0
  let own (i : Nat) := if i = 0 || i = 9 then rot108 p0 1 else if i = 5 then p0 else 0
  let ps := (List.range 9).foldl (fun (a : List Nat × Nat) i =>
    let p := sm.getD i 0 ^^^ own i ^^^ a.2
    (a.1 ++ [p], p)) ([], 0)
  p0 :: ps.1

/-- A codeword: 16,200 information bits, then 1,080 parity bits (R53). -/
def codeword (info : Nat) : BitVec 17280 :=
  BitVec.ofNat 17280 (info % 2 ^ 16200 + (List.range 10).foldl (fun a k => a + (ldpcParity info).getD k 0 * 2 ^ (108 * k)) 0 * 2 ^ 16200)

/-- The syndrome of a word is zero. -/
def syndromeZero (w : BitVec 17280) : Bool := decide (codeword (w.toNat % 2 ^ 16200) = w)

/-! ## The decoder (R59) -/

/-- The columns of block row `i` of H, with their shifts. -/
def ldpcCols (i : Nat) : List (Nat × Nat) :=
  ((List.range 150).flatMap fun j => ((ldpcRows j).filter fun e => e.1 = i).map fun e => (j, e.2)) ++
    (if i = 0 || i = 9 then [(150, 1)] else if i = 5 then [(150, 0)] else []) ++
    ((List.range 9).filter fun k => k = i || k + 1 = i).map fun k => (151 + k, 0)

/-- A list turned left by `k` places. -/
def turn {α : Type} (l : List α) (k : Nat) : List α := l.drop k ++ l.take k

/-- The two least magnitudes that meet in a check, the column of the least, and whether an odd number of the values is
negative. -/
structure Check where
  least : Option (Nat × Nat) := none
  other : Option Nat := none
  odd   : Bool := false
  deriving DecidableEq, Repr

/-- A check with the value of one more column. -/
def Check.add (c : Check) (col : Nat) (v : Int) : Check :=
  let m := v.natAbs
  let odd := c.odd != decide (v < 0)
  let low (x : Nat) : Option Nat := some (match c.other with | some y => min x y | none => x)
  match c.least with
  | none => { least := some (m, col), odd := odd }
  | some (x, k) => if m < x then { least := some (m, col), other := low x, odd := odd } else { least := some (x, k), other := low m, odd := odd }

/-- The message of a check to one of its columns: 0.75 of the least magnitude of the others, with the sign they agree on. -/
def Check.msg (c : Check) (col : Nat) (v : Int) : Int :=
  let m : Nat := match c.least with
    | some (x, k) => if k = col then c.other.getD 0 else x
    | none => 0
  let r : Int := ((3 * m / 4 : Nat) : Int)
  if c.odd != decide (v < 0) then -r else r

/-- One layer of the decoder: the checks of a block row, on the values of all 160 blocks and the row's messages. -/
def ldpcLayer (cols : List (Nat × Nat)) (blocks : List (List Int)) (msgs : List (List Int)) : List (List Int) × List (List Int) :=
  let q := (cols.zip msgs).map fun e => (turn (blocks.getD e.1.1 []) e.1.2).zipWith (· - ·) e.2
  let checks := (cols.zip q).foldl (fun cs e => cs.zipWith (fun (c : Check) (v : Int) => c.add e.1.1 v) e.2) (List.replicate 108 ({} : Check))
  let new := (cols.zip q).map fun e => checks.zipWith (fun (c : Check) (v : Int) => c.msg e.1.1 v) e.2
  ((cols.zip (q.zip new)).foldl (fun bs e => bs.set e.1.1 (turn (e.2.1.zipWith (· + ·) e.2.2) (108 - e.1.2))) blocks, new)

/-- The hard decisions of 160 blocks of values: a negative value is a 1. -/
def hardWord (blocks : List (List Int)) : BitVec 17280 :=
  BitVec.ofNat 17280 (blocks.flatten.foldr (fun v a => 2 * a + b2n (decide (v < 0))) 0)

/-- Iterations of the decoder, until the syndrome is zero or none is left. -/
def ldpcRun : Nat → List (List Int) → List (List (List Int)) → BitVec 17280
  | 0, blocks, _ => hardWord blocks
  | k + 1, blocks, msgs =>
    if syndromeZero (hardWord blocks) then hardWord blocks else
    let r := ((List.range 10).zip msgs).foldl (fun (a : List (List Int) × List (List (List Int))) e =>
      let (b, m) := ldpcLayer (ldpcCols e.1) a.1 e.2
      (b, a.2 ++ [m])) (blocks, [])
    ldpcRun k r.1 r.2

/-- The word that the decoder leaves of a received one: `mag` gives the magnitudes of the log-likelihood ratios, 1 where it ends,
and erased bits enter with 0. Values are exact, in units that the 120 layers never divide (DESIGN CHOICE; see log entry 114). -/
def decodeWord (w : BitVec 17280) (mag : List (BitVec 8)) (erased : Nat) : BitVec 17280 :=
  let v := w &&& ~~~ BitVec.ofNat 17280 erased
  if syndromeZero v then v else
  let one (k : Nat) : Int :=
    if erased.testBit k then 0
    else let m : Int := ((mag.getD k 1).toNat * 4 ^ 120 : Nat); if w.getLsbD k then -m else m
  let blocks := (List.range 160).map fun j => (List.range 108).map fun a => one (108 * j + a)
  ldpcRun 12 blocks ((List.range 10).map fun i => (ldpcCols i).map fun _ => List.replicate 108 0)

end Sys2Proof.Machine
end

