-- ==== Sys2Proof/Machine/PadRows.lean ====
section
/-!
DEFINITION. The commands of the frame path and of paddock retransmission (chapter 5, R297, R141).
-/
namespace Sys2Proof.Machine

/-! ## From the host (R297, R139 to R143, R119) -/

/-- Wake a link from ILM low-power idle, or call one off that has been named (R116). -/
def State.lpiWake (s : State) (n : Nat) : State :=
  if !s.upIlm n || (s.ln n).lpiOut then s
  else if s.flag (F.PORT_LINK_STATUS_LPI n) then (s.sendEoc n 0x16 []).modLn n fun l => { l with lpiOut := true }
  else if (s.ln n).lpiAt.isSome then (s.sendEoc n 0x16 []).modLn n fun l => { l with lpiAt := none, lpiConf := false, idle := 0 }
  else s

/-- Accept a frame into the window, or into the rate adaptation buffer, or discard it whole (R139, R142, R143). -/
def State.admitFrame (s : State) (n : Nat) (f : Frame) : State :=
  let lots := (stagedBytes ((s.pd n).staged ++ [f]) + lotBytes - 1) / lotBytes + (s.pd n).tx.length
  let pad := s.padOn n || (s.warmComing n && (s.ln n).paddock)
  let fits := if pad then decide (lots ≤ capacity (s.pd n).txGrains) else decide (s.bufFill n + f.bytes.length ≤ 1048576)
  if !fits then s.dropped n (F.PORT_PAD_HOST_OVF_COUNT n) 1 else
  if pad then s.modPd n fun p => { p with staged := p.staged ++ [f] } else
  let (s, f) := s.bufPut n (2 * n) f
  if s.upLegacy n || s.upTrv n then s.modPd n fun p => { p with toLine := p.toLine ++ [f] }
  else s.modPd n fun p => { p with staged := p.staged ++ [f] }

/-- Frames of the host staging go into the window or the buffer, once the stack takes them (R123). -/
def State.admitStaged (s : State) (n : Nat) : State :=
  let fs := (s.pd n).hostStage
  if fs = [] then s else (s.modPd n fun p => { p with hostStage := [] }).each fs fun t f => t.admitFrame n f

/-- A frame from the host. While the stack is stalled it waits in the host staging, which holds 96 KiB; one that finds it full is
discarded whole (R123). -/
def State.acceptFrame (s : State) (n : Nat) (bytes : Bytes) (aborted stalled : Bool) : State :=
  let f : Frame := { id := (s.pd n).nextId, bytes := bytes, aborted := aborted }
  if stalled && 98304 < stagedBytes ((s.pd n).hostStage ++ [f]) then s.dropped n (F.PORT_PAD_HOST_OVF_COUNT n) 1 else
  let s := s.modPd n fun p => { p with nextId := p.nextId + 1 }
  if stalled then (s.modPd n fun p => { p with hostStage := p.hostStage ++ [f] }).fillCheck n
  else ((s.admitStaged n).admitFrame n f).fillCheck n

/-- The first `k` frames of the buffer go out on a legacy line (R19). -/
def State.lineOut (s : State) (n k : Nat) : State :=
  let (s, fs) := s.bufTake n false ((s.pd n).toLine.take k)
  ((s.modPd n fun p => { p with toLine := p.toLine.drop k }).each fs fun t f => t.emit (.lineFrame n f.bytes f.aborted)).fillCheck n

/-- A frame received on host lane `m` (R297): cut at MAX_FRAME, ended with ABORT where errored, discarded while the port is
not up (R119). -/
def State.hostFrame (s : State) (m : Nat) (bytes : Bytes) (errored stalled : Bool) : State :=
  let n := s.get (F.HL_CFG_PORT m)
  if decide (s.get (F.HL_CFG_RATE m) = 0) || !s.flag (F.HL_STATUS_LOCKED m) || decide (s.nPorts ≤ n) || !s.coreOn then s else
  let maxF := max 64 (s.get (F.HL_CFG_MAX_FRAME m))
  let long := decide (maxF < bytes.length)
  let s := ((s.cenLane m 0x01 1).cenLane m 0x03 bytes.length).cenPort n 0x08 1
  let s := s.cenPort n 0x0A bytes.length
  let s := s.when long fun t => t.count (F.HL_LONG_COUNT m) 1
  let s := s.when errored fun t => t.count (F.HL_RX_ABORT_COUNT m) 1
  if s.up n then
    let s := (s.lpiWake n).acceptFrame n (bytes.take maxF) (long || errored) stalled
    if s.upLegacy n then s.put (F.PORT_LINK_STATUS_LPI n) 0 else s
  else if s.warmComing n || (s.pd n).drainHold then s.acceptFrame n (bytes.take maxF) (long || errored) stalled
  else s.count (F.PORT_DOWN_DISCARD_COUNT n) 1

/-- HOST_FRAME_RECEIVED (R297). `took` is how many frames of a legacy port's buffer its line has carried off. -/
def execHostFrameReceived (lane : BitVec 4) (bytes : Bytes) (errored stalled : Bool) (took : Nat) (s : State) :
    Host.Outcome State Fault Refusal :=
  let m := lane.toNat
  let n := s.get (F.HL_CFG_PORT m)
  let s := s.hostFrame m bytes errored stalled
  .next (if s.upLegacy n then s.lineOut n took else s)

/-- The host's hold on delivery ends and delivery resumes (R141). -/
def State.unpause (s : State) (n : Nat) : State :=
  let s := (s.put (F.PORT_PAD_STATE_HOST_PAUSED n) 0).modPd n fun p => { p with pauseEnd := none }
  if s.padOn n then s.deliverAll n else s.passToHost n

/-- A PAUSE frame, or a PFC frame, from the host of lane `m` (R141). -/
def State.hostPause (s : State) (m : Nat) (pfc : Bool) (enables : Nat) (quanta : Nat) : State :=
  let n := s.get (F.HL_CFG_PORT m)
  if decide (s.get (F.HL_CFG_RATE m) = 0) || !s.flag (F.HL_STATUS_LOCKED m) || decide (s.nPorts ≤ n) || !s.coreOn then s else
  let s := (s.count (F.HL_MACCTL_RX_COUNT m) 1).cenLane m 0x0B 1
  if pfc && !enables.testBit (s.get (F.HL_CFG_PFC_PRIO m)) then s
  else if quanta = 0 then s.unpause n
  else
    let ns := quanta * (if s.get (F.HL_CFG_RATE m) = 2 then 2048 else 5120) / 100
    (s.put (F.PORT_PAD_STATE_HOST_PAUSED n) 1).modPd n fun p => { p with pauseEnd := some (s.time + ns) }

/-- HOST_PAUSE_FRAME (R141). -/
def execHostPauseFrame (lane : BitVec 4) (pfc : Bool) (enables : BitVec 8) (quanta : BitVec 16) (s : State) :
    Host.Outcome State Fault Refusal :=
  .next (s.hostPause lane.toNat pfc enables.toNat quanta.toNat)

/-- HOST_PAUSE_EXPIRY (R141): the time the host's frame gave runs out. -/
def execHostPauseExpiry (port : BitVec 4) (s : State) : Host.Outcome State Fault Refusal :=
  .next (match (s.pd port.toNat).pauseEnd with
    | some t => (s.timeTo t).unpause port.toNat
    | none => s)

/-- XOFF_REFRESH (R140): while XOFF holds, the frame is sent again 400 µs after the last. -/
def execXoffRefresh (port : BitVec 4) (s : State) : Host.Outcome State Fault Refusal :=
  let n := port.toNat
  .next (if s.flag (F.PORT_PAD_STATE_XOFF n) then
      let s := s.timeTo ((s.pd n).xoffAt + 400000)
      (s.flowFrame n true).modPd n fun p => { p with xoffAt := s.time }
    else s)

/-! ## Sending lots (R129) -/

/-- U, the oldest SEQ not seen released, voided ones included (R126). -/
def State.oldest (s : State) (n : Nat) : Nat :=
  match (s.pd n).tx with
  | l :: _ => l.seq
  | [] => s.get (F.PORT_PAD_TXSEQ_NEXT n)

/-- Put a lot on the line: its codeword is laid at the end of the stream that the data symbols carry (R61). -/
def State.sendLot (s : State) (n seq flags : Nat) (fptr : Nat) (payload : Bytes) : State :=
  let h := lotHeader seq flags fptr (s.ptag n false)
  let w := codeword (leVal (h ++ scramble seq payload))
  (s.modLn n fun l => { l with txBits := l.txBits + w.toNat * 2 ^ l.txLen, txLen := l.txLen + 17280 }).emit (.codeword n h w)

/-- An idle lot: it repeats the SEQ of the last lot sent with frame bytes (R57). Its payload, which no receiver reads, is zeros (DESIGN
CHOICE; see log entry 117). -/
def State.sendIdle (s : State) (n : Nat) : State :=
  s.sendLot n (seqAdd (s.get (F.PORT_PAD_TXSEQ_NEXT n)) (2 ^ 24 - 1)) 1 0xFFFF (List.replicate lotBytes 0)

/-- Resend the oldest lot of the resend queue that can be read; lots that cannot are voided (R130, R142). -/
def State.resendOne (s : State) (n : Nat) : Nat → State × Bool
  | 0 => (s, false)
  | k + 1 =>
    match (s.pd n).resend with
    | [] => (s, false)
    | q :: r =>
      match (s.pd n).tx.find? fun l => l.seq = q with
      | none => (s.modPd n fun p => { p with resend := r }).resendOne n k
      | some l =>
        if l.void then (s.modPd n fun p => { p with resend := r }).resendOne n k else
        let (t, pay) := s.lotGet (2 * n) l.place
        match pay with
        | none => ((t.voidTx n [q]).modPd n fun p => { p with resend := p.resend.filter (· ≠ q) }).resendOne n k
        | some bs =>
          let t := ((t.modPd n fun p => { p with resend := p.resend.filter (· ≠ q) }).count (F.PORT_PAD_RETX_COUNT n) 1).cenPort n 0x05 1
          (t.sendLot n q 6 (walkFptr bs lotBytes 1009 0) bs, true)

/-- The frames of a lot without paddock are taken out of the rate adaptation buffer: those that the next lot reaches (R143). -/
def State.loadStaged (s : State) (n : Nat) : State :=
  let fs := (s.pd n).staged
  let k := (List.range fs.length).countP fun i => decide (stagedBytes (fs.take i) < lotBytes)
  let (s, gs) := s.bufTake n false (fs.take k)
  s.modPd n fun p => { p with staged := gs ++ p.staged.drop k }

/-- Send a new lot from the staged frames (R129, R131). The place is none where the link has no paddock. The lot goes out from the
staging that holds it while it is written (R123). -/
def State.sendNew (s : State) (n : Nat) (place : Option Place) : State :=
  let q := s.get (F.PORT_PAD_TXSEQ_NEXT n)
  let s := if place = none then s.loadStaged n else s
  let (bs, ids, ends, fp, rest) := packLot (s.pd n).staged 0 lotBytes
  let s : State := match place with
    | some pl => (s.lotPut (2 * n) pl bs).modPd n fun p => { p with
        tx := p.tx ++ [{ seq := q, place := pl, frames := ids, ends := ends }], staged := rest }
    | none => s.modPd n fun p => { p with staged := rest }
  ((s.put (F.PORT_PAD_TXSEQ_NEXT n) (seqAdd q 1)).modLn n fun l => { l with busy := true }).sendLot n q (if place = none then 0 else 4) fp bs

/-- CODEWORD_SLOT (R129): the oldest resend, a new lot within LIMIT, or an idle lot. `ready` says that the stack has answered, so that
a lot stands in staging (R123). In low-power idle only idle lots go out (R116), and frames wait for the wake (R138). -/
def execCodewordSlot (port : BitVec 4) (ready : Bool) (s : State) : Host.Outcome State Fault Refusal :=
  let n := port.toNat
  .next (
    if !(s.upIlm n && (s.ln n).streaming) then s
    else if !ready || s.flag (F.PORT_LINK_STATUS_LPI n) then s.sendIdle n
    else
      let s := s.admitStaged n
      if s.padOn n then
        let (t, sent) := s.resendOne n ((s.pd n).resend.length + 1)
        if sent then t.fillCheck n
        else
          let q := t.get (F.PORT_PAD_TXSEQ_NEXT n)
          let pl := freePlace (t.pd n).txGrains (((t.pd n).tx.filter fun l => !l.void).map (·.place)) q
          if decide (stagedBytes (t.pd n).staged ≠ 0) && decide (seqSub q (t.oldest n) < t.get (F.PORT_PAD_LIMIT_LIMIT n)) && pl.isSome then
            (t.sendNew n pl).fillCheck n
          else (t.sendIdle n).fillCheck n
      else if (s.pd n).staged ≠ [] then (s.sendNew n none).fillCheck n
      else s.sendIdle n)

/-! ## Receiving lots (R59, R128, R131) -/

/-- A lot is lost (R59, R60). -/
def State.lotLost (s : State) (n : Nat) : State :=
  let s := ((s.count (F.PORT_ILM_LOTS_LOST_COUNT n) 1).cenPort n 0x02 1).modLn n fun l => { l with lostLots := l.lostLots + 1 }
  if s.padOn n then s else s.loseLot n

/-- Take in a lot with frame bytes on a paddock link (R128, R131). -/
def State.storeLot (s : State) (n seq fptr : Nat) (payload : Bytes) : State :=
  let p := s.pd n
  let cum := s.get (F.PORT_PAD_RXSEQ_CUM n)
  if !seqAfter seq cum || p.rx.any (fun l => l.seq = seq) then s.count (F.PORT_PAD_DUP_COUNT n) 1 else
  match freePlace p.rxGrains (p.rx.map (·.place)) seq with
  | none => s
  | some pl =>
    let s := s.lotPut (2 * n + 1) pl payload
    let gap := if seqAfter seq p.high then seqSub seq p.high - 1 else 0
    let s := s.modPd n fun p => { p with
      rx := (p.rx.filter fun l => !seqAfter l.seq seq) ++ [{ seq := seq, place := pl, fptr := fptr }] ++
        p.rx.filter fun l => seqAfter l.seq seq,
      asked := p.asked.filter fun e => e.1 ≠ seq, voided := p.voided.filter (· ≠ seq),
      high := if seqAfter seq p.high then seq else p.high }
    let s := if gap = 0 then s else s.askFor n (seqAdd p.high 1) gap
    s.deliverAll n

/-- A lot with frame bytes that the line gave: on a paddock link it is stored, else its frames go on to the host (R60, R131). -/
def State.takeLot (s : State) (n seq fptr : Nat) (payload : Bytes) : State :=
  if s.padOn n then s.storeLot n seq fptr payload
  else
    let s := (s.modPd n fun p => { p with rxPos := 0 }).deliverBy n payload fptr false fun t b e => t.fromLine n b e
    s.modPd n fun p => { p with rxPos := 0 }

/-- Lots of the line staging are taken in, once the stack takes them (R123). -/
def State.takeStaged (s : State) (n : Nat) : State :=
  let ls := (s.pd n).rxStage
  if ls = [] then s else (s.modPd n fun p => { p with rxStage := [] }).each ls fun t l => t.takeLot n l.1 l.2.1 l.2.2

/-- A lot that decoded, with a good header (R128, R131). While the stack is stalled lots wait in the line staging, which holds 16; one
that finds it full is discarded (R123). -/
def State.lotIn (s : State) (n : Nat) (bs : Bytes) (stalled : Bool) : State :=
  let seq := uLe bs 0 3
  if (u8 bs 3).testBit 0 then
    if s.padOn n && seqAfter seq (s.pd n).high then s.askFor n (seqAdd (s.pd n).high 1) (seqSub seq (s.pd n).high) else s
  else if stalled && 16 ≤ (s.pd n).rxStage.length then s.count (F.PORT_PAD_STAGE_DROP_COUNT n) 1
  else
    let s := s.modLn n fun l => { l with busy := true }
    let payload := scramble seq (bs.drop 9)
    if stalled then s.modPd n fun p => { p with rxStage := p.rxStage ++ [(seq, uLe bs 4 2, payload)] }
    else s.takeLot n seq (uLe bs 4 2) payload

/-- LOT_RECEIVED (R59): the bits of the next codeword as the receiver demaps them, and the magnitudes of their log-likelihood ratios.
Which of them are erased, and in which superframe the first was mapped, the symbols received have told (R61, R84). -/
def execLotReceived (port : BitVec 4) (word : BitVec 17280) (mag : List (BitVec 8)) (stalled : Bool) (s : State) :
    Host.Outcome State Fault Refusal :=
  let n := port.toNat
  .next (
    if !(s.upIlm n && (s.ln n).streaming) then s
    else
      let (runs, rest) := takeRuns 17280 (s.ln n).rxRuns
      let sf := match runs with | r :: _ => r.1 | [] => s.sfc n
      let s := s.modLn n fun l => { l with rxRuns := rest }
      let s := if stalled then s else s.takeStaged n
      if 1080 < erasedBits runs then s.lotLost n
      else
        let out := decodeWord word mag (erasedMask runs)
        let bs := leBytes (out.toNat % 2 ^ 16200) 2025
        if !syndromeZero out || uLe bs 7 2 ≠ crc16 (bs.take 7) then s.lotLost n
        else (((s.count (F.PORT_ILM_LOTS_OK_COUNT n) 1).cenPort n 0x01 1).resolvePtag n (u8 bs 6) sf).lotIn n bs stalled)

/-! ## Reverse words (R126, R130) -/

/-- The reorder area holds a gap: a lot before H has not come (R128, R138). -/
def State.padGap (s : State) (n : Nat) : Bool :=
  let p := s.pd n
  decide (p.asked ≠ []) || (List.range (seqSub p.high (s.get (F.PORT_PAD_RXSEQ_CUM n)))).any fun i =>
    let q := seqAdd (s.get (F.PORT_PAD_RXSEQ_CUM n)) (i + 1)
    !(p.rx.any fun l => l.seq = q) && !p.voided.contains q

/-- Return the grains that a boost added beyond the one in force, once no held lot lies in them (R133, R145). -/
def State.shrinkPad (s : State) (n : Nat) : State :=
  let p := s.pd n
  let (bt, br) := (p.txGrains.length - p.extraTx, p.rxGrains.length - p.extraRx)
  let cut (gs : List Nat) (held : List Place) (want : Nat) : List Nat :=
    if (gs.drop want).any fun g => held.any fun x => x.grains.contains g then gs else gs.take want
  let t := cut p.txGrains (p.tx.map (·.place)) (bt + min p.extraTx (16 * p.boost))
  let r := cut p.rxGrains (p.rx.map (·.place)) (br + min p.extraRx (16 * p.boost))
  if t = p.txGrains && r = p.rxGrains then s
  else ((s.modPd n fun p => { p with
    txGrains := t, rxGrains := r, extraTx := t.length - bt, extraRx := r.length - br }).showPad n).showFree

/-- ACK_WORD (R126): lots up to CUM are released; an ACK beyond the highest SEQ sent is discarded and counted. -/
def execAckWord (port : BitVec 4) (cum : BitVec 24) (s : State) : Host.Outcome State Fault Refusal :=
  let n := port.toNat
  let next := s.get (F.PORT_PAD_TXSEQ_NEXT n)
  let u := s.oldest n
  let c := cum.toNat
  .next (
    if !(s.upIlm n && s.padOn n) then s
    else if seqAfter c (seqAdd next (2 ^ 24 - 1)) then s.count (F.PORT_PAD_BAD_WORD_COUNT n) 1
    else if !seqAfter c (seqAdd u (2 ^ 24 - 1)) then s
    else
      let gone := (s.pd n).tx.filter fun l => !seqAfter l.seq c && !l.void
      let s := s.modPd n fun p => { p with
        tx := p.tx.filter (fun l => seqAfter l.seq c), resend := p.resend.filter (fun q => seqAfter q c),
        drainOk := p.drainOk + (if p.drainEnd.isSome then (gone.flatMap (·.ends)).length else 0) }
      ((s.lameSwap n).shrinkPad n).fillCheck n)

/-- NAK_WORD (R126, R130): the lots it names join the resend queue in ascending order. -/
def execNakWord (port : BitVec 4) (payload : BitVec 24) (s : State) : Host.Outcome State Fault Refusal :=
  let n := port.toNat
  let next := s.get (F.PORT_PAD_TXSEQ_NEXT n)
  let u := s.oldest n
  let first := seqAdd u ((payload.toNat / 256 + 65536 - u % 65536) % 65536)
  let outstanding := seqSub next u
  let off := seqSub first u
  let run := if payload.getLsbD 7 then outstanding - off else payload.toNat % 128 + 1
  .next (
    if !(s.upIlm n && s.padOn n) then s else
    let s := s.count (F.PORT_PAD_NAK_RX_COUNT n) 1
    if outstanding < off + run || run = 0 then s.count (F.PORT_PAD_BAD_WORD_COUNT n) 1
    else
      let named := ((s.pd n).tx.filter fun l => decide (off ≤ seqSub l.seq u) && decide (seqSub l.seq u < off + run)).map (·.seq)
      s.modPd n fun p => { p with
        resend := ((p.tx.filter fun l => !l.void).map (·.seq)).filter fun q => p.resend.contains q || named.contains q })

/-- NAK_WAIT_EXPIRY (R128): the receiver asks again for the earliest lot that has not arrived in time, and for the missing
lots that follow it. -/
def execNakWaitExpiry (port : BitVec 4) (s : State) : Host.Outcome State Fault Refusal :=
  let n := port.toNat
  let wait := 1000 * max 16 (s.get (F.PORT_PAD_CFG_NAK_WAIT n))
  .next (
    match (s.pd n).asked with
    | [] => s
    | e0 :: es =>
      if !(s.upIlm n && s.padOn n) then s else
      let t0 := es.foldl (fun a e => min a e.2) e0.2
      let s := s.timeTo (t0 + wait)
      let late := (s.pd n).asked.filter fun e => decide (e.2 + wait ≤ s.time)
      let cum := s.get (F.PORT_PAD_RXSEQ_CUM n)
      let d := late.foldl (fun a e => min a (seqSub e.1 cum)) (2 ^ 24)
      let miss := (s.pd n).asked.filter fun e => decide (d ≤ seqSub e.1 cum)
      let last := miss.foldl (fun a e => max a (seqSub e.1 cum)) d
      (s.modPd n fun p => { p with asked := p.asked.map fun e => if d ≤ seqSub e.1 cum then (e.1, s.time) else e }).oweNak n
        (seqAdd cum d) (last - d + 1))

/-! ## Paddock messages (Table 5-2) -/

/-- PAD_PARAMS (R133): the partner's capacities; the new LIMIT is taken up at once. -/
def execPadParams (port : BitVec 4) (seq : BitVec 8) (rxLots txLots : BitVec 16) (_boosted : Bool) (s : State) :
    Host.Outcome State Fault Refusal :=
  let n := port.toNat
  .next (s.eocDo n 0x40 seq.toNat fun t =>
    ((t.modPd n fun p => { p with partnerRx := rxLots.toNat, partnerTx := txLots.toNat }).modLn n fun l =>
      { l with padParams := true }).showPad n)

/-- PAD_RESUME (R137): the partner's CUM, the highest SEQ it has sent, and whether it kept its paddocks. -/
def execPadResume (port : BitVec 4) (seq : BitVec 8) (cum high : BitVec 24) (kept : Bool) (s : State) :
    Host.Outcome State Fault Refusal :=
  let n := port.toNat
  .next (s.eocDo n 0x41 seq.toNat fun t => t.modPd n fun p => { p with resume := some (cum.toNat, high.toNat, kept) })

/-- PAD_VOID (R132): the receiver uses or gives up the void lots, and stops asking for them. -/
def execPadVoid (port : BitVec 4) (seq : BitVec 8) (ranges : List (BitVec 24 × BitVec 24)) (s : State) :
    Host.Outcome State Fault Refusal :=
  let n := port.toNat
  .next (s.eocDo n 0x42 seq.toNat fun t =>
    let cum := t.get (F.PORT_PAD_RXSEQ_CUM n)
    let named := (ranges.take 8).flatMap fun e => (List.range (min e.2.toNat 33288)).map (seqAdd e.1.toNat ·)
    let lost := (named.filter fun q => seqAfter q cum && !((t.pd n).rx.any fun l => l.seq = q) && !(t.pd n).voided.contains q).eraseDups
    let t := t.modPd n fun p => { p with
      voided := p.voided ++ lost, asked := p.asked.filter fun e => !lost.contains e.1 }
    (t.count (F.PORT_PAD_VOID_RX_COUNT n) lost.length).deliverAll n)

end Sys2Proof.Machine
end

