-- ==== Sys2Proof/Machine/SwapRows.lean ====
section
/-!
DEFINITION. The commands of the running ILM line: symbols, superframes, loading changes, and the channel's messages of
service (chapters 3 and 4, R168 to R172).
-/
namespace Sys2Proof.Machine

/-! ## Leading (R168 to R170) -/

/-- The port takes part in position-driven swaps: ILM v3, and the partner's ability word sets PISTE. -/
def State.takesPart (s : State) (n : Nat) : Bool := s.upIlm n && !s.isV2 n && (s.ln n).ability.testBit 22

/-- Work out which end leads, and show it (R169, R74). -/
def State.leadCheck (s : State) (n : Nat) : State :=
  let own := s.flag (F.PISTE_PORT_CLAIM n)
  let part := if (s.ln n).leadSeen then s.flag (F.PISTE_PORT_PARTNER_CLAIM n) else own
  let master := !s.flag (F.PORT_ILM_STATE_TIMING_SLAVE n)
  let leads := s.takesPart n && !(s.ln n).leadOff && ((own && !part) || (own == part && master))
  ((s.put (F.PORT_ILM_STATE_LEADING n) (b2n leads)).put (F.PISTE_PORT_LEADING n) (b2n leads)).put (F.PORT_ILM_STATE_FORCE_IGNORED n)
    (b2n (s.flag (F.PORT_ILM_CTRL_FORCE_EN n) && !leads))

/-- This end leads the link's profile swaps. -/
def State.leads (s : State) (n : Nat) : Bool := s.flag (F.PORT_ILM_STATE_LEADING n)

/-- Send PISTE_LEAD (Table 6-3). -/
def State.sendLead (s : State) (n : Nat) : State :=
  s.sendEoc n 0x50 ([BitVec.ofNat 8 (s.get (F.PISTE_PORT_CLAIM n) + 2 * s.get F.POS_STATE_FIX_VALID + 4 * s.get F.POS_STATE_STOPPED)] ++
    leBytes (s.get F.POS_ROUTE_ROUTE) 4 ++ leBytes (unsigned 40 s.posMm) 5 ++ leBytes (s.get F.POS_SPEED_SPEED) 2)

/-! ## Symbols (R43, R61 to R64, R84 to R86) -/

/-- So many flagged bands erase a whole symbol (R84). -/
def State.erasing (s : State) (n : Nat) : Nat := let b := s.get (F.PORT_IMP_CFG_SYM_BANDS n); if b = 0 then 16 else b

/-- The impulse detector on one symbol: whether the symbol is erased (R84). -/
def State.symErased (s : State) (n : Nat) (err : List (BitVec 8)) : Bool := decide (s.erasing n ≤ (s.flagged n err).length)

/-- R174 lets learning use an erasure event that begins now. -/
def State.learnable (s : State) : Bool :=
  s.flag F.POS_STATE_FIX_VALID && s.flag F.PISTE_STATUS_ROUTE_MATCH && !s.flag F.POS_STATE_HOLD &&
    decide (2000 ≤ s.get F.POS_SPEED_SPEED)

/-- `k` band flags inside the zones of entries that name the port: at 64 flags a pass counts as confirmed (R174). -/
def State.bandFlags (s : State) (n k : Nat) : State :=
  let x := s.posMm
  let one (a : Armed) : Armed :=
    if (ePorts a.w1).testBit n && decide (eStart a.w0 ≤ x) && decide (x ≤ eStart a.w0 + eLen a.w0) then
      { a with bands := min 64 (a.bands + k), conf := a.conf || decide (64 ≤ a.bands + k) }
    else a
  if k = 0 then s else s.withPiste { s.piste with armed := s.piste.armed.map one }

/-- An erased symbol, which may begin an erasure event (R85), and from which the 2 s of Table 4-7 run afresh. The event's length runs
to its last erased symbol, sync symbols between included, without the clean symbols that end it (DESIGN CHOICE; see log
entry 118). -/
def State.eraseSym (s : State) (n : Nat) : State :=
  let l := s.ln n
  let cleanEnd := max 1 (s.get (F.PORT_IMP_CFG_CLEAN_END n))
  let s := ((s.count (F.PORT_ILM_ERASED_COUNT n) 1).cenPort n 0x03 1).modLn n fun l => { l with downAt := l.downAt.map fun _ => s.time }
  if l.event = none && decide (cleanEnd ≤ l.clean) then
    ((s.modLn n fun l => { l with event := some (s.sfc n, l.sym, s.posMm, s.learnable), eventLen := 1, clean := 0 }).cenPort n 0x04 1).raise
      (Ev.portErasure n)
  else
    s.modLn n fun l =>
      let len := match l.event with
        | some (sf, sy, _, _) => (s.sfc n + 2 ^ 32 - sf) % 2 ^ 32 * 256 + l.sym + 1 - sy
        | none => l.eventLen
      { l with eventLen := len, clean := 0 }

/-- A symbol that is not erased: the averages of its bands take it in, and the timing loop, the equaliser and the cancellers adapt on
it (R77, R79, R84, R86); an erased one leaves all of them as they are. -/
def State.cleanSym (s : State) (n : Nat) (err : List (BitVec 8)) : State :=
  let at_ := 256 * s.sfc n + (s.ln n).sym
  s.modLn n fun l => { l with clean := min 255 (l.clean + 1), avg := newAvg l.avg err, adaptAt := at_, loopAt := at_ }

/-- The reverse word of a symbol that is not erased (R63). -/
def State.takeWord (s : State) (n : Nat) (word : BitVec 32) : State :=
  if !revOk word then s.count (F.PORT_ILM_ACKW_ERR_COUNT n) 1
  else if bits word.toNat 30 2 = 3 then s.eocBytesIn n (leBytes (bits word.toNat 0 24) 3)
  else s

/-- The received bits of a data symbol join the codewords under way (R61, R84). -/
def State.takeBits (s : State) (n : Nat) (erased : Bool) (bands : List Nat) : State :=
  if s.upIlm n && (s.ln n).streaming then
    let r := s.symbolRuns n erased bands
    s.modLn n fun l => { l with rxRuns := l.rxRuns ++ r }
  else s

/-- Idle lots follow on the codeword stream until it holds `k` bits (R57, R123). -/
def State.fillStream (s : State) (n k : Nat) : Nat → State
  | 0 => s
  | m + 1 => if (s.ln n).txLen < k then (s.sendIdle n).fillStream n k m else s

/-- This end's data symbol: a reverse word on the ack tones, and the next bits of the codeword stream on the data tones, precoded
in a vector group (R43, R61, R62, R64, R80). -/
def State.sendSymbol (s : State) (n : Nat) : State :=
  let kind := s.dataKind n
  if kind = 0 then s else
  let (s, w) := s.nextWord n
  let s := s.emit (.reverse n w)
  let k := if kind = 3 then s.bitsNow n false else 0
  let s := s.fillStream n k 3
  let pre := if kind = 1 then [] else s.precode n
  let s := s.emit (.symbol n (s.sfc n) (s.ln n).sym (s.dataPoints n kind w.toNat) pre)
  s.modLn n fun l => { l with txBits := l.txBits >>> k, txLen := l.txLen - k }

/-- SYMBOL_RECEIVED (R84): the mean squared decision error of each band in 0.5 dB steps, and the reverse word received. On the same
symbol this end sends one of its own. In low-power idle the symbols between the keep-alive symbols are silent (R116). -/
def execSymbolReceived (port : BitVec 4) (err : List (BitVec 8)) (word : BitVec 32) (s : State) :
    Host.Outcome State Fault Refusal :=
  let n := port.toNat
  .next (
    if !s.eocOpen n then s else
    let every := max 1 (s.get (F.PORT_PAD_CFG_ACK_EVERY n))
    let s := s.modLn n fun l => { l with
      sym := (l.sym + 1) % 256, ackGap := l.ackGap + 1, ackDue := l.ackDue || (l.cumAdv && decide (every ≤ l.ackGap + 1)) }
    if s.upIlm n && s.dataKind n = 0 then s else
    let bands := s.flagged n err
    let erased := s.symErased n err
    let s := (s.bandFlags n bands.length).takeBits n erased bands
    let s := if erased then s.eraseSym n else (s.cleanSym n err).takeWord n word
    s.sendSymbol n)

/-- ERASURE_EVENT_END (R85): the event's record goes to the herder. -/
def execErasureEventEnd (port : BitVec 4) (s : State) : Host.Outcome State Fault Refusal :=
  let n := port.toNat
  let l := s.ln n
  .next (match l.event with
    | some (sf, sy, pos, ok) =>
      if max 1 (s.get (F.PORT_IMP_CFG_CLEAN_END n)) ≤ l.clean then
        s.modLn n fun l => { l with event := none, eventLen := 0, records := l.records ++ [(sf, sy, l.eventLen, pos, ok)] }
      else s
    | none => s)

/-! ## Superframes (R41, R44, R81, R107, R116, R117, R127, R169) -/

/-- The Walsh sign of a flock position at a superframe is negative (R81). -/
def walshNeg (pos sf : Nat) : Bool :=
  match pos % 4, sf % 4 with
  | 1, 1 => true | 1, 3 => true | 2, 2 => true | 2, 3 => true | 3, 1 => true | 3, 2 => true | _, _ => false

/-- The transmitter flags the sync of `sf` (R69). -/
def State.flags (s : State) (n sf : Nat) : Bool :=
  (s.ln n).pend.any fun c => c.sf = sf && !c.rxDir && c.confirmed &&
    (c.kind = 0 || (s.ln n).pend.all fun d => !(d.sf = sf && d.kind = c.kind && d.mine = c.mine) || d.confirmed)

/-- The margins (0.01 dB) of the loaded data tones of the receive loading in force (R117). -/
def State.margins (s : State) (n : Nat) : List Int :=
  (s.loaded n true (s.prof n true) (s.activeIn n true)).map fun e =>
    toneMargin (s.get ⟨A.PORT_SNR n (e.1 / 4), 8 * (e.1 % 4), 8⟩) e.2

/-- A margin in 0.01 dB as the registers hold it: 0.25 dB steps, eight bits, signed. -/
def marginByte (m : Int) : Nat := unsigned 8 (max (-128) (min 127 (m / 25)))

/-- The measurements of a superframe as the registers show them, and the levels that run toward their limits (R117, R118,
R77). With no tone loaded both margins read 0. -/
def State.monitor (s : State) (n : Nat) (erased : Bool) (m : Mon) : State :=
  let on (t : Nat) := isDataTone (s.isV2 n) t && decide (t < 8 + s.activeIn n true)
  let s := s.each (m.snr.filter fun e => on e.1.toNat) fun t e =>
    t.put ⟨A.PORT_SNR n (e.1.toNat / 4), 8 * (e.1.toNat % 4), 8⟩ e.2.toNat
  let ms := s.margins n
  let least := ms.foldl min (ms.headD 0)
  let mean := if ms = [] then 0 else ms.sum / ms.length
  let s := ((s.put (F.PORT_MON_MARGIN_RX_MIN n) (marginByte least)).put (F.PORT_MON_MARGIN_RX_AVG n) (marginByte mean)).put
    (F.PORT_ILM_ECHO_ERLE n) m.erle.toNat
  let avg := signed 8 (marginByte mean)
  let low := decide (avg < 4 * ((s.get (F.PORT_ILM_CTRL_MARGIN_TGT n) : Int) - 3))
  let down := decide (avg < 2 * signed 8 (s.get (F.PORT_LINK_CFG_MARGIN_DOWN n))) && !erased
  let echo := decide (m.erle.toNat < 7000)
  let since (c : Bool) (o : Option Nat) : Option Nat := if c then some (o.getD s.time) else none
  s.modLn n fun l => { l with lowAt := since low l.lowAt, downAt := since down l.downAt, echoAt := since echo l.echoAt }

/-- A change that lost its superframe, announced again and computed afresh against the loading in force (R16, R66): a bit swap where
it is still allowed and in bounds, at its spacing (R72); a tone cap with the count that the slices now allow; a profile swap not
here, since the leading end announces what its zone state gives. What finds no place yet waits on. -/
def State.announceAgain (s : State) (n : Nat) (x : Change) : State :=
  let back (t : State) (from_ : Nat) (dirs : List Bool) (cap : Nat) : State :=
    if t.roomFor n x.kind (t.freeSf n x.kind from_ dirs % 2 ^ 32) dirs then t.announce n x.kind x.arg from_ dirs x.entries cap
    else t.modLn n fun l => { l with again := l.again ++ [x] }
  match x.kind with
  | 0 => if s.bitSwapOk n && s.loadingOk n x.entries then back s (s.bitSwapFrom n x.rxDir) [x.rxDir] x.cap else s
  | 2 => if x.rxDir then s else back s (s.sfc n + 4) [false, true] (min x.cap (s.toneCapAt n (s.get F.DRV_STATE_PL)))
  | _ => s

/-- Words that go out once in each superframe: unconfirmed announcements (R67), cancels (R68), lost changes announced again
(R66), and PISTE_LEAD (R169). -/
def State.superWords (s : State) (n : Nat) : State :=
  let c := s.sfc n
  let l := s.ln n
  let s := s.each l.pend fun t x =>
    if x.mine && !x.confirmed && sfAfter x.sf c then t.oweSwap n 0 x.rxDir x.kind x.arg x.sf else t
  let s := s.each l.cancels fun t x => t.modLn n fun l => { l with swapQ := l.swapQ ++ [x.1] }
  let s := s.modLn n fun l => { l with
    cancels := (l.cancels.filter fun x => decide (1 < x.2)).map (fun x => (x.1, x.2 - 1)), again := [] }
  let s := s.each l.again fun t x => t.announceAgain n x
  if (s.ln n).leadLeft ≠ 0 || (s.takesPart n && c % 256 = 0) then
    (s.modLn n fun l => { l with leadLeft := l.leadLeft - 1 }).sendLead n
  else s

/-- Low-power idle at a superframe's start (R116): it begins at the named S where both ends hold it. -/
def State.lpiStep (s : State) (n : Nat) : State :=
  let l := s.ln n
  let s := s.modLn n fun l => { l with idle := if l.busy then 0 else l.idle + 1, busy := false }
  if l.lpiOut then (s.put (F.PORT_LINK_STATUS_LPI n) 0).modLn n fun l => { l with lpiOut := false, idle := 0 }
  else match l.lpiAt with
    | some sf =>
      if sf = s.sfc n then
        let s := s.modLn n fun l => { l with lpiAt := none, lpiConf := false }
        if l.lpiConf then (s.put (F.PORT_LINK_STATUS_LPI n) 1).count (F.PORT_LPI_ENTRIES_COUNT n) 1 else s
      else s
    | none => s

/-- The port sends a warm call, or a stored master's sync symbols, while it is held for a warm restart (R104); against an XS404 it
waits for the partner's (chapter 4, Interworking). -/
def State.calls (s : State) (n : Nat) : Bool := decide (s.an n = 4) && (s.ln n).stored.any fun d => decide (d.mode ≠ 6)
/-- The slave is silent in phase 1 until it has adopted the master's count (Table 4-2). -/
def State.silentSlave (s : State) (n : Nat) : Bool :=
  decide (s.an n = 3) && decide (s.get (F.PORT_LINK_STATUS_PHASE n) = 1) && s.flag (F.PORT_ILM_STATE_TIMING_SLAVE n) && !(s.ln n).locked

/-- The sync symbol that the port sends: its Walsh sign, and its flag, which a stored slave's warm call sets (R44, R81, R104). -/
def State.sendSync (s : State) (n : Nat) : State :=
  let c := s.sfc n
  let neg := !s.isV2 n && walshNeg (n % 4) c
  let flagged := s.flags n c || (s.calls n && (s.ln n).stored.any (·.slave))
  if s.silentSlave n then s
  else (s.emit (.sync n c neg flagged)).emit (.symbol n c 0 (s.syncPoints n neg flagged) [])

/-- The master hears the slave's first sync symbol in phase 1: where it comes later than 3 ms, training starts 3 ms before it (R98). -/
def State.hearSlave (s : State) (n : Nat) (erased : Bool) : State :=
  let l := s.ln n
  if s.an n = 3 && s.get (F.PORT_LINK_STATUS_PHASE n) = 1 && !l.slave && !l.locked && !erased then
    s.modLn n fun l => { l with locked := true, trainAt := max l.trainAt (s.time - 3000000) }
  else s

/-- In phase 1 the master tells its count (Table 4-5, TRAIN_SYNC). -/
def State.tellCount (s : State) (n : Nat) : State :=
  if s.an n = 3 && s.get (F.PORT_LINK_STATUS_PHASE n) = 1 && !(s.ln n).slave then s.sendEoc n 0x10 (leBytes (s.sfc n) 4) else s

/-- The count advances at the sync symbol, which is sent with its probe sign and its flag (R41, R44, R81). -/
def State.superTick (s : State) (n : Nat) (erased : Bool) : State :=
  let c := (s.sfc n + 1) % 4294967296
  let s := (s.put (F.PORT_ILM_SFC_COUNT n) c).modLn n fun l =>
    { l with sym := 0, ackDue := true, lastSync := if erased then l.lastSync else s.time, loopAt := if erased then l.loopAt else 256 * c }
  let s := (s.cenPort n 0x0C 1).cenPort n 0x0D (b2n (s.swapped n))
  let s := ((s.sendSync n).hearSlave n erased).tellCount n
  match (s.ln n).resolve with
  | some r => if sfAfter c r.sf then s.revert n r else s
  | none => s

/-- The tones that a superframe's VEC_ERROR reports on (R81): active data tones t with t mod 64 = r, where r moves on by one every four
superframes. -/
def State.probed (s : State) (n sf : Nat) : List Nat :=
  (s.tones n true).filter fun t => isDataTone (s.isV2 n) t && decide (t % 64 = sf / 4 % 64)

/-- A precoder sweep completed, counted once for its group, the start of a join sweep (R82), and this superframe's VEC_ERROR (R81):
an I and a Q byte for each tone reported, and zeros after them. -/
def State.vecStep (s : State) (n : Nat) (mon : Mon) : State :=
  let k := n / 4
  let c := s.sfc n
  let st := s.get (F.PORT_ILM_STATE_VEC_STATE n)
  let s := if c % 256 = 0 && (maskList (s.get (F.FLOCK_VEC_STATE_ACTIVE k)) 4).head? = some (n % 4) then
      s.count (F.FLOCK_VEC_SWEEPS_COUNT k) 1 else s
  let s := if st = 1 && (s.ln n).joinAt = none && c % 4 = 0 then s.modLn n fun l => { l with joinAt := some c } else s
  if st ≠ 0 then
    let m := min 64 (s.probed n c).length
    s.sendEoc n 0x24 (leBytes c 2 ++ slice (mon.vec.take (2 * m)) 0 128)
  else s

/-- STATUS, once every 256 superframes of service (R107). -/
def State.statusStep (s : State) (n : Nat) : State :=
  if s.upIlm n && s.sfc n % 256 = 0 then
    (s.sendEoc n 0x14 ([BitVec.ofNat 8 (s.get (F.PORT_MON_MARGIN_RX_MIN n)), BitVec.ofNat 8 (s.get (F.PORT_MON_MARGIN_RX_AVG n))] ++
      leBytes (s.ln n).lostLots 4)).modLn n fun l => { l with lostLots := 0 }
  else s

/-- SUPERFRAME_BOUNDARY (R41): the count advances at the sync symbol and the periodic work of a superframe is done. `erased`: no sync
symbol was received, or it was erased. Members that leave their group leave it here (R83). -/
def execSuperframeBoundary (port : BitVec 4) (erased : Bool) (mon : Mon) (s : State) : Host.Outcome State Fault Refusal :=
  let n := port.toNat
  let s := s.leaveNow (n / 4)
  .next (if s.eocOpen n then
      (((((s.superTick n erased).vecStep n mon).monitor n erased mon).superWords n).lpiStep n).statusStep n
    else if s.calls n then s.superTick n erased
    else s)

/-! ## SWAP words (R65 to R70) -/

/-- The changes that a SWAP word from the partner names, with the superframe that its SF stands for: DIR 0 is the direction the
partner transmits. -/
def Change.named (x : Change) (dir : Bool) (kind sf : Nat) : Bool := x.kind = kind && x.sf = sf && x.rxDir = !dir

/-- Cancel a change this end announced: CANCEL words in three consecutive superframes (R68). -/
def State.cancelChange (s : State) (n : Nat) (x : Change) : State :=
  let words := ((s.ln n).pend.filter fun y => y.mine && decide (y.kind = x.kind) && decide (y.sf = x.sf)).map fun y =>
    swapPayload 3 y.rxDir y.kind y.arg y.sf
  let s := s.dropChanges n fun y => y.mine && decide (y.kind = x.kind) && decide (y.sf = x.sf)
  s.modLn n fun l => { l with swapQ := l.swapQ ++ words, cancels := l.cancels ++ words.map fun w => (w, 2) }

/-- A tone cap to `a` tones would take a direction's loading past B_cap (R66). -/
def State.capOver (s : State) (n a : Nat) : Bool :=
  let a := min a (s.toneCapAt n (s.get F.DRV_STATE_PL))
  [false, true].any fun rx => decide (s.bCap n < s.sumBits n rx (s.prof n rx) a)

/-- What the confirming end answers to a new announcement (R66, R67, R73, R75, R170): 0 nothing, 1 CONFIRM, 2 REJECT. A late one gets
no answer, whatever else speaks against it. A bit swap with DIR 1, a direction that its sender does not transmit, is rejected (DESIGN
CHOICE; see log entry 116). -/
def State.answer (s : State) (n : Nat) (rx : Bool) (kind arg sf : Nat) : Nat :=
  let here := s.pendDir n rx
  let withdrawn (x : Change) := decide (kind = 1) && decide (x.kind = 1) && x.mine && !x.confirmed
  if kind = 3 || !(sfAfter sf ((s.sfc n + 1) % 2 ^ 32)) then 0
  else if kind = 1 && (s.isV2 n || (s.leads n && !s.flag (F.PORT_ILM_STATE_TIMING_SLAVE n)) || !s.takesPart n) then 2
  else if kind = 0 && (!rx || ((s.ln n).updSent.all fun u => u.1 % 4 ≠ arg) ||
      ((s.ln n).updSent.any fun u => s.overCap n true u.2)) then 2
  else if kind = 2 && (s.ln n).capRcvd.any (s.capOver n) then 2
  else if 4 ≤ (here.filter fun x => !withdrawn x).length && s.losers n kind sf [rx] = [] then 2
  else if kind = 2 && (s.ln n).capRcvd = none then 0
  else if here.any fun x => x.sf = sf && changeRank kind ≤ changeRank x.kind && !withdrawn x then 0
  else 1

/-- SWAP_ANNOUNCE (R67). A timing slave that leads and gets a profile swap from its partner withdraws its own and gives up leading
(R170). -/
def execSwapAnnounce (port : BitVec 4) (dir : Bool) (kind arg : BitVec 2) (sf : BitVec 16) (s : State) :
    Host.Outcome State Fault Refusal :=
  let n := port.toNat
  let rx := !dir
  let k := kind.toNat
  .next (match sfOf (s.sfc n) sf.toNat with
    | none => s
    | some f =>
      if !s.upIlm n then s else
      let reply (t : State) (op : Nat) := t.oweSwap n op rx k arg.toNat f
      if (s.ln n).pend.any fun x => x.named dir k f && !x.mine && x.confirmed then reply s 1
      else match s.answer n rx k arg.toNat f with
        | 0 => s
        | 2 => reply s 2
        | _ =>
          let s := if k = 1 && s.leads n then
              let mine := (s.ln n).pend.filter fun x => x.mine && x.kind = 1 && !x.confirmed
              ((s.each mine fun t x => t.cancelChange n x).modLn n fun l => { l with leadOff := true }).leadCheck n
            else s
          let s := s.displace n (s.losers n k f [rx])
          let es := if k = 1 then s.newBands n rx arg.toNat else if k = 0 then ((s.ln n).updSent.map (·.2)).getD [] else []
          let cap := ((s.ln n).capRcvd).getD 0
          let c : Change := { kind := k, sf := f, arg := arg.toNat, rxDir := rx, confirmed := true, entries := es, cap := cap }
          reply (s.modPend n fun p => p ++ [c]) 1)

/-- SWAP_CONFIRM (R67): the announcing end stops repeating and holds the change as confirmed. A stale word is discarded (R65). -/
def execSwapConfirm (port : BitVec 4) (dir : Bool) (kind _arg : BitVec 2) (sf : BitVec 16) (s : State) :
    Host.Outcome State Fault Refusal :=
  let n := port.toNat
  .next (match s.upIlm n, sfOf (s.sfc n) sf.toNat with
    | true, some f => s.modPend n fun p => p.map fun x => if x.mine && x.named dir kind.toNat f then { x with confirmed := true } else x
    | _, _ => s)

/-- SWAP_REJECT (R66): the announced change ends. -/
def execSwapReject (port : BitVec 4) (dir : Bool) (kind _arg : BitVec 2) (sf : BitVec 16) (s : State) :
    Host.Outcome State Fault Refusal :=
  let n := port.toNat
  .next (match s.upIlm n, sfOf (s.sfc n) sf.toNat with
    | true, some f => s.dropChanges n fun x => x.mine && x.named dir kind.toNat f
    | _, _ => s)

/-- SWAP_CANCEL (R68): the pending change is dropped, both words of a two-word change. -/
def execSwapCancel (port : BitVec 4) (dir : Bool) (kind _arg : BitVec 2) (sf : BitVec 16) (s : State) :
    Host.Outcome State Fault Refusal :=
  let n := port.toNat
  .next (match s.upIlm n, sfOf (s.sfc n) sf.toNat with
    | true, some f =>
      if (s.ln n).pend.any fun x => !x.mine && x.named dir kind.toNat f then
        let s := (s.dropChanges n fun x => !x.mine && x.named dir kind.toNat f).count (F.PORT_ILM_SWAP_FAIL_COUNT n) 1
        if kind.toNat = 2 then s.modLn n fun l => { l with capRcvd := none } else s
      else s
    | _, _ => s)

/-- SWAP_CONFIRM_DEADLINE (R68): at symbol 128 of S - 1 an unconfirmed change is cancelled. -/
def execSwapConfirmDeadline (port : BitVec 4) (s : State) : Host.Outcome State Fault Refusal :=
  let n := port.toNat
  let late := (s.ln n).pend.filter fun x => x.mine && !x.confirmed && decide (x.sf = (s.sfc n + 1) % 2 ^ 32)
  .next (if s.upIlm n && late ≠ [] then
      let s := s.each late fun t x =>
        if (t.ln n).pend.contains x then ((t.cancelChange n x).count (F.PORT_ILM_SWAP_FAIL_COUNT n) 1) else t
      s.raise (Ev.portSwapFail n)
    else s)

/-- LOADING_CHANGE_AT_S (R69, R70): the changes due at this superframe. The received sync is erased, or flagged or normal by the
points received on its 20 pilot and ack tones (R44). -/
def execLoadingChangeAtS (port : BitVec 4) (erased : Bool) (pts : List (BitVec 16 × BitVec 16)) (s : State) :
    Host.Outcome State Fault Refusal :=
  let n := port.toNat
  let c := s.sfc n
  let due (rx : Bool) := (s.pendDir n rx).filter fun x => x.sf = c
  let snaps := ((due true).filter (·.confirmed)).map (s.snapshot n)
  .next (
    if !s.upIlm n then s else
    let s := if s.flags n c then s.each (due false) fun t x => t.applyChange n x else s
    let fail (t : State) := t.count (F.PORT_ILM_SWAP_FAIL_COUNT n) 1
    let s :=
      if erased then
        let s := s.each ((due true).filter (·.confirmed)) fun t x => t.applyChange n x
        match snaps.getLast? with
        | some r => s.modLn n fun l => { l with resolve := some r }
        | none => s
      else match due true, syncFlagged pts with
        | [], true => fail s
        | [], false => s
        | xs, true => s.each xs fun t x => t.applyChange n x
        | _, false => (fail s).raise (Ev.portSwapFail n)
    s.modPend n fun p => p.filter fun x => x.sf ≠ c)

/-- BIT_SWAP_REQUEST (R72): the receiver of a direction asks for new Normal entries on the tones it chooses, at most 512, which R47
gives from the SNR measured. -/
def execBitSwapRequest (port : BitVec 4) (tones : List (BitVec 12)) (s : State) : Host.Outcome State Fault Refusal :=
  let n := port.toNat
  let es := (((s.decideNormal n (s.snrNow n)).filter fun e => (tones.map BitVec.toNat).contains (e % 4096) &&
    decide (s.get (toneFld n true 0 (e % 4096)) ≠ bits e 12 4 + 16 * bits e 16 6))).take 512
  .next (
    if !(s.upIlm n && s.herderRuns && s.flag (F.PORT_ILM_CTRL_BITSWAP_EN n) && s.bitSwapOk n && es ≠ [] && !s.overCap n true es) then s else
    let id := (s.ln n).updNext
    let s := (s.modLn n fun l => { l with updSent := some (id, es), updNext := (id + 1) % 0xF0 }).cenHerd 0x04 1
    s.sendEoc n 0x21 ([BitVec.ofNat 8 id] ++ leBytes es.length 2 ++ es.flatMap fun e => leBytes e 4))

/-- PROFILE_SWAP_ANNOUNCE (R171, R74): the leading end announces a swap into the zone profile, or into FORCE_PROF, where either
direction is not in it. -/
def execProfileSwapAnnounce (port : BitVec 4) (s : State) : Host.Outcome State Fault Refusal :=
  let n := port.toNat
  let force := s.flag (F.PORT_ILM_CTRL_FORCE_EN n)
  let want := if force then s.get (F.PORT_ILM_CTRL_FORCE_PROF n) else s.get (F.PISTE_PORT_ZONE_PROF n)
  .next (
    if s.leads n && s.upIlm n && (decide (want ≠ s.prof n false) || decide (want ≠ s.prof n true)) &&
        !(s.ln n).pend.any (fun x => x.kind = 1) then
      s.announce n 1 want (s.sfc n + if force then 64 else 4) [false, true] [] 0
    else s)

/-- TONE_CAP_ANNOUNCE (R75): once the partner has acknowledged CAP_UPDATE, its count is announced for both directions. While four
changes are pending it waits. -/
def execToneCapAnnounce (port : BitVec 4) (s : State) : Host.Outcome State Fault Refusal :=
  let n := port.toNat
  .next (match (s.ln n).capSent with
    | some (a, true) =>
      if s.upIlm n && s.roomFor n 2 (s.freeSf n 2 (s.sfc n + 4) [false, true] % 2 ^ 32) [false, true] then
        (s.announce n 2 0 (s.sfc n + 4) [false, true] [] a).modLn n fun l => { l with capSent := none }
      else s
    | _ => s)

/-! ## Messages of service (Tables 3-8, 4-5, 6-3) -/

/-- STATUS (R117): the partner's margins. -/
def execStatus (port : BitVec 4) (rxMin rxAvg : BitVec 8) (_lost : BitVec 32) (s : State) : Host.Outcome State Fault Refusal :=
  let n := port.toNat
  .next (if s.upIlm n then (s.put (F.PORT_MON_MARGIN_FE_MIN n) rxMin.toNat).put (F.PORT_MON_MARGIN_FE_AVG n) rxAvg.toNat else s)

/-- LPI_ENTER (R116): low-power idle from the named S, unless a zone is armed here. -/
def execLpiEnter (port : BitVec 4) (seq : BitVec 8) (sf : BitVec 32) (s : State) : Host.Outcome State Fault Refusal :=
  let n := port.toNat
  if s.zoneArmed n then .next s
  else .next (s.eocDo n 0x15 seq.toNat fun t =>
    if t.upIlm n && (t.ln n).lpi && sfAfter sf.toNat (t.sfc n) then t.modLn n fun l => { l with lpiAt := some sf.toNat, lpiConf := true }
    else t)

/-- LPI_WAKE (R116): full data symbols again from the next superframe. -/
def execLpiWake (port : BitVec 4) (s : State) : Host.Outcome State Fault Refusal :=
  let n := port.toNat
  .next (if s.upIlm n && (s.flag (F.PORT_LINK_STATUS_LPI n) || (s.ln n).lpiAt.isSome) then
      s.modLn n fun l => { l with lpiOut := s.flag (F.PORT_LINK_STATUS_LPI n), lpiAt := none, lpiConf := false }
    else s)

/-- LPI_IDLE_TIMEOUT (R116): the timing master sends LPI_ENTER, unless its paddock or an armed zone holds it back (R138). -/
def execLpiIdleTimeout (port : BitVec 4) (s : State) : Host.Outcome State Fault Refusal :=
  let n := port.toNat
  let l := s.ln n
  let p := s.pd n
  let idle := max 1 (s.get (F.PORT_LINK_CFG_LPI_IDLE n)) * 16
  let sf := (s.sfc n + 4) % 2 ^ 32
  .next (
    if s.upIlm n && l.lpi && !s.flag (F.PORT_ILM_STATE_TIMING_SLAVE n) && !s.flag (F.PORT_LINK_STATUS_LPI n) &&
        l.lpiAt = none && decide (idle ≤ l.idle) && !s.zoneArmed n &&
        p.tx = [] && p.staged = [] && p.hostStage = [] && !s.padGap n then
      (s.sendEoc n 0x15 (leBytes sf 4)).modLn n fun l => { l with lpiAt := some sf, lpiConf := false }
    else s)

/-- LEGACY_LPI_IDLE (R115): a legacy line enters low-power idle, in the modes whose clause has it. -/
def execLegacyLpiIdle (port : BitVec 4) (s : State) : Host.Outcome State Fault Refusal :=
  let n := port.toNat
  .next (if s.upLegacy n && decide (2 ≤ s.mode n) && (s.pd n).toLine = [] && !s.flag (F.PORT_LINK_STATUS_LPI n) then
      (s.put (F.PORT_LINK_STATUS_LPI n) 1).count (F.PORT_LPI_ENTRIES_COUNT n) 1
    else s)

/-- RATE_CAP (R46). -/
def execRateCap (port : BitVec 4) (seq : BitVec 8) (cap : BitVec 16) (s : State) : Host.Outcome State Fault Refusal :=
  let n := port.toNat
  .next (s.eocDo n 0x17 seq.toNat fun t => t.modLn n fun l => { l with rateCap := cap.toNat })

/-- LOADING_UPDATE (R72): in service the transmitter checks the entries and announces the bit swap; in phase 7 of training
the eight messages 0xF0 to 0xF7 carry the Normal table (Table 4-2). DESIGN CHOICE: the check and the announcement are no bit swap
decision (the receiver has made that), so they do not wait for the herder (R15); a message that breaks the limits of R46 is not taken
in training either; see log entry 116. -/
def execLoadingUpdate (port : BitVec 4) (seq id : BitVec 8) (entries : List (BitVec 32)) (s : State) :
    Host.Outcome State Fault Refusal :=
  let n := port.toNat
  let es := entries.map BitVec.toNat
  .next (s.eocDo n 0x21 seq.toNat fun t =>
    if t.upIlm n then
      if t.bitSwapOk n && es ≠ [] && decide (es.length ≤ 512) && t.loadingOk n es then
        (t.modLn n fun l => { l with updRcvd := some (id.toNat, es) }).announce n 0 (id.toNat % 4) (t.bitSwapFrom n false) [false] es 0
      else t
    else if t.get (F.PORT_LINK_STATUS_PHASE n) = 7 && decide (0xF0 ≤ id.toNat) && decide (id.toNat ≤ 0xF7) then
      if t.loadingOk n es then t.each es fun u e => u.setEntry n false e else t
    else t)

/-- CAP_UPDATE (R75). -/
def execCapUpdate (port : BitVec 4) (seq : BitVec 8) (count : BitVec 16) (s : State) : Host.Outcome State Fault Refusal :=
  let n := port.toNat
  .next (s.eocDo n 0x22 seq.toNat fun t => t.modLn n fun l => { l with capRcvd := some (max 1 (min 4084 count.toNat)) })

/-- The eight words of a Custom definition put in their place among sixteen. -/
def withBands (d : List Nat) (b : Bool) (ws : List Nat) : List Nat :=
  let d := (d ++ List.replicate 16 0).take 16
  if b then d.take 8 ++ ws else ws ++ d.drop 8

/-- CUSTOM_DEF (R50): the definitions of the partner, which receives what this end transmits. -/
def execCustomDef (port : BitVec 4) (seq : BitVec 8) (which : Bool) (bands : List (BitVec 32)) (s : State) :
    Host.Outcome State Fault Refusal :=
  let n := port.toNat
  let ws := ((bands.map BitVec.toNat) ++ List.replicate 8 0).take 8
  .next (s.eocDo n 0x23 seq.toNat fun t => t.modLn n fun l => { l with custPart := withBands l.custPart which ws })

/-- The precoder has a superframe's report (R81): once it has those of a run of four superframes, it separates the members'
contributions and updates the coefficients of the tones that the run probed. -/
def State.fextReport (s : State) (n sf : Nat) : State :=
  let run := (((s.ln n).vecRun.filter fun x => decide (x / 4 = sf / 4)) ++ [sf]).eraseDups
  if run.length < 4 then s.modLn n fun l => { l with vecRun := run }
  else s.modLn n fun l => { l with
    vecRun := [], fextAt := ((l.fextAt ++ List.replicate (64 - l.fextAt.length) 0).set (sf / 4 % 64) (sf + 1)) }

/-- VEC_ERROR (R81): the errors that the partner measured on the sync tones of a superframe, for the precoder. -/
def execVecError (port : BitVec 4) (sf : BitVec 16) (_errors : Bytes) (s : State) : Host.Outcome State Fault Refusal :=
  let n := port.toNat
  .next (s.eocDo n 0x24 0 fun t => if t.get (F.PORT_ILM_STATE_VEC_STATE n) ≠ 0 then t.fextReport n sf.toNat else t)

/-- PISTE_LEAD (R169): the partner's claim, and which end leads. -/
def execPisteLead (port : BitVec 4) (claim _fixValid _stopped : Bool) (_route : BitVec 32) (_pos : BitVec 40) (_speed : BitVec 16)
    (s : State) : Host.Outcome State Fault Refusal :=
  let n := port.toNat
  .next (
    if !s.takesPart n then s else
    let s := ((s.put (F.PISTE_PORT_PARTNER_CLAIM n) (b2n claim)).modLn n fun l =>
      { l with leadSeen := true, leadOff := false }).leadCheck n
    if claim && s.flag (F.PISTE_PORT_CLAIM n) then s.raise (Ev.portLeadConflict n) else s)

/-- MARGIN_LOW_TIMEOUT (R117). -/
def execMarginLowTimeout (port : BitVec 4) (s : State) : Host.Outcome State Fault Refusal :=
  let n := port.toNat
  .next (match (s.ln n).lowAt with
    | some t => if s.upIlm n then (s.timeTo (t + 1000000000)).raise (Ev.portMarginLow n) else s
    | none => s)

/-- ECHO_LOW_TIMEOUT (R77). -/
def execEchoLowTimeout (port : BitVec 4) (s : State) : Host.Outcome State Fault Refusal :=
  let n := port.toNat
  .next (match (s.ln n).echoAt with
    | some t => if s.upIlm n then (s.timeTo (t + 1000000000)).raise (Ev.portEchoLow n) else s
    | none => s)

/-- MSG_ACK (R107): a message is acknowledged, and what its acknowledgement allows is noted. -/
def execMsgAck (port : BitVec 4) (acked typ : BitVec 8) (s : State) : Host.Outcome State Fault Refusal :=
  let n := port.toNat
  .next (match (s.ln n).unacked.find? fun u => u.msg.seq = acked.toNat && u.msg.typ = typ.toNat with
    | none => s
    | some u =>
      if !s.eocOpen n then s else
      let s := s.modLn n fun l => { l with unacked := l.unacked.filter fun v => v.msg.seq ≠ acked.toNat }
      let s : State := match typ.toNat with
        | 0x22 => if ((s.ln n).unacked.any fun v => v.msg.typ = 0x22) || (s.ln n).waiting.any (fun m => m.typ = 0x22) then s
          else s.modLn n fun l => { l with capSent := l.capSent.map fun c => (c.1, true) }
        | 0x15 => s.modLn n fun l => { l with lpiConf := l.lpiAt.isSome }
        | 0x23 => s.modLn n fun l => { l with
            custAck := withBands l.custAck (decide (u8 u.msg.body 0 ≠ 0)) ((List.range 8).map fun i => uLe u.msg.body (1 + 4 * i) 4) }
        | 0x41 => s.modPd n fun p => { p with resumeAcked := true }
        | _ => s
      s.sendWaiting n 8)

/-- EOC_RESERVED_MSG (R107): acknowledged, unless NOACK, and discarded. -/
def execEocReservedMsg (port : BitVec 4) (typ seq : BitVec 8) (noack : Bool) (s : State) : Host.Outcome State Fault Refusal :=
  .next (if noack then s else (s.eocIn port.toNat typ.toNat seq.toNat).1)

end Sys2Proof.Machine
end

