-- ==== Sys2Proof/Machine/Link.lean ====
section
/-!
DEFINITION. How a link comes up and goes down (chapter 4): vector groups, negotiation, training, service, warm restart,
link-down, drains.
-/
namespace Sys2Proof.Machine

/-! ## The partner's identity, and joining a group (R97, R108, R111) -/

/-- The part and serial that a partner's IDENT body names. -/
def identPart (b : Bytes) : Nat := uLe b 0 2
@[inherit_doc identPart] def identStep (b : Bytes) : Nat := u8 b 2
@[inherit_doc identPart] def identPort (b : Bytes) : Nat := u8 b 3
@[inherit_doc identPart] def identSerial (b : Bytes) : Nat := uLe b 4 8
@[inherit_doc identPart] def identKey (b : Bytes) : Bytes := slice b 12 64
@[inherit_doc identPart] def identNonce (b : Bytes) : Bytes := slice b 76 16
@[inherit_doc identPart] def identSpan (b : Bytes) : Nat := uLe b 92 2

/-- The port may join its group: in VEC_MASK, not long span, the partner sets VECTOR, and its IDENT names the same device and flock as
the partners of the active members (R97, R101, R111). -/
def State.mayJoin (s : State) (n : Nat) : Bool :=
  let b := (s.ln n).ident
  s.inVec n && decide ((s.ln n).target ≠ 8) && (s.ln n).ability.testBit 26 && (s.vecIn (n / 4) 2).all fun p =>
    let o := (s.ln (4 * (n / 4) + p)).ident
    decide (identSerial o = identSerial b) && decide (identPort o / 4 = identPort b / 4)

/-! ## The host lane of a port that is down (R118, R302) -/

/-- Local Fault on the port's host lane transmit, which takes precedence over Remote Fault. -/
def State.laneFault (s : State) (n : Nat) (on : Bool) : State :=
  match s.laneOf n with
  | none => s
  | some m =>
    let rf := !on && !s.flag (F.HL_STATUS_LOCKED m) && s.flag (F.HL_CFG_RF_ON_LOSS m)
    ((s.put (F.HL_STATUS_LF_SENDING m) (b2n on)).put (F.HL_STATUS_RF_SENDING m) (b2n rf)).modHl m fun l => { l with fault := on }

/-! ## Starting negotiation (R92, R96, R97, R113) -/

/-- The herder can start trainings and links: it runs, the core does not run from clock hold, no boundary scan drives the pins,
and no structural apply, power state entry or return from Pen before its step 7 holds the ports (R15, R352, R391, R328, Tables
2-14 and 12-5). -/
def State.starts (s : State) : Bool :=
  s.herderRuns && s.coreOn && decide (s.get F.CLK_STATUS_STATE = 0) && !s.clk.scan && !(decide (3 ≤ s.apply.stage) && decide (s.apply.stage ≤ 7)) &&
    decide (s.pwr.entry = 0) && (decide (s.pwr.begun = []) || s.pwr.begun.any fun e => decide (e.1 = 7))

/-- A port's negotiation or training failed, or it found no partner (R37). -/
def State.noteTried (s : State) (n : Nat) : State := s.withApply { s.apply with tried := s.apply.tried ||| (1 <<< n) }

/-- Modes that the port offers: the fold's, and in ADV_MASK. -/
def State.offered (s : State) (n : Nat) : Nat := s.pModes n &&& s.get (F.PORT_AN_CTRL_ADV_MASK n)

/-- Keep or discard stored state. -/
def State.dropStored (s : State) (n : Nat) : State := s.modLn n fun l => { l with stored := none, holdEnd := none }

/-- The port can restart warm: it holds stored state and WARM_EN is 1 (R104). A v2 link does not come up with REQUIRE_AUTH set (R112). -/
def State.hasStored (s : State) (n : Nat) : Bool :=
  ((s.ln n).stored.any fun d => !(decide (d.mode = 6) && s.flag (F.PORT_LINK_CFG_REQUIRE_AUTH n))) && s.flag (F.PORT_MODE_WARM_EN n)

/-- The members of the port's group that are up or joining. -/
def State.groupRuns (s : State) (n : Nat) : List Nat := (s.vecIn (n / 4) 1 ++ s.vecIn (n / 4) 2).map (4 * (n / 4) + ·)

/-- The ROLE that the port advertises: 0 auto, 1 master, 2 slave (R96, R97). -/
def State.ownRole (s : State) (n : Nat) : Nat :=
  let pref (p : Nat) := let r := s.get (F.PORT_AN_CTRL_ROLE_PREF p); if r = 3 then 0 else r
  if !s.inVec n then pref n else
  match s.groupRuns n with
  | p :: _ => if s.flag (F.PORT_ILM_STATE_TIMING_SLAVE p) then 2 else 1
  | [] =>
    match (List.range 4).find? fun p => (s.vecMask (n / 4)).testBit p && s.flag (F.PORT_MODE_ENABLE (4 * (n / 4) + p)) with
    | some p => pref (4 * (n / 4) + p)
    | none => pref n

/-- The highest ILM version that the port offers (R95, Table 4-1); 0 for none. -/
def State.ownVer (s : State) (n : Nat) : Nat :=
  if s.flag (F.PORT_AN_STATUS_ILM_SUPPRESSED n) then 0
  else if (s.offered n).testBit 6 then 3 else if (s.offered n).testBit 5 then 2 else 0

/-- This end's ability word (Table 4-1). -/
def State.ownAbility (s : State) (n : Nat) : Nat :=
  let m (b : Nat) := b2n ((s.pModes n).testBit b)
  s.ownVer n * 2 ^ 28 + m 9 * 2 ^ 27 + b2n (s.inVec n) * 2 ^ 26 + m 7 * 2 ^ 25 + m 8 * 2 ^ 24 +
    s.get (F.PORT_AN_CTRL_LPI_ADV n) * 2 ^ 23 + b2n (decide (s.ownVer n = 3)) * 2 ^ 22 + s.ownRole n * 2 ^ 20 + n % 4 * 2 ^ 16 +
    (s.ln n).seed % 65536

/-- The pages of this end's negotiation: the IEEE modes offered, the master-slave configuration of the advertised ROLE, and where ILM
is offered the message page with Melkel's OUI and type 0x01 and the page with the ability word (R92, R93, R96). -/
def State.sendPages (s : State) (n : Nat) : State :=
  let role := s.ownRole n
  s.emit (.anPages n (s.offered n % 32) (if role = 0 then none else some (decide (role = 2)))
    (if s.ownVer n = 0 then none else some (s.get F.DEV_OUI_OUI + 2 ^ 24, s.ownAbility n)))

/-- Draw a role seed for the port, or one for all members of its vector group; a member that negotiates already sends its pages afresh
(R96, R97). -/
def State.drawSeed (s : State) (n : Nat) : State :=
  let v := s.freeNow.toNat % 65536
  let who := if s.inVec n then s.vecPorts (n / 4) else [n]
  (s.drawn 1).each who fun t p =>
    let t := t.modLn p fun l => { l with seed := v }
    if p ≠ n && t.an p = 1 then t.sendPages p else t

/-- The port begins to negotiate, or to run its forced mode in the role of FORCE_SLAVE; a port without a mode, or not enabled, stays
idle. -/
def State.startAn (s : State) (n : Nat) : State :=
  let s := s.put (F.PORT_LINK_STATUS_PHASE n) 0
  let s := s.modLn n fun l => { l with tokenAt := none, target := 0, service := none, streaming := false, holdEnd := none }
  let idle (t : State) := t.put (F.PORT_AN_STATUS_STATE n) 0
  if !s.flag (F.PORT_MODE_ENABLE n) || s.pModes n = 0 || n ≥ s.nPorts then idle s
  else if !s.starts then (idle s).modLn n fun l => { l with owed := true }
  else
    let s := s.modLn n fun l => { l with owed := false }
    if s.flag (F.PORT_MODE_AN_EN n) then
      let s := if s.inVec n && (s.vecPorts (n / 4)).all fun p => decide ((s.ln p).seed ≠ 0) then s else s.drawSeed n
      ((s.put (F.PORT_AN_STATUS_STATE n) 1).modLn n fun l =>
        { l with anDone := s.time, anSince := l.anSince.map fun _ => s.time }).sendPages n
    else
      let m := s.get (F.PORT_MODE_FORCE_MODE n)
      if m ≤ 4 && (s.pModes n).testBit m then
        (s.put (F.PORT_AN_STATUS_STATE n) 7).modLn n fun l => { l with target := m + 1, slave := s.flag (F.PORT_MODE_FORCE_SLAVE n) }
      else (idle s).put (F.PORT_AN_STATUS_LAST_FAIL n) 2

/-- Flush kept paddocks (R135). -/
def State.flushKept (s : State) (n : Nat) : State :=
  if s.flag (F.PORT_PAD_STATE_KEPT n) then s.flushPad n else s

/-- The port falls to negotiation: kept paddocks are flushed (R135). -/
def State.fallToAn (s : State) (n : Nat) : State := ((s.flushKept n).startAn n).fillCheck n

/-! ## Training fails (Table 4-2, R95, R103) -/

/-- The port's training or restart ends without a link. -/
def State.stopTraining (s : State) (n : Nat) : State :=
  (((s.leaveGroup n).freeSlices n).put (F.PORT_LINK_STATUS_PHASE n) 0).modLn n fun l =>
    { l with service := none, warmChecked := false, tokenAt := none }

/-- Training fails with a code of Table 4-11, and the port returns to negotiation, or to a Traverse search after SPAN where
the partner and the fold allow it (R95, R198). -/
def State.trainFail (s : State) (n code : Nat) : State :=
  let toTrv := decide (code = 5) && (s.ln n).ability.testBit 24 && (s.pModes n).testBit 8
  let s := (((s.noteTried n).stopTraining n).put (F.PORT_AN_STATUS_LAST_FAIL n) code).count (F.PORT_TRAIN_FAILS_COUNT n) 1
  if toTrv then
    (s.put (F.PORT_AN_STATUS_STATE n) 2).modLn n fun l => { l with target := 9, tokenAt := some s.time }
  else
    let k := (s.ln n).fails + 1
    let s := s.modLn n fun l => { l with fails := k }
    let s := if 2 ≤ k then (s.put (F.PORT_AN_STATUS_ILM_SUPPRESSED n) 1).modLn n fun l => { l with suppressAt := s.time, fails := 0 } else s
    s.startAn n

/-- Training, a wait for a token or a warm restart is abandoned (R103). -/
def State.abortTraining (s : State) (n : Nat) : State :=
  if s.an n = 2 || s.an n = 3 || s.an n = 5 then
    (((s.stopTraining n).put (F.PORT_AN_STATUS_LAST_FAIL n) (if s.an n = 3 then 0xA else s.get (F.PORT_AN_STATUS_LAST_FAIL n))).put
      (F.PORT_AN_STATUS_STATE n) 0).fillCheck n
  else s

/-- LINK_DOWN goes out before the port silences, on purpose, a pair whose channel is open (R107). -/
def State.sayDown (s : State) (n cause : Nat) (warm : Bool) : State := if s.eocOpen n then s.emit (.notice n cause warm) else s

/-- ILM is offered again (R95). -/
def State.offerIlm (s : State) (n : Nat) : State :=
  (s.put (F.PORT_AN_STATUS_ILM_SUPPRESSED n) 0).modLn n fun l => { l with fails := 0 }

/-! ## Link-down (R118, R134, Tables 4-7 and 5-3) -/

/-- Table 5-3 flushes the paddocks at once for this cause. -/
def flushNow (cause : Nat) : Bool := [4, 5, 8, 0xB].contains cause
/-- Causes after which stored state allows no warm restart (R104, Table 5-3). -/
def noWarm (cause : Nat) : Bool := [1, 4, 8, 0xB].contains cause
/-- Causes whose paddocks are kept for a warm restart. -/
def keepPad (cause : Nat) : Bool := [2, 3, 9].contains cause

/-- What a link leaves behind for a warm restart. -/
def State.storeLink (s : State) (n : Nat) : State :=
  let l := s.ln n
  s.modLn n fun l' => { l' with stored := some {
    slave := s.flag (F.PORT_ILM_STATE_TIMING_SLAVE n), tag := l.tag, serial := identSerial l.ident,
    genTx := s.get (F.PORT_ILM_STATE_GEN_TX n), genRx := s.get (F.PORT_ILM_STATE_GEN_RX n),
    coeffs := decide (s.get (F.PORT_ILM_STATE_VEC_STATE n) = 2), fextAt := l.fextAt, mode := s.mode n, paddock := s.padOn n,
    count := s.sfc n, at_ := s.time } }

/-- The line of a port that went down: its changes, events and messages end. Its host lane sends Local Fault (R118), but for a
lane that a structural apply leaves unchanged, which sends idle throughout (`idleLane`, R36). -/
def State.quietLine (s : State) (n : Nat) (idleLane : Bool) : State :=
  let s := s.modPend n fun _ => []
  let s := s.modLn n fun l => { l with
    streaming := false, service := none, event := none, eventLen := 0, clean := 255, resolve := none, cancels := [], again := [],
    lowAt := none, downAt := none, echoAt := none, lpiAt := none, lpiConf := false, lpiOut := false, idle := 0, capSent := none,
    capRcvd := none, leadSeen := false, leadLeft := 0, leadOff := false, warmChecked := false, toneCap := 4084, toneCapRx := 4084,
    txBits := 0, txLen := 0, rxRuns := [], avg := [], anSince := some s.time }
  let s := s.each [F.PORT_LINK_STATUS_UP n, F.PORT_LINK_STATUS_LPI n, F.PORT_LINK_STATUS_MODE n, F.PORT_LINK_STATUS_PHASE n,
    F.PORT_PAD_STATE_ACTIVE n] fun t f => t.put f 0
  let s := s.dropWords (A.PORT_SNR n 0) 4096
  let s := (s.leadCheck n).freeSlices n
  if idleLane then s else s.laneFault n true

/-- What becomes of the paddocks or the buffer of a link that goes down (Table 5-3, R207). -/
def State.downPad (s : State) (n cause : Nat) (padWas keptOk trv : Bool) : State :=
  if padWas then
    if flushNow cause || !(keepPad cause && keptOk) then s.flushPad n
    else (((s.put (F.PORT_PAD_STATE_KEPT n) 1).modLn n fun l => { l with ackDue := false }).modPd n fun p => { p with rxStage := [] }).fillCheck n
  else
    let lost := (((s.pd n).toLine ++ (s.pd n).staged ++ (s.pd n).hostStage).map (·.id) ++
      (Tbl.get s.trv {} n).held.flatMap (·.frames)).eraseDups.length
    let s := s.modPd n fun p => { p with
      toLine := [], staged := [], hostStage := [], rx := [], rxStage := [], rxFrame := none, rxPos := 0, hunt := false, huntHad := false }
    if trv then s.count (F.PORT_TRV_DROP_TX_COUNT n) lost else s.dropped n (F.PORT_PAD_DROP_TX_COUNT n) lost

/-- The superframe count of stored state, advanced for the time that has gone (Table 4-3). -/
def State.storedCount (s : State) (d : Stored) : Nat := (d.count + (s.time - d.at_) / 282624) % 4294967296

/-- The port starts again: held for a warm restart where it holds stored state, and otherwise by negotiation (R104). -/
def State.comeBack (s : State) (n : Nat) : State :=
  if s.starts && s.hasStored n && s.get (F.PORT_LINK_CFG_WARM_HOLD n) ≠ 0 then
    let count := ((s.ln n).stored.map s.storedCount).getD (s.sfc n)
    ((s.put (F.PORT_AN_STATUS_STATE n) 4).put (F.PORT_ILM_SFC_COUNT n) count).modLn n fun l =>
      { l with owed := false, holdEnd := some (s.time + 500000000 * s.get (F.PORT_LINK_CFG_WARM_HOLD n)) }
  else if s.hasStored n && !s.starts then (s.put (F.PORT_AN_STATUS_STATE n) 0).modLn n fun l => { l with owed := true }
  else s.fallToAn n

/-- Where the port goes after its link is down. -/
def State.afterDown (s : State) (n cause : Nat) : State :=
  if cause = 1 || cause = 6 || cause = 7 then s.put (F.PORT_AN_STATUS_STATE n) 0
  else if !s.starts || cause = 9 then (s.put (F.PORT_AN_STATUS_STATE n) 0).modLn n fun l => { l with owed := true }
  else s.comeBack n

/-- A link goes down with a cause of Table 4-7. The caller has drained and flushed it where the cause is DISABLED, FOLD or
POWER. -/
def State.linkDown (s : State) (n cause : Nat) : State :=
  if !s.up n then s else
  let padWas := s.padOn n
  let ilm := s.upIlm n
  let legacy := s.upLegacy n
  let trv := s.upTrv n
  let s := if ilm && !noWarm cause && s.flag (F.PORT_MODE_WARM_EN n) then s.storeLink n else s.dropStored n
  let s := ((s.put (F.PORT_LINK_STATUS_DOWN_CAUSE n) cause).count (F.PORT_LINK_DOWNS_COUNT n) 1).raise (Ev.portLinkDown n)
  let s := (s.cenPort n 0x11 1).leaveGroup n
  let s := (s.quietLine n (decide (cause = 6) && (s.laneOf n).any fun m => !s.apply.lanes.testBit m)).downPad n cause padWas (s.hasStored n) trv
  let s := if trv then (s.withTrv (Tbl.set s.trv {} n {})).each
      [F.PORT_TRV_STATE_STATE n, F.PORT_TRV_STATE_TOKEN n, F.PORT_TRV_STATE_REQUESTER n] fun t f => t.put f 0 else s
  let s := if legacy then s.offerIlm n else s
  s.afterDown n cause

/-- The port is held down with cause PADDOCK (R14, R289). -/
def State.padDown (s : State) (n : Nat) : State :=
  ((s.put (F.PORT_LINK_STATUS_DOWN_CAUSE n) 8).put ⟨A.FAB_PAD_DOWN, n, 1⟩ 1).put (F.PORT_AN_STATUS_STATE n) 0

/-! ## Drains (R146 to R149) -/

/-- Nothing is left to drain: the window is empty with the reorder area holding nothing, or the buffer has gone to the
line. -/
def State.drained (s : State) (n : Nat) : Bool :=
  let p := s.pd n
  p.tx.isEmpty && p.staged.isEmpty && p.hostStage.isEmpty && p.toLine.isEmpty && (!s.padOn n || (p.rx.isEmpty && p.rxFrame.isNone)) &&
    (Tbl.get s.trv {} n).held.isEmpty

/-- The WARM_EXPECTED of the LINK_DOWN for a cause (R107): a structural apply says which ports restart warm. -/
def State.warmExpected (s : State) (n cause : Nat) : Bool :=
  match cause with
  | 6 => !s.apply.cold.testBit n
  | 7 => decide (s.pwr.target = 2)
  | _ => false

/-- Frames toward the line and toward the host that the end of a drain discards (R147); on a Traverse port with those of the bursts
held. -/
def State.drainCounts (s : State) (n : Nat) : Nat × Nat :=
  let held := (Tbl.get s.trv {} n).held.flatMap (·.frames)
  let (tx, rx) := s.flushCounts n
  (tx + (held.filter fun i => !(s.pd n).toLine.any fun f => f.id = i).eraseDups.length, rx)

/-- The port's paddocks and buffer are placed, and it negotiates (R122). A port whose paddocks cannot be placed negotiates all the same
where its buffer is placed, for a mode that needs no paddock; it is held down where negotiation brings paddock retransmission (R14). -/
def State.placePort (s : State) (n : Nat) : State :=
  let (t, bad) := s.place [n]
  let t := (t.laneFault n true).modLn n fun l => { l with anSince := some s.time }
  if bad = [] || 16 ≤ (t.pd n).bufGrains.length then t.startAn n else t.padDown n

/-- A drain ends (R146 steps 4 and 5) that would discard `lost` frames: what is left is flushed and counted, LINK_DOWN goes out, and the
link goes down. `gone` is true where the link has gone down by itself. -/
def State.drainEnds (s : State) (n : Nat) (gone : Bool) (lost : Nat × Nat) : State :=
  let p := s.pd n
  let cause := p.drainCause
  let (tx, rx) := lost
  let trv := s.upTrv n
  let s := (s.count (F.PORT_PAD_DRAIN_DISC_COUNT n) tx).when (!trv) fun t => t.flushPad n
  let s : State := if gone then s
    else if trv then s.each (List.range 3) fun t _ => t.sendTrv n 5 false cause
    else s.sayDown n cause (s.warmExpected n cause)
  let s := (s.put (F.PORT_PAD_STATE_DRAINING n) 0).modPd n fun q => { q with
    drainEnd := none, drainSlot := 0, drainOk := 0, drainHold := decide (cause = 6), reenable := false }
  let s := if gone then s.put (F.PORT_AN_STATUS_STATE n) 0 else s.linkDown n cause
  let s := if cause = 6 then s else s.xon n
  let s := if cause = 1 then s.dropStored n else s
  let s := if cause = 6 then s.withApply { s.apply with sent := s.apply.sent + p.drainOk, disc := s.apply.disc + tx + rx }
    else if cause = 7 then s.withPwr { s.pwr with discarded := s.pwr.discarded + tx + rx } else s
  let s := if p.drainSlot = 0 then s else s.complete (p.drainSlot - 1) stOk 0 [0, p.drainOk, tx, rx]
  if cause = 1 && p.reenable then (s.put (F.PORT_MODE_ENABLE n) 1).placePort n else s

/-- The drain of port `n` ends. -/
def State.endDrain (s : State) (n : Nat) : State := s.drainEnds n false (s.drainCounts n)

/-- The link goes down, and a drain under way ends with it (R146). -/
def State.dropLink (s : State) (n cause : Nat) : State :=
  if s.flag (F.PORT_PAD_STATE_DRAINING n) && s.up n then (s.linkDown n cause).drainEnds n true (s.drainCounts n) else s.linkDown n cause

/-- The rates of the legacy modes, in Mbit/s, by MODE of PORT_LINK_STATUS. -/
def legacyRate (mode : Nat) : Nat := [0, 100, 1000, 2500, 5000, 10000].getD mode 0

/-- Frames of a legacy port's buffer that its line carries off within `ms` (R146): each with the 20 bytes of preamble and gap (DESIGN
CHOICE; see log entry 117). -/
def State.lineFits (s : State) (n ms : Nat) : Nat :=
  let fs := (s.pd n).toLine
  (List.range fs.length).countP fun i =>
    decide (((fs.take (i + 1)).map fun f => f.bytes.length + 20).sum ≤ 125 * legacyRate (s.mode n) * ms)

/-- Begin to drain a port whose link is up, with a limit in ms; 0 ends it at once (R146). A legacy port's buffer goes to its line. -/
def State.beginDrain (s : State) (n limit cause slot : Nat) : State :=
  let s := ((((s.abandonCal n).put (F.PORT_PAD_STATE_DRAINING n) 1).modPd n fun p => { p with
    drainEnd := some (s.time + 1000000 * limit), drainCause := cause, drainSlot := slot, drainOk := 0 })).xoff n
  let s := if s.upLegacy n then s.lineOut n (s.lineFits n limit) else s
  if limit = 0 || s.drained n then s.endDrain n else s

/-! ## A Traverse link that is not up, or ends (R207) -/

/-- STATE of PORT_TRV_STATE. -/
def State.trvState (s : State) (n : Nat) : Nat := s.get (F.PORT_TRV_STATE_STATE n)

/-- A link stands: identity, or up. -/
def State.trvStands (s : State) (n : Nat) : Bool := decide (s.an n = 8) && decide (3 ≤ s.trvState n) && s.clocked

/-- The port's Traverse link, search or exchange ends. -/
def State.trvClear (s : State) (n : Nat) : State :=
  (s.withTrv (Tbl.set s.trv {} n {})).each [F.PORT_TRV_STATE_STATE n, F.PORT_TRV_STATE_TOKEN n, F.PORT_TRV_STATE_REQUESTER n]
    fun t f => t.put f 0

/-- A standing link goes down; one that was never up has no frames to drop. -/
def State.trvDown (s : State) (n cause : Nat) : State :=
  if s.up n then s.dropLink n cause
  else
    let s := ((s.put (F.PORT_LINK_STATUS_DOWN_CAUSE n) cause).count (F.PORT_LINK_DOWNS_COUNT n) 1).raise (Ev.portLinkDown n)
    ((s.cenPort n 0x11 1).trvClear n).afterDown n cause

/-- A link that the port itself ends: three LEAVE bursts go out first. -/
def State.trvEnd (s : State) (n cause : Nat) : State := (s.each (List.range 3) fun t _ => t.sendTrv n 5 false cause).trvDown n cause

/-! ## Ports that are taken or disabled (R103, R146) -/

/-- A port whose link is not up stops, with a cause: training ends with LINK_DOWN, a Traverse link that stands with LEAVE, and kept
paddocks are flushed. -/
def State.stopDown (s : State) (n cause : Nat) (warm : Bool) : State :=
  let s := s.abandonCal n
  let s := if s.trvStands n && !s.up n then s.trvEnd n cause else s.sayDown n cause warm
  (((s.abortTraining n).flushKept n).trvClear n).put (F.PORT_AN_STATUS_STATE n) 0

/-- A port that is down is disabled: its training ends, its kept paddocks are flushed, its stored state is discarded. -/
def State.disableDown (s : State) (n : Nat) : State :=
  ((s.stopDown n 1 false).dropStored n).modLn n fun l => { l with owed := false, target := 0, tokenAt := none }

/-- A write of 0 to ENABLE (R146). -/
def State.disablePort (s : State) (n : Nat) : State :=
  let s := s.put (F.PORT_MODE_ENABLE n) 0
  if s.flag (F.PORT_PAD_STATE_DRAINING n) then s.modPd n fun p => { p with reenable := false }
  else if s.up n then s.beginDrain n (s.get (F.PORT_PAD_CFG_DRAIN_MS n)) 1 0
  else s.disableDown n

/-- A write of 1 to ENABLE: the port's paddocks are placed and negotiation starts (R122, R14). -/
def State.enablePort (s : State) (n : Nat) : State :=
  if s.flag (F.PORT_PAD_STATE_DRAINING n) && (s.pd n).drainCause = 1 then s.modPd n fun p => { p with reenable := true }
  else if s.flag (F.PORT_MODE_ENABLE n) || s.pModes n = 0 then s.put (F.PORT_MODE_ENABLE n) 1
  else (s.put (F.PORT_MODE_ENABLE n) 1).placePort n

/-- A write of 1 to RESTART: the link drops with cause DISABLED, ILM is offered again, and negotiation restarts. -/
def State.restartPort (s : State) (n : Nat) : State :=
  if !s.flag (F.PORT_MODE_ENABLE n) || s.flag (F.PORT_PAD_STATE_DRAINING n) then s else
  let s := s.offerIlm n
  let s := if s.upTrv n then s.trvEnd n 1 else if s.up n then (s.sayDown n 1 false).linkDown n 1 else s.disableDown n
  s.startAn n

/-! ## Service (R61, R104, R110, R124) -/

/-- The partner's serial at a link-up (R110). -/
def State.notePartner (s : State) (n : Nat) : State :=
  let serial := identSerial (s.ln n).ident
  let kept := s.wide (A.PORT_PARTNER_SN n)
  if (s.ln n).ident = [] || serial = kept then s else
  (((s.putWide (A.PORT_PARTNER_PREV n) kept).putWide (A.PORT_PARTNER_SN n) serial).put (F.PORT_PARTNER_INFO_CHANGED n) 1).raise
    (Ev.portPartnerIdChange n)

/-- The time a training or restart took, in 0.1 ms. -/
def State.trainTime (s : State) (n t0 : Nat) : State := s.put (F.PORT_LINK_STATUS_TRAIN_TIME n) (min 4095 ((s.time - t0) / 100000))

/-- A link is in service in a mode. An erasure event may begin at its first symbol (DESIGN CHOICE; see log entry 118). Outside ILM the
margins read 0 (R113). -/
def State.linkUp (s : State) (n mode : Nat) : State :=
  let s := if mode ≤ 5 || mode = 9 then s.putWord (A.PORT_MON_MARGIN n) 0 else s
  let s := (((s.put (F.PORT_LINK_STATUS_UP n) 1).put (F.PORT_LINK_STATUS_MODE n) mode).put (F.PORT_LINK_STATUS_PHASE n) 0).put
    (F.PORT_AN_STATUS_STATE n) (if mode = 9 then 8 else 6)
  let s := s.modLn n fun l => { l with
    lastSync := s.time, tokenAt := none, sym := 0, clean := 255, lostLots := 0, holdEnd := none,
    fails := if 6 ≤ mode then 0 else l.fails }
  let s := s.modPd n fun p => { p with drainHold := false }
  (((if s.servedBy n = [] then s.takeSlices n else s).notePartner n).laneFault n false).fillCheck n

/-- Send both Custom definitions (R50). -/
def State.sendCustom (s : State) (n : Nat) (b : Bool) : State :=
  if s.isV2 n then s else
  s.sendEoc n 0x23 (BitVec.ofNat 8 (b2n b) :: s.wordBytes (if b then A.PORT_CUSTOM_B n 0 else A.PORT_CUSTOM_A n 0) 8)

/-- The profile that the port's zone state gives (R105). -/
def State.zoneProf (s : State) (n : Nat) : Nat := s.get (F.PISTE_PORT_ZONE_PROF n)

/-- Service after a cold training: numbering and GEN start again (R61, R124). -/
def State.coldService (s : State) (n : Nat) : State :=
  let l := s.ln n
  let s := s.flushPad n
  let s := s.each [F.PORT_ILM_STATE_GEN_TX n, F.PORT_ILM_STATE_GEN_RX n, F.PORT_ILM_STATE_PROF_TX n, F.PORT_ILM_STATE_PROF_RX n]
    fun t f => t.put f 0
  let s := (s.put (F.PORT_PAD_STATE_ACTIVE n) (b2n l.paddock)).modLn n fun l => { l with
    streaming := true, txBits := 0, txLen := 0, rxRuns := [] }
  (s.trainTime n l.trainAt).linkUp n l.target

/-- The lots a resumed transmitter sends again (R137), and those voided meanwhile (R132). Lots asked for before are asked for again
under the repeat case (R128). -/
def State.resumePad (s : State) (n : Nat) : State :=
  let p := s.pd n
  match p.resume with
  | some (cum, _, true) =>
    if s.flag (F.PORT_PAD_STATE_KEPT n) && p.resumeAcked then
      let s := s.modPd n fun p => { p with
        tx := p.tx.filter (fun l => seqAfter l.seq cum), voidDue := []
        resend := ((p.tx.filter fun l => !l.void).map (·.seq)).filter fun q => seqAfter q cum, resume := none, resumeAcked := false,
        asked := p.asked.map fun e => (e.1, s.time) }
      let s := s.nameVoid n (p.voidDue.filter fun q => seqAfter q cum)
      (s.put (F.PORT_PAD_STATE_KEPT n) 0).modLn n fun l => { l with ackDue := true }
    else s.flushPad n
  | _ => s.flushPad n

/-- Service after a warm restart: a member of the group is active at once where the coefficients are held, and else joins (R83, R105). -/
def State.warmService (s : State) (n : Nat) : State :=
  let l := s.ln n
  let s := if l.paddock then (s.put (F.PORT_PAD_STATE_ACTIVE n) 1).resumePad n else s
  let s := s.modLn n fun l => { l with streaming := true, warmChecked := false, txBits := 0, txLen := 0, rxRuns := [] }
  let had := l.stored.any (·.coeffs)
  let s := if s.mayJoin n && !s.isV2 n then
      (s.setVec n (if had then 2 else 1)).modLn n fun m => { m with fextAt := if had then (l.stored.map (·.fextAt)).getD [] else m.fextAt }
    else s
  let s := ((s.count (F.PORT_WARM_OK_COUNT n) 1).trainTime n l.warmAt).linkUp n l.target
  (s.sendCustom n false).sendCustom n true

/-- Discard the stored state after a failed warm restart, and return to negotiation (R105). -/
def State.warmFail (s : State) (n : Nat) : State :=
  let s := (s.count (F.PORT_WARM_FAIL_COUNT n) 1).stopTraining n
  ((s.dropStored n).flushPad n).fallToAn n

/-! ## Identity on the line (R108) -/

/-- This end's IDENT body with a nonce and a span. -/
def State.identBody (s : State) (n : Nat) (nonce : Bytes) (span : Nat) : Bytes :=
  leBytes s.partCode 2 ++ [BitVec.ofNat 8 (bits (s.word A.DEV_PARTID).toNat 8 8), BitVec.ofNat 8 n] ++
    s.wordBytes A.SEC_ID_SERIAL 2 ++ s.wordBytes (A.SEC_ID_PUB 0) 16 ++ nonce ++ leBytes span 2

/-- A signature with the identity key over a message (R390, R108). -/
def State.idSign (s : State) (msg : Bytes) : State × Bytes :=
  let k := leVal (s.freeBytes 8)
  (s.drawn 8, ecdsaSign s.nv.idPriv (k % (curveN - 1) + 1) msg)

/-- Record what the partner's IDENT names (Table 4-13). -/
def State.showPartner (s : State) (n : Nat) (body : Bytes) : State :=
  s.each [(F.PORT_PARTNER_INFO_PART n, identPart body), (F.PORT_PARTNER_INFO_PPORT n, identPort body % 16),
    (F.PORT_PARTNER_INFO_STEP n, identStep body), (F.PORT_PARTNER_INFO_AUTH n, 0)] fun t e => t.put e.1 e.2

/-- Record the partner's proof (R109): 1 verified, 2 failed. -/
def State.showAuth (s : State) (n : Nat) (ok : Bool) : State :=
  if ok then s.put (F.PORT_PARTNER_INFO_AUTH n) 1
  else
    let s := s.put (F.PORT_PARTNER_INFO_AUTH n) 2
    if s.flag (F.PORT_LINK_CFG_REQUIRE_AUTH n) then s else s.raise (Ev.portPartnerAuthFail n)

/-! ## Grants (R98, R339) -/

/-- Cold training starts at the grant. -/
def State.startTraining (s : State) (n : Nat) : State :=
  let l := s.ln n
  let s := (((s.abandonCal n).eocRestart n).put (F.PORT_ILM_STATE_TIMING_SLAVE n) (b2n l.slave)).cenHerd 0x05 1
  let s := s.dropWords (A.PORT_TONE n 0) 65536
  let s := (s.put (F.PORT_AN_STATUS_STATE n) 3).put (F.PORT_LINK_STATUS_PHASE n) 1
  let s := s.each [(F.PORT_ILM_STATE_VERSION n, if l.target = 6 then 2 else 3), (F.PORT_ILM_STATE_PADDOCK n, b2n l.paddock),
    (F.PORT_ILM_STATE_LONG_SPAN n, 0), (F.PORT_PARTNER_INFO_AUTH n, 0), (F.PORT_AN_STATUS_VEC_MISMATCH n, 0)]
    fun t e => t.put e.1 e.2
  let s := s.takeSlices n
  s.modLn n fun l => { l with
    trainAt := s.time, locked := false, tokenAt := none, nonce := [], ident := [], identOwn := [], proofOk := none, rateCap := 0, padParams := false,
    service := none, stored := none, custPart := [], custAck := [], custTx := [], custRx := [], toneCap := 4084, toneCapRx := 4084,
    bsTx := none, bsRx := none, updSent := none, updRcvd := none }

/-- A warm restart starts: WARM_CHECK and PAD_RESUME go out (R104, R105, R137). -/
def State.profCrc (s : State) (n p : Nat) (txFirst : Bool) : Nat :=
  let t (rx : Bool) := s.wordBytes (toneWord n rx p 0) 2048
  crc32 (t (!txFirst) ++ t txFirst)

/-- The four profile CRCs, the timing master's transmit direction first. -/
def State.profCrcs (s : State) (n : Nat) (slave : Bool) : Bytes :=
  (List.range 4).flatMap fun p => leBytes (s.profCrc n p (!slave)) 4

/-- The body of this end's WARM_CHECK (R105). -/
def State.warmBody (s : State) (n : Nat) (d : Stored) (sf : Nat) : Bytes :=
  leBytes d.tag 4 ++ s.wordBytes A.SEC_ID_SERIAL 2 ++ leBytes d.serial 8 ++ [BitVec.ofNat 8 (d.genTx + 16 * d.genRx)] ++
    s.profCrcs n d.slave ++ [BitVec.ofNat 8 (s.vecMask (n / 4)), BitVec.ofNat 8 (s.zoneProf n)] ++ leBytes sf 4

/-- The port enters warm restart on its partner's signal. -/
def State.startWarm (s : State) (n : Nat) : State :=
  match (s.ln n).stored with
  | none => s
  | some d =>
    let s := (((s.abandonCal n).eocRestart n).takeSlices n).cenHerd 0x06 1
    let s := (s.put (F.PORT_ILM_SFC_COUNT n) (if s.calls n then s.sfc n else s.storedCount d)).put (F.PORT_AN_STATUS_STATE n) 5
    let s := s.each [(F.PORT_ILM_STATE_TIMING_SLAVE n, b2n d.slave), (F.PORT_ILM_STATE_VERSION n, if d.mode = 6 then 2 else 3),
      (F.PORT_ILM_STATE_PADDOCK n, b2n d.paddock), (F.PORT_ILM_STATE_LONG_SPAN n, b2n (decide (d.mode = 8)))] fun t e => t.put e.1 e.2
    let sf := (s.sfc n + 17) % 4294967296
    let s := s.modLn n fun l => { l with
      warmAt := s.time, warmChecked := false, target := d.mode, paddock := d.paddock, tag := d.tag, tokenAt := none, holdEnd := none,
      service := if d.slave then none else some sf }
    let s := s.xoff n
    let s := s.sendEoc n 0x12 (s.warmBody n d sf)
    if d.paddock then
      s.sendEoc n 0x41 (leBytes (s.get (F.PORT_PAD_RXSEQ_CUM n)) 3 ++ leBytes (seqAdd (s.get (F.PORT_PAD_TXSEQ_NEXT n)) (2 ^ 24 - 1)) 3 ++
        [BitVec.ofNat 8 (s.get (F.PORT_PAD_STATE_KEPT n))])
    else s

end Sys2Proof.Machine
end

