-- ==== Sys2Proof/Machine/LinkRows.lean ====
section
/-!
DEFINITION. The commands of bring-up, training, warm restart, link-down, drains and legacy modes (chapter 4), and of a host
lane's loss and lock (R299 to R302).
-/
namespace Sys2Proof.Machine

/-! ## Negotiation (R92 to R97, R113) -/

/-- The highest common mode (R94), as MODE of PORT_LINK_STATUS; 0 for none. -/
def State.resolveMode (s : State) (n : Nat) (ability : Option Nat) (tech : Nat) : Nat :=
  let ver := match ability with | some a => bits a 28 4 | none => 0
  let own := s.offered n
  let ilm := !s.flag (F.PORT_AN_STATUS_ILM_SUPPRESSED n)
  if ilm && own.testBit 6 && 3 ≤ ver then 7
  else if ilm && own.testBit 5 && 2 ≤ ver then 6
  else
    match [4, 3, 2, 1, 0].find? fun m => own.testBit m && tech.testBit m with
    | some m => m + 1
    | none => 0

/-- The role of an ILM v3 link: none on a conflict, or where equal SEEDs must be drawn again (R96). -/
def resolveSlave (own ownSeed ability : Nat) : Option Bool :=
  let r := let x := bits ability 20 2; if x = 3 then 0 else x
  if own = 0 && r = 0 then
    if ownSeed = ability % 65536 then none else some (decide (ownSeed < ability % 65536))
  else if own ≠ 0 && own = r then none
  else if own ≠ 0 then some (decide (own = 2))
  else some (decide (r = 1))

/-- The port's paddocks and buffer are placed at or above their floors (R14). -/
def State.placed (s : State) (n : Nat) (pad : Bool) : Bool :=
  let (_, _, m) := s.pPad n
  decide (16 ≤ (s.pd n).bufGrains.length) &&
    (!pad || (decide (16 * m ≤ (s.pd n).txGrains.length) && decide (16 * m ≤ (s.pd n).rxGrains.length)))

/-- AN_COMPLETE (R94, R96): the partner's ability word where it sent one, its IEEE abilities, and whether the clause resolves
this end as MASTER. -/
def execAnComplete (port : BitVec 4) (ability : Option (BitVec 32)) (tech : BitVec 5) (master : Bool) (s : State) :
    Host.Outcome State Fault Refusal :=
  let n := port.toNat
  .next (
    if !(s.an n = 1 && s.starts) || s.sweeps n then s else
    let w := (ability.map BitVec.toNat).getD 0
    let s := s.each [(F.PORT_AN_STATUS_PARTNER_VER n, bits w 28 4), (F.PORT_AN_STATUS_PARTNER_CAPS n, bits w 20 8),
      (F.PORT_AN_STATUS_PARTNER_TECH n, tech.toNat)] fun t e => t.put e.1 e.2
    let s := s.modLn n fun l => { l with ability := w, anDone := s.time, anSince := none }
    let mode := s.resolveMode n (ability.map BitVec.toNat) tech.toNat
    let fail (t : State) (c : Nat) := ((t.noteTried n).put (F.PORT_AN_STATUS_LAST_FAIL n) c).startAn n
    if mode = 0 then fail s 2 else
    let slave := if mode = 7 then resolveSlave (s.ownRole n) (s.ln n).seed w else some (!master)
    match slave with
    | none =>
      if s.ownRole n = 0 then (s.drawSeed n).startAn n else fail s 1
    | some sl =>
      let pad := mode = 7 && w.testBit 27 && (s.pModes n).testBit 9
      let lpi := mode = 7 && w.testBit 23 && s.flag (F.PORT_AN_CTRL_LPI_ADV n)
      let s := s.modLn n fun l => { l with target := mode, slave := sl, paddock := pad, lpi := lpi }
      if !s.placed n pad then s.padDown n
      else if 6 ≤ mode then (s.put (F.PORT_AN_STATUS_STATE n) 2).modLn n fun l => { l with tokenAt := some s.time }
      else s.put (F.PORT_AN_STATUS_STATE n) 3)

/-- PARTNER_WAIT_TIMEOUT (R98): 500 ms after negotiation without the first phase end. -/
def execPartnerWaitTimeout (port : BitVec 4) (s : State) : Host.Outcome State Fault Refusal :=
  let n := port.toNat
  let waits := decide (6 ≤ (s.ln n).target) && decide ((s.ln n).target ≤ 7) &&
    (decide (s.an n = 2) || (decide (s.an n = 3) && decide (s.get (F.PORT_LINK_STATUS_PHASE n) = 1)))
  .next (if waits && s.starts && !s.sweeps n then
      let s := ((s.timeTo ((s.ln n).anDone + 500000000)).noteTried n).stopTraining n
      (s.put (F.PORT_AN_STATUS_LAST_FAIL n) 8).fallToAn n
    else s)

/-- ILM_SUPPRESS_EXPIRY (R95). -/
def execIlmSuppressExpiry (port : BitVec 4) (s : State) : Host.Outcome State Fault Refusal :=
  let n := port.toNat
  .next (if s.flag (F.PORT_AN_STATUS_ILM_SUPPRESSED n) then
      (s.timeTo ((s.ln n).suppressAt + 60000000000)).offerIlm n
    else s)

/-! ## Loading in training (R47, R100) -/

/-- Send a Normal loading as the eight LOADING_UPDATE messages 0xF0 to 0xF7, 512 tones in each (Table 4-2). -/
def State.sendNormal (s : State) (n : Nat) (es : List Nat) : State :=
  s.each (List.range 8) fun t i =>
    let part := es.filter fun e => e % 4096 / 512 = i
    t.sendEoc n 0x21 ([BitVec.ofNat 8 (0xF0 + i)] ++ leBytes part.length 2 ++ part.flatMap fun e => leBytes e 4)

/-- A direction carries less than 1,000 Mbit/s in Normal (R100). -/
def State.lowRate (s : State) (n : Nat) (rx : Bool) : Bool := decide (s.mbps n (s.sumBits n rx 0 (s.activeTones n)) < 1000)

/-! ## Cold training (Table 4-2) -/

/-- The latest time of a phase, in units of 0.1 ms, for a port outside or inside a vector group. -/
def phaseLatest (vec : Bool) : Nat → Nat
  | 1 => 30 | 2 => 60 | 3 => 795
  | 4 => if vec then 855 else 120
  | 5 => if vec then 915 else 180
  | 6 => if vec then 1035 else 300
  | 7 => if vec then 1135 else 400
  | _ => if vec then 1175 else 440

/-- This end's proof over the partner's nonce and its own IDENT body (R108). -/
def State.sendProof (s : State) (n : Nat) : State :=
  let (s, sig) := s.idSign (identNonce (s.ln n).ident ++ (s.ln n).identOwn)
  s.sendEoc n 0x31 sig

/-- Phase 2 begins: IDENT, then RATE_CAP, go out (R101, R108, R46), and the proof where the partner's IDENT has come already. -/
def State.beginIdentity (s : State) (n span : Nat) : State :=
  let nonce := s.freeBytes 4
  let body := s.identBody n nonce (if (s.ln n).slave then 0xFFFF else span)
  let s := ((s.drawn 4).put (F.PORT_LINK_STATUS_PHASE n) 2).modLn n fun l => { l with nonce := nonce, identOwn := body }
  let s := (s.sendEoc n 0x30 body).sendEoc n 0x17 (leBytes (s.rateCap n) 2)
  if (s.ln n).ident = [] then s else s.sendProof n

/-- Phase 2 ends: the span decides (R101), and the port joins its group or trains outside it (R97, R111). -/
def State.endIdentity (s : State) (n : Nat) : State :=
  let l := s.ln n
  let span := identSpan (if l.slave then l.ident else l.identOwn)
  let long := decide (500 < span) && decide (span ≠ 0xFFFF)
  let both := l.ability.testBit 25 && (s.pModes n).testBit 7 && !s.isV2 n
  if long && (!both || decide (840 < span)) then s.trainFail n 5 else
  let s := if long then (s.put (F.PORT_ILM_STATE_LONG_SPAN n) 1).modLn n fun l => { l with target := 8 } else s
  let join := !long && !s.isV2 n && s.mayJoin n
  let s := if s.inVec n && !join && (!long || !l.ability.testBit 26) then s.put (F.PORT_AN_STATUS_VEC_MISMATCH n) 1 else s
  if join then (s.put (F.PORT_LINK_STATUS_PHASE n) 3).setVec n 1 else s.put (F.PORT_LINK_STATUS_PHASE n) 4

/-- Phase 7 begins: the receiver's Normal, the Custom definitions and the paddock's capacities go out (R47, R50, R133). -/
def State.beginLoading (s : State) (n : Nat) (tones : List (BitVec 12 × BitVec 8)) : State :=
  let es := s.decideNormal n (tones.map fun e => { tone := e.1.toNat, snr := e.2.toNat })
  let s := ((s.each es fun t e => t.setEntry n true e).put (F.PORT_LINK_STATUS_PHASE n) 7).sendNormal n es
  let s := (s.sendCustom n false).sendCustom n true
  if s.lowRate n true then s.trainFail n 6 else s.sendPadParams n

/-- A message of a type has not been acknowledged yet (R107). -/
def Line.owes (l : Line) (typ : Nat) : Bool := (l.unacked.any fun u => u.msg.typ = typ) || l.waiting.any fun m => m.typ = typ

/-- TRAINING_PHASE_END: the phase under way completes. `span` is the master's measurement at the end of phase 1, `tones` the SNR of
each tone at the end of phase 6, `service` the S that the master names in phase 7. -/
def execTrainingPhaseEnd (port : BitVec 4) (span : BitVec 16) (tones : List (BitVec 12 × BitVec 8))
    (service : BitVec 32) (s : State) : Host.Outcome State Fault Refusal :=
  let n := port.toNat
  let l := s.ln n
  .next (
    if !(s.an n = 3 && s.starts) then s else
    match s.get (F.PORT_LINK_STATUS_PHASE n) with
    | 1 => if l.locked then s.beginIdentity n span.toNat else s
    | 2 => if l.ident ≠ [] && (s.isV2 n || l.proofOk.isSome) then s.endIdentity n else s
    | 3 => if s.get (F.PORT_ILM_STATE_VEC_STATE n) = 2 then s.put (F.PORT_LINK_STATUS_PHASE n) 4 else s
    | 4 => s.put (F.PORT_LINK_STATUS_PHASE n) 5
    | 5 => s.put (F.PORT_LINK_STATUS_PHASE n) 6
    | 6 => s.beginLoading n tones
    | 7 =>
      if s.lowRate n false then s.trainFail n 6
      else
        let s := (s.deriveAll n true).deriveAll n false
        if l.slave then (if l.service.isSome then s.put (F.PORT_LINK_STATUS_PHASE n) 8 else s)
        else if l.service.isSome then
          (if l.unacked.isEmpty && l.waiting.isEmpty then s.put (F.PORT_LINK_STATUS_PHASE n) 8 else s)
        else if l.paddock && (!l.padParams || l.owes 0x40) then s
        else
          let tag := max 1 s.freeNow.toNat
          let s := (s.drawn 1).modLn n fun l => { l with tag := tag, service := some service.toNat }
          s.sendEoc n 0x11 (leBytes service.toNat 4 ++ leBytes tag 4)
    | _ => s)

/-- TRAINING_PHASE_LATE: the phase under way passes its latest time. A master that still waits for the slave's sync symbols in phase 1 is
bound by the 500 ms of R98 alone. -/
def execTrainingPhaseLate (port : BitVec 4) (s : State) : Host.Outcome State Fault Refusal :=
  let n := port.toNat
  let p := s.get (F.PORT_LINK_STATUS_PHASE n)
  let code : Nat := match p with
    | 1 => 3 | 2 => 7 | 3 => 3 | 4 => 4 | 5 => 4 | 6 => 3
    | 7 => if (s.ln n).unacked.isEmpty then 6 else 9
    | _ => 0
  let vec := decide (p = 3) || decide (s.get (F.PORT_ILM_STATE_VEC_STATE n) ≠ 0)
  .next (if s.an n = 3 && s.starts && decide (code ≠ 0) && !(decide (p = 1) && !(s.ln n).slave && !(s.ln n).locked) then
      (s.timeTo ((s.ln n).trainAt + 100000 * phaseLatest vec p)).trainFail n code
    else s)

/-- VECTOR_JOIN_END (R82): the sweep of 256 superframes ends and the port is an active member. -/
def execVectorJoinEnd (port : BitVec 4) (s : State) : Host.Outcome State Fault Refusal :=
  let n := port.toNat
  let swept := (s.ln n).joinAt.any fun c => decide (256 ≤ (s.sfc n + 2 ^ 32 - c) % 2 ^ 32)
  .next (if s.get (F.PORT_ILM_STATE_VEC_STATE n) = 1 && swept && s.coreOn then s.setVec n 2 else s)

/-- TRAIN_SYNC: the slave takes the master's superframe count in phase 1, and starts its sync symbols. -/
def execTrainSync (port : BitVec 4) (count : BitVec 32) (s : State) : Host.Outcome State Fault Refusal :=
  let n := port.toNat
  .next (if s.an n = 3 && s.get (F.PORT_LINK_STATUS_PHASE n) = 1 && (s.ln n).slave then
      (s.put (F.PORT_ILM_SFC_COUNT n) count.toNat).modLn n fun l => { l with locked := true } else s)

/-- TRAIN_START: the service S and the link tag. -/
def execTrainStart (port : BitVec 4) (seq : BitVec 8) (sf tag : BitVec 32) (s : State) : Host.Outcome State Fault Refusal :=
  let n := port.toNat
  .next (s.eocDo n 0x11 seq.toNat fun t =>
    if t.an n = 3 && (t.ln n).slave then t.modLn n fun l => { l with service := some sf.toNat, tag := tag.toNat } else t)

/-- SERVICE_START (R61): the superframe count has reached the named S. -/
def execServiceStart (port : BitVec 4) (s : State) : Host.Outcome State Fault Refusal :=
  let n := port.toNat
  .next (
    if (s.ln n).service ≠ some (s.sfc n) then s else
    let done (t : State) : State :=
      ((t.modLn n fun l => { l with service := none, leadLeft := if t.isV2 n then 0 else 3 }).leadCheck n).showLoading n
    if s.an n = 3 && s.get (F.PORT_LINK_STATUS_PHASE n) = 8 then done (s.coldService n)
    else if s.an n = 5 && (s.ln n).warmChecked then done (s.warmService n)
    else s)

/-! ## Identity (R108, R109, R112) -/

/-- IDENT: what the partner names, and this end's proof over its nonce, which waits for this end's own IDENT. -/
def execIdent (port : BitVec 4) (seq : BitVec 8) (part : BitVec 16) (step pport : BitVec 8) (serial : BitVec 64)
    (key : BitVec 512) (nonce : BitVec 128) (span : BitVec 16) (s : State) : Host.Outcome State Fault Refusal :=
  let n := port.toNat
  let nb := leBytes nonce.toNat 16
  let body := leBytes part.toNat 2 ++ [step, pport] ++ leBytes serial.toNat 8 ++ leBytes key.toNat 64 ++ nb ++ leBytes span.toNat 2
  .next (s.eocDo n 0x30 seq.toNat fun t =>
    if t.an n ≠ 3 then t else
    let t := (t.modLn n fun l => { l with ident := body }).showPartner n body
    if t.isV2 n && t.flag (F.PORT_LINK_CFG_REQUIRE_AUTH n) then t.trainFail n 7
    else if (t.ln n).identOwn = [] then t
    else t.sendProof n)

/-- IDENT_PROOF: the partner's signature over this end's nonce and its own IDENT body. -/
def execIdentProof (port : BitVec 4) (seq : BitVec 8) (sig : BitVec 512) (s : State) : Host.Outcome State Fault Refusal :=
  let n := port.toNat
  .next (s.eocDo n 0x31 seq.toNat fun t =>
    let l := t.ln n
    if t.an n ≠ 3 || l.ident = [] then t else
    let ok := ecdsaVerify (identKey l.ident) (l.nonce ++ l.ident) (leBytes sig.toNat 64)
    let t := (t.modLn n fun l => { l with proofOk := some ok }).showAuth n ok
    if !ok && t.flag (F.PORT_LINK_CFG_REQUIRE_AUTH n) then t.trainFail n 7 else t)

/-! ## Warm restart (R104, R105) -/

/-- PARTNER_SIGNAL_DETECTED: the pilot detector finds the partner's sync symbols or warm call. The host is held from here (R119). -/
def execPartnerSignalDetected (port : BitVec 4) (s : State) : Host.Outcome State Fault Refusal :=
  let n := port.toNat
  .next (if s.starts && s.hasStored n && (s.an n = 1 || s.an n = 4) && !s.sweeps n then
      if !s.adcFirst n && s.tokenFits n (s.startDemand n (s.get F.DRV_STATE_PL)) then s.startWarm n
      else ((s.put (F.PORT_AN_STATUS_STATE n) 2).modLn n fun l => { l with target := 0, tokenAt := some s.time }).xoff n
    else s)

/-- WARM_CHECK: every field agrees with the stored state, or both ends discard it. The profile from S is that of the leading end, which
before service is the timing master (R105, R169). -/
def execWarmCheck (port : BitVec 4) (seq : BitVec 8) (tag : BitVec 32) (own partner : BitVec 64) (gen : BitVec 8)
    (crcs : BitVec 128) (vec prof : BitVec 8) (sf : BitVec 32) (s : State) : Host.Outcome State Fault Refusal :=
  let n := port.toNat
  .next (s.eocDo n 0x12 seq.toNat fun t =>
    match (t.ln n).stored with
    | none => t
    | some d =>
      if t.an n ≠ 5 then t else
      let ok := decide (tag.toNat = d.tag) && decide (own.toNat = d.serial) && decide (partner.toNat = t.wide A.SEC_ID_SERIAL) &&
        decide (gen.toNat % 16 = d.genRx) && decide (gen.toNat / 16 = d.genTx) &&
        decide (leBytes crcs.toNat 16 = t.profCrcs n d.slave) && decide (vec.toNat = t.vecMask (n / 4)) && t.hasStored n
      if !ok then t.warmFail n else
      let t := t.modLn n fun l => { l with warmChecked := true, service := if d.slave then some sf.toNat else l.service }
      let t := t.leadCheck n
      let p := if d.slave then prof.toNat % 4 else t.zoneProf n
      if t.isV2 n then t else (t.put (F.PORT_ILM_STATE_PROF_TX n) p).put (F.PORT_ILM_STATE_PROF_RX n) p)

/-- WARM_CHECK_TIMEOUT: 4.5 ms after the partner's signal. -/
def execWarmCheckTimeout (port : BitVec 4) (s : State) : Host.Outcome State Fault Refusal :=
  let n := port.toNat
  .next (if s.an n = 5 && !(s.ln n).warmChecked then (s.timeTo ((s.ln n).warmAt + 4500000)).warmFail n else s)

/-- WARM_HOLD_EXPIRY: the port falls to negotiation, and its pilot detector goes on. -/
def execWarmHoldExpiry (port : BitVec 4) (s : State) : Host.Outcome State Fault Refusal :=
  let n := port.toNat
  .next (match (s.ln n).holdEnd with
    | some t => if s.an n = 4 then (s.timeTo t).fallToAn n else s
    | none => s)

/-! ## Link-down (R118, Table 4-7) -/

/-- LINK_DOWN: the partner's notice. A partner that silences a training or a warm restart leaves nothing to wait for, so this end
negotiates again; WARM_EXPECTED 0 discards the stored state (R107). DESIGN CHOICE: no failure code is recorded then; see log entry 119. -/
def execLinkDown (port : BitVec 4) (_cause : BitVec 8) (warm : Bool) (s : State) : Host.Outcome State Fault Refusal :=
  let n := port.toNat
  .next (if s.upIlm n then
      if warm then s.dropLink n 5
      else
        let t := (s.put (F.PORT_MODE_WARM_EN n) 0).dropLink n 5
        (t.put (F.PORT_MODE_WARM_EN n) (s.get (F.PORT_MODE_WARM_EN n))).dropStored n
    else if s.eocOpen n then
      let t := s.stopTraining n
      if warm && t.hasStored n then t.comeBack n else (t.dropStored n).fallToAn n
    else s)

/-- LOSS_OF_SYNC: DOWN_TIME, or DOWN_TIME_ZONE while a zone is armed or the port is in a swapped profile. -/
def execLossOfSync (port : BitVec 4) (s : State) : Host.Outcome State Fault Refusal :=
  let n := port.toNat
  let zone := s.zoneArmed n || s.swapped n
  let t := s.get (if zone then F.PORT_LINK_CFG_DOWN_TIME_ZONE n else F.PORT_LINK_CFG_DOWN_TIME n)
  .next (if s.upIlm n then (s.timeTo ((s.ln n).lastSync + 1000000 * max 25 (min 250 t))).dropLink n 2 else s)

/-- MARGIN_DOWN_TIMEOUT. -/
def execMarginDownTimeout (port : BitVec 4) (s : State) : Host.Outcome State Fault Refusal :=
  let n := port.toNat
  .next (match (s.ln n).downAt with
    | some t => if s.upIlm n then (s.timeTo (t + 2000000000)).dropLink n 4 else s
    | none => s)

/-- LEGACY_LINK_FAIL. -/
def execLegacyLinkFail (port : BitVec 4) (s : State) : Host.Outcome State Fault Refusal :=
  .next (if s.upLegacy port.toNat then s.dropLink port.toNat 0xA else s)

/-- EOC_RESEND_TIMEOUT (R107): 1 ms after its last send a message, and every one sent after it, goes out again. -/
def execEocResendTimeout (port : BitVec 4) (s : State) : Host.Outcome State Fault Refusal :=
  let n := port.toNat
  .next (
    if !s.eocOpen n then s else
    match (s.ln n).unacked with
    | [] => s
    | u :: us =>
      let first := us.foldl (fun (a : Unacked) v => if v.sentAt < a.sentAt then v else a) u
      let s := s.timeTo (first.sentAt + 1000000)
      let late := (s.ln n).unacked.dropWhile fun v => v.msg.seq ≠ first.msg.seq
      if late.any fun v => decide (7 ≤ v.resends) then
        if s.upIlm n then s.dropLink n 3 else if s.an n = 3 then s.trainFail n 9 else s
      else
        let s := s.modLn n fun l => { l with
          unacked := l.unacked.map fun v => if late.contains v then { v with sentAt := s.time, resends := v.resends + 1 } else v,
          eocQ := l.eocQ ++ late.flatMap fun v => v.msg.bytes true }
        (s.count (F.PORT_EOC_RETRY_COUNT n) late.length).cenHerd 0x03 late.length)

/-! ## Ports by the host (R146, R147) -/

/-- The other fields of a write of PORT_MODE. WARM_EN 0 discards stored state. -/
def State.putPortMode (s : State) (n : Nat) (v : Word) : State :=
  let s := s.each [(F.PORT_MODE_AN_EN n, getBits v 30 1), (F.PORT_MODE_WARM_EN n, getBits v 28 1),
    (F.PORT_MODE_FORCE_SLAVE n, getBits v 27 1), (F.PORT_MODE_FORCE_MODE n, getBits v 24 3)] fun t e => t.put e.1 e.2
  if getBits v 28 1 = 0 then (s.flushKept n).dropStored n else s

/-- A write of PORT_MODE changes how an enabled port that is not up starts: with negotiation, or in a forced mode and role (R92,
R113). -/
def State.startChanges (s : State) (n : Nat) (v : Word) : Bool :=
  s.flag (F.PORT_MODE_ENABLE n) && !s.up n && !s.flag (F.PORT_PAD_STATE_DRAINING n) && !s.trvStands n &&
    (decide (getBits v 30 1 ≠ s.get (F.PORT_MODE_AN_EN n)) || (decide (getBits v 30 1 = 0) &&
      (decide (getBits v 27 1 ≠ s.get (F.PORT_MODE_FORCE_SLAVE n)) || decide (getBits v 24 3 ≠ s.get (F.PORT_MODE_FORCE_MODE n)))))

/-- A write of a word to PORT_MODE (Table 4-9). -/
def State.writePortMode (s : State) (n : Nat) (v : Word) : State :=
  let again := s.startChanges n v && decide (getBits v 31 1 = 1)
  let s := s.putPortMode n v
  let s := if again then ((s.sayDown n 1 true).stopTraining n).fallToAn n else s
  let en := getBits v 31 1
  let s := if en = 1 then s.enablePort n
    else if s.flag (F.PORT_MODE_ENABLE n) then s.disablePort n else s
  if getBits v 29 1 = 1 then s.restartPort n else s

/-- The host's BAR0 writes reach the port's registers: neither END nor clock hold closes the block (R305,
R395). -/
def State.portOpen (s : State) (n : Nat) : Bool :=
  decide (s.lc ≠ 4) && decide (n < s.nPorts) && decide (s.get F.CLK_STATUS_STATE ≠ 1) && decide (s.get F.CLK_STATUS_STATE ≠ 2)

/-- PORT_ENABLE: a write of PORT_MODE with ENABLE 1. -/
def execPortEnable (port : BitVec 4) (val : Word) (s : State) : Host.Outcome State Fault Refusal :=
  let n := port.toNat
  .next (s.bar fun t => if t.portOpen n then t.writePortMode n (val ||| 0x80000000#32) else t)

/-- PORT_MODE_DISABLE: a write of PORT_MODE with ENABLE 0, or of ENABLE 0 to MDIO 30.16. -/
def execPortModeDisable (port : BitVec 4) (val : Word) (s : State) : Host.Outcome State Fault Refusal :=
  let n := port.toNat
  .next (s.bar fun t => if t.portOpen n then t.writePortMode n (val &&& 0x7FFFFFFF#32) else t)

/-- PORT_MODE_RESTART: a write of PORT_MODE with RESTART 1. -/
def execPortModeRestart (port : BitVec 4) (val : Word) (s : State) : Host.Outcome State Fault Refusal :=
  let n := port.toNat
  .next (s.bar fun t => if t.portOpen n then t.writePortMode n (val ||| 0x20000000#32) else t)

/-- PORT_CUSTOM_WRITE (R50): a write of a band register sends CUSTOM_DEF; it needs the right of RWI fields (R10). -/
def State.writeCustom (s : State) (n : Nat) (b : Bool) (k : Nat) (v : Word) : State :=
  let a := if b then A.PORT_CUSTOM_B n k else A.PORT_CUSTOM_A n k
  let s := s.putWord a v
  if s.eocOpen n then s.sendCustom n b else s

/-- PORT_DISABLE (R146, R147). -/
def execPortDisable (slot : BitVec 6) (s : State) : Host.Outcome State Fault Refusal :=
  let k := slot.toNat
  let n := s.param k 0 % 16
  let w1 := s.param k 1 % 65536
  let limit := if w1 = 0xFFFF then s.get (F.PORT_PAD_CFG_DRAIN_MS n) else min 1000 w1
  .next (
    if !s.taken k 0x51 then s
    else if s.nPorts ≤ n then s.complete k stInvalid 0 []
    else if s.flag (F.PORT_PAD_STATE_DRAINING n) then s.complete k stBusy 0 []
    else
      let s := s.put (F.PORT_MODE_ENABLE n) 0
      if s.up n then (s.begin k []).beginDrain n limit 1 (k + 1)
      else (s.disableDown n).complete k stOk 0 [])

/-- DRAIN_END (R146): the paddocks or the buffer are empty, or the drain limit passes. -/
def execDrainEnd (port : BitVec 4) (s : State) : Host.Outcome State Fault Refusal :=
  let n := port.toNat
  .next (match (s.pd n).drainEnd with
    | some t =>
      if !s.flag (F.PORT_PAD_STATE_DRAINING n) then s
      else if s.drained n then s.endDrain n
      else (s.timeTo t).endDrain n
    | none => s)

/-! ## Legacy modes (R113, R143, R19) -/

/-- LEGACY_LINK_UP: the clause's start-up completes. `forced` says that the partner runs a forced mode too, and in which role: a forced
port links only with the same mode in the opposite role, and a port that negotiated only with a partner that did (R113). `needs`: the
partner needs OAM, which the device does not have (R5, R114). -/
def execLegacyLinkUp (port : BitVec 4) (forced : Option (BitVec 3 × Bool)) (needs : Bool) (s : State) :
    Host.Outcome State Fault Refusal :=
  let n := port.toNat
  let m := (s.ln n).target
  let meets := match forced with
    | none => decide (s.an n = 3)
    | some (fm, slave) => decide (s.an n = 7) && decide (fm.toNat + 1 = m) && slave != (s.ln n).slave
  .next (if meets && !s.sweeps n && !(needs && decide (3 ≤ m)) && decide (1 ≤ m) && decide (m ≤ 5) && s.placed n false then
      let s := s.modLn n fun l => { l with ident := [] }
      let s := s.each [F.PORT_PARTNER_INFO_PART n, F.PORT_PARTNER_INFO_PPORT n, F.PORT_PARTNER_INFO_STEP n, F.PORT_PARTNER_INFO_AUTH n,
        F.PORT_ILM_STATE_VERSION n] fun t f => t.put f 0
      s.linkUp n m
    else s)

/-- LEGACY_FRAME_RECEIVED: through the rate adaptation buffer to the host lane, or discarded where the buffer is full. -/
def execLegacyFrameReceived (port : BitVec 4) (bytes : Bytes) (errored : Bool) (s : State) : Host.Outcome State Fault Refusal :=
  let n := port.toNat
  .next (
    if !s.upLegacy n then s
    else s.fromLine n bytes errored)

/-! ## Host lanes (R299 to R302, R433) -/

/-- The detector bits of a lane that no longer hold once detector `d` declares: 0 signal, 1 CDR, 2 block lock, 3 FEC lock;
the lock depends on the detectors before it. -/
def laneDetectors (m d : Nat) : List Fld :=
  [F.HL_STATUS_SIGNAL m, F.HL_STATUS_CDR_LOCK m, F.HL_STATUS_BLOCK_LOCK m, F.HL_STATUS_FEC_LOCK m].drop d

/-- A lane becomes lost (R299, R300, R302); a frame in progress ends with ABORT. -/
def State.loseLane (s : State) (m d : Nat) (partialFrame : Option Bytes) : State :=
  if !s.flag (F.HL_STATUS_LOCKED m) then s else
  let n := s.get (F.HL_CFG_PORT m)
  let s : State := match partialFrame with
    | none => s
    | some bs =>
      let s := s.count (F.HL_RX_ABORT_COUNT m) 1
      if n < s.nPorts && s.up n then s.acceptFrame n bs true false else s
  let s := s.each (F.HL_STATUS_LOCKED m :: laneDetectors m d) fun t f => t.put f 0
  let s := s.put (F.HL_STATUS_RF_SENDING m) (b2n (s.flag (F.HL_CFG_RF_ON_LOSS m) && !s.flag (F.HL_STATUS_LF_SENDING m)))
  (((s.count (F.HL_LOSS_EVENTS_COUNT m) 1).cenLane m 0x09 1).modHl m fun l => { l with waitIdle := true }).raiseHlLoss m

/-- LANE_LOSS: the detector that declares, the received amplitude in mVppd, and the frame in progress. A signal above 70 mVppd
is not lost (R433). -/
def execLaneLoss (lane : BitVec 4) (det : BitVec 2) (mv : BitVec 16) (frame : Option Bytes) (s : State) :
    Host.Outcome State Fault Refusal :=
  let m := lane.toNat
  .next (if m < s.nPorts && s.coreOn && s.get (F.HL_CFG_RATE m) ≠ 0 && !(det.toNat = 0 && 70 ≤ mv.toNat) then
      s.loseLane m det.toNat frame
    else s)

/-- LANE_RELOCK (R301): the lane locks; a frame in progress at lock is discarded up to its end. `ppm` is the host's reference
against HREFCLK in 2 ppm steps. Signal is present above 150 mVppd. -/
def execLaneRelock (lane : BitVec 4) (mv : BitVec 16) (midFrame : Bool) (ppm : BitVec 8) (s : State) :
    Host.Outcome State Fault Refusal :=
  let m := lane.toNat
  .next (if m < s.nPorts && s.coreOn && s.get (F.HL_CFG_RATE m) ≠ 0 && !s.flag (F.HL_STATUS_LOCKED m) &&
        s.flag F.CLK_STATUS_HREF_GOOD && (150 < mv.toNat || s.flag (F.HL_STATUS_SIGNAL m)) then
      let s := s.each [(F.HL_STATUS_LOCKED m, 1), (F.HL_STATUS_SIGNAL m, 1), (F.HL_STATUS_CDR_LOCK m, 1), (F.HL_STATUS_BLOCK_LOCK m, 1),
        (F.HL_STATUS_FEC_LOCK m, s.get (F.HL_CFG_FEC m)), (F.HL_STATUS_RF_SENDING m, 0), (F.HL_STATUS_PPM m, ppm.toNat)]
        fun t e => t.put e.1 e.2
      (s.when midFrame fun t => t.count (F.HL_RX_RESUME_DISC_COUNT m) 1).modHl m fun l => { l with waitIdle := midFrame }
    else s)

end Sys2Proof.Machine
end

