-- ==== Sys2Proof/Machine/MemRows.lean ====
section
/-!
DEFINITION. The controllers of the stack at work: requests, refresh, the tally table, lame pseudo-channels and the gleaner
(chapter 9, R268 to R271, R293).
-/
namespace Sys2Proof.Machine

/-! ## Requests (R242 to R246, R263, R266, R274) -/

/-- The session in force may read, or with `wr` write, a partition of a type (Table 11-4). -/
def State.bar2May (s : State) (ty : Nat) (wr : Bool) : Bool :=
  match ty with
  | 1 => if wr then s.lc = 0 else s.may 3
  | 2 => !wr && s.may 1
  | 3 => if wr then s.lc = 0 else s.may 2 || (s.censusOp && s.may 1)
  | _ => s.may 1

/-- A requester reaches partitions of a type (Table 9-3); the control port's window those that the session's role allows. -/
def State.reaches (s : State) (req ty : Nat) (wr : Bool) : Bool :=
  if req < 0x20 then decide (req / 2 < s.nPorts) && decide (ty = 1)
  else if req = 0x20 then decide (ty = 2)
  else if req = 0x21 then decide (ty = 3)
  else if req = 0x22 then s.bar2May ty wr
  else decide (req = 0x23)

/-- The controllers of a channel serve nothing: in self-refresh, or quiesced by a structural apply (Table 2-14). -/
def State.stackHeld (s : State) (pc : Nat) : Bool :=
  s.selfRefresh (pc / 2) || decide (s.apply.stage = 5) || decide (s.apply.stage = 6)

/-- Serve one request and answer it. -/
def State.serveReq (s : State) (pc : Nat) (q : MemReq) : State :=
  if q.wr then
    if s.fenced pc then s.answerFenced pc q.req true
    else (s.writeUnit q pc q.page q.hint).emit (.memAnswer q.req outClean [])
  else
    let (t, out, bs) := s.unitGet q pc q.page q.hint
    if out = outFenced then t else t.emit (.memAnswer q.req out bs)

/-- QDEPTH of a pseudo-channel reads the requests queued; those of requesters that wait for a place stand behind the first 64
(R244). -/
def State.showQueue (s : State) (pc : Nat) : State :=
  s.put (F.MEM_PC_STATE_QDEPTH (pc / 2) (pc % 2)) (min 64 (s.pc pc).queue.length)

/-- Serve the requests that waited, in the order in which they reached the queue (R243). A pseudo-channel that freezes
answers the rest FENCED and keeps their entries (R273, R274). -/
def State.serveQueue (s : State) (pc : Nat) : State :=
  let (t, _) := (s.pc pc).queue.foldl (fun (r : State × Bool) q =>
    let u := r.1.serveReq pc q
    (if r.2 || u.frozen pc then u else u.modPc pc fun p => { p with queue := p.queue.drop 1 }, r.2 || u.frozen pc)) (s, s.frozen pc)
  t.showQueue pc

/-- Serve every queue that the controllers may serve. -/
def State.serveQueues (s : State) : State :=
  s.each (List.range s.nPcs) fun t pc => if t.stackHeld pc || (t.pc pc).queue = [] || t.frozen pc then t else t.serveQueue pc

/-- MEM_REQUEST (R242): the address is translated under the partition's map order and the request served, or queued while
the controllers serve nothing. `upsets` are bits that the cells of the row have lost since they were last read. -/
def execMemRequest (req : BitVec 6) (part : BitVec 4) (addr : BitVec 40) (en : BitVec 64) (wr : Bool) (data : Bytes)
    (hint capped full : Bool) (upsets : List (BitVec 10 × BitVec 13)) (s : State) : Host.Outcome State Fault Refusal :=
  let k := part.toNat
  let a := addr.toNat / 64 * 64
  .next (
    if !(s.coreOn && s.partValid k && decide (a < s.partBytes k) && decide (en ≠ 0) &&
        s.reaches req.toNat (s.get (F.FAB_PART_TYPE k)) wr) then s else
    let (q, pc) := s.unitReq req.toNat k a en.toNat wr data
    let q := { q with page := s.get (F.FAB_PART_PAGE k), hint := hint }
    let (c, p) := pcIdx pc
    let held := s.stackHeld pc && !s.fenced pc
    let full := full || (held && decide (64 ≤ (s.pc pc).queue.length))
    let s := s.when full fun t => (t.count (F.MEM_QFULL_COUNT c p) 1).cenPc pc 0x0A 1
    if held then (s.modPc pc fun x => { x with queue := x.queue ++ [q] }).showQueue pc
    else
      let s := s.when (capped && !s.fenced pc) fun t => (t.count (F.MEM_CAPPED_COUNT c p) 1).cenPc pc 9 1
      let s := s.upset pc q.bank ((s.bk pc q.bank).physRow q.row) (upsets.map fun e => (e.1.toNat, e.2.toNat))
      s.serveReq pc q)

/-- MEM_CMD_PARITY_ERROR (R273): the core die reports a command or address parity error on a pseudo-channel; `q` names the
command that failed. -/
def execMemCmdParityError (pc : BitVec 5) (req : BitVec 6) (bank : BitVec 4) (row : BitVec 15) (unit : Option (BitVec 4))
    (s : State) : Host.Outcome State Fault Refusal :=
  let i := pc.toNat
  let q : MemReq := { req := req.toNat, bank := bank.toNat, row := row.toNat, unit := (unit.map (·.toNat)).getD 0 }
  .next (
    if !(s.coreOn && decide (i < s.nPcs)) || s.fenced i || s.selfRefresh (i / 2) then s
    else
      let cmd : MemCmd := { cmd := if unit.isSome then 1 else 0, bank := q.bank, unit := q.unit, req := q.req, row := q.row }
      (s.issue i cmd).freeze i 2 q unit.isSome)

/-! ## Refresh and power-down (R248 to R253) -/

/-- Refresh runs in the channel: not retired, its controllers clocked (R250). -/
def State.refreshes (s : State) (pc : Nat) : Bool :=
  s.coreOn && decide (pc < s.nPcs) && decide (s.chRole (pc / 2) < 2) && !s.selfRefresh (pc / 2)

/-- One refresh of a bank (R248): the open row closes, a pending neighbour refresh goes first, and the bank's next four rows
are restored. A channel whose reading has fallen below 83 °C leaves hot refresh here (R249). -/
def State.refreshBank (s : State) (pc b : Nat) : State :=
  let c := pc / 2
  let s := ((s.wakePc pc 0x3F).neighbourRefresh pc b).closeRow pc b 0x3F
  let x := s.bk pc b
  let s := (s.issue pc { cmd := 4, bank := b, row := 4 * x.refNext, req := 0x3F }).cenPc pc 5 1
  let s := s.modBk pc b fun y => { y with refNext := (y.refNext + 1) % 8192, catchup := y.catchup - 1 }
  let cool := match s.chanTemp c with | some t => decide (t < 332) | none => false
  if s.flag (F.MEM_CH_STATE_HOT c) && cool then
    ((s.put (F.MEM_CH_STATE_HOT c) 0).put (F.MEM_CH_STATE_CATCHUP c) 0).each (List.range 32) fun t j =>
      t.modBk (2 * c + j / 16) (j % 16) fun y => { y with catchup := 0 }
  else if s.flag (F.MEM_CH_STATE_CATCHUP c) &&
      (List.range 32).all fun j => decide ((s.bk (2 * c + j / 16) (j % 16)).catchup = 0) then s.put (F.MEM_CH_STATE_CATCHUP c) 0
  else s

/-- REFRESH_DUE (R248): an interval of a bank ends. `how` says what the queue allows: 0 the refresh is issued, 1 requests
are queued for the bank and it is postponed, up to 4 intervals, 2 the bank is idle and one is issued that is not yet due, up to 4. -/
def execRefreshDue (pc : BitVec 5) (bank : BitVec 4) (how : BitVec 2) (s : State) : Host.Outcome State Fault Refusal :=
  let i := pc.toNat
  let b := bank.toNat
  let x := s.bk i b
  .next (
    if !s.refreshes i then s
    else if how = 2 then
      if x.postpone ≠ 0 then (s.modBk i b fun y => { y with postpone := y.postpone - 1 }).refreshBank i b
      else if x.pulled < 4 then (s.modBk i b fun y => { y with pulled := y.pulled + 1 }).refreshBank i b
      else s
    else if x.pulled ≠ 0 then s.modBk i b fun y => { y with pulled := y.pulled - 1 }
    else if how = 1 && decide (x.postpone < 4) then s.modBk i b fun y => { y with postpone := y.postpone + 1 }
    else if x.postpone = 4 then (s.count (F.MEM_REF_LIMIT_COUNT (i / 2) (i % 2)) 1).refreshBank i b
    else s.refreshBank i b)

/-- TALLY_PERIOD_END (R251): the tally period of a channel ends, and every entry of its tables is cleared. -/
def execTallyPeriodEnd (ch : BitVec 4) (s : State) : Host.Outcome State Fault Refusal :=
  let c := ch.toNat
  .next (
    if !s.refreshes (2 * c) then s
    else s.each (List.range 32) fun t j => t.modBk (2 * c + j / 16) (j % 16) fun y => { y with tally := [] })

/-- PAGE_IDLE_EXPIRY (R245): PAGE_IDLE has passed with no request for the bank's open row, which closes. -/
def execPageIdleExpiry (pc : BitVec 5) (bank : BitVec 4) (s : State) : Host.Outcome State Fault Refusal :=
  .next (if s.refreshes pc.toNat then s.closeRow pc.toNat bank.toNat 0x3F else s)

/-- DROWSE_POWER_DOWN (R253): in Drowse, a pseudo-channel whose queue has been empty for 1 µs enters power-down. -/
def execDrowsePowerDown (pc : BitVec 5) (s : State) : Host.Outcome State Fault Refusal :=
  let i := pc.toNat
  .next (
    if decide (s.pwr.mode = 1) && s.refreshes i && decide ((s.pc i).queue = []) && !(s.pc i).powerDown then
      let t := s.each (List.range 16) fun t b => t.closeRow i b 0x3F
      ((t.issue i { cmd := 6, req := 0x3F }).modPc i fun p => { p with powerDown := true }).put (F.MEM_CH_STATE_POWER_DOWN (i / 2)) 1
    else s)

/-! ## Lame pseudo-channels (R256, R257) -/

/-- Insert into an ascending list. -/
def insertNat (x : Nat) : List Nat → List Nat
  | [] => [x]
  | y :: ys => if x ≤ y then x :: y :: ys else y :: insertNat x ys

/-- Twice the median of a list of numbers: the middle one, or the mean of the two in the middle. -/
def median2 (l : List Nat) : Nat :=
  let m := l.foldr insertNat []
  let n := m.length
  m.getD ((n - 1) / 2) 0 + m.getD (n / 2) 0

/-- Judge a qualifying pseudo-channel against twice the median. -/
def State.judgeLame (s : State) (m2 pc mean : Nat) : State :=
  let (c, p) := pcIdx pc
  let run := s.get (F.MEM_PC_STATE_LAME_RUN c p)
  let lame := s.flag (F.MEM_PC_STATE_LAME c p)
  let hit := if lame then decide (4 * mean ≤ 3 * m2) else decide (m2 < mean)
  if !hit then s.put (F.MEM_PC_STATE_LAME_RUN c p) 0
  else if run + 1 < 10 then s.put (F.MEM_PC_STATE_LAME_RUN c p) (run + 1)
  else
    let s := (s.put (F.MEM_PC_STATE_LAME_RUN c p) 0).put (F.MEM_PC_STATE_LAME c p) (b2n !lame)
    if lame then s else (s.count (F.MEM_LAME_MARKS_COUNT c p) 1).raise (Ev.memLame c)

/-- LAME_WINDOW (R256): a window of 100 µs ends; `stats` gives each pseudo-channel's requests served and mean service latency
in ns. -/
def execLameWindow (stats : List (BitVec 16 × BitVec 16)) (s : State) : Host.Outcome State Fault Refusal :=
  let st (i : Nat) : Nat × Nat := match stats[i]? with | some e => (e.1.toNat, e.2.toNat) | none => (0, 0)
  .next (
    if !(s.coreOn && s.flag F.FAB_SCHED_CFG_LAME_EN) || s.selfRefresh 0 then s else
    let pcs := s.inService.filter fun i => !s.frozen i
    let s := s.each pcs fun t i => t.put (F.MEM_PC_STATE_LAT_NS (i / 2) (i % 2)) (st i).2
    let q := pcs.filter fun i => decide (256 ≤ (st i).1)
    let s := s.put F.FAB_LAT_MEDIAN_QUALIFIED q.length
    let m2 := median2 (q.map fun i => (st i).2)
    let s := if q.length < 8 then s
      else (s.put F.FAB_LAT_MEDIAN_NS (m2 / 2)).each q fun t i => t.judgeLame m2 i (st i).2
    s.each (List.range s.nPorts) State.lameSwap)

/-! ## The gleaner (R267 to R271, R293) -/

/-- The TSVs whose bits a unit's read corrected, numbered as the flip mask (R260, R272). -/
def correctedTsvs (unit : Nat) (l : List (Nat × ByteRead)) : List Nat :=
  (l.filterMap fun e => match e.2 with
    | .corrected _ b =>
      let k := (e.1 - 64 * unit) % 8
      some (if b < 8 then 8 * k + b else 64 + 8 * (b - 8) + k)
    | _ => none).eraseDups

/-- Enter a unit in MEM_UE_LOG, the newest at k = 0. -/
def State.logUe (s : State) (pc b r u : Nat) : State :=
  let (c, p) := pcIdx pc
  let s := s.each [6, 5, 4, 3, 2, 1, 0] fun t k => t.putWord (A.MEM_UE_LOG c p (k + 1)) (t.word (A.MEM_UE_LOG c p k))
  s.putWord (A.MEM_UE_LOG c p 0)
    (BitVec.ofNat 32 (2 ^ 28 * b + 2 ^ 24 * u + 512 * r + s.get (F.MEM_GLEAN_LAP_LAPS c p) % 512))

/-- A unit that the gleaner found uncorrectable (R269): bytes that decode are written back, the others poisoned. -/
def State.poisonUnit (s : State) (pc b r u : Nat) (l : List (Nat × ByteRead)) : State :=
  let (c, p) := pcIdx pc
  let bytes := unitBytes u l
  let en := listMask ((l.filter fun e => match e.2 with | .clean _ => true | .corrected _ _ => true | _ => false).map fun e => e.1 - 64 * u)
  let bad := (l.filter fun e => e.2 = .ue).map (·.1)
  let s := s.writeUnit { req := 0x24, bank := b, row := r, unit := u, wr := true, en := en, data := bytes } pc 2 false
  let s := s.each bad fun t col => t.storePoison (cellAddr pc b ((t.bk pc b).physRow r) col)
  let first := !(s.pc pc).lapUe
  let s := (((s.count (F.MEM_UE_SCRUB_COUNT c p) 1).logUe pc b r u).markPc 1 pc fun q => q = r / 4).modPc pc fun x =>
    { x with lapUe := true, spareDue := if x.spareDue.contains (32768 * b + r) then x.spareDue else x.spareDue ++ [32768 * b + r] }
  if first then s.raise (Ev.memScrubUe c) else s

/-- The gleaner's work on one unit (R269). -/
def State.gleanUnit (s : State) (pc b r u : Nat) : State :=
  let q : MemReq := { req := 0x24, bank := b, row := r, unit := u, en := 2 ^ 64 - 1 }
  let l := s.readCells pc b ((s.bk pc b).physRow r) (unitCols u (2 ^ 64 - 1))
  let (s, out, bytes) := s.readUnit q pc 2 false
  if out = outClean || out = outPoison then s else
  let s := s.modPc pc fun x => { x with lapErr := x.lapErr ||| (1 <<< b) }
  if out = outUe then s.poisonUnit pc b r u l
  else
    let s := s.writeUnit { q with wr := true, data := bytes } pc 2 false
    let key := 32768 * b + r
    s.modPc pc fun x => { x with
      corrNow := if x.corrNow.contains key then x.corrNow else x.corrNow ++ [key],
      spareDue := if x.corrPrev.contains key && !x.spareDue.contains key then x.spareDue ++ [key] else x.spareDue,
      tsvHits := (correctedTsvs u l).foldl (fun t k => Tbl.set t 0 k (Tbl.get t 0 k + 1)) x.tsvHits }

/-- The gleaner fills the row (R267) and moves the watermark over it. -/
def State.fillRow (s : State) (pc b r : Nat) : State :=
  let x := s.bk pc b
  if x.filled then s
  else if r = 32767 && x.water = 32767 then
    (s.modBk pc b fun y => { y with water := 32768, filled := true, fillMap := [] }).setFillDone pc
  else s.modBk pc b fun y => { y with water := if y.water = r then r + 1 else y.water }

/-- A lap ends (R270, R293): its time and count, TSVs due for steering, and suspect banks that showed no error. -/
def State.endLap (s : State) (pc : Nat) : State :=
  let (c, p) := pcIdx pc
  let x := s.pc pc
  let t100 := min 65535 ((s.time - x.lapStart) / 100000000)
  let s := ((s.put (F.MEM_GLEAN_LAP_LAPS c p) (s.get (F.MEM_GLEAN_LAP_LAPS c p) + 1)).put (F.MEM_GLEAN_LAP_LAST_100MS c p) t100).put
    (F.MEM_INTEG_STATE_GLEAN_ACTIVE c p) 0
  let s := s.put (F.MEM_INTEG_STATE_SUSPECT c p) (s.get (F.MEM_INTEG_STATE_SUSPECT c p) &&& x.lapErr)
  s.modPc pc fun x => { x with
    gleanPos := 0, fillLap := false, lapUe := false, lapAlarm := false, lapErr := 0, corrPrev := x.corrNow, corrNow := [],
    tsvDue := x.tsvDue ++ ((x.tsvHits.filter fun e => decide (1024 < e.2) && !x.tsvDue.contains e.1).map (·.1)), tsvHits := [] }

/-- The gleaner laps the pseudo-channel: in service or reserve, not frozen, not being trained, its controllers clocked. -/
def State.gleans (s : State) (pc : Nat) : Bool := s.refreshes pc && !s.frozen pc && !(s.pc pc).retrain && !s.stackHeld pc

/-- GLEANER_ROW (R268): the next row of the lap. In a fill lap a row that is not filled is written; a suspect bank's row is
read back as well (R293). -/
def execGleanerRow (pc : BitVec 5) (upsets : List (BitVec 10 × BitVec 13)) (s : State) : Host.Outcome State Fault Refusal :=
  let i := pc.toNat
  .next (
    if !s.gleans i then s else
    let (c, p) := pcIdx i
    let x := s.pc i
    let b := x.gleanPos % 16
    let r := x.gleanPos / 16
    let s := if x.fillLap || decide (x.rowAt = 0) then s else s.timeTo (x.rowAt + 1000 * s.get F.FAB_INTEG_CFG_PACE)
    let s := if x.gleanPos = 0 then s.modPc i fun y => { y with lapStart := s.time } else s
    let s := ((s.put (F.MEM_INTEG_STATE_GLEAN_ACTIVE c p) 1).cenFab 0x0B 1).modPc i fun y =>
      { y with rowAt := s.time, gleanPos := y.gleanPos + 1 }
    let s := if x.fillLap then s.fillRow i b r else s
    let s :=
      if x.fillLap && !s.suspect i b then s
      else
        let s := s.upset i b ((s.bk i b).physRow r) (upsets.map fun e => (e.1.toNat, e.2.toNat))
        (s.each (List.range 16) fun t u => t.gleanUnit i b r u).closeRow i b 0x24
    if x.gleanPos = 524287 then s.endLap i else s)

/-- LAP_ALARM (R270): a lap has run for longer than LAP_ALARM seconds, 0 acting as 1. -/
def execLapAlarm (pc : BitVec 5) (s : State) : Host.Outcome State Fault Refusal :=
  let i := pc.toNat
  .next (
    if decide (i < s.nPcs) && s.coreOn && s.flag (F.MEM_INTEG_STATE_GLEAN_ACTIVE (i / 2) (i % 2)) && !(s.pc i).lapAlarm then
      ((s.timeTo ((s.pc i).lapStart + 1000000000 * max 1 (s.get F.FAB_INTEG_CFG_LAP_ALARM))).modPc i fun y =>
        { y with lapAlarm := true }).raise Ev.fabLapAlarm
    else s)

/-- AUTO_REPAIR (R271): the herder spares a row, or steers a TSV, that is due for it. `nvFail` says that the write of the
repair record fails. -/
def execAutoRepair (pc : BitVec 5) (nvFail : Bool) (s : State) : Host.Outcome State Fault Refusal :=
  let i := pc.toNat
  .next (
    if !(s.flag F.FAB_INTEG_CFG_AUTO_REPAIR && s.herderRuns && s.gleans i) then s
    else
      match (s.pc i).spareDue, (s.pc i).tsvDue with
      | key :: ks, _ =>
        let s := s.modPc i fun x => { x with spareDue := ks }
        match (s.bk i (key / 32768)).freeSpare with
        | some k => s.spareRow i (key / 32768) (key % 32768) k nvFail
        | none => s
      | [], t :: ts =>
        let s := s.modPc i fun x => { x with tsvDue := ts }
        match s.freeTsv i with
        | some k => if nvFail then s else s.steerTsv i t k
        | none => s
      | [], [] => s)

end Sys2Proof.Machine
end

