-- ==== Sys2Proof/Machine/Layout.lean ====
section
/-!
DEFINITION. The layout of the stack: the in-service list, partitions, re-lay, retirement, and the start of a structural
apply (R239, R240, R265, R287 to R289, R36, Table 2-14).
-/
namespace Sys2Proof.Machine

/-! ## Partitions -/

/-- A partition: its number in FAB_PART, and its fields (Table 2-8). -/
structure PartE where
  idx  : Nat
  ty   : Nat
  map  : Nat
  page : Nat
  base : Nat
  size : Nat
  min  : Nat
  deriving DecidableEq, Repr

/-- The partitions of a MEMMAP section; none under the blank fold. -/
def partsOf (mm : Bytes) : List PartE :=
  (List.range (if mm = [] then 0 else u8 mm 1)).map fun i =>
    let o := 8 + 16 * i
    { idx := i, ty := u8 mm o, map := u8 mm (o + 1), page := u8 mm (o + 2), base := uLe mm (o + 4) 4, size := uLe mm (o + 8) 4,
      min := uLe mm (o + 12) 4 }

/-- The partitions in force. -/
def State.partsNow (s : State) : List PartE :=
  ((List.range 16).filter s.partValid).map fun k =>
    { idx := k, ty := s.get (F.FAB_PART_TYPE k), map := s.get (F.FAB_PART_MAP k), page := s.get (F.FAB_PART_PAGE k),
      base := s.get (F.FAB_PART_BASE_BASE_MIB k), size := s.get (F.FAB_PART_SIZE_SIZE_MIB k), min := s.get (F.FAB_PART_MIN_MIN_MIB k) }

/-- Put the partitions in force. -/
def State.setParts (s : State) (l : List PartE) : State :=
  let s := s.each (List.range 16) fun t k =>
    t.each [A.FAB_PART k, A.FAB_PART_BASE k, A.FAB_PART_SIZE k, A.FAB_PART_MIN k] fun u a => u.putWord a 0
  s.each l fun t p => t.each [(F.FAB_PART_VALID p.idx, 1), (F.FAB_PART_PAGE p.idx, p.page), (F.FAB_PART_MAP p.idx, p.map),
    (F.FAB_PART_TYPE p.idx, p.ty), (F.FAB_PART_BASE_BASE_MIB p.idx, p.base), (F.FAB_PART_SIZE_SIZE_MIB p.idx, p.size),
    (F.FAB_PART_MIN_MIN_MIB p.idx, p.min)] fun u e => u.put e.1 e.2

/-- MIN_MIB, as the least size of R289 step 2. -/
def minSize (p : PartE) : Nat := p.min

/-- No least size, as in R289 step 4. -/
def noFloor (_ : PartE) : Nat := 0

/-- Shrink the partitions of a type, in order, toward a least size, until `need` MiB are gained: what is still needed, and the
partitions. -/
def shrinkType (ty : Nat) (least : PartE → Nat) (r : Nat × List PartE) : Nat × List PartE :=
  r.2.foldl (fun (a : Nat × List PartE) p =>
    if p.ty = ty then
      let d := Nat.min a.1 (p.size - least p)
      (a.1 - d, a.2 ++ [{ p with size := p.size - d }])
    else (a.1, a.2 ++ [p])) (r.1, [])

/-- Insert a partition by BASE_MIB. -/
def insertPart (p : PartE) : List PartE → List PartE
  | [] => [p]
  | q :: qs => if p.base ≤ q.base then p :: q :: qs else q :: insertPart p qs

/-- Give partitions bases from 0, in order. -/
def basesFrom : Nat → List PartE → List PartE
  | _, [] => []
  | b, p :: ps => { p with base := b } :: basesFrom (b + p.size) ps

/-- The paddock ports of a PORTMAP in the order in which R289 holds them down: ascending PRIORITY, and among equals from the
highest number. -/
def padPorts (pm : Bytes) : List Nat :=
  (List.range 8).flatMap fun q =>
    ((List.range 16).reverse.filter fun n => (uLe pm (16 * n) 2).testBit 9 && decide (u8 pm (16 * n + 3) = q))

/-- The MiB that the ports of a PORTMAP need at their floors, without the ports held down. -/
def padFloor (pm : Bytes) (held : List Nat) : Nat :=
  ((List.range 16).map fun n =>
    let m := uLe pm (16 * n) 2
    if m = 0 || held.contains n then 0 else 1 + (if m.testBit 9 then 2 * u8 pm (16 * n + 10) else 0)).sum

/-- Pack partitions into `space` MiB as R289 steps 2 to 4 say: the partitions, and the ports held down. -/
def packParts (space : Nat) (pm : Bytes) (l : List PartE) : List PartE × List Nat :=
  let l := l.foldr insertPart []
  let r := shrinkType 1 minSize (shrinkType 3 minSize (shrinkType 4 minSize (shrinkType 2 minSize
    (((l.map (·.size)).sum - space), l))))
  if r.1 = 0 then (basesFrom 0 r.2, []) else
  let order := padPorts pm
  let pad := ((r.2.filter fun p => p.ty = 1).map (·.size)).sum
  let k := ((List.range (order.length + 1)).find? fun k => decide (padFloor pm (order.take k) + r.1 ≤ pad)).getD order.length
  let held := order.take k
  let r := shrinkType 1 (fun _ => padFloor pm held) r
  let r := shrinkType 3 noFloor (shrinkType 4 noFloor (shrinkType 2 noFloor r))
  (basesFrom 0 r.2, held)

/-! ## The in-service list (R239) -/

/-- Channels that are not retired, ascending. -/
def State.liveChans (s : State) : List Nat := (List.range s.nChans).filter fun c => !s.nv.retired.testBit c

/-- Put the in-service list in force: `chans` in service, `res` held as reserve. -/
def State.setList (s : State) (pcs : List Nat) (res : List Nat) : State :=
  let s := (s.put F.FAB_STACK_N pcs.length).put F.FAB_STACK_RESERVE_CH res.length
  let s := s.each (List.range 32) fun t i =>
    match pcs[i]? with
    | some pc => (t.put (F.FAB_PCMAP_VALID i) 1).put (F.FAB_PCMAP_PC i) pc
    | none => (t.put (F.FAB_PCMAP_VALID i) 0).put (F.FAB_PCMAP_PC i) 0
  s.each (List.range 16) fun t c => t.put (F.MEM_CH_STATE_ROLE c)
    (if s.nChans ≤ c then 3 else if s.nv.retired.testBit c then 2 else if res.contains c then 1 else 0)

/-- The list that an apply forms with `r` channels held as reserve. -/
def State.formList (s : State) (r : Nat) : List Nat × List Nat :=
  let live := s.liveChans
  let k := live.length - r
  ((live.take k).flatMap fun c => [2 * c, 2 * c + 1], live.drop k)

/-- CEN_SLOTS and CEN_STATUS for the partitions in force (R407). -/
def State.showCensus (s : State) : State :=
  match s.partOf 3 with
  | some k => ((s.put F.CEN_SLOTS_COUNT (s.partBytes k / 8192)).put F.CEN_STATUS_NO_PART 0).put F.CEN_STATUS_RUNNING
      (s.get F.CEN_CFG_ENABLE)
  | none => ((s.put F.CEN_SLOTS_COUNT 0).put F.CEN_STATUS_NO_PART 1).put F.CEN_STATUS_RUNNING 0

/-- The blocks (as q) of a pseudo-channel at list index `i` of `n` that a partition holds. -/
def blocksOf (n i : Nat) (p : PartE) : List Nat :=
  let lo := (16 * p.base + n - 1 - i) / n
  let hi := (16 * (p.base + p.size) + n - 1 - i) / n
  (List.range (hi - lo)).map (lo + ·)

/-- The always-on domain keeps the MEMMAP section and the in-service list of the fold that runs (R265). -/
def State.keepLayout (s : State) (mm : Bytes) : State := s.withAo { s.ao with memmap := mm, pcList := s.inService }

/-- Re-lay the stack (Table 2-14, R265, R289) for a MEMMAP and PORTMAP section, given the list and the partitions that were in
force. `relay` is R289's re-lay under the running fold. Ports that R289 holds down are in FAB_PAD_DOWN. -/
def State.reLay (s : State) (mm pm : Bytes) (oldList : List Nat) (oldParts : List PartE) (relay : Bool) : State :=
  let s := if relay then s
    else s.withNv { s.nv with retired := s.nv.retired &&& (65535 ^^^ (s.nv.returning &&& 65535)), returning := 0 }
  let (pcs, res) := s.formList (if relay then s.get F.FAB_STACK_RESERVE_CH else if mm = [] then 1 else u8 mm 0)
  let space := 512 * pcs.length
  let want := if relay then oldParts else partsOf mm
  let (parts, held) := if !relay && want.all fun p => decide (p.base + p.size ≤ space) then (want, []) else packParts space pm want
  let kept := if relay || pcs ≠ oldList then [] else parts.filter fun p =>
    oldParts.any fun q => q.ty = p.ty && q.map = p.map && q.base = p.base && q.size = p.size
  let s := (s.setList pcs res).setParts parts
  let s := s.each (List.range s.nPcs) fun t pc =>
    let keep := match pcs.findIdx? (· = pc) with
      | some i => kept.flatMap (blocksOf pcs.length i)
      | none => []
    t.each (List.range 16) fun u b => u.resetFill pc b keep
  let s := if kept.any fun p => p.ty = 2 then s
    else
      let t := s.withEvid { s.evid with rings := [] }
      (t.markChunks 3 fun _ _ => true).loseSegs
  (s.put F.FAB_PAD_DOWN_PORTS (listMask held)).showCensus

/-! ## A structural apply begins (R36, Table 2-14) -/

/-- The sweeps of a port are over: what they suspended resumes where it stood (R215), its times later by as long. -/
def State.endSweeps (s : State) (n : Nat) : State :=
  let d := s.time - (Tbl.get s.diag {} n).since
  let s := (s.withDiag (Tbl.set s.diag {} n {})).put (F.PORT_DIAG_STATE_RUNNING n) 0
  (s.modLn n fun l => { l with anDone := l.anDone + d, anSince := l.anSince.map (· + d) }).modTv n fun t =>
    { t with since := t.since + d, retryAt := t.retryAt + d }

/-- End the diagnostic of a port with the aborted status; with `active` its partner was heard. -/
def State.abortDiag (s : State) (n : Nat) (active : Bool) : State :=
  let d := Tbl.get s.diag {} n
  if d.slot = 0 then s else
  let s := s.endSweeps n
  s.complete (d.slot - 1) stAborted 0 [0, 2147483648 * b2n active, (s.word (A.PORT_DIAG_STATE n)).toNat]

/-- A power state entry, a clock hold or a structural apply ends every diagnostic (R216). -/
def State.abortDiags (s : State) : State := s.each (List.range s.nPorts) fun t n => t.abortDiag n false

/-- The enabled bypass pair of a PORTMAP that a port belongs to: the two ports. -/
def pairOf (pm : Bytes) (n : Nat) : Option (Nat × Nat) :=
  ((List.range 8).filterMap fun m =>
    let o := 0x120 + 4 * m
    if u8 pm (o + 2) = 1 && (u8 pm o = n || u8 pm (o + 1) = n) then some (u8 pm o, u8 pm (o + 1)) else none).head?

/-- The RATE of the lane that serves a port, in a HOSTMAP. -/
def laneRate (hm : Bytes) (n : Nat) : Nat :=
  ((List.range 16).find? fun m => u8 hm (8 * m + 1) ≠ 0 && u8 hm (8 * m) = n).elim 0 fun m => u8 hm (8 * m + 1)

/-- What a structural apply changes of a port so that it cold-trains (R36). -/
def coldChange (pm hm pm' hm' : Bytes) (n : Nat) : Bool :=
  slice pm (16 * n) 3 ≠ slice pm' (16 * n) 3 || slice pm (16 * n + 4) 2 ≠ slice pm' (16 * n + 4) 2 ||
    (u8 pm (0x100 + 8 * (n / 4))).testBit (n % 4) ≠ (u8 pm' (0x100 + 8 * (n / 4))).testBit (n % 4) ||
    pairOf pm n ≠ pairOf pm' n || laneRate hm n ≠ laneRate hm' n

/-- A port that is down when a structural apply or a power state entry takes it: its training is abandoned (R103), its kept
paddocks are flushed (R135), a search, a Traverse acquisition or a link in identity ends (R207). -/
def State.takePort (s : State) (n cause : Nat) : State :=
  (s.stopDown n cause (s.warmExpected n cause)).modLn n fun l => { l with tokenAt := none, target := 0, holdEnd := none, owed := false }

/-- Take every port down with cause FOLD (6) or POWER (7): a port that is up drains under its own DRAIN_MS. -/
def State.takePorts (s : State) (cause : Nat) : State :=
  s.each (List.range s.nPorts) fun t n =>
    if t.flag (F.PORT_PAD_STATE_DRAINING n) then t.modPd n fun p => { p with drainCause := cause, reenable := false }
    else if t.up n then t.beginDrain n (t.get (F.PORT_PAD_CFG_DRAIN_MS n)) cause 0
    else t.takePort n cause

/-- Begin a structural apply of the sections `pm` and `hm`, or R289's re-lay under the running fold: XOFF on every lane, the
host's frames held (R119), and the drains begin. Calibration runs and diagnostics end (Table 8-6, R216). -/
def State.beginApply (s : State) (pm hm : Bytes) (a : Apply) : State :=
  let ports := List.range s.nPorts
  let cold := listMask (ports.filter fun n => !a.relay && coldChange (s.sec_ 1) (s.sec_ 2) pm hm n)
  let lanes := listMask (ports.filter fun m => !a.relay && slice (s.sec_ 2) (8 * m) 8 ≠ slice hm (8 * m) 8)
  let s := (s.withApply { a with stage := 3, start := s.time, cold := cold, lanes := lanes }).put F.DEV_FOLD_STATUS_APPLY_STATE 3
  let s := s.each (ports.filter fun n => (s.laneOf n).isSome) fun t n => (t.modPd n fun p => { p with drainHold := true }).xoff n
  let free := ports.filter fun m => decide (s.get (F.HL_CFG_RATE m) ≠ 0) && decide (s.nPorts ≤ s.get (F.HL_CFG_PORT m))
  let s := (s.each free fun t m => t.laneHold m true).withApply { s.apply with held := listMask free }
  s.abandonRuns.abortDiags.takePorts 6

/-! ## Retirement (R287 to R289) -/

/-- R289's re-lay is due: it begins, or follows an apply whose own re-lay has gone by. -/
def State.relay (s : State) : State :=
  if s.apply.stage = 0 then s.beginApply (s.sec_ 1) (s.sec_ 2) { relay := true }
  else if 6 ≤ s.apply.stage then s.withApply { s.apply with again := true }
  else s

/-- The reserve channel `r` takes the list entries of the retired channel `c` (R288). -/
def State.swapIn (s : State) (c r : Nat) : State :=
  let s := s.each (List.range 32) fun t i =>
    if t.flag (F.FAB_PCMAP_VALID i) && t.get (F.FAB_PCMAP_PC i) / 2 = c then
      t.put (F.FAB_PCMAP_PC i) (2 * r + t.get (F.FAB_PCMAP_PC i) % 2)
    else t
  let s := (s.put (F.MEM_CH_STATE_ROLE r) 0).put F.FAB_STACK_RESERVE_CH (s.get F.FAB_STACK_RESERVE_CH - 1)
  let s := s.each [2 * r, 2 * r + 1] fun t pc => (t.each (List.range 16) fun u b => u.resetFill pc b []).markPc 3 pc fun _ => true
  (s.keepLayout s.ao.memmap).showFree

/-- Retire channel `c` (R287): fenced, its controllers stopped and its contents lost, recorded in NV; then the re-lay into the
reserve, or through the structural apply timeline where no reserve is left. -/
def State.retire (s : State) (c : Nat) : State :=
  if s.nChans ≤ c || s.chRole c = 2 then s else
  let was := s.chRole c
  let s := (s.put (F.MEM_CH_STATE_ROLE c) 2).withNv { s.nv with
    retired := s.nv.retired ||| (1 <<< c), returning := s.nv.returning &&& (65535 ^^^ (1 <<< c)) }
  let s := s.each [F.MEM_CH_STATE_HOT c, F.MEM_CH_STATE_CATCHUP c, F.MEM_CH_STATE_SELF_REFRESH c, F.MEM_CH_STATE_POWER_DOWN c]
    fun t f => t.put f 0
  let s := s.each [2 * c, 2 * c + 1] fun t pc =>
    let t := (t.markPc 3 pc fun _ => true).dropCells fun a => decide (a / 1024 / 65536 / 16 = pc)
    let t := (t.put (F.MEM_INTEG_STATE_FROZEN c (pc % 2)) 0).put (F.MEM_INTEG_STATE_CAUSE c (pc % 2)) 0
    let t := t.each [F.MEM_INTEG_STATE_GLEAN_ACTIVE c (pc % 2), F.MEM_INTEG_STATE_FILL_DONE c (pc % 2),
      F.MEM_INTEG_STATE_SUSPECT c (pc % 2)] fun u f => u.put f 0
    let t := t.each (List.range 16) fun u b => u.modBk pc b fun x => { ({} : Bank) with spares := x.spares }
    (t.modPc pc fun _ => {}).showQueue pc
  let s := ((s.each (List.range s.nPorts) State.relist).showFree).raise Ev.fabRetire
  if was = 1 then s.put F.FAB_STACK_RESERVE_CH (s.get F.FAB_STACK_RESERVE_CH - 1)
  else
    match (List.range s.nChans).reverse.find? fun r => s.chRole r = 1 with
    | some r => s.swapIn c r
    | none => s.relay

end Sys2Proof.Machine
end

