-- ==== Sys2Proof/Machine/MemCmds.lean ====
section
/-!
DEFINITION. Training, repair and the release of a freeze (R275 to R287, Tables 10-6 and 10-8).
-/
namespace Sys2Proof.Machine

/-! ## Training (R281 to R284) -/

/-- Load the bases of the training record (R282). -/
def State.loadBases (s : State) (pc : Nat) : State :=
  s.each (List.range 13) fun t b =>
    t.putWord (A.MEM_TRAIN_DLY (pc / 2) (pc % 2) b) (BitVec.ofNat 32 (Tbl.get t.nv.train 0 (13 * pc + b)))

/-- A sweep (R283): the bases it finds go into the registers and the training record, the trims go to 0, and T_LAST is the
current temperature. -/
def State.sweepPc (s : State) (pc : Nat) (bases : List (BitVec 8 × BitVec 8)) : State :=
  let (c, p) := pcIdx pc
  let s := s.each (List.range 13) fun t b =>
    match bases[b]? with
    | some (rd, wr) => t.withNv { t.nv with train := Tbl.set t.nv.train 0 (13 * pc + b) (wr.toNat * 256 + rd.toNat) }
    | none => t
  let s := (s.loadBases pc).each (List.range 13) fun t b => t.putWord (A.MEM_TRIM c p b) 0
  let s := (s.put (F.MEM_CAL_STATE_T_LAST c p) (s.coreTempByte c)).put (F.MEM_CAL_STATE_DUE c p) 0
  s.withCal (Tbl.set s.cal {} (16 + pc) { Tbl.get s.cal {} (16 + pc) with valid := true })

/-- Train a pseudo-channel (R282 to R284): natively, or by a sweep where MODE is 1 or an eye is too narrow. Bits without a
passing base are steered onto free spares. The result says whether training passed: a lane beyond the bases found has none that all
its bits pass. Its duration is a free value. -/
def State.trainPc (s : State) (pc : Nat) (t : Train) : State × Bool :=
  let (c, p) := pcIdx pc
  let s := (s.loadBases pc).put (F.MEM_TRAIN_STATE_TIME_US c p) (min 65535 (Config.freeMeasure s.freeCtr))
  let s := s.drawn 1
  let sweep := s.flag F.FAB_INTEG_CFG_MODE || !t.eyes
  let s := s.put (F.MEM_TRAIN_STATE_SWEPT c p) (b2n sweep)
  if !sweep then (s.put (F.MEM_TRAIN_STATE_STATE c p) 5, true)
  else
    let n := s.freeTsvs pc
    let s := s.each (t.bad.take n) fun u b => match u.freeTsv pc with | some i => u.steerTsv pc b.toNat i | none => u
    let ok := decide (t.bad.length ≤ n) && decide (13 ≤ t.bases.length)
    ((s.sweepPc pc t.bases).put (F.MEM_TRAIN_STATE_STATE c p) (if ok then 5 else 6), ok)

/-- A retrain (R285, R286): fenced, trained, and the fence lifted; a failure retires the channel. -/
def State.retrain (s : State) (pc : Nat) (t : Train) : State × Bool :=
  let s := (s.modPc pc fun x => { x with retrain := true }).each (List.range s.nPorts) State.relist
  let (s, ok) := s.trainPc pc t
  let s := (s.modPc pc fun x => { x with retrain := false }).showFree
  (if ok then s else s.retire (pc / 2), ok)

/-- MEM_RETRAIN (R285). `train` is what the training finds. -/
def execMemRetrain (slot : BitVec 6) (train : Train) (s : State) : Host.Outcome State Fault Refusal :=
  let k := slot.toNat
  let pc := s.param k 0 % 32
  .next (
    if !s.taken k 0x31 then s
    else if s.nPcs ≤ pc || s.chRole (pc / 2) = 2 || s.frozen pc then s.complete k stInvalid 0 []
    else if (s.pc pc).retrain then s.complete k stBusy 0 []
    else
      let (s, ok) := s.retrain pc train
      s.complete k (if ok then stOk else stAborted) 0 [])

/-! ## Repair (R279, R280, R287) -/

/-- The pseudo-channel can be repaired: the part has it, and its channel is not retired. -/
def State.repairable (s : State) (pc : Nat) : Bool := decide (pc < s.nPcs) && decide (s.chRole (pc / 2) ≠ 2)

/-- MEM_REPAIR OP 0 (R279). -/
def execMemRepairSpareRow (slot : BitVec 6) (nvFail : Bool) (s : State) : Host.Outcome State Fault Refusal :=
  let k := slot.toNat
  let w := s.param k 0
  let pc := w % 32
  let b := bits w 8 4
  let finish (t : State) (st : Nat) (res : List Nat) := t.completeLogged k 0x11 pc st 0 res
  .next (
    if !s.taken k 0x30 || bits w 16 2 ≠ 0 then s
    else if !s.repairable pc then finish s stInvalid []
    else
      match (s.bk pc b).freeSpare with
      | none => finish s stAborted [0, 0]
      | some i => finish (s.spareRow pc b (s.param k 1 % 32768) i nvFail) (if nvFail then stNv else stOk) [])

/-- MEM_REPAIR OP 1 (R280). -/
def execMemRepairSteerTsv (slot : BitVec 6) (nvFail : Bool) (s : State) : Host.Outcome State Fault Refusal :=
  let k := slot.toNat
  let w := s.param k 0
  let pc := w % 32
  let tsv := s.param k 1 % 128
  let finish (t : State) (st : Nat) (res : List Nat) := t.completeLogged k 0x11 (pc + 256) st 0 res
  .next (
    if !s.taken k 0x30 || bits w 16 2 ≠ 1 then s
    else if !s.repairable pc || 104 ≤ tsv then finish s stInvalid []
    else
      match s.freeTsv pc with
      | none => finish s stAborted [0, 0]
      | some i => if nvFail then finish s stNv [] else finish (s.steerTsv pc tsv i) stOk [])

/-- MEM_REPAIR OP 2, and the reserved OP 3 (Table 10-8). The channel returns to the reserve at the next structural apply. -/
def execMemRepairReturn (slot : BitVec 6) (nvFail : Bool) (s : State) : Host.Outcome State Fault Refusal :=
  let k := slot.toNat
  let w := s.param k 0
  let c := w % 32 / 2
  let op := bits w 16 2
  let finish (t : State) (st : Nat) := t.completeLogged k 0x11 (w % 32 + 256 * op) st 0 []
  .next (
    if !s.taken k 0x30 || op < 2 then s
    else if op = 3 then finish s stInvalid
    else if !s.nv.retired.testBit c then finish s stOk
    else if nvFail then finish s stNv
    else finish (s.withNv { s.nv with returning := s.nv.returning ||| (1 <<< c) }) stOk)

/-! ## Release of a freeze (R275, R276) -/

/-- The failing unit of the freeze record in force: bank, row, unit. -/
def State.frozenUnit (s : State) (pc : Nat) : Nat × Nat × Nat :=
  let bs := s.wordBytes (A.MEM_FREEZE_REC (pc / 2) (pc % 2) 0) 2
  (u8 bs 2 % 16, uLe bs 4 2 % 32768, u8 bs 3)

/-- Poison the uncorrectable bytes of a unit (R276). -/
def State.poisonUes (s : State) (pc b r u : Nat) : State :=
  let prow := (s.bk pc b).physRow r
  s.each (List.range 64) fun t i =>
    let a := cellAddr pc b prow (64 * u + i)
    let (d, c) := t.cell a
    if decodeByte d c = .ue then t.storePoison a else t

/-- Release a frozen pseudo-channel (R276), sparing the failing row onto spare `sp` where one is given. -/
def State.releasePc (s : State) (pc : Nat) (sp : Option Nat) (nvFail : Bool) : State :=
  let (c, p) := pcIdx pc
  let (b, r, u) := s.frozenUnit pc
  let s := (s.modPc pc fun x => { x with queue := [] }).showQueue pc
  let s := match sp with
    | some i => s.spareRow pc b r i nvFail
    | none => if s.get (F.MEM_INTEG_STATE_CAUSE c p) = 1 then s.poisonUes pc b r u else s
  let s := s.each (List.range 16) fun t b => t.closeRow pc b 0x3F
  ((s.put (F.MEM_INTEG_STATE_FROZEN c p) 0).put (F.MEM_INTEG_STATE_CAUSE c p) 0).showFree

/-- MEM_RELEASE (R275, Table 10-6). -/
def execMemRelease (slot : BitVec 6) (nvFail : Bool) (s : State) : Host.Outcome State Fault Refusal :=
  let k := slot.toNat
  let w := s.param k 0
  let pc := w % 32
  let act := bits w 8 2
  let none_ := 0xFFFFFFFF
  let finish (t : State) (st sp : Nat) : State :=
    if act = 1 || act = 2 then t.completeLogged k 0x11 (pc + 256 * act) st 0 [0, sp] else t.complete k st 0 [0, sp]
  .next (
    if !s.taken k 0x32 then s
    else if act = 3 || s.nPcs ≤ pc then finish s stInvalid 0
    else if !s.frozen pc then finish s stOk none_
    else if !s.flag (F.MEM_INTEG_STATE_REC_READ (pc / 2) (pc % 2)) then finish s stInvalid 0
    else if act = 2 then finish (s.retire (pc / 2)) stOk none_
    else if act = 1 then
      match (s.bk pc (s.frozenUnit pc).1).freeSpare with
      | none => finish s stAborted none_
      | some i => finish (s.releasePc pc (some i) nvFail) (if nvFail then stNv else stOk) i
    else finish (s.releasePc pc none nvFail) stOk none_)

/-- FREEZE_AUTO_RELEASE (R275): AUTO_REL has passed since the freeze. -/
def execFreezeAutoRelease (pc : BitVec 5) (nvFail : Bool) (s : State) : Host.Outcome State Fault Refusal :=
  let i := pc.toNat
  let rel := s.get F.FAB_INTEG_CFG_AUTO_REL
  .next (
    if !(s.coreOn && decide (i < s.nPcs) && s.frozen i) || rel = 0 || s.selfRefresh (i / 2) then s else
    let at_ := s.wide (A.MEM_FREEZE_REC (i / 2) (i % 2) 4)
    let s := s.timeTo (at_ + 100000000 * rel)
    let sp := if s.get (F.MEM_INTEG_STATE_CAUSE (i / 2) (i % 2)) = 1 then (s.bk i (s.frozenUnit i).1).freeSpare else none
    s.releasePc i sp nvFail)

end Sys2Proof.Machine
end

