-- ==== Sys2Proof/Machine/Position.lean ====
section
/-!
DEFINITION. The odometer, the position and its fixes, and the piste map (chapter 6).
-/
namespace Sys2Proof.Machine

/-! ## Who leads (R168, R169) -/

/-- A port's claim to lead (Table 6-2). -/
def State.claimOf (s : State) (n : Nat) : Bool :=
  let fwd := s.flag F.POS_STATE_CAR_FWD
  match s.get (F.PISTE_PORT_LEAD_OVR n) with
  | 1 => true
  | 2 => false
  | _ => s.pos.moved && match s.get (F.PISTE_PORT_FACING n) with | 1 => !fwd | 2 => fwd | _ => false

/-- Form the claim of a port, tell the partner of a change, and work out who leads. -/
def State.claimPort (s : State) (n : Nat) : State :=
  let c := s.takesPart n && s.claimOf n
  if c = s.flag (F.PISTE_PORT_CLAIM n) then s else
  let s := ((s.put (F.PISTE_PORT_CLAIM n) (b2n c)).modLn n fun l => { l with leadLeft := 3 }).leadCheck n
  if c && (s.ln n).leadSeen && s.flag (F.PISTE_PORT_PARTNER_CLAIM n) then s.raise (Ev.portLeadConflict n) else s

/-- Form the claim of every port. -/
def State.claims (s : State) : State := s.each (List.range s.nPorts) State.claimPort

/-- FIX_VALID changes: the ends that take part send PISTE_LEAD (R169). -/
def State.setFix (s : State) (v : Bool) : State :=
  if v = s.flag F.POS_STATE_FIX_VALID then s else
  let s := s.put F.POS_STATE_FIX_VALID (b2n v)
  s.each ((List.range s.nPorts).filter s.takesPart) fun t n => t.modLn n fun l => { l with leadLeft := 3 }

/-! ## The position counter (R155 to R157) -/

/-- The accumulator, in 2^-24 mm. -/
def State.posAcc (s : State) : Int := s.posMm * 16777216 + s.pos.frac

/-- Put the accumulator, which saturates at either end of the 40-bit range and then clears FIX_VALID (R156). -/
def State.putAcc (s : State) (a : Int) : State :=
  let b := max (-(2 ^ 63)) (min (2 ^ 63 - 1) a)
  let s := (s.putWide A.POS_POSITION (unsigned 64 (b / 16777216))).withPos { s.pos with frac := (b % 16777216).toNat }
  if a = b then s else s.setFix false

/-- Show whether the active table's route is that of the last fix. -/
def State.routeMatch (s : State) : State :=
  s.put F.PISTE_STATUS_ROUTE_MATCH
    (b2n (decide (s.get F.POS_ROUTE_ROUTE ≠ 0) && decide (s.get F.POS_ROUTE_ROUTE = s.get F.PISTE_TABLE_ROUTE_ROUTE)))

/-- REV_DM in mm; 0 acts as 1. -/
def State.revMm (s : State) : Nat := 100 * max 1 (s.get F.PISTE_CTRL_REV_DM)

/-- DIR follows the counter once it has moved REV_DM in the new direction (R157), and CAR_FWD with it: the direction of
the car's movement is DIR read with ORIENT. After a fix that turned ORIENT, CAR_FWD follows once the counter has moved REV_DM
on in the direction DIR already has (DEDUCED from R168 and Table 6-10; log entry 110). -/
def State.dirCheck (s : State) : State :=
  let x := s.posMm
  let up := s.flag F.POS_STATE_DIR
  let rev := (s.revMm : Int)
  let ahead (y : Int) : Int := if up then x - y else y - x
  if ahead s.pos.far ≤ -rev then
    let s := (s.put F.POS_STATE_DIR (b2n !up)).withPos { s.pos with far := x, turnAt := x }
    let s := s.put F.POS_STATE_CAR_FWD (b2n (!up == s.flag F.POS_STATE_ORIENT))
    ((s.count F.POS_REVERSALS_COUNT 1).raise Ev.posMotion).claims
  else
    let s := if 0 < ahead s.pos.far then s.withPos { s.pos with far := x } else s
    let fwd := up == s.flag F.POS_STATE_ORIENT
    if fwd = s.flag F.POS_STATE_CAR_FWD || decide (ahead s.pos.turnAt < 0) then s.withPos { s.pos with turnAt := x }
    else if rev ≤ ahead s.pos.turnAt then (s.put F.POS_STATE_CAR_FWD (b2n fwd)).claims
    else s

/-- Movement of the car by `d` (in 2^-24 mm along the route); the first since reset lets claims form (R168). -/
def State.moveBy (s : State) (d : Int) : State :=
  let first := !s.pos.moved && decide (d ≠ 0)
  let s := if first then s.withPos { s.pos with moved := true } else s
  let s := (s.putAcc (s.posAcc + d)).dirCheck
  if first then s.claims else s

/-- The value of POS_SCALE for PPR and WHEEL_MM (R155): pi x WHEEL_MM / (4 x PPR) in 8.24, rounded to nearest. A value
beyond 8.24 is a free value. -/
def State.setScale (s : State) : State :=
  let ppr := s.get F.POS_WHEEL_PPR
  let w := max 300 (min 1500 (s.get F.POS_WHEEL_WHEEL_MM))
  let q := (3141592653589793 * w * 16777216 / (4 * ppr) + 500000000000000) / 1000000000000000
  if ppr = 0 then s.put F.POS_SCALE_MM_PER_EDGE 0
  else if q < 4294967296 then s.put F.POS_SCALE_MM_PER_EDGE q
  else (s.put F.POS_SCALE_MM_PER_EDGE (Config.freeMeasure s.freeCtr)).drawn 1

/-- The readings of the last second, newest first, and the one before them. -/
def recentTrack (now : Nat) (l : List (Nat × Int)) : List (Nat × Int) :=
  let new (e : Nat × Int) : Bool := decide (now < e.1 + 1000000000)
  l.takeWhile new ++ (l.dropWhile new).take 1

/-- Travel along the car, counted with its time (R159). -/
def State.track (s : State) (fwd : Int) : State :=
  let o := s.pos.odo + fwd
  s.withPos { s.pos with odo := o, track := recentTrack s.time ((s.time, o) :: s.pos.track) }

/-- What the odometer had counted at a time. -/
def State.odoAt (s : State) (t : Nat) : Int :=
  match s.pos.track.find? fun e => decide (e.1 ≤ t) with
  | some e => e.2
  | none => match s.pos.track.getLast? with | some e => e.2 | none => s.pos.odo

/-- A counted edge (R154, R155, R162). -/
def State.countEdge (s : State) (fwd : Bool) : State :=
  let d : Int := s.get F.POS_SCALE_MM_PER_EDGE
  let s := ((s.count F.POS_EDGES_COUNT 1).cenFab 0x0C 1).track (if fwd then d else -d)
  let s := s.withPos { s.pos with edgeAt := s.time }
  let s := if s.flag F.POS_STATE_STOPPED then (s.put F.POS_STATE_STOPPED 0).raise Ev.posMotion else s
  s.moveBy (if fwd == s.flag F.POS_STATE_ORIENT then d else -d)

/-- An error of the odometer (R154): counted, and POS_ODO_FAULT at most once per second. -/
def State.odoError (s : State) : State :=
  let s := s.count F.POS_ODO_ERR_COUNT 1
  let due := match s.pos.faultAt with | none => true | some t => decide (t + 1000000000 ≤ s.time)
  if due then (s.withPos { s.pos with faultAt := some s.time }).raise Ev.posOdoFault else s

/-- GLITCH in ns; 0 acts as 1 (R154). -/
def State.glitchNs (s : State) : Nat := 10 * max 1 (s.get F.POS_CFG_GLITCH)

/-- ODOMETER_EDGE (R154): after `after` ns the levels of ODO_A and ODO_B become `a` and `b`, and the next edge on an input that
changed follows `stands` ns later. Within GLITCH that edge and this one cancel, and the levels stand as before (the step then
holds both edges). Two rising edges of an input less than 5 us apart are a rate above 200 kHz. -/
def execOdometerEdge (a b : Bool) (after stands : BitVec 32) (s : State) : Host.Outcome State Fault Refusal :=
  let s := s.timeOn after.toNat
  let p := s.pos
  let da := a != p.a
  let db := b != p.b
  let fast (up : Bool) (r : Option Nat) : Bool := up && match r with | some t => decide (s.time < t + 5000) | none => false
  let bad := (da && db) || fast (da && a) p.riseA || fast (db && b) p.riseB
  let fwd := (if da then a != b else a == b) != s.flag F.POS_CFG_ODO_SENSE
  let t := s.withPos { p with
    a := a, b := b, riseA := if da && a then some s.time else p.riseA, riseB := if db && b then some s.time else p.riseB }
  .next (
    if stands.toNat ≤ s.glitchNs then (if da || db then s.timeOn stands.toNat else s)
    else if !s.flag F.POS_CFG_ODO_EN || s.get F.POS_WHEEL_PPR = 0 || !(da || db) || s.pwr.held ≠ 0 then t
    else if bad then t.odoError
    else
      let t := if s.pwr.mode = 0 then t else t.withPwr { t.pwr with edges := t.pwr.edges + 1 }
      let t := t.withPos { t.pos with edges := (t.time :: t.pos.edges).take 2 }
      if s.flag F.POS_STATE_HOLD then t else t.countEdge fwd)

/-! ## Speed, hold and standstill (R158, R160 to R162) -/

/-- ACC_LIMIT; 0 acts as 1. -/
def State.accLimit (s : State) : Nat := max 1 (s.get F.POS_CFG_ACC_LIMIT)

/-- Hold ends: edges are counted again. -/
def State.endHold (s : State) : State := (s.put F.POS_STATE_HOLD 0).withPos { s.pos with edgeAt := s.time }

/-- Travel at `mms` mm/s over `dt` ns, in 2^-24 mm. -/
def travelOf (mms : Int) (dt : Nat) : Int := mms * 16777216 * dt / 1000000000

/-- The estimate of the speed in mm/s (R158): the travel of one edge over the interval between the last two edges, or over
the time since the last edge where that is longer; 0 before two edges have been seen. With ODO_EN 0 it is that of the fix
(DESIGN CHOICE, log entry 110: the manual gives no formula). At most 65,535 can be shown. -/
def State.speedNow (s : State) : Nat :=
  if !s.flag F.POS_CFG_ODO_EN then min 65535 s.pos.fixMms.natAbs
  else match s.pos.edges with
    | [u, v] =>
      let dt := max 1 (max (u - v) (s.time - u))
      min 65535 (s.get F.POS_SCALE_MM_PER_EDGE * 1000000000 / (dt * 16777216))
    | _ => 0

/-- Bring the position to the present where no edge moves it: at the speed of the last fix with ODO_EN 0 (R160), at the speed
held during hold (R161). -/
def State.extrapolate (s : State) : State :=
  let dt := s.time - s.pos.exAt
  let s := s.withPos { s.pos with exAt := s.time }
  if s.flag F.POS_STATE_HOLD then
    let d := travelOf s.pos.heldMms dt
    let fwd := s.flag F.POS_STATE_CAR_FWD
    (s.moveBy (if fwd == s.flag F.POS_STATE_ORIENT then d else -d)).track (if fwd then d else -d)
  else if !s.flag F.POS_CFG_ODO_EN && s.flag F.POS_STATE_FIX_VALID then s.moveBy (travelOf s.pos.fixMms dt)
  else s

/-- POSITION_TICK (R158, R160, R161). -/
def execPositionTick (s : State) : Host.Outcome State Fault Refusal :=
  .next (
    if !s.clocked then s else
    let s := s.timeTo (s.pos.tickAt + 1000000)
    let odo := s.flag F.POS_CFG_ODO_EN
    let s := (s.withPos { s.pos with tickAt := s.time }).extrapolate
    let before := s.pos.speeds.headD 0
    let sp := if s.flag F.POS_STATE_STOPPED then 0 else s.speedNow
    let l := (sp :: s.pos.speeds).take 101
    let acc : Int := (sp : Int) - (l.getLastD sp : Nat)
    let s := s.withPos { s.pos with speeds := l }
    let s := (s.put F.POS_SPEED_SPEED sp).put F.POS_SPEED_ACCEL (unsigned 16 (max (-32768) (min 32767 acc)))
    if s.flag F.POS_STATE_HOLD then
      let held := s.pos.heldMms
      let close := decide (sp ≤ held + 100 * s.accLimit) && decide (held ≤ sp + 100 * s.accLimit)
      let k := if close then s.pos.near + 1 else 0
      if 1000 ≤ k then s.endHold else s.withPos { s.pos with near := k }
    else if odo && decide ((10 * s.accLimit : Nat) < acc.natAbs) then
      let s := s.withPos { s.pos with heldMms := before, holdAt := s.time, near := 0 }
      ((s.put F.POS_STATE_HOLD 1).count F.POS_HOLDS_COUNT 1).raise Ev.posHold
    else s)

/-- HOLD_TIMEOUT (R161). -/
def execHoldTimeout (s : State) : Host.Outcome State Fault Refusal :=
  .next (
    if !(s.clocked && s.flag F.POS_STATE_HOLD) then s
    else ((s.timeTo (s.pos.holdAt + 10000000000)).endHold).put F.POS_STATE_DEGRADED 1)

/-- STOPPED_TIMEOUT (R162). -/
def execStoppedTimeout (s : State) : Host.Outcome State Fault Refusal :=
  .next (
    if !s.clocked || s.flag F.POS_STATE_HOLD || s.flag F.POS_STATE_STOPPED then s else
    let s := ((s.timeTo (s.pos.edgeAt + 2000000000)).put F.POS_STATE_STOPPED 1).putWord A.POS_SPEED 0
    let s := s.withPos { s.pos with saveDue := s.pos.saveDue || s.flag F.PISTE_STATUS_DIRTY, speeds := [], edges := [] }
    s.raise Ev.posMotion)

/-- FIX_AGE_EXPIRY (R160). -/
def execFixAgeExpiry (s : State) : Host.Outcome State Fault Refusal :=
  .next (
    if !s.clocked || s.flag F.POS_CFG_ODO_EN || !s.flag F.POS_STATE_FIX_VALID then s
    else (s.timeTo (s.pos.fixAt + 1000000000 * max 1 (s.get F.POS_CFG_FIX_MAX_AGE))).setFix false)

/-! ## The active table (R163, R164, R183) -/

/-- The two words of entry `i`. -/
def State.entry (s : State) (i : Nat) : Nat × Nat := (s.wide (A.PISTE_ENTRY i 0), s.wide (A.PISTE_ENTRY i 2))

/-- The valid entries, ascending. -/
def State.validEntries (s : State) : List Nat :=
  s.regs.filterMap fun e =>
    if 0xC80000 ≤ e.1 && e.1 < 0xD00000 && e.1 % 16 = 12 && e.2.getLsbD 29 then some ((e.1 - 0xC80000) / 16) else none

/-- Put the words of entry `i`. -/
def State.putEntry (s : State) (i w0 w1 : Nat) : State := (s.putWide (A.PISTE_ENTRY i 0) w0).putWide (A.PISTE_ENTRY i 2) w1

/-- PISTE_COUNT. -/
def State.showCount (s : State) : State :=
  let v := s.validEntries
  (s.put F.PISTE_COUNT_VALID v.length).put F.PISTE_COUNT_LEARNED (v.filter fun i => eLearned (s.entry i).2).length

/-- The number with a field of it replaced. -/
def withBits (v lo len x : Nat) : Nat := v - bits v lo len * 2 ^ lo + x % 2 ^ len * 2 ^ lo

/-- A host's write of word 3 of entry `i` commits all four words (R183). The reserved bits are stored as 0 (R8). An armed entry
keeps the values it armed with; one that is tracked is judged anew under its new contents (R167), its pass at an end with no
update (R175, R178). -/
def State.commitEntry (s : State) (i : Nat) (v : Word) : State :=
  let w (k : Nat) : Nat := (s.piste.shadow.getD k 0).toNat
  let w0 := w 0 + 4294967296 * w 1
  let w1 := w 2 + 4294967296 * v.toNat
  let bad := eValid w1 && !entryOk w0 w1
  let w1 := withBits (withBits w1 27 1 0) 63 1 0
  let s := (s.putEntry i w0 (if bad then withBits w1 61 1 0 else w1)).put F.PISTE_STATUS_DIRTY 1
  let s := s.withPiste { s.piste with
    armed := s.piste.armed.filterMap fun a => if a.idx ≠ i then some a else if a.track then none else some { a with stale := true }
    wait := s.piste.wait.filter fun j => decide (j ≠ i), passes := s.piste.passes.filter fun e => decide (e.1 ≠ i) }
  (if bad then s.raise Ev.devBadAccess else s).showCount

/-- A host's read of word `k` of entry `i` (R183): word 0 latches the entry. -/
def State.readEntry (s : State) (i k : Nat) : State × Word :=
  if k = 0 then
    let l := (List.range 4).map fun j => s.word (A.PISTE_ENTRY i j)
    (s.withPiste { s.piste with latch := some (i, l) }, l.headD 0)
  else (s, match s.piste.latch with | some (_, l) => l.getD k 0 | none => s.word (A.PISTE_ENTRY i k))

/-! ## Arming (R165 to R167, R175, R176) -/

/-- The span of an entry's words for a direction, with its lead and trail in m. -/
def spanOf (w0 lead trail : Nat) (up : Bool) : Int × Int :=
  let a := eStart w0
  let b := a + eLen w0
  if up then (a - 1000 * (lead : Int), b + 1000 * (trail : Int)) else (a - 1000 * (trail : Int), b + 1000 * (lead : Int))

/-- Judge an armed or tracked entry: it goes on, or it ends, its pass at an end with it. -/
def State.judgeArmed (s : State) (a : Armed) : Option Armed × List (Nat × Bool) :=
  let x := s.posMm
  let rev := (s.revMm : Int)
  let (lo, hi) := spanOf a.w0 a.lead a.trail a.up
  let below := decide (x < lo - rev)
  let above := decide (hi + rev < x)
  if a.track && !s.flag F.PISTE_CTRL_LEARN_EN then (none, [])
  else if !s.flag F.POS_STATE_FIX_VALID || !(below || above) then (some { a with jumped := false }, [])
  else (none, if !a.jumped && !a.stale && (if a.up then above else below) then [(a.idx, a.conf)] else [])

/-- The lead distance in m of an entry. -/
def State.leadM (s : State) (w1 : Nat) : Nat := if eLead w1 = 0 then max 1 (s.get F.PISTE_CTRL_LEAD_M) else eLead w1

/-- The position lies within the span of entry `i` for DIR. -/
def State.inSpan (s : State) (i : Nat) : Bool :=
  let (w0, w1) := s.entry i
  let (lo, hi) := spanOf w0 (s.leadM w1) (s.get F.PISTE_CTRL_TRAIL_M) (s.flag F.POS_STATE_DIR)
  decide (lo ≤ s.posMm) && decide (s.posMm ≤ hi)

/-- What entry `i` would be armed or tracked as now, if it is not yet. -/
def State.armsNow (s : State) (i : Nat) : Option Armed :=
  let (w0, w1) := s.entry i
  let up := s.flag F.POS_STATE_DIR
  let arms := !eLearned w1 || decide (max 1 (s.get F.PISTE_LEARN_ARM_CONF) ≤ eConf w1)
  if eDir w1 up && s.inSpan i then
    some { idx := i, up := up, w0 := w0, w1 := w1, lead := s.leadM w1, trail := s.get F.PISTE_CTRL_TRAIL_M, track := !arms }
  else none

/-- A port's boost changes (R145): it comes on top of the grains the paddock holds without it, at most 64 MiB in all, and is
short where fewer grains could be added than the entry asks for. -/
def State.setBoost (s : State) (n b : Nat) : State :=
  let p := s.pd n
  if b = p.boost then s else
  let (bt, br) := (p.txGrains.length - p.extraTx, p.rxGrains.length - p.extraRx)
  let want (base : Nat) : Nat := max base (min 1024 (base + 16 * b))
  let g := growTo (want bt) (want br)
    (p.txGrains, s.nextIndex p.txGrains (2 * n)) (p.rxGrains, s.nextIndex p.rxGrains (2 * n + 1)) s.grainPool
  let t := g.1
  let r := g.2.1
  let short := decide (t.1.length < bt + 16 * b) || decide (r.1.length < br + 16 * b)
  let s := s.modPd n fun q => { q with
    txGrains := t.1, rxGrains := r.1, boost := b, extraTx := t.1.length - bt, extraRx := r.1.length - br }
  let s := (s.put (F.PORT_PAD_STATE_BOOSTED n) (b2n (b ≠ 0))).put (F.PORT_PAD_STATE_BOOST_SHORT n) (b2n (b ≠ 0 && short))
  let s := if s.padOn n then
      s.sendEoc n 0x40 (leBytes (capacity (r.1.take (want br))) 2 ++ leBytes (capacity (t.1.take (want bt))) 2 ++ [BitVec.ofNat 8 (b2n (b ≠ 0))])
    else s
  (((s.showPad n).showFree).shrinkPad n).fillCheck n

/-- The zone state of a port (R166), and what follows from it: its boost, and a wake from low-power idle (R116). -/
def State.zonePort (s : State) (n : Nat) : State :=
  let l := s.piste.armed.filter fun a => !a.track && (ePorts a.w1).testBit n
  let z := if (s.ln n).ability.testBit 22 && !s.isV2 n then l.find? fun a => decide (eProf a.w1 ≠ 0) else none
  let s := match z with
    | some a => (s.put (F.PISTE_PORT_ZONE_PROF n) (eProf a.w1)).put (F.PISTE_PORT_ZONE_ENTRY n) a.idx
    | none => (s.put (F.PISTE_PORT_ZONE_PROF n) 0).put (F.PISTE_PORT_ZONE_ENTRY n) 0xFFFF
  let s := if l = [] then s else (s.lpiWake n).abandonCal n
  s.setBoost n (if s.upIlm n && !s.isV2 n && s.padOn n then (l.map fun a => eBoost a.w1).foldl max 0 else 0)

/-- The zone states after a change of what is armed. -/
def State.zones (s : State) : State :=
  let s := s.put F.PISTE_STATUS_ARMED (s.piste.armed.filter fun a => !a.track).length
  s.each (List.range s.nPorts) State.zonePort

/-- The piste engine judges every entry (R165, R176). An entry that must first be entered anew waits until the position has
left its span for DIR. -/
def State.judge (s : State) : State :=
  let js := s.piste.armed.map s.judgeArmed
  let kept := js.filterMap (·.1)
  let s := s.withPiste { s.piste with armed := kept, passes := s.piste.passes ++ js.flatMap (·.2) }
  let open_ := s.flag F.POS_STATE_FIX_VALID && s.flag F.PISTE_STATUS_ROUTE_MATCH && !s.flag F.PISTE_STATUS_LOADING
  let cands := if open_ then s.validEntries.filterMap s.armsNow else []
  let wait := if open_ then s.piste.wait.filter fun i => s.inSpan i && eValid (s.entry i).2 else s.piste.wait
  let new := cands.filter fun a => !kept.any (fun b => b.idx = a.idx) && !wait.contains a.idx &&
    s.flag (if a.track then F.PISTE_CTRL_LEARN_EN else F.PISTE_CTRL_ARM_EN)
  let s := s.withPiste { s.piste with armed := kept ++ new, wait := wait }
  let arms := (new.filter fun a => !a.track).length
  ((s.count F.PISTE_ARMS_COUNT arms).cenFab 0x05 arms).zones

/-- The position passes the trigger points of the rings (R401). -/
def State.posTriggers (s : State) : State :=
  let x := s.posMm
  let s := match s.piste.prev with
    | none => s
    | some y =>
      if !s.flag F.POS_STATE_FIX_VALID || x = y then s else
      let up := decide (y < x)
      s.each (List.range 4) fun t r =>
        let p := signed 40 (t.wide (A.EVID_TRIG_POS r))
        let passed := if up then decide (y < p) && decide (p ≤ x) else decide (x ≤ p) && decide (p < y)
        if passed && t.flag (F.EVID_TRIG_CFG_POS_ARM r) && (t.get (F.EVID_TRIG_CFG_DIR r)).testBit (if up then 0 else 1) &&
            t.get (F.EVID_TRIG_ROUTE_ROUTE r) = t.get F.POS_ROUTE_ROUTE then
          (t.put (F.EVID_TRIG_CFG_POS_ARM r) 0).trigger r 3
        else t
  s.withPiste { s.piste with prev := some x }

/-- PISTE_ENGINE_TICK (R167). -/
def execPisteEngineTick (s : State) : Host.Outcome State Fault Refusal :=
  .next (if s.clocked then (s.judge.claims).posTriggers else s)

/-! ## Learning (R174 to R178) -/

/-- Mark the last queued pass of entry `i`. -/
def markPass (i : Nat) : List (Nat × Bool) → List (Nat × Bool)
  | [] => []
  | e :: rest => if rest.any (fun f => f.1 = i) || e.1 ≠ i then e :: markPass i rest else (i, true) :: rest

/-- Entry `i` is confirmed for this pass (R174): what stands armed or tracked of it is marked, or else its last pass that the
herder has still to take in. A tracked entry takes the contents that learning has given it (R167). -/
def State.confirm (s : State) (i : Nat) : State :=
  let stands := s.piste.armed.any fun a => a.idx = i
  let (v0, v1) := s.entry i
  s.withPiste { s.piste with
    armed := s.piste.armed.map fun a =>
      if a.idx ≠ i then a else if a.track then { a with conf := true, w0 := v0, w1 := v1 } else { a with conf := true }
    passes := if stands then s.piste.passes else markPass i s.piste.passes }

/-- The place of a new learned entry (R177): the lowest free one, else the learned entry with the lowest CONF, the highest
AGE and the lower index. -/
def State.learnPlace (s : State) : Option Nat :=
  let v := s.validEntries
  match (List.range 32768).find? fun i => !v.contains i with
  | some i => some i
  | none =>
    let key (i : Nat) : Nat := eConf (s.entry i).2 * 256 + (255 - eAge (s.entry i).2)
    (v.filter fun i => eLearned (s.entry i).2).foldl (fun (a : Option Nat) i =>
      match a with | none => some i | some j => if key i < key j then some i else some j) none

/-- Learning creates an entry around `x` for a port. -/
def State.learnNew (s : State) (n : Nat) (x : Int) : State :=
  let len := 1000 * max 1 (s.get F.PISTE_LEARN_MIN_LEN_M)
  let w0 := unsigned 40 (x - (len / 2 : Nat)) + 2 ^ 40 * len
  let up := s.flag F.POS_STATE_DIR
  let w1 := 2 ^ n + (if up then 65536 else 131072) + 2 ^ 18 * max 1 (s.get F.PISTE_LEARN_LEARN_PROF) + 2 ^ 28 + 2 ^ 60 + 2 ^ 61
  match s.learnPlace with
  | none => (s.count F.PISTE_FULL_DROPS_COUNT 1).raise Ev.pisteFull
  | some i =>
    let s := ((s.putEntry i w0 w1).put F.PISTE_STATUS_DIRTY 1).cenHerd 0x08 1
    (s.withPiste { s.piste with
      armed := s.piste.armed.map fun a => if a.idx = i then { a with stale := true } else a
      wait := i :: s.piste.wait.filter fun j => decide (j ≠ i), passes := s.piste.passes.filter fun e => decide (e.1 ≠ i) }).showCount

/-- Learning takes position `x` of port `n` into the matching entry `i`: the port is added, and the zone widened to at most
2 km. -/
def State.learnInto (s : State) (n i : Nat) (x : Int) : State :=
  let (w0, w1) := s.entry i
  if eLock w1 then s.confirm i else
  let half : Int := (1000 * max 1 (s.get F.PISTE_LEARN_MIN_LEN_M) / 2 : Nat)
  let a := eStart w0
  let b := a + eLen w0
  let (a', b') := if x < a then (max (x - half) (b - max (2000000 : Int) (b - a)), b)
    else if b < x then (a, min (x + half) (a + max (2000000 : Int) (b - a))) else (a, b)
  let v0 := unsigned 40 a' + 2 ^ 40 * (b' - a').toNat
  let v1 := withBits w1 n 1 1
  let s := if v0 = w0 && v1 = w1 then s else ((s.putEntry i v0 v1).put F.PISTE_STATUS_DIRTY 1).cenHerd 0x08 1
  s.confirm i

/-- LEARNING_RECORD (R174): the herder takes the oldest erasure record of a port. -/
def execLearningRecord (port : BitVec 4) (s : State) : Host.Outcome State Fault Refusal :=
  let n := port.toNat
  .next (match (s.ln n).records with
    | [] => s
    | (_, _, _, x, ok) :: rest =>
      if !(s.herderRuns && s.clocked) then s else
      let s := s.modLn n fun l => { l with records := rest }
      if !(ok && s.flag F.PISTE_CTRL_LEARN_EN) then s else
      let up := s.flag F.POS_STATE_DIR
      let m : Int := 1000 * s.get F.PISTE_LEARN_MATCH_M
      match s.validEntries.find? fun i =>
          let (w0, w1) := s.entry i
          eDir w1 up && decide (eStart w0 - m ≤ x) && decide (x ≤ eStart w0 + eLen w0 + m) with
      | some i => s.learnInto n i x
      | none => s.learnNew n x)

/-- PASS_UPDATE (R175): the herder takes in the oldest pass that ended. -/
def execPassUpdate (s : State) : Host.Outcome State Fault Refusal :=
  .next (match s.piste.passes with
    | [] => s
    | (i, conf) :: rest =>
      if !(s.herderRuns && s.clocked) then s else
      let s := s.withPiste { s.piste with passes := rest }
      let (w0, w1) := s.entry i
      if !s.flag F.PISTE_CTRL_LEARN_EN || !eValid w1 || eLock w1 then s else
      let c := eConf w1
      let hits := if conf then min 4095 (eHits w1 + 1) else eHits w1
      let age := if conf then 0 else min 255 (eAge w1 + 1)
      let c' := if !eLearned w1 then c else if conf then min 15 (c + 1) else c - 1
      let least := max 1 (s.get F.PISTE_LEARN_ARM_CONF)
      let s := s.put F.PISTE_STATUS_DIRTY 1
      if eLearned w1 && !conf && decide (max 1 (s.get F.PISTE_LEARN_AGE_LIMIT) ≤ age) then (s.putEntry i 0 0).showCount
      else
        let s := s.putEntry i w0 (withBits (withBits (withBits w1 32 12 hits) 44 8 age) 28 4 c')
        if c < least && least ≤ c' then s.withPiste { s.piste with wait := i :: s.piste.wait } else s)

/-! ## Route tables (R179 to R182) -/

/-- The fault of a route table image (R180): the failing entry, or 0xFFFFFFFF for the header. -/
def tableFault (bs : Bytes) : Option Nat :=
  let n := uLe bs 0x0C 4
  let headOk := decide (64 ≤ bs.length) && decide (uLe bs 0 4 = 0x45545350) && decide (uLe bs 4 2 = 1) && decide (uLe bs 6 2 = 64) &&
    decide (uLe bs 8 4 ≠ 0) && decide (n ≤ 32768) && decide (slice bs 0x20 28 = List.replicate 28 0) &&
    decide (uLe bs 0x3C 4 = crc32 (slice bs 0 0x3C)) && decide (64 + 16 * n ≤ bs.length) &&
    decide (uLe bs 0x1C 4 = crc32 (slice bs 64 (16 * n)))
  if !headOk then some 0xFFFFFFFF
  else (List.range n).find? fun i =>
    let w0 := uLe bs (64 + 16 * i) 8
    let w1 := uLe bs (72 + 16 * i) 8
    eValid w1 && !entryOk w0 w1

/-- Replace the active table (Table 6-4): every entry disarms, and the new table is judged at once. -/
def State.newTable (s : State) (route serial : Nat) (body : Bytes) : State :=
  let s := s.dropWords (A.PISTE_ENTRY 0 0) 524288
  let s := s.each (List.range (body.length / 16)) fun t i => t.putEntry i (uLe body (16 * i) 8) (uLe body (16 * i + 8) 8)
  let s := s.withPiste { s.piste with armed := [], wait := [], passes := [], serial := serial }
  let s := (s.put F.PISTE_TABLE_ROUTE_ROUTE route).put F.PISTE_STATUS_DIRTY 0
  (s.showCount.routeMatch).judge

/-- Load a checked image. -/
def State.loadTable (s : State) (bs : Bytes) : State :=
  s.newTable (uLe bs 8 4) (uLe bs 0x10 4) (slice bs 64 (16 * uLe bs 0x0C 4))

/-- The NV slot that the PISTE section binds a route to: 0 A, 1 B. -/
def State.boundSlot (s : State) (route : Nat) : Option Nat :=
  if route = 0 then none else if uLe (s.sec_ 7) 0x10 4 = route then some 0
  else if uLe (s.sec_ 7) 0x14 4 = route then some 1 else none

/-- The image of the active table as a save writes it (R181). -/
def State.tableImage (s : State) : Bytes :=
  let n := match s.validEntries.getLast? with | some i => i + 1 | none => 0
  let body := s.wordBytes (A.PISTE_ENTRY 0 0) (4 * n)
  let head := leBytes 0x45545350 4 ++ leBytes 1 2 ++ leBytes 64 2 ++ leBytes (s.get F.PISTE_TABLE_ROUTE_ROUTE) 4 ++ leBytes n 4 ++
    leBytes (s.piste.serial + 1) 4 ++ leBytes s.time 8 ++ leBytes (crc32 body) 4 ++ List.replicate 28 0
  head ++ leBytes (crc32 head) 4 ++ body

/-- A save has ended well. -/
def State.saved (s : State) : State :=
  (s.put F.PISTE_STATUS_DIRTY 0).withPiste { s.piste with serial := (s.piste.serial + 1) % 4294967296 }

/-- Save the active table into NV slot `k`; a write that fails its read-back changes nothing. -/
def State.saveSlot (s : State) (k : Nat) (nvFail : Bool) : State :=
  if nvFail then s else (s.withNv { s.nv with piste := Tbl.set s.nv.piste [] k s.tableImage }).saved

/-- The range of the GENERAL partition that a command names by a byte offset in parameter words `i` and `i + 1`, aligned to
64 bytes: the partition and the bytes from the offset to its end. -/
def State.generalAt (s : State) (k i : Nat) : Option (Nat × Nat × Nat) :=
  let off := s.param k i + 4294967296 * s.param k (i + 1)
  match s.partOf 4 with
  | none => none
  | some g => if off % 64 = 0 && off < s.partBytes g then some (g, off, s.partBytes g - off) else none

/-- The stack serves the herder's requests. -/
def State.stackOpen (s : State) : Bool := s.clocked && decide (s.get F.CLK_STATUS_STATE = 0)

/-- PISTE_LOAD (R180). LOADING reads 1 while a load waits for the stack. -/
def execPisteLoad (slot : BitVec 6) (s : State) : Host.Outcome State Fault Refusal :=
  let k := slot.toNat
  let src := s.param k 0 % 4
  let judge (t : State) (bs : Bytes) : State :=
    let t := t.put F.PISTE_STATUS_LOADING 0
    match tableFault bs with
    | some i => t.completeLogged k 0x0F (uLe bs 8 4) stInvalid 0 [0, i]
    | none => (t.loadTable bs).completeLogged k 0x0F (uLe bs 8 4) stOk 0 []
  .next (
    if !s.taken k 0x10 || !s.herderRuns then s
    else if src = 1 || src = 2 then judge s (Tbl.get s.nv.piste [] (src - 1))
    else if src = 3 then judge s []
    else if !s.stackOpen then s.put F.PISTE_STATUS_LOADING 1
    else match s.generalAt k 1 with
      | none => judge s []
      | some (g, off, len) =>
        let (s, _, head) := s.stackGet 0x23 g off (min 64 len)
        let n := min (uLe head 0x0C 4) 32768
        let (s, _, body) := s.stackGet 0x23 g (off + 64) (min (16 * n) (len - 64))
        judge s (head ++ body))

/-- PISTE_SAVE (R181). -/
def execPisteSave (slot : BitVec 6) (nvFail : Bool) (s : State) : Host.Outcome State Fault Refusal :=
  let k := slot.toNat
  let dst := s.param k 0 % 4
  .next (
    if !s.taken k 0x11 || !s.herderRuns then s
    else if dst = 3 then s.complete k stInvalid 0 []
    else if dst ≠ 0 then (s.saveSlot (dst - 1) nvFail).complete k (if nvFail then stNv else stOk) 0 []
    else if !s.stackOpen then s
    else match s.generalAt k 1 with
      | none => s.complete k stInvalid 0 []
      | some (g, off, len) =>
        let img := s.tableImage
        if len < img.length then s.complete k stInvalid 0 []
        else
          let (s, lost) := s.stackPut 0x23 g off img
          if lost then s.complete k stAborted 0 [] else s.saved.complete k stOk 0 [])

/-- AUTOSAVE (R181): STOPPED has begun with DIRTY set. -/
def execAutosave (nvFail : Bool) (s : State) : Host.Outcome State Fault Refusal :=
  .next (
    if !(s.pos.saveDue && s.herderRuns && s.clocked && s.flag F.PISTE_CTRL_AUTOSAVE) then s else
    let s := s.withPos { s.pos with saveDue := false }
    match s.boundSlot (s.get F.PISTE_TABLE_ROUTE_ROUTE) with
    | some k => s.saveSlot k nvFail
    | none => s)

/-! ## Fixes (R159, R182) -/

/-- A fix names another route (R182): whether a bound table was loaded. -/
def State.routeChange (s : State) (route : Nat) : State × Bool :=
  let bs := match s.boundSlot route with | some k => Tbl.get s.nv.piste [] k | none => []
  let ok := decide (tableFault bs = none) && decide (uLe bs 8 4 = route)
  ((if ok then s.loadTable bs else s.newTable route 0 []).raise Ev.pisteRoute, ok)

/-- Entries whose span a jump of the position has left, which is no pass (R175). -/
def State.jumpCheck (s : State) : State :=
  s.withPiste { s.piste with
    prev := none
    armed := s.piste.armed.map fun a => if (s.judgeArmed a).1 = none then { a with jumped := true } else a }

/-- POS_FIX (R159). -/
def execPosFix (slot : BitVec 6) (s : State) : Host.Outcome State Fault Refusal :=
  let k := slot.toNat
  let w (i : Nat) : Nat := s.param k i
  let route := w 0
  let at_ := w 3 + 4294967296 * w 4
  .next (
    if !s.taken k 0x12 || !s.herderRuns then s
    else if route = 0 || s.time < at_ || at_ + 1000000000 < s.time then s.complete k stInvalid 0 []
    else
      let s := s.extrapolate
      let old := s.posMm
      let orient := (w 2).testBit 8
      let mms : Int := if (w 2).testBit 9 then 10 * signed 16 (bits (w 2) 16 16) else 0
      let ran := s.pos.odo - s.odoAt at_
      let travel := if s.flag F.POS_CFG_ODO_EN then (if orient then ran else -ran) else travelOf mms (s.time - at_)
      let base : Int := signed 40 (w 1 + 4294967296 * (w 2 % 256))
      let s := (s.putAcc (base * 16777216 + travel)).put F.POS_STATE_ORIENT (b2n orient)
      let jump := s.posMm - old
      let s := ((s.setFix true).put F.POS_STATE_DEGRADED 0).put F.POS_LAST_JUMP_MM
        (unsigned 32 (max (-2147483648) (min 2147483647 jump)))
      let s := s.withPos { s.pos with far := s.pos.far + jump, turnAt := s.posMm, fixAt := s.time, fixMms := mms }
      let s := ((s.put F.POS_ROUTE_ROUTE route).routeMatch).jumpCheck
      let changed := decide (route ≠ s.get F.PISTE_TABLE_ROUTE_ROUTE)
      let (s, loaded) := if changed then s.routeChange route else (s, false)
      s.complete k stOk 0 [0, s.get F.POS_LAST_JUMP_MM, b2n changed + 2 * b2n loaded])

end Sys2Proof.Machine
end

