-- ==== Sys2Proof/Machine/Cal.lean ====
section
/-!
DEFINITION. Calibration (R224 to R234): which units fall due, their runs, the commands over them, and the trims images.
-/
namespace Sys2Proof.Machine

/-- The part has a unit. -/
def State.hasUnit (s : State) (u : Nat) : Bool :=
  if u < 16 then decide (u < s.nPorts) else decide (u - 16 < s.nPcs)

/-- The temperature of a unit in 0.25 °C (R224, R344); none before a reading. -/
def State.unitTemp (s : State) (u : Nat) : Option Int :=
  if u < 16 then
    if s.sensorOk (F.THM_BASE_VALID u) then some (signed 16 (s.get (F.THM_BASE_TEMP u)))
    else if s.baseTemps = [] then none else some s.baseTemp
  else s.chanTemp ((u - 16) / 2)

/-- Whole degrees of a temperature, as a signed byte. -/
def tempByte (t : Int) : Nat := unsigned 8 (t / 4)

/-- The zone hold of Table 8-6. -/
def State.calZone (s : State) (u : Nat) : Bool := decide (u < 16) && (s.zoneArmed u || s.swapped u)

/-- A hold of Table 8-6 applies to a unit. -/
def State.calHeld (s : State) (u : Nat) : Bool :=
  !s.herderRuns || !s.clocked || decide (2 ≤ s.pwr.mode) || decide (s.pwr.entry ≠ 0) || decide (s.get F.CLK_STATUS_STATE ≠ 0) ||
    decide (s.apply.stage ≠ 0) || s.calZone u ||
    (if u < 16 then
      decide (s.an u = 3) || decide (s.an u = 5) || s.flag (F.PORT_DIAG_STATE_RUNNING u) || decide (s.pModes u = 0) ||
        !s.flag (F.PORT_MODE_ENABLE u)
    else s.frozen (u - 16) || decide (s.chRole ((u - 16) / 2) = 2))

/-- A unit is due under R225. -/
def State.fallsDue (s : State) (u : Nat) : Bool :=
  if !(s.calOf u).valid then true
  else match s.unitTemp u with
    | none => false
    | some t =>
      let d := t - 4 * signed 8 (s.get (calTLast u))
      decide (4 * max 1 (s.get F.THM_CAL_CFG_DT) < d.natAbs)

/-- A unit falls due (R225). -/
def State.makeDue (s : State) (u : Nat) : State :=
  if s.flag (calDue u) then s else
  (s.put (calDue u) 1).when (s.calZone u) fun t => t.count F.THM_CAL_DEFERRED_COUNT 1

/-- Judge whether a unit falls due. -/
def State.dueCheck (s : State) (u : Nat) : State := if s.hasUnit u && s.fallsDue u then s.makeDue u else s

/-- T_LAST of a unit is set, or becomes invalid. -/
def State.setTLast (s : State) (u : Nat) (t : Option Nat) : State :=
  (s.put (calTLast u) (t.getD 0x80)).modCal u fun c => { c with valid := t.isSome }

/-! ## CAL_RUN (R233) -/

/-- CAL_RUN (R233). -/
def execCalRun (slot : BitVec 6) (s : State) : Host.Outcome State Fault Refusal :=
  let k := slot.toNat
  let named := ((maskList (s.param k 0) 16) ++ (maskList (s.param k 1) 32).map (16 + ·)).filter s.hasUnit
  .next (
    if !s.taken k 0x20 || !s.herderRuns then s
    else if (s.runningOp 0x20).isSome then s.complete k stBusy 0 []
    else
      let s := s.begin k [s.time]
      let s := s.each named fun t u =>
        (t.makeDue u).modCal u fun c => { c with asked := true, owed := true, outcome := if s.calHeld u then 3 else 0 }
      s.calRunCheck)

/-- CAL_UNIT_START (R225): units 0 to 15 are ports, 16 + i pseudo-channel i. With AUTO_EN 0 a unit runs where a CAL_RUN asked for it,
after that command's completion too where a hold kept it (R233). -/
def execCalUnitStart (unit : BitVec 6) (s : State) : Host.Outcome State Fault Refusal :=
  let u := unit.toNat
  let c := s.calOf u
  let room := if u < 16 then decide ((s.cal.filter fun e => decide (e.1 < 16) && decide (e.2.stage ≠ 0)).length < 4)
    else decide ((s.cal.filter fun e => decide (16 ≤ e.1) && decide (e.2.stage ≠ 0)).length < 8)
  .next (
    if !(decide (u < 48) && s.hasUnit u) || c.stage ≠ 0 || !s.flag (calDue u) then s
    else if !(s.flag F.THM_CAL_CFG_AUTO_EN || c.owed) || !room then s
    else if s.calHeld u then
      if c.asked && c.outcome = 0 then (s.modCal u fun c => { c with outcome := 3 }).calRunCheck else s
    else
      ((s.modCal u fun c => { c with
        stage := if u < 16 then 1 else 3, failed := 0, old := (trimRegs u).map s.word }).put (calRunning u) 1).showRuns)

/-! ## Stages (R226 to R231) -/

/-- The values of a stage as the registers hold them: fields, in the order of the stage's values. -/
def stageFields (u stage : Nat) : List Fld :=
  let (c, p) := pcIdx (u - 16)
  match stage with
  | 1 => (List.range 8).map (F.PORT_TRIM_ADC_OFFSET u) ++ (List.range 8).map (F.PORT_TRIM_ADC_GAIN u) ++
      (List.range 8).map (F.PORT_TRIM_ADC_SKEW u)
  | 2 => [F.PORT_TRIM_HYB_HYB_RES u, F.PORT_TRIM_HYB_HYB_CAP u]
  | 3 => (List.range 13).map (F.MEM_TRIM_RD c p)
  | _ => (List.range 13).map (F.MEM_TRIM_WR c p)

/-- The value of a trim field: hybrid codes are unsigned, all others signed. -/
def trimVal (stage : Nat) (f : Fld) (v : Nat) : Int := if stage = 2 then v else signed f.len v

/-- A value lies in the range of Table 8-7. -/
def trimInRange (stage : Nat) (v : Int) : Bool :=
  match stage with
  | 1 => decide (-127 ≤ v) && decide (v ≤ 127)
  | 2 => decide (0 ≤ v) && decide (v ≤ 63)
  | _ => decide (-31 ≤ v) && decide (v ≤ 31)

/-- The largest change in one run (Table 8-7). -/
def trimMaxChange : Nat → Nat | 1 => 16 | 2 => 8 | _ => 4

/-- The check after the run (Table 8-7) on what was measured before and after: a spur in 0.5 dB below carrier, the echo
reduction in 0.01 dB, eye widths in 1/256 UI. -/
def stageCheck (stage : Nat) (before after : List Nat) : Bool :=
  (before.zip after).all fun e =>
    match stage with
    | 1 => decide (e.1 ≤ e.2 + 6)
    | 2 => decide (e.1 ≤ e.2 + 100)
    | _ => decide (e.1 < e.2 + 13) && decide (64 ≤ e.2)

/-- The event of a unit's failure (R230). -/
def State.calFailEvent (s : State) (u : Nat) : State :=
  if u < 16 then s.raise (Ev.portCalFail u) else s.raise (Ev.memTrimFail ((u - 16) / 2))

/-- The figures of a stage (Grade). -/
def State.grade (s : State) (u stage : Nat) (figs : List Nat) : State :=
  let (c, p) := pcIdx (u - 16)
  match stage with
  | 1 => s.put (F.PORT_GRADE_SPUR u) (figs.headD 0)
  | 2 => s.put (F.PORT_GRADE_ECHO u) (figs.headD 0)
  | 3 => s.each ((List.range 13).zip figs) fun t e => t.put (F.MEM_GRADE_RD_EYE c p e.1) e.2
  | _ =>
    let s := s.each ((List.range 13).zip figs) fun t e => t.put (F.MEM_GRADE_WR_EYE c p e.1) e.2
    let eyes := (List.range 13).flatMap fun b => [s.get (F.MEM_GRADE_RD_EYE c p b), s.get (F.MEM_GRADE_WR_EYE c p b)]
    s.put (F.MEM_CAL_STATE_MIN_EYE c p) (eyes.foldl min 255)

/-- A run has completed (R230): T_LAST, the failures, and the outcome for a CAL_RUN. -/
def State.endRun (s : State) (u : Nat) (train : Train) : State :=
  let c := s.calOf u
  let s := ((s.put (calRunning u) 0).put (calFailed u) (b2n (c.failed ≠ 0))).put (calFailStage u) c.failed
  let s := (s.setTLast u ((s.unitTemp u).map tempByte)).put (calDue u) 0
  let s := s.modCal u fun c => { c with stage := 0, old := [], owed := false, outcome := if c.failed = 0 then 1 else 2 }
  let s := ((s.count F.THM_CAL_RUNS_COUNT 1).cenHerd 0x07 1).showRuns
  let narrow := decide (16 ≤ u) && decide (s.get (F.MEM_CAL_STATE_MIN_EYE ((u - 16) / 2) ((u - 16) % 2)) < 64)
  let s := if narrow then ((s.raise (Ev.memTrimFail ((u - 16) / 2))).retrain (u - 16) train).1 else s
  s.calRunCheck

/-- CAL_STAGE_END (R230): the stage's new values, and what was measured before and after it. `train` is what the training
finds where an eye below 0.25 UI makes the pseudo-channel retrain (R231). -/
def execCalStageEnd (unit : BitVec 6) (vals : List (BitVec 8)) (before after : List (BitVec 16)) (train : Train) (s : State) :
    Host.Outcome State Fault Refusal :=
  let u := unit.toNat
  let st := (s.calOf u).stage
  let fs := stageFields u st
  .next (
    if st = 0 || vals.length < fs.length then s
    else if s.calHeld u || (st = 2 && !s.upIlm u) then s.abandonCal u
    else
      let new := fs.zip (vals.map BitVec.toNat)
      let ok := (new.all fun e =>
          let v := trimVal st e.1 (e.2 % 256)
          let v := if st = 2 then v else signed 8 e.2
          trimInRange st v && decide ((v - trimVal st e.1 (s.get e.1)).natAbs ≤ trimMaxChange st)) &&
        stageCheck st (before.map BitVec.toNat) (after.map BitVec.toNat)
      let s := if ok then s.each new fun t e => t.put e.1 e.2
        else
          let s := s.modCal u fun c => { c with failed := c.failed ||| (if st % 2 = 1 then 1 else 2) }
          (s.count F.THM_CAL_FAILS_COUNT 1).calFailEvent u
      let s := s.grade u st ((if ok then after else before).map BitVec.toNat)
      if st = 3 || (st = 1 && s.upIlm u) then s.modCal u fun c => { c with stage := st + 1 }
      else s.endRun u train)

/-! ## Host access and images (R232, R234) -/

/-- A host's write of a trim register (R232): each field in range is taken, any other raises DEV_BAD_ACCESS. -/
def State.writeTrim (s : State) (u : Nat) (fs : List (Fld × Nat)) (v : Word) : State :=
  let ok (e : Fld × Nat) : Bool := trimInRange e.2 (trimVal e.2 e.1 (getBits v e.1.lo e.1.len))
  let s := if fs.any fun e => !ok e then s.raise Ev.devBadAccess else s
  if !fs.any ok then s else
  let s := (s.abandonCal u).each (fs.filter ok) fun t e => t.put e.1 (getBits v e.1.lo e.1.len)
  (s.setTLast u none).dueCheck u

/-- The length of a trims image. -/
def State.trimsLen (s : State) : Nat := 16 + 32 * s.nPorts + 32 * s.nPcs

/-- The record of a unit in a trims image, from one state of it (Table 8-8). -/
def State.trimRecord (s : State) (u : Nat) : Bytes :=
  let c := s.calOf u
  let ws := if c.stage = 0 then (trimRegs u).map s.word else c.old
  let t := s.each ((trimRegs u).zip ws) fun t e => t.putWord e.1 e.2
  let vals (st : Nat) : Bytes := (stageFields u st).map fun f => BitVec.ofNat 8 (unsigned 8 (trimVal st f (t.get f)))
  let temp := [BitVec.ofNat 8 (s.get (calTLast u)), BitVec.ofNat 8 (b2n c.valid), 0, 0, 0, 0]
  if u < 16 then vals 1 ++ vals 2 ++ temp else vals 3 ++ vals 4 ++ temp

/-- Units of the part in the order of a trims image. -/
def State.units (s : State) : List Nat := List.range s.nPorts ++ (List.range s.nPcs).map (16 + ·)

/-- The trims image (Table 8-8). -/
def State.trimsImage (s : State) : Bytes :=
  s.wordBytes A.SEC_ID_SERIAL 2 ++ [BitVec.ofNat 8 s.nPorts, BitVec.ofNat 8 s.nPcs] ++ List.replicate 6 0 ++
    s.units.flatMap s.trimRecord

/-- Apply one record to a unit (R234): `bad` says that the check after the run fails. -/
def State.applyRecord (s : State) (u : Nat) (r : Bytes) (bad : Bool) : State × Bool :=
  let st := if u < 16 then 1 else 3
  let new := (stageFields u st ++ stageFields u (st + 1)).zip (r.map BitVec.toNat)
  let n1 := (stageFields u st).length
  let ok := (new.zipIdx.all fun e =>
      let k := if e.2 < n1 then st else st + 1
      trimInRange k (if k = 2 then (e.1.2 : Int) else signed 8 e.1.2)) && !bad
  if ok then
    let s := (s.abandonCal u).each new fun t e => t.put e.1 e.2
    let s := (s.setTLast u (some (u8 r 0x1A))).put (calDue u) 0
    (s.dueCheck u, true)
  else (s.calFailEvent u, false)

/-- Apply the records of a trims image: units restored, and units refused. -/
def State.applyTrims (s : State) (bs : Bytes) (bad : Nat) : State × List Nat × List Nat :=
  let r := s.units.zipIdx.foldl (fun (r : State × List Nat × List Nat) (e : Nat × Nat) =>
    let rec_ := slice bs (16 + 32 * e.2) 32
    if (u8 rec_ 0x1B) % 2 = 0 then r
    else
      let (t, ok) := r.1.applyRecord e.1 rec_ (bad.testBit e.1)
      if ok then (t, e.1 :: r.2.1, r.2.2) else (t, r.2.1, e.1 :: r.2.2)) (s, [], [])
  (r.1.put F.THM_CAL_STATUS_TRIMS_REFUSED (b2n (r.2.2 ≠ [])), r.2)

/-- Apply a TRIMS section (R234): one of another SERIAL is skipped whole. -/
def State.applyTrimsSection (s : State) (bs : Bytes) (bad : Nat) : State :=
  if bs = [] then s
  else if uLe bs 0 8 ≠ s.wide A.SEC_ID_SERIAL then s.put F.THM_CAL_STATUS_TRIMS_SKIPPED 1
  else ((s.put F.THM_CAL_STATUS_TRIMS_SKIPPED 0).applyTrims bs bad).1

/-- CAL_SAVE (R234). -/
def execCalSave (slot : BitVec 6) (s : State) : Host.Outcome State Fault Refusal :=
  let k := slot.toNat
  .next (
    if !s.taken k 0x21 || !s.herderRuns || !s.stackOpen then s
    else match s.generalAt k 0 with
      | none => s.complete k stInvalid 0 []
      | some (g, off, len) =>
        if len < s.trimsLen then s.complete k stInvalid 0 []
        else
          let (s, lost) := s.stackPut 0x23 g off s.trimsImage
          if lost then s.complete k stAborted 0 [] else s.complete k stOk 0 [0, s.trimsLen])

/-- CAL_RESTORE (R234). `bad` names the units that fail the check after the run, by unit number. -/
def execCalRestore (slot : BitVec 6) (bad : BitVec 48) (s : State) : Host.Outcome State Fault Refusal :=
  let k := slot.toNat
  let ports (l : List Nat) := listMask (l.filter fun u => decide (u < 16))
  let pcs (l : List Nat) := listMask ((l.filter fun u => decide (16 ≤ u)).map fun u => u - 16)
  .next (
    if !s.taken k 0x22 || !s.herderRuns || !s.stackOpen then s
    else match s.generalAt k 0 with
      | none => s.completeLogged k 0x10 0 stInvalid 0 []
      | some (g, off, len) =>
        if len < s.trimsLen || s.param k 2 ≠ s.trimsLen then s.completeLogged k 0x10 0 stInvalid 0 []
        else
          let (s, _, bs) := s.stackGet 0x23 g off s.trimsLen
          if uLe bs 0 8 ≠ s.wide A.SEC_ID_SERIAL || u8 bs 8 ≠ s.nPorts || u8 bs 9 ≠ s.nPcs then
            s.completeLogged k 0x10 0 stInvalid 0 []
          else
            let (s, good, refused) := s.applyTrims bs bad.toNat
            s.completeLogged k 0x10 (ports good) stOk 0 [0, 0, ports good, ports refused, pcs good, pcs refused])

end Sys2Proof.Machine
end

