-- ==== Sys2Proof/Machine/Diag.lean ====
section
/-!
DEFINITION. Cable diagnostics (R213 to R223): reflection events, baselines, and the commands that read the echoes.
-/
namespace Sys2Proof.Machine

/-! ## Reflection events (R218): a peak is its distance in 0.25 m, whether the impedance rises, its magnitude in 0.5 dB -/

/-- The corrected magnitude of a peak in 1/4000 dB: the round-trip loss of R431 is added, 0.533 dB per metre, at most 30 dB. -/
def corrected (d m : Nat) : Int := (min 120000 (533 * d) : Nat) - (2000 * m : Nat)

/-- KIND (Table 8-3). -/
def eventKind (d m : Nat) (rise : Bool) : Nat :=
  let c := corrected d m
  if c < -80000 then 0 else if c < -24000 then 1 else if rise then 2 else 3

/-- A peak is a multiple reflection of two stronger ones. -/
def isGhost (l : List (Nat × Bool × Nat)) (p : Nat × Bool × Nat) : Bool :=
  let s := l.filter fun q => decide (q.2.2 < p.2.2)
  s.zipIdx.any fun a => s.zipIdx.any fun b =>
    decide (a.2 < b.2) && decide (p.1 ≤ a.1.1 + b.1.1 + 2) && decide (a.1.1 + b.1.1 ≤ p.1 + 2) &&
      decide (max a.1.2.2 b.1.2.2 + 24 ≤ p.2.2)

/-- Insert by falling corrected magnitude, the nearer first of equals. -/
def insertMag (p : Nat × Bool × Nat) : List (Nat × Bool × Nat) → List (Nat × Bool × Nat)
  | [] => [p]
  | q :: r =>
    let a := corrected p.1 p.2.2
    let b := corrected q.1 q.2.2
    if b < a || (a = b && p.1 < q.1) then p :: q :: r else q :: insertMag p r

/-- Insert by distance. -/
def insertDist (p : Nat × Bool × Nat) : List (Nat × Bool × Nat) → List (Nat × Bool × Nat)
  | [] => [p]
  | q :: r => if p.1 < q.1 then p :: q :: r else q :: insertDist p r

/-- The events among the peaks of a response (R218): at most 8, in ascending distance. -/
def findEvents (peaks : List (Nat × Bool × Nat)) (thresh : Nat) : List (Nat × Bool × Nat) :=
  let l := peaks.filter fun p => decide (p.2.2 < thresh) && decide (8 ≤ p.1)
  let l := l.filter fun p => !isGhost l p
  let ends := (l.filter fun p => decide (2 ≤ eventKind p.1 p.2.2 p.2.1)).map (·.1)
  let l := l.filter fun p => ends.all fun d => decide (p.1 ≤ d)
  ((l.foldl (fun a p => insertMag p a) []).take 8).foldl (fun a p => insertDist p a) []

/-- The word of an event (Table 8-11). -/
def eventWord (p : Nat × Bool × Nat) : Nat :=
  2147483648 + 1073741824 * b2n p.2.1 + 134217728 * eventKind p.1 p.2.2 p.2.1 + 8192 * p.2.2 + p.1

/-! ## Baselines (R221, R222) -/

/-- The event words of a port's baseline of a kind: 0 DIAG_REFLECT, 1 DIAG_PASSIVE. -/
def State.baseline (s : State) (n kind : Nat) : List Nat :=
  ((List.range 8).map fun i => (s.word (A.PORT_DIAG_BASE n (8 * kind + i))).toNat).filter fun w => w.testBit 31

/-- A baseline of a kind exists; its THRESH. -/
def State.baseThresh (s : State) (n kind : Nat) : Nat := Tbl.get s.nv.thresh 0 (2 * n + kind)

/-- Two event distances within 0.5 m. -/
def nearBy (a b : Nat) : Bool := decide (a ≤ b + 2) && decide (b ≤ a + 2)

/-- CHANGED of a result against the baseline of its kind (R222). -/
def State.changedBits (s : State) (n kind : Nat) (evs : List (Nat × Bool × Nat)) : Nat :=
  let base := s.baseline n kind
  let t := s.baseThresh n kind
  let h := max 1 (s.get F.THM_CAL_CFG_HEALTH_DB)
  if t = 0 then 0 else
  let one (p : Nat × Bool × Nat) : Bool :=
    (base.any fun w => nearBy (w % 8192) p.1 && decide (p.2.2 + 2 * h < bits w 13 8)) ||
      (decide (-(2000 * t : Int) < corrected p.1 p.2.2) && !base.any fun w => nearBy (w % 8192) p.1)
  let lost := base.any fun w => decide (1 ≤ bits w 27 3) && !evs.any fun p => nearBy (w % 8192) p.1
  listMask ((evs.zipIdx.filter fun e => one e.1).map (·.2)) + 256 * b2n lost

/-- The result of a diagnostic stands in the port's registers and is compared with its baseline; with `base` it becomes the
baseline first. -/
def State.diagResult (s : State) (n kind : Nat) (reduced base : Bool) (thresh : Nat) (evs : List (Nat × Bool × Nat)) : State :=
  let ws := (List.range 8).map fun i => match evs[i]? with | some p => eventWord p | none => 0
  let s := s.each ws.zipIdx fun t e => t.putWord (A.PORT_DIAG_EVT n e.2) (BitVec.ofNat 32 e.1)
  let s := if base then
      (s.each ws.zipIdx fun t e => t.putWord (A.PORT_DIAG_BASE n (8 * kind + e.2)) (BitVec.ofNat 32 e.1)).withNv
        { s.nv with thresh := Tbl.set s.nv.thresh 0 (2 * n + kind) thresh }
    else s
  let ch := s.changedBits n kind evs
  let far := evs.any fun p => decide (2 ≤ eventKind p.1 p.2.2 p.2.1)
  let s := s.each [(F.PORT_DIAG_STATE_RUNNING n, 0), (F.PORT_DIAG_STATE_SOURCE n, kind), (F.PORT_DIAG_STATE_REDUCED n, b2n reduced),
    (F.PORT_DIAG_STATE_FAR_END n, b2n far), (F.PORT_DIAG_STATE_COUNT n, evs.length), (F.PORT_DIAG_STATE_CHANGED n, ch)]
    fun t e => t.put e.1 e.2
  if ch = 0 then s else s.raise (Ev.portCableChange n)

/-- THRESH of the parameters; 0 acts as 80. -/
def threshOf (w : Nat) : Nat := if w % 256 = 0 then 80 else w % 256

/-- The peaks of an echo, and its trace of 9,600 bytes with bins beyond `cover` (in 0.25 m) reading 0. -/
def echoCovered (e : Echo) (cover : Nat) : List (Nat × Bool × Nat) × Bytes :=
  ((e.peaks.map fun p => (p.1.toNat, p.2.1, p.2.2.toNat)).filter fun p => decide (p.1 ≤ cover),
    (List.range 4800).flatMap fun i => leBytes (if i ≤ cover then (e.trace.getD i 0).toNat else 0) 2)

/-- A diagnostic command of slot `k` on port `n` completes (R219). -/
def State.diagEnd (s : State) (k n kind cover : Nat) (reduced nvFail : Bool) (echo : Echo) : State :=
  let w0 := s.param k 0
  let th := threshOf (s.param k 3)
  let (peaks, trace) := echoCovered echo cover
  let evs := findEvents peaks th
  let base := w0.testBit 16
  let s := s.diagResult n kind reduced (base && !nvFail) th evs
  let (s, lost) := match w0.testBit 17, s.generalAt k 1 with
    | true, some (g, off, _) => s.stackPut 0x23 g off trace
    | _, _ => (s, false)
  let last := match evs.getLast? with | some p => p.1 | none => 0
  s.complete k (if base && nvFail then stNv else if lost then stAborted else stOk) 0
    [0, evs.length + 256 * s.get (F.PORT_DIAG_STATE_FAR_END n) + 65536 * last, (s.word (A.PORT_DIAG_STATE n)).toNat]

/-- The parameters of a diagnostic that R215 refuses. -/
def State.diagInvalid (s : State) (k n : Nat) : Bool :=
  let w0 := s.param k 0
  decide (s.nPorts ≤ n) || decide (s.pModes n = 0) ||
    (w0.testBit 16 && !s.mayAs (s.slot k).role 2) ||
    (w0.testBit 17 && match s.generalAt k 1 with | some (_, _, len) => decide (len < 9600) | none => true)

/-- A power state entry, clock hold or structural apply is in progress (R216). -/
def State.diagStopped (s : State) : Bool :=
  decide (s.pwr.entry ≠ 0) || decide (s.get F.CLK_STATUS_STATE ≠ 0) || decide (s.apply.stage ≠ 0)

/-- Sweeps on a port whose group has another active member are reduced (R217). -/
def State.diagReduced (s : State) (n : Nat) : Bool :=
  s.inVec n && (s.vecIn (n / 4) 2).any fun j => decide (4 * (n / 4) + j ≠ n)

/-- AVG of the parameters; 0 acts as 64 (Table 8-1). Reduced sweeps take 255 (R217). -/
def avgOf (w0 : Nat) (reduced : Bool) : Nat := if reduced then 255 else if bits w0 8 8 = 0 then 64 else bits w0 8 8

/-- The sweeps that are left go out in runs of 16, the port listening before each (R216): `quiet` runs find the pair quiet. With the
last the response, averaged over the sweeps and compressed, gives the result. Where a listen hears energy the port waits 100 to
300 µs at random, or after 16 such listens the command ends. -/
def State.sweepRuns (s : State) (n : Nat) (d : Diag) (quiet : Nat) (echo : Echo) (nvFail : Bool) : State :=
  let sent := min d.left (16 * quiet)
  let s := if sent = 0 then s else s.emit (.sweep n sent (if d.reduced then 24 else 0))
  if d.left ≤ 16 * quiet then (s.endSweeps n).diagEnd (d.slot - 1) n 0 4799 d.reduced nvFail echo
  else if 15 ≤ d.fails then s.abortDiag n true
  else
    (s.drawn 1).withDiag (Tbl.set s.diag {} n { d with
      fails := d.fails + 1, left := d.left - sent, retryAt := s.time + 100000 + s.freeNow.toNat % 200001 })

/-- DIAG_REFLECT (R213 to R219). A Traverse link that stands and proves its identities counts as training (DESIGN CHOICE, log entry
112: Table 8-2 does not name it). -/
def execDiagReflect (slot : BitVec 6) (quiet : BitVec 5) (echo : Echo) (nvFail : Bool) (s : State) : Host.Outcome State Fault Refusal :=
  let k := slot.toNat
  let n := s.param k 0 % 16
  .next (
    if !s.taken k 0x23 || !s.herderRuns then s
    else if s.diagInvalid k n then s.complete k stInvalid 0 []
    else if s.up n || s.flag (F.PORT_DIAG_STATE_RUNNING n) || s.an n = 3 || s.an n = 5 || s.trvStands n then s.complete k stBusy 0 []
    else if s.diagStopped then s.complete k stAborted 0 [0, 0, (s.word (A.PORT_DIAG_STATE n)).toNat]
    else
      let reduced := s.diagReduced n
      let d : Diag := { slot := k + 1, left := avgOf (s.param k 0) reduced, reduced := reduced, since := s.time }
      let s := ((s.begin k []).abandonCal n).withDiag (Tbl.set s.diag {} n d)
      let s := (s.put (F.PORT_DIAG_STATE_RUNNING n) 1).put (F.PORT_DIAG_STATE_REDUCED n) (b2n reduced)
      s.sweepRuns n d quiet.toNat echo nvFail)

/-- SWEEP_LISTEN_RETRY (R216): the port listens again. -/
def execSweepListenRetry (port : BitVec 4) (quiet : BitVec 5) (echo : Echo) (nvFail : Bool) (s : State) :
    Host.Outcome State Fault Refusal :=
  let n := port.toNat
  let d := Tbl.get s.diag {} n
  .next (
    if d.slot = 0 || !s.herderRuns || !s.clocked then s
    else (s.timeTo d.retryAt).sweepRuns n d quiet.toNat echo nvFail)

/-- The distance in 0.25 m that a port's echo response covers (R220). -/
def State.passiveCover (s : State) (n : Nat) : Nat := if s.flag (F.PORT_ILM_STATE_LONG_SPAN n) then 822 else 205

/-- DIAG_PASSIVE (R220). It meets the port's calibration run (Table 8-6). -/
def execDiagPassive (slot : BitVec 6) (echo : Echo) (nvFail : Bool) (s : State) : Host.Outcome State Fault Refusal :=
  let k := slot.toNat
  let n := s.param k 0 % 16
  .next (
    if !s.taken k 0x24 || !s.herderRuns then s
    else if s.diagInvalid k n || !s.upIlm n then s.complete k stInvalid 0 []
    else (s.abandonCal n).diagEnd k n 1 (s.passiveCover n) false nvFail echo)

/-- CABLE_CHECK_PERIOD (R223). -/
def execCableCheckPeriod (port : BitVec 4) (echo : Echo) (s : State) : Host.Outcome State Fault Refusal :=
  let n := port.toNat
  .next (
    if !(s.herderRuns && s.clocked && s.upIlm n) || s.get F.THM_CAL_CFG_CABLE_PERIOD = 0 || s.baseThresh n 1 = 0 then s
    else (s.abandonCal n).diagResult n 1 false false 0 (findEvents (echoCovered echo (s.passiveCover n)).1 80))

end Sys2Proof.Machine
end

