-- ==== Sys2Proof/Machine/FoldCheck.lean ====
section
/-!
DEFINITION. The checks of a fold image in the fixed order of R29, the commit word, and the choice of a slot at boot (R20 to
R33). A failure is its code of Table 2-12, the section it is reported in, and the offset.
-/
namespace Sys2Proof.Machine

/-- A failure: code, section identifier, byte offset. -/
abbrev FoldErr := Nat × Nat × Nat

/-- A check: what fails when the condition does not hold. -/
def need (ok : Bool) (code id off : Nat) : Option FoldErr := if ok then none else some (code, id, off)

/-- The first failure of a list of checks. -/
def firstErr (l : List (Option FoldErr)) : Option FoldErr := l.findSome? id

/-- The first nonzero byte of a range, as a failure. -/
def zeros (b : Bytes) (code id lo hi : Nat) : Option FoldErr :=
  ((List.range (hi - lo)).find? fun i => u8 b (lo + i) ≠ 0).map fun i => (code, id, lo + i)

/-- A field of the section `id` in its range (FIELD_RANGE). -/
def inRange (v lo hi id off : Nat) : Option FoldErr := need (decide (lo ≤ v) && decide (v ≤ hi)) 0x0F id off

/-! ## Header and signature (R27 to R29) -/

/-- The header of an image (R29 step 1); `staged` is the staged length, where the image was staged. -/
def State.headerErr (s : State) (b : Bytes) (staged : Option Nat) : Option FoldErr :=
  let count := u8 b 0x0F
  let role := u8 b 0x14
  let len := uLe b 8 4
  let accepted := match s.lc with | 0 => true | 1 => decide (role = 1) | 2 => decide (role = 1) | 3 => decide (role = 2) | _ => false
  firstErr [
    need (decide (uLe b 0 4 = 0x444C4F46)) 0x01 0 0, need (decide (uLe b 6 2 = 64)) 0x01 0 6,
    need (decide (uLe b 0x3C 4 = crc32 (slice b 0 0x3C))) 0x02 0 0x3C,
    inRange count 4 9 0 0x0F, inRange role 0 2 0 0x14, inRange (u8 b 0x15) 0 (if role = 1 then 7 else 0) 0 0x15,
    need (decide (uLe b 0x16 2 = 0)) 0x0F 0 0x16, need (decide (slice b 0x2C 16 = List.replicate 16 0)) 0x0F 0 0x2C,
    need (decide (len ≤ 262144) && decide (128 + 16 * count ≤ len) && decide (len % 8 = 0) && decide (len ≤ b.length) &&
      (match staged with | some n => decide (len = n) | none => true)) 0x03 0 8,
    need (decide (u8 b 5 = 2) && decide (u8 b 4 ≤ s.get F.DEV_FOLD_STATUS_FMT_MINOR)) 0x04 0 4,
    need (decide (uLe b 0x0C 2 = s.partCode)) 0x05 0 0x0C,
    need (decide (u8 b 0x0E = 0xFF) ||
      decide (u8 b 0x0E = 16 * s.get F.DEV_PARTID_STEP_LETTER + s.get F.DEV_PARTID_STEP_NUM)) 0x06 0 0x0E,
    need (decide (uLe b 0x10 4 ≤ s.get F.DEV_FW_VER_VERSION)) 0x07 0 0x10,
    need (decide (s.get F.DEV_FOLD_FLOOR_FLOOR ≤ uLe b 0x1C 4)) 0x08 0 0x1C,
    need accepted 0x09 0 0x14,
    need (decide (role ≠ 1) || decide (s.keyOf 2 (u8 b 0x15) ≠ [])) 0x0A 0 0x15]

/-- The signature of an image (R29 step 2). -/
def State.signatureErr (s : State) (b : Bytes) : Option FoldErr :=
  let len := uLe b 8 4
  let role := u8 b 0x14
  need (decide (role = 0) || ecdsaVerify (s.keyOf (role + 1) (u8 b 0x15)) (b.take (len - 64)) (slice b (len - 64) 64)) 0x0B 0 (len - 64)

/-! ## Directory (R20, R21) -/

/-- A directory entry: its place in the image, and its fields (Table 2-2). -/
structure DirE where
  at_  : Nat
  id   : Nat
  flags : Nat
  ver  : Nat
  off  : Nat
  len  : Nat
  crc  : Nat
  deriving DecidableEq, Repr

/-- The directory of an image. -/
def directory (b : Bytes) : List DirE :=
  (List.range (u8 b 0x0F)).map fun i =>
    let e := 0x40 + 16 * i
    { at_ := e, id := u8 b e, flags := u8 b (e + 1), ver := uLe b (e + 2) 2, off := uLe b (e + 4) 4, len := uLe b (e + 8) 4,
      crc := uLe b (e + 12) 4 }

/-- The firmware implements a section (Table 2-3). -/
def DirE.known (e : DirE) : Bool := decide (1 ≤ e.id) && decide (e.id ≤ 9) && decide (e.ver = 1)

/-- The length of a section's format, MEMMAP apart. -/
def State.sectionLen (s : State) : Nat → Nat
  | 1 => 320 | 2 => 128 | 4 => 48 | 5 => 320 | 6 => 16 | 7 => 48 | 8 => 16 + 32 * s.nPorts + 32 * s.nPcs | _ => 48

/-- A directory entry after those before it (R29 step 3.1 to 3.3). -/
def State.entryErr (s : State) (first last : Nat) (before : List DirE) (e : DirE) : Option FoldErr :=
  let lenOk := if e.id = 3 then decide (24 ≤ e.len) && decide (e.len ≤ 264) && decide ((e.len - 8) % 16 = 0)
    else decide (e.len = s.sectionLen e.id)
  firstErr [
    need (decide (first ≤ e.off) && decide (e.off ≤ last) && decide (e.off % 8 = 0)) 0x0C 0 (e.at_ + 4),
    need (decide (e.off + e.len ≤ last)) 0x0C 0 (e.at_ + 8),
    need (before.all fun x => !(decide (e.off < x.off + x.len) && decide (x.off < e.off + e.len))) 0x0C 0 (e.at_ + 4),
    need (before.all fun x => decide (x.id ≠ e.id)) 0x0C 0 e.at_,
    need (decide (e.flags < 2)) 0x0C 0 (e.at_ + 1),
    need (e.known || (decide (e.flags % 2 = 0) && !(decide (1 ≤ e.id) && decide (e.id ≤ 4)))) 0x0E 0
      (if 1 ≤ e.id && e.id ≤ 9 then e.at_ + 2 else e.at_),
    need (!e.known || lenOk) 0x0C 0 (e.at_ + 8)]

/-- The directory, entry by entry in its order. -/
def State.entriesErr (s : State) (first last : Nat) (before : List DirE) : List DirE → Option FoldErr
  | [] => none
  | e :: r => (s.entryErr first last before e).orElse fun _ => s.entriesErr first last (before ++ [e]) r

/-- The directory of an image (R29 step 3). DESIGN CHOICE: where a required section is missing, no field of the directory is at fault, and
the offset reported is that of the directory, 0x40; see log entry 113. -/
def State.directoryErr (s : State) (b : Bytes) : Option FoldErr :=
  let d := directory b
  let first := 0x40 + 16 * d.length
  let last := uLe b 8 4 - 64
  let free := (List.range (last - first)).find? fun i =>
    u8 b (first + i) ≠ 0 && d.all fun e => !(decide (e.off ≤ first + i) && decide (first + i < e.off + e.len))
  firstErr [s.entriesErr first last [] d, need ([1, 2, 3, 4].all fun k => d.any fun e => e.id = k) 0x0C 0 0x40,
    free.map fun i => (0x0C, 0, first + i)]

/-- The directory in ascending order of identifiers. -/
def byId (d : List DirE) : List DirE := (List.range 256).flatMap fun k => d.filter fun e => e.id = k

/-- The section CRCs (R29 step 4). -/
def crcErr (b : Bytes) : Option FoldErr :=
  (byId (directory b)).findSome? fun e => need (decide (crc32 (slice b e.off e.len) = e.crc)) 0x0D e.id 0

/-- The identifiers skipped under R21, ascending. -/
def skippedIds (b : Bytes) : List Nat := ((byId (directory b)).filter fun e => !e.known).map (·.id)

/-! ## Section contents (R22 to R26, R29 step 5) -/

/-- The slice need of MODES (Table 2-5). -/
def sliceNeed (m : Nat) : Nat :=
  [(0, 1), (1, 1), (2, 1), (3, 1), (4, 2), (5, 2), (6, 1), (7, 3), (8, 1)].foldl (fun a e => if m.testBit e.1 then max a e.2 else a) 0

/-- PORTMAP. DESIGN CHOICE: inside a section the ranges of all entries are checked first, and then the rules among them, in the order of
Table 2-12; see log entry 113. -/
def State.portmapErr (s : State) (b : Bytes) : Option FoldErr :=
  let modes (n : Nat) := uLe b (16 * n) 2
  let ports := List.range 16
  let vec (k : Nat) := u8 b (0x100 + 8 * k)
  let byp (m : Nat) : Nat × Nat × Nat := (u8 b (0x120 + 4 * m), u8 b (0x121 + 4 * m), u8 b (0x122 + 4 * m))
  let on := (List.range 8).filter fun m => (byp m).2.2 = 1
  let member (n : Nat) := (vec (n / 4)).testBit (n % 4)
  firstErr [
    ports.findSome? fun n =>
      let o := 16 * n
      let pad := (modes n).testBit 9
      let small := min (u8 b (o + 8)) (u8 b (o + 9))
      firstErr [need (decide (modes n < 1024)) 0x0F 1 o, inRange (u8 b (o + 2)) 0 6 1 (o + 2), inRange (u8 b (o + 3)) 0 7 1 (o + 3),
        need (decide (u8 b (o + 6) < 4)) 0x0F 1 (o + 6), zeros b 0x0F 1 (o + 7) (o + 8),
        if pad then firstErr [inRange (u8 b (o + 8)) 1 64 1 (o + 8), inRange (u8 b (o + 9)) 1 64 1 (o + 9),
          inRange (u8 b (o + 10)) 1 small 1 (o + 10)] else none,
        zeros b 0x0F 1 (o + 11) (o + 16)],
    (List.range 4).findSome? fun k => firstErr [need (decide (vec k < 16)) 0x0F 1 (0x100 + 8 * k), zeros b 0x0F 1 (0x101 + 8 * k) (0x108 + 8 * k)],
    (List.range 8).findSome? fun m =>
      let o := 0x120 + 4 * m
      firstErr [if (byp m).2.2 = 1 then firstErr [inRange (byp m).1 0 15 1 o, inRange (byp m).2.1 0 15 1 (o + 1)] else none,
        inRange (byp m).2.2 0 1 1 (o + 2), zeros b 0x0F 1 (o + 3) (o + 4)],
    ports.findSome? fun n =>
      need (decide (n < s.nPorts) || (decide (modes n = 0) && decide (u8 b (16 * n + 2) = 0) && !(u8 b (16 * n + 6)).testBit 0)) 0x10 1 (16 * n),
    (List.range 4).findSome? fun k => need (decide (k < s.nFlocks) || decide (vec k = 0)) 0x10 1 (0x100 + 8 * k),
    on.findSome? fun m => need (decide ((byp m).1 < s.nPorts) && decide ((byp m).2.1 < s.nPorts)) 0x10 1 (0x120 + 4 * m),
    ports.findSome? fun n => need (decide (sliceNeed (modes n) ≤ u8 b (16 * n + 2))) 0x11 1 (16 * n + 2),
    ports.findSome? fun n =>
      need (decide (((List.range (n + 1)).map fun j => u8 b (16 * j + 2)).sum ≤ s.nSlices)) 0x12 1 (16 * n + 2),
    (List.range 4).findSome? fun k =>
      need (decide (vec k = 0) || (decide (2 ≤ popcount (vec k) 4) &&
        (maskList (vec k) 4).all fun i => (modes (4 * k + i)).testBit 6)) 0x13 1 (0x100 + 8 * k),
    on.findSome? fun m =>
      let (f, r, _) := byp m
      let used := (on.filter fun j => decide (j < m)).flatMap fun j => [(byp j).1, (byp j).2.1]
      need (decide (f ≠ r) && decide (modes f ≠ 0) && decide (modes r ≠ 0) && !used.contains f && !used.contains r && !member f &&
        !member r) 0x14 1 (0x120 + 4 * m)]

/-- HOSTMAP, with PORTMAP. -/
def State.hostmapErr (s : State) (b pm : Bytes) : Option FoldErr :=
  let lanes := List.range 16
  let port (m : Nat) := u8 b (8 * m)
  let rate (m : Nat) := u8 b (8 * m + 1)
  firstErr [
    lanes.findSome? fun m =>
      let o := 8 * m
      firstErr [need (decide (port m < 16) || decide (port m = 0xFF)) 0x0F 2 o, inRange (rate m) 0 2 2 (o + 1), inRange (u8 b (o + 2)) 0 1 2 (o + 2),
        inRange (u8 b (o + 3)) 0 1 2 (o + 3), inRange (u8 b (o + 4)) 0 7 2 (o + 4), inRange (u8 b (o + 5)) 0 15 2 (o + 5),
        need (decide (u8 b (o + 6) = 0) || decide (248 ≤ u8 b (o + 6))) 0x0F 2 (o + 6),
        need (decide (u8 b (o + 7) = 0) || decide (240 ≤ u8 b (o + 7))) 0x0F 2 (o + 7)],
    lanes.findSome? fun m =>
      need (decide (port m = 0xFF) && decide (rate m = 0) || (decide (m < s.nPorts) && (decide (port m = 0xFF) || decide (port m < s.nPorts))))
        0x10 2 (8 * m),
    lanes.findSome? fun m =>
      firstErr [need (decide (rate m ≠ 0) || decide (port m = 0xFF)) 0x15 2 (8 * m), need (decide (u8 b (8 * m + 2) = 0) || decide (rate m = 2)) 0x15 2 (8 * m + 2),
        need (decide (port m = 0xFF) || (List.range m).all fun j => decide (port j ≠ port m)) 0x15 2 (8 * m)],
    lanes.findSome? fun n => need (decide (uLe pm (16 * n) 2 = 0) || lanes.any fun m => decide (port m = n)) 0x15 1 (16 * n)]

/-- MEMMAP, with PORTMAP. -/
def State.memmapErr (s : State) (b pm : Bytes) : Option FoldErr :=
  let n := (b.length - 8) / 16
  let ps := List.range n
  let o (i : Nat) := 8 + 16 * i
  let ty (i : Nat) := u8 b (o i)
  let base (i : Nat) := uLe b (o i + 4) 4
  let size (i : Nat) := uLe b (o i + 8) 4
  let space := (s.nChans - u8 b 0) * 1024
  let used := (List.range 16).filter fun p => uLe pm (16 * p) 2 ≠ 0
  let pads := (List.range 16).filter fun p => (uLe pm (16 * p) 2).testBit 9
  let pad := (ps.find? fun i => ty i = 1).getD 0
  firstErr [
    inRange (u8 b 0) 0 (match s.part with | .xs716 => 4 | .xs708 => 2) 3 0, inRange (u8 b 1) n n 3 1, zeros b 0x0F 3 2 8,
    ps.findSome? fun i => firstErr [inRange (ty i) 1 4 3 (o i), inRange (u8 b (o i + 1)) 0 3 3 (o i + 1), inRange (u8 b (o i + 2)) 0 2 3 (o i + 2),
      zeros b 0x0F 3 (o i + 3) (o i + 4), inRange (uLe b (o i + 12) 4) 0 (size i) 3 (o i + 12)],
    ps.findSome? fun i => need (decide (ty i = 4) || (List.range i).all fun j => decide (ty j ≠ ty i)) 0x16 3 (o i),
    need (ps.any fun i => ty i = 1) 0x16 3 1,
    ps.findSome? fun i => need ((List.range i).all fun j =>
      !(decide (base i < base j + size j) && decide (base j < base i + size i))) 0x16 3 (o i + 4),
    ps.findSome? fun i => need (decide (base i + size i ≤ space)) 0x16 3 (o i + 8),
    need (decide (used.length + (pads.map fun p => u8 pm (16 * p + 8) + u8 pm (16 * p + 9)).sum ≤ size pad)) 0x17 3 (o pad + 8),
    need (decide (used.length + 2 * (pads.map fun p => u8 pm (16 * p + 10)).sum ≤ uLe b (o pad + 12) 4)) 0x17 3 (o pad + 12)]

/-- The default return delays (Table 12-5). -/
def returnDefaults : List Nat := [1500, 50, 200, 100, 52, 100, 5000]

/-- POWER. -/
def State.powerErr (s : State) (b : Bytes) : Option FoldErr :=
  let (lo, hi) := match s.part with | .xs716 => (20000, 72000) | .xs708 => (12000, 40000)
  firstErr [inRange (uLe b 0 4) lo hi 4 0, inRange (u8 b 4) 0 3 4 4, inRange (u8 b 5) (u8 b 4) 3 4 5, inRange (u8 b 6) 0 8 4 6,
    zeros b 0x0F 4 7 8, returnDefaults.zipIdx.findSome? fun e => inRange (uLe b (8 + 4 * e.2) 4) e.1 100000 4 (8 + 4 * e.2),
    need (decide (uLe b 0x24 2 < 64)) 0x0F 4 0x24, zeros b 0x0F 4 0x26 0x30]

/-- EVENTS. -/
def State.eventsErr (s : State) (b : Bytes) : Option FoldErr :=
  (List.range 320).findSome? fun i => need (decide (u8 b i = 0) || s.srcPresent i) 0x10 5 i

/-- POSITION. -/
def positionErr (b : Bytes) : Option FoldErr :=
  firstErr [inRange (uLe b 0 2) 1 65535 6 0, inRange (uLe b 2 2) 300 1500 6 2, need (decide (u8 b 4 < 4)) 0x0F 6 4,
    inRange (u8 b 5) 1 100 6 5, inRange (u8 b 6) 1 100 6 6, inRange (u8 b 7) 1 255 6 7, zeros b 0x0F 6 8 16]

/-- PISTE. -/
def State.pisteErr (s : State) (b : Bytes) : Option FoldErr :=
  firstErr [need (decide (u8 b 0 < 8)) 0x0F 7 0, inRange (u8 b 1) 1 255 7 1, inRange (u8 b 3) 1 255 7 3, inRange (u8 b 4) 1 15 7 4,
    inRange (u8 b 5) 1 255 7 5, inRange (u8 b 6) 1 255 7 6, inRange (u8 b 7) 1 255 7 7, inRange (u8 b 8) 1 3 7 8, zeros b 0x0F 7 9 16,
    need (decide (uLe b 0x14 4 = 0) || decide (uLe b 0x14 4 ≠ uLe b 0x10 4)) 0x0F 7 0x14, zeros b 0x0F 7 0x18 0x20,
    (List.range 16).findSome? fun n => need (decide (u8 b (0x20 + n) < 16)) 0x0F 7 (0x20 + n),
    (List.range 16).findSome? fun n => need (decide (n < s.nPorts) || decide (u8 b (0x20 + n) = 0)) 0x10 7 (0x20 + n)]

/-- TRIMS: its counts and reserved bytes; SERIAL and the records are judged at the apply (R234). -/
def State.trimsErr (s : State) (b : Bytes) : Option FoldErr :=
  firstErr [inRange (u8 b 8) s.nPorts s.nPorts 8 8, inRange (u8 b 9) s.nPcs s.nPcs 8 9, zeros b 0x0F 8 10 16]

/-- ACCESS. -/
def State.accessErr (s : State) (b : Bytes) : Option FoldErr :=
  let c := uLe b 0 4
  firstErr [need (decide (c < 2048) && c.testBit 7 && c.testBit 8) 0x0F 9 0, need (decide (u8 b 4 < 4)) 0x0F 9 4, zeros b 0x0F 9 5 6,
    inRange (uLe b 6 2) 1 1440 9 6, inRange (uLe b 8 2) 1 1440 9 8, zeros b 0x0F 9 10 16,
    (List.range 16).findSome? fun n => need (decide (u8 b (0x10 + n) < 8)) 0x0F 9 (0x10 + n), zeros b 0x0F 9 0x20 0x30,
    (List.range 16).findSome? fun n => need (decide (n < s.nPorts) || decide (u8 b (0x10 + n) = 0)) 0x10 9 (0x10 + n)]

/-- The body of an implemented section of an image; empty where it has none. -/
def bodyOf (b : Bytes) (id : Nat) : Bytes :=
  match (directory b).find? fun e => e.id = id && e.known with
  | some e => slice b e.off e.len
  | none => []

/-- The contents of an image's sections (R29 step 5). -/
def State.contentErr (s : State) (b : Bytes) : Option FoldErr :=
  let pm := bodyOf b 1
  let opt (id : Nat) (f : Bytes → Option FoldErr) : Option FoldErr := let x := bodyOf b id; if x = [] then none else f x
  firstErr [s.portmapErr pm, s.hostmapErr (bodyOf b 2) pm, s.memmapErr (bodyOf b 3) pm, s.powerErr (bodyOf b 4), opt 5 s.eventsErr,
    opt 6 positionErr, opt 7 s.pisteErr, opt 8 s.trimsErr, opt 9 s.accessErr]

/-- The checks of an image in the order of R29; `staged` is its staged length. -/
def State.imageErr (s : State) (b : Bytes) (staged : Nat) : Option FoldErr :=
  (s.headerErr b (some staged)).orElse fun _ => (s.signatureErr b).orElse fun _ => (s.directoryErr b).orElse fun _ =>
    (crcErr b).orElse fun _ => s.contentErr b

/-- The check of a slot at boot and before a commit (R30, R32, R33): the code of the first failure; 0x01 for an empty slot. -/
def State.slotErr (s : State) (b : Bytes) : Option Nat :=
  if b = [] then some 0x01
  else ((s.headerErr b none).orElse fun _ => (s.signatureErr b).orElse fun _ => (s.directoryErr b).orElse fun _ => crcErr b).map (·.1)

/-! ## The commit word (Table 2-13) -/

/-- The commit word. -/
def State.commitWord (s : State) : Nat := s.wide A.DEV_FOLD_COMMIT

/-- The commit word is valid. -/
def State.commitOk (s : State) : Bool :=
  let w := s.commitWord
  decide (bits w 48 16 = 0xF01D) && decide (bits w 8 8 = commitCheck (BitVec.ofNat 64 w))

/-- The commit word of a SEQ and slot. -/
def makeCommit (seq slot : Nat) : Nat :=
  let w := 0xF01D * 2 ^ 48 + seq % 4294967296 * 65536 + slot % 2
  w + 256 * commitCheck (BitVec.ofNat 64 w)

/-- The slot that FOLD_LOAD writes (R31): the one that is not committed. DESIGN CHOICE: slot A while the commit word is invalid. -/
def State.loadSlot (s : State) : Nat :=
  if s.flag F.DEV_FOLD_STATUS_COMMIT_VALID then 1 - s.get F.DEV_FOLD_STATUS_COMMITTED_SLOT else 0

/-- The staged image of a length (R31). -/
def State.staged (s : State) (len : Nat) : Bytes := (s.wordBytes (A.DEV_FOLD_STAGE 0) ((min len 262144 + 3) / 4)).take len

/-- The running fold that an image makes: the bodies and the CRCs of its implemented sections. -/
def foldOf (b : Bytes) : Fold :=
  (directory b).foldl (fun f e =>
    if e.known then { sections := Tbl.set f.sections [] e.id (slice b e.off e.len), crcs := Tbl.set f.crcs 0 e.id e.crc } else f) {}

end Sys2Proof.Machine
end

