-- ==== Sys2Proof/Machine/Apply.lean ====
section
/-!
DEFINITION. What an apply of a fold sets: the live sections (Table 2-10), the structure (Table 2-14), and the restart of
the ports, as a FOLD_LOAD, a re-lay (R289) and a start (R33) use them.
-/
namespace Sys2Proof.Machine

/-! ## Live sections (Table 2-10) -/

/-- POWER: the budget; the drover reads its other fields from the running fold. -/
def State.applyPower (s : State) : State := s.put F.DRV_BUDGET_MW (uLe (s.sec_ 4) 0 4)

/-- EVENTS (R413): routes and masks of every source; without the section every route is 0 and every source is masked. -/
def State.applyEvents (s : State) : State :=
  let e := s.sec_ 5
  s.reroute fun t =>
    let t := t.each (List.range 320) fun u i => u.putWord (A.EVT_ROUTE i) (BitVec.ofNat 32 (u8 e i))
    t.each (List.range 10) fun u w =>
      u.put (F.EVT_MASK_MASK w) (4294967295 - listMask ((List.range 32).filter fun b => (u8 e (32 * w + b)).testBit 7))

/-- POSITION (Table 6-6); without the section the odometer inputs are ignored. -/
def State.applyPosition (s : State) : State :=
  let p := s.sec_ 6
  let p : Bytes := if p = [] then [0, 0, 0, 0, 0, 30, 25, 10] else p
  (s.each [(F.POS_WHEEL_PPR, uLe p 0 2), (F.POS_WHEEL_WHEEL_MM, uLe p 2 2), (F.POS_CFG_ODO_EN, bits (u8 p 4) 0 1),
    (F.POS_CFG_ODO_SENSE, bits (u8 p 4) 1 1), (F.POS_CFG_ACC_LIMIT, u8 p 5), (F.POS_CFG_GLITCH, u8 p 6),
    (F.POS_CFG_FIX_MAX_AGE, u8 p 7)] fun t e => t.put e.1 e.2).setScale

/-- PISTE (Table 6-7). Without the section no route is bound and nothing is learned; DESIGN CHOICE: nothing arms either, and the
other fields take their defaults. -/
def State.applyPiste (s : State) : State :=
  let p := s.sec_ 7
  let p : Bytes := if p = [] then [0, 50, 10, 10, 2, 6, 25, 40, 1] else p
  let s := s.each [(F.PISTE_CTRL_ARM_EN, bits (u8 p 0) 0 1), (F.PISTE_CTRL_LEARN_EN, bits (u8 p 0) 1 1),
    (F.PISTE_CTRL_AUTOSAVE, bits (u8 p 0) 2 1), (F.PISTE_CTRL_LEAD_M, u8 p 1), (F.PISTE_CTRL_TRAIL_M, u8 p 2),
    (F.PISTE_CTRL_REV_DM, u8 p 3), (F.PISTE_LEARN_ARM_CONF, u8 p 4), (F.PISTE_LEARN_AGE_LIMIT, u8 p 5),
    (F.PISTE_LEARN_MATCH_M, u8 p 6), (F.PISTE_LEARN_MIN_LEN_M, u8 p 7), (F.PISTE_LEARN_LEARN_PROF, u8 p 8)] fun t e => t.put e.1 e.2
  (s.each (List.range s.nPorts) fun t n => (t.put (F.PISTE_PORT_FACING n) (bits (u8 p (0x20 + n)) 0 2)).put
    (F.PISTE_PORT_LEAD_OVR n) (bits (u8 p (0x20 + n)) 2 2)).claims

/-- The live sections of the running fold take effect; ACCESS is read from the fold at each access. `bad` names the units whose
TRIMS record fails the check after its run. A fold apply offers ILM again (R95). -/
def State.applyLive (s : State) (bad : Nat) : State :=
  (s.applyPower.applyEvents.applyPosition.applyPiste.applyTrimsSection (s.sec_ 8) bad).each (List.range s.nPorts) State.offerIlm

/-! ## Structure -/

/-- The bypass outputs that the fold lets the device hold (R334). -/
def State.bypassMask (s : State) : Nat :=
  listMask ((List.range 8).filter fun m => (s.bypass m).any fun e => decide (s.pModes e.1 ≠ 0) && decide (s.pModes e.2 ≠ 0))

/-- Hold the bypass outputs (R334). -/
def State.holdBypass (s : State) : State := s.withPins { s.pins with byp := s.bypassMask }

/-- Release every bypass output. -/
def State.releaseBypass (s : State) : State := s.withPins { s.pins with byp := 0 }

/-- A lane begins blind (R303): it is not locked, and its detectors start afresh. -/
def State.blindLane (s : State) (m : Nat) : State :=
  (s.each [F.HL_STATUS_LOCKED m, F.HL_STATUS_SIGNAL m, F.HL_STATUS_CDR_LOCK m, F.HL_STATUS_BLOCK_LOCK m, F.HL_STATUS_FEC_LOCK m,
    F.HL_STATUS_HI_BER m, F.HL_STATUS_RF_SENDING m, F.HL_STATUS_LF_SENDING m] fun t f => t.put f 0).modHl m fun _ => {}

/-- Local Fault on the lane of every port that is not up (R118). -/
def State.faultLanes (s : State) : State :=
  s.each ((List.range s.nPorts).filter fun n => !s.up n) fun t n => t.laneFault n true

/-- The structure of the running fold as the registers show it: lanes, vector groups, priorities and enables, and the bypass
outputs are held. -/
def State.showStructure (s : State) : State :=
  let hm := s.sec_ 2
  let s := s.each (List.range s.nPorts) fun t m =>
    let o := 8 * m
    t.each [(F.HL_CFG_PORT m, if hm = [] then 0xFF else u8 hm o), (F.HL_CFG_RATE m, u8 hm (o + 1)), (F.HL_CFG_FEC m, u8 hm (o + 2)),
      (F.HL_CFG_FLOW m, u8 hm (o + 3)), (F.HL_CFG_PFC_PRIO m, u8 hm (o + 4)), (F.HL_EQ_CTLE m, u8 hm (o + 5)),
      (F.HL_EQ_FFE_PRE m, u8 hm (o + 6)), (F.HL_EQ_FFE_POST m, u8 hm (o + 7))] fun u e => u.put e.1 e.2
  let s := s.each (List.range s.nFlocks) fun t k => (t.put (F.FLOCK_VEC_STATE_CONFIG k) (t.vecMask k)).showFlock k
  let s := s.each (List.range s.nPorts) fun t n =>
    (t.put (F.DRV_PORT_PRIORITY n) (t.pPriority n)).put (F.PORT_MODE_ENABLE n) (t.pFlags n % 2)
  s.holdBypass

/-- The running fold is that of an image, or the blank fold where there is none; `src` is RUN_SRC. -/
def State.runFold (s : State) (image : Bytes) (src : Nat) : State :=
  let s := s.withFold (if image = [] then {} else foldOf image)
  let committed := s.flag F.DEV_FOLD_STATUS_COMMIT_VALID && decide (src = s.get F.DEV_FOLD_STATUS_COMMITTED_SLOT + 1)
  s.each [(F.DEV_FOLD_STATUS_RUN_SRC, src), (F.DEV_FOLD_STATUS_RUN_COMMITTED, b2n committed), (F.DEV_FOLD_RUN_SERIAL, uLe image 0x1C 4),
    (F.DEV_FOLD_RUN_FOLD_ID, uLe image 0x18 4)] fun t e => t.put e.1 e.2

/-- A port that the fold lets start: used, and enabled. -/
def State.portWanted (s : State) (n : Nat) : Bool := decide (s.pModes n ≠ 0) && s.flag (F.PORT_MODE_ENABLE n)

/-- Place the paddocks of the enabled ports afresh (R122), and start the ports: one that cannot be placed, or that R289 holds
down, is down with cause PADDOCK; a port in `cold` has no stored state; the others restart warm where they hold stored state. -/
def State.startPorts (s : State) (cold : Nat) : State :=
  let held := s.get F.FAB_PAD_DOWN_PORTS
  let ports := List.range s.nPorts
  let s := s.each ports State.dropGrains
  let want := ports.filter fun n => s.portWanted n && !held.testBit n
  let (s, bad) := s.place want
  let s := s.each (ports.filter fun n => !want.contains n) State.showPad
  s.each ports fun t n =>
    let t := if cold.testBit n || !t.portWanted n then t.dropStored n else t
    if !t.portWanted n then t.startAn n
    else if held.testBit n || bad.contains n then t.padDown n
    else t.comeBack n

/-! ## The evidence writer and the census around a quiesced stack (R403, R408) -/

/-- The writers stop while the stack is quiesced; their segments stay as they are. -/
def State.pauseRings (s : State) : State :=
  s.each ((List.range 4).filter fun r => (s.ring r).on) fun t r =>
    (t.modRing r fun x => { x with on := false }).put (F.EVID_RING_STATE_STATE r) 0

/-- The writers and the census run again, on the rings whose range still fits. -/
def State.resumeRings (s : State) : State := (s.each (List.range 4) State.startRing).showCensus

end Sys2Proof.Machine
end

