-- ==== Sys2Proof/Machine/Fold.lean ====
section
/-!
DEFINITION. The fold commands and the structural apply (R28 to R38, Table 2-14).
-/
namespace Sys2Proof.Machine

/-- The valid bit of a fold slot. -/
def slotValid (u : Nat) : Fld := if u = 0 then F.DEV_FOLD_STATUS_SLOT_A_VALID else F.DEV_FOLD_STATUS_SLOT_B_VALID

/-- Result words 2 to 7 of a FOLD_LOAD whose image was applied or written (R21, R37), after word 1. -/
def loadWords (up training sent disc : Nat) (skipped : List Nat) : List Nat :=
  [0, up, training, sent, disc, leVal ((skipped.take 4).map (BitVec.ofNat 8)), skipped.getD 4 0 + 16777216 * skipped.length]

/-- The ports up, as a mask. -/
def State.upMask (s : State) : Nat := listMask ((List.range s.nPorts).filter s.up)

/-- An enabled port that is neither up nor failed nor, in `alone`, without a partner (R37). -/
def State.stillTrains (s : State) (alone n : Nat) : Bool :=
  s.portWanted n && !s.up n && !s.apply.tried.testBit n && !(alone.testBit n && s.an n = 1) && !(s.get F.FAB_PAD_DOWN_PORTS).testBit n

/-- The ports still training, as a mask. -/
def State.trainingMask (s : State) (alone : Nat) : Nat := listMask ((List.range s.nPorts).filter (s.stillTrains alone))

/-- The ports that await a token, train or restart warm, as a mask: those that word 3 of a live apply names. -/
def State.inTraining (s : State) : Nat := listMask ((List.range s.nPorts).filter fun n => s.portWanted n && [2, 3, 5].contains (s.an n))

/-- A fold command meets another, a structural apply or a power state entry (R38). -/
def State.foldBusy (s : State) : Bool := decide (s.apply.stage ≠ 0) || decide (s.pwr.entry ≠ 0)

/-- Write an image into a fold slot (R31): the running fold of that slot is overwritten; a write that fails its read-back leaves
the slot invalid. DESIGN CHOICE: it then counts as empty, so that a FOLD_COMMIT of it reports 0x01; see log entry 113. -/
def State.writeFoldSlot (s : State) (u : Nat) (b : Bytes) (nvFail : Bool) : State :=
  let s := if s.get F.DEV_FOLD_STATUS_RUN_SRC = u + 1 then s.put F.DEV_FOLD_STATUS_RUN_SRC 3 else s
  let s := s.withNv { s.nv with foldSlots := Tbl.set s.nv.foldSlots [] u (if nvFail then [] else b) }
  s.put (slotValid u) (b2n (!nvFail))

/-- The structural sections of an image have the CRCs of the running fold (R35). -/
def State.sameStructure (s : State) (b : Bytes) : Bool :=
  decide (s.fold.sections ≠ []) && [1, 2, 3].all fun i => Tbl.get s.fold.crcs 0 i = Tbl.get (foldOf b).crcs 0 i

/-- FOLD_LOAD (R29, R31, R35). `nvFail`: the slot write fails its read-back; `bad`: units whose TRIMS record fails its check. -/
def execFoldLoad (slot : BitVec 6) (nvFail : Bool) (bad : BitVec 48) (s : State) : Host.Outcome State Fault Refusal :=
  let k := slot.toNat
  .next (
    if !s.taken k 0x01 || !s.herderRuns || !s.stackOpen then s
    else
      let len := s.param k 0
      let b := s.staged len
      let obj := uLe b 0x1C 4
      if s.foldBusy then s.completeLogged k 0x06 obj stBusy 0 []
      else match s.imageErr b len with
        | some (code, id, off) =>
          (s.put F.DEV_FOLD_STATUS_LAST_ERR code).completeLogged k 0x06 obj stInvalid code [id * 16777216 + off % 16777216]
        | none =>
          let u := s.loadSlot
          let s := s.writeFoldSlot u b nvFail
          if nvFail then (s.put F.DEV_FOLD_STATUS_LAST_ERR 0x18).completeLogged k 0x06 obj stNv 0x18 []
          else
            let s := s.put F.DEV_FOLD_STATUS_LAST_ERR 0
            let skipped := skippedIds b
            if !(s.param k 1).testBit 0 then s.completeLogged k 0x06 obj stOk 0 (loadWords 0 0 0 0 skipped)
            else if s.sameStructure b then
              let s := (s.runFold b (u + 1)).applyLive bad.toNat
              s.completeLogged k 0x06 obj stOk 0 (loadWords s.upMask s.inTraining 0 0 skipped)
            else
              (s.begin k []).beginApply (bodyOf b 1) (bodyOf b 2) { slot := k + 1, image := b, src := u + 1, skipped := skipped })

/-! ## Stages of the structural apply -/

/-- A section of the fold that the apply brings; the running fold's in a re-lay. -/
def State.newSec (s : State) (id : Nat) : Bytes := if s.apply.relay then s.sec_ id else bodyOf s.apply.image id

/-- The latest time of a stage's end after the start of the apply, in ns (Table 2-14). -/
def stageEnd : Nat → Nat
  | 3 => 5000000
  | 4 => 7000000
  | 5 => 27000000
  | 6 => 37000000
  | _ => 38000000

/-- The drains end; the pairs are silent; bypass outputs whose pair the new fold drops or changes are released. -/
def State.stageDrained (s : State) : State :=
  let s := s.each (List.range s.nPorts) fun t n => if t.flag (F.PORT_PAD_STATE_DRAINING n) then t.endDrain n else t
  let (old, new) := (s.sec_ 1, s.newSec 1)
  let keep := listMask ((List.range 8).filter fun m => slice old (0x120 + 4 * m) 3 = slice new (0x120 + 4 * m) 3)
  s.withPins { s.pins with byp := s.pins.byp &&& keep }

/-- The stack is quiesced. -/
def State.stageQuiesced (s : State) : State := s.pauseRings.put F.CEN_STATUS_RUNNING 0

/-- The partitions are re-laid. -/
def State.stageLaid (s : State) : State :=
  (s.reLay (s.newSec 3) (s.newSec 1) s.inService s.partsNow s.apply.relay).put F.CEN_STATUS_RUNNING 0

/-- Slices, groups, pairs and lanes are those of the new fold. -/
def State.stageMapped (s : State) : State :=
  if s.apply.relay then s.holdBypass else (s.runFold s.apply.image s.apply.src).showStructure

/-- The apply is over: the host's frames are no longer held, the lanes of ports that are down send Local Fault, and a re-lay
that is due begins. -/
def State.endApply (s : State) : State :=
  let again := s.apply.again
  let s := s.each (maskList s.apply.held s.nPorts) fun t m => t.laneHold m false
  let s := ((s.withApply {}).put F.DEV_FOLD_STATUS_APPLY_STATE 0).faultLanes
  let s := s.each (List.range s.nPorts) fun t n =>
    let t := t.modPd n fun p => { p with drainHold := false }
    if t.holdsHost n || t.up n then t else t.xon n
  if again then s.relay else s

/-- Changed lanes restart blind; the ports start; the stack serves again; the live sections take effect. -/
def State.stageStarted (s : State) (bad : Nat) : State :=
  let a := s.apply
  let s := s.withApply { a with stage := 8, tried := 0 }
  let s := s.each (maskList a.lanes s.nPorts) State.blindLane
  let s := ((s.startPorts a.cold).serveQueues.resumeRings).keepLayout (s.sec_ 3)
  let s := if a.relay then s else s.applyLive bad
  if a.slot = 0 then s.endApply else s

/-- The end of the stage in progress. -/
def State.endStage (s : State) (bad : Nat) : State :=
  match s.apply.stage with
  | 3 => s.stageDrained
  | 4 => s.stageQuiesced
  | 5 => s.stageLaid
  | 6 => s.stageMapped
  | _ => s.stageStarted bad

/-- STRUCTURAL_APPLY_STAGE (Table 2-14): the stage in progress ends, by its latest time, and the next begins. `bad`: units
whose TRIMS record fails its check. -/
def execStructuralApplyStage (bad : BitVec 48) (s : State) : Host.Outcome State Fault Refusal :=
  let g := s.apply.stage
  .next (
    if !(3 ≤ g && g ≤ 7) || !s.herderRuns || !s.stackOpen then s
    else if g = 7 then (s.timeTo (s.apply.start + s.apply.halted + stageEnd 7)).endStage bad.toNat
    else
      let s := (s.timeTo (s.apply.start + s.apply.halted + stageEnd g)).endStage bad.toNat
      (s.withApply { s.apply with stage := g + 1 }).put F.DEV_FOLD_STATUS_APPLY_STATE (g + 1))

/-- FOLD_LOAD_COMPLETION (R37): every enabled port is up, has failed, or has no partner, or 450 ms have gone. `alone`: the ports whose
negotiation hears no partner. -/
def execFoldLoadCompletion (alone : BitVec 16) (s : State) : Host.Outcome State Fault Refusal :=
  let a := s.apply
  .next (
    if a.stage ≠ 8 || a.slot = 0 || !s.herderRuns then s
    else
      let s := if s.trainingMask alone.toNat = 0 then s else s.timeTo (a.start + a.halted + 450000000)
      let s := s.completeLogged (a.slot - 1) 0x06 (uLe a.image 0x1C 4) stOk 0
        (loadWords s.upMask (s.trainingMask alone.toNat) a.sent a.disc a.skipped)
      s.endApply)

/-- An apply is abandoned (R38, Table 13-4): its FOLD_LOAD completes with the aborted status. -/
def State.abandonApply (s : State) : State :=
  let a := s.apply
  if a.stage = 0 then s else
  let s := if a.slot = 0 then s else s.completeLogged (a.slot - 1) 0x06 (uLe a.image 0x1C 4) stAborted 0 []
  (s.withApply {}).put F.DEV_FOLD_STATUS_APPLY_STATE 0

/-! ## FOLD_COMMIT (R30, R32) -/

/-- FOLD_COMMIT. `nvFail`: the write of the commit word fails its read-back. DESIGN CHOICE: after an invalid commit word SEQ begins at 1;
see log entry 113. -/
def execFoldCommit (slot : BitVec 6) (nvFail : Bool) (s : State) : Host.Outcome State Fault Refusal :=
  let k := slot.toNat
  let u := s.param k 0 % 2
  let b := Tbl.get s.nv.foldSlots [] u
  let obj := uLe b 0x1C 4
  .next (
    if !s.taken k 0x02 || !s.herderRuns || !s.clocked then s
    else if s.foldBusy then s.completeLogged k 0x07 obj stBusy 0 []
    else if s.flag F.DEV_FOLD_STATUS_COMMIT_VALID && s.get F.DEV_FOLD_STATUS_COMMITTED_SLOT = u then
      s.completeLogged k 0x07 obj stOk 0 []
    else match s.slotErr b with
      | some code => (s.put (slotValid u) 0).completeLogged k 0x07 obj stInvalid code []
      | none =>
        let s := s.put (slotValid u) 1
        if nvFail then s.completeLogged k 0x07 obj stNv 0x18 []
        else
          let seq := if s.commitOk then bits s.commitWord 16 32 + 1 else 1
          let s := s.putWide A.DEV_FOLD_COMMIT (makeCommit (seq % 4294967296) u)
          let s := s.each [(F.DEV_FOLD_STATUS_COMMIT_VALID, 1), (F.DEV_FOLD_STATUS_COMMITTED_SLOT, u),
            (F.DEV_FOLD_STATUS_RUN_COMMITTED, b2n (decide (s.get F.DEV_FOLD_STATUS_RUN_SRC = u + 1)))] fun t e => t.put e.1 e.2
          let floor := s.get F.DEV_FOLD_FLOOR_FLOOR
          let s := if (s.param k 0).testBit 8 then s.put F.DEV_FOLD_FLOOR_FLOOR (max floor obj) else s
          s.completeLogged k 0x07 obj stOk 0 [])

end Sys2Proof.Machine
end

