-- ==== Sys2Proof/Machine/Reset.lean ====
section
/-!
DEFINITION. Resets and the cold start (R265, R323, R357 to R365, R388, Tables 13-6 and 13-7).
-/
namespace Sys2Proof.Machine

/-! ## What a reset keeps of the registers -/

/-- The word of an array of registers that an offset names. -/
def arrayWord (base n off : Nat) : Option Nat :=
  if base ≤ off && off < base + 4 * n then some ((off - base) / 4) else none

/-- The bits of a register word that a reset keeps: what the NV store holds and, but for a power-on reset, what the always-on
domain holds; of the event block only the always-on sources (R417). -/
def keptMask (powerOn : Bool) (off : Nat) : Word :=
  let held := match regAt off with
    | some (r, w) => r.fields.foldl (fun a f =>
        if f.hold = .nv || (!powerOn && f.hold = .ao) then a ||| f.mask w else a) 0
    | none => 0
  match arrayWord (A.EVT_STATUS 0) 10 off, arrayWord (A.EVT_MASK 0) 10 off, arrayWord (A.EVT_ROUTE 0) 320 off with
  | some w, _, _ => if powerOn then 0 else alwaysOnMask w
  | _, some w, _ => if powerOn then 0 else alwaysOnMask w
  | _, _, some i => if !powerOn && alwaysOnSrc i then 0xFFFFFFFF else 0
  | _, _, _ => held

/-- The registers after a reset. -/
def State.resetRegs (s : State) (powerOn : Bool) : State :=
  s.withRegs (s.regs.filterMap fun e =>
    let m := keptMask powerOn e.1
    let r := resetWord s.part e.1
    let v := (e.2 &&& m) ||| (r &&& ~~~m)
    if v = r then none else some (e.1, v))

/-! ## Erasures (Table 15-7) -/

/-- Every FILLED flag clears: the stack's contents are gone (R265). -/
def State.loseStack (s : State) : State :=
  let s := ((s.withDram []).withChk []).markChunks 3 fun _ _ => true
  s.each (List.range s.nPcs) fun t pc => t.each (List.range 16) fun u b => u.resetFill pc b []

/-- The erasures on entering a life cycle state: 1 PROV, 3 RMA, 4 END. -/
def State.erase (s : State) (lc : Nat) : State :=
  let s := if lc = 3 || lc = 4 then
      let s := (s.withNv { s.nv with keys := [], foldSlots := [], piste := [], thresh := [] }).showKeys
      let s := (s.putWide A.DEV_FOLD_COMMIT 0).put F.DEV_FOLD_FLOOR_FLOOR 0
      let s := s.each [F.DEV_FOLD_STATUS_COMMIT_VALID, F.DEV_FOLD_STATUS_COMMITTED_SLOT, F.DEV_FOLD_STATUS_SLOT_A_VALID,
        F.DEV_FOLD_STATUS_SLOT_B_VALID, F.DEV_FOLD_STATUS_RUN_COMMITTED] fun t f => t.put f 0
      let s := if s.get F.DEV_FOLD_STATUS_RUN_SRC = 0 then s else s.put F.DEV_FOLD_STATUS_RUN_SRC 3
      s.each (List.range s.nPorts) fun t n =>
        let t := t.each (List.range 18) fun u j => u.putWord (A.PORT_DIAG_BASE n j) 0
        (t.putWide (A.PORT_PARTNER_SN n) 0).putWide (A.PORT_PARTNER_PREV n) 0
    else s
  let s := if lc = 1 || lc = 3 || lc = 4 then s.loseStack else s
  if lc = 4 then
    (s.withNv { s.nv with fwSlots := [], fwVer := [], fwCommitted := false }).put F.DEV_FW_STATUS_COMMITTED_SLOT 0
  else s

/-! ## The reset -/

/-- DEV_RESET_CAUSE (R358): the causes of one reset are those that arose before it completed. -/
def State.noteCause (s : State) (cause : Nat) : State :=
  let open_ := cause ≠ 1 && (s.pwr.held = 2 || s.pwr.held = 4)
  let seen := (if open_ then s.get F.DEV_RESET_CAUSE_SEEN else 0) ||| (1 <<< (cause - 1))
  let first := ((List.range 9).find? fun i => seen.testBit i).getD 0 + 1
  let s := (s.put F.DEV_RESET_CAUSE_CAUSE first).put F.DEV_RESET_CAUSE_SEEN seen
  if cause = 1 then s.put F.DEV_RESET_CAUSE_COUNT 0
  else if open_ then s
  else s.put F.DEV_RESET_CAUSE_COUNT (s.get F.DEV_RESET_CAUSE_COUNT + 1)

/-- Roles of the channels before a list is formed. -/
def State.showRoles (s : State) : State :=
  s.each (List.range 16) fun t c =>
    t.put (F.MEM_CH_STATE_ROLE c) (if s.nChans ≤ c then 3 else if s.nv.retired.testBit c then 2 else 0)

/-- A FOLD_LOAD that a reset cuts short leaves the slot that it writes invalid (R34). DESIGN CHOICE: one whose image passes its checks is
taken to be writing; see log entry 113. -/
def State.cutLoad (s : State) : State :=
  if (List.range 64).any fun k => s.taken k 0x01 && (s.imageErr (s.staged (s.param k 0)) (s.param k 0)).isNone then
    s.withNv { s.nv with foldSlots := Tbl.set s.nv.foldSlots [] s.loadSlot [] }
  else s

/-- Chunks with a block in a bank that is not wholly filled: a reset empties the bank (R265), so they are LOST (R404). -/
def State.markUnfilled (s : State) : State :=
  s.markChunks 3 fun k c => (s.mibBlocks k c).any fun e => !(s.bk e.1 (e.2 % 16)).filled

/-- The device is reset with a cause of Table 13-6 (R357): the core, stack controller and host domains, every command, the
profile store. `keep`: the stack keeps its contents, in self-refresh (R255). The return from Winter (cause 5) sets the generations
of the mailbox slots to 0, as a power-on reset does (R311). -/
def State.resetCore (s : State) (cause : Nat) (keep : Bool) : State :=
  let powerOn := decide (cause = 1)
  let s := s.cutLoad
  let s := s.withPci { link := !s.pci.perst, perst := s.pci.perst }
  let s := s.endSession 4
  let s := if keep then (s.each (List.range 4) State.stopRing).markUnfilled else s.clearEvidence
  let rings := if keep then s.evid.rings else []
  let failed := s.sliceList.filter fun x => s.sliceState x = 3
  let stale := (List.range s.nPcs).filter fun pc => let (c, p) := pcIdx pc
    s.frozen pc || s.flag (F.MEM_INTEG_STATE_REC_STALE c p)
  let frozen := (List.range s.nPcs).filter s.frozen
  let causes := frozen.map fun pc => let (c, p) := pcIdx pc; (pc, s.get (F.MEM_INTEG_STATE_CAUSE c p))
  let why := (s.noteCause cause).word A.DEV_RESET_CAUSE
  let s := (s.resetRegs powerOn).putWord A.DEV_RESET_CAUSE why
  let s := (((((((s.withMdio {}).withLatch []).withFold {}).withBox {}).withSec {}).withEvt {}).withCen { usAt := s.time / 1000 }).withEvid { rings := rings, pinReady := s.evid.pinReady }
  let s := ((((s.withPch []).withLine []).withPad []).withLane []).withTrv []
  let s := (((((s.withDrv {}).withApply {}).withPiste {}).withCal []).withDiag []).withClk {}
  let s := ((((s.withPos { a := s.pos.a, b := s.pos.b }).withTst {}).withThm {}).withHerder { running := false }).withPwr {}
  let s := if powerOn then
      ((s.withAo {}).withCen {}).withNv { s.nv with epoch := (s.nv.epoch + 1) % 65536 }
    else if cause = 5 then s.withAo { s.ao with gens := [] }
    else s
  let s := (s.withPins {}).showRoles
  let s := if keep then
      let s := s.withBank (s.bank.map fun e => (e.1, { ({} : Bank) with
        spares := e.2.spares, filled := e.2.filled, water := e.2.water, fillMap := e.2.fillMap, tally := e.2.tally, nref := e.2.nref }))
      let s := s.each (List.range s.nPcs) fun t pc => (t.each (List.range 16) fun u b => u.restartFill pc b).setFillDone pc
      let s := s.each causes fun t e => let (c, p) := pcIdx e.1; t.put (F.MEM_INTEG_STATE_CAUSE c p) e.2
      s.each (stale.filter fun pc => !frozen.contains pc) fun t pc => let (c, p) := pcIdx pc
        t.put (F.MEM_INTEG_STATE_REC_STALE c p) 1
    else
      let s := ((s.withDram []).withChk []).withBank (s.bank.map fun e => (e.1, { ({} : Bank) with spares := e.2.spares }))
      s.each stale fun t pc => let (c, p) := pcIdx pc
        (t.put (F.MEM_INTEG_STATE_FROZEN c p) 0).put (F.MEM_INTEG_STATE_REC_STALE c p) 1
  let s := if powerOn then s else s.each failed fun t x => t.put (F.TST_SLICE_STATE_STATE x) 3
  (((s.showKeys).withTst { since := s.time }).enterSelfRefresh).showDebug

/-! ## The cold start (R361, R362) -/

/-- A firmware slot passes: its signature and its version against the floor (R323). -/
def State.fwPasses (s : State) (k : Nat) : Bool :=
  match Tbl.get s.nv.fwVer none k with
  | some v => decide (s.get F.DEV_FW_FLOOR_FLOOR ≤ v)
  | none => false

/-- The firmware check (R323): the slot that runs. DEDUCED: with an invalid commit word no slot is named, and none passes. -/
def State.fwChoice (s : State) : Option Nat :=
  let k := s.get F.DEV_FW_STATUS_COMMITTED_SLOT
  if !s.nv.fwCommitted then none
  else if s.fwPasses k then some k
  else if s.fwPasses (1 - k) then some (1 - k)
  else none

/-- Check the firmware and start the herder, as DEV_FW_VER and DEV_FW_STATUS show it. -/
def State.startFirmware (s : State) : State :=
  let k := s.get F.DEV_FW_STATUS_COMMITTED_SLOT
  let s := (s.put F.DEV_FW_STATUS_SLOT_A_VALID (b2n (s.fwPasses 0))).put F.DEV_FW_STATUS_SLOT_B_VALID (b2n (s.fwPasses 1))
  match s.fwChoice with
  | some r =>
    let s := ((s.put F.DEV_FW_STATUS_RUN_SLOT (r + 1)).put F.DEV_FW_VER_VERSION ((Tbl.get s.nv.fwVer none r).getD 0)).put
      F.DEV_FW_STATUS_FALLBACK (b2n (decide (r ≠ k)))
    let s := s.withHerder { s.herder with running := true }
    if r = k then s else s.raiseFwFallback
  | none =>
    (((s.put F.DEV_FW_STATUS_RUN_SLOT 0).put F.DEV_FW_VER_VERSION 0).withHerder { s.herder with running := false }).raiseNoFw

/-- Train the stack (R282 to R286): the controllers start, each pseudo-channel of a channel not retired is trained, and a channel
whose training fails is retired. -/
def State.trainStack (s : State) (b : Boot) : State :=
  let s := s.leaveSelfRefresh
  s.each ((List.range s.nPcs).filter fun pc => s.chRole (pc / 2) ≠ 2) fun t pc =>
    if t.chRole (pc / 2) = 2 then t else
    let tr := ((b.train.find? fun e => e.1.toNat = pc).map (·.2)).getD {}
    let (u, ok) := t.trainPc pc tr
    if ok then u
    else ((u.put (F.MEM_CH_STATE_ROLE (pc / 2)) 2).withNv { u.nv with retired := u.nv.retired ||| (1 <<< (pc / 2)) }).raise Ev.fabRetire

/-- The layout of the fold that a start applies (R265): with the MEMMAP section and the in-service list of the fold that ran
before, no fill state is reset; otherwise as for a structural apply. -/
def State.bootLayout (s : State) : State :=
  let mm := s.sec_ 3
  let (pcs, res) := s.formList (if mm = [] then 1 else u8 mm 0)
  let s := if s.ao.memmap = mm && s.ao.pcList = pcs then ((s.setList pcs res).setParts (partsOf mm)).showCensus
    else
      let back := s.nv.returning
      let t := (s.withNv { s.nv with returning := 0 }).reLay mm (s.sec_ 1) s.ao.pcList (partsOf s.ao.memmap) false
      t.withNv { t.nv with returning := back }
  s.keepLayout mm

/-- The fastest level of the running fold, PL_FAST, and the slowest, PL_SLOW (Table 12-11); 0 and 3 without a POWER section. -/
def State.plFast (s : State) : Nat := u8 (s.sec_ 4) 4
@[inherit_doc State.plFast] def State.plSlow (s : State) : Nat := if s.sec_ 4 = [] then 3 else u8 (s.sec_ 4) 5

/-- The level in force, with PWR_VID. -/
def State.setLevel (s : State) (l : Nat) : State := (s.put F.DRV_STATE_PL l).withPins { s.pins with vid := l }

/-- The µs of clock hold that are not yet counted are counted in CLK_HOLD_TIME (Table 13-9). -/
def State.countHold (s : State) : State :=
  if s.get F.CLK_STATUS_STATE = 1 || s.get F.CLK_STATUS_STATE = 2 then
    let us := (s.time - s.clk.countAt) / 1000
    (s.count F.CLK_HOLD_TIME_US us).withClk { s.clk with countAt := s.clk.countAt + 1000 * us }
  else s

/-- Choose the fold of a start (R33): the slot that the commit word names, the other, or the blank fold. -/
def State.bootFold (s : State) : State :=
  let ok (u : Nat) := s.slotErr (Tbl.get s.nv.foldSlots [] u) = none
  let img (u : Nat) := Tbl.get s.nv.foldSlots [] u
  let valid := s.commitOk
  let k := s.commitWord % 2
  let s := s.each [(F.DEV_FOLD_STATUS_COMMIT_VALID, b2n valid), (F.DEV_FOLD_STATUS_COMMITTED_SLOT, k),
    (F.DEV_FOLD_STATUS_SLOT_A_VALID, b2n (ok 0)), (F.DEV_FOLD_STATUS_SLOT_B_VALID, b2n (ok 1))] fun t e => t.put e.1 e.2
  if !s.herder.running then s.runFold [] 0
  else if valid && ok k then s.runFold (img k) (k + 1)
  else if valid && ok (1 - k) then ((s.runFold (img (1 - k)) (2 - k)).put F.DEV_FOLD_STATUS_FALLBACK 1).raiseFoldFallback
  else (s.runFold [] 0).raiseNoFold

/-- The 60 ms row of Table 13-7, once LREFCLK is judged: the fold is applied, the ports begin, and DEV_RESET is raised. -/
def State.finishStart (s : State) : State :=
  let s := (s.withPwr { s.pwr with held := 0 }).withClk { s.clk with startDue := false }
  let s := (s.each [(F.CLK_STATUS_STATE, 0), (F.CLK_STATUS_LREF_GOOD, 1), (F.CLK_STATUS_LPLL_LOCK, 1),
    (F.CLK_STATUS_IRO_RUN, b2n (!s.flag F.CLK_STATUS_HREF_GOOD))] fun t e => t.put e.1 e.2).bootFold
  let s := s.bootLayout.showStructure
  let s := (s.startPorts 65535).faultLanes
  let s := (s.applyLive s.start.boot.bad.toNat).resumeRings
  (s.setLevel s.plFast).raise Ev.devReset

/-- The cold start from the 0.1 ms row (R361, R362), and from power-on. `b` is what the start finds. -/
def State.coldStart (s : State) (b : Boot) (powerOn : Bool) : State :=
  let s := (s.withStart { boot := b }).timeOn (if powerOn then 60000000 else 59900000)
  let s := s.each [(F.CLK_STATUS_IRO_GOOD, b2n b.iro), (F.CLK_STATUS_IRO_FAILED, if b.iro then s.get F.CLK_STATUS_IRO_FAILED else 1),
    (F.CLK_STATUS_HREF_GOOD, b2n b.href), (F.CLK_STATUS_IRO_RUN, 1)] fun t e => t.put e.1 e.2
  let bad := if powerOn then b.bist.toNat else b.bist.toNat / 2 * 2
  if bad ≠ 0 then
    let s := ((s.put F.TST_BIST_RESULT_PREV_FAIL 1).put F.TST_BIST_RESULT_PREV_DOMAINS bad).withPins { s.pins with bistFail := true }
    (s.withPwr { s.pwr with held := 1 }).withPci { s.pci with link := false }
  else
    let s := ((s.put F.TST_BIST_RESULT_PASS 1).put F.TST_BIST_RESULT_TIME_US (Config.freeMeasure s.freeCtr % 30001)).drawn 1
    let s := if s.flag F.SEC_STATE_PENDING then (s.erase s.lc).put F.SEC_STATE_PENDING 0 else s
    let s := s.startFirmware
    let s := if s.herder.running then s.trainStack b else s
    if b.lref then s.finishStart
    else
      let s := (s.setLevel 3).each [(F.CLK_STATUS_STATE, 2), (F.CLK_STATUS_LREF_GOOD, 0)] fun t e => t.put e.1 e.2
      (s.withPwr { s.pwr with held := 4 }).withClk { s.clk with startDue := true, countAt := s.time }

/-- A reset of the device with a cause, and the start that follows. The stack keeps its contents except over a power-on reset and
in Winter (R359, Table 13-6). -/
def State.resetDevice (s : State) (cause : Nat) (b : Boot) : State :=
  (s.resetCore cause (!(cause = 1 || cause = 5 || s.pwr.mode = 3))).coldStart b (decide (cause = 1))

/-! ## The rows -/

/-- POWER_ON_RESET (R361, R427): VDD_AO rises, or has fallen below its limit and risen again. -/
def execPowerOnReset (boot : Boot) (s : State) : Host.Outcome State Fault Refusal := .next (s.resetDevice 1 boot)

/-- SUPPLY_FAULT (R427): a switched rail out of limits; `stack` where it is a stack rail, whose contents are then lost. Switched
rails are watched while they are on. -/
def execSupplyFault (stack : Bool) (boot : Boot) (s : State) : Host.Outcome State Fault Refusal :=
  .next (
    if s.pwr.mode = 3 || (s.pwr.mode = 2 && !stack) then s
    else if stack then (s.resetCore 2 false).coldStart boot false
    else s.resetDevice 2 boot)

/-- RESET_PIN (R357): RESET_N low for `us` µs. Pulses under 1 µs are ignored, and 10 µs or more reset the device. DESIGN CHOICE:
a pulse between the two does not reset it. -/
def execResetPin (us : BitVec 16) (boot : Boot) (s : State) : Host.Outcome State Fault Refusal :=
  .next (if 10 ≤ us.toNat then s.resetDevice 6 boot else s)

/-- A write to DEV_RESET_CTRL (R360): GO within an installer or maker session, or in MFG; otherwise R10 applies. -/
def State.softReset (s : State) (v : Word) (boot : Boot) : State :=
  if !v.getLsbD 0 then s
  else if s.may 2 then (s.audit 0x12 0 0).resetDevice 9 boot
  else s.raise Ev.secDenied

/-- SOFT_RESET (R360): the host's write of a word to DEV_RESET_CTRL. -/
def execSoftReset (val : Word) (boot : Boot) (s : State) : Host.Outcome State Fault Refusal :=
  .next (s.bar fun t => if t.lc = 4 then t else t.softReset val boot)

/-- DEBUG_RESET (R357): a maker debug session's reset instruction, while debug is unlocked. -/
def execDebugReset (boot : Boot) (s : State) : Host.Outcome State Fault Refusal :=
  .next (if s.unlocked then s.resetDevice 7 boot else s)

/-- LIFECYCLE_RESET (R387): the reset that ends LC_ADVANCE. -/
def execLifecycleReset (boot : Boot) (s : State) : Host.Outcome State Fault Refusal :=
  .next (if s.sec.lcReset then (s.timeOn 1000000).resetDevice 8 boot else s)

end Sys2Proof.Machine
end

