-- ==== Sys2Proof/Machine/Power.lean ====
section
/-!
DEFINITION. Power states: entry, refusal, wakes and the return from Pen (R290 to R292, R327 to R335, R393, R425).
-/
namespace Sys2Proof.Machine

/-! ## Refusers (Table 12-3) -/

/-- A command of one of these opcodes is running, but for slot `k`. -/
def State.opRuns (s : State) (k : Nat) (ops : List Nat) : Bool :=
  (List.range 64).any fun j => decide (j ≠ k) && decide (s.slotState j = 2) && ops.contains (s.slotOp j)

/-- The refusers checked at the start of an entry: those that hold, lowest code first. Drowse, whose entry R328 does not cover,
meets those that other rules state for every PWR_STATE: FOLD (R38) and CLOCK (Table 13-4). An NV write completes within one step
of this model, so NV_BUSY holds at no start. -/
def State.refuser (s : State) (k target : Nat) : Option Nat :=
  let deep := decide (2 ≤ target)
  let w0 (j : Nat) := s.param j 0
  if deep && s.herder.attached then some 1
  else if s.apply.stage ≠ 0 || s.opRuns k [0x01, 0x02] then some 2
  else if deep && (s.opRuns k [0x31] || (List.range s.nPcs).any fun pc => (s.pc pc).retrain) then some 4
  else if deep && (List.range 64).any fun j => decide (s.slotState j = 2) && decide (s.slotOp j = 0x41) && decide (bits (w0 j) 8 2 ≠ 1) then
    some 5
  else if deep && s.opRuns k [0x30, 0x32, 0x10, 0x11, 0x62] then some 6
  else if s.get F.CLK_STATUS_STATE ≠ 0 then some 7
  else none

/-- A refused entry is counted and recorded, and PWR_REFUSED raised (R329, R346). -/
def State.noteRefusal (s : State) (code : Nat) (aborted : Bool) : State :=
  (((s.count (F.PWR_REFUSE_CNT_COUNT code) 1).put F.PWR_LAST_REFUSER code).put F.PWR_LAST_ABORTED (b2n aborted)).raise Ev.pwrRefused

/-! ## Wakes (R330 to R332, Table 12-4) -/

/-- A wake is recorded and PWR_WAKE raised (R332). -/
def State.noteWake (s : State) (src port frm : Nat) (replayed : Bool) : State :=
  let s := s.each [(F.PWR_LAST_WAKE_SRC, src), (F.PWR_LAST_WAKE_PORT, port), (F.PWR_LAST_WAKE_FROM, frm),
    (F.PWR_LAST_REPLAYED, b2n replayed)] fun t e => t.put e.1 e.2
  let s := s.count F.PWR_WAKES_COUNT 1
  let s : State := match s.part with
    | .xs708 => s
    | .xs716 =>
      let s := s.each ((List.range 15).reverse) fun t k =>
        (t.putWord (A.PWR_WAKE_HIST (k + 1)) (t.word (A.PWR_WAKE_HIST k))).putWord (A.PWR_WAKE_HIST_W1 (k + 1)) (t.word (A.PWR_WAKE_HIST_W1 k))
      (s.put (F.PWR_WAKE_HIST_TIME_MS 0) (s.time / 1000000)).putWord (A.PWR_WAKE_HIST_W1 0)
        (BitVec.ofNat 32 (src + 256 * port + 4096 * frm + 32768 * b2n replayed))
  s.raise Ev.pwrWake

/-- A step of Table 12-5 begins. -/
def State.beginStep (s : State) (k : Nat) : State := s.withPwr { s.pwr with begun := (k, s.time) :: s.pwr.begun }

/-- The herder begins Run at PL_FAST (R325), or at PL3 while a limit of Table 12-8 is in force. -/
def State.runLevel (s : State) : State := s.setLevel (if s.flag F.DRV_STATE_LIMIT then 3 else s.plFast)

/-- Drowse ends: the device is in Run. -/
def State.leaveDrowse (s : State) : State :=
  ((s.withPwr { s.pwr with mode := 0, latched := none }).put F.PWR_MODE_STATE 0).runLevel

/-- A wake takes the device out of the state in force. `boot` is what the start finds on a return from Winter (R335). -/
def State.wakeNow (s : State) (src port : Nat) (replayed : Bool) (boot : Boot) : State :=
  let m := s.pwr.mode
  let s := s.noteWake src port m replayed
  match m with
  | 1 => s.leaveDrowse
  | 2 => ((s.withPwr { s.pwr with latched := none }).withPins { s.pins with enCore := true }).beginStep 1
  | _ => s.resetDevice 5 boot

/-- An enabled wake of a source (R330, R332): latched during an entry, in the least off time of PWR_EN_CORE (R425) and in clock
hold (Table 13-4); otherwise it takes the device out of Drowse, Pen or Winter. The first of several latched wakes is kept. -/
def State.wake (s : State) (src port : Nat) (boot : Boot) : State :=
  if !(s.get F.PWR_WAKE_EN_ENABLE).testBit (src - 1) || s.pwr.held ≠ 0 then s
  else if s.pwr.entry ≠ 0 || (2 ≤ s.pwr.mode && s.pwr.offHold) then
    if s.pwr.latched.isSome then s
    else (s.withPwr { s.pwr with latched := some (src, port) }).put F.PWR_MODE_WAKE_LATCHED 1
  else if s.pwr.mode = 0 || s.pwr.begun ≠ [] then s
  else if s.pwr.mode = 1 && s.get F.CLK_STATUS_STATE ≠ 0 then
    if s.clk.wake.isSome then s else s.withClk { s.clk with wake := some (src, port) }
  else s.wakeNow src port false boot

/-- A wake that is sensed in Pen and Winter only, or latched by an entry to them. -/
def State.asleep (s : State) : Bool := decide (2 ≤ s.pwr.mode) || decide (s.pwr.entry ≠ 0)

/-! ## Entry (R328, R329) -/

/-- Every enabled port starts again, warm where it has stored state. -/
def State.restartPorts (s : State) : State :=
  s.each (List.range s.nPorts) fun t n =>
    if t.portWanted n && !(t.get F.FAB_PAD_DOWN_PORTS).testBit n then t.comeBack n else t

/-- The census counters begin again from 0 (R406). -/
def State.clearCensus (s : State) : State :=
  s.withCen { s.cen with ctr := [], samples := [], sampled := [], overrun := [], first := true, usAt := s.time / 1000 }

/-- What an entry did after its step 1 is undone (R329); its command completes with a status. -/
def State.undoEntry (s : State) (status detail : Nat) (note : State → State) : State :=
  let p := s.pwr
  if p.entry = 0 then s else
  let s := s.each ((List.range s.nPorts).filter fun n => s.flag (F.PORT_PAD_STATE_DRAINING n)) fun t n => t.endDrain n
  let late := decide (4 ≤ p.entry)
  let s := s.when (late && s.selfRefresh 0) fun t => t.leaveSelfRefresh.serveQueues
  let s := (s.withPwr { s.pwr with entry := 0, closed := 0, gate := none, canaries := [], latched := none }).withClk { s.clk with gates := 0 }
  let s := s.when late fun t => t.holdBypass.resumeRings
  let s := (s.put F.PWR_MODE_ENTERING 0).put F.PWR_MODE_WAKE_LATCHED 0
  let s := ((note s).complete p.slot status detail [0, p.drained, s.pwr.discarded]).restartPorts
  match p.latched with
  | some (src, port) => if p.mode = 1 then s.wakeNow src port true {} else s
  | none => s

/-- An entry is refused after its step 1 (R329). -/
def State.refuseEntry (s : State) (code : Nat) : State := s.undoEntry stRefused code fun t => t.noteRefusal code true

/-- Steps 3 and 4 of R328, once no port drains: bypass outputs are released, the evidence writer and the census stop, and for Pen
the herder writes the canaries. -/
def State.entryQuiet (s : State) : State :=
  if s.pwr.entry ≠ 2 || (List.range s.nPorts).any fun n => s.flag (F.PORT_PAD_STATE_DRAINING n) then s else
  let s := ((s.releaseBypass).each (List.range 4) State.stopRing).put F.CEN_STATUS_RUNNING 0
  let pcs := (List.range s.nPcs).filter fun pc => decide (s.chRole (pc / 2) < 2) && !s.frozen pc
  if s.pwr.target = 2 then
    s.withPwr { s.pwr with entry := 4, closed := 0, penCount := (s.pwr.penCount + 1) % 4294967296, canaries := pcs }
  else s.withPwr { s.pwr with entry := 4, closed := 0, canaries := [] }

/-- PWR_STATE (R327, R328). -/
def State.powerState (s : State) (k : Nat) : State :=
  let w0 := s.param k 0
  let target := w0 % 4
  let timer (t : State) : State :=
    if s.param k 2 = 0 then t
    else (t.put F.PWR_TIMER_SECONDS (s.param k 2)).withAo { t.ao with timerAt := t.time }
  if s.pwr.entry ≠ 0 || s.pwr.begun ≠ [] then s.complete k stBusy 0 []
  else if target = s.pwr.mode then s.complete k stOk 0 []
  else if target = 0 then (s.leaveDrowse).complete k stOk 0 []
  else match s.refuser k target with
    | some code => (s.noteRefusal code false).complete k stRefused code []
    | none =>
      if target = 1 then
        let s := (timer s).abandonRuns.abortDiags
        let s := s.withPwr { s.pwr with mode := 1, edges := 0, since := s.time }
        (s.put F.PWR_MODE_STATE 1).complete k stOk 0 []
      else
        let up := ((List.range s.nPorts).filter s.up).length
        let s := (timer s).begin k []
        let s := s.withPwr { s.pwr with entry := 2, target := target, slot := k, winterAfter := s.param k 1 % 65536 }
        let s := s.withPwr { s.pwr with drained := up, discarded := 0, latched := none, edges := 0 }
        ((s.put F.PWR_MODE_ENTERING 1).abandonRuns.abortDiags.takePorts 7).entryQuiet

/-- PWR_STATE (R327, R328). -/
def execPwrState (slot : BitVec 6) (s : State) : Host.Outcome State Fault Refusal :=
  let k := slot.toNat
  .next (if s.taken k 0x50 && s.herderRuns && s.coreOn then s.powerState k else s)

/-! ## Clock gates (R355, R328 step 5) -/

/-- The blocks whose gates an entry closes, in order, by their codes of Table 12-3. -/
def gateOrder : List Nat := [0x9, 0xA, 0xB, 0xC, 0xD]

/-- A gate of the entry closes; with the stack's, which is the last, the completion is posted (steps 5 and 6). -/
def State.closeGate (s : State) (block : Nat) : State :=
  let s := (s.withPwr { s.pwr with closed := s.pwr.closed + 1, gate := none }).withClk { s.clk with gates := s.clk.gates ||| (1 <<< block) }
  if block ≠ 0xD then s else
  let s := (s.serveQueues.each ((List.range s.nPcs).filter fun pc => s.chRole (pc / 2) ≠ 2) State.quietPc).enterSelfRefresh
  let s := (s.withPwr { s.pwr with entry := 6 }).complete s.pwr.slot stOk 0 [0, s.pwr.drained, s.pwr.discarded]
  s.withPwr { s.pwr with since := s.time }

/-- CLOCK_GATE_REQUEST (R355): a gate requests closure of a block, named by its code of Table 12-3, which acknowledges at its next
transaction boundary; `demand`: a request reached the block meanwhile, so the gate reopens at once. In an entry the gates close in
the order of step 5. -/
def execClockGateRequest (block : BitVec 4) (ack demand : Bool) (s : State) : Host.Outcome State Fault Refusal :=
  let b := block.toNat
  .next (
    if !(s.clocked && gateOrder.contains b) then s else
    let s := s.entryQuiet
    if s.pwr.entry = 4 then
      if gateOrder[s.pwr.closed]? ≠ some b then s
      else if ack then s.closeGate b
      else s.withPwr { s.pwr with gate := some b }
    else if s.pwr.entry ≠ 0 then s
    else if ack then
      (s.withPwr { s.pwr with gate := none }).withClk { s.clk with
        gates := if demand then s.clk.gates &&& (65535 ^^^ (1 <<< b)) else s.clk.gates ||| (1 <<< b) }
    else s.withPwr { s.pwr with gate := some b })

/-- A gate refusal outside an entry is counted (R355). -/
def State.gateRefused (s : State) : State := (s.count F.CLK_GATE_REFUSE_COUNT 1).cenFab 0x0E 1

/-- GATE_ACK_TIMEOUT (R355): no acknowledgement within 2 µs. In an entry this refuses it with the code `why`, the block's own or
one that held the block (ROTATION, PCIE, CENSUS); otherwise it is counted. -/
def execGateAckTimeout (why : BitVec 4) (s : State) : Host.Outcome State Fault Refusal :=
  .next (
    match s.pwr.gate with
    | none => s
    | some b =>
      let s := s.timeOn 2000
      if s.pwr.entry ≠ 0 then s.refuseEntry (if why.toNat = 8 || 14 ≤ why.toNat then why.toNat else b)
      else (s.withPwr { s.pwr with gate := none }).gateRefused)

/-! ## The state in force (R328 step 7, R331, R425) -/

/-- The device passes to Winter: the stack is unpowered and the session has ended (R385). -/
def State.toWinter (s : State) : State :=
  let s := s.endSession 5
  ((s.withPwr { s.pwr with mode := 3, canaries := [], since := s.time }).withPins { s.pins with enStack := false }).withPci
    { link := false, perst := s.pci.perst }

/-- PEN_ENTRY_WAIT (R328 step 7): 1 ms after the completion the herder writes TARGET and waits; the core loses its supply and the
control port link falls. -/
def execPenEntryWait (s : State) : Host.Outcome State Fault Refusal :=
  .next (
    if s.pwr.entry ≠ 6 then s else
    let s := s.timeTo (s.pwr.since + 1000000)
    let s := ((s.put F.PWR_MODE_TARGET s.pwr.target).put F.PWR_MODE_ENTERING 0).clearCensus
    let s := s.withHerder { s.herder with running := false }
    let s := (s.withPins { s.pins with enCore := false }).withPci { s.pci with link := false }
    let deep := decide (s.pwr.target = 3)
    let s := s.withPwr { s.pwr with mode := 2, entry := 0, offHold := true, begun := [], ended := [], since := s.time }
    if deep then s.toWinter else s)

/-- WINTER_AFTER_EXPIRY (R331). -/
def execWinterAfterExpiry (s : State) : Host.Outcome State Fault Refusal :=
  .next (
    if s.pwr.mode = 2 && s.pwr.winterAfter ≠ 0 && s.pwr.begun = [] && s.pwr.held = 0 then
      (s.timeTo (s.pwr.since + 60000000000 * s.pwr.winterAfter)).toWinter
    else s)

/-- CORE_OFF_TIME_END (R425): PWR_EN_CORE has been low for 50 µs, and a latched wake is acted on (R330). -/
def execCoreOffTimeEnd (boot : Boot) (s : State) : Host.Outcome State Fault Refusal :=
  .next (
    if !s.pwr.offHold || s.pwr.mode < 2 then s else
    let s := (s.timeTo (s.pwr.since + 50000)).withPwr { s.pwr with offHold := false }
    match s.pwr.latched with
    | some (src, port) => (s.put F.PWR_MODE_WAKE_LATCHED 0).wakeNow src port true boot
    | none => s)

/-! ## The wake sources -/

/-- WAKE_N low for `us` µs (Table 12-4). -/
def execWakeN (us : BitVec 16) (boot : Boot) (s : State) : Host.Outcome State Fault Refusal :=
  .next (if 10 ≤ us.toNat then s.wake 4 0 boot else s)

/-- LINK_ENERGY: pilots, a warm call or Clause 98 pulses on a port's pair for `us` µs (Table 12-4). -/
def execLinkEnergy (port : BitVec 4) (us : BitVec 16) (boot : Boot) (s : State) : Host.Outcome State Fault Refusal :=
  let n := port.toNat
  .next (if s.asleep && decide (n < s.nPorts) && decide (s.pModes n ≠ 0) && decide (100 ≤ us.toNat) then s.wake 2 n boot else s)

/-- PCIE_WAKE (R309): lane 0 of the PCI Express receiver leaves electrical idle. -/
def execPcieWake (boot : Boot) (s : State) : Host.Outcome State Fault Refusal := .next (if s.asleep then s.wake 3 0 boot else s)

/-- ODOMETER_WAKE (Table 12-4): ODO_WAKE_EDGES edges have been counted since entry; 0 acts as 1. -/
def execOdometerWake (boot : Boot) (s : State) : Host.Outcome State Fault Refusal :=
  .next (if max 1 (s.get F.PWR_WAKE_EN_ODO_WAKE_EDGES) ≤ s.pwr.edges then s.wake 5 0 boot else s)

/-- PWR_TIMER_EXPIRY: PWR_TIMER reaches 0, in any state. -/
def execPwrTimerExpiry (boot : Boot) (s : State) : Host.Outcome State Fault Refusal :=
  let k := s.get F.PWR_TIMER_SECONDS
  .next (
    if k = 0 then s
    else ((s.timeTo (s.ao.timerAt + 1000000000 * k)).put F.PWR_TIMER_SECONDS 0).wake 6 0 boot)

/-! ## The return from Pen (R333, Table 12-5) -/

/-- The steps after which a step begins. -/
def stepAfter : Nat → List Nat
  | 2 => [1] | 3 => [2] | 4 => [3] | 5 => [3] | 6 => [4, 5] | 7 => [6] | _ => []

/-- The delay of a step in µs: RETURN_US of the running fold, or the default. -/
def State.returnUs (s : State) (k : Nat) : Nat :=
  if s.sec_ 4 = [] then returnDefaults.getD (k - 1) 0 else uLe (s.sec_ 4) (8 + 4 * (k - 1)) 4

/-- Word `w` of unit `m` of a canary (R290). -/
def canaryWord (pc b m count w : Nat) : Word :=
  let w0 : Word := BitVec.ofNat 32 (0xA5C30000 + pc * 256 + b * 16 + m)
  if w = 0 then w0 else if w = 1 then BitVec.ofNat 32 count else (0x5A5A5A5A#32).rotateLeft w ^^^ w0

/-- Byte `col` of the service row that holds a canary. -/
def canaryByte (pc b count col : Nat) : Nat :=
  ((canaryWord pc b (col / 64) count (col % 64 / 4)).toNat >>> (8 * (col % 4))) % 256

/-- The bytes of a canary that have lost bits, as they read: column, what stood there, and the reading. -/
def canaryReads (pc b count : Nat) (ups : List (Nat × Nat)) : List (Nat × ByteRead) :=
  (ups.map (·.1)).eraseDups.map fun col =>
    let d := canaryByte pc b count col
    let m := (ups.filter fun e => e.1 = col).foldl (fun a e => a ^^^ e.2) 0
    (d, decodeByte (d ^^^ (m % 256)) (checkBits d ^^^ (m / 256 % 32)))

/-- A bank's canary fails (R291), given the bits that its service row lost. -/
def State.canaryFails (s : State) (pc b : Nat) (ups : List (Nat × Nat)) : Bool :=
  let l := canaryReads pc b s.pwr.penCount ups
  l.any (fun e => match e.2 with
    | .ue => true
    | .poison => true
    | .clean v => decide (v ≠ e.1)
    | .corrected v _ => decide (v ≠ e.1)) || decide (s.get F.FAB_INTEG_CFG_CANARY_CE < correctedBytes l)

/-- A bank becomes suspect (R292): its fill state is reset, the evidence map is told, and FAB_CANARY raised. -/
def State.makeSuspect (s : State) (pc b : Nat) : State :=
  let (c, p) := pcIdx pc
  let s := (s.put (F.MEM_INTEG_STATE_SUSPECT c p) (s.get (F.MEM_INTEG_STATE_SUSPECT c p) ||| (1 <<< b))).resetFill pc b []
  let s := s.markPc 0 pc fun _ => true
  ((s.markPc 3 pc fun q => decide (q % 16 = b)).showFree).raise Ev.fabCanary

/-- The canary check of step 5. `ups` are the bits that service rows lost: pseudo-channel, bank, column, bits. -/
def State.checkCanaries (s : State) (ups : List (Nat × Nat × Nat × Nat)) : State :=
  let s := s.each s.pwr.canaries fun t pc => t.each (List.range 16) fun u b =>
    let l := (ups.filter fun e => e.1 = pc && e.2.1 = b).map fun e => e.2.2
    if u.canaryFails pc b l then u.makeSuspect pc b else u
  s.withPwr { s.pwr with canaries := [] }

/-- Steps whose predecessors have ended begin; with step 7 the bypass outputs are held and the ports start. -/
def State.nextSteps (s : State) : State :=
  s.each [2, 3, 4, 5, 6, 7] fun t k =>
    if (t.pwr.begun.any fun e => e.1 = k) || !((stepAfter k).all fun j => t.pwr.ended.contains j) then t
    else
      let t := t.beginStep k
      if k = 7 then t.holdBypass.restartPorts else t

/-- What the end of a step of Table 12-5 brings. -/
def State.stepDone (s : State) (k : Nat) (ups : List (Nat × Nat × Nat × Nat)) : State :=
  match k with
  | 2 =>
    let s := (s.clearCensus.withPwr { s.pwr with mode := 0, offHold := false, entry := 0 }).withClk { s.clk with gates := 0 }
    (s.setLevel 3).each [(F.CLK_STATUS_STATE, 3), (F.CLK_STATUS_IRO_RUN, 1), (F.CLK_STATUS_IRO_GOOD, 1), (F.PWR_MODE_TARGET, 0),
      (F.PWR_MODE_STATE, 0)]
      fun t e => t.put e.1 e.2
  | 3 =>
    (s.each [(F.CLK_STATUS_STATE, 0), (F.CLK_STATUS_LREF_GOOD, 1), (F.CLK_STATUS_LPLL_LOCK, 1),
      (F.CLK_STATUS_IRO_RUN, b2n (!s.flag F.CLK_STATUS_HREF_GOOD))] fun t e => t.put e.1 e.2).runLevel
  | 4 =>
    let s := s.withHerder { s.herder with running := true }
    if s.role ≠ 0 && decide (s.sec.sessEnd ≤ s.time) then s.endSession 2 else s
  | 5 => s.leaveSelfRefresh.serveQueues.checkCanaries ups
  | 6 =>
    let lanes := (List.range s.nPorts).filter fun m => decide (s.get (F.HL_CFG_RATE m) ≠ 0)
    (s.each lanes State.blindLane).faultLanes.resumeRings
  | _ => s

/-- PEN_RETURN_STEP (R333): a step that has begun ends, no sooner than its delay, and the steps after it begin. `ups` are the bits
that the service rows have lost, for step 5. -/
def execPenReturnStep (step : BitVec 3) (ups : List (BitVec 5 × BitVec 4 × BitVec 10 × BitVec 13)) (s : State) :
    Host.Outcome State Fault Refusal :=
  let k := step.toNat
  .next (
    match s.pwr.begun.find? fun e => e.1 = k with
    | none => s
    | some e =>
      if s.pwr.ended.contains k || s.pwr.held ≠ 0 then s else
      let s := s.timeTo (e.2 + 1000 * s.returnUs k)
      let s := s.withPwr { s.pwr with ended := k :: s.pwr.ended }
      let s := s.stepDone k (ups.map fun u => (u.1.toNat, u.2.1.toNat, u.2.2.1.toNat, u.2.2.2.toNat))
      if k = 7 then s.withPwr { s.pwr with begun := [], ended := [] } else s.nextSteps)

end Sys2Proof.Machine
end

