-- ==== Sys2Proof/Machine/Traverse.lean ====
section
/-!
DEFINITION. Traverse chirp mode and the bell (chapter 7). What receivers' analogue parts measure (peaks and their SNR, the gain
that the chirps call for, periods without energy) comes in with the commands' operands.
-/
namespace Sys2Proof.Machine

/-! ## Codes and durations (Tables 7-1 and 7-3) -/

/-- The processing gain of a code's payload in dB, and its reach in 0.25 m. -/
def trvGain : Nat → Nat | 0 => 27 | 1 => 21 | 2 => 15 | _ => 9
@[inherit_doc trvGain] def trvReach : Nat → Nat | 0 => 4800 | 1 => 3200 | 2 => 1600 | _ => 1000

/-- Coded payload bytes of a burst of LEN bytes (R191). -/
def trvCoded (len : Nat) : Nat := if len = 0 then 0 else len + 4 + 16 * ((len + 4 + 238) / 239)

/-- The duration of a burst in ns. -/
def trvNs (code len : Nat) : Nat :=
  let c := trvCoded len
  match code with
  | 0 => 271360 + 10240 * c
  | 1 => 67840 + 2560 * c
  | 2 => 67840 + 640 * c + (if len = 0 then 0 else 640)
  | _ => 16960 + 160 * c + (if len = 0 then 0 else 160)

/-- Eight chirp periods of a code, in ns. -/
def trvGapNs : Nat → Nat | 0 => 20480 | 1 => 5120 | 2 => 5120 | _ => 1280

/-! ## Coding (R191) -/

/-- Multiplication in GF(256) with the field polynomial x^8 + x^4 + x^3 + x^2 + 1. -/
def gfMul (a b : Nat) : Nat :=
  let dbl (x : Nat) : Nat := if 128 ≤ x then (2 * x) ^^^ 0x11D else 2 * x
  ((List.range 8).foldl (fun (r : Nat × Nat) i => (if b.testBit i then r.1 ^^^ r.2 else r.1, dbl r.2)) (0, a)).1

/-- The generator polynomial with roots α^0 to α^15, its coefficients from x^15 down (that of x^16 is 1). -/
def rsGen : List Nat :=
  let mulRoot (g : List Nat) (r : Nat) : List Nat := List.zipWith (· ^^^ ·) (g ++ [0]) (0 :: g.map (gfMul r))
  ((List.range 16).foldl (fun (a : List Nat × Nat) _ => (mulRoot a.1 a.2, gfMul 2 a.2)) ([1], 1)).1.drop 1

/-- The 16 parity bytes of a block: the virtual leading zeros of a short block leave them as they are. -/
def rsParity (data : List Nat) : List Nat :=
  data.foldl (fun p d =>
    let fb := d ^^^ p.headD 0
    List.zipWith (fun x g => x ^^^ gfMul fb g) (p.drop 1 ++ [0]) rsGen) (List.replicate 16 0)

/-- A payload as it is sent: with its CRC-32 (its bytes in ascending order; DEDUCED), in blocks of 239 bytes, each with its
parity. -/
def trvCode (p : Bytes) : Bytes :=
  let b := p ++ leBytes (crc32 p) 4
  (List.range ((b.length + 238) / 239)).flatMap fun i =>
    let d := (b.drop (239 * i)).take 239
    d ++ (rsParity (d.map BitVec.toNat)).map (BitVec.ofNat 8)

/-! ## Decoding (R192) -/

/-- A power in GF(256). -/
def gfPow (a : Nat) : Nat → Nat
  | 0 => 1
  | k + 1 => gfMul a (gfPow a k)

/-- The inverse in GF(256). -/
def gfInv (a : Nat) : Nat := gfPow a 254

/-- The value of a polynomial, its coefficients from the constant up. -/
def gfEval (p : List Nat) (x : Nat) : Nat := p.foldr (fun c r => c ^^^ gfMul r x) 0

/-- The sum of two polynomials. -/
def gfAdd : List Nat → List Nat → List Nat
  | [], q => q
  | p, [] => p
  | a :: p, b :: q => (a ^^^ b) :: gfAdd p q

/-- The 16 syndromes of a received block: its values at the generator's roots, the first byte that of the highest power. -/
def rsSyndromes (block : List Nat) : List Nat := (List.range 16).map fun i => gfEval block.reverse (gfPow 2 i)

/-- The product of two polynomials. -/
def gfPolyMul (p q : List Nat) : List Nat := p.foldr (fun c r => gfAdd (q.map (gfMul c)) (0 :: r)) []

/-- The locator polynomial of errors and erasures, from that of the `f` erasures alone (Berlekamp and Massey). -/
def rsLocator (syn erased : List Nat) (f : Nat) : List Nat :=
  let step (a : List Nat × List Nat × Nat) (r : Nat) : List Nat × List Nat × Nat :=
    let (loc, prev, len) := a
    let d := (List.range (r + 1)).foldl (fun x j => x ^^^ gfMul (loc.getD j 0) (syn.getD (r - j) 0)) 0
    let next := gfAdd loc (0 :: prev.map (gfMul d))
    if d = 0 then (loc, 0 :: prev, len)
    else if 2 * len ≤ r + f then (next, loc.map (gfMul (gfInv d)), r + 1 + f - len)
    else (next, 0 :: prev, len)
  (((List.range 16).drop f).foldl step (erased, erased, f)).1

/-- A received block decoded: `gaps` are the indices of its erased bytes. None where no codeword lies within the reach of the
code: e errors and f erasures with 2e + f at most 16. A short block's virtual zeros are never in error. -/
def rsDecode (block : List Nat) (gaps : List Nat) : Option (List Nat) :=
  let n := block.length
  let syn := rsSyndromes block
  if syn.all (· = 0) then some block
  else if 16 < gaps.length then none
  else
    let f := gaps.length
    let erased := gaps.foldl (fun p i => gfPolyMul p [1, gfPow 2 (n - 1 - i)]) [1]
    let loc := rsLocator syn erased f
    let value := (gfPolyMul syn loc).take 16
    let slope := (List.range loc.length).drop 1 |>.map fun j => if j % 2 = 1 then loc.getD j 0 else 0
    let wrong := (List.range n).filter fun i => gfEval loc (gfInv (gfPow 2 (n - 1 - i))) = 0
    let fixed := (List.range n).map fun i =>
      let x := gfPow 2 (n - 1 - i)
      if wrong.contains i then
        block.getD i 0 ^^^ gfMul x (gfMul (gfEval value (gfInv x)) (gfInv (gfEval slope (gfInv x))))
      else block.getD i 0
    let errors := (wrong.filter fun i => !gaps.contains i).length
    if (rsSyndromes fixed).all (· = 0) && decide (2 * errors + f ≤ 16) then some fixed else none

/-- The bytes of a coded payload that a missing chirp period erases: a period carries one dibit in TV0 and TV1, and one byte in
TV2 and TV3 (R187, R197). -/
def erasedBytes (code : Nat) (missing : List Nat) : List Nat :=
  (missing.map fun m => if code ≤ 1 then m / 4 else m).eraseDups

/-- The payload that a receiver gets from the coded bytes it took in: none where a block does not decode or the CRC-32 differs
(R191, R192). -/
def trvDecode (coded : Bytes) (gaps : List Nat) : Option Bytes :=
  let blocks := (List.range ((coded.length + 254) / 255)).map fun i =>
    let b := ((coded.drop (255 * i)).take 255).map BitVec.toNat
    (rsDecode b ((gaps.filter fun g => decide (255 * i ≤ g) && decide (g < 255 * i + b.length)).map (· - 255 * i))).map
      fun w => w.take (w.length - 16)
  if blocks.any Option.isNone then none
  else
    let all := (blocks.flatMap fun b => b.getD []).map (BitVec.ofNat 8)
    let p := all.take (all.length - 4)
    if 4 < all.length && decide (all.drop (all.length - 4) = leBytes (crc32 p) 4) then some p else none

/-- Four chirp periods in a row are missing (R197). -/
def fourMissing (missing : List Nat) : Bool := missing.any fun m => [1, 2, 3].all fun i => missing.contains (m + i)

/-! ## The port's settings -/

/-- TURN_GAP in µs; below 16 acts as 16. -/
def State.trvTurnGap (s : State) (n : Nat) : Nat := max 16 (s.get (F.PORT_TRV_TURN_TURN_GAP n))
/-- TURN_MAX in ns; below 0.5 ms acts as that. -/
def State.trvTurnMax (s : State) (n : Nat) : Nat := 100000 * max 5 (s.get (F.PORT_TRV_TURN_TURN_MAX n))
/-- LOSS_MS in ns; below 2 × TURN_MAX + 10 ms acts as that. -/
def State.trvLoss (s : State) (n : Nat) : Nat := max (1000000 * s.get (F.PORT_TRV_TURN_LOSS_MS n)) (2 * s.trvTurnMax n + 10000000)
/-- The port's MODES allow Traverse. -/
def State.allowsTrv (s : State) (n : Nat) : Bool := decide (n < s.nPorts) && (s.pModes n).testBit 8
/-- This end is the requester, the token master. -/
def State.trvMaster (s : State) (n : Nat) : Bool := s.flag (F.PORT_TRV_STATE_REQUESTER n)

/-! ## Codes requested (R201) -/

/-- The least Q0 for a request of a code, in 0.5 dB. -/
def State.leastQ0 (s : State) (n c : Nat) : Nat := 2 * (10 + s.get (F.PORT_TRV_CFG_MARGIN n) + (27 - trvGain c))

/-- The code that R201's rule gives for the last Q0; none where no code qualifies. -/
def State.trvRule (s : State) (n : Nat) : Option Nat :=
  [3, 2, 1, 0].find? fun c => decide (c ≤ s.get (F.PORT_TRV_CFG_CODE_MAX n)) && decide (s.leastQ0 n c ≤ s.get (F.PORT_TRV_STATE_Q0_RX n))

/-- The request lowers by one code after a truncated burst or a bad payload, and follows the rule down. -/
def State.trvLower (s : State) (n : Nat) : State :=
  s.modTv n fun t => { t with reqRx := min (t.reqRx - 1) ((s.trvRule n).getD 0), streak := 0 }

/-- The request after a whole burst: lower at once where the rule says so, one code higher after 16 bursts in a row with good
payloads that support it. A burst without a payload leaves the row of bursts as it is. -/
def State.trvRequest (s : State) (n : Nat) (payload : Bool) : State :=
  let c := (s.trvRule n).getD 0
  s.modTv n fun t =>
    if c < t.reqRx then { t with reqRx := c, streak := 0 }
    else if !payload then t
    else if c ≤ t.reqRx then { t with streak := 0 }
    else if 15 ≤ t.streak then { t with reqRx := t.reqRx + 1, streak := 0 }
    else { t with streak := t.streak + 1 }

/-- Q0 below 10 dB with no code qualifying ends the link (R201). -/
def State.trvMargin (s : State) (n : Nat) : State :=
  if s.trvRule n = none && s.get (F.PORT_TRV_STATE_Q0_RX n) < 20 then s.trvEnd n 4 else s

/-! ## Search and the exchange (R198, R199) -/

/-- Send a LINKREQ with a new LINK_TAG, and draw the time of the next. -/
def State.sendLinkReq (s : State) (n : Nat) : State :=
  let tag := max 1 s.freeNow.toNat
  let wait := 500000 + (s.drawn 1).freeNow.toNat % 1000001
  let endAt := s.time + trvNs 0 0
  let s := (s.drawn 2).modTv n fun t => { t with tag := tag, awaits := 1, ownEnd := endAt, measures := true, retryAt := endAt + wait }
  s.sendTrv n 2 false 0

/-- The port enters Traverse search: it sends its first LINKREQ. -/
def State.startSearch (s : State) (n : Nat) : State :=
  let s := (s.put (F.PORT_AN_STATUS_STATE n) 8).trvClear n
  let s := (s.modTv n fun t => { t with since := s.time }).modLn n fun l => { l with target := 9, tokenAt := none }
  (s.put (F.PORT_TRV_STATE_STATE n) 1).sendLinkReq n

/-- The port waits for a token to search. -/
def State.awaitSearch (s : State) (n : Nat) : State :=
  (s.put (F.PORT_AN_STATUS_STATE n) 2).modLn n fun l => { l with target := 9, tokenAt := some s.time }

/-- Trainings and searches that started in the last 40 ms (R339). -/
def State.recentStarts (s : State) : List Nat := s.drv.starts.filter fun t => decide (s.time < t + 40000000)

/-- A search can start without a wait. -/
def State.mayStart (s : State) (n demand : Nat) : Bool :=
  s.starts && decide (s.recentStarts.length < 2) && s.tokenFits n demand

/-- A cold training or a search starts now. -/
def State.noteStart (s : State) : State := s.withDrv { s.drv with starts := s.time :: s.recentStarts }

/-- SPAN of an interval from the end of this end's burst to the partner's preamble, in 0.1 ns: 0.25 m steps (R200). -/
def trvSpan (delay gapUs : Nat) : Nat := min 65535 ((delay - 10000 * gapUs) * 4018 / 100000)

/-- What every whole header of the link brings (R192, R200, R205): the span, the partner's Q0 and request, and the
acknowledgements. `acq`: the header establishes the link. -/
def State.trvHeard (s : State) (n : Nat) (h : TrvHdr) (acq : Bool) : State :=
  let t := s.tv n
  let s := match t.rcpt.bind (·.delay) with
    | some d =>
      let m := trvSpan d (s.trvTurnGap n)
      (s.put (if acq then F.PORT_TRV_SPAN_SPAN_ACQ n else F.PORT_TRV_SPAN_SPAN_LAST n) m).modTv n fun t => { t with span := m }
    | none => s
  let ack := h.ackSeq.toNat
  let acked (q : Nat) : Bool :=
    decide ((ack + 256 - q) % 256 < 128) || ((List.range 8).any fun i => h.ackMap.toNat.testBit i && decide (q = (ack + 2 + i) % 256))
  let s := s.modTv n fun t => { t with
    rcpt := none, heardAt := s.time, wholeAt := s.time, reqTx := h.req.toNat, held := t.held.filter fun b => !(b.sent && acked b.seq) }
  s.put (F.PORT_TRV_STATE_Q0_PARTNER n) h.q0.toNat

/-- The token, where the burst passes it (R203). -/
def State.trvPass (s : State) (n : Nat) (h : TrvHdr) : State :=
  if h.pass then
    (s.put (F.PORT_TRV_STATE_TOKEN n) 1).modTv n fun t => { t with turnAt := s.time + 1000 * s.trvTurnGap n }
  else s

/-- The link is established (R199): numbering begins. -/
def State.trvEstablish (s : State) (n : Nat) (master : Bool) : State :=
  let s := s.modTv n fun t => { t with
    awaits := 0, nextSeq := 0, held := [], ackSeq := 0xFF, got := [], frame := none, hunt := false, streak := 0, nonce := [], own := [],
    judged := false, wholeAt := s.time }
  let s := s.modLn n fun l => { l with ident := [], target := 9 }
  s.each [(F.PORT_TRV_STATE_STATE n, 3), (F.PORT_TRV_STATE_REQUESTER n, b2n master), (F.PORT_TRV_STATE_TOKEN n, b2n (!master)),
    (F.PORT_PARTNER_INFO_AUTH n, 0)] fun t e => t.put e.1 e.2

/-- A reception ends, and with it the hold of the AGC (R193). -/
def State.trvRelease (s : State) (n : Nat) : State := s.modTv n fun t => { t with rcpt := none, heardAt := s.time }

/-- A header that is discarded (R192): a reserved TYPE or a foreign tag is counted, and the reception ends. -/
def State.trvDiscard (s : State) (n : Nat) : State := (s.count (F.PORT_TRV_HDR_ERR_COUNT n) 1).trvRelease n

/-- Answer a LINKREQ as its responder. -/
def State.answerLinkReq (s : State) (n : Nat) (h : TrvHdr) : State :=
  let s := (s.put (F.PORT_TRV_STATE_STATE n) 2).put (F.PORT_TRV_STATE_Q0_PARTNER n) h.q0.toNat
  let endAt := s.time + 1000 * s.trvTurnGap n + trvNs 0 0
  let s := s.modTv n fun t => { t with
    tag := h.tag.toNat, awaits := 2, ownEnd := endAt, measures := true, reqTx := h.req.toNat, reqRx := (s.trvRule n).getD 0, rcpt := none }
  (s.burstOk n).sendTrv n 3 false 0

/-- LINKREQ (R199). A port that negotiates answers where the search that it enters may start at once, and otherwise waits for
its token. -/
def execLinkreq (port : BitVec 4) (hdr : TrvHdr) (s : State) : Host.Outcome State Fault Refusal :=
  let n := port.toNat
  .next (
    if !(s.allowsTrv n && s.clocked) || s.sweeps n then s
    else if s.trvStands n then s.trvDiscard n
    else if s.up n then s.trvRelease n
    else if s.an n = 8 then s.answerLinkReq n hdr
    else if s.an n = 1 && s.flag (F.PORT_MODE_ENABLE n) && s.starts then
      if s.mayStart n 400 then
        let s := s.noteStart
        let q := s.get (F.PORT_TRV_STATE_Q0_RX n)
        let s := ((s.put (F.PORT_AN_STATUS_STATE n) 8).modLn n fun l => { l with target := 9, tokenAt := none }).modTv n fun t =>
          { t with since := s.time }
        (s.put (F.PORT_TRV_STATE_Q0_RX n) q).answerLinkReq n hdr
      else s.awaitSearch n
    else s)

/-- LINKACC (R199): the requester answers with LINKCFM, and its link stands at the end of that burst. -/
def execLinkacc (port : BitVec 4) (hdr : TrvHdr) (s : State) : Host.Outcome State Fault Refusal :=
  let n := port.toNat
  .next (
    if !(s.an n = 8 && s.clocked) || s.sweeps n then s
    else if s.trvStands n || (s.tv n).awaits ≠ 1 || hdr.tag.toNat ≠ (s.tv n).tag then s.trvDiscard n
    else
      let s := (s.trvHeard n hdr true).burstOk n
      let s := (s.modTv n fun t => { t with reqRx := (s.trvRule n).getD 0 }).trvEstablish n true
      let endAt := s.time + 1000 * s.trvTurnGap n + trvNs 0 0
      ((s.modTv n fun t => { t with ownEnd := endAt, measures := true }).sendTrv n 4 true 0).trvMargin n)

/-- This end's IDENT body is drawn up with a nonce of its own (R202, R108). -/
def State.trvIdent (s : State) (n : Nat) : State :=
  let nonce := s.freeBytes 4
  let s := s.drawn 4
  let own := s.identBody n nonce (s.tv n).span
  s.modTv n fun t => { t with nonce := nonce, own := own }

/-- Put a sequenced burst among those to send. -/
def State.trvQueue (s : State) (n typ : Nat) (payload : Bytes) (frames : List Nat) : State :=
  s.modTv n fun t => { t with
    held := t.held ++ [{ typ := typ, seq := t.nextSeq, payload := payload, frames := frames }], nextSeq := (t.nextSeq + 1) % 256 }

/-- LINKCFM (R199): the responder's link stands, and it holds the token; its first turn sends IDENT. -/
def execLinkcfm (port : BitVec 4) (hdr : TrvHdr) (s : State) : Host.Outcome State Fault Refusal :=
  let n := port.toNat
  .next (
    if !(s.an n = 8 && s.clocked) || s.sweeps n then s
    else if s.trvStands n || (s.tv n).awaits ≠ 2 || hdr.tag.toNat ≠ (s.tv n).tag then s.trvDiscard n
    else
      let s := (s.trvHeard n hdr true).burstOk n
      let s := (s.trvEstablish n false).trvIdent n
      let s := (s.trvQueue n 6 (s.tv n).own []).modTv n fun t => { t with turnAt := s.time + 1000 * s.trvTurnGap n }
      (s.trvRequest n false).trvMargin n)

/-! ## Identity and service (R202) -/

/-- The end is up once the partner's proof is judged and its own identity bursts are acknowledged. -/
def State.trvUpCheck (s : State) (n : Nat) : State :=
  let t := s.tv n
  if s.trvState n = 3 && t.judged && t.own ≠ [] && !(t.held.any fun b => b.typ = 6 || b.typ = 7) then
    (s.put (F.PORT_TRV_STATE_STATE n) 4).linkUp n 9
  else s

/-- Judge the partner's proof (R109): with REQUIRE_AUTH a failed one ends the link. -/
def State.trvJudge (s : State) (n : Nat) (sig : Bytes) : State :=
  let id := (s.ln n).ident
  let ok := ecdsaVerify (identKey id) ((s.tv n).nonce ++ id) sig
  let s := (s.modTv n fun t => { t with judged := true }).showAuth n ok
  if !ok && s.flag (F.PORT_LINK_CFG_REQUIRE_AUTH n) then s.trvEnd n 0xB else s

/-- The partner's IDENT. The requester answers with its own and its proof, the responder judges and sends PROOF. -/
def State.trvTakeIdent (s : State) (n : Nat) (p : Bytes) : State :=
  let body := p.take 94
  if s.trvState n ≠ 3 || (s.ln n).ident ≠ [] || p.length ≠ (if s.trvMaster n then 94 else 158) then s else
  let s := (s.modLn n fun l => { l with ident := body }).showPartner n body
  if s.trvMaster n then
    let s := s.trvIdent n
    let (s, sig) := s.idSign (identNonce body ++ (s.tv n).own)
    s.trvQueue n 6 ((s.tv n).own ++ sig) []
  else
    let s := s.trvJudge n (p.drop 94)
    if !s.trvStands n then s else
    let (s, sig) := s.idSign (identNonce body ++ (s.tv n).own)
    s.trvQueue n 7 sig []

/-! ## Receiving sequenced bursts (R205) -/

/-- Deliver the frames of a DATA payload: after a gap, from the first segment with SOF. -/
def State.trvDeliver (s : State) (n : Nat) (p : Bytes) : State :=
  let t := s.tv n
  let from_ := if t.hunt then walkFptr p p.length 1025 0 else 0
  if from_ = 0xFFFF then s else
  let d := walkSegs p p.length false 1025 { pos := from_, frame := t.frame }
  let s := s.modTv n fun t => { t with frame := d.frame, hunt := false }
  let s := s.each d.frames fun u f => u.fromLine n f.1 f.2
  if d.hdrErr then s.count (F.PORT_ILM_HDR_ERR_COUNT n) 1 else s

/-- Take the bursts received in SEQ order, as far as they go. -/
def State.trvInOrder (s : State) (n : Nat) : Nat → State
  | 0 => s
  | k + 1 =>
    let q := ((s.tv n).ackSeq + 1) % 256
    match (s.tv n).got.find? fun e => e.1 = q with
    | none => s
    | some e =>
      let s := s.modTv n fun t => { t with ackSeq := q, got := t.got.filter fun x => x.1 ≠ q }
      (if e.2 = [] then s else s.trvDeliver n e.2).trvInOrder n k

/-- BASE_SEQ has passed bursts never received (R205), up to half the numbers. The frame in progress is dropped and counted; how
many more frames had bytes in such a burst its receiver cannot know: a free value, at most 32 (frames of 64 bytes), log entry 111. -/
def State.trvGaps (s : State) (n base : Nat) : Nat → State
  | 0 => s
  | k + 1 =>
    let s := s.trvInOrder n 9
    let d := (base + 256 - ((s.tv n).ackSeq + 1) % 256) % 256
    if d = 0 || 128 < d then s
    else
      let lost := b2n (s.tv n).frame.isSome + s.freeNow.toNat % 33
      let s := (s.drawn 1).modTv n fun t => { t with ackSeq := (t.ackSeq + 1) % 256, frame := none, hunt := true }
      (s.count (F.PORT_TRV_DROP_RX_COUNT n) lost).trvGaps n base k

/-- A whole burst of the link (R192): its header is acted upon, then `use` does what its good payload asks, and PASS is taken
last. `good` is none for a burst without a payload. -/
def State.trvWhole (s : State) (n : Nat) (h : TrvHdr) (good : Option Bool) (use : State → State) : State :=
  if !s.trvStands n then s.trvRelease n
  else if h.tag.toNat ≠ (s.tv n).tag then s.trvDiscard n
  else
    let s := (s.trvHeard n h false).trvGaps n h.base.toNat 128
    let s := match good with
      | some false => (s.count (F.PORT_TRV_PAY_ERR_COUNT n) 1).trvLower n
      | some true => (((s.burstOk n).put (F.PORT_TRV_STATE_CODE_RX n) h.code.toNat).trvRequest n true)
      | none => (s.burstOk n).trvRequest n false
    let s := if good = some true then use s else s
    if !s.trvStands n then s else ((s.trvPass n h).trvUpCheck n).trvMargin n

/-- A sequenced burst with a good payload that is new: `use` takes an identity payload at once; frames wait for their turn. -/
def State.trvNew (s : State) (n : Nat) (h : TrvHdr) (data : Bytes) (use : State → State) : State :=
  let t := s.tv n
  let q := h.seq.toNat
  let d := (q + 256 - (t.ackSeq + 1) % 256) % 256
  if 8 < d || (t.got.any fun e => e.1 = q) then s
  else use ((s.modTv n fun t => { t with got := t.got ++ [(q, data)] }).trvInOrder n 9)

/-- A burst is cut short (R197): nothing of it is used, its PASS included. -/
def State.trvTruncated (s : State) (n : Nat) : State :=
  ((s.count (F.PORT_TRV_TRUNC_COUNT n) 1).trvRelease n).trvLower n

/-- A burst with a payload: the coded bytes taken in, and the payload's chirp periods that are missing. Four missing in a row end
it as truncated; otherwise `use` gets the payload where it is good. -/
def State.trvPayload (s : State) (n : Nat) (h : TrvHdr) (coded : Bytes) (missing : List (BitVec 14)) (use : Bytes → State → State) :
    State :=
  let gone := missing.map BitVec.toNat
  if fourMissing gone then (if s.allowsTrv n && s.clocked then s.trvTruncated n else s) else
  let p := trvDecode coded (erasedBytes h.code.toNat gone)
  s.trvWhole n h (some p.isSome) (use (p.getD []))

/-- DATA_BURST (R205): `coded` are the payload's coded bytes as the receiver decided them, `missing` the numbers of the payload's
chirp periods without energy. -/
def execDataBurst (port : BitVec 4) (hdr : TrvHdr) (coded : Bytes) (missing : List (BitVec 14)) (s : State) :
    Host.Outcome State Fault Refusal :=
  let n := port.toNat
  .next (s.trvPayload n hdr coded missing fun p t => t.trvNew n hdr p id)

/-- TOKEN_BURST (R203). -/
def execTokenBurst (port : BitVec 4) (hdr : TrvHdr) (s : State) : Host.Outcome State Fault Refusal :=
  .next (s.trvWhole port.toNat hdr none id)

/-- IDENT_BURST (R202). -/
def execIdentBurst (port : BitVec 4) (hdr : TrvHdr) (coded : Bytes) (missing : List (BitVec 14)) (s : State) :
    Host.Outcome State Fault Refusal :=
  let n := port.toNat
  .next (s.trvPayload n hdr coded missing fun p t => t.trvNew n hdr [] fun u => u.trvTakeIdent n p)

/-- PROOF_BURST (R202): the responder's proof, at the requester. -/
def execProofBurst (port : BitVec 4) (hdr : TrvHdr) (coded : Bytes) (missing : List (BitVec 14)) (s : State) :
    Host.Outcome State Fault Refusal :=
  let n := port.toNat
  .next (s.trvPayload n hdr coded missing fun p t => t.trvNew n hdr [] fun u =>
    if u.trvState n = 3 && u.trvMaster n && !(u.tv n).judged && (u.ln n).ident ≠ [] then u.trvJudge n p else u)

/-- LEAVE (R207). -/
def execLeave (port : BitVec 4) (hdr : TrvHdr) (s : State) : Host.Outcome State Fault Refusal :=
  let n := port.toNat
  .next (
    if !s.trvStands n then s.trvRelease n
    else if hdr.tag.toNat ≠ (s.tv n).tag then s.trvDiscard n
    else ((s.trvHeard n hdr false).burstOk n).trvDown n 5)

/-! ## Reception (R189, R192 to R197) -/

/-- The correlators of the port listen: at every chirp length in Traverse, at that of TV0 while it negotiates (R194, R198). -/
def State.trvListens (s : State) (n len : Nat) : Bool :=
  s.allowsTrv n && s.clocked && !s.sweeps n && (decide (s.an n = 8) || (decide (s.an n = 1) && decide (len = 0)))

/-- A step of the fast AGC toward the gain the energy of a chirp calls for: at most 6 dB, in 0.5 dB steps (R193). -/
def agcStep (want gain : Nat) : Nat := if want ≤ gain then max want (gain - 12) else min want (gain + 12)

/-- The AGC's gain when a preamble is detected: from the highest, 48 dB, through the eight chirps that have been heard. -/
def agcGain (want : Nat) : Nat := (List.range 8).foldl (fun g _ => agcStep (min 96 want) g) 96

/-- A reception begins with a mean peak SNR in 0.5 dB, which gives Q0 (R194), and a gain that its chirps call for. `first`: this is
the first preamble since the token went to the partner, and its arrival measures the span (R200). -/
def State.trvDetect (s : State) (n len snr gain delay : Nat) (first : Bool) : State :=
  let s := s.put (F.PORT_TRV_STATE_Q0_RX n) (min 255 (snr + (match len with | 0 => 0 | 1 => 12 | _ => 24)))
  s.modTv n fun t => { t with
    heardAt := s.time, measures := false
    rcpt := some { len := len, peak := snr, delay := if first then some delay else none, gain := agcGain gain } }

/-- PREAMBLE_DETECTED (R194): at a chirp length, with the mean SNR of up-chirps 9 to 16 in 0.5 dB, the gain in 0.5 dB that the
energy calls for, and the interval since the end of this end's last burst in 0.1 ns. A preamble found while a reception is under
way belongs to the shadow correlator. -/
def execPreambleDetected (port : BitVec 4) (len : BitVec 2) (snr gain : BitVec 8) (delay : BitVec 32) (s : State) :
    Host.Outcome State Fault Refusal :=
  let n := port.toNat
  .next (if s.trvListens n len.toNat && (s.tv n).rcpt.isNone then
      s.trvDetect n len.toNat snr.toNat gain.toNat delay.toNat (s.tv n).measures
    else s)

/-- The number of bits in which two 48-bit words differ. -/
def differing (a b : Nat) : Nat := ((List.range 48).filter fun i => a.testBit i != b.testBit i).length

/-- FALSE_DETECTION (R195): the down-chirp pair was not found, or `sync` stood where the sync word was looked for. A word within
SYNC_TOL of the sync word is accepted (R189), and the AGC freezes (R193). -/
def execFalseDetection (port : BitVec 4) (sync : Option (BitVec 48)) (s : State) : Host.Outcome State Fault Refusal :=
  let n := port.toNat
  let tol := min 8 (s.get (F.PORT_TRV_CFG_SYNC_TOL n))
  let found := sync.any fun w => decide (differing w.toNat 0x9A6E2D51C7B3 ≤ tol)
  .next (
    if !((s.tv n).rcpt.isSome && s.clocked) then s
    else if found then s.modTv n fun t => { t with rcpt := t.rcpt.map fun r => { r with frozen := true } }
    else (s.count (F.PORT_TRV_FALSE_SYNC_COUNT n) 1).modTv n fun t => { t with rcpt := none })

/-- SHADOW_RESTART (R196): the shadow correlator detects a preamble, so many chirp periods after the primary detection. DEDUCED:
a late one is counted where it is strong enough that it would have restarted the reception. -/
def execShadowRestart (port : BitVec 4) (periods : BitVec 8) (len : BitVec 2) (snr gain : BitVec 8) (delay : BitVec 32) (s : State) :
    Host.Outcome State Fault Refusal :=
  let n := port.toNat
  .next (match (s.tv n).rcpt with
    | none => s
    | some r =>
      if !s.clocked || snr.toNat < r.peak + 2 * max 1 (s.get (F.PORT_TRV_CFG_SHADOW_DB n)) then s
      else if 24 < periods.toNat then s.count (F.PORT_TRV_SHADOW_LATE_COUNT n) 1
      else (s.count (F.PORT_TRV_SHADOW_COUNT n) 1).trvDetect n len.toNat snr.toNat gain.toNat delay.toNat r.delay.isSome)

/-- BURST_TRUNCATED (R197). -/
def execBurstTruncated (port : BitVec 4) (s : State) : Host.Outcome State Fault Refusal :=
  let n := port.toNat
  .next (if (s.tv n).rcpt.isSome && s.clocked then s.trvTruncated n else s)

/-- TRV_HEADER_DISCARD (R192): a received header of 16 bytes that fails HCRC, carries a reserved TYPE or a foreign tag. One that
fails HCRC ends the reception and is not counted. -/
def execTrvHeaderDiscard (port : BitVec 4) (hdr : BitVec 128) (s : State) : Host.Outcome State Fault Refusal :=
  let n := port.toNat
  let h := leBytes hdr.toNat 16
  .next (
    if !((s.tv n).rcpt.isSome && s.clocked) then s
    else if crc16 (h.take 14) ≠ uLe h 14 2 then s.trvRelease n
    else if 8 ≤ u8 h 0 % 16 || (s.trvStands n && decide (uLe h 10 4 ≠ (s.tv n).tag)) then s.trvDiscard n
    else s)

/-! ## Turns (R203 to R205, R209) -/

/-- The bursts chosen for a turn so far, oldest first, each with its type, SEQ and payload; and the time used, with the end of
the last of them, in ns. -/
structure Turn where
  bursts : List (Nat × Nat × Bytes) := []
  used   : Nat := 0
  ended  : Nat := 0
  deriving DecidableEq, Repr

/-- A burst is added where it ends within TURN_MAX. -/
def Turn.add (t : Turn) (turnMax code typ seq : Nat) (p : Bytes) : Option Turn :=
  let e := t.used + trvNs code p.length
  if turnMax < e then none
  else some { bursts := t.bursts ++ [(typ, seq, p)], used := e + trvGapNs code, ended := e }

/-- Bursts held that have gone out before are sent again, oldest first, then those that have not gone out. -/
def State.turnHeld (s : State) (n code : Nat) : List Burst → Turn → State × Turn × Bool
  | [], t => (s, t, true)
  | b :: bs, t =>
    match t.add (s.trvTurnMax n) code b.typ b.seq b.payload with
    | none => (s, t, false)
    | some t' =>
      let s := s.modTv n fun v => { v with held := v.held.map fun x =>
        if x.seq = b.seq then { x with sent := true, resends := x.resends + b2n x.sent } else x }
      (s.count (F.PORT_TRV_RESEND_COUNT n) (b2n b.sent)).turnHeld n code bs t'

/-- The longest LEN whose burst ends within what is left of a turn. -/
def longestLen (code left : Nat) : Nat := ((List.range 2049).reverse.find? fun l => decide (trvNs code l ≤ left)).getD 0

/-- New DATA bursts, while fewer than eight are held, frames wait and the turn has room. -/
def State.turnData (s : State) (n code : Nat) : Nat → Turn → State × Turn
  | 0, t => (s, t)
  | k + 1, t =>
    let fs := (s.pd n).toLine
    let need := (fs.map fun f => f.bytes.length - f.done + 2).sum
    let room := min need (longestLen code (s.trvTurnMax n - t.used))
    if fs = [] || 8 ≤ (s.tv n).held.length || room < 3 then (s, t)
    else
      let (p, ids, _, _, rest) := packLot fs 0 room
      let seq := (s.tv n).nextSeq
      match t.add (s.trvTurnMax n) code 0 seq p with
      | none => (s, t)
      | some t' =>
        let s := (s.trvQueue n 0 p ids).modTv n fun v => { v with held := v.held.map fun x => if x.seq = seq then { x with sent := true } else x }
        (s.modPd n fun q => { q with toLine := rest }).turnData n code k t'

/-- Bursts resent RETRY_MAX times and still not acknowledged are abandoned, with the frames that have bytes in them. The result
says whether an identity burst was among them. -/
def State.trvAbandon (s : State) (n : Nat) : State × Bool :=
  let gone := (s.tv n).held.filter fun b => b.sent && decide (s.get (F.PORT_TRV_TURN_RETRY_MAX n) ≤ b.resends)
  let ids := (gone.flatMap (·.frames)).eraseDups
  let s := s.modTv n fun t => { t with
    held := (t.held.filter fun b => !gone.any fun g => g.seq = b.seq).map fun b => { b with frames := b.frames.filter fun i => !ids.contains i } }
  let s := (s.modPd n fun p => { p with toLine := p.toLine.filter fun f => !(decide (f.done ≠ 0) && ids.contains f.id) }).count
    (F.PORT_TRV_ABANDON_COUNT n) gone.length
  ((s.count (F.PORT_TRV_DROP_TX_COUNT n) ids.length).fillCheck n, gone.any fun b => b.typ ≠ 0)

/-- The bursts of a turn go out; the last carries PASS. -/
def State.turnOut (s : State) (n code : Nat) : List (Nat × Nat × Bytes) → State
  | [] => s
  | (typ, seq, p) :: bs =>
    let o : Output := .burst n (s.trvHeader n typ bs.isEmpty 0 (if typ = 1 then 0 else code) p.length seq) (if p = [] then [] else trvCode p)
    (((s.emit o).count (F.PORT_TRV_BURST_TX_COUNT n) 1).cenPort n 0x0F 1).turnOut n code bs

/-- One bell goes out (R208). -/
def State.sendBell (s : State) (n : Nat) : State :=
  let left := s.get (F.PORT_BELL_STATE_LEFT n) - 1
  let s := (s.put (F.PORT_BELL_STATE_LEFT n) left).put (F.PORT_BELL_STATE_SENDING n) (b2n (decide (left ≠ 0)))
  ((s.modTv n fun t => { t with bellAt := s.time }).count (F.PORT_BELL_SENT_COUNT n) 1).emit (.bell n (s.get (F.PORT_BELL_CMD_GROUP n)))

/-- A turn of the holder of the token. -/
def State.takeTurn (s : State) (n : Nat) : State :=
  let t := s.tv n
  let reach := ([3, 2, 1].find? fun c => decide (t.span ≤ trvReach c)).getD 0
  let code := min t.reqTx reach
  let s := s.put (F.PORT_TRV_STATE_CODE_TX n) code
  let (s, idLost) := s.trvAbandon n
  if idLost then s.trvEnd n 3 else
  let rings := s.up n && s.flag (F.PORT_BELL_STATE_SENDING n) && decide (t.bellAt + 1000000 ≤ s.time)
  let start := s.time
  let s := if rings then s.sendBell n else s
  let t0 : Turn := if rings then { used := 40960 + trvGapNs code } else {}
  let held := (s.tv n).held
  let (s, t1, all) := s.turnHeld n code (held.filter (·.sent) ++ held.filter fun b => !b.sent) t0
  let (s, t2) := if all && s.up n then s.turnData n code 9 t1 else (s, t1)
  let t3 := if t2.bursts = [] then { t2 with bursts := [(1, 0, [])], ended := t2.used + trvNs code 0 } else t2
  let s := (s.turnOut n code t3.bursts).put (F.PORT_TRV_STATE_TOKEN n) 0
  (s.modTv n fun t => { t with ownEnd := start + t3.ended, measures := true }).fillCheck n

/-- TURN_START (R203). -/
def execTurnStart (port : BitVec 4) (s : State) : Host.Outcome State Fault Refusal :=
  let n := port.toNat
  .next (if s.trvStands n && s.flag (F.PORT_TRV_STATE_TOKEN n) then (s.timeTo (s.tv n).turnAt).takeTurn n else s)

/-- TOKEN_RECLAIM (R204): only the requester takes the token unbidden, and not while it receives. -/
def execTokenReclaim (port : BitVec 4) (s : State) : Host.Outcome State Fault Refusal :=
  let n := port.toNat
  .next (if s.trvStands n && s.trvMaster n && !s.flag (F.PORT_TRV_STATE_TOKEN n) && (s.tv n).rcpt.isNone then
      let s := s.timeTo (max (s.tv n).heardAt (s.tv n).ownEnd + s.trvTurnMax n + 2000000)
      (s.count (F.PORT_TRV_TOKEN_RECLAIM_COUNT n) 1).takeTurn n
    else s)

/-! ## The timers of search and link (R198, R199, R207) -/

/-- LINKREQ_RETRY (R199). -/
def execLinkreqRetry (port : BitVec 4) (s : State) : Host.Outcome State Fault Refusal :=
  let n := port.toNat
  .next (if s.an n = 8 && s.trvState n = 1 && s.clocked && !s.sweeps n then (s.timeTo (s.tv n).retryAt).sendLinkReq n else s)

/-- ACQUISITION_TIMEOUT (R199): no preamble within 1 ms of the end of this end's burst. One that was detected in that time keeps
the end waiting. -/
def execAcquisitionTimeout (port : BitVec 4) (s : State) : Host.Outcome State Fault Refusal :=
  let n := port.toNat
  .next (if s.an n = 8 && (s.tv n).awaits ≠ 0 && s.clocked && !s.sweeps n &&
        (decide ((s.tv n).heardAt < (s.tv n).ownEnd) || decide ((s.tv n).ownEnd + 1000000 < (s.tv n).heardAt)) then
      let s := s.timeTo ((s.tv n).ownEnd + 1000000)
      (s.put (F.PORT_TRV_STATE_STATE n) 1).modTv n fun t => { t with awaits := 0, measures := false }
    else s)

/-- TRV_LOSS_TIMEOUT (R207). -/
def execTrvLossTimeout (port : BitVec 4) (s : State) : Host.Outcome State Fault Refusal :=
  let n := port.toNat
  .next (if s.trvStands n then (s.timeTo ((s.tv n).wholeAt + s.trvLoss n)).trvDown n 2 else s)

/-- SEARCH_EXPIRY (R198): the port negotiates. -/
def execSearchExpiry (port : BitVec 4) (s : State) : Host.Outcome State Fault Refusal :=
  let n := port.toNat
  .next (if s.an n = 8 && s.trvState n ≤ 2 && s.coreOn && !s.sweeps n then
      let s := s.timeTo ((s.tv n).since + 500000000 * max 1 (s.get (F.PORT_TRV_CFG_SEARCH n)))
      let s := ((s.noteTried n).trvClear n).startAn n
      s.modLn n fun l => { l with anSince := some s.time }
    else s)

/-- TRV_AFTER_EXPIRY (R198): the port waits for the token of a search, where no negotiation has completed since it was last up or
enabled, or since its last search ended. -/
def execTrvAfterExpiry (port : BitVec 4) (s : State) : Host.Outcome State Fault Refusal :=
  let n := port.toNat
  let k := s.get (F.PORT_TRV_CFG_TRV_AFTER n)
  .next (match (s.ln n).anSince with
    | some t0 => if s.an n = 1 && k ≠ 0 && s.allowsTrv n && s.starts && !s.sweeps n then (s.timeTo (t0 + 500000000 * k)).awaitSearch n else s
    | none => s)

/-! ## The bell (R208 to R211) -/

/-- PORT_BELL_GO (R209): a write of PORT_BELL_CMD. -/
def State.bellWrite (s : State) (n : Nat) (val : Word) : State :=
  let v := val.toNat
  if v.testBit 31 && (s.upIlm n || s.upLegacy n) then s.put (F.PORT_BELL_STATE_REFUSED n) 1 else
  let s := (s.put (F.PORT_BELL_CMD_COUNT n) (bits v 16 8)).put (F.PORT_BELL_CMD_GROUP n) (bits v 0 16)
  if !v.testBit 31 then s
  else ((s.put (F.PORT_BELL_STATE_SENDING n) 1).put (F.PORT_BELL_STATE_LEFT n) (max 1 (bits v 16 8))).modTv n fun t =>
    { t with bellAt := if t.bellAt = 0 then s.time - 1000000 else t.bellAt }

/-- BELL_SEND (R209): the next bell of a running sequence, at least 1 ms after the one before. A port up in Traverse rings at the
start of its turns instead. -/
def execBellSend (port : BitVec 4) (s : State) : Host.Outcome State Fault Refusal :=
  let n := port.toNat
  .next (if s.flag (F.PORT_BELL_STATE_SENDING n) && !s.up n && s.clocked then
      (s.timeTo ((s.tv n).bellAt + 1000000)).sendBell n
    else s)

/-- BELL_ACCEPTED (R210, R211): so many of the eight pattern chirps, and a group code decoded with no bit error. -/
def execBellAccepted (port : BitVec 4) (chirps : BitVec 4) (code : BitVec 16) (boot : Boot) (s : State) :
    Host.Outcome State Fault Refusal :=
  let n := port.toNat
  let g := s.get (F.PORT_BELL_CFG_GROUP n)
  let c := code.toNat
  .next (
    if n < s.nPorts && s.flag (F.PORT_BELL_CFG_LISTEN n) && (!s.up n || s.upTrv n) && 6 ≤ chirps.toNat &&
        (decide (c = 0xFFFF) || (decide (c = g) && decide (g ≠ 0) && decide (g ≠ 0xFFFF))) then
      let s := ((s.count (F.PORT_BELL_HEARD_COUNT n) 1).put (F.PORT_BELL_STATE_LAST_RX n) c).raise (Ev.portBellRx n)
      if s.asleep || s.pwr.mode = 1 then s.wake 1 n boot else s
    else s)

end Sys2Proof.Machine
end

