-- ==== Sys2Proof/Machine/Heat.lean ====
section
/-!
DEFINITION. The drover at work, the performance levels, heat, and the herder's watchdog (R323 to R326, R337 to R345).
-/
namespace Sys2Proof.Machine

/-! ## The herder runs again (R15, R324, R393) -/

/-- Ports that waited for the herder start again. -/
def State.startOwed (s : State) : State :=
  s.each (List.range s.nPorts) fun t n => if (t.ln n).owed && t.starts && t.portWanted n then t.comeBack n else t

/-- HERDER_WATCHDOG_EXPIRY (R324): the herder alone restarts, with its firmware checked (R323). -/
def execHerderWatchdogExpiry (s : State) : Host.Outcome State Fault Refusal :=
  .next (
    if !(s.herderRuns && s.coreOn) then s else
    let s := s.abandonRuns.startFirmware
    let ok := s.herder.running
    let s := (s.withHerder { s.herder with running := false, restart := ok }).cenHerd 0x0A 1
    (s.put F.DEV_FW_STATUS_RESTARTS (s.get F.DEV_FW_STATUS_RESTARTS + 1)).raise Ev.devHerderRestart)

/-- A running command ends with ABORTED. A structural apply goes on without its command (DEDUCED: no rule undoes it). -/
def State.abortCommand (s : State) (k : Nat) : State :=
  let s := s.each (List.range s.nPorts) fun t n =>
    if (t.pd n).drainSlot = k + 1 then t.modPd n fun p => { p with drainSlot := 0 } else t
  let s := if s.slotOp k = 0x20 then s.each (List.range 48) fun t u => t.modCal u fun c => { c with asked := false, outcome := 0 } else s
  if s.apply.stage ≠ 0 && s.apply.slot = k + 1 then
    let t := s.completeLogged k 0x06 (uLe s.apply.image 0x1C 4) stAborted 0 []
    if s.apply.stage = 8 then t.endApply else t.withApply { t.apply with slot := 0 }
  else match s.refusedKind (s.slotOp k) k with
    | some (kind, obj) => s.completeLogged k kind obj stAborted 0 []
    | none => s.complete k stAborted 0 []

/-- HERDER_RUNNING_AGAIN (R324). -/
def execHerderRunningAgain (s : State) : Host.Outcome State Fault Refusal :=
  .next (
    if !s.herder.restart then s else
    let s := (s.withHerder { s.herder with running := true, restart := false }).abortDiags
    let s := if s.pwr.entry ≠ 0 && s.pwr.entry ≠ 6 then s.undoEntry stAborted 0 id else s
    let s := s.each ((List.range 64).filter fun k => s.slotState k = 2) State.abortCommand
    s.startOwed)

/-! ## The drover's levers (R340, R342) -/

/-- The active tone count that port `n` has, or that its last announced cap brings. -/
def State.planned (s : State) (n : Nat) : Nat :=
  match (s.ln n).capSent, (s.ln n).pend.find? fun x => x.kind = 2 && x.mine with
  | some (a, _), _ => a
  | none, some x => x.cap
  | none, none => s.activeTones n

/-- The demand of an ILM port with a tone count and a level. -/
def State.cappedDemand (s : State) (n count level : Nat) : Nat :=
  if s.flag (F.PORT_LINK_STATUS_LPI n) then roundDemand 600000 (levelD level)
  else
    let r (rx : Bool) := s.mbps n (s.sumBits n rx (s.prof n rx) (min count (s.toneCapAt n level)))
    s.ilmDemand n (max (r false) (r true)) level

/-- Tone counts that a plan gives to the ILM ports that are up, with its steps, newest first: port and count before. -/
structure Plan where
  counts : List (Nat × Nat) := []
  steps  : List (Nat × Nat) := []
  level  : Nat := 0
  deriving DecidableEq, Repr

/-- The sum of demands under a plan. -/
def State.planSum (s : State) (p : Plan) : Nat :=
  let others := (List.range s.nPorts).filter fun n => !p.counts.any fun e => e.1 = n
  s.restDemand p.level + (p.counts.map fun e => s.cappedDemand e.1 e.2 p.level).sum + (others.map fun n => s.portDemandAt n p.level).sum

/-- A plan with port `n` at a lower count. -/
def Plan.lower (p : Plan) (n count : Nat) : Plan :=
  { p with
    counts := p.counts.map fun e => if e.1 = n then (n, count) else e
    steps := (p.counts.filter fun e => e.1 = n) ++ p.steps }

/-- The port of the next step: the lowest priority, then the most active tones, then the highest number. -/
def State.stepPort (s : State) (l : List (Nat × Nat)) : Option (Nat × Nat) :=
  let before (a b : Nat × Nat) : Bool :=
    let p (e : Nat × Nat) := s.pPriority e.1
    decide (p a < p b) || (decide (p a = p b) && (decide (b.2 < a.2) || (decide (a.2 = b.2) && decide (b.1 < a.1))))
  l.foldl (fun (o : Option (Nat × Nat)) e => match o with
    | none => some e
    | some f => if before e f then some e else some f) none

/-- Steps of lever 1 or 3 on the ports that `may` names, until the sum fits or no step is left. -/
def State.planCaps (s : State) (budget : Nat) (may : Nat → Bool) : Nat → Plan → Plan
  | 0, p => p
  | k + 1, p =>
    if s.planSum p ≤ budget then p
    else
      let tps := tonesPerSlice p.level
      match s.stepPort (p.counts.filter fun e => may e.1 && decide (tps < e.2)) with
      | none => p
      | some (n, a) => s.planCaps budget may k (p.lower n ((a - 1) / tps * tps))

/-- Lever 2: the level goes down one by one, with every port at or below the lower level's capacity, until the sum fits. -/
def State.planLevels (s : State) (budget slowest : Nat) : Nat → Plan → Plan
  | 0, p => p
  | k + 1, p =>
    if s.planSum p ≤ budget || slowest ≤ p.level then p
    else
      let l := p.level + 1
      let p := p.counts.foldl (fun (q : Plan) e => if s.toneCapAt e.1 l < e.2 then q.lower e.1 (s.toneCapAt e.1 l) else q) p
      s.planLevels budget slowest k { p with level := l }

/-- The plan that stands: no new step. -/
def State.planNow (s : State) : Plan :=
  { counts := ((List.range s.nPorts).filter s.upIlm).map fun n => (n, s.planned n), level := s.drv.lower.getD (s.get F.DRV_STATE_PL) }

/-- The whole of R340 for a budget. -/
def State.planAll (s : State) (budget : Nat) : Plan :=
  let protect (n : Nat) := decide ((if s.sec_ 4 = [] then 4 else u8 (s.sec_ 4) 6) ≤ s.pPriority n)
  let p := s.planCaps budget (fun n => !protect n) 160 s.planNow
  let p := s.planLevels budget s.plSlow 3 p
  s.planCaps budget protect 160 p

/-- A cap announced by the drover is counted. -/
def State.capCounted (s : State) : State := (s.count F.DRV_CAPS_COUNT 1).cenFab 0x03 1

/-- Announce the counts of a plan that differ from what stands, and take its level as the one to come. -/
def State.carryOut (s : State) (p : Plan) : State :=
  let s := s.each (p.counts.filter fun e => decide (s.planned e.1 ≠ e.2)) fun t e => (t.sendCap e.1 e.2).capCounted
  s.withDrv { s.drv with
    steps := p.steps ++ s.drv.steps, lower := if s.get F.DRV_STATE_PL < p.level then some p.level else s.drv.lower }

/-- Above a limit of Table 12-8: PL3, and every ILM port at one effective slice. -/
def State.limitPlan (s : State) : Plan :=
  let p := s.planNow.counts.foldl (fun (q : Plan) e => if 512 < e.2 then q.lower e.1 512 else q) s.planNow
  { p with level := 3 }

/-- A cap announced by the drover is not yet in force. -/
def State.inFlight (s : State) : Bool := (List.range s.nPorts).any s.capInFlight

/-- A level comes into force, with what it does to the active tones (R87). -/
def State.switchLevel (s : State) (l : Nat) : State :=
  let s := ((s.setLevel l).count F.DRV_PL_CHANGES_COUNT 1).cenFab 0x04 1
  s.each ((List.range s.nPorts).filter s.upIlm) State.showLoading

/-- The level goes down by one once every cap it depends on is in force (R326, R75). -/
def State.lowerLevel (s : State) : State :=
  match s.drv.lower with
  | none => s
  | some l =>
    let pl := s.get F.DRV_STATE_PL
    if l ≤ pl then s.withDrv { s.drv with lower := none }
    else if s.inFlight || (List.range s.nPorts).any fun n => s.upIlm n && decide (s.toneCapAt n (pl + 1) < s.activeTones n) then s
    else
      let s := s.switchLevel (pl + 1)
      if pl + 1 = l then s.withDrv { s.drv with lower := none } else s

/-- The step that R342 would reverse next: the level, or the newest step of the port of highest priority. -/
def State.nextReverse (s : State) : Option (Option (Nat × Nat)) :=
  if s.plFast < s.get F.DRV_STATE_PL then some none
  else
    let best := s.drv.steps.foldl (fun (o : Option (Nat × Nat)) e => match o with
      | none => some e
      | some f => if s.pPriority f.1 < s.pPriority e.1 then some e else some f) none
    best.map some

/-- The sum with a step reversed. -/
def State.reversedSum (s : State) : Option (Nat × Nat) → Nat
  | none => s.planSum { s.planNow with level := s.get F.DRV_STATE_PL - 1 }
  | some (n, a) => s.planSum { s.planNow with counts := s.planNow.counts.map fun e => if e.1 = n then (n, a) else e }

/-- Reverse a step: a level first raises PWR_VID (R326). -/
def State.reverseStep (s : State) : Option (Nat × Nat) → State
  | none =>
    let l := s.get F.DRV_STATE_PL - 1
    (s.withPins { s.pins with vid := l }).withPwr { s.pwr with raise := some l }
  | some (n, a) =>
    let s := s.withDrv { s.drv with steps := s.drv.steps.erase (n, a) }
    (s.sendCap n (min a (s.toneCapAt n (s.get F.DRV_STATE_PL)))).capCounted

/-- R342, once in a period. -/
def State.reverseCheck (s : State) : State :=
  if s.inFlight || s.flag F.DRV_STATE_LIMIT || s.pwr.raise.isSome || s.drv.lower.isSome || s.get F.CLK_STATUS_STATE ≠ 0 then
    s.withDrv { s.drv with under := 0 }
  else match s.nextReverse with
    | none => s.withDrv { s.drv with under := 0 }
    | some r =>
      if s.effective * 20 < 20 * s.reversedSum r + s.get F.DRV_BUDGET_MW then s.withDrv { s.drv with under := 0 }
      else if s.drv.under < 9 then s.withDrv { s.drv with under := s.drv.under + 1 }
      else (s.reverseStep r).withDrv { (s.reverseStep r).drv with under := 0 }

/-! ## Grants (R339) -/

/-- The ports that wait for a token: by PRIORITY, highest first, and then by port number. -/
def State.waiting (s : State) : List Nat :=
  ((List.range 9).reverse.flatMap fun p => (List.range s.nPorts).filter fun n =>
    decide (s.an n = 2) && (s.ln n).tokenAt.isSome && decide (s.pPriority n = p))

/-- The demand that a waiting port's token covers. -/
def State.waitDemand (s : State) (n : Nat) : Nat :=
  if (s.ln n).target = 9 then 400 else s.startDemand n (s.get F.DRV_STATE_PL)

/-- Grant tokens in the queue's order. A start that does not fit makes room with caps on ports of lower PRIORITY, where that is
enough. DESIGN CHOICE: starts behind it then wait with it. While a limit of Table 12-8 is in force no training starts; searches and
warm restarts are none (DEDUCED). See log entry 51. -/
def State.grant (s : State) : List Nat → State
  | [] => s
  | n :: ns =>
    let warm := decide ((s.ln n).target = 0)
    let demand := s.waitDemand n
    let l := s.get F.DRV_STATE_PL
    let trains := !warm && decide ((s.ln n).target ≠ 9)
    if s.sweeps n || (s.adcFirst n && (s.ln n).target ≠ 9) || (!warm && decide (2 ≤ s.recentStarts.length)) ||
        (trains && s.flag F.DRV_STATE_LIMIT) then s.grant ns
    else if s.tokenFits n demand then
      let s := if warm then s.startWarm n
        else if (s.ln n).target = 9 then s.noteStart.startSearch n
        else s.noteStart.startTraining n
      s.grant ns
    else
      let budget := s.effective + s.portDemandAt n l - demand
      let p := s.planCaps budget (fun m => decide (s.pPriority m < s.pPriority n)) 160 s.planNow
      if s.mayGrant && decide (s.planSum p ≤ budget) then s.carryOut p else s

/-! ## The period (R337) -/

/-- r and what follows from it: the effective budget, THERMAL and THM_CAP (R338). -/
def State.thermalCap (s : State) : State :=
  let hot := decide (s.reduction ≠ 0)
  let was := s.flag F.DRV_STATE_THERMAL
  let s := (s.put F.DRV_EFFECTIVE_MW s.effective).put F.DRV_STATE_THERMAL (b2n hot)
  if hot && !was then s.raise Ev.thmCap else s

/-- The drover's registers (Table 12-15). -/
def State.showDrover (s : State) : State :=
  let l := s.get F.DRV_STATE_PL
  let s := (s.put F.DRV_STATE_FLIGHT (b2n s.inFlight)).put F.DRV_STATE_QUEUE s.waiting.length
  s.each (List.range s.nPorts) fun t n =>
    let cap := decide (t.upIlm n) && decide ((t.ln n).toneCap < t.toneCapAt n l)
    t.each [(F.DRV_PORT_DEMAND n, t.portDemandAt n l), (F.DRV_PORT_CAPPED n, b2n cap), (F.DRV_PORT_CAP_A n, if cap then (t.ln n).toneCap else 0)]
      fun u e => u.put e.1 e.2

/-- Steps of R340 that are still in force: the port is up below the count it had before the step. -/
def State.keepSteps (s : State) : State :=
  s.withDrv { s.drv with steps := s.drv.steps.filter fun e => s.upIlm e.1 && decide (s.planned e.1 < e.2), starts := s.recentStarts }

/-- The sum is above the effective budget, or a limit holds: the levers of R340. -/
def State.shed (s : State) : State :=
  if s.flag F.DRV_STATE_LIMIT then s.carryOut s.limitPlan
  else
    let p := s.planAll s.effective
    let s := if s.planSum s.planNow ≤ s.effective then s else s.carryOut p
    let short := decide (s.effective < s.planSum p)
    let was := s.flag F.DRV_STATE_SHORT
    let s := s.put F.DRV_STATE_SHORT (b2n short)
    if short && !was then s.raise Ev.drvShort else s

/-- DROVER_PERIOD (R337). -/
def execDroverPeriod (s : State) : Host.Outcome State Fault Refusal :=
  .next (
    if !s.clocked then s else
    let s := s.startOwed.keepSteps.thermalCap
    let s := s.put F.DRV_SUM_MW (s.demandAt (s.get F.DRV_STATE_PL))
    let s := s.shed.lowerLevel.reverseCheck
    let s := if s.starts then s.grant s.waiting else s
    let s := (s.cenFab 0x01 1).cenFab 0x02 (b2n (s.flag F.DRV_STATE_SHORT))
    ((s.withDrv { s.drv with moved := 0 }).showDrover).calRunCheck)

/-- PL_RAISE_SETTLE (R326): the clock switches 50 µs after PWR_VID, unless the level must be PL3 by then. -/
def execPlRaiseSettle (s : State) : Host.Outcome State Fault Refusal :=
  .next (match s.pwr.raise with
    | none => s
    | some l =>
      if !s.clocked then s else
      let s := (s.timeOn 50000).withPwr { s.pwr with raise := none }
      if s.flag F.DRV_STATE_LIMIT || s.get F.CLK_STATUS_STATE ≠ 0 then s.withPins { s.pins with vid := s.get F.DRV_STATE_PL }
      else s.switchLevel l)

/-! ## Sensors (R343, R344, Table 12-8) -/

/-- The part has a base-die or a core-die sensor. -/
def State.hasSensor (s : State) (base : Bool) (k : Nat) : Bool :=
  match s.part with
  | .xs716 => decide (k < (if base then 24 else 16))
  | .xs708 => if base then decide (k < 24) && !((decide (8 ≤ k) && decide (k < 16)) || decide (k = 18) || decide (k = 19)) else decide (k < 8)

/-- One sensor is read: its reading in 0.25 °C, none where it fails its self-check. A sensor marked FAILED stays so (DEDUCED). -/
def State.readSensor (s : State) (base : Bool) (k : Nat) (v : Option Nat) : State :=
  let f (lo len : Nat) : Fld := ⟨if base then A.THM_BASE k else A.THM_CORE k, lo, len⟩
  if !s.hasSensor base k then s else
  let s := s.put (f 31 1) 1
  match v with
  | some t => s.put (f 0 16) t
  | none => if s.flag (f 30 1) then s else (s.put (f 30 1) 1).raise Ev.thmSensorFail

/-- A base-die sensor more than 15 °C away from every other working one is marked FAILED, where three or more work. -/
def State.baseOutliers (s : State) : State :=
  let ok := (List.range 24).filter fun k => s.sensorOk (F.THM_BASE_VALID k)
  let t (k : Nat) : Int := signed 16 (s.get (F.THM_BASE_TEMP k))
  let out := ok.filter fun k => ok.all fun j => j = k || 60 < (t k - t j).natAbs
  if ok.length < 3 then s else s.each out fun u k => (u.put (F.THM_BASE_FAILED k) 1).raise Ev.thmSensorFail

/-- The two sensors of a core die disagree by more than 15 °C. -/
def State.corePairs (s : State) : State :=
  s.each (List.range (s.nChans / 2)) fun u d =>
    let t (k : Nat) : Int := signed 16 (u.get (F.THM_CORE_TEMP k))
    let both := u.sensorOk (F.THM_CORE_VALID (2 * d)) && u.sensorOk (F.THM_CORE_VALID (2 * d + 1))
    let dis := both && decide (60 < (t (2 * d) - t (2 * d + 1)).natAbs)
    let was := u.flag (F.THM_CORE_DISAGREE (2 * d))
    let u := (u.put (F.THM_CORE_DISAGREE (2 * d)) (b2n dis)).put (F.THM_CORE_DISAGREE (2 * d + 1)) (b2n dis)
    if dis && !was then u.raise Ev.thmSensorFail else u

/-- Channels above 85 °C enter hot refresh with a catch-up pass (R249). -/
def State.hotChannels (s : State) : State :=
  s.each (List.range s.nChans) fun t c =>
    if t.chRole c = 2 || t.flag (F.MEM_CH_STATE_HOT c) || !(t.chanTemp c).any fun x => decide (340 < x) then t
    else
      let t := (t.put (F.MEM_CH_STATE_HOT c) 1).put (F.MEM_CH_STATE_CATCHUP c) 1
      t.each (List.range 32) fun u j => u.modBk (2 * c + j / 16) (j % 16) fun b => { b with catchup := 8192 }

/-- The limit rows of Table 12-8, with 2 °C of hysteresis. -/
def State.limits (s : State) : State :=
  let core : Int := (s.coreTemp).getD (-1000)
  let base : Int := if s.baseTemps = [] then -1000 else s.baseTemp
  let c := decide (380 < core) || (s.thm.coreLim && decide (372 < core))
  let b := decide (420 < base) || (s.thm.baseLim && decide (412 < base))
  let newC := c && !s.thm.coreLim
  let newB := b && !s.thm.baseLim
  let s := (s.withThm { s.thm with coreLim := c, baseLim := b }).put F.DRV_STATE_LIMIT (b2n (c || b))
  let s := if newC then s.raiseCoreLimit else s
  if newB then s.raiseBaseLimit else s

/-- Sensors that stand above a trip limit, and since when. -/
def State.tripTimers (s : State) : State :=
  let hot (k : Nat) : Bool :=
    if k < 32 then s.sensorOk (F.THM_BASE_VALID k) && decide (k < 24) && decide (460 < signed 16 (s.get (F.THM_BASE_TEMP k)))
    else (s.chanTemp (k - 32)).any fun t => decide (400 < t)
  let old := s.thm.hot
  s.withThm { s.thm with hot := ((List.range 48).filter hot).map fun k => (k, Tbl.get old s.time k) }

/-- T_NOW of every unit, and the units that fall due (R225). -/
def State.unitTemps (s : State) : State :=
  s.each ((List.range 48).filter s.hasUnit) fun t u =>
    let v := ((t.unitTemp u).map tempByte).getD 0
    (if u < 16 then t.put (F.PORT_CAL_STATE_T_NOW u) v else t.put (F.MEM_CAL_STATE_T_NOW ((u - 16) / 2) ((u - 16) % 2)) v).dueCheck u

/-- After a thermal trip: every working core-die sensor below 85 °C and every working base-die sensor below 95 °C (R345). -/
def State.cooled (s : State) : Bool :=
  (s.baseTemps.all fun t => decide (t < 380)) &&
    ((List.range s.nChans).all fun c => !s.sensorOk (F.THM_CORE_VALID c) || decide (signed 16 (s.get (F.THM_CORE_TEMP c)) < 340))

/-- SENSOR_READ (R343): readings in 0.25 °C by sensor number, none for a sensor that fails its self-check; sensors not named keep
their readings. `boot` is what the start finds where a thermal trip ends in a reset (R345). -/
def execSensorRead (base core : List (BitVec 5 × Option (BitVec 16))) (boot : Boot) (s : State) : Host.Outcome State Fault Refusal :=
  .next (
    if !s.coreOn && s.pwr.held ≠ 3 then s else
    let s := s.each base fun t e => t.readSensor true e.1.toNat (e.2.map (·.toNat))
    let s := s.each core fun t e => t.readSensor false e.1.toNat (e.2.map (·.toNat))
    let s := s.baseOutliers.corePairs
    if s.pwr.held = 3 then (if s.cooled then s.resetDevice 3 boot else s)
    else s.hotChannels.limits.tripTimers.thermalCap.unitTemps)

/-- THERMAL_TRIP (R345). -/
def execThermalTrip (s : State) : Host.Outcome State Fault Refusal :=
  .next (match s.thm.hot with
    | [] => s
    | e :: es =>
      if !s.coreOn then s else
      let s := s.timeTo (es.foldl (fun a x => min a x.2) e.2 + 1000000)
      let s := ((s.releaseBypass.enterSelfRefresh).count F.THM_TRIPS_COUNT 1).withClk { s.clk with gates := 65535 }
      s.withPwr { s.pwr with held := 3, entry := 0 })

end Sys2Proof.Machine
end

