-- ==== Sys2Proof/Machine/Clocks.lean ====
section
/-!
DEFINITION. Clocks (R347 to R356), the debugger and boundary scan (R391 to R393).
-/
namespace Sys2Proof.Machine

/-! ## Judgements (R349, R350) -/

/-- Eight comparison windows in a row lie within `pm` thousandths of the expected count. -/
def judged (counts : List (BitVec 16)) (expected pm : Nat) : Bool :=
  decide (counts.length = 8) && counts.all fun c => decide (1000 * c.toNat ≤ expected * (1000 + pm)) && decide (expected * (1000 - pm) ≤ 1000 * c.toNat)

/-- LREFCLK or HREFCLK is judged against the IRO, or against AO-RC where the IRO cannot serve. -/
def State.refJudged (s : State) (counts : List (BitVec 16)) : Bool :=
  judged counts 3125 (if s.flag F.CLK_STATUS_IRO_FAILED || decide (s.pwr.held = 2) then 50 else 5)

/-- The IRO stops once both references are judged good (R347). -/
def State.stopIro (s : State) : State :=
  if s.flag F.CLK_STATUS_LREF_GOOD && s.flag F.CLK_STATUS_HREF_GOOD then s.put F.CLK_STATUS_IRO_RUN 0 else s

/-- The IRO is enabled, to be judged. -/
def State.enableIro (s : State) : State :=
  if s.flag F.CLK_STATUS_IRO_RUN then s
  else ((s.put F.CLK_STATUS_IRO_RUN 1).put F.CLK_STATUS_IRO_GOOD 0).withClk { s.clk with iroAt := s.time }

/-! ## Clock hold (R352, R353) -/

/-- The device is held in reset with cause CLOCK_LOSS until LREFCLK is seen (R352). DEDUCED: so too where IRO_FAILED leaves no
fallback clock (R350). -/
def State.clockLoss (s : State) : State :=
  let s := s.resetCore 4 true
  ((s.put F.CLK_STATUS_STATE 3).withPwr { s.pwr with held := 2 }).put F.CLK_STATUS_IRO_RUN 1

/-- What meets a trip ends (Table 13-4): a structural apply, a power state entry, runs, diagnostics and trainings. -/
def State.meetHold (s : State) : State :=
  let s := if s.pwr.entry ≠ 0 then s.refuseEntry 7 else s
  let s := if s.apply.stage ≠ 0 then (s.abandonApply).withClk { s.clk with restore := true } else s
  s.abandonRuns.abortDiags.each (List.range s.nPorts) fun t n =>
    if t.an n = 2 || t.an n = 3 || t.an n = 5 then (t.abortTraining n).modLn n fun l => { l with owed := true } else t

/-- LREFCLK_TRIP (R352): the gated phase of clock hold begins. -/
def execLrefclkTrip (s : State) : Host.Outcome State Fault Refusal :=
  .next (
    if !(s.coreOn && decide (s.get F.CLK_STATUS_STATE = 0)) then s else
    let s := s.count F.CLK_LREF_TRIPS_COUNT 1
    if s.flag F.CLK_STATUS_IRO_FAILED then s.clockLoss
    else
      let s := s.meetHold.enableIro
      let s := s.each [(F.CLK_STATUS_STATE, 1), (F.CLK_STATUS_LREF_GOOD, 0), (F.CLK_STATUS_LPLL_LOCK, 0)] fun t e => t.put e.1 e.2
      s.withClk { s.clk with tripAt := s.time, countAt := s.time, coasting := true })

/-- 1 µs after the trip the gates close, the stack enters self-refresh with its queues kept (R255), and the bypass outputs are
released. -/
def State.coastEnd (s : State) : State :=
  if !s.clk.coasting then s else
  let s := s.timeTo (s.clk.tripAt + 1000)
  let s := ((s.pauseRings.put F.CEN_STATUS_RUNNING 0).enterSelfRefresh).releaseBypass
  s.withClk { s.clk with coasting := false, gates := 65535 }

/-- CLOCK_HOLD_COAST_END (R352). -/
def execClockHoldCoastEnd (s : State) : Host.Outcome State Fault Refusal := .next s.coastEnd

/-- Every link that is up goes down with cause CLOCK, and every port is silent. -/
def State.clockDown (s : State) : State :=
  s.each (List.range s.nPorts) fun t n =>
    if t.up n then t.dropLink n 9
    else if t.trvStands n then t.trvDown n 9
    else if t.portWanted n then
      ((t.trvClear n).put (F.PORT_AN_STATUS_STATE n) 0).modLn n fun l => { l with owed := true, tokenAt := none, holdEnd := none }
    else t

/-- The second phase: the core runs from the IRO at PL3, and the herder resumes. -/
def State.holdOnIro (s : State) : State :=
  let s := ((s.put F.CLK_STATUS_IRO_GOOD 1).put F.CLK_STATUS_STATE 2).setLevel 3
  ((s.withClk { s.clk with gates := 0 }).withPwr { s.pwr with raise := none }).clockDown.raise Ev.clkHold

/-- The structure of the committed slot again, after an abandoned apply (R38): no event is raised. -/
def State.restoreFold (s : State) : State :=
  let ok (u : Nat) := s.slotErr (Tbl.get s.nv.foldSlots [] u) = none
  let img (u : Nat) := Tbl.get s.nv.foldSlots [] u
  let k := s.commitWord % 2
  let s := if s.commitOk && ok k then s.runFold (img k) (k + 1)
    else if s.commitOk && ok (1 - k) then s.runFold (img (1 - k)) (2 - k)
    else s.runFold [] 0
  let s := s.bootLayout.showStructure
  let s := s.each (List.range s.nPorts) fun t n => ((t.dropStored n).flushKept n).modPd n fun p => { p with drainHold := false }
  ((s.startPorts 65535).each (List.range s.nPorts) State.fillCheck).applyLive 0

/-- HREFCLK is lost (R354): every host lane counts as lost, and the IRO is enabled to judge it. -/
def State.loseHref (s : State) : State :=
  let s := (s.put F.CLK_STATUS_HREF_GOOD 0).count F.CLK_HREF_TRIPS_COUNT 1
  let lanes := (List.range s.nPorts).filter fun m => decide (s.get (F.HL_CFG_RATE m) ≠ 0)
  ((s.each lanes fun t m => t.loseLane m 0 none).raise Ev.clkHrefLoss).enableIro

/-- Clock hold, or a boundary scan, ends (R353, R391). A wake latched through the hold acts where the device is still in Drowse. -/
def State.clockReturn (s : State) : State :=
  let s := (s.setLevel (if s.flag F.DRV_STATE_LIMIT then 3 else s.plFast)).leaveSelfRefresh.serveQueues
  let s := if s.clk.restore then ((s.withClk { s.clk with restore := false }).restoreFold).faultLanes
    else (s.holdBypass.restartPorts).startOwed
  let s := (s.resumeRings.raise Ev.clkRestored).stopIro
  let s := if s.clk.hrefDue then (s.withClk { s.clk with hrefDue := false }).loseHref else s
  match s.clk.wake with
  | some (src, port) => if s.pwr.mode = 1 then (s.withClk { s.clk with wake := none }).wakeNow src port false {} else s.withClk { s.clk with wake := none }
  | none => s

/-- LREFCLK is judged good. -/
def State.lrefBack (s : State) (boot : Boot) : State :=
  if s.pwr.held = 2 then (s.withPwr { s.pwr with held := 0 }).coldStart boot false
  else if s.pwr.held = 4 then s.countHold.finishStart
  else if s.get F.CLK_STATUS_STATE ≠ 2 then s
  else
    let s := (s.timeOn 40000).countHold
    let s := s.each [(F.CLK_STATUS_STATE, 0), (F.CLK_STATUS_LREF_GOOD, 1), (F.CLK_STATUS_LPLL_LOCK, 1)] fun t e => t.put e.1 e.2
    s.clockReturn

/-- HREFCLK is judged good: the lanes restart blind (R354). -/
def State.hrefBack (s : State) : State :=
  let s := ((s.put F.CLK_STATUS_HREF_GOOD 1).withClk { s.clk with hrefDue := false }).stopIro
  let lanes := (List.range s.nPorts).filter fun m => decide (s.get (F.HL_CFG_RATE m) ≠ 0)
  (s.each lanes State.blindLane).faultLanes

/-- OSCILLATOR_JUDGED (R349): 0 the IRO, 1 LREFCLK, 2 HREFCLK, with the counts of the eight windows. `boot` is what a start finds where
the judgement of LREFCLK releases one. -/
def execOscillatorJudged (which : BitVec 2) (counts : List (BitVec 16)) (boot : Boot) (s : State) : Host.Outcome State Fault Refusal :=
  .next (
    if !(s.coreOn || decide (s.pwr.held = 2)) then s else
    match which.toNat with
    | 0 =>
      if !s.flag F.CLK_STATUS_IRO_RUN || s.flag F.CLK_STATUS_IRO_GOOD || !judged counts 2500 30 then s
      else if s.get F.CLK_STATUS_STATE = 1 then s.coastEnd.holdOnIro
      else s.put F.CLK_STATUS_IRO_GOOD 1
    | 1 => if s.refJudged counts && (s.flag F.CLK_STATUS_IRO_GOOD || decide (s.pwr.held ≠ 0)) then s.lrefBack boot else s
    | 2 => if s.refJudged counts && s.coreOn && !s.flag F.CLK_STATUS_HREF_GOOD && decide (s.get F.CLK_STATUS_STATE = 0) then s.hrefBack else s
    | _ => s)

/-- IRO_JUDGE_DEADLINE (R350, R352): 400 µs after the trip the device resets with cause CLOCK_LOSS. At a start IRO_FAILED is marked
within the cold start itself. -/
def execIroJudgeDeadline (s : State) : Host.Outcome State Fault Refusal :=
  .next (
    if s.coreOn && decide (s.get F.CLK_STATUS_STATE = 1) && !s.flag F.CLK_STATUS_IRO_GOOD then
      (s.timeTo (s.clk.tripAt + 400000)).clockLoss
    else s)

/-- HREFCLK_TRIP (R354); during clock hold it applies once the hold ends. -/
def execHrefclkTrip (s : State) : Host.Outcome State Fault Refusal :=
  .next (
    if !s.coreOn || !s.flag F.CLK_STATUS_HREF_GOOD then s
    else if s.get F.CLK_STATUS_STATE = 0 then s.loseHref
    else s.withClk { s.clk with hrefDue := true })

/-- XO32_ACCEPTED (R350): eight periods of 64 XO32 cycles, each of 1,953 AO-RC cycles ±3 %. -/
def execXo32Accepted (counts : List (BitVec 16)) (s : State) : Host.Outcome State Fault Refusal :=
  .next (if judged counts 1953 30 then s.put F.CLK_STATUS_XO32_OK 1 else s)

/-- XO32_DROPPED (R350): a period outside that tolerance. -/
def execXo32Dropped (count : BitVec 16) (s : State) : Host.Outcome State Fault Refusal :=
  .next (if judged (List.replicate 8 count) 1953 30 then s else s.put F.CLK_STATUS_XO32_OK 0)

/-! ## The debugger (R393) -/

/-- DEBUGGER_ATTACH (R393): through the unlocked debug instructions; an entry under way is refused with code DEBUG. -/
def execDebuggerAttach (s : State) : Host.Outcome State Fault Refusal :=
  .next (
    if !(s.unlocked && s.coreOn) then s else
    let s := (s.withHerder { s.herder with attached := true }).showDebug
    if s.pwr.entry ≠ 0 then s.refuseEntry 1 else s)

/-- The herder goes on after a halt, and what waited for it starts. -/
def State.unhalt (s : State) : State := if !s.herder.halted then s else s.haltEnds.startOwed

/-- DEBUGGER_DETACH (R393). -/
def execDebuggerDetach (s : State) : Host.Outcome State Fault Refusal :=
  .next (
    if !s.herder.attached then s else
    let s := s.unhalt
    (s.withHerder { s.herder with attached := false }).showDebug)

/-- DEBUG_HALT (R393). -/
def execDebugHalt (s : State) : Host.Outcome State Fault Refusal :=
  .next (
    if !s.herder.attached || s.herder.halted || !s.clocked then s
    else (((s.abandonRuns).withHerder { s.herder with halted := true }).withApply { s.apply with haltAt := s.time }).showDebug)

/-- DEBUG_RESUME (R393). -/
def execDebugResume (s : State) : Host.Outcome State Fault Refusal := .next (if s.herder.halted then s.unhalt.showDebug else s)

/-! ## Boundary scan (R391) -/

/-- BOUNDARY_SCAN_ENTER (R391), which the TAP serves outside Pen and Winter: the bypass outputs follow the boundary register. -/
def execBoundaryScanEnter (byp : Byte) (s : State) : Host.Outcome State Fault Refusal :=
  .next (
    if 2 ≤ s.pwr.mode then s
    else if s.clk.scan then s.withPins { s.pins with byp := byp.toNat } else
    let s := if s.coreOn then
        let t := s.meetHold
        ((t.withClk { t.clk with scan := true }).clockDown.pauseRings.put F.CEN_STATUS_RUNNING 0).enterSelfRefresh
      else s.withClk { s.clk with scan := true }
    s.withPins { s.pins with byp := byp.toNat })

/-- BOUNDARY_SCAN_EXIT (R391): the device returns as R353 sets out. -/
def execBoundaryScanExit (s : State) : Host.Outcome State Fault Refusal :=
  .next (
    if !s.clk.scan then s else
    let s := (s.withClk { s.clk with scan := false }).releaseBypass
    if s.coreOn && s.get F.CLK_STATUS_STATE = 0 then s.clockReturn else s)

end Sys2Proof.Machine
end

