-- ==== Sys2Proof/Machine/EvidRows.lean ====
section
/-!
DEFINITION. The commands and events of the evidence rings, and the census latch (chapter 16).
-/
namespace Sys2Proof.Machine

/-! ## Triggers (R401, R402) -/

/-- EVID_TRIGGER: the rings in bits 3:0 of word 0 that have CMD_EN set. -/
def execEvidTrigger (slot : BitVec 6) (s : State) : Host.Outcome State Fault Refusal :=
  let k := slot.toNat
  .next (
    if !s.taken k 0x40 || !s.herderRuns || !s.stackOpen then s else
    let rings := (maskList (s.param k 0 % 16) 4).filter fun r => s.flag (F.EVID_TRIG_CFG_CMD_EN r)
    (s.each rings fun t r => t.trigger r 1).complete k stOk 0 [])

/-- EVT_TRIG_PIN: the pin was low for `low` µs and then high for `high` µs. A high under 10 µs is no trigger, and one that follows
another is taken only after 10 µs of low. -/
def execEvtTrigPin (low high : BitVec 16) (s : State) : Host.Outcome State Fault Refusal :=
  .next (
    if !s.clocked then s else
    let ready := s.evid.pinReady || decide (10 ≤ low.toNat)
    let taken := ready && decide (10 ≤ high.toNat)
    let s := s.withEvid { s.evid with pinReady := ready && !taken }
    if taken then s.each ((List.range 4).filter fun r => s.flag (F.EVID_TRIG_CFG_PIN_EN r)) fun t r => t.trigger r 2 else s)

/-- The train has moved POST_M since the trigger (R402). -/
def State.postMoved (s : State) (k : Nat) : Bool :=
  match Tbl.get s.evid.postPos none k with
  | some p => decide (1000 * s.get (F.EVID_RING_CFG3_POST_M (s.get (F.EVID_SEG_RING k))) ≤ (s.posMm - p).natAbs)
  | none => false

/-- SEGMENT_FREEZE (R402): POST_S or POST_M after the trigger. The step moves DEV_TIME to the end of POST_S where the train has
not moved POST_M. -/
def execSegmentFreeze (seg : BitVec 3) (s : State) : Host.Outcome State Fault Refusal :=
  let k := seg.toNat
  .next (
    if s.get (F.EVID_SEG_STATE k) ≠ 1 || !s.recording (s.get (F.EVID_SEG_RING k)) then s
    else if s.postMoved k then s.freezeSeg k false false
    else (s.timeTo (Tbl.get s.evid.postTime 0 k)).freezeSeg k false false)

/-! ## Export (R405) -/

/-- What an export has found so far: the bytes for the digest, newest piece first, records read, records whose HCRC failed,
and whether a read ended the command. -/
structure Export where
  parts   : List Bytes := []
  records : Nat := 0
  bad     : Nat := 0
  stop    : Bool := false
  deriving DecidableEq, Repr

/-- Read bytes of a chunk for an export: POISON marks SCRUB_UE and UNWRITTEN marks LOST; FENCED and UE end the command. -/
def State.exportGet (s : State) (k c off len : Nat) : State × Bytes × Bool :=
  let (t, outs, bs) := s.stackGet 0x23 k (1048576 * c + off) len
  let t := if outs.contains outPoison then t.markChunk 1 c else t
  let t := if outs.contains outUnwritten then t.markChunk 3 c else t
  (t, bs, outs.contains outFenced || outs.contains outUe)

/-- Read the records of chunk `c` from byte `off` on, to the record `last` where one is named. A record is its header and the LEN
bytes after it, padded (R400), also where its HCRC fails (DEDUCED); a PAD record fills its chunk. -/
def State.exportChunk (s : State) (k c : Nat) (last : Option Nat) : Nat → Nat → Export → State × Export
  | 0, _, x => (s, x)
  | fuel + 1, off, x =>
    if 1048576 < off + 32 then (s, x) else
    let (s, h, stop) := s.exportGet k c off 32
    if stop then (s, { x with stop := true }) else
    let good := decide (uLe h 30 2 = crc16 (h.take 30))
    let rest := 1048576 - off - 32
    let len := if good && decide (u8 h 0 = 0) then rest else min rest ((uLe h 2 2 + 7) / 8 * 8)
    let (s, b, stop) := s.exportGet k c (off + 32) len
    let x := { parts := b :: h :: x.parts, records := x.records + 1, bad := x.bad + b2n (!good), stop := stop }
    if stop || last = some (uLe h 4 4) then (s, x) else s.exportChunk k c last fuel (off + 32 + len) x

/-- The chunks of a segment in ring order, as the two ranges of the completion: the second only where the segment wraps. -/
def State.segRanges (s : State) (k : Nat) : (Nat × Nat) × Option (Nat × Nat) :=
  let (b, n) := s.ringRange (s.get (F.EVID_SEG_RING k))
  let first := s.get (F.EVID_SEG_FIRST_MIB k)
  let last := s.get (F.EVID_SEG_W1_LAST_MIB k)
  if first ≤ last then ((first, last - first + 1), none) else ((first, b + n - first), some (b, last - b + 1))

/-- Free a segment's slot; its chunks return to the ring, which goes on where it had no unfrozen chunk (R405). -/
def State.releaseSeg (s : State) (k : Nat) : State :=
  let r := s.get (F.EVID_SEG_RING k)
  let s := s.put (F.EVID_SEG_STATE k) 0
  if s.get (F.EVID_RING_STATE_STATE r) = 3 then (s.put (F.EVID_RING_STATE_STATE r) 1).nextChunk r else s

/-- Export a FROZEN segment: the state with the digest, or none where a read ended it; and the result words 2 to 7. -/
def State.exportSeg (s : State) (k : Nat) : State × Option (List Nat) :=
  match s.evPart with
  | none => (s, none)
  | some p =>
    let ((a, n), second) := s.segRanges k
    let last := s.get (F.EVID_SEG_W1_LAST_MIB k)
    let chunks := (List.range n).map (a + ·) ++ match second with
      | some (b, m) => (List.range m).map (b + ·)
      | none => []
    let (s, x) := chunks.foldl (fun (r : State × Export) c =>
      if r.2.stop then r
      else r.1.exportChunk p c (if c = last then some (s.get (F.EVID_SEG_LAST_SEQ_LAST_SEQ k)) else none) 32768 0 r.2) (s, {})
    if x.stop then (s, none) else
    let s := (s.putBytes (A.EVID_DIGEST 0) 8 (sha256 (x.parts.reverse.flatten))).put (F.EVID_SEG_EXPORTED k) 1
    let (c, m) := second.getD (0xFFFFFFFF, 0)
    (s, some [a, n, c, m, x.records, s.get (F.EVID_SEG_MARKS k) + 65536 * min x.bad 65535])

/-- EVID_EXPORT with OP 0 or 2; a reserved OP is refused. DESIGN CHOICE: a LOST segment is refused as a free one is. -/
def execEvidExport (slot : BitVec 6) (s : State) : Host.Outcome State Fault Refusal :=
  let k := slot.toNat
  let g := s.param k 0 % 8
  let op := bits (s.param k 0) 8 2
  .next (
    if !s.taken k 0x41 || op = 1 || !s.herderRuns || !s.stackOpen then s
    else if op = 3 then s.complete k stInvalid 0 []
    else if s.get (F.EVID_SEG_STATE g) = 1 then s.complete k stBusy 0 []
    else if s.get (F.EVID_SEG_STATE g) ≠ 2 then s.complete k stInvalid 0 []
    else match s.exportSeg g with
      | (t, none) => t.complete k stAborted 0 []
      | (t, some words) => (if op = 2 then t.releaseSeg g else t).complete k stOk 0 (0 :: words))

/-- EVID_RELEASE: OP 1. DESIGN CHOICE: the release of a slot that is free has nothing to do. -/
def execEvidRelease (slot : BitVec 6) (s : State) : Host.Outcome State Fault Refusal :=
  let k := slot.toNat
  let g := s.param k 0 % 8
  .next (
    if !s.taken k 0x41 || bits (s.param k 0) 8 2 ≠ 1 || !s.herderRuns || !s.clocked then s
    else if s.get (F.EVID_SEG_STATE g) = 1 then s.complete k stBusy 0 []
    else if s.get (F.EVID_SEG_STATE g) = 0 then s.complete k stOk 0 []
    else (s.releaseSeg g).complete k stOk 0 [])

/-! ## The census (R406 to R408) -/

/-- The period in force, in µs. -/
def State.cenPeriod (s : State) : Nat := max 100 (min 1000000 (s.get F.CEN_CFG_PERIOD_US))

/-- Events that only the passing of time shows, taken into their counters: idle blocks and RS-FEC codewords of the lanes, active
cycles of the herder, and tCK with a queue not empty. No rule states these numbers (FREE VALUES; see log entry 4). -/
def State.cenMeasured (s : State) : State :=
  let c := s.freeCtr
  let s := s.each (List.range 16) fun t m => t.each (List.range 4) fun u j => u.cenLane m (5 + j) (Config.freeMeasure (c + 4 * m + j))
  let s := s.each (List.range 32) fun t i => t.cenPc i 0x0C (Config.freeMeasure (c + 64 + i))
  (s.cenHerd 0x09 (Config.freeMeasure (c + 96))).drawn 97

/-- Microseconds of DEV_TIME since they were last taken in. -/
def State.cenMicros (s : State) : State :=
  let us := s.time / 1000
  let s := s.cenFab 0x0D (us - s.cen.usAt)
  s.withCen { s.cen with usAt := us }

/-- The dump of Table 16-4. Samples stand in the order in which they were taken (DESIGN CHOICE). -/
def State.cenDump (s : State) : Bytes :=
  let flags := b2n (s.flag F.POS_STATE_FIX_VALID) + 2 * b2n s.cen.gap + 4 * b2n s.cen.first + 8 * b2n s.cen.config
  let head := [0x43, 0x4E, 0x53, 0x53] ++ leBytes 1 2 ++ leBytes 312 2 ++ leBytes s.cen.seq 8 ++ leBytes s.time 8 ++
    leBytes (unsigned 40 s.posMm) 5 ++ [BitVec.ofNat 8 flags] ++ leBytes 0 2 ++ leBytes s.cenPeriod 4 ++
    ((List.range 16).map fun c => BitVec.ofNat 8
      (min 64 (Tbl.get s.cen.samples [] c).length + 128 * b2n (Tbl.get s.cen.overrun false c))) ++ leBytes 0 8
  let tail := ((List.range 312).flatMap fun k => leBytes (Tbl.get s.cen.ctr 0 k) 6) ++ List.replicate 112 0 ++
    (List.range 16).flatMap fun c =>
      let l := (Tbl.get s.cen.samples [] c).reverse
      (List.range 64).flatMap fun i => leBytes (l.getD i 0) 6
  head ++ leBytes (crc32 (head ++ tail)) 4 ++ tail

/-- A dump is not written: counted, GAP in the next one, and CEN_SKIP at most once per second. -/
def State.skipDump (s : State) : State :=
  let s := (s.count F.CEN_SKIPPED_COUNT 1).cenFab 0x0A 1
  let s := s.withCen { s.cen with gap := true }
  if s.cen.lastSkip.all fun t => decide (t + 1000000000 ≤ s.time) then
    (s.withCen { s.cen with lastSkip := some s.time }).raise Ev.cenSkip
  else s

/-- CENSUS_LATCH (R407): DEV_TIME crosses the next multiple of PERIOD_US. `busy`: the previous dump is still being written. -/
def execCensusLatch (busy : Bool) (s : State) : Host.Outcome State Fault Refusal :=
  .next (match s.partOf 3 with
    | none => s
    | some k =>
      if !s.flag F.CEN_CFG_ENABLE || !s.clocked then s else
      let p := 1000 * s.cenPeriod
      let s := (s.timeTo ((s.time / p + 1) * p)).cenMeasured.cenMicros
      let s := s.withCen { s.cen with seq := (s.cen.seq + 1) % 2 ^ 64 }
      let at_ := 8192 * (s.cen.seq % (s.partBytes k / 8192))
      let fenced := (unitsOf at_ 8192).any fun e => s.fenced (s.locate k e.1).pc
      if busy || !s.stackOpen || !s.flag F.CEN_STATUS_RUNNING || fenced || s.apply.stage = 5 || s.apply.stage = 6 then s.skipDump
      else
        let s := ((s.stackPut 0x21 k at_ s.cenDump).1).putWide A.CEN_SEQ s.cen.seq
        s.withCen { s.cen with samples := [], overrun := [], gap := false, first := false, config := false })

end Sys2Proof.Machine
end

