-- ==== Sys2Proof/Machine/Keys.lean ====
section
/-!
DEFINITION. Keys, the identity signer, the life cycle and the firmware slots (R380, R387 to R390).
-/
namespace Sys2Proof.Machine

/-! ## Key slots (R380) -/

/-- The index of a key slot: operator slots first. -/
def keyIdx (cls slot : Nat) : Nat := 8 * cls + slot

/-- Any installer key is enrolled. -/
def State.installers (s : State) : Nat := ((List.range 8).filter fun i => Tbl.get s.nv.keys [] (8 + i) ≠ []).length

/-- The right to enrol or revoke a key of a class (Table 15-1). -/
def State.mayKey (s : State) (cls : Nat) : Bool :=
  if cls = 0 then s.may 2
  else s.may 3 || (decide (s.lc = 1) && (s.may 2 || decide (s.installers = 0)))

/-- The open session was opened with this key. -/
def State.sessionKey (s : State) (cls slot : Nat) : Bool :=
  decide (s.role = cls + 1) && decide (s.get F.SEC_SESSION_SLOT = slot)

/-- Replace a key slot; a session opened with the key that was there ends. -/
def State.setKey (s : State) (cls slot : Nat) (key : Bytes) : State :=
  ((s.withNv { s.nv with keys := Tbl.set s.nv.keys [] (keyIdx cls slot) key }).showKeys)

/-- The status code of Table 11-7 that matches SEC_KEY_CTRL.RESULT. -/
def keyStatus : Nat → Nat
  | 0 => stOk
  | 1 => stDenied
  | 2 => stInvalid
  | 3 => stAborted
  | _ => stNv

/-- The RESULT that an enrolment meets. -/
def State.enrolResult (s : State) (cls : Nat) (nvFail : Bool) : Nat :=
  if !s.mayKey cls then 1
  else if !onCurve (s.wordBytes (A.SEC_KEY_STAGE 0) 16) then 2
  else if nvFail then 4 else 0

/-- The RESULT that a revocation meets. -/
def State.revokeResult (s : State) (cls slot : Nat) (nvFail : Bool) : Nat :=
  if !s.mayKey cls then 1
  else if cls = 1 && s.lc = 2 && s.installers = 1 && Tbl.get s.nv.keys [] (8 + slot) ≠ [] then 3
  else if nvFail then 4 else 0

/-- An ENROL or REVOKE: RESULT, the new key where it is done, the log, SEC_DENIED, and the end of a session opened with the
key. -/
def State.changeKey (s : State) (kind cls slot res : Nat) (key : Bytes) : State :=
  let s := (s.put F.SEC_KEY_CTRL_RESULT res).audit kind (keyStatus res) (256 * cls + slot)
  let s := if res = 0 then s.setKey cls slot key else s
  let s := if res = 1 then s.raise Ev.secDenied else s
  if res = 0 && s.sessionKey cls slot then s.endSession 6 else s

/-- A write to SEC_KEY_CTRL: OP, CLASS and SLOT are stored, and GO does the operation, which is over when the step ends. -/
def State.keyCtrl (s : State) (val : Word) (nvFail : Bool) : State :=
  let op := getBits val 28 2
  let cls := getBits val 27 1
  let slot := getBits val 24 3
  let s := ((s.put F.SEC_KEY_CTRL_OP op).put F.SEC_KEY_CTRL_CLASS cls).put F.SEC_KEY_CTRL_SLOT slot
  if !val.getLsbD 31 then s
  else if op = 1 then s.changeKey 0x04 cls slot (s.enrolResult cls nvFail) (s.wordBytes (A.SEC_KEY_STAGE 0) 16)
  else if op = 2 then s.changeKey 0x05 cls slot (s.revokeResult cls slot nvFail) []
  else (s.putBytes (A.SEC_KEY_STAGE 0) 16 (Tbl.get s.nv.keys [] (keyIdx cls slot))).put F.SEC_KEY_CTRL_RESULT 0

/-- The host's write of SEC_KEY_CTRL with one of the OPs; in END it is discarded (R395). -/
def State.keyRow (s : State) (ops : List Nat) (val : Word) (nvFail : Bool) : State :=
  s.bar fun t => if t.lc ≠ 4 && val.getLsbD 31 && ops.contains (getBits val 28 2) then t.keyCtrl val nvFail else t

/-- KEY_READ: a write with GO and OP READ, or the reserved OP that acts as READ. -/
def execKeyRead (val : Word) (s : State) : Host.Outcome State Fault Refusal :=
  .next (s.keyRow [0, 3] val false)

/-- KEY_ENROL: a write with GO and OP ENROL. -/
def execKeyEnrol (val : Word) (nvFail : Bool) (s : State) : Host.Outcome State Fault Refusal :=
  .next (s.keyRow [1] val nvFail)

/-- KEY_REVOKE: a write with GO and OP REVOKE. -/
def execKeyRevoke (val : Word) (nvFail : Bool) (s : State) : Host.Outcome State Fault Refusal :=
  .next (s.keyRow [2] val nvFail)

/-! ## Identity (R390) -/

/-- The 44 bytes that the identity signer signs. -/
def State.challengeMessage (s : State) : Bytes :=
  s.wordBytes (A.SEC_ID_NONCE 0) 8 ++ s.wordBytes A.SEC_ID_SERIAL 2 ++ leBytes s.partCode 2 ++
    [BitVec.ofNat 8 (bits (s.word A.DEV_PARTID).toNat 8 8), BitVec.ofNat 8 s.lc]

/-- A write to SEC_ID_CTRL: GO signs the nonce. The signature is made when the step ends. -/
def State.idCtrl (s : State) (val : Word) : State :=
  if !val.getLsbD 31 then s else
  let k := leVal (s.freeBytes 8)
  let sig := ecdsaSign s.nv.idPriv (k % (curveN - 1) + 1) s.challengeMessage
  (((s.drawn 8).putBytes (A.SEC_ID_SIG 0) 16 sig).put F.SEC_ID_CTRL_DONE 1)

/-- IDENTITY_CHALLENGE: it needs no session, and serves in every life cycle state, in Run and Drowse. -/
def execIdentityChallenge (val : Word) (s : State) : Host.Outcome State Fault Refusal :=
  .next (s.bar fun t => t.idCtrl val)

/-! ## Life cycle (R387, Table 15-6) -/

/-- The role that a transition needs, where Table 15-6 has it. -/
def lcNeed : Nat → Nat → Option Nat
  | 0, 1 => some 0
  | 0, 4 => some 0
  | 1, 2 => some 2
  | 1, 3 => some 3
  | 2, 3 => some 3
  | 3, 1 => some 3
  | 3, 4 => some 3
  | _, _ => none

/-- The precondition of a transition: from MFG the identity key, the certificate and a committed firmware slot; to FIELD an
installer key and a committed fold that passes R33. -/
def State.lcReady (s : State) (target : Nat) : Bool :=
  if s.lc = 0 then s.nv.idPriv ≠ 0 && s.word (A.SEC_ID_CERT 0) = 0x54524344 && s.nv.fwCommitted
  else if target = 2 then
    decide (s.installers ≠ 0) && s.commitOk && decide (s.slotErr (Tbl.get s.nv.foldSlots [] (s.commitWord % 2)) = none)
  else true

/-- The status that an ADVANCE meets. `nvFail`: the write of the life cycle word with PENDING set, or (true) of the word with
PENDING clear, fails its read-back. -/
def State.lcStatus (s : State) (k target : Nat) : Nat :=
  if BitVec.ofNat 32 (s.param k 4) ≠ s.word A.SEC_ID_SERIAL then stInvalid
  else match lcNeed s.lc target with
    | none => stInvalid
    | some need => if !s.mayAs (s.slot k).role need then stDenied else if !s.lcReady target then stAborted else stOk

/-- The state of a device that has passed to a life cycle state: the session ends and the erasures are made. -/
def State.toLc (s : State) (target : Nat) (pending : Bool) : State :=
  let from_ := s.lc
  let s := (s.endSession 7).put F.SEC_STATE_LC target
  let s := if from_ = 0 && target = 1 then s else s.erase target
  (s.put F.SEC_STATE_PENDING (b2n pending)).showDebug

/-- LC_ADVANCE with OP ADVANCE, and with a reserved OP. DESIGN CHOICE: where the second write of the word fails, PENDING stays set,
the command ends with NV_ERROR and no reset follows. -/
def execLcAdvance (slot : BitVec 6) (nvFail : Option Bool) (s : State) : Host.Outcome State Fault Refusal :=
  let k := slot.toNat
  let op := s.param k 0 % 16
  let target := bits (s.param k 0) 4 3
  let obj := 16 * s.lc + target
  .next (
    if !s.taken k 0x62 || op = 1 || op = 2 || !s.herderRuns || !s.clocked then s
    else if op ≠ 0 then s.complete k stInvalid 0 []
    else
      let st := s.lcStatus k target
      let s := if st = stDenied then s.raise Ev.secDenied else s
      if st ≠ stOk then s.completeLogged k 0x08 obj st 0 []
      else match nvFail with
        | some false => s.completeLogged k 0x08 obj stNv 0 []
        | some true => (s.toLc target true).completeLogged k 0x08 obj stNv 0 []
        | none =>
          let s := s.toLc target false
          (s.withSec { s.sec with lcReset := true }).completeLogged k 0x08 obj stOk 0 [])

/-! ## Firmware slots (R389) -/

/-- The firmware slot that is not committed. DEDUCED: slot A while the commit word is invalid. -/
def State.fwStageSlot (s : State) : Nat := if s.nv.fwCommitted then 1 - s.get F.DEV_FW_STATUS_COMMITTED_SLOT else 0

/-- SLOT_A_VALID or SLOT_B_VALID. -/
def fwValidFld (u : Nat) : Fld := if u = 0 then F.DEV_FW_STATUS_SLOT_A_VALID else F.DEV_FW_STATUS_SLOT_B_VALID

/-- Bytes written over a slot's contents at an offset. -/
def overlay (old : Bytes) (off : Nat) (new : Bytes) : Bytes :=
  (old ++ List.replicate (off - old.length) 0).take off ++ new ++ old.drop (off + new.length)

/-- FW_STAGE. DESIGN CHOICE: where the write fails its read-back, the slot keeps its bytes and is invalid. -/
def execFwStage (slot : BitVec 6) (nvFail : Bool) (s : State) : Host.Outcome State Fault Refusal :=
  let k := slot.toNat
  let off := s.param k 1
  let len := s.param k 2
  let u := s.fwStageSlot
  .next (
    if !s.taken k 0x62 || s.param k 0 % 16 ≠ 1 || !s.herderRuns || !s.clocked then s
    else if !s.mayAs (s.slot k).role 3 then (s.raise Ev.secDenied).completeLogged k 0x09 u stDenied 0 []
    else if off % 262144 ≠ 0 || 262144 < len || len % 8 ≠ 0 || 1048576 < off + len then s.completeLogged k 0x09 u stInvalid 0 []
    else
      let s := (s.withNv { s.nv with fwVer := Tbl.set s.nv.fwVer none u none }).put (fwValidFld u) 0
      if nvFail then s.completeLogged k 0x09 u stNv 0 [] else
      let b := overlay (Tbl.get s.nv.fwSlots [] u) off ((s.wordBytes (A.DEV_FOLD_STAGE 0) ((len + 3) / 4)).take len)
      let s := s.withNv { s.nv with fwSlots := Tbl.set s.nv.fwSlots [] u b }
      if !(BitVec.ofNat 32 (s.param k 3)).getLsbD 0 then s.completeLogged k 0x09 u stOk 0 []
      else match Config.firmware b with
        | some v =>
          if v.toNat < s.get F.DEV_FW_FLOOR_FLOOR then s.completeLogged k 0x09 u stInvalid 0 []
          else
            let s := (s.withNv { s.nv with fwVer := Tbl.set s.nv.fwVer none u (some v.toNat) }).put (fwValidFld u) 1
            s.completeLogged k 0x09 u stOk 0 []
        | none => s.completeLogged k 0x09 u stInvalid 0 [])

/-- FW_COMMIT. -/
def execFwCommit (slot : BitVec 6) (nvFail : Bool) (s : State) : Host.Outcome State Fault Refusal :=
  let k := slot.toNat
  let u := bits (s.param k 0) 9 1
  .next (
    if !s.taken k 0x62 || s.param k 0 % 16 ≠ 2 || !s.herderRuns || !s.clocked then s
    else if !s.mayAs (s.slot k).role 3 then (s.raise Ev.secDenied).completeLogged k 0x0A u stDenied 0 []
    else if !s.fwPasses u then s.completeLogged k 0x0A u stInvalid 0 []
    else if nvFail then s.completeLogged k 0x0A u stNv 0 []
    else
      let s := (s.withNv { s.nv with fwCommitted := true }).put F.DEV_FW_STATUS_COMMITTED_SLOT u
      let s := if (BitVec.ofNat 32 (s.param k 0)).getLsbD 8 then s.put F.DEV_FW_FLOOR_FLOOR ((Tbl.get s.nv.fwVer none u).getD 0) else s
      s.completeLogged k 0x0A u stOk 0 [])

end Sys2Proof.Machine
end

