-- ==== Sys2Proof/Machine/SelfTest.lean ====
section
/-!
DEFINITION. The rotation and manual BIST (chapter 14).
-/
namespace Sys2Proof.Machine

/-- The rotation runs (Table 14-3): ENABLE is 1, and the device is not in END. -/
def State.rotates (s : State) : Bool := s.coreOn && s.flag F.TST_ROT_CFG_ENABLE && decide (s.lc ≠ 4)

/-- The port that a slice serves. -/
def State.portOfSlice (s : State) (x : Nat) : Option Nat := (List.range s.nPorts).find? fun n => (s.servedBy n).contains x

/-- FAILED counts the slices and blocks that have failed. -/
def State.showFailed (s : State) : State :=
  s.put F.TST_ROT_STATE_FAILED ((s.sliceList.filter fun x => s.sliceState x = 3).length +
    ((List.range 0x60).filter fun b => s.get (F.TST_BLOCK_STATE_STATE b) = 3).length)

/-- A slice goes under test. -/
def State.beginSliceTest (s : State) (x : Nat) : State :=
  (((s.unassign x 2).put F.TST_ROT_STATE_SLICE_BUSY 1).put F.TST_ROT_STATE_SLICE x).showSpares

/-- A slice has failed (R372, R373): it never serves again before the next power-on reset. -/
def State.failSlice (s : State) (x : Nat) : State :=
  ((((s.unassign x 3).count F.TST_FAULTS_COUNT 1).raiseTstFault).showFailed).showSpares

/-- Another slice takes over tone block and port of slice `x` (R373), or the port keeps its remaining ones and announces a
cap that drops the capacity of `x` (R75). The new state says whether another was taken. -/
def State.handOver (s : State) (x n : Nat) : State × Bool :=
  match s.takeSlice n with
  | (t, some y) => (t.putMap n ((s.servedBy n).map fun z => if z = x then y else z), true)
  | (t, none) =>
    let t := t.putMap n ((s.servedBy n).filter (· ≠ x))
    let k := (t.servedBy n).length - (if t.flag (F.PORT_ILM_STATE_LONG_SPAN n) then 2 else 0)
    let a := min 4084 (tonesPerSlice (t.get F.DRV_STATE_PL) * k)
    (if t.upIlm n && a < t.activeTones n && a ≠ 0 then t.sendCap n a else t, false)

/-- Planned swaps wait (R367): for an armed zone, a swapped profile, a pending change, a training or a warm restart. -/
def State.swapWaits (s : State) (n : Nat) : Bool :=
  s.zoneArmed n || s.swapped n || decide ((s.ln n).pend ≠ []) ||
    (List.range s.nPorts).any fun p => s.an p = 3 || s.an p = 5

/-- ROTATION_SWAP (R367): slice `slice` goes under test. A serving slice of a ROT_METHOD 0 port swaps with the lowest idle
slice; one of a ROT_METHOD 1 port in low-power idle, and an idle slice, are tested in place. -/
def execRotationSwap (slice : BitVec 7) (s : State) : Host.Outcome State Fault Refusal :=
  let x := slice.toNat
  .next (
    if !(s.rotates && s.tested = none && s.sliceList.contains x) then s
    else if s.sliceState x = 0 then s.beginSliceTest x
    else if s.sliceState x ≠ 1 then s
    else
      match s.portOfSlice x with
      | none => s
      | some n =>
        if (s.pFlags n).testBit 1 then
          if s.flag (F.PORT_LINK_STATUS_LPI n) then
            ((s.put (F.TST_SLICE_STATE_STATE x) 2).put F.TST_ROT_STATE_SLICE_BUSY 1).put F.TST_ROT_STATE_SLICE x
          else s
        else if s.swapWaits n then s
        else
          match s.sliceList.find? fun y => s.sliceState y = 0 with
          | none => s
          | some y => ((s.assign y n).putMap n ((s.servedBy n).map fun z => if z = x then y else z)).beginSliceTest x)

/-- SLICE_TEST_END (R367, R372): the slice under test is re-initialised and left idle, or serves on where it was tested in
place; where its signature mismatches it has failed. -/
def execSliceTestEnd (pass : Bool) (s : State) : Host.Outcome State Fault Refusal :=
  .next (
    match s.tested with
    | none => s
    | some x =>
      if !s.coreOn then s else
      let s := s.endSliceTest
      let owner := s.portOfSlice x
      if pass then
        let s := match owner with | some n => s.assign x n | none => s.unassign x 0
        let s := s.withTst { s.tst with passAt := Tbl.set s.tst.passAt 0 x (s.time + 1) }
        (s.count F.TST_PASSES_COUNT 1).showSpares
      else
        let s := match owner with | some n => (s.handOver x n).1 | none => s
        s.failSlice x)

/-- The part has a save-and-restore block. -/
def State.blockPresent (s : State) (b : Nat) : Bool :=
  if b < 0x20 then decide (b / 2 < s.nPorts) else if b < 0x40 then decide (b - 0x20 < s.nPorts)
  else decide (b < 0x60) && decide (b - 0x40 < s.nPcs)

/-- A block's test fails (R372). -/
def State.failBlock (s : State) (b : Nat) : State :=
  let again := s.tst.failing.contains b
  let s := (s.put (F.TST_BLOCK_STATE_STATE b) (if again then 3 else 2)).withTst { s.tst with
    failing := if again then s.tst.failing else b :: s.tst.failing }
  ((s.count F.TST_FAULTS_COUNT 1).raiseTstFault).showFailed

/-- A block's test ends (R372): a second failing test in succession marks it failed, and it stays in service. -/
def State.endBlockTest (s : State) (b : Nat) (pass : Bool) : State :=
  let s := ((s.put F.TST_ROT_STATE_SR_BUSY 0).put F.TST_ROT_STATE_BLOCK 0x7F).withTst { s.tst with segs := 0 }
  if pass then
    let s := s.withTst { s.tst with
      failing := s.tst.failing.filter (· ≠ b), passAt := Tbl.set s.tst.passAt 0 (128 + b) (s.time + 1) }
    (s.put (F.TST_BLOCK_STATE_STATE b) 0).count F.TST_PASSES_COUNT 1
  else s.failBlock b

/-- SEG_GAP in force, in ns. -/
def State.segGap (s : State) : Nat := 1000 * max 20 (s.get F.TST_ROT_CFG_SEG_GAP)

/-- SR_SEGMENT (R368, R371): one segment of the block under test, or the first of block `block` where none is. `served` says that
a request for its service ended the segment, `crc` that the restored state's CRC holds, `pass` whether the signature matches
where this segment is the last of 1,024. -/
def execSrSegment (block : BitVec 7) (served crc pass : Bool) (s : State) : Host.Outcome State Fault Refusal :=
  let busy := s.flag F.TST_ROT_STATE_SR_BUSY
  let b := if busy then s.get F.TST_ROT_STATE_BLOCK else block.toNat
  .next (
    if !(s.rotates && s.blockPresent b) || s.get (F.TST_BLOCK_STATE_STATE b) = 3 then s else
    let s := if busy then s.timeTo (s.tst.segAt + s.segGap) else s
    let s := ((s.put F.TST_ROT_STATE_SR_BUSY 1).put F.TST_ROT_STATE_BLOCK b).put (F.TST_BLOCK_STATE_STATE b) 1
    let s := s.withTst { s.tst with segAt := s.time, segs := if served then s.tst.segs else s.tst.segs + 1 }
    let s := if crc then s else s.count F.TST_FAULTS_COUNT 1
    if s.tst.segs < 1024 then s else s.endBlockTest b pass)

/-- SLICE_CHECKER_FIRED (R373): the slice is marked failed and its tone block handed over. -/
def execSliceCheckerFired (slice : BitVec 7) (s : State) : Host.Outcome State Fault Refusal :=
  let x := slice.toNat
  .next (
    match s.portOfSlice x with
    | none => s
    | some n =>
      if !(s.coreOn && s.sliceState x = 1) then s else
      let (s, taken) := s.handOver x n
      let s := if taken then s.count F.TST_HANDOVERS_COUNT 1 else s
      s.failSlice x)

/-- SLICE_PERIOD in force, in ns. -/
def State.slicePeriod (s : State) : Nat := 1000000000 * max 1 (s.get F.TST_ROT_CFG_SLICE_PERIOD)

/-- ROTATION_OVERDUE (R369): a slice has been untested for twice SLICE_PERIOD, at most once per period. -/
def execRotationOverdue (slice : BitVec 7) (s : State) : Host.Outcome State Fault Refusal :=
  let x := slice.toNat
  .next (
    if !(s.rotates && s.sliceList.contains x && decide (s.sliceState x < 3)) then s else
    let last := Tbl.get s.tst.passAt 0 x
    let at_ := (if last = 0 then s.tst.since else last - 1) + 2 * s.slicePeriod
    let again := match Tbl.get s.tst.overdue 0 x with | 0 => 0 | t => t - 1 + s.slicePeriod
    let s := s.timeTo (max at_ again)
    (s.withTst { s.tst with overdue := Tbl.set s.tst.overdue 0 x (s.time + 1) }).count F.TST_OVERDUE_COUNT 1 |>.raiseTstOverdue)

/-- A flock whose ports are all disabled. -/
def State.flockDisabled (s : State) (k : Nat) : Bool := (List.range 4).all fun j => !s.flag (F.PORT_MODE_ENABLE (4 * k + j))

/-- The part has a block of TST_MAN_CTRL, and it is out of service (R375). -/
def State.manualFree (s : State) (cls i : Nat) : Bool :=
  match cls with
  | 0 => s.sliceList.contains i && decide (s.sliceState i = 0)
  | 1 => s.blockPresent i &&
      if i < 0x20 then !s.flag (F.PORT_MODE_ENABLE (i / 2))
      else if i < 0x40 then !s.flag (F.PORT_MODE_ENABLE (i - 0x20))
      else decide (s.chRole ((i - 0x40) / 2) = 2)
  | 2 => decide (i < s.nFlocks) && s.flockDisabled i
  | _ => decide (i < s.nPorts) && (decide (s.get (F.HL_CFG_RATE i) = 0) || !s.flag (F.PORT_MODE_ENABLE (s.get (F.HL_CFG_PORT i))))

/-- A GO in TST_MAN_CTRL (R375): the run ends with the signature `sig`, which passes or not. -/
def State.manualBist (s : State) (sig : Word) (pass : Bool) : State :=
  let cls := s.get F.TST_MAN_CTRL_CLASS
  let i := s.get F.TST_MAN_CTRL_INDEX
  let s := s.put F.TST_MAN_CTRL_GO 0
  if !s.manualFree cls i then s.put F.TST_MAN_CTRL_RESULT 3 else
  let s := (s.put F.TST_MAN_CTRL_RESULT (if pass then 1 else 2)).putWord A.TST_MAN_SIG sig
  if pass then s
  else if cls = 0 then s.failSlice i
  else if cls = 1 then s.failBlock i
  else s

end Sys2Proof.Machine
end

