-- ==== Sys2Proof/Machine/Bar0.lean ====
section
/-!
DEFINITION. The host's access to the BAR0 registers (R7 to R10, R305, R395, R412 to R419): reads, writes by access type, and
the registers whose write or read does more.
-/
namespace Sys2Proof.Machine

/-! ## Which offsets answer -/

/-- The place of an offset in an array of words with a base, a stride and a length. -/
def strideIdx (base stride n off : Nat) : Option Nat :=
  if base ≤ off && (off - base) % stride = 0 && (off - base) / stride < n then some ((off - base) / stride) else none

/-- The blocks that answer during clock hold: DEV, EVT, CMD, CLK/PWR/DRV/THM and SEC (R305). -/
def holdBlock (off : Nat) : Bool := [0, 1, 2, 11, 14].contains (off / 0x100000)

/-- Clock hold, gated or on the IRO, closes the block of an offset. -/
def State.holdCloses (s : State) (off : Nat) : Bool :=
  (decide (s.get F.CLK_STATUS_STATE = 1) || decide (s.get F.CLK_STATUS_STATE = 2)) && !holdBlock off

/-- The offset lies in the block of a port, a channel or a lane that the part does not have: it reads 0, discards writes and
raises nothing, whatever it names in the block (R2, R419). -/
def State.absentBlock (s : State) (off : Nat) : Bool :=
  match off / 0x100000 with
  | 4 => decide (s.nPorts ≤ (off - 0x400000) / 0x20000)
  | 5 => decide (s.nPorts ≤ (off - 0x400000) / 0x20000)
  | 8 => decide (s.nChans ≤ off / 0x10000 % 16)
  | 10 => decide (off < 0xA10000) && decide (s.nPorts ≤ off / 0x1000 % 16)
  | _ => false

/-- The registers that answer in END (R395). -/
def endAnswers (off : Nat) : Bool :=
  off = A.DEV_PARTID || off = A.DEV_RESET_CAUSE || off = A.DEV_TIME || off = A.DEV_TIME + 4 || off = A.SEC_STATE ||
    (A.SEC_ID_SERIAL ≤ off && off < 0xE00800) || off = A.SEC_AUDIT_HEAD || (A.SEC_AUDIT 0 0 ≤ off && off < 0xE02000)

/-- The BAR0 block of an offset, by the offset at which it begins (Table 17-7). -/
def blockStart (off : Nat) : Nat :=
  match off / 0x100000 with
  | 4 => off / 0x20000 * 0x20000
  | 5 => off / 0x20000 * 0x20000
  | 8 => off / 0x10000 * 0x10000
  | 10 => off / 0x1000 * 0x1000
  | 12 => if off < 0xC80000 then 0xC00000 else 0xC80000
  | k => k * 0x100000

/-! ## Reads -/

/-- The bits of word `w` of a per-source register that belong to sources the part has (R417). -/
def State.presentWord (s : State) (w : Nat) : Word :=
  BitVec.ofNat 32 (listMask ((List.range 32).filter fun b => s.srcPresent (32 * w + b)))

/-- A word of one bit per source. -/
def sourceWord (w : Nat) (p : Nat → Bool) : Word := BitVec.ofNat 32 (listMask ((List.range 32).filter fun b => p (32 * w + b)))

/-- AGE_S of a block that last passed at `at_` (plus 1; 0 for untested). -/
def State.ageS (s : State) (at_ : Nat) : Nat := if at_ = 0 then 0xFFFF else min 0xFFFF ((s.time - (at_ - 1)) / 1000000000)

/-- PWR_TIMER: the seconds left (R334). -/
def State.timerLeft (s : State) : Nat := s.get F.PWR_TIMER_SECONDS - (s.time - s.ao.timerAt) / 1000000000

/-- The audit log may be read (Table 15-1); in END it answers to anyone (R395). -/
def State.mayAudit (s : State) : Bool := s.lc = 4 || s.may 2 || (s.auditOp && s.may 1)

/-- Counters of a host lane whose events come block by block, and that no command carries (Table 11-12). -/
def measuredReg (off : Nat) : Bool :=
  [A.HL_BAD_BLOCK 0, A.HL_IDLE_DEL 0, A.HL_IDLE_INS 0, A.HL_FEC_CORR 0, A.HL_FEC_UNCORR 0].any fun a =>
    (strideIdx a 0x1000 16 off).isSome

/-- HL_STATUS of a lane that has block lock reads HI_BER as the clause's monitor finds it, which no command carries: a free value
(R299). -/
def State.laneWord (s : State) (m : Nat) : Word :=
  let w := s.word (A.HL_STATUS m)
  if s.flag (F.HL_STATUS_BLOCK_LOCK m) then setBits w 26 1 (Config.freeMeasure s.freeCtr % 2) else w

/-- The word with a field's bits replaced by a value worked out at the read. -/
def withFld (w : Word) (f : Fld) (v : Nat) : Word := setBits w f.lo f.len v

/-- Registers worked out when they are read; all others read as they are stored. A slice that the part does not have shows
STATE 4, absent (R1, Table 14-5). -/
def State.shown (s : State) (off : Nat) : Word :=
  let w := s.word off
  match off / 0x100000 with
  | 0 =>
    if off = A.DEV_TIME then BitVec.ofNat 32 s.time
    else if off = A.DEV_TIME + 4 then BitVec.ofNat 32 (s.time / 4294967296)
    else if off = A.MSIX_PBA 0 then BitVec.ofNat 32 s.evt.owed
    else w
  | 1 =>
    match arrayWord (A.EVT_STATUS 0) 10 off, arrayWord (A.EVT_MASK 0) 10 off, arrayWord (A.EVT_PEND 0) 10 off,
        arrayWord (A.EVT_FORCE 0) 10 off with
    | some i, _, _, _ => sourceWord i s.isPending
    | _, some i, _, _ => w &&& s.presentWord i
    | _, _, some i, _ => sourceWord i s.isActive
    | _, _, _, some i => sourceWord i s.isPending
    | _, _, _, _ =>
      if off = A.EVT_VEC_SUM then BitVec.ofNat 32 s.vecSum
      else if off = A.EVT_INTN then BitVec.ofNat 32 (b2n s.intN)
      else w
  | 4 => match strideIdx (A.PORT_CAL_STATE 0) 0x20000 16 off with
    | some n => withFld w (F.PORT_CAL_STATE_HELD_ZONE n) (b2n (s.flag (calDue n) && s.calZone n))
    | none => w
  | 5 => match strideIdx (A.PORT_CAL_STATE 0) 0x20000 16 off with
    | some n => withFld w (F.PORT_CAL_STATE_HELD_ZONE n) (b2n (s.flag (calDue n) && s.calZone n))
    | none => w
  | 10 => match strideIdx (A.HL_STATUS 0) 0x1000 16 off with
    | some m => s.laneWord m
    | none => w
  | 11 => if off = A.PWR_TIMER then BitVec.ofNat 32 s.timerLeft else w
  | 14 =>
    if off = A.SEC_SESSION then withFld w F.SEC_SESSION_REMAIN_MIN s.remainMin
    else if A.SEC_AUDIT 0 0 ≤ off && !s.mayAudit then 0
    else w
  | 15 => match strideIdx (A.TST_SLICE_STATE 0) 4 68 off, strideIdx (A.TST_BLOCK_STATE 0) 4 96 off with
    | some x, _ =>
      if s.nSlices ≤ x && x < 64 then 0x8000FFFF
      else withFld w (F.TST_SLICE_STATE_AGE_S x) (s.ageS (Tbl.get s.tst.passAt 0 x))
    | _, some b => withFld w (F.TST_BLOCK_STATE_AGE_S b) (s.ageS (Tbl.get s.tst.passAt 0 (128 + b)))
    | _, _ => w
  | _ => w

/-- Clear the RC fields of a word, which keep what the device adds in the same cycle (R10). -/
def State.clearRc (s : State) (r : RegRow) (w off : Nat) (added : Word) : State :=
  let m := r.fields.foldl (fun (a : Word) f => if f.acc = .rc then a ||| f.mask w else a) 0
  if m = 0 then s else s.putWord off ((s.word off &&& ~~~m) ||| (added &&& m))

/-- The host has read the last word of a freeze record (R275). -/
def State.recordRead (s : State) (off : Nat) : State :=
  if off / 0x100000 ≠ 8 || off % 0x1000 % 0x400 ≠ 0x27C then s
  else s.put (F.MEM_INTEG_STATE_REC_READ (off / 0x10000 % 16) (off / 0x400 % 4)) 1

/-- Read a mapped word: its value, a latch of the high word beside a low one (R7), and the clearing of RC fields. A counter of
`measuredReg` has counted a free value since it was last read, beside what that read left in it (R10). -/
def State.readMapped (s : State) (r : RegRow) (w off : Nat) (added : Word) : State × Word :=
  match strideIdx (A.PISTE_ENTRY 0 0) 4 131072 off with
  | some i => s.readEntry (i / 4) (i % 4)
  | none =>
    match Tbl.get s.latch none off with
    | some v => (s.withLatch (Tbl.set s.latch none off none), v)
    | none =>
      let v := if measuredReg off then BitVec.ofNat 32 (min 0xFFFFFFFF ((s.word off).toNat + Config.freeMeasure s.freeCtr))
        else s.shown off
      let s := if measuredReg off || (strideIdx (A.HL_STATUS 0) 0x1000 16 off).isSome then s.drawn 1 else s
      let s := if r.wide && w = 0 then s.withLatch (Tbl.set s.latch none (off + 4) (some (s.shown (off + 4)))) else s
      ((s.clearRc r w off added).recordRead off, v)

/-- A host's read of the word at an offset: what it does, and the value. -/
def State.barReadWord (s : State) (off : Nat) (added : Word) : State × Word :=
  if s.lc = 4 && !endAnswers off then (s, 0)
  else if s.holdCloses off then (s, 0xFFFFFFFF)
  else if s.absentBlock off then (s, 0)
  else match regAt off with
    | none => (s.raise Ev.devBadAccess, 0)
    | some (r, w) =>
      if s.present r.kind (r.firstIndex off) then
        (if off = A.CLK_HOLD_TIME then s.countHold else s).readMapped r w off added
      else (s, 0)

/-- The aligned words that a request of `len` bytes at an offset covers. -/
def wordsCovered (off len : Nat) : Nat := (off % 4 + max 1 len + 3) / 4

/-- A host's read of BAR0: one word, or two of them in turn; a longer one has no effect (R305). -/
def State.barRead (s : State) (off len : Nat) (added : Word) : State :=
  let a := off / 4 * 4
  if wordsCovered off len = 1 then
    let (t, v) := s.barReadWord a added
    t.emit (.barRead a v)
  else if wordsCovered off len = 2 then
    let (t, v) := s.barReadWord a added
    let (u, x) := t.barReadWord (a + 4) 0
    u.emits [.barRead a v, .barRead (a + 4) x]
  else
    let t := if s.lc = 4 || s.absentBlock off then s else s.raise Ev.devBadAccess
    t.emits ((List.range (wordsCovered off len)).map fun i => .barRead (a + 4 * i) 0)

/-! ## Writes by access type (R9, R10) -/

/-- The maker's rights that hold in MFG and RMA only: TST_ROT_CFG and manual BIST (R374, Table 14-3). -/
def State.mayTst (s : State) (off : Nat) : Bool :=
  !(off = A.TST_ROT_CFG || off = A.TST_MAN_CTRL) || s.lc = 0 || s.lc = 3

/-- The session lets a write set a field. -/
def State.mayField (s : State) (off : Nat) (f : FieldRow) : Bool :=
  match f.acc with
  | .rwi => s.may 2
  | .rwm => s.may 3 && s.mayTst off
  | .ro => false
  | .rc => false
  | .rw => true
  | .wo => true
  | .w1c => true
  | .w1s => true

/-- A word after a write. -/
def State.writtenWord (s : State) (r : RegRow) (w off : Nat) (v : Word) : Word :=
  r.fields.foldl (fun (a : Word) f =>
    let m := f.mask w
    if !s.mayField off f then a
    else match f.acc with
      | .rw => (a &&& ~~~m) ||| (v &&& m)
      | .rwi => (a &&& ~~~m) ||| (v &&& m)
      | .rwm => (a &&& ~~~m) ||| (v &&& m)
      | .w1c => a &&& ~~~(v &&& m)
      | .w1s => a ||| (v &&& m)
      | .ro => a
      | .rc => a
      | .wo => a) (s.word off)

/-- A write asks for a new value of an RWI or RWM field without the session for it. -/
def State.deniedWord (s : State) (r : RegRow) (w off : Nat) (v : Word) : Bool :=
  r.fields.any fun f => (f.acc = .rwi || f.acc = .rwm) && !s.mayField off f && (v &&& f.mask w) ≠ (s.word off &&& f.mask w)

/-- A word has a field of an access type that the session may write. -/
def State.writes (s : State) (r : RegRow) (w off : Nat) (a : Access) : Bool :=
  r.fields.any fun f => f.acc = a && f.mask w ≠ 0 && s.mayField off f

/-- The first RWI and the first RWM write of a session to a block are entered in the audit log (R386). -/
def State.noteFirst (s : State) (r : RegRow) (w off : Nat) : State :=
  if s.role = 0 then s else
  let b := blockStart off
  let s := if s.writes r w off .rwi && !s.sec.rwiSeen.contains b then
      (s.withSec { s.sec with rwiSeen := b :: s.sec.rwiSeen }).audit 0x0D 0 (off / 256)
    else s
  if s.writes r w off .rwm && !s.sec.rwmSeen.contains b then
    (s.withSec { s.sec with rwmSeen := b :: s.sec.rwmSeen }).audit 0x0E 0 (off / 256)
  else s

/-- A write of a word by its fields' access types. -/
def State.plainWrite (s : State) (r : RegRow) (w off : Nat) (v : Word) : State :=
  let denied := s.deniedWord r w off v
  let t := (s.putWord off (s.writtenWord r w off v)).noteFirst r w off
  if denied then t.raise Ev.secDenied else t

/-- A write of a word of RWI fields that does more than set them. -/
def State.guarded (s : State) (r : RegRow) (w off : Nat) (v : Word) (act : State → State) : State :=
  if s.may 2 then (act s).noteFirst r w off
  else if s.deniedWord r w off v then s.raise Ev.secDenied else s

/-! ## Events (R411, R412, R418) -/

/-- A write of 1s to a word of EVT_STATUS: a grouped source clears every cause bit of its group. -/
def State.clearStatus (s : State) (w : Nat) (v : Word) : State :=
  s.each ((List.range 32).filter fun b => v.getLsbD b) fun t b =>
    match groupOf (32 * w + b) with
    | some g => t.put (F.EVT_CAUSE_CAUSE g) 0
    | none => t.put (srcBit (A.EVT_STATUS 0) (32 * w + b)) 0

/-- A write of 1s to a word of EVT_FORCE raises the sources; of a grouped source, cause bit 0. -/
def State.forceWord (s : State) (w : Nat) (v : Word) : State :=
  s.each ((List.range 32).filter fun b => v.getLsbD b) fun t b =>
    match groupOf (32 * w + b) with
    | some g => t.raiseCause g 0
    | none => t.raise (32 * w + b)

/-! ## Registers whose write does more -/

/-- The unit and stage of the trim fields in the word at an offset. -/
def trimAt (off : Nat) : Option (Nat × List (Fld × Nat)) :=
  ((List.range 48).find? fun u => (trimRegs u).contains off).map fun u =>
    (u, [1, 2, 3, 4].flatMap fun st => if (u < 16) = (st < 3) then ((stageFields u st).filter fun f => f.off = off).map fun f => (f, st) else [])

/-- A write to words 0 to 2 of a piste entry goes to the shadow; word 3 commits (R183). -/
def State.writeEntry (s : State) (i k : Nat) (v : Word) : State :=
  if k = 3 then s.commitEntry i v
  else s.withPiste { s.piste with shadow := (List.range 3).map fun j => if j = k then v else s.piste.shadow.getD j 0 }

/-- A write of CEN_SEL[k] (R406): the counter of EVENT clears. CHAIN is a field of even counters only. -/
def State.writeCenSel (s : State) (k : Nat) (v : Word) : State :=
  let s := (s.cenMicros).put (F.CEN_SEL_EVENT k) (getBits v 0 10)
  let s := if k % 2 = 0 then s.put (F.CEN_SEL_CHAIN k) (getBits v 31 1) else s
  s.withCen { s.cen with ctr := Tbl.set s.cen.ctr 0 k 0, config := true }

/-- Two ranges of chunks overlap. -/
def rangesMeet (a b : Nat × Nat) : Bool := decide (a.1 < b.1 + b.2) && decide (b.1 < a.1 + a.2) && decide (0 < a.2) && decide (0 < b.2)

/-- A write of a word of EVID_RING_CFG breaks a condition of R397, as the registers would then stand. -/
def State.ringClash (s : State) (r word : Nat) (v : Word) : Bool :=
  let others := (List.range 4).filter fun q => q ≠ r
  match word with
  | 0 => v.getLsbD 31 && others.any fun q =>
      s.flag (F.EVID_RING_CFG_ENABLE q) && decide (s.get (F.EVID_RING_CFG_PORTS q) &&& getBits v 0 16 ≠ 0)
  | 1 =>
    let size := getBits v 0 15
    size < 16 || 15360 < size || others.any (fun q => rangesMeet (getBits v 16 15, size) (s.ringRange q)) ||
      (List.range 8).any fun k => decide (s.get (F.EVID_SEG_STATE k) ≠ 0) && decide (s.get (F.EVID_SEG_RING k) = r)
  | _ => false

/-- The writer of a ring follows its configuration (R397): it stops where the ring may not record, and starts where it may. -/
def State.ringFollows (s : State) (r : Nat) (moved : Bool) : State :=
  let s := if moved || !s.ringValid r then s.stopRing r else s
  if s.stackOpen && s.apply.stage ≠ 5 && s.apply.stage ≠ 6 then s.startRing r else s

/-- A write of a word of EVID_RING_CFG (R397). -/
def State.writeRingCfg (s : State) (r word : Nat) (row : RegRow) (w off : Nat) (v : Word) : State :=
  s.guarded row w off v fun t =>
    if t.ringClash r word v then t.raise Ev.devBadAccess
    else (t.putWord off (t.writtenWord row w off v)).ringFollows r (word = 1)

/-- A write of TST_MAN_CTRL (R375). `sig` and `pass`: what a run finds. -/
def State.writeManual (s : State) (r : RegRow) (w off : Nat) (v sig : Word) (pass : Bool) : State :=
  let t := s.plainWrite r w off v
  if t.flag F.TST_MAN_CTRL_GO then t.manualBist sig pass else t

/-- What follows a write of a plain register. -/
def State.afterWrite (s : State) (off : Nat) : State :=
  if off = A.POS_WHEEL then s.setScale
  else if off = A.PWR_TIMER then s.withAo { s.ao with timerAt := s.time }
  else if off = A.CEN_CFG then (s.withCen { s.cen with config := true }).showCensus
  else if off / 0x10000 = 1 then s.sendAllOwed
  else match strideIdx (A.PORT_ILM_CTRL 0) 0x20000 16 off, arrayWord (A.PISTE_PORT 0) 16 off, strideIdx (A.HL_CFG 0) 0x1000 16 off with
    | some n, _, _ => s.leadCheck n
    | _, some n, _ => s.claimPort n
    | _, _, some m => s.put (F.HL_STATUS_RF_SENDING m)
        (b2n (s.flag (F.HL_CFG_RF_ON_LOSS m) && decide (s.get (F.HL_CFG_RATE m) ≠ 0) && !s.flag (F.HL_STATUS_LOCKED m) &&
          !s.flag (F.HL_STATUS_LF_SENDING m)))
    | _, _, _ => s

/-- The band register of PORT_CUSTOM at an offset: port, B, and number. -/
def customAt (off : Nat) : Option (Nat × Bool × Nat) :=
  let n := (off - 0x400000) / 0x20000
  if off < 0x400000 || 16 ≤ n then none
  else match arrayWord (A.PORT_CUSTOM_A n 0) 8 off, arrayWord (A.PORT_CUSTOM_B n 0) 8 off with
    | some k, _ => some (n, false, k)
    | _, some k => some (n, true, k)
    | _, _ => none

/-- A write of a mapped word of a resource that the part has. -/
def State.writeMapped (s : State) (r : RegRow) (w off : Nat) (v : Word) : State :=
  match off / 0x100000 with
  | 0 =>
    if off = A.DEV_RESET_CTRL then s.softReset v {}
    else (s.plainWrite r w off v).afterWrite off
  | 1 =>
    match arrayWord (A.EVT_STATUS 0) 10 off, arrayWord (A.EVT_FORCE 0) 10 off, arrayWord (A.EVT_MASK 0) 10 off with
    | some i, _, _ => s.clearStatus i v
    | _, some i, _ => s.forceWord i v
    | _, _, some i => s.reroute fun t => t.plainWrite r w off (v &&& t.presentWord i)
    | _, _, _ => s.plainWrite r w off v
  | 2 =>
    if off = A.CMD_SUBMIT then s.submit (getBits v 0 8)
    else if off = A.CMD_CQ_CONS then s.consume v.toNat
    else s.plainWrite r w off v
  | 12 =>
    match strideIdx (A.PISTE_ENTRY 0 0) 4 131072 off with
    | some i => s.guarded r w off v fun t => t.writeEntry (i / 4) (i % 4) v
    | none => (s.plainWrite r w off v).afterWrite off
  | 13 =>
    match strideIdx (A.CEN_SEL 0) 4 312 off, strideIdx (A.EVID_RING_CFG 0) 4 64 off with
    | some k, _ => s.guarded r w off v fun t => t.writeCenSel k v
    | _, some i => if i % 16 < 4 then s.writeRingCfg (i / 16) (i % 16) r w off v else s.plainWrite r w off v
    | _, _ => (s.plainWrite r w off v).afterWrite off
  | 14 =>
    if off = A.SEC_SESS_CTRL then (if v.getLsbD 0 then s.newChallenge else s)
    else if off = A.SEC_KEY_CTRL then s.keyCtrl v false
    else if off = A.SEC_ID_CTRL then s.idCtrl v
    else s.plainWrite r w off v
  | 15 =>
    if off = A.TST_ROT_CFG && !s.mayTst off then s.raise Ev.secDenied
    else if off = A.TST_MAN_CTRL then
      (s.drawn 2).writeManual r w off v (BitVec.ofNat 32 (Config.freeMeasure s.freeCtr)) (Config.freeMeasure (s.freeCtr + 1) % 2 = 0)
    else s.plainWrite r w off v
  | _ =>
    match strideIdx (A.PORT_MODE 0) 0x20000 16 off, customAt off, strideIdx (A.PORT_BELL_CMD 0) 0x20000 16 off, trimAt off with
    | some n, _, _, _ => s.writePortMode n v
    | _, some (n, b, k), _, _ => s.guarded r w off v fun t => t.writeCustom n b k v
    | _, _, some n, _ => s.bellWrite n v
    | _, _, _, some (u, fs) => s.guarded r w off v fun t => t.writeTrim u fs v
    | _, _, _, _ => (s.plainWrite r w off v).afterWrite off

/-- The offsets whose writes act in END (R395): the identity signer's nonce and GO, and CMD_SUBMIT, which completes with
DENIED. -/
def endTakes (off : Nat) : Bool :=
  off = A.CMD_SUBMIT || off = A.SEC_ID_CTRL || (arrayWord (A.SEC_ID_NONCE 0) 8 off).isSome

/-- A host's write of the word at an offset. -/
def State.barWriteWord (s : State) (off : Nat) (v : Word) : State :=
  if s.lc = 4 && !endTakes off then s
  else if s.holdCloses off || s.absentBlock off then s
  else match regAt off with
    | none => s.raise Ev.devBadAccess
    | some (r, w) => if s.present r.kind (r.firstIndex off) then s.writeMapped r w off v else s

/-- A host's write to BAR0: one word, or two of them in turn; any other has no effect (R7, R305). -/
def State.barWrite (s : State) (off len : Nat) (v : BitVec 64) : State :=
  let lo := v.setWidth 32
  if off % 4 = 0 && len = 4 then s.barWriteWord off lo
  else if off % 4 = 0 && len = 8 then (s.barWriteWord off lo).barWriteWord (off + 4) ((v >>> 32).setWidth 32)
  else if s.lc = 4 || s.holdCloses off || s.absentBlock off then s
  else s.raise Ev.devBadAccess

/-! ## The rows -/

/-- REGISTER_WRITE (R10). No request brings more than 256 bytes (Table 11-3). -/
def execRegisterWrite (off : BitVec 24) (len : Nat) (val : BitVec 64) (s : State) : Host.Outcome State Fault Refusal :=
  if 256 < len then .fault .illFormed else .next (s.bar fun t => t.barWrite off.toNat len val)

/-- READ_CLEAR (R10): a host's read; `added` is what the device adds to the RC fields in the same
cycle. No request asks for more than 4,096 bytes (Table 11-3). -/
def execReadClear (off : BitVec 24) (len : Nat) (added : Word) (s : State) : Host.Outcome State Fault Refusal :=
  if 4096 < len then .fault .illFormed else .next (s.bar fun t => t.barRead off.toNat len added)

/-- WIDE_LOW_WORD_READ (R7): a host's read of one word, which of a 64-bit register latches the high word. -/
def execWideLowWordRead (off : BitVec 24) (s : State) : Host.Outcome State Fault Refusal :=
  .next (s.bar fun t => t.barRead off.toNat 4 0)

/-- PORT_CUSTOM_WRITE (R50). -/
def execPortCustomWrite (port : BitVec 4) (b : Bool) (k : BitVec 3) (val : Word) (s : State) : Host.Outcome State Fault Refusal :=
  .next (s.bar fun t =>
    t.barWriteWord (if b then A.PORT_CUSTOM_B port.toNat k.toNat else A.PORT_CUSTOM_A port.toNat k.toNat) val)

/-- TRIM_WRITE (R232): a write of the trim register at an offset. -/
def execTrimWrite (off : BitVec 24) (val : Word) (s : State) : Host.Outcome State Fault Refusal :=
  .next (s.bar fun t => if (trimAt off.toNat).isSome then t.barWriteWord off.toNat val else t)

/-- PISTE_ENTRY_COMMIT (R183). -/
def execPisteEntryCommit (idx : BitVec 15) (val : Word) (s : State) : Host.Outcome State Fault Refusal :=
  .next (s.bar fun t => t.barWriteWord (A.PISTE_ENTRY idx.toNat 3) val)

/-- PISTE_ENTRY_READ (R183). -/
def execPisteEntryRead (idx : BitVec 15) (s : State) : Host.Outcome State Fault Refusal :=
  .next (s.bar fun t => t.barRead (A.PISTE_ENTRY idx.toNat 0) 4 0)

/-- PORT_BELL_GO (R209). -/
def execPortBellGo (port : BitVec 4) (val : Word) (s : State) : Host.Outcome State Fault Refusal :=
  .next (s.bar fun t => t.barWriteWord (A.PORT_BELL_CMD port.toNat) val)

/-- MEM_FLIP_ARM (R272): a write of MEM_FLIP_CTRL of a pseudo-channel. -/
def execMemFlipArm (pc : BitVec 5) (val : Word) (s : State) : Host.Outcome State Fault Refusal :=
  .next (s.bar fun t => t.barWriteWord (A.MEM_FLIP_CTRL (pc.toNat / 2) (pc.toNat % 2)) val)

/-- TST_MAN_GO (R375): a write of TST_MAN_CTRL; `sig` and `pass` are what a run finds. -/
def execTstManGo (val sig : Word) (pass : Bool) (s : State) : Host.Outcome State Fault Refusal :=
  .next (s.bar fun t =>
    if t.lc = 4 || t.holdCloses A.TST_MAN_CTRL then t
    else match regAt A.TST_MAN_CTRL with
      | some (r, w) => t.writeManual r w A.TST_MAN_CTRL val sig pass
      | none => t)

/-- EVID_RING_CFG_WRITE (R397). -/
def execEvidRingCfgWrite (ring word : BitVec 2) (val : Word) (s : State) : Host.Outcome State Fault Refusal :=
  .next (s.bar fun t => t.barWriteWord (A.EVID_RING_CFG ring.toNat + 4 * word.toNat) val)

/-- CEN_SEL_WRITE (R406). -/
def execCenSelWrite (k : BitVec 9) (val : Word) (s : State) : Host.Outcome State Fault Refusal :=
  .next (s.bar fun t => t.barWriteWord (A.CEN_SEL k.toNat) val)

/-- EVT_FORCE (R418). -/
def execEvtForce (w : BitVec 4) (val : Word) (s : State) : Host.Outcome State Fault Refusal :=
  .next (s.bar fun t => if w.toNat < 10 then t.barWriteWord (A.EVT_FORCE w.toNat) val else t)

/-- FREEZE_RECORD_READ (R275): a read of the word at 0x27C of a freeze record. -/
def execFreezeRecordRead (pc : BitVec 5) (s : State) : Host.Outcome State Fault Refusal :=
  .next (s.bar fun t => t.barRead (A.MEM_FREEZE_REC (pc.toNat / 2) (pc.toNat % 2) 159) 4 0)

end Sys2Proof.Machine
end

