-- ==== Sys2Proof/Machine/Ctl.lean ====
section
/-!
DEFINITION. The control port beside BAR0: the BAR2 window (R306 to R308), PERST_N, the configuration writes and the link
(R304, R309, R414), and MDIO (R319 to R321).
-/
namespace Sys2Proof.Machine

/-! ## BAR2 (R306 to R308) -/

/-- What meets a BAR2 access. -/
inductive Bar2 where
  /-- END: zeros, or discarded (R395). -/
  | closed
  /-- No right: SEC_DENIED (R307). -/
  | denied
  /-- No such place: DEV_BAD_ACCESS (R308). -/
  | absent
  /-- The stack serves nothing. -/
  | held (part at_ : Nat)
  /-- The partition and the address in it. -/
  | at_ (part at_ : Nat)
  deriving DecidableEq, Repr

/-- Judge a BAR2 access of `len` bytes at an offset. -/
def State.bar2At (s : State) (off len : Nat) (wr : Bool) : Bar2 :=
  let k := s.get F.DEV_BAR2_WIN_PART
  let a := 1048576 * s.get F.DEV_BAR2_WIN_BASE_MIB + off
  if s.lc = 4 then .closed
  else if s.partValid k && !s.bar2May (s.get (F.FAB_PART_TYPE k)) wr then .denied
  else if !s.flag F.DEV_BAR2_WIN_ENABLE || !s.partValid k || s.partBytes k < a + len then .absent
  else if !s.stackOpen || s.apply.stage = 5 || s.apply.stage = 6 || s.stackHeld (s.locate k a).pc then .held k a
  else .at_ k a

/-- A read of BAR2. -/
def State.bar2Get (s : State) (off len : Nat) : State :=
  let zeros := List.replicate len (0 : Byte)
  match s.bar2At off len false with
  | .closed => s.emit (.bar2Read zeros false)
  | .denied => (s.raise Ev.secDenied).emit (.bar2Read zeros false)
  | .absent => (s.raise Ev.devBadAccess).emit (.bar2Read zeros false)
  | .held _ _ => s.emit (.bar2Read zeros true)
  | .at_ k a =>
    let (t, outs, bs) := s.stackGet 0x22 k a len
    t.emit (.bar2Read bs (outs.any fun o => o = outPoison || o = outFenced || o = outUe))

/-- The unit of a BAR2 write at offset `o` (plus 64) of the data: its byte enables and its bytes. -/
def bar2Unit (d : List (Option Byte)) (o : Nat) : Nat × Bytes :=
  let byte (b : Nat) : Option Byte := if o + b < 64 then none else d.getD (o + b - 64) none
  (listMask ((List.range 64).filter fun b => (byte b).isSome), (List.range 64).map fun b => (byte b).getD 0)

/-- A write to BAR2; a byte that is not enabled is none. -/
def State.bar2Put (s : State) (off : Nat) (d : List (Option Byte)) : State :=
  match s.bar2At off d.length true with
  | .closed => s
  | .denied => s.raise Ev.secDenied
  | .absent => s.raise Ev.devBadAccess
  | .held k a => s.each (unitsOf a d.length) fun t e =>
      let pc := (t.locate k e.1).pc
      t.count (F.MEM_FENCED_REQ_COUNT (pc / 2) (pc % 2)) 1
  | .at_ k a => s.each (unitsOf a d.length) fun t e =>
      let (en, bs) := bar2Unit d e.2.2
      let (q, pc) := t.unitReq 0x22 k e.1 en true bs
      if en = 0 then t
      else if t.fenced pc then t.answerFenced pc 0x22 true
      else t.writeUnit q pc (t.get (F.FAB_PART_PAGE k)) (hintOf e.1)

/-- BAR2_READ (R307, R308). -/
def execBar2Read (off : BitVec 26) (len : Nat) (s : State) : Host.Outcome State Fault Refusal :=
  if 4096 < len then .fault .illFormed else .next (s.bar fun t => t.bar2Get off.toNat len)

/-- BAR2_WRITE (R307, R308). -/
def execBar2Write (off : BitVec 26) (data : List (Option (BitVec 8))) (s : State) : Host.Outcome State Fault Refusal :=
  if 256 < data.length then .fault .illFormed else .next (s.bar fun t => t.bar2Put off.toNat data)

/-! ## The function and its link (R304, R309, R414) -/

/-- PERST_N falls (R309): the function, its configuration space, MSI-X state and DEV_BAR2_WIN are reset, the session closes and the
challenge is void. Messages owed stay owed. -/
def State.perst (s : State) : State :=
  let s := s.withPci { link := false, perst := true }
  let s := s.dropWords (A.MSIX_TABLE 0 0) 512
  ((s.putWide A.DEV_BAR2_WIN 0).voidChallenge).endSession 3

/-- PERST_N: the pin falls, or rises. -/
def execPerstN (low : Bool) (s : State) : Host.Outcome State Fault Refusal :=
  .next (if low then (if s.pci.perst then s else s.perst) else s.withPci { s.pci with perst := false })

/-- The Vendor ID (low half) and Device ID (high half) that the function's configuration space holds (Table 11-3). -/
def State.pciIds (s : State) : Word := match s.part with | .xs716 => 0x71601F7C#32 | .xs708 => 0x70801F7C#32

/-- CONFIGURATION_WRITE: the power state, MSI-X enable and function mask after the write. -/
def execConfigurationWrite (d3hot msixEn funcMask : Bool) (s : State) : Host.Outcome State Fault Refusal :=
  .next (
    if !s.coreOn || s.pci.perst then s
    else (s.withPci { s.pci with d3hot := d3hot, msixEn := msixEn, funcMask := funcMask }).sendAllOwed)

/-- CONTROL_PORT_LINK_UP (R332). -/
def execControlPortLinkUp (s : State) : Host.Outcome State Fault Refusal :=
  .next (if !s.coreOn || s.pci.perst then s else (s.withPci { s.pci with link := true }).sendAllOwed)

/-! ## MDIO (R319 to R321) -/

/-- The key of a register at a port address. -/
def mdioKey (n mmd reg : Nat) : Nat := (n * 32 + mmd) * 65536 + reg

/-- The 32-bit values of MMDs 30 and 31, by the number of their low half. -/
def State.mdioWide (s : State) (n mmd reg : Nat) : Option Word :=
  match mmd, reg with
  | 30, 0 => some (s.word (A.PORT_LINK_STATUS n))
  | 30, 2 => some (s.word (A.PORT_ILM_STATE n))
  | 30, 6 => some (s.word (A.PORT_MON_MARGIN n))
  | 30, 8 => some (s.word (A.PORT_ILM_SFC n))
  | 30, 10 => some (s.word (A.PORT_AN_STATUS n))
  | 30, 14 => some (s.word (A.PISTE_PORT n))
  | 31, 0 => some (s.word A.DEV_PARTID)
  | 31, 2 => some (s.word A.DEV_FOLD_STATUS)
  | 31, 4 => some (s.word A.DEV_FOLD_RUN)
  | _, _ => none

/-- The 16-bit values of MMDs 30 and 31 (Tables 11-8 and 11-9). -/
def State.mdioShort (s : State) (n mmd reg : Nat) : Nat :=
  match mmd, reg with
  | 30, 4 => s.get (F.PORT_ILM_RATE_TX_MBPS n)
  | 30, 5 => s.get (F.PORT_ILM_RATE_RX_MBPS n)
  | 30, 12 => (s.word (A.PORT_PAD_STATE n)).toNat / 65536
  | 30, 13 => match s.laneOf n with
    | some m => (s.laneWord m).toNat / 65536
    | none => 0
  | 30, 16 => 32768 * s.get (F.PORT_MODE_ENABLE n)
  | 31, 6 => listMask ((List.range s.nPorts).filter s.up)
  | 31, 7 => listMask ((List.range s.nPorts).filter s.upTrv)
  | 31, 8 => unsigned 8 (s.baseTemp / 4)
  | 31, 9 => match s.coreTemp with
    | some t => unsigned 8 (t / 4)
    | none => 0
  | 31, 10 => s.get F.DRV_STATE_PL + 16 * s.pwr.mode
  | 31, 11 => s.lc
  | _, _ => 0

/-- Registers that IEEE 802.3 Clause 45 gives to the BASE-T1 modes. PRESUMED from the standard; see log entry 20. -/
def modeSpecific (mmd reg : Nat) : Bool := (mmd = 1 || mmd = 3) && decide (2100 ≤ reg) && decide (reg < 2400)

/-- The write group of a register (R321). Which registers are control and advertisement registers is PRESUMED from IEEE 802.3
Clause 45; see log entry 20. -/
def mdioGroup (mmd reg : Nat) : Option Nat :=
  match mmd with
  | 30 => if reg = 16 then some 0 else none
  | 7 => if [0, 512, 514, 515, 516, 520, 521, 522].contains reg then some 1 else none
  | 1 => if [0, 9, 2100, 2102, 2304, 2308, 2309, 2313].contains reg then some 2 else none
  | 3 => if [0, 2304, 2322].contains reg then some 2 else none
  | _ => none

/-- A register of MMD 1, 3 or 7: receive link status follows UP, a control register reads what was last written to it, the
mode-specific ones read 0 while the port runs ILM or Traverse, the OAM ability (bit 11 of 1.2310, the status register of the
2.5/5/10GBASE-T1 modes) reads not supported (R114), and every other bit is a free value: the spec gives no content. Where the
link status and the OAM ability stand in a register is PRESUMED from IEEE 802.3 Clause 45; see log entry 20. -/
def State.ieeeGet (s : State) (n mmd reg : Nat) : State × Nat :=
  if modeSpecific mmd reg && (s.upIlm n || s.upTrv n) then (s, 0)
  else match Tbl.get s.mdio.regs none (mdioKey n mmd reg) with
    | some v => (s, v)
    | none =>
      let v := Config.freeMeasure s.freeCtr % 65536
      let link := (mmd = 1 || mmd = 3) && reg = 1
      let oam := decide (mmd = 1) && decide (reg = 2310)
      (s.drawn 1, if link then v - v / 4 % 2 * 4 + 4 * b2n (s.up n) else if oam then v - v / 2048 % 2 * 2048 else v)

/-- An MDIO read: the value, with the latch of the high half that a read of the low half sets. -/
def State.mdioGet (s : State) (n mmd reg : Nat) : State × Nat :=
  let key := mdioKey n mmd reg
  match Tbl.get s.mdio.latch none key with
  | some v => (s.withMdio { s.mdio with latch := Tbl.set s.mdio.latch none key none }, v)
  | none =>
    if mmd = 1 || mmd = 3 || mmd = 7 then s.ieeeGet n mmd reg
    else match s.mdioWide n mmd reg, s.mdioWide n mmd (reg - 1) with
      | some v, _ => (s.withMdio { s.mdio with latch := Tbl.set s.mdio.latch none (key + 1) (some (v.toNat / 65536)) }, v.toNat % 65536)
      | none, some v => if reg % 2 = 1 then (s, v.toNat / 65536) else (s, s.mdioShort n mmd reg)
      | none, none => (if mmd = 30 && reg = 13 then s.drawn 1 else s, s.mdioShort n mmd reg)

/-- The device answers MDIO frames at a port address: in Run and Drowse, not in END, at the ports of the part. -/
def State.mdioServes (s : State) (n : Nat) : Bool := s.coreOn && decide (s.lc ≠ 4) && decide (n < s.nPorts)

/-- MDIO_READ (R319, R320). -/
def execMdioRead (port mmd : BitVec 5) (reg : BitVec 16) (s : State) : Host.Outcome State Fault Refusal :=
  .next (
    if !s.mdioServes port.toNat then s else
    let (t, v) := s.mdioGet port.toNat mmd.toNat reg.toNat
    t.emit (.mdioRead (BitVec.ofNat 16 v)))

/-- A granted write of 30.16: ENABLE and RESTART of PORT_MODE, whose other fields stand. -/
def State.mdioPort (s : State) (n : Nat) (v : BitVec 16) : State :=
  let w := s.word (A.PORT_MODE n) &&& 0x5FFFFFFF#32
  s.writePortMode n (w ||| (if v.getLsbD 15 then 0x80000000#32 else 0) ||| (if v.getLsbD 14 then 0x20000000#32 else 0))

/-- A granted write of a register of MMD 1, 3 or 7: it holds the value, but for the bits of Clause 45 that clear themselves (15,
and 9 of MMD 7). Bit 9 of 7.0x0200 restarts negotiation, as PORT_MODE.RESTART does. -/
def State.ieeePut (s : State) (n mmd reg : Nat) (v : BitVec 16) : State :=
  let kept := (if mmd = 7 then v &&& 0xFDFF#16 else v) &&& 0x7FFF#16
  let s := s.withMdio { s.mdio with regs := Tbl.set s.mdio.regs none (mdioKey n mmd reg) (some kept.toNat) }
  if mmd = 7 && reg = 0x200 && v.getLsbD 9 then
    s.writePortMode n (s.word (A.PORT_MODE n) ||| 0x20000000#32)
  else s

/-- MDIO_WRITE (R321). -/
def execMdioWrite (port mmd : BitVec 5) (reg val : BitVec 16) (s : State) : Host.Outcome State Fault Refusal :=
  let n := port.toNat
  let m := mmd.toNat
  .next (
    if !s.mdioServes n then s
    else match mdioGroup m reg.toNat with
      | some g =>
        if !(s.mdioGrant n).testBit g then (s.count F.DEV_MDIO_DENIED_COUNT 1).raise Ev.secDenied
        else if g = 0 then s.mdioPort n val
        else s.ieeePut n m reg.toNat val
      | none => (s.count F.DEV_MDIO_DENIED_COUNT 1).raise Ev.secDenied)

end Sys2Proof.Machine
end

