-- ==== Sys2Proof/Machine/Dispatch.lean ====
section
/-!
DEFINITION. One arm for each command.
-/
namespace Sys2Proof.Machine

def exec (i : Instr) (s : State) : Host.Outcome State Fault Refusal :=
  match i with
  | .registerWrite off len val => Sys2Proof.Machine.execRegisterWrite off len val s
  | .readClear off len added => Sys2Proof.Machine.execReadClear off len added s
  | .wideLowWordRead off => Sys2Proof.Machine.execWideLowWordRead off s
  | .cmdSubmit val => Sys2Proof.Machine.execCmdSubmit val s
  | .cmdStart => Sys2Proof.Machine.execCmdStart s
  | .cmdCqConsWrite val => Sys2Proof.Machine.execCmdCqConsWrite val s
  | .unknownOpcode slot => Sys2Proof.Machine.execUnknownOpcode slot s
  | .foldLoad slot nvFail bad => Sys2Proof.Machine.execFoldLoad slot nvFail bad s
  | .structuralApplyStage bad => Sys2Proof.Machine.execStructuralApplyStage bad s
  | .foldLoadCompletion alone => Sys2Proof.Machine.execFoldLoadCompletion alone s
  | .foldCommit slot nvFail => Sys2Proof.Machine.execFoldCommit slot nvFail s
  | .pisteLoad slot => Sys2Proof.Machine.execPisteLoad slot s
  | .pisteSave slot nvFail => Sys2Proof.Machine.execPisteSave slot nvFail s
  | .posFix slot => Sys2Proof.Machine.execPosFix slot s
  | .calRun slot => Sys2Proof.Machine.execCalRun slot s
  | .calSave slot => Sys2Proof.Machine.execCalSave slot s
  | .calRestore slot bad => Sys2Proof.Machine.execCalRestore slot bad s
  | .diagReflect slot quiet echo nvFail => Sys2Proof.Machine.execDiagReflect slot quiet echo nvFail s
  | .diagPassive slot echo nvFail => Sys2Proof.Machine.execDiagPassive slot echo nvFail s
  | .memRepairSpareRow slot nvFail => Sys2Proof.Machine.execMemRepairSpareRow slot nvFail s
  | .memRepairSteerTsv slot nvFail => Sys2Proof.Machine.execMemRepairSteerTsv slot nvFail s
  | .memRepairReturn slot nvFail => Sys2Proof.Machine.execMemRepairReturn slot nvFail s
  | .memRetrain slot train => Sys2Proof.Machine.execMemRetrain slot train s
  | .memRelease slot nvFail => Sys2Proof.Machine.execMemRelease slot nvFail s
  | .evidTrigger slot => Sys2Proof.Machine.execEvidTrigger slot s
  | .evidExport slot => Sys2Proof.Machine.execEvidExport slot s
  | .evidRelease slot => Sys2Proof.Machine.execEvidRelease slot s
  | .pwrState slot => Sys2Proof.Machine.execPwrState slot s
  | .portDisable slot => Sys2Proof.Machine.execPortDisable slot s
  | .sessionOpen slot => Sys2Proof.Machine.execSessionOpen slot s
  | .sessionClose slot => Sys2Proof.Machine.execSessionClose slot s
  | .lcAdvance slot nvFail => Sys2Proof.Machine.execLcAdvance slot nvFail s
  | .fwStage slot nvFail => Sys2Proof.Machine.execFwStage slot nvFail s
  | .fwCommit slot nvFail => Sys2Proof.Machine.execFwCommit slot nvFail s
  | .lifecycleReset boot => Sys2Proof.Machine.execLifecycleReset boot s
  | .portEnable port val => Sys2Proof.Machine.execPortEnable port val s
  | .portModeDisable port val => Sys2Proof.Machine.execPortModeDisable port val s
  | .portModeRestart port val => Sys2Proof.Machine.execPortModeRestart port val s
  | .portCustomWrite port b k val => Sys2Proof.Machine.execPortCustomWrite port b k val s
  | .trimWrite off val => Sys2Proof.Machine.execTrimWrite off val s
  | .pisteEntryCommit idx val => Sys2Proof.Machine.execPisteEntryCommit idx val s
  | .pisteEntryRead idx => Sys2Proof.Machine.execPisteEntryRead idx s
  | .portBellGo port val => Sys2Proof.Machine.execPortBellGo port val s
  | .bellSend port => Sys2Proof.Machine.execBellSend port s
  | .memFlipArm pc val => Sys2Proof.Machine.execMemFlipArm pc val s
  | .tstManGo val sig pass => Sys2Proof.Machine.execTstManGo val sig pass s
  | .evidRingCfgWrite ring word val => Sys2Proof.Machine.execEvidRingCfgWrite ring word val s
  | .cenSelWrite k val => Sys2Proof.Machine.execCenSelWrite k val s
  | .evtForce w val => Sys2Proof.Machine.execEvtForce w val s
  | .newChal => Sys2Proof.Machine.execNewChal s
  | .keyRead val => Sys2Proof.Machine.execKeyRead val s
  | .keyEnrol val nvFail => Sys2Proof.Machine.execKeyEnrol val nvFail s
  | .keyRevoke val nvFail => Sys2Proof.Machine.execKeyRevoke val nvFail s
  | .identityChallenge val => Sys2Proof.Machine.execIdentityChallenge val s
  | .softReset val boot => Sys2Proof.Machine.execSoftReset val boot s
  | .bar2Read off len => Sys2Proof.Machine.execBar2Read off len s
  | .bar2Write off data => Sys2Proof.Machine.execBar2Write off data s
  | .mdioRead port mmd reg => Sys2Proof.Machine.execMdioRead port mmd reg s
  | .mdioWrite port mmd reg val => Sys2Proof.Machine.execMdioWrite port mmd reg val s
  | .perstN low => Sys2Proof.Machine.execPerstN low s
  | .hostFrameReceived lane bytes errored stalled took => Sys2Proof.Machine.execHostFrameReceived lane bytes errored stalled took s
  | .hostPauseFrame lane pfc enables quanta => Sys2Proof.Machine.execHostPauseFrame lane pfc enables quanta s
  | .hostPauseExpiry port => Sys2Proof.Machine.execHostPauseExpiry port s
  | .xoffRefresh port => Sys2Proof.Machine.execXoffRefresh port s
  | .laneLoss lane det mv frame => Sys2Proof.Machine.execLaneLoss lane det mv frame s
  | .laneRelock lane mv midFrame ppm => Sys2Proof.Machine.execLaneRelock lane mv midFrame ppm s
  | .symbolReceived port err word => Sys2Proof.Machine.execSymbolReceived port err word s
  | .erasureEventEnd port => Sys2Proof.Machine.execErasureEventEnd port s
  | .superframeBoundary port erased mon => Sys2Proof.Machine.execSuperframeBoundary port erased mon s
  | .serviceStart port => Sys2Proof.Machine.execServiceStart port s
  | .codewordSlot port ready => Sys2Proof.Machine.execCodewordSlot port ready s
  | .lotReceived port word mag stalled => Sys2Proof.Machine.execLotReceived port word mag stalled s
  | .ackWord port cum => Sys2Proof.Machine.execAckWord port cum s
  | .nakWord port payload => Sys2Proof.Machine.execNakWord port payload s
  | .nakWaitExpiry port => Sys2Proof.Machine.execNakWaitExpiry port s
  | .swapAnnounce port dir kind arg sf => Sys2Proof.Machine.execSwapAnnounce port dir kind arg sf s
  | .swapConfirm port dir kind arg sf => Sys2Proof.Machine.execSwapConfirm port dir kind arg sf s
  | .swapReject port dir kind arg sf => Sys2Proof.Machine.execSwapReject port dir kind arg sf s
  | .swapCancel port dir kind arg sf => Sys2Proof.Machine.execSwapCancel port dir kind arg sf s
  | .swapConfirmDeadline port => Sys2Proof.Machine.execSwapConfirmDeadline port s
  | .loadingChangeAtS port erased pts => Sys2Proof.Machine.execLoadingChangeAtS port erased pts s
  | .bitSwapRequest port tones => Sys2Proof.Machine.execBitSwapRequest port tones s
  | .profileSwapAnnounce port => Sys2Proof.Machine.execProfileSwapAnnounce port s
  | .toneCapAnnounce port => Sys2Proof.Machine.execToneCapAnnounce port s
  | .vectorJoinEnd port => Sys2Proof.Machine.execVectorJoinEnd port s
  | .msgAck port acked typ => Sys2Proof.Machine.execMsgAck port acked typ s
  | .eocResendTimeout port => Sys2Proof.Machine.execEocResendTimeout port s
  | .eocReservedMsg port typ seq noack => Sys2Proof.Machine.execEocReservedMsg port typ seq noack s
  | .trainSync port count => Sys2Proof.Machine.execTrainSync port count s
  | .trainStart port seq sf tag => Sys2Proof.Machine.execTrainStart port seq sf tag s
  | .warmCheck port seq tag own partner gen crcs vec prof sf => Sys2Proof.Machine.execWarmCheck port seq tag own partner gen crcs vec prof sf s
  | .linkDown port cause warm => Sys2Proof.Machine.execLinkDown port cause warm s
  | .status port rxMin rxAvg lost => Sys2Proof.Machine.execStatus port rxMin rxAvg lost s
  | .lpiEnter port seq sf => Sys2Proof.Machine.execLpiEnter port seq sf s
  | .lpiWake port => Sys2Proof.Machine.execLpiWake port s
  | .rateCap port seq cap => Sys2Proof.Machine.execRateCap port seq cap s
  | .loadingUpdate port seq id entries => Sys2Proof.Machine.execLoadingUpdate port seq id entries s
  | .capUpdate port seq count => Sys2Proof.Machine.execCapUpdate port seq count s
  | .customDef port seq which bands => Sys2Proof.Machine.execCustomDef port seq which bands s
  | .vecError port sf errors => Sys2Proof.Machine.execVecError port sf errors s
  | .ident port seq part step pport serial key nonce span => Sys2Proof.Machine.execIdent port seq part step pport serial key nonce span s
  | .identProof port seq sig => Sys2Proof.Machine.execIdentProof port seq sig s
  | .padParams port seq rxLots txLots boosted => Sys2Proof.Machine.execPadParams port seq rxLots txLots boosted s
  | .padResume port seq cum high kept => Sys2Proof.Machine.execPadResume port seq cum high kept s
  | .padVoid port seq ranges => Sys2Proof.Machine.execPadVoid port seq ranges s
  | .pisteLead port claim fixValid stopped route pos speed => Sys2Proof.Machine.execPisteLead port claim fixValid stopped route pos speed s
  | .anComplete port ability tech master => Sys2Proof.Machine.execAnComplete port ability tech master s
  | .trainingPhaseEnd port span tones service => Sys2Proof.Machine.execTrainingPhaseEnd port span tones service s
  | .trainingPhaseLate port => Sys2Proof.Machine.execTrainingPhaseLate port s
  | .partnerWaitTimeout port => Sys2Proof.Machine.execPartnerWaitTimeout port s
  | .partnerSignalDetected port => Sys2Proof.Machine.execPartnerSignalDetected port s
  | .warmCheckTimeout port => Sys2Proof.Machine.execWarmCheckTimeout port s
  | .warmHoldExpiry port => Sys2Proof.Machine.execWarmHoldExpiry port s
  | .lossOfSync port => Sys2Proof.Machine.execLossOfSync port s
  | .marginDownTimeout port => Sys2Proof.Machine.execMarginDownTimeout port s
  | .marginLowTimeout port => Sys2Proof.Machine.execMarginLowTimeout port s
  | .echoLowTimeout port => Sys2Proof.Machine.execEchoLowTimeout port s
  | .legacyLinkFail port => Sys2Proof.Machine.execLegacyLinkFail port s
  | .ilmSuppressExpiry port => Sys2Proof.Machine.execIlmSuppressExpiry port s
  | .lpiIdleTimeout port => Sys2Proof.Machine.execLpiIdleTimeout port s
  | .legacyLpiIdle port => Sys2Proof.Machine.execLegacyLpiIdle port s
  | .linkreq port hdr => Sys2Proof.Machine.execLinkreq port hdr s
  | .linkacc port hdr => Sys2Proof.Machine.execLinkacc port hdr s
  | .linkcfm port hdr => Sys2Proof.Machine.execLinkcfm port hdr s
  | .dataBurst port hdr coded missing => Sys2Proof.Machine.execDataBurst port hdr coded missing s
  | .tokenBurst port hdr => Sys2Proof.Machine.execTokenBurst port hdr s
  | .identBurst port hdr coded missing => Sys2Proof.Machine.execIdentBurst port hdr coded missing s
  | .proofBurst port hdr coded missing => Sys2Proof.Machine.execProofBurst port hdr coded missing s
  | .leave port hdr => Sys2Proof.Machine.execLeave port hdr s
  | .preambleDetected port len snr gain delay => Sys2Proof.Machine.execPreambleDetected port len snr gain delay s
  | .falseDetection port sync => Sys2Proof.Machine.execFalseDetection port sync s
  | .shadowRestart port periods len snr gain delay => Sys2Proof.Machine.execShadowRestart port periods len snr gain delay s
  | .burstTruncated port => Sys2Proof.Machine.execBurstTruncated port s
  | .turnStart port => Sys2Proof.Machine.execTurnStart port s
  | .tokenReclaim port => Sys2Proof.Machine.execTokenReclaim port s
  | .linkreqRetry port => Sys2Proof.Machine.execLinkreqRetry port s
  | .acquisitionTimeout port => Sys2Proof.Machine.execAcquisitionTimeout port s
  | .trvLossTimeout port => Sys2Proof.Machine.execTrvLossTimeout port s
  | .searchExpiry port => Sys2Proof.Machine.execSearchExpiry port s
  | .trvAfterExpiry port => Sys2Proof.Machine.execTrvAfterExpiry port s
  | .bellAccepted port chirps code boot => Sys2Proof.Machine.execBellAccepted port chirps code boot s
  | .odometerEdge a b after stands => Sys2Proof.Machine.execOdometerEdge a b after stands s
  | .positionTick => Sys2Proof.Machine.execPositionTick s
  | .holdTimeout => Sys2Proof.Machine.execHoldTimeout s
  | .stoppedTimeout => Sys2Proof.Machine.execStoppedTimeout s
  | .fixAgeExpiry => Sys2Proof.Machine.execFixAgeExpiry s
  | .pisteEngineTick => Sys2Proof.Machine.execPisteEngineTick s
  | .learningRecord port => Sys2Proof.Machine.execLearningRecord port s
  | .passUpdate => Sys2Proof.Machine.execPassUpdate s
  | .autosave nvFail => Sys2Proof.Machine.execAutosave nvFail s
  | .sweepListenRetry port quiet echo nvFail => Sys2Proof.Machine.execSweepListenRetry port quiet echo nvFail s
  | .cableCheckPeriod port echo => Sys2Proof.Machine.execCableCheckPeriod port echo s
  | .calUnitStart unit => Sys2Proof.Machine.execCalUnitStart unit s
  | .calStageEnd unit vals before after train => Sys2Proof.Machine.execCalStageEnd unit vals before after train s
  | .memRequest req part addr en wr data hint capped full upsets => Sys2Proof.Machine.execMemRequest req part addr en wr data hint capped full upsets s
  | .memCmdParityError pc req bank row unit => Sys2Proof.Machine.execMemCmdParityError pc req bank row unit s
  | .refreshDue pc bank how => Sys2Proof.Machine.execRefreshDue pc bank how s
  | .tallyPeriodEnd ch => Sys2Proof.Machine.execTallyPeriodEnd ch s
  | .pageIdleExpiry pc bank => Sys2Proof.Machine.execPageIdleExpiry pc bank s
  | .lameWindow stats => Sys2Proof.Machine.execLameWindow stats s
  | .gleanerRow pc upsets => Sys2Proof.Machine.execGleanerRow pc upsets s
  | .lapAlarm pc => Sys2Proof.Machine.execLapAlarm pc s
  | .autoRepair pc nvFail => Sys2Proof.Machine.execAutoRepair pc nvFail s
  | .freezeAutoRelease pc nvFail => Sys2Proof.Machine.execFreezeAutoRelease pc nvFail s
  | .drowsePowerDown pc => Sys2Proof.Machine.execDrowsePowerDown pc s
  | .droverPeriod => Sys2Proof.Machine.execDroverPeriod s
  | .plRaiseSettle => Sys2Proof.Machine.execPlRaiseSettle s
  | .sensorRead base core boot => Sys2Proof.Machine.execSensorRead base core boot s
  | .thermalTrip => Sys2Proof.Machine.execThermalTrip s
  | .herderWatchdogExpiry => Sys2Proof.Machine.execHerderWatchdogExpiry s
  | .penEntryWait => Sys2Proof.Machine.execPenEntryWait s
  | .winterAfterExpiry => Sys2Proof.Machine.execWinterAfterExpiry s
  | .wakeN us boot => Sys2Proof.Machine.execWakeN us boot s
  | .linkEnergy port us boot => Sys2Proof.Machine.execLinkEnergy port us boot s
  | .pcieWake boot => Sys2Proof.Machine.execPcieWake boot s
  | .odometerWake boot => Sys2Proof.Machine.execOdometerWake boot s
  | .pwrTimerExpiry boot => Sys2Proof.Machine.execPwrTimerExpiry boot s
  | .coreOffTimeEnd boot => Sys2Proof.Machine.execCoreOffTimeEnd boot s
  | .penReturnStep step ups => Sys2Proof.Machine.execPenReturnStep step ups s
  | .clockGateRequest block ack demand => Sys2Proof.Machine.execClockGateRequest block ack demand s
  | .gateAckTimeout why => Sys2Proof.Machine.execGateAckTimeout why s
  | .lrefclkTrip => Sys2Proof.Machine.execLrefclkTrip s
  | .clockHoldCoastEnd => Sys2Proof.Machine.execClockHoldCoastEnd s
  | .hrefclkTrip => Sys2Proof.Machine.execHrefclkTrip s
  | .oscillatorJudged which counts boot => Sys2Proof.Machine.execOscillatorJudged which counts boot s
  | .iroJudgeDeadline => Sys2Proof.Machine.execIroJudgeDeadline s
  | .xo32Accepted counts => Sys2Proof.Machine.execXo32Accepted counts s
  | .xo32Dropped count => Sys2Proof.Machine.execXo32Dropped count s
  | .powerOnReset boot => Sys2Proof.Machine.execPowerOnReset boot s
  | .supplyFault stack boot => Sys2Proof.Machine.execSupplyFault stack boot s
  | .resetPin us boot => Sys2Proof.Machine.execResetPin us boot s
  | .debugReset boot => Sys2Proof.Machine.execDebugReset boot s
  | .debugHalt => Sys2Proof.Machine.execDebugHalt s
  | .debugResume => Sys2Proof.Machine.execDebugResume s
  | .boundaryScanEnter byp => Sys2Proof.Machine.execBoundaryScanEnter byp s
  | .boundaryScanExit => Sys2Proof.Machine.execBoundaryScanExit s
  | .sessionExpiry => Sys2Proof.Machine.execSessionExpiry s
  | .challengeExpiry => Sys2Proof.Machine.execChallengeExpiry s
  | .lockoutEnd => Sys2Proof.Machine.execLockoutEnd s
  | .rotationSwap slice => Sys2Proof.Machine.execRotationSwap slice s
  | .sliceTestEnd pass => Sys2Proof.Machine.execSliceTestEnd pass s
  | .srSegment block served crc pass => Sys2Proof.Machine.execSrSegment block served crc pass s
  | .sliceCheckerFired slice => Sys2Proof.Machine.execSliceCheckerFired slice s
  | .rotationOverdue slice => Sys2Proof.Machine.execRotationOverdue slice s
  | .drainEnd port => Sys2Proof.Machine.execDrainEnd port s
  | .evtTrigPin low high => Sys2Proof.Machine.execEvtTrigPin low high s
  | .segmentFreeze seg => Sys2Proof.Machine.execSegmentFreeze seg s
  | .censusLatch busy => Sys2Proof.Machine.execCensusLatch busy s
  | .legacyLinkUp port forced needs => Sys2Proof.Machine.execLegacyLinkUp port forced needs s
  | .legacyFrameReceived port bytes errored => Sys2Proof.Machine.execLegacyFrameReceived port bytes errored s
  | .herderRunningAgain => Sys2Proof.Machine.execHerderRunningAgain s
  | .freezeRecordRead pc => Sys2Proof.Machine.execFreezeRecordRead pc s
  | .configurationWrite d3hot msixEn funcMask => Sys2Proof.Machine.execConfigurationWrite d3hot msixEn funcMask s
  | .controlPortLinkUp => Sys2Proof.Machine.execControlPortLinkUp s
  | .debuggerAttach => Sys2Proof.Machine.execDebuggerAttach s
  | .debuggerDetach => Sys2Proof.Machine.execDebuggerDetach s
  | .trvHeaderDiscard port hdr => Sys2Proof.Machine.execTrvHeaderDiscard port hdr s

end Sys2Proof.Machine
end

