-- ==== Sys2Proof/Machine/Step.lean ====
section
/-!
DEFINITION. The step of the block: the command at the front of the queue is executed on the state with the rest of the queue. On
an empty queue one cycle of LREFCLK passes (DESIGN CHOICE; see log entry 8).
-/
namespace Sys2Proof.Machine

/-- One cycle of LREFCLK, 6.4 ns: DEV_TIME goes on (R356), and nothing else. -/
def State.tick (s : State) : State := s.withAo { s.ao with time10 := s.ao.time10 + 64 }

/-- One step. -/
def step (s : State) : Host.Outcome State Fault Refusal :=
  match s.pending with
  | [] => .next s.tick
  | c :: cs => exec c (s.withPending cs)

/-- The state with the command that a word spells put at the front of its queue; no word spells one. -/
def State.withFetchWord (s : State) (nbits w : Nat) : State :=
  match decodeTableWord nbits w with
  | some c => s.withPending (c :: s.pending)
  | none => s

end Sys2Proof.Machine
end

