-- ==== Sys2Proof/Safety.lean ====
section
/-!
DEFINITION. What statements speak of: the canonical form of the registers and of the stack's cells, and the groups of registers
that frames name.
-/
namespace Sys2Proof.Machine

/-- The canonical form of the stack's cells: addresses strictly rising, and no entry equal to what an unlisted one reads as. -/
def Memory.wf (m : List Host.Cell) : Bool := Tbl.wf (fun _ => 0) m

/-- The registers, the stack's data bytes and its check bits are in canonical form. -/
def State.canon (s : State) : Bool :=
  Tbl.wf (resetWord s.part) s.regs && Memory.wf s.dram && Memory.wf s.chk

/-- Groups of BAR0 registers (Table 17-7), by the chapter that gives them. -/
inductive RegGroup where
  /-- The DEV block's own registers: fold, firmware, reset, time, BAR2 window. -/
  | dev
  /-- The MSI-X table and pending bits. -/
  | msix
  /-- The staging buffer of fold images. -/
  | stage
  /-- Event status and causes. -/
  | evt
  /-- Event masks, routes and the values that the device computes from them. -/
  | evtCfg
  /-- The command mailbox. -/
  | cmd
  /-- A port's mode, negotiation, link and partner registers (chapter 4). -/
  | portLink
  /-- A port's ILM registers (chapter 3). -/
  | portIlm
  /-- A port's paddock registers (chapter 5). -/
  | portPad
  /-- A port's Traverse and bell registers (chapter 7). -/
  | portTrv
  /-- A port's calibration and diagnostics registers (chapter 8). -/
  | portCal
  /-- A port's SNR and loading tables. -/
  | portTone
  /-- DSP slice map and flock registers. -/
  | slices
  /-- A channel's state and controller counters (chapter 9). -/
  | memCtl
  /-- A channel's integrity registers (chapter 10). -/
  | memInteg
  /-- Freeze records. -/
  | freezeRec
  /-- Stack training. -/
  | memTrain
  /-- Stack calibration. -/
  | memCal
  /-- The fabric: stack layout, partitions, paddock grains. -/
  | fab
  /-- Host lanes. -/
  | lane
  /-- Clocks. -/
  | clk
  /-- Power states. -/
  | pwr
  /-- Drover. -/
  | drv
  /-- Heat. -/
  | thm
  /-- Calibration at large. -/
  | cal
  /-- Position. -/
  | pos
  /-- The piste map. -/
  | piste
  /-- The census. -/
  | cen
  /-- Evidence rings. -/
  | evid
  /-- Security. -/
  | sec
  /-- Self-test. -/
  | tst
  /-- No block. -/
  | other
  deriving DecidableEq, Repr

/-- The group of the register at an offset. -/
def regGroup (off : Nat) : RegGroup :=
  if off < 0x400000 then
    if off < 0x10000 then .dev else if off < 0x40000 then .msix else if off < 0x100000 then .stage
    else if off < 0x200000 then
      if off < 0x100040 then .evt else if off < 0x100200 then .evtCfg else if off < 0x100400 then .evt else .evtCfg
    else .cmd
  else if off < 0x600000 then
    if off % 0x20000 < 0x400 then .portLink else if off % 0x20000 < 0x600 then .portIlm
    else if off % 0x20000 < 0x800 then .portPad else if off % 0x20000 < 0xA00 then .portTrv
    else if off % 0x20000 < 0x8000 then .portCal else .portTone
  else if off < 0x800000 then .slices
  else if off < 0x900000 then
    if off % 0x10000 < 0x400 then .memCtl else if off % 0x10000 < 0x1000 then .memInteg
    else if off % 0x10000 < 0x2000 then .freezeRec else if off % 0x10000 < 0x3000 then .memTrain else .memCal
  else if off < 0xB00000 then
    if off < 0xA00000 then .fab else .lane
  else if off < 0xC00000 then
    if off < 0xB01000 then .clk else if off < 0xB02000 then .pwr else if off < 0xB02800 then .drv
    else if off < 0xB03000 then .thm else .cal
  else if off < 0xE00000 then
    if off < 0xC00100 then .pos else if off < 0xD00000 then .piste else if off < 0xD10000 then .cen else .evid
  else if off < 0x1000000 then
    if off < 0xF00000 then .sec else .tst
  else .other

/-- Every register word outside some groups is as it was. -/
def WordsKept (gs : List RegGroup) (s t : State) : Prop := ∀ a, regGroup a ∉ gs → t.word a = s.word a

/-- The fields of the state beside the part, the registers and the queue; DEV_TIME apart from the rest of its domain. -/
inductive Field where
  | latch | nv | ao | time | fold | box | sec | evt | pci | mdio | cen | evid | pch | bank | line | pad | lane | trv
  | drv | apply | pos | piste | cal | diag | clk | start | tst | thm | dram | chk | herder | pwr | pins | out | freeCtr
  deriving DecidableEq, Repr

/-- The field is in `t` as it was in `s`. -/
def Field.same (s t : State) : Field → Prop
  | .latch => t.latch = s.latch
  | .nv => t.nv = s.nv
  | .ao => t.ao = { s.ao with time10 := t.ao.time10 }
  | .time => t.ao.time10 = s.ao.time10
  | .fold => t.fold = s.fold
  | .box => t.box = s.box
  | .sec => t.sec = s.sec
  | .evt => t.evt = s.evt
  | .pci => t.pci = s.pci
  | .mdio => t.mdio = s.mdio
  | .cen => t.cen = s.cen
  | .evid => t.evid = s.evid
  | .pch => t.pch = s.pch
  | .bank => t.bank = s.bank
  | .line => t.line = s.line
  | .pad => t.pad = s.pad
  | .lane => t.lane = s.lane
  | .trv => t.trv = s.trv
  | .drv => t.drv = s.drv
  | .apply => t.apply = s.apply
  | .pos => t.pos = s.pos
  | .piste => t.piste = s.piste
  | .cal => t.cal = s.cal
  | .diag => t.diag = s.diag
  | .clk => t.clk = s.clk
  | .start => t.start = s.start
  | .tst => t.tst = s.tst
  | .thm => t.thm = s.thm
  | .dram => t.dram = s.dram
  | .chk => t.chk = s.chk
  | .herder => t.herder = s.herder
  | .pwr => t.pwr = s.pwr
  | .pins => t.pins = s.pins
  | .out => t.out = s.out
  | .freeCtr => t.freeCtr = s.freeCtr

/-- The frame of a step from `s` to `t`: the part, the queue, every field but those of `fs`, and every register outside the groups
`gs` are as they were. -/
def Kept (fs : List Field) (gs : List RegGroup) (s t : State) : Prop :=
  t.part = s.part ∧ t.pending = s.pending ∧ (∀ f, f ∉ fs → f.same s t) ∧ WordsKept gs s t

/-- The host's accesses reach BAR0 and BAR2 (R304). -/
def State.barOpen (s : State) : Prop := s.coreOn = true ∧ s.pci.perst = false ∧ s.pci.d3hot = false

/-- The word at a BAR0 offset answers the host (R304, R305, R395): BAR0 is open, the part is not in END, and no clock hold closes the
offset's block. -/
def State.answers (s : State) (off : Nat) : Prop := s.barOpen ∧ s.lc ≠ 4 ∧ s.holdCloses off = false

/-- A host's write of the register word at an offset sets its fields by their access types (Table 0-6): the words whose write does
otherwise have rows or statements of their own. -/
def plainOffset (off : Nat) : Bool :=
  !([A.DEV_RESET_CTRL, A.CMD_SUBMIT, A.CMD_CQ_CONS, A.SEC_SESS_CTRL, A.SEC_KEY_CTRL, A.SEC_ID_CTRL, A.TST_MAN_CTRL].contains off ||
    [A.EVT_STATUS 0, A.EVT_MASK 0, A.EVT_FORCE 0].any (fun a => (arrayWord a 10 off).isSome) ||
    (strideIdx (A.PISTE_ENTRY 0 0) 4 131072 off).isSome || (strideIdx (A.CEN_SEL 0) 4 312 off).isSome ||
    (strideIdx (A.EVID_RING_CFG 0) 4 64 off).isSome || [A.PORT_MODE 0, A.PORT_BELL_CMD 0].any (fun a => (strideIdx a 0x20000 16 off).isSome) ||
    (arrayWord (A.PISTE_PORT 0) 16 off).isSome || (customAt off).isSome || (trimAt off).isSome)

/-- A write of a plain word on which no other register waits: those that do are the wheel (R157), PWR_TIMER (R334), CEN_CFG, PORT_ILM_CTRL
and HL_CFG. -/
def quietOffset (off : Nat) : Bool :=
  plainOffset off && !([A.POS_WHEEL, A.PWR_TIMER, A.CEN_CFG].contains off || (strideIdx (A.PORT_ILM_CTRL 0) 0x20000 16 off).isSome ||
    (strideIdx (A.HL_CFG 0) 0x1000 16 off).isSome)

/-- The word of a row whose register a host's read takes as it is shown: no piste entry, no counter that the device measures, and neither
HL_STATUS nor CLK_HOLD_TIME, whose reads have statements of their own. -/
def plainRead (off : Nat) : Bool :=
  !((strideIdx (A.PISTE_ENTRY 0 0) 4 131072 off).isSome || measuredReg off || (strideIdx (A.HL_STATUS 0) 0x1000 16 off).isSome ||
    off = A.CLK_HOLD_TIME)

/-- The word at an offset is word `w` of the register row `r`, and belongs to a resource that the part has (R1, R2). -/
def State.mapped (s : State) (off : Nat) (r : RegRow) (w : Nat) : Prop :=
  s.absentBlock off = false ∧ regAt off = some (r, w) ∧ s.present r.kind (r.firstIndex off) = true

/-- Field `f` of the word at an offset after a write of `v`, by its access type (R9): W1S sets and W1C clears the bits written as 1;
RW takes the value, RWI in a session for it, and RWM in a session of the maker's that may; the rest keep theirs. -/
def State.fieldAfter (s : State) (off w : Nat) (v : Word) (f : FieldRow) (t : State) : Prop :=
  let old := s.word off &&& f.mask w
  let new := v &&& f.mask w
  t.word off &&& f.mask w = match f.acc with
    | .rw => new
    | .rwi => if s.may 2 then new else old
    | .rwm => if s.may 3 && s.mayTst off then new else old
    | .w1s => old ||| new
    | .w1c => old &&& ~~~new
    | .ro => old
    | .wo => old
    | .rc => old

/-- From `s` to `t` the command in slot `k` has ended (R312, R313, Table 11-6): its record stands at the producer's place with its
handle, a status, a DETAIL and result words 1 to 7, CMD_CQ_PROD counts it, the slot is done, and CMD_DONE is raised. -/
structure Completed (k status detail : Nat) (res : List Nat) (s t : State) : Prop where
  slot : t.slotState k = 3
  prod : t.get F.CMD_CQ_PROD_COUNT = (s.get F.CMD_CQ_PROD_COUNT + 1) % 2 ^ 32
  head : t.word (A.CMD_CQ (s.get F.CMD_CQ_PROD_COUNT) 0) =
    BitVec.ofNat 32 (s.get (F.CMD_SLOT_STATE_HANDLE k) * 65536 + status * 256 + detail % 256)
  words : ∀ i, i < 7 → t.word (A.CMD_CQ (s.get F.CMD_CQ_PROD_COUNT) (i + 1)) = BitVec.ofNat 32 (res.getD i 0)
  event : t.coreOn = true → t.isPending Ev.cmdDone = true

/-- From `s` to `t` the command in slot `k` has ended, and its record is the last in the queue: other commands may have ended
before it on the way. -/
structure CompletedLast (k status detail : Nat) (res : List Nat) (s t : State) : Prop where
  slot : t.slotState k = 3
  head : t.word (A.CMD_CQ ((t.get F.CMD_CQ_PROD_COUNT + (2 ^ 32 - 1)) % 2 ^ 32) 0) =
    BitVec.ofNat 32 (s.get (F.CMD_SLOT_STATE_HANDLE k) * 65536 + status * 256 + detail % 256)
  words : ∀ i, i < 7 → t.word (A.CMD_CQ ((t.get F.CMD_CQ_PROD_COUNT + (2 ^ 32 - 1)) % 2 ^ 32) (i + 1)) = BitVec.ofNat 32 (res.getD i 0)
  event : t.coreOn = true → t.isPending Ev.cmdDone = true

/-- The reset with a cause finds BIST failing: of the always-on domain's part after a power-on reset only (R361). -/
def bistFails (b : Boot) (cause : Nat) : Prop := (if cause = 1 then b.bist.toNat else b.bist.toNat / 2 * 2) ≠ 0

/-- The device went from `s` through a reset with a cause of Table 13-6, and the start that follows, to `t`. `keep`: the stack
keeps its contents. -/
structure Restarted (cause : Nat) (keep : Bool) (b : Boot) (s t : State) : Prop where
  /-- Every command has ended, without a completion (R314). -/
  slots : (∀ k, t.slotState k = 0) ∧ t.get F.CMD_CQ_PROD_COUNT = 0 ∧ t.get F.CMD_CQ_CONS_COUNT = 0 ∧ t.box = {}
  /-- These groups hold their reset values, but for what the NV store and, over any other reset than power-on, the always-on
  domain holds. -/
  words : ∀ a, regGroup a ∈ [.msix, .stage, .cmd, .portTrv, .portTone, .freezeRec, .thm, .pwr] →
    t.word a = (s.word a &&& keptMask (decide (cause = 1)) a) ||| (resetWord s.part a &&& ~~~keptMask (decide (cause = 1)) a)
  /-- Sessions and challenges end; the life cycle state stays (R385). -/
  session : t.role = 0 ∧ t.sec = {} ∧ t.lc = s.lc
  /-- DEV_TIME runs on, but begins afresh at power-on (R356, R361). -/
  time : t.ao.time10 = if cause = 1 then 600000000 else s.ao.time10 + 599000000
  gens : t.ao.gens = if cause = 1 ∨ cause = 5 then [] else s.ao.gens
  causes : cause = 1 ∨ s.pwr.held ≠ 2 ∧ s.pwr.held ≠ 4 → t.get F.DEV_RESET_CAUSE_CAUSE = cause ∧
    t.get F.DEV_RESET_CAUSE_SEEN = 2 ^ (cause - 1) ∧
    t.get F.DEV_RESET_CAUSE_COUNT = if cause = 1 then 0 else (s.get F.DEV_RESET_CAUSE_COUNT + 1) % 65536
  core : t.latch = [] ∧ t.mdio = {} ∧ t.trv = [] ∧ t.apply = {} ∧ t.piste = {} ∧ t.diag = [] ∧ t.thm = {} ∧ t.pwr.mode = 0 ∧
    t.pwr.entry = 0 ∧ t.pci.perst = s.pci.perst
  epoch : t.nv.epoch = if cause = 1 then (s.nv.epoch + 1) % 65536 else s.nv.epoch
  /-- What the NV store keeps where no erasure is pending. -/
  nv : s.flag F.SEC_STATE_PENDING = false → t.nv.keys = s.nv.keys ∧ t.nv.foldSlots = s.nv.foldSlots ∧ t.nv.fwSlots = s.nv.fwSlots ∧
    t.nv.fwVer = s.nv.fwVer ∧ t.nv.piste = s.nv.piste ∧ t.nv.makerKey = s.nv.makerKey ∧ t.nv.idPriv = s.nv.idPriv
  bist : bistFails b cause → t.pwr.held = 1 ∧ t.pins.bistFail = true ∧ t.pci.link = false
  passed : ¬ bistFails b cause → t.pci.link = !s.pci.perst ∧ t.flag F.TST_BIST_RESULT_PASS = true ∧
    t.flag F.SEC_STATE_PENDING = false ∧ (s.flag F.SEC_STATE_PENDING = false → t.herder.running = s.fwChoice.isSome)
  /-- LREFCLK judged: the start ends and DEV_RESET is raised; otherwise it waits in clock hold on the IRO (R362). -/
  ended : ¬ bistFails b cause → b.lref = true → t.pwr.held = 0 ∧ t.get F.CLK_STATUS_STATE = 0 ∧ t.flag F.CLK_STATUS_LREF_GOOD = true ∧
    t.isPending Ev.devReset = true
  waits : ¬ bistFails b cause → b.lref = false → t.pwr.held = 4 ∧ t.get F.CLK_STATUS_STATE = 2
  /-- Until a fold is applied, the stack holds what it held, or nothing (R265, R359). -/
  stack : bistFails b cause ∨ s.flag F.SEC_STATE_PENDING = false ∧ b.lref = false →
    (keep = true → t.dram = s.dram ∧ t.chk = s.chk) ∧
    (keep = false → t.dram = [] ∧ t.chk = [] ∧ ∀ pc bank row, (t.bk pc bank).rowFilled row = false)

/-- A wake is on record in `t` that was not in `s`: its source, port, the state it left, and whether it was replayed (R332). -/
structure WakeNoted (src port frm : Nat) (replayed : Bool) (s t : State) : Prop where
  last : t.get F.PWR_LAST_WAKE_SRC = src ∧ t.get F.PWR_LAST_WAKE_PORT = port ∧ t.get F.PWR_LAST_WAKE_FROM = frm ∧
    t.flag F.PWR_LAST_REPLAYED = replayed
  count : t.get F.PWR_WAKES_COUNT = min (2 ^ 32 - 1) (s.get F.PWR_WAKES_COUNT + 1)
  /-- The XS716 pushes the wake into its history of 16. -/
  hist : s.part = .xs716 → t.get (F.PWR_WAKE_HIST_TIME_MS 0) = s.time / 1000000 % 2 ^ 32 ∧
    t.word (A.PWR_WAKE_HIST_W1 0) = BitVec.ofNat 32 (src + 256 * port + 4096 * frm + 32768 * b2n replayed) ∧
    ∀ k, k < 15 → t.word (A.PWR_WAKE_HIST (k + 1)) = s.word (A.PWR_WAKE_HIST k) ∧
      t.word (A.PWR_WAKE_HIST_W1 (k + 1)) = s.word (A.PWR_WAKE_HIST_W1 k)
  event : t.isPending Ev.pwrWake = true

/-- What a recognised wake of a source does, from `s` to `t` (R330 to R332, R335, R425, Table 12-4). -/
structure Wakes (src port : Nat) (boot : Boot) (s t : State) : Prop where
  /-- A source that is not enabled, or a device held in reset, takes no wake. -/
  off : (s.get F.PWR_WAKE_EN_ENABLE).testBit (src - 1) = false ∨ s.pwr.held ≠ 0 → t = s
  /-- During an entry and in the least off time the first wake is latched. -/
  latched : (s.get F.PWR_WAKE_EN_ENABLE).testBit (src - 1) = true → s.pwr.held = 0 →
    s.pwr.entry ≠ 0 ∨ 2 ≤ s.pwr.mode ∧ s.pwr.offHold = true →
    t.pwr.latched = some (s.pwr.latched.getD (src, port)) ∧
      (s.pwr.latched = none → t.flag F.PWR_MODE_WAKE_LATCHED = true) ∧ Kept [.pwr] [.pwr] s t
  /-- In Run, and in a return from Pen, there is no state to leave. -/
  awake : s.pwr.entry = 0 → (2 ≤ s.pwr.mode → s.pwr.offHold = false) → s.pwr.mode = 0 ∨ s.pwr.begun ≠ [] → t = s
  /-- In clock hold the wake waits for its end. -/
  hold : (s.get F.PWR_WAKE_EN_ENABLE).testBit (src - 1) = true → s.pwr.held = 0 → s.pwr.entry = 0 → s.pwr.begun = [] → s.pwr.mode = 1 →
    s.get F.CLK_STATUS_STATE ≠ 0 → t.clk.wake = some (s.clk.wake.getD (src, port)) ∧ Kept [.clk] [] s t
  /-- Drowse: back in Run. -/
  drowse : (s.get F.PWR_WAKE_EN_ENABLE).testBit (src - 1) = true → s.pwr.held = 0 → s.pwr.entry = 0 → s.pwr.begun = [] → s.pwr.mode = 1 →
    s.get F.CLK_STATUS_STATE = 0 → WakeNoted src port 1 false s t ∧ t.pwr.mode = 0 ∧ t.get F.PWR_MODE_STATE = 0 ∧
      Kept [.evt, .cen, .out, .pwr, .pins] [.evt, .pwr, .drv] s t
  /-- Pen: the core rail rises, which is step 1 of the return. -/
  pen : (s.get F.PWR_WAKE_EN_ENABLE).testBit (src - 1) = true → s.pwr.held = 0 → s.pwr.entry = 0 → s.pwr.begun = [] → s.pwr.mode = 2 →
    s.pwr.offHold = false → WakeNoted src port 2 false s t ∧ t.pins.enCore = true ∧ t.pwr.begun = [(1, s.time)] ∧
      t.pwr.latched = none ∧ Kept [.evt, .cen, .out, .pwr, .pins] [.evt, .pwr] s t
  /-- Winter: the cold start. -/
  winter : (s.get F.PWR_WAKE_EN_ENABLE).testBit (src - 1) = true → s.pwr.held = 0 → s.pwr.entry = 0 → s.pwr.begun = [] → s.pwr.mode = 3 →
    s.pwr.offHold = false → ∃ u, WakeNoted src port 3 false s u ∧ Kept [.evt, .cen, .out] [.evt, .pwr] s u ∧
      Restarted 5 false boot u t

/-- A power state entry under way in `s` is refused with a code: what it did is undone (R329). -/
structure EntryRefused (code : Nat) (s t : State) : Prop where
  undone : t.pwr.entry = 0 ∧ t.flag F.PWR_MODE_ENTERING = false ∧ t.pwr.gate = none ∧ t.clk.gates = 0
  record : t.get F.PWR_LAST_REFUSER = code ∧ t.flag F.PWR_LAST_ABORTED = true ∧
    t.get (F.PWR_REFUSE_CNT_COUNT code) = min (2 ^ 32 - 1) (s.get (F.PWR_REFUSE_CNT_COUNT code) + 1)
  event : s.coreOn = true → t.isPending Ev.pwrRefused = true
  /-- Its command completes. -/
  done : s.slotState s.pwr.slot = 2 → CompletedLast s.pwr.slot stRefused code [0, s.pwr.drained, t.pwr.discarded] s t
  kept : t.part = s.part ∧ t.pending = s.pending ∧ t.nv = s.nv ∧ t.fold = s.fold ∧ t.sec = s.sec ∧ t.pos = s.pos ∧ t.thm = s.thm ∧
    t.mdio = s.mdio

/-- The device went from `s` to a reset with cause CLOCK_LOSS, held until LREFCLK is seen (R350, R352). -/
structure HeldForClock (s t : State) : Prop where
  held : t.pwr.held = 2 ∧ t.get F.CLK_STATUS_STATE = 3
  mailbox : (∀ k, t.slotState k = 0) ∧ t.get F.CMD_CQ_PROD_COUNT = 0 ∧ t.get F.CMD_CQ_CONS_COUNT = 0 ∧ t.box = {}
  session : t.role = 0 ∧ t.sec = {} ∧ t.lc = s.lc
  cause : s.pwr.held = 0 → t.get F.DEV_RESET_CAUSE_CAUSE = 4 ∧ t.get F.DEV_RESET_CAUSE_COUNT = (s.get F.DEV_RESET_CAUSE_COUNT + 1) % 65536
  kept : t.part = s.part ∧ t.pending = s.pending ∧ t.nv = s.nv ∧ t.dram = s.dram ∧ t.chk = s.chk ∧ t.ao.gens = s.ao.gens

/-- One kind of sensor as readings leave it (R343, R344): a present sensor that is named shows its last reading and is valid, one
that fails its self-check is FAILED, and every other shows what it showed. -/
structure SensorsRead (base : Bool) (l : List (BitVec 5 × Option (BitVec 16))) (s t : State) : Prop where
  word : ∀ k, k < (if base then 24 else 16) → s.hasSensor base k = false →
    s.flag ⟨if base then A.THM_BASE k else A.THM_CORE k, 31, 1⟩ = false → t.word (if base then A.THM_BASE k else A.THM_CORE k) =
    s.word (if base then A.THM_BASE k else A.THM_CORE k)
  valid : ∀ k, s.hasSensor base k = true → (∃ e ∈ l, e.1.toNat = k) → t.flag ⟨if base then A.THM_BASE k else A.THM_CORE k, 31, 1⟩ = true
  temp : ∀ k, s.hasSensor base k = true → t.get ⟨if base then A.THM_BASE k else A.THM_CORE k, 0, 16⟩ =
    match (l.filter fun e => decide (e.1.toNat = k) && e.2.isSome).getLast? with
    | some (_, some v) => v.toNat
    | _ => s.get ⟨if base then A.THM_BASE k else A.THM_CORE k, 0, 16⟩
  failed : ∀ k, s.hasSensor base k = true → (∃ e ∈ l, e.1.toNat = k ∧ e.2 = none) →
    t.flag ⟨if base then A.THM_BASE k else A.THM_CORE k, 30, 1⟩ = true ∧
    (s.coreOn = true → s.flag ⟨if base then A.THM_BASE k else A.THM_CORE k, 30, 1⟩ = false → t.isPending Ev.thmSensorFail = true)

/-- Port `n` may negotiate: the herder can start links, and the port is present, enabled, has a mode and auto-negotiates. -/
def State.negotiates (s : State) (n : Nat) : Prop :=
  s.starts = true ∧ n < s.nPorts ∧ s.flag (F.PORT_MODE_ENABLE n) = true ∧ s.flag (F.PORT_MODE_AN_EN n) = true ∧ s.pModes n ≠ 0

/-- The port and the lot header of a codeword that went out; none for any other output. -/
def Output.lot : Output → Option (Nat × Bytes)
  | .codeword n h _ => some (n, h)
  | _ => none

/-- The header of the last lot that went out on port `n`. -/
def State.lastLot (s : State) (n : Nat) : Bytes := ((s.out.findSome? Output.lot).bind fun e => if e.1 = n then some e.2 else none).getD []

/-- The port and the header of a Traverse burst that went out; none for any other output. -/
def Output.sentBurst : Output → Option (Nat × Bytes)
  | .burst n h _ => some (n, h)
  | _ => none

/-- The header of the last burst that went out on port `n`. -/
def State.lastBurst (s : State) (n : Nat) : Bytes :=
  ((s.out.findSome? Output.sentBurst).bind fun e => if e.1 = n then some e.2 else none).getD []

/-- From `s` to `t` the link of port `n` went down with a cause (R118, Table 4-7). -/
structure WentDown (n cause : Nat) (s t : State) : Prop where
  up : t.up n = false
  mode : t.mode n = 0
  cause : t.get (F.PORT_LINK_STATUS_DOWN_CAUSE n) = cause
  downs : t.get (F.PORT_LINK_DOWNS_COUNT n) = min (2 ^ 32 - 1) (s.get (F.PORT_LINK_DOWNS_COUNT n) + 1)
  event : s.coreOn = true → n < s.nPorts → t.isPending (Ev.portLinkDown n) = true
  quiet : (t.ln n).streaming = false ∧ (t.ln n).pend = [] ∧ (t.ln n).service = none

/-- The acknowledgement of an EOC message, as bytes of the stream (R107). -/
def ackBytes (typ seq : Nat) : Bytes :=
  Eoc.bytes { typ := 0x01, noack := true, body := [BitVec.ofNat 8 seq, BitVec.ofNat 8 typ] } false

/-- Message `typ` with number `seq` arrives in order on port `n`: the channel is open and expects that number (R107). -/
def State.inOrder (s : State) (n seq : Nat) : Prop := s.eocOpen n = true ∧ (s.ln n).eocExp = seq

/-- From `s` to `t` the message was taken in order: the next number is expected, and the acknowledgement is on the stream. -/
def Acked (n typ seq : Nat) (s t : State) : Prop :=
  (t.ln n).eocExp = (seq + 1) % 256 ∧ (s.ln n).eocQ ++ ackBytes typ seq <+: (t.ln n).eocQ

/-- What arrives on the pairs and the host lanes, and the times that run with their links. -/
def linkEvent : Instr → Bool
  | .symbolReceived .. => true
  | .erasureEventEnd .. => true
  | .superframeBoundary .. => true
  | .serviceStart .. => true
  | .codewordSlot .. => true
  | .lotReceived .. => true
  | .ackWord .. => true
  | .nakWord .. => true
  | .nakWaitExpiry .. => true
  | .swapAnnounce .. => true
  | .swapConfirm .. => true
  | .swapReject .. => true
  | .swapCancel .. => true
  | .swapConfirmDeadline .. => true
  | .loadingChangeAtS .. => true
  | .bitSwapRequest .. => true
  | .profileSwapAnnounce .. => true
  | .toneCapAnnounce .. => true
  | .vectorJoinEnd .. => true
  | .msgAck .. => true
  | .eocResendTimeout .. => true
  | .eocReservedMsg .. => true
  | .trainSync .. => true
  | .trainStart .. => true
  | .warmCheck .. => true
  | .linkDown .. => true
  | .status .. => true
  | .lpiEnter .. => true
  | .lpiWake .. => true
  | .rateCap .. => true
  | .loadingUpdate .. => true
  | .capUpdate .. => true
  | .customDef .. => true
  | .vecError .. => true
  | .ident .. => true
  | .identProof .. => true
  | .padParams .. => true
  | .padResume .. => true
  | .padVoid .. => true
  | .pisteLead .. => true
  | .anComplete .. => true
  | .trainingPhaseEnd .. => true
  | .trainingPhaseLate .. => true
  | .partnerWaitTimeout .. => true
  | .partnerSignalDetected .. => true
  | .warmCheckTimeout .. => true
  | .warmHoldExpiry .. => true
  | .lossOfSync .. => true
  | .marginDownTimeout .. => true
  | .marginLowTimeout .. => true
  | .echoLowTimeout .. => true
  | .legacyLinkFail .. => true
  | .legacyLinkUp .. => true
  | .legacyFrameReceived .. => true
  | .ilmSuppressExpiry .. => true
  | .lpiIdleTimeout .. => true
  | .legacyLpiIdle .. => true
  | .drainEnd .. => true
  | .linkreq .. => true
  | .linkacc .. => true
  | .linkcfm .. => true
  | .dataBurst .. => true
  | .tokenBurst .. => true
  | .identBurst .. => true
  | .proofBurst .. => true
  | .leave .. => true
  | .preambleDetected .. => true
  | .falseDetection .. => true
  | .shadowRestart .. => true
  | .burstTruncated .. => true
  | .trvHeaderDiscard .. => true
  | .turnStart .. => true
  | .tokenReclaim .. => true
  | .linkreqRetry .. => true
  | .acquisitionTimeout .. => true
  | .trvLossTimeout .. => true
  | .searchExpiry .. => true
  | .trvAfterExpiry .. => true
  | .hostFrameReceived .. => true
  | .hostPauseFrame .. => true
  | .hostPauseExpiry .. => true
  | .xoffRefresh .. => true
  | .laneLoss .. => true
  | .laneRelock .. => true
  | _ => false

end Sys2Proof.Machine
end

