-- ==== Sys2Proof/Certificates/Slice0/Obligations.lean ====
section
/-!
DEFINITION. The statements for the provers.
-/
open Sys2Proof Sys2Proof.Machine

/-- A step runs the command at the front of the queue, on the state with the queue's rest; on an empty queue one cycle of LREFCLK
passes (the model's choice, log entry 8). -/
def Obligations.StepRunsTheFrontCommand : Prop :=
  (∀ (c : Instr) (cs : List Instr) (s : State), s.pending = c :: cs → step s = exec c (s.withPending cs)) ∧
  ∀ s : State, s.pending = [] → step s = .next { s with ao := { s.ao with time10 := s.ao.time10 + 64 } }

/-- A command's effect is on everything but the queue, and never on which part the device is. -/
def Obligations.CommandsLeaveQueueAndPart : Prop :=
  ∀ (c : Instr) (s t : State), exec c s = .next t → t.pending = s.pending ∧ t.part = s.part

/-- The invariant of `CanonicalFormIsKept` holds at reset. -/
def Obligations.CanonicalFormAtReset : Prop := State.reset.canon = true

/-- Every step keeps the canonical form of the registers, of the stack's cells and of its check bits. -/
def Obligations.CanonicalFormIsKept : Prop :=
  ∀ s t : State, s.canon = true → step s = .next t → t.canon = true

/-- DEV_TIME never runs backward; it is continuous through every reset except power-on. -/
def Obligations.DeviceTimeNeverRunsBackward : Prop :=
  ∀ s t : State, (∀ b : Boot, s.pending.head? ≠ some (.powerOnReset b)) → step s = .next t → s.ao.time10 ≤ t.ao.time10

/-- What arrives on the pairs and the host lanes touches neither security nor configuration. -/
def Obligations.LinkEventsCannotReachSecurity : Prop :=
  ∀ (c : Instr) (s t : State), linkEvent c = true → exec c s = .next t →
    t.nv = s.nv ∧ t.sec = s.sec ∧ t.fold = s.fold ∧ t.pci = s.pci ∧ t.box = s.box ∧ t.mdio = s.mdio ∧ t.herder = s.herder ∧
    t.clk = { s.clk with pll := t.clk.pll } ∧ t.start = s.start ∧ t.pos = s.pos ∧ t.thm = s.thm ∧
    ∀ a, regGroup a ∈ [.dev, .msix, .stage, .evtCfg, .clk, .thm, .pwr, .pos, .cen, .sec] → t.word a = s.word a

/-- A submission into the lowest free slot (R310), with the slot's next generation in its handle (R311). -/
def Obligations.SubmitTakesLowestFreeSlot : Prop :=
  ∀ (v : Word) (s : State), s.barOpen → s.lc ≠ 4 →
    (∀ k, k < 64 → s.slotState k = 0 → (∀ j, j < k → s.slotState j ≠ 0) →
      ∃ t, exec (.cmdSubmit v) s = .next t ∧
        t.slotState k = 1 ∧ t.slotOp k = v.toNat % 256 ∧
        t.get (F.CMD_SLOT_STATE_HANDLE k) = k * 1024 + (Tbl.get s.ao.gens 0 k % 1023 + 1) ∧
        t.get F.CMD_ACCEPT_RESULT = 0 ∧
        t.get F.CMD_ACCEPT_HANDLE = k * 1024 + (Tbl.get s.ao.gens 0 k % 1023 + 1) ∧
        Tbl.get t.ao.gens 0 k = Tbl.get s.ao.gens 0 k % 1023 + 1 ∧
        (∀ i, i < 8 → t.param k i = (s.word (A.CMD_PARAM i)).toNat) ∧ (t.slot k).role = s.role ∧
        (∀ a, a ≠ A.CMD_SLOT_STATE k → a ≠ A.CMD_ACCEPT → t.word a = s.word a) ∧
        (∀ j, j ≠ k → t.slot j = s.slot j) ∧
        Kept [.ao, .box] [.cmd] s t) ∧
    ((∀ k, k < 64 → s.slotState k ≠ 0) →
      ∃ t, exec (.cmdSubmit v) s = .next t ∧ t.get F.CMD_ACCEPT_RESULT = 1 ∧ t.get F.CMD_ACCEPT_HANDLE = 0 ∧
        (∀ a, a ≠ A.CMD_ACCEPT → t.word a = s.word a) ∧ Kept [] [.cmd] s t)

/-- Slots start in the order of submission while the herder runs (R312); the role and the state are checked at the start (R315). -/
def Obligations.StartTakesOldestWaiting : Prop :=
  (∀ (s : State) (k : Nat), s.herderRuns = true → s.coreOn = true → k < 64 → s.slotState k = 1 →
    (∀ j, j < 64 → s.slotState j = 1 → j ≠ k → (s.slot k).order < (s.slot j).order) →
    (s.cmdAllowed (s.slotOp k) (s.slot k).role (s.param k 0) = true →
      ∃ t, exec .cmdStart s = .next t ∧ t.slotState k = 2 ∧ t.slotOp k = s.slotOp k ∧
        (∀ a, a ≠ A.CMD_SLOT_STATE k → t.word a = s.word a) ∧ Kept [.cen] [.cmd] s t) ∧
    (s.cmdAllowed (s.slotOp k) (s.slot k).role (s.param k 0) = false →
      ∃ t, exec .cmdStart s = .next t ∧ Completed k stDenied 0 [] s t ∧ t.isPending Ev.secDenied = true ∧
        Kept [.evt, .cen, .out] [.evt, .cmd, .sec] s t)) ∧
  (∀ s : State, s.herderRuns = false → exec .cmdStart s = .next s)

/-- The host consumes records by writing CONS (R313). Record number `k` lies in entry `k mod 64`; counts are modulo 2^32. -/
def Obligations.ConsumedRecordsFreeTheirSlots : Prop :=
  ∀ (v : Word) (s : State), s.barOpen → s.lc ≠ 4 →
    let old := s.get F.CMD_CQ_CONS_COUNT
    let n := (v.toNat + 2 ^ 32 - old) % 2 ^ 32
    let held := (s.get F.CMD_CQ_PROD_COUNT + 2 ^ 32 - old) % 2 ^ 32
    let handle (i : Nat) := (s.word (A.CMD_CQ (old + i) 0)).toNat / 65536
    (n ≤ held → held ≤ 64 →
      ∃ t, exec (.cmdCqConsWrite v) s = .next t ∧ t.get F.CMD_CQ_CONS_COUNT = v.toNat ∧
        (∀ i, i < n → t.slotState (handle i / 1024) = 0) ∧
        (∀ a, a ≠ A.CMD_CQ_CONS → (∀ i, i < n → a ≠ A.CMD_SLOT_STATE (handle i / 1024)) → t.word a = s.word a) ∧
        Kept [.box] [.cmd] s t) ∧
    (held < n →
      ∃ t, exec (.cmdCqConsWrite v) s = .next t ∧ t.isPending Ev.devBadAccess = true ∧ Kept [.evt, .cen, .out] [.evt] s t)

/-- Any other opcode completes as soon as it starts, with UNKNOWN_OPCODE and no effect (R315, Table 11-5). -/
def Obligations.UnknownOpcodeCompletes : Prop :=
  ∀ (slot : BitVec 6) (s : State), s.slotState slot.toNat = 2 → (s.slot slot.toNat).begun = false →
    s.slotOp slot.toNat ∉ opcodes →
    ∃ t, exec (.unknownOpcode slot) s = .next t ∧ Completed slot.toNat stUnknown 0 [] s t ∧
      Kept [.evt, .cen, .out] [.evt, .cmd] s t

/-- SESSION_OPEN (R382 to R384). `w0` and `w1` are its parameter words. -/
def Obligations.SessionOpenJudgesTheSignature : Prop :=
  ∀ (slot : BitVec 6) (s : State), s.taken slot.toNat 0x60 = true → s.coreOn = true →
    let k := slot.toNat
    let role := s.param k 0 % 4
    let key := bits (s.param k 0) 8 3
    let dbg := bits (s.param k 0) 16 1
    let life := s.param k 1 % 65536
    let signed := ecdsaVerify (s.keyOf role key) (s.sessionMessage role key dbg life) (s.wordBytes (A.SEC_RESP 0) 16)
    let shut := role = 0 ∨ (s.lc = 3 ∧ role ≠ 3) ∨ (dbg = 1 ∧ role ≠ 3)
    let reason := if s.lockedOut then 5 else if s.sec.chal = false then 1 else if shut then 4
      else if s.keyOf role key = [] then 2 else if signed then 0 else 3
    (reason = 0 →
      ∃ t, exec (.sessionOpen slot) s = .next t ∧ Completed k stOk 0 [0, 0, s.grantLife role dbg life] s t ∧
        t.role = role ∧ t.get F.SEC_SESSION_SLOT = (if role = 3 then 0 else key) ∧ t.get F.SEC_SESSION_DEBUG = dbg ∧
        t.sec.sessEnd = s.time + s.grantLife role dbg life * 60000000000 ∧ t.sec.chal = false ∧
        t.get F.SEC_STATE_FAILS = 0) ∧
    (reason ≠ 0 →
      ∃ t, exec (.sessionOpen slot) s = .next t ∧ Completed k stDenied 0 [0, reason, 0] s t ∧
        t.word A.SEC_SESSION = s.word A.SEC_SESSION ∧ t.sec.sessEnd = s.sec.sessEnd ∧ t.sec.chal = false ∧
        t.get F.SEC_STATE_FAILS = (if reason = 5 then s.get F.SEC_STATE_FAILS else min 31 (s.get F.SEC_STATE_FAILS + 1)) ∧
        (reason ≠ 5 → 7 ≤ s.get F.SEC_STATE_FAILS →
          t.lockedOut = true ∧ t.ao.lockEnd = s.time + 60000000000 ∧ t.isPending Ev.secAuthFail = true)) ∧
    (∀ t, exec (.sessionOpen slot) s = .next t → Kept [.ao, .sec, .evt, .cen, .evid, .line, .apply, .herder, .out] [.evt, .cmd, .evid, .sec] s t)

/-- How sessions, challenges and lockouts begin and end (R381, R384, R385, R394). -/
def Obligations.SessionsAndChallengesEnd : Prop :=
  (∀ (slot : BitVec 6) (s : State), s.taken slot.toNat 0x61 = true →
    ∃ t, exec (.sessionClose slot) s = .next t ∧ Completed slot.toNat stOk 0 [] s t ∧ t.role = 0 ∧
      (s.role ≠ 0 → s.coreOn = true → t.isPending Ev.secSessionEnd = true) ∧
      Kept [.sec, .evt, .cen, .evid, .line, .apply, .herder, .out] [.evt, .cmd, .sec] s t) ∧
  (∀ s : State, s.role ≠ 0 → s.coreOn = true → s.pwr.begun = [] ∨ s.pwr.ended.contains 4 = true →
    ∃ t, exec .sessionExpiry s = .next t ∧ t.role = 0 ∧ t.isPending Ev.secSessionEnd = true ∧
      10 * s.sec.sessEnd ≤ t.ao.time10 ∧ Kept [.sec, .evt, .cen, .evid, .line, .apply, .herder, .out, .time] [.evt, .sec] s t) ∧
  (∀ s : State, s.pwr.begun ≠ [] → s.pwr.ended.contains 4 = false → exec .sessionExpiry s = .next s) ∧
  (∀ s : State, s.barOpen → s.lc ≠ 4 →
    ∃ t, exec .newChal s = .next t ∧ t.sec.chal = true ∧ t.sec.chalTime = s.time ∧ t.freeCtr = s.freeCtr + 8 ∧
      (∀ i, i < 8 → t.word (A.SEC_CHALLENGE i) = Config.freeWord (s.freeCtr + i)) ∧
      (∀ a, (∀ i, a ≠ A.SEC_CHALLENGE i) → t.word a = s.word a) ∧ Kept [.sec, .freeCtr] [.sec] s t) ∧
  (∀ s : State, s.sec.chal = true →
    ∃ t, exec .challengeExpiry s = .next t ∧ t.sec.chal = false ∧ (∀ i, t.word (A.SEC_CHALLENGE i) = 0) ∧
      10 * (s.sec.chalTime + 60000000000) ≤ t.ao.time10 ∧ (∀ a, (∀ i, a ≠ A.SEC_CHALLENGE i) → t.word a = s.word a) ∧
      Kept [.sec, .time] [.sec] s t) ∧
  (∀ s : State, s.lockedOut = true →
    ∃ t, exec .lockoutEnd s = .next t ∧ t.lockedOut = false ∧ t.get F.SEC_STATE_FAILS = s.get F.SEC_STATE_FAILS ∧
      10 * s.ao.lockEnd ≤ t.ao.time10 ∧ (∀ a, a ≠ A.SEC_STATE → t.word a = s.word a) ∧ Kept [.time] [.sec] s t)

/-- Link-down by the partner, by loss of sync and by margin (R118, R104, R107). A drain whose port is to be enabled again after it ends with
its own statement. -/
def Obligations.LinksGoDownWithTheirCause : Prop :=
  ∀ (port : BitVec 4) (s : State), let n := port.toNat
    s.coreOn = true ∧ n < s.nPorts ∧ (s.flag (F.PORT_PAD_STATE_DRAINING n) = true → (s.pd n).reenable = false) →
    (∀ (c : BitVec 8) (warm : Bool), s.upIlm n = true →
      ∃ t, exec (.linkDown port c warm) s = .next t ∧ WentDown n 5 s t ∧
        (warm = false → (t.ln n).stored = none ∧ t.get (F.PORT_MODE_WARM_EN n) = s.get (F.PORT_MODE_WARM_EN n)) ∧
        (warm = true → s.starts = true → s.flag (F.PORT_MODE_WARM_EN n) = true → s.get (F.PORT_LINK_CFG_WARM_HOLD n) ≠ 0 →
          s.flag (F.PORT_PAD_STATE_DRAINING n) = false →
          (s.isV2 n && s.flag (F.PORT_LINK_CFG_REQUIRE_AUTH n)) = false →
          t.an n = 4 ∧ (t.ln n).holdEnd = some (s.time + 500000000 * s.get (F.PORT_LINK_CFG_WARM_HOLD n)) ∧
          (t.ln n).stored.isSome = true) ∧
        Kept [.evt, .cen, .line, .pad, .lane, .trv, .apply, .clk, .pwr, .out, .freeCtr] [.evt, .cmd, .portLink, .portIlm, .portPad, .portTrv, .portTone, .slices, .fab, .lane, .piste, .tst] s t) ∧
    (∀ c : BitVec 8, s.upIlm n = false → s.eocOpen n = true → s.negotiates n →
      ∃ t, exec (.linkDown port c false) s = .next t ∧ t.an n = 1 ∧ (t.ln n).stored = none ∧ t.get (F.PORT_LINK_STATUS_PHASE n) = 0 ∧
        t.get (F.PORT_AN_STATUS_LAST_FAIL n) = s.get (F.PORT_AN_STATUS_LAST_FAIL n) ∧ Kept [.evt, .cen, .line, .pad, .lane, .trv, .apply, .clk, .pwr, .out, .freeCtr] [.evt, .cmd, .portLink, .portIlm, .portPad, .portTrv, .portTone, .slices, .fab, .lane, .piste, .tst] s t) ∧
    (s.upIlm n = true → ∃ t, exec (.lossOfSync port) s = .next t ∧ WentDown n 2 s t ∧
      (let d := if s.zoneArmed n || s.swapped n then s.get (F.PORT_LINK_CFG_DOWN_TIME_ZONE n) else s.get (F.PORT_LINK_CFG_DOWN_TIME n)
       t.ao.time10 = max s.ao.time10 (10 * ((s.ln n).lastSync + 1000000 * max 25 (min 250 d)))) ∧
      Kept [.evt, .cen, .line, .pad, .lane, .trv, .apply, .clk, .pwr, .out, .freeCtr, .time] [.evt, .cmd, .portLink, .portIlm, .portPad, .portTrv, .portTone, .slices, .fab, .lane, .piste, .tst] s t) ∧
    (∀ d, (s.ln n).downAt = some d → s.upIlm n = true →
      ∃ t, exec (.marginDownTimeout port) s = .next t ∧ WentDown n 4 s t ∧ (t.ln n).downAt = none ∧
        t.ao.time10 = max s.ao.time10 (10 * (d + 2000000000)) ∧ Kept [.evt, .cen, .line, .pad, .lane, .trv, .apply, .clk, .pwr, .out, .freeCtr, .time] [.evt, .cmd, .portLink, .portIlm, .portPad, .portTrv, .portTone, .slices, .fab, .lane, .piste, .tst] s t)

/-- Legacy modes: link-up (R113, R5, R114), frames from the line (R19, R143), and failure (Table 4-7). -/
def Obligations.LegacyLinesComeUpAndGoDown : Prop :=
  ∀ (port : BitVec 4) (s : State), let n := port.toNat
    n < s.nPorts ∧ s.coreOn = true →
    (∀ (forced : Option (BitVec 3 × Bool)) (needs : Bool),
      (forced = none ∧ s.an n = 3) ∨ (s.an n = 7 ∧ forced = some (BitVec.ofNat 3 ((s.ln n).target - 1), !(s.ln n).slave)) →
      1 ≤ (s.ln n).target → (s.ln n).target ≤ 5 → (needs = true → (s.ln n).target ≤ 2) → s.placed n false = true →
      s.flag (F.PORT_DIAG_STATE_RUNNING n) = false →
      ∃ t, exec (.legacyLinkUp port forced needs) s = .next t ∧ t.upLegacy n = true ∧ t.mode n = (s.ln n).target ∧ t.an n = 6 ∧
        t.get (F.PORT_PARTNER_INFO_PART n) = 0 ∧ t.get (F.PORT_PARTNER_INFO_AUTH n) = 0 ∧ Kept [.evt, .cen, .line, .pad, .lane, .out] [.evt, .portLink, .portIlm, .portPad, .slices, .lane, .tst] s t) ∧
    (∀ forced : Option (BitVec 3 × Bool), 3 ≤ (s.ln n).target → exec (.legacyLinkUp port forced true) s = .next s) ∧
    (∀ (bytes : List Byte) (err : Bool) (m : Nat), s.upLegacy n = true → s.flag (F.PORT_PAD_STATE_HOST_PAUSED n) = false → (s.pd n).toHost = [] →
      s.laneOf n = some m →
      ∃ t, exec (.legacyFrameReceived port bytes err) s = .next t ∧ Output.hostFrame m bytes err ∈ t.out ∧ Kept [.evt, .cen, .evid, .pch, .bank, .line, .pad, .drv, .cal, .dram, .chk, .out, .freeCtr] [.evt, .cmd, .portPad, .portCal, .memCtl, .memInteg, .freezeRec, .memCal, .fab, .lane, .cal, .evid] s t) ∧
    (∀ (bytes : List Byte) (err : Bool), s.upLegacy n = true → s.flag (F.PORT_PAD_STATE_HOST_PAUSED n) = true →
      s.bufFill n + bytes.length ≤ 1048576 →
      ∃ t, exec (.legacyFrameReceived port bytes err) s = .next t ∧ t.flag (F.PORT_PAD_STATE_HOST_PAUSED n) = true ∧
        (t.pd n).toHost.map (fun f => f.bytes.length) = (s.pd n).toHost.map (fun f => f.bytes.length) ++ [bytes.length] ∧
        Kept [.evt, .cen, .evid, .pch, .bank, .line, .pad, .drv, .cal, .dram, .chk, .out, .freeCtr] [.evt, .cmd, .portPad, .portCal, .memCtl, .memInteg, .freezeRec, .memCal, .fab, .lane, .cal, .evid] s t) ∧
    (∀ (bytes : List Byte) (err : Bool), s.upLegacy n = true →
      s.flag (F.PORT_PAD_STATE_HOST_PAUSED n) = true ∨ (s.pd n).toHost ≠ [] → 1048576 < s.bufFill n + bytes.length →
      ∃ t, exec (.legacyFrameReceived port bytes err) s = .next t ∧ t.pd n = s.pd n ∧
        t.get (F.PORT_PAD_RX_OVF_COUNT n) = min (2 ^ 32 - 1) (s.get (F.PORT_PAD_RX_OVF_COUNT n) + 1) ∧
        t.isPending (Ev.portPadDrop n) = true ∧ Kept [.evt, .cen, .evid, .pch, .bank, .line, .pad, .drv, .cal, .dram, .chk, .out, .freeCtr] [.evt, .cmd, .portPad, .portCal, .memCtl, .memInteg, .freezeRec, .memCal, .fab, .lane, .cal, .evid] s t) ∧
    (s.upLegacy n = true →
      ∃ t, exec (.legacyLinkFail port) s = .next t ∧ WentDown n 10 s t ∧ Kept [.evt, .cen, .line, .pad, .lane, .trv, .apply, .clk, .pwr, .out, .freeCtr] [.evt, .cmd, .portLink, .portIlm, .portPad, .portTrv, .portTone, .slices, .fab, .lane, .piste, .tst] s t)

/-- The time limits of bring-up. -/
def Obligations.BringUpTimeLimits : Prop :=
  ∀ (port : BitVec 4) (s : State), let n := port.toNat
    s.negotiates n →
    (∀ p, s.get (F.PORT_LINK_STATUS_PHASE n) = p → 1 ≤ p → p ≤ 7 → s.an n = 3 →
      (p = 1 → (s.ln n).slave = true ∨ (s.ln n).locked = true) →
      ∃ t, exec (.trainingPhaseLate port) s = .next t ∧ t.an n = 1 ∧ t.get (F.PORT_LINK_STATUS_PHASE n) = 0 ∧
        t.get (F.PORT_AN_STATUS_LAST_FAIL n) =
          [3, 7, 3, 4, 4, 3, if (s.ln n).unacked = [] then 6 else 9].getD (p - 1) 0 ∧
        t.get (F.PORT_TRAIN_FAILS_COUNT n) = min (2 ^ 32 - 1) (s.get (F.PORT_TRAIN_FAILS_COUNT n) + 1) ∧
        (1 ≤ (s.ln n).fails → t.flag (F.PORT_AN_STATUS_ILM_SUPPRESSED n) = true) ∧
        10 * ((s.ln n).trainAt + 3000000) ≤ t.ao.time10 ∧ Kept [.evt, .cen, .line, .apply, .clk, .out, .freeCtr, .time] [.evt, .portLink, .portIlm, .slices, .tst] s t) ∧
    (((s.ln n).target = 6 ∨ (s.ln n).target = 7) → s.flag (F.PORT_DIAG_STATE_RUNNING n) = false → (s.an n = 2 ∨ (s.an n = 3 ∧ s.get (F.PORT_LINK_STATUS_PHASE n) = 1)) →
      ∃ t, exec (.partnerWaitTimeout port) s = .next t ∧ t.an n = 1 ∧ t.get (F.PORT_AN_STATUS_LAST_FAIL n) = 8 ∧
        t.get (F.PORT_TRAIN_FAILS_COUNT n) = s.get (F.PORT_TRAIN_FAILS_COUNT n) ∧
        t.ao.time10 = max s.ao.time10 (10 * ((s.ln n).anDone + 500000000)) ∧ Kept [.evt, .cen, .line, .pad, .apply, .clk, .out, .freeCtr, .time] [.evt, .portLink, .portIlm, .portPad, .slices, .tst] s t) ∧
    (s.an n = 5 → (s.ln n).warmChecked = false →
      ∃ t, exec (.warmCheckTimeout port) s = .next t ∧ t.an n = 1 ∧ (t.ln n).stored = none ∧
        t.get (F.PORT_WARM_FAIL_COUNT n) = min (2 ^ 32 - 1) (s.get (F.PORT_WARM_FAIL_COUNT n) + 1) ∧
        t.ao.time10 = max s.ao.time10 (10 * ((s.ln n).warmAt + 4500000)) ∧ Kept [.evt, .cen, .line, .pad, .clk, .out, .freeCtr, .time] [.evt, .portLink, .portIlm, .portPad, .slices, .tst] s t) ∧
    (∀ d, (s.ln n).holdEnd = some d → s.an n = 4 →
      ∃ t, exec (.warmHoldExpiry port) s = .next t ∧ t.an n = 1 ∧ (t.ln n).holdEnd = none ∧ (t.ln n).stored = (s.ln n).stored ∧
        t.ao.time10 = max s.ao.time10 (10 * d) ∧ Kept [.evt, .cen, .line, .pad, .out, .freeCtr, .time] [.evt, .portLink, .portPad] s t) ∧
    (s.flag (F.PORT_AN_STATUS_ILM_SUPPRESSED n) = true →
      ∃ t, exec (.ilmSuppressExpiry port) s = .next t ∧ t.flag (F.PORT_AN_STATUS_ILM_SUPPRESSED n) = false ∧ (t.ln n).fails = 0 ∧
        t.ao.time10 = max s.ao.time10 (10 * ((s.ln n).suppressAt + 60000000000)) ∧ Kept [.line, .time] [.portLink] s t)

/-- What negotiation decides (R94 to R96). `w` is the partner's ability word, `tech` its IEEE abilities. -/
def Obligations.NegotiationResolvesModeAndRoles : Prop :=
  ∀ (port : BitVec 4) (w : BitVec 32) (tech : BitVec 5) (master : Bool) (s : State), let n := port.toNat
    s.negotiates n ∧ s.an n = 1 ∧ s.flag (F.PORT_AN_STATUS_ILM_SUPPRESSED n) = false ∧
      s.flag (F.PORT_DIAG_STATE_RUNNING n) = false →
    let ver := bits w.toNat 28 4
    let theirs := if bits w.toNat 20 2 = 3 then 0 else bits w.toNat 20 2
    let own := s.ownRole n
    let seed := w.toNat % 65536
    ((s.offered n).testBit 6 = true → 3 ≤ ver → ¬ (own ≠ 0 ∧ own = theirs) → ¬ (own = 0 ∧ theirs = 0 ∧ (s.ln n).seed = seed) →
      s.placed n (w.getLsbD 27 && (s.pModes n).testBit 9) = true →
      ∃ t, exec (.anComplete port (some w) tech master) s = .next t ∧ t.an n = 2 ∧ (t.ln n).target = 7 ∧
        (t.ln n).slave = (if own = 0 ∧ theirs = 0 then decide ((s.ln n).seed < seed) else if own = 0 then decide (theirs = 1)
          else decide (own = 2)) ∧
        (t.ln n).tokenAt = some s.time ∧ t.get (F.PORT_AN_STATUS_PARTNER_VER n) = ver ∧ Kept [.line, .apply, .out, .freeCtr] [.portLink, .fab] s t) ∧
    (∀ m, m ≤ 4 → (s.offered n).testBit m = true → tech.getLsbD m = true →
      (∀ k, m < k → k ≤ 4 → ¬ ((s.offered n).testBit k = true ∧ tech.getLsbD k = true)) → s.placed n false = true →
      ∃ t, exec (.anComplete port none tech master) s = .next t ∧ t.an n = 3 ∧ (t.ln n).target = m + 1 ∧
        (t.ln n).slave = !master ∧ t.get (F.PORT_AN_STATUS_PARTNER_TECH n) = tech.toNat ∧ Kept [.line, .apply, .out, .freeCtr] [.portLink, .fab] s t) ∧
    ((∀ k, k ≤ 4 → ¬ ((s.offered n).testBit k = true ∧ tech.getLsbD k = true)) →
      ∃ t, exec (.anComplete port none tech master) s = .next t ∧ t.an n = 1 ∧ t.get (F.PORT_AN_STATUS_LAST_FAIL n) = 2 ∧
        Kept [.line, .apply, .out, .freeCtr] [.portLink, .fab] s t)

/-- The phases of cold training (Table 4-2). -/
def Obligations.ColdTrainingPhases : Prop :=
  ∀ (port : BitVec 4) (s : State), let n := port.toNat
    s.an n = 3 ∧ s.starts = true ∧ n < s.nPorts →
    (∀ (span : BitVec 16) (tones : List (BitVec 12 × BitVec 8)) (sv : BitVec 32) (p q : Nat),
      s.get (F.PORT_LINK_STATUS_PHASE n) = p → (p, q) ∈ [(1, 2), (4, 5), (5, 6)] → (p = 1 → (s.ln n).locked = true) →
      ∃ t, exec (.trainingPhaseEnd port span tones sv) s = .next t ∧ t.get (F.PORT_LINK_STATUS_PHASE n) = q ∧ t.an n = 3 ∧
        (∀ a, a ≠ A.PORT_LINK_STATUS n → t.word a = s.word a) ∧
        (p = 1 → (t.ln n).nonce = s.freeBytes 4 ∧ t.freeCtr = s.freeCtr + (if (s.ln n).ident = [] then 4 else 12) ∧ (t.ln n).identOwn.length = 94) ∧
        (p ≠ 1 → Kept [] [.portLink] s t) ∧ Kept [.evt, .cen, .line, .apply, .clk, .out, .freeCtr] [.evt, .portLink, .portIlm, .portTone, .slices, .tst] s t) ∧
    (∀ (span : BitVec 16) (tones : List (BitVec 12 × BitVec 8)) (sv : BitVec 32),
      let far := identSpan (if (s.ln n).slave then (s.ln n).ident else (s.ln n).identOwn)
      s.get (F.PORT_LINK_STATUS_PHASE n) = 2 → (s.ln n).ident ≠ [] → (s.isV2 n || (s.ln n).proofOk.isSome) = true → far ≤ 500 ∨ far = 0xFFFF →
      ∃ t, exec (.trainingPhaseEnd port span tones sv) s = .next t ∧ t.an n = 3 ∧
        t.get (F.PORT_LINK_STATUS_PHASE n) = (if !s.isV2 n && s.mayJoin n then 3 else 4) ∧
        t.get (F.PORT_ILM_STATE_VEC_STATE n) = (if !s.isV2 n && s.mayJoin n then 1 else s.get (F.PORT_ILM_STATE_VEC_STATE n)) ∧
        Kept [.evt, .cen, .line, .apply, .clk, .out, .freeCtr] [.evt, .portLink, .portIlm, .portTone, .slices, .tst] s t) ∧
    (∀ (span : BitVec 16) (tones : List (BitVec 12 × BitVec 8)) (sv : BitVec 32),
      s.get (F.PORT_LINK_STATUS_PHASE n) = 7 → s.lowRate n false = false → (s.ln n).service.isSome = true →
      (s.ln n).slave = true ∨ ((s.ln n).unacked = [] ∧ (s.ln n).waiting = []) →
      ∃ t, exec (.trainingPhaseEnd port span tones sv) s = .next t ∧ t.an n = 3 ∧ t.get (F.PORT_LINK_STATUS_PHASE n) = 8 ∧
        (t.ln n).service = (s.ln n).service ∧ Kept [.evt, .cen, .line, .apply, .clk, .out, .freeCtr] [.evt, .portLink, .portIlm, .portTone, .slices, .tst] s t) ∧
    (∀ (span : BitVec 16) (tones : List (BitVec 12 × BitVec 8)) (sv : BitVec 32),
      s.get (F.PORT_LINK_STATUS_PHASE n) = 3 →
      ∃ t, exec (.trainingPhaseEnd port span tones sv) s = .next t ∧
        t.get (F.PORT_LINK_STATUS_PHASE n) = (if s.get (F.PORT_ILM_STATE_VEC_STATE n) = 2 then 4 else 3) ∧ Kept [] [.portLink] s t) ∧
    (∀ count : BitVec 32, s.get (F.PORT_LINK_STATUS_PHASE n) = 1 → (s.ln n).slave = true →
      ∃ t, exec (.trainSync port count) s = .next t ∧ t.sfc n = count.toNat ∧ (t.ln n).locked = true ∧
        (∀ a, a ≠ A.PORT_ILM_SFC n → t.word a = s.word a) ∧ Kept [.line] [.portIlm] s t) ∧
    (∀ (seq : BitVec 8) (sf tag : BitVec 32), s.inOrder n seq.toNat → (s.ln n).slave = true →
      ∃ t, exec (.trainStart port seq sf tag) s = .next t ∧ (t.ln n).service = some sf.toNat ∧ (t.ln n).tag = tag.toNat ∧
        Acked n 0x11 seq.toNat s t ∧ Kept [.cen, .line] [] s t) ∧
    (∀ c, (s.ln n).joinAt = some c → 256 ≤ (s.sfc n + 2 ^ 32 - c) % 2 ^ 32 → s.get (F.PORT_ILM_STATE_VEC_STATE n) = 1 →
      ∃ t, exec (.vectorJoinEnd port) s = .next t ∧ t.get (F.PORT_ILM_STATE_VEC_STATE n) = 2 ∧
        (t.get (F.FLOCK_VEC_STATE_ACTIVE (n / 4))).testBit (n % 4) = true ∧
        (∀ q, q < 4 → s.get (F.PORT_ILM_STATE_VEC_STATE (4 * (n / 4) + q)) ≠ 0 → 4 * (n / 4) + q < s.nPorts →
          s.get (F.PORT_ILM_STATE_VEC_STATE (4 * (n / 4) + q)) ≠ 3 → t.isPending (Ev.portVecChange (4 * (n / 4) + q)) = true) ∧
        Kept [.evt, .cen, .line, .clk, .out] [.evt, .portIlm, .slices] s t)

/-- Service (R61) and warm restart (R104, R105). -/
def Obligations.ServiceAndWarmRestart : Prop :=
  ∀ (port : BitVec 4) (s : State), let n := port.toNat
    n < s.nPorts →
    ((s.ln n).service = some (s.sfc n) → 6 ≤ (s.ln n).target → (s.ln n).target ≤ 8 →
      (s.an n = 3 → s.get (F.PORT_LINK_STATUS_PHASE n) = 8 →
        ∃ t, exec (.serviceStart port) s = .next t ∧ t.upIlm n = true ∧ t.mode n = (s.ln n).target ∧ t.an n = 6 ∧
          (t.ln n).streaming = true ∧ (t.ln n).service = none ∧ t.get (F.PORT_ILM_STATE_GEN_TX n) = 0 ∧ t.get (F.PORT_ILM_STATE_GEN_RX n) = 0 ∧
          t.prof n false = 0 ∧ t.prof n true = 0 ∧ t.padOn n = (s.ln n).paddock ∧ Kept [.evt, .cen, .line, .pad, .lane, .clk, .out] [.evt, .portLink, .portIlm, .portPad, .slices, .lane, .drv, .piste, .tst] s t) ∧
      (s.an n = 5 → (s.ln n).warmChecked = true →
        ∃ t, exec (.serviceStart port) s = .next t ∧ t.upIlm n = true ∧ t.mode n = (s.ln n).target ∧ t.an n = 6 ∧
          (t.ln n).streaming = true ∧
          t.get (F.PORT_WARM_OK_COUNT n) = min (2 ^ 32 - 1) (s.get (F.PORT_WARM_OK_COUNT n) + 1) ∧ Kept [.evt, .cen, .line, .pad, .lane, .clk, .out] [.evt, .portLink, .portIlm, .portPad, .slices, .lane, .drv, .piste, .tst] s t)) ∧
    (∀ d, (s.ln n).stored = some d → s.starts = true → s.hasStored n = true → (s.an n = 1 ∨ s.an n = 4) →
      s.flag (F.PORT_DIAG_STATE_RUNNING n) = false →
      ∃ t, exec (.partnerSignalDetected port) s = .next t ∧
        ((!s.adcFirst n && s.tokenFits n (s.startDemand n (s.get F.DRV_STATE_PL))) = true → t.an n = 5 ∧ (t.ln n).warmAt = s.time ∧ (t.ln n).target = d.mode ∧
          t.sfc n = (if s.an n = 4 ∧ d.mode ≠ 6 then s.sfc n else (d.count + (s.time - d.at_) / 282624) % 2 ^ 32)) ∧
        ((!s.adcFirst n && s.tokenFits n (s.startDemand n (s.get F.DRV_STATE_PL))) = false → t.an n = 2 ∧ (t.ln n).tokenAt = some s.time) ∧
        Kept [.evt, .cen, .line, .pad, .cal, .out] [.evt, .cmd, .portLink, .portIlm, .portPad, .portCal, .slices, .memCal, .cal, .tst] s t) ∧
    (∀ (seq : BitVec 8) (tag : BitVec 32) (own partner : BitVec 64) (gen : BitVec 8) (crcs : BitVec 128) (vec prof : BitVec 8)
        (sf : BitVec 32) (d : Stored), s.an n = 5 → (s.ln n).eocExp = seq.toNat → (s.ln n).stored = some d →
      let agree := tag.toNat = d.tag ∧ own.toNat = d.serial ∧ partner.toNat = s.wide A.SEC_ID_SERIAL ∧ gen.toNat % 16 = d.genRx ∧
        gen.toNat / 16 = d.genTx ∧ leBytes crcs.toNat 16 = s.profCrcs n d.slave ∧ vec.toNat = s.vecMask (n / 4) ∧ s.hasStored n = true
      (agree → ∃ t, exec (.warmCheck port seq tag own partner gen crcs vec prof sf) s = .next t ∧ (t.ln n).warmChecked = true ∧
        (d.slave = true → (t.ln n).service = some sf.toNat) ∧ (t.ln n).stored = some d ∧ t.an n = 5 ∧
        (s.isV2 n = false → t.prof n false = (if d.slave then prof.toNat % 4 else s.zoneProf n) ∧ t.prof n true = t.prof n false) ∧
        Acked n 0x12 seq.toNat s t ∧ Kept [.evt, .cen, .line, .pad, .clk, .out, .freeCtr] [.evt, .portLink, .portIlm, .portPad, .slices, .piste, .tst] s t) ∧
      (¬ agree → s.negotiates n →
        ∃ t, exec (.warmCheck port seq tag own partner gen crcs vec prof sf) s = .next t ∧ (t.ln n).stored = none ∧ t.an n = 1 ∧
          t.get (F.PORT_WARM_FAIL_COUNT n) = min (2 ^ 32 - 1) (s.get (F.PORT_WARM_FAIL_COUNT n) + 1) ∧ Kept [.evt, .cen, .line, .pad, .clk, .out, .freeCtr] [.evt, .portLink, .portIlm, .portPad, .slices, .piste, .tst] s t))

/-- Ports by the host (Table 4-9, R146, R147). -/
def Obligations.PortsAreEnabledDisabledAndDrained : Prop :=
  (∀ (port : BitVec 4) (v : Word) (s : State), let n := port.toNat
    s.barOpen → s.portOpen n = true → s.flag (F.PORT_PAD_STATE_DRAINING n) = false →
    (∃ t, exec (.portEnable port v) s = .next t ∧ t.flag (F.PORT_MODE_ENABLE n) = true ∧
      t.get (F.PORT_MODE_AN_EN n) = getBits v 30 1 ∧ t.get (F.PORT_MODE_WARM_EN n) = getBits v 28 1 ∧
      t.get (F.PORT_MODE_FORCE_SLAVE n) = getBits v 27 1 ∧ t.get (F.PORT_MODE_FORCE_MODE n) = getBits v 24 3 ∧
      (s.flag (F.PORT_MODE_ENABLE n) = false → s.starts = true → s.pModes n ≠ 0 → getBits v 30 1 = 1 →
        t.an n = 1 ∨ t.get (F.PORT_LINK_STATUS_DOWN_CAUSE n) = 8) ∧
      Kept [.evt, .cen, .pch, .bank, .line, .pad, .lane, .trv, .drv, .apply, .cal, .clk, .pwr, .out, .freeCtr] [.evt, .cmd, .portLink, .portIlm, .portPad, .portTrv, .portCal, .portTone, .slices, .memCtl, .memInteg, .freezeRec, .memCal, .fab, .lane, .cal, .piste, .evid, .tst] s t) ∧
    (s.flag (F.PORT_MODE_ENABLE n) = true → s.flag (F.PORT_PAD_STATE_KEPT n) = false →
      ∃ t, exec (.portModeDisable port v) s = .next t ∧
        (s.up n = false → t.flag (F.PORT_MODE_ENABLE n) = false ∧ t.an n = 0 ∧ (t.ln n).stored = none) ∧
        (s.up n = true → (s.pd n).reenable = false → t.flag (F.PORT_MODE_ENABLE n) = false ∧
          (t.up n = false ∨ t.flag (F.PORT_PAD_STATE_DRAINING n) = true)) ∧
        (s.up n = true → s.upLegacy n = false → s.drained n = false → s.get (F.PORT_PAD_CFG_DRAIN_MS n) ≠ 0 →
          t.flag (F.PORT_MODE_ENABLE n) = false ∧ t.up n = true ∧ t.flag (F.PORT_PAD_STATE_DRAINING n) = true ∧
          (t.pd n).drainEnd = some (s.time + 1000000 * s.get (F.PORT_PAD_CFG_DRAIN_MS n)) ∧ (t.pd n).drainCause = 1) ∧
        Kept [.evt, .cen, .pch, .bank, .line, .pad, .lane, .trv, .drv, .apply, .cal, .clk, .pwr, .out, .freeCtr] [.evt, .cmd, .portLink, .portIlm, .portPad, .portTrv, .portCal, .portTone, .slices, .memCtl, .memInteg, .freezeRec, .memCal, .fab, .lane, .cal, .piste, .evid, .tst] s t) ∧
    (s.negotiates n → v.getLsbD 31 = true → v.getLsbD 30 = true →
      ∃ t, exec (.portModeRestart port v) s = .next t ∧ t.an n = 1 ∧ t.flag (F.PORT_AN_STATUS_ILM_SUPPRESSED n) = false ∧
        t.flag (F.PORT_MODE_ENABLE n) = true ∧ (s.up n = true → t.up n = false ∧ t.get (F.PORT_LINK_STATUS_DOWN_CAUSE n) = 1 ∧
          t.get (F.PORT_LINK_DOWNS_COUNT n) = min (2 ^ 32 - 1) (s.get (F.PORT_LINK_DOWNS_COUNT n) + 1)) ∧
        Kept [.evt, .cen, .pch, .bank, .line, .pad, .lane, .trv, .drv, .apply, .cal, .clk, .pwr, .out, .freeCtr] [.evt, .cmd, .portLink, .portIlm, .portPad, .portTrv, .portCal, .portTone, .slices, .memCtl, .memInteg, .freezeRec, .memCal, .fab, .lane, .cal, .piste, .evid, .tst] s t)) ∧
  (∀ (slot : BitVec 6) (s : State), let k := slot.toNat
    let n := s.param k 0 % 16
    let limit := if s.param k 1 % 65536 = 0xFFFF then s.get (F.PORT_PAD_CFG_DRAIN_MS n) else min 1000 (s.param k 1 % 65536)
    s.taken k 0x51 = true →
    (s.nPorts ≤ n → ∃ t, exec (.portDisable slot) s = .next t ∧ Completed k stInvalid 0 [] s t ∧ Kept [.evt, .cen, .out] [.evt, .cmd] s t) ∧
    (n < s.nPorts → s.flag (F.PORT_PAD_STATE_DRAINING n) = true →
      ∃ t, exec (.portDisable slot) s = .next t ∧ Completed k stBusy 0 [] s t ∧ Kept [.evt, .cen, .out] [.evt, .cmd] s t) ∧
    (n < s.nPorts → s.flag (F.PORT_PAD_STATE_DRAINING n) = false → s.up n = false →
      ∃ t, exec (.portDisable slot) s = .next t ∧ t.slotState k = 3 ∧ ((s.calOf n).stage = 0 → Completed k stOk 0 [] s t) ∧ t.flag (F.PORT_MODE_ENABLE n) = false ∧ t.an n = 0 ∧
        (t.ln n).stored = none ∧ Kept [.box, .evt, .cen, .pch, .bank, .line, .pad, .lane, .trv, .drv, .apply, .cal, .clk, .pwr, .out, .freeCtr] [.evt, .cmd, .portLink, .portIlm, .portPad, .portTrv, .portCal, .portTone, .slices, .memCtl, .memInteg, .freezeRec, .memCal, .fab, .lane, .cal, .piste, .evid, .tst] s t) ∧
    (n < s.nPorts → s.flag (F.PORT_PAD_STATE_DRAINING n) = false → s.up n = true → (s.pd n).reenable = false →
      ∃ t, exec (.portDisable slot) s = .next t ∧ t.flag (F.PORT_MODE_ENABLE n) = false ∧
        ((t.slotState k = 2 ∧ t.up n = true ∧ t.flag (F.PORT_PAD_STATE_DRAINING n) = true) ∨ (t.slotState k = 3 ∧ t.up n = false))) ∧
    (n < s.nPorts → s.flag (F.PORT_PAD_STATE_DRAINING n) = false → s.up n = true → s.upLegacy n = false → s.drained n = false → limit ≠ 0 →
      ∃ t, exec (.portDisable slot) s = .next t ∧ t.slotState k = 2 ∧ (t.slot k).begun = true ∧ t.up n = true ∧
        t.flag (F.PORT_MODE_ENABLE n) = false ∧ t.flag (F.PORT_PAD_STATE_DRAINING n) = true ∧
        (t.pd n).drainEnd = some (s.time + 1000000 * limit) ∧ Kept [.box, .evt, .cen, .pch, .bank, .line, .pad, .lane, .trv, .drv, .apply, .cal, .clk, .pwr, .out, .freeCtr] [.evt, .cmd, .portLink, .portIlm, .portPad, .portTrv, .portCal, .portTone, .slices, .memCtl, .memInteg, .freezeRec, .memCal, .fab, .lane, .cal, .piste, .evid, .tst] s t)) ∧
  (∀ (port : BitVec 4) (s : State) (d : Nat), let n := port.toNat
    (s.pd n).drainEnd = some d → n < s.nPorts → s.flag (F.PORT_PAD_STATE_DRAINING n) = true → s.up n = true → (s.pd n).drainCause ∈ [1, 6, 7] →
    ∃ t, exec (.drainEnd port) s = .next t ∧ t.flag (F.PORT_PAD_STATE_DRAINING n) = false ∧ (t.pd n).drainEnd = none ∧
      t.up n = false ∧ ((s.pd n).reenable = false ∨ (s.pd n).drainCause ≠ 1 → WentDown n (s.pd n).drainCause s t) ∧
      ((s.pd n).reenable = true → (s.pd n).drainCause = 1 → t.flag (F.PORT_MODE_ENABLE n) = true) ∧
      t.ao.time10 = (if s.drained n then s.ao.time10 else max s.ao.time10 (10 * d)) ∧
      (∀ k, k < 64 → (s.pd n).drainSlot = k + 1 → s.slotState k = 2 → t.slotState k = 3) ∧ Kept [.evt, .cen, .line, .pad, .lane, .trv, .apply, .clk, .pwr, .out, .freeCtr, .time] [.evt, .cmd, .portLink, .portIlm, .portPad, .portTrv, .portTone, .slices, .fab, .lane, .piste, .tst] s t)

/-- Identity (R108, R109) and the acknowledged channel (R107). -/
def Obligations.IdentitiesAndAcknowledgements : Prop :=
  ∀ (port : BitVec 4) (seq : BitVec 8) (s : State), let n := port.toNat
    n < s.nPorts ∧ s.coreOn = true ∧ s.inOrder n seq.toNat →
    (∀ (part : BitVec 16) (step pport : BitVec 8) (serial : BitVec 64) (key : BitVec 512) (nonce : BitVec 128) (span : BitVec 16),
      s.an n = 3 → (s.isV2 n && s.flag (F.PORT_LINK_CFG_REQUIRE_AUTH n)) = false →
      ∃ t, exec (.ident port seq part step pport serial key nonce span) s = .next t ∧ Acked n 0x30 seq.toNat s t ∧
        t.get (F.PORT_PARTNER_INFO_PART n) = part.toNat ∧ t.get (F.PORT_PARTNER_INFO_STEP n) = step.toNat ∧
        t.get (F.PORT_PARTNER_INFO_PPORT n) = pport.toNat % 16 ∧ t.get (F.PORT_PARTNER_INFO_AUTH n) = 0 ∧
        identSerial (t.ln n).ident = serial.toNat ∧ t.freeCtr = s.freeCtr + (if (s.ln n).identOwn = [] then 0 else 8) ∧ Kept [.evt, .cen, .line, .apply, .clk, .out, .freeCtr] [.evt, .portLink, .portIlm, .slices, .tst] s t) ∧
    (∀ (part : BitVec 16) (step pport : BitVec 8) (serial : BitVec 64) (key : BitVec 512) (nonce : BitVec 128) (span : BitVec 16),
      s.negotiates n → s.an n = 3 → (s.isV2 n && s.flag (F.PORT_LINK_CFG_REQUIRE_AUTH n)) = true →
      ∃ t, exec (.ident port seq part step pport serial key nonce span) s = .next t ∧ t.an n = 1 ∧
        t.get (F.PORT_AN_STATUS_LAST_FAIL n) = 7 ∧ t.freeCtr ≤ s.freeCtr + 1 ∧ Kept [.evt, .cen, .line, .apply, .clk, .out, .freeCtr] [.evt, .portLink, .portIlm, .slices, .tst] s t) ∧
    (∀ sig : BitVec 512, s.an n = 3 → (s.ln n).ident ≠ [] →
      let ok := ecdsaVerify (identKey (s.ln n).ident) ((s.ln n).nonce ++ (s.ln n).ident) (leBytes sig.toNat 64)
      ∃ t, exec (.identProof port seq sig) s = .next t ∧ (t.ln n).proofOk = some ok ∧
        t.get (F.PORT_PARTNER_INFO_AUTH n) = (if ok then 1 else 2) ∧
        (ok = false → s.flag (F.PORT_LINK_CFG_REQUIRE_AUTH n) = false → t.isPending (Ev.portPartnerAuthFail n) = true) ∧
        (ok = false → s.flag (F.PORT_LINK_CFG_REQUIRE_AUTH n) = true → s.negotiates n →
          t.an n = 1 ∧ t.get (F.PORT_AN_STATUS_LAST_FAIL n) = 7) ∧ Kept [.evt, .cen, .line, .apply, .clk, .out, .freeCtr] [.evt, .portLink, .portIlm, .slices, .tst] s t) ∧
    (∀ (typ : BitVec 8) (u : Unacked), (s.ln n).unacked.find? (fun u => u.msg.seq = seq.toNat && u.msg.typ = typ.toNat) = some u →
      (s.ln n).waiting = [] →
      ∃ t, exec (.msgAck port seq typ) s = .next t ∧ (t.ln n).unacked = (s.ln n).unacked.filter (fun v => v.msg.seq ≠ seq.toNat) ∧
        t.regs = s.regs ∧ Kept [.cen, .line, .pad] [] s t) ∧
    (∀ (u : Unacked) (us : List Unacked), (s.ln n).unacked = u :: us → (∀ v, v ∈ us → u.sentAt ≤ v.sentAt) →
      (∀ v, v ∈ (s.ln n).unacked → v.resends < 7) →
      ∃ t, exec (.eocResendTimeout port) s = .next t ∧
        t.ao.time10 = max s.ao.time10 (10 * (u.sentAt + 1000000)) ∧
        (t.ln n).unacked = (s.ln n).unacked.map (fun v => { v with sentAt := t.time, resends := v.resends + 1 }) ∧
        (t.ln n).eocQ = (s.ln n).eocQ ++ (s.ln n).unacked.flatMap (fun v => v.msg.bytes true) ∧
        t.get (F.PORT_EOC_RETRY_COUNT n) = min (2 ^ 32 - 1) (s.get (F.PORT_EOC_RETRY_COUNT n) + (s.ln n).unacked.length) ∧
        Kept [.evt, .cen, .line, .pad, .lane, .trv, .apply, .clk, .pwr, .out, .freeCtr, .time] [.evt, .cmd, .portLink, .portIlm, .portPad, .portTrv, .portTone, .slices, .fab, .lane, .piste, .tst] s t) ∧
    (∀ (u : Unacked), (s.ln n).unacked = [u] → 7 ≤ u.resends → s.upIlm n = true → s.flag (F.PORT_PAD_STATE_DRAINING n) = false →
      ∃ t, exec (.eocResendTimeout port) s = .next t ∧ WentDown n 3 s t ∧ Kept [.evt, .cen, .line, .pad, .lane, .trv, .apply, .clk, .pwr, .out, .freeCtr, .time] [.evt, .cmd, .portLink, .portIlm, .portPad, .portTrv, .portTone, .slices, .fab, .lane, .piste, .tst] s t) ∧
    (∀ typ : BitVec 8, eocNoack typ.toNat = false →
      ∃ t, exec (.eocReservedMsg port typ seq false) s = .next t ∧ Acked n typ.toNat seq.toNat s t ∧ t.regs = s.regs ∧
        Kept [.cen, .line] [] s t)

/-- Host lanes (R299 to R302). -/
def Obligations.HostLanesAreLostAndLockAgain : Prop :=
  ∀ (lane : BitVec 4) (mv : BitVec 16) (s : State), let m := lane.toNat
    m < s.nPorts ∧ s.coreOn = true ∧ s.get (F.HL_CFG_RATE m) ≠ 0 →
    (∀ (det : BitVec 2) (frame : Option (List Byte)), s.flag (F.HL_STATUS_LOCKED m) = true → (det = 0 → mv.toNat < 70) →
      ∃ t, exec (.laneLoss lane det mv frame) s = .next t ∧ t.flag (F.HL_STATUS_LOCKED m) = false ∧
        t.flag (F.HL_STATUS_FEC_LOCK m) = false ∧ (det.toNat ≤ 2 → t.flag (F.HL_STATUS_BLOCK_LOCK m) = false) ∧
        (det.toNat ≤ 1 → t.flag (F.HL_STATUS_CDR_LOCK m) = false) ∧ (det = 0 → t.flag (F.HL_STATUS_SIGNAL m) = false) ∧
        (det ≠ 0 → t.get (F.HL_STATUS_SIGNAL m) = s.get (F.HL_STATUS_SIGNAL m)) ∧
        t.get (F.HL_LOSS_EVENTS_COUNT m) = min (2 ^ 32 - 1) (s.get (F.HL_LOSS_EVENTS_COUNT m) + 1) ∧
        t.isPending 319 = true ∧ (t.get (F.EVT_CAUSE_CAUSE 5)).testBit m = true ∧ Kept [.evt, .cen, .pch, .bank, .pad, .lane, .drv, .dram, .chk, .out, .freeCtr] [.evt, .portPad, .memCtl, .memInteg, .lane] s t) ∧
    (∀ frame, 70 ≤ mv.toNat → exec (.laneLoss lane 0 mv frame) s = .next s) ∧
    (∀ (mid : Bool) (ppm : BitVec 8), s.flag (F.HL_STATUS_LOCKED m) = false → s.flag F.CLK_STATUS_HREF_GOOD = true →
      150 < mv.toNat ∨ s.flag (F.HL_STATUS_SIGNAL m) = true →
      ∃ t, exec (.laneRelock lane mv mid ppm) s = .next t ∧ t.flag (F.HL_STATUS_LOCKED m) = true ∧ t.flag (F.HL_STATUS_SIGNAL m) = true ∧
        t.flag (F.HL_STATUS_CDR_LOCK m) = true ∧ t.flag (F.HL_STATUS_BLOCK_LOCK m) = true ∧
        t.get (F.HL_STATUS_FEC_LOCK m) = s.get (F.HL_CFG_FEC m) ∧ t.flag (F.HL_STATUS_RF_SENDING m) = false ∧
        t.get (F.HL_STATUS_PPM m) = ppm.toNat ∧
        t.get (F.HL_RX_RESUME_DISC_COUNT m) = min (2 ^ 32 - 1) (s.get (F.HL_RX_RESUME_DISC_COUNT m) + (if mid then 1 else 0)) ∧
        (∀ a, a ≠ A.HL_STATUS m → a ≠ A.HL_RX_RESUME_DISC m → t.word a = s.word a) ∧ Kept [.lane] [.lane] s t)

/-- What the partner's messages of service leave behind. -/
def Obligations.PartnersMessagesOfService : Prop :=
  ∀ (port : BitVec 4) (s : State), let n := port.toNat
    (∀ (rxMin rxAvg : BitVec 8) (lost : BitVec 32), s.upIlm n = true →
      ∃ t, exec (.status port rxMin rxAvg lost) s = .next t ∧ t.get (F.PORT_MON_MARGIN_FE_MIN n) = rxMin.toNat ∧
        t.get (F.PORT_MON_MARGIN_FE_AVG n) = rxAvg.toNat ∧ t.get (F.PORT_MON_MARGIN_RX_MIN n) = s.get (F.PORT_MON_MARGIN_RX_MIN n) ∧
        t.get (F.PORT_MON_MARGIN_RX_AVG n) = s.get (F.PORT_MON_MARGIN_RX_AVG n) ∧
        (∀ a, a ≠ A.PORT_MON_MARGIN n → t.word a = s.word a) ∧ Kept [] [.portLink] s t) ∧
    (∀ (seq : BitVec 8) (cap : BitVec 16), s.inOrder n seq.toNat →
      (∃ t, exec (.rateCap port seq cap) s = .next t ∧ (t.ln n).rateCap = cap.toNat ∧ Acked n 0x17 seq.toNat s t ∧
        t.regs = s.regs ∧ Kept [.cen, .line] [] s t) ∧
      (∃ t, exec (.capUpdate port seq cap) s = .next t ∧ (t.ln n).capRcvd = some (max 1 (min 4084 cap.toNat)) ∧
        Acked n 0x22 seq.toNat s t ∧ t.regs = s.regs ∧ Kept [.cen, .line] [] s t) ∧
      (∀ (b : Bool) (ws : List (BitVec 32)), ws.length = 8 →
        ∃ t, exec (.customDef port seq b ws) s = .next t ∧
          (∀ i, i < 8 → (t.ln n).custPart.getD (8 * b2n b + i) 0 = (ws.getD i 0).toNat) ∧
          (∀ i, i < 8 → (t.ln n).custPart.getD (8 * b2n (!b) + i) 0 = (s.ln n).custPart.getD (8 * b2n (!b) + i) 0) ∧
          Acked n 0x23 seq.toNat s t ∧ t.regs = s.regs ∧ Kept [.cen, .line] [] s t)) ∧
    (∀ (sf : BitVec 16) (es : List Byte), let run := (((s.ln n).vecRun.filter fun x => decide (x / 4 = sf.toNat / 4)) ++ [sf.toNat]).eraseDups
      (s.get (F.PORT_ILM_STATE_VEC_STATE n) = 0 ∨ s.eocOpen n = false → exec (.vecError port sf es) s = .next s) ∧
      (s.eocOpen n = true → s.get (F.PORT_ILM_STATE_VEC_STATE n) ≠ 0 → ∃ t, exec (.vecError port sf es) s = .next t ∧ t.regs = s.regs ∧
        (run.length < 4 → (t.ln n).vecRun = run ∧ (t.ln n).fextAt = (s.ln n).fextAt) ∧
        (4 ≤ run.length → (t.ln n).vecRun = [] ∧ (t.ln n).fextAt.getD (sf.toNat / 4 % 64) 0 = sf.toNat + 1 ∧
          ∀ i, i ≠ sf.toNat / 4 % 64 → (t.ln n).fextAt.getD i 0 = (s.ln n).fextAt.getD i 0) ∧ Kept [.cen, .line] [] s t)) ∧
    (∀ (claim v p : Bool) (route : BitVec 32) (pos : BitVec 40) (speed : BitVec 16), s.takesPart n = true →
      ∃ t, exec (.pisteLead port claim v p route pos speed) s = .next t ∧ t.flag (F.PISTE_PORT_PARTNER_CLAIM n) = claim ∧
        t.leads n = (if s.flag (F.PISTE_PORT_CLAIM n) = claim then !s.flag (F.PORT_ILM_STATE_TIMING_SLAVE n) else s.flag (F.PISTE_PORT_CLAIM n)) ∧
        t.flag (F.PISTE_PORT_LEADING n) = t.leads n ∧
        t.flag (F.PORT_ILM_STATE_FORCE_IGNORED n) = (s.flag (F.PORT_ILM_CTRL_FORCE_EN n) && !t.leads n) ∧
        (claim = true → s.flag (F.PISTE_PORT_CLAIM n) = true → s.coreOn = true → n < s.nPorts →
          t.isPending (Ev.portLeadConflict n) = true) ∧ Kept [.evt, .cen, .line, .out] [.evt, .portIlm, .piste] s t)

/-- LOADING_UPDATE (R66, R72, Table 4-2). -/
def Obligations.LoadingUpdatesAreAnnouncedOrTaken : Prop :=
  ∀ (port : BitVec 4) (seq id : BitVec 8) (entries : List (BitVec 32)) (s : State), let n := port.toNat
    let es := entries.map BitVec.toNat
    s.inOrder n seq.toNat →
    (s.upIlm n = true → s.bitSwapOk n = true → es ≠ [] → es.length ≤ 512 →
      (s.loadingOk n es = true → (s.pendDir n false).length < 4 →
        ∃ t c, exec (.loadingUpdate port seq id entries) s = .next t ∧ Acked n 0x21 seq.toNat s t ∧
          (t.ln n).pend = (s.ln n).pend ++ [c] ∧ c.kind = 0 ∧ c.arg = id.toNat % 4 ∧ c.rxDir = false ∧ c.mine = true ∧
          c.confirmed = false ∧ c.entries = es ∧ (∀ x, x ∈ (s.ln n).pend → x.rxDir = false → x.sf ≠ c.sf) ∧
          (t.ln n).swapQ = (s.ln n).swapQ ++ [swapPayload 0 false 0 (id.toNat % 4) c.sf] ∧ Kept [.cen, .line] [.portIlm, .portTone, .piste] s t) ∧
      (s.loadingOk n es = false →
        ∃ t, exec (.loadingUpdate port seq id entries) s = .next t ∧ Acked n 0x21 seq.toNat s t ∧ (t.ln n).pend = (s.ln n).pend ∧
          t.regs = s.regs)) ∧
    (s.upIlm n = false → s.get (F.PORT_LINK_STATUS_PHASE n) = 7 → 0xF0 ≤ id.toNat → id.toNat ≤ 0xF7 → s.loadingOk n es = false →
      ∃ t, exec (.loadingUpdate port seq id entries) s = .next t ∧ Acked n 0x21 seq.toNat s t ∧ t.regs = s.regs) ∧
    (s.upIlm n = false → s.get (F.PORT_LINK_STATUS_PHASE n) = 7 → 0xF0 ≤ id.toNat → id.toNat ≤ 0xF7 → (es.map (· % 4096)).Nodup →
      s.loadingOk n es = true →
      ∃ t, exec (.loadingUpdate port seq id entries) s = .next t ∧ Acked n 0x21 seq.toNat s t ∧
        (∀ e, e ∈ es → t.get (toneFld n false 0 (e % 4096)) = bits e 12 4 + 16 * bits e 16 6) ∧
        (∀ x, x < 4096 → (∀ e, e ∈ es → e % 4096 ≠ x) → t.get (toneFld n false 0 x) = s.get (toneFld n false 0 x)) ∧
        Kept [.cen, .line] [.portIlm, .portTone, .piste] s t)

/-- The SWAP exchange (R65 to R70). -/
def Obligations.SwapWordsMoveChanges : Prop :=
  ∀ (port : BitVec 4) (dir : Bool) (kind arg : BitVec 2) (sf : BitVec 16) (s : State), let n := port.toNat
    let k := kind.toNat
    s.upIlm n = true →
    (∀ f, sfOf (s.sfc n) sf.toNat = some f → (∀ x, x ∈ (s.ln n).pend → x.rxDir = !dir → x.sf % 65536 ≠ sf.toNat) →
      (sfAfter f ((s.sfc n + 1) % 2 ^ 32) = true → (s.pendDir n (!dir)).length < 4 →
        ((k = 0 ∧ dir = false ∧ ((s.ln n).updSent.any fun u => decide (u.1 % 4 = arg.toNat) && !s.overCap n true u.2) = true) ∨
          (k = 1 ∧ s.takesPart n = true ∧ s.leads n = false) ∨ (k = 2 ∧ ((s.ln n).capRcvd.any fun a => !s.capOver n a) = true)) →
        ∃ t, exec (.swapAnnounce port dir kind arg sf) s = .next t ∧ (t.ln n).pend.dropLast = (s.ln n).pend ∧
          (t.ln n).pend.getLast? = some {
            kind := k, sf := f, arg := arg.toNat, rxDir := !dir, mine := false, confirmed := true,
            entries := if k = 1 then s.newBands n (!dir) arg.toNat else if k = 0 then ((s.ln n).updSent.map (·.2)).getD [] else [],
            cap := (s.ln n).capRcvd.getD 0 } ∧
          (t.ln n).swapQ = (s.ln n).swapQ ++ [swapPayload 1 (!dir) k arg.toNat f] ∧ Kept [.line] [.portIlm, .piste] s t) ∧
      (sfAfter f ((s.sfc n + 1) % 2 ^ 32) = true → (s.pendDir n (!dir)).length < 4 → k = 1 → s.takesPart n = true → s.leads n = true →
        s.flag (F.PORT_ILM_STATE_TIMING_SLAVE n) = true →
        ∃ t, exec (.swapAnnounce port dir kind arg sf) s = .next t ∧ t.leads n = false ∧
          (∀ x, x ∈ (t.ln n).pend → x.mine = true → x.kind = 1 → x.confirmed = true) ∧
          (∃ x, x ∈ (t.ln n).pend ∧ x.kind = 1 ∧ x.sf = f ∧ x.rxDir = (!dir) ∧ x.mine = false ∧ x.confirmed = true) ∧ Kept [.line] [.portIlm, .piste] s t) ∧
      (sfAfter f ((s.sfc n + 1) % 2 ^ 32) = false → exec (.swapAnnounce port dir kind arg sf) s = .next s) ∧
      (sfAfter f ((s.sfc n + 1) % 2 ^ 32) = true →
        ((k = 1 ∧ s.takesPart n = false) ∨ (k = 0 ∧ (dir = true ∨ (s.ln n).updSent.all (fun u => u.1 % 4 ≠ arg.toNat) = true)) ∨
          (k = 2 ∧ (4 ≤ (s.pendDir n (!dir)).length ∨ (s.ln n).capRcvd.any (s.capOver n) = true))) →
        ∃ t, exec (.swapAnnounce port dir kind arg sf) s = .next t ∧ (t.ln n).pend = (s.ln n).pend ∧
          (t.ln n).swapQ = (s.ln n).swapQ ++ [swapPayload 2 (!dir) k arg.toNat f] ∧ Kept [.line] [] s t)) ∧
    (sfOf (s.sfc n) sf.toNat = none → exec (.swapAnnounce port dir kind arg sf) s = .next s ∧ exec (.swapConfirm port dir kind arg sf) s = .next s ∧
      exec (.swapReject port dir kind arg sf) s = .next s ∧ exec (.swapCancel port dir kind arg sf) s = .next s) ∧
    (∀ f, sfOf (s.sfc n) sf.toNat = some f →
      (∃ t, exec (.swapConfirm port dir kind arg sf) s = .next t ∧
        (t.ln n).pend = (s.ln n).pend.map (fun x =>
          if x.mine = true ∧ x.kind = k ∧ x.sf = f ∧ x.rxDir = !dir then { x with confirmed := true } else x) ∧
        Kept [.line] [.portIlm, .piste] s t) ∧
      (∃ t, exec (.swapReject port dir kind arg sf) s = .next t ∧ (t.ln n).pend.Sublist (s.ln n).pend ∧
        (∀ x, x ∈ (t.ln n).pend → ¬ (x.mine = true ∧ x.kind = k ∧ x.sf = f ∧ x.rxDir = !dir)) ∧
        (∀ x, x ∈ (s.ln n).pend → x.mine = false ∨ x.kind ≠ k ∨ x.sf ≠ f → x ∈ (t.ln n).pend) ∧ Kept [.line] [.portIlm, .piste] s t) ∧
      ((∃ x, x ∈ (s.ln n).pend ∧ x.mine = false ∧ x.kind = k ∧ x.sf = f ∧ x.rxDir = !dir) →
        ∃ t, exec (.swapCancel port dir kind arg sf) s = .next t ∧ (t.ln n).pend.Sublist (s.ln n).pend ∧
          (∀ x, x ∈ (t.ln n).pend → ¬ (x.mine = false ∧ x.kind = k ∧ x.sf = f ∧ x.rxDir = !dir)) ∧
          (∀ x, x ∈ (s.ln n).pend → x.mine = true ∨ x.kind ≠ k ∨ x.sf ≠ f → x ∈ (t.ln n).pend) ∧
          t.get (F.PORT_ILM_SWAP_FAIL_COUNT n) = min (2 ^ 32 - 1) (s.get (F.PORT_ILM_SWAP_FAIL_COUNT n) + 1) ∧
          (k = 2 → (t.ln n).capRcvd = none) ∧ Kept [.line] [.portIlm, .piste] s t)) ∧
    (let due (x : Change) : Prop := x.mine = true ∧ x.confirmed = false ∧ x.sf = (s.sfc n + 1) % 2 ^ 32;
      (∃ x, x ∈ (s.ln n).pend ∧ due x) → s.coreOn = true → n < s.nPorts →
      ∃ t, exec (.swapConfirmDeadline port) s = .next t ∧ (∀ x, x ∈ (t.ln n).pend → ¬ due x) ∧
        (∀ x, x ∈ (s.ln n).pend → x.mine = false ∨ x.sf ≠ (s.sfc n + 1) % 2 ^ 32 → x ∈ (t.ln n).pend) ∧
        t.isPending (Ev.portSwapFail n) = true ∧ Kept [.evt, .cen, .line, .out] [.evt, .portIlm, .piste] s t) ∧
    (∀ x : Change, (s.ln n).pend = [x] → x.sf = s.sfc n → x.kind = 1 → x.arg < 2 →
      (∀ pts, x.rxDir = true → syncFlagged pts = true →
        ∃ t, exec (.loadingChangeAtS port false pts) s = .next t ∧ (t.ln n).pend = [] ∧ t.prof n true = x.arg ∧
        t.get (F.PORT_ILM_STATE_GEN_RX n) = (s.get (F.PORT_ILM_STATE_GEN_RX n) + 1) % 16 ∧ t.prof n false = s.prof n false ∧
        Kept [.evt, .cen, .line, .cal, .out] [.evt, .cmd, .portIlm, .portCal, .portTone, .memCal, .drv, .cal, .piste] s t) ∧
      (∀ pts, x.rxDir = true → x.confirmed = true →
        ∃ t, exec (.loadingChangeAtS port true pts) s = .next t ∧ (t.ln n).pend = [] ∧ t.prof n true = x.arg ∧
          (t.ln n).resolve.isSome = true ∧ t.prof n false = s.prof n false ∧ Kept [.evt, .cen, .line, .cal, .out] [.evt, .cmd, .portIlm, .portCal, .portTone, .memCal, .drv, .cal, .piste] s t) ∧
      (∀ pts, x.rxDir = true → syncFlagged pts = false → s.coreOn = true → n < s.nPorts →
        ∃ t, exec (.loadingChangeAtS port false pts) s = .next t ∧ (t.ln n).pend = [] ∧ t.prof n true = s.prof n true ∧
          t.get (F.PORT_ILM_SWAP_FAIL_COUNT n) = min (2 ^ 32 - 1) (s.get (F.PORT_ILM_SWAP_FAIL_COUNT n) + 1) ∧
          t.isPending (Ev.portSwapFail n) = true ∧ Kept [.evt, .cen, .line, .cal, .out] [.evt, .cmd, .portIlm, .portCal, .portTone, .memCal, .drv, .cal, .piste] s t) ∧
      (∀ erased pts, x.rxDir = false → x.confirmed = true → ∃ t, exec (.loadingChangeAtS port erased pts) s = .next t ∧ (t.ln n).pend = [] ∧
        t.prof n false = x.arg ∧ t.get (F.PORT_ILM_STATE_GEN_TX n) = (s.get (F.PORT_ILM_STATE_GEN_TX n) + 1) % 16 ∧
        t.prof n true = s.prof n true ∧ Kept [.evt, .cen, .line, .cal, .out] [.evt, .cmd, .portIlm, .portCal, .portTone, .memCal, .drv, .cal, .piste] s t))

/-- The changes that this end starts (R72, R74, R75, R171). -/
def Obligations.OwnChangesAreAnnounced : Prop :=
  ∀ (port : BitVec 4) (s : State), let n := port.toNat
    s.upIlm n = true →
    (∀ tones : List (BitVec 12),
      let es := (((s.decideNormal n (s.snrNow n)).filter fun e => (tones.map BitVec.toNat).contains (e % 4096) &&
        decide (s.get (toneFld n true 0 (e % 4096)) ≠ bits e 12 4 + 16 * bits e 16 6))).take 512
      s.herderRuns = true → s.flag (F.PORT_ILM_CTRL_BITSWAP_EN n) = true → s.bitSwapOk n = true →
      es ≠ [] → s.overCap n true es = false →
      ∃ t, exec (.bitSwapRequest port tones) s = .next t ∧ (t.ln n).updSent = some ((s.ln n).updNext, es) ∧
        (t.ln n).updNext = ((s.ln n).updNext + 1) % 0xF0 ∧
        ((s.ln n).unacked.length < 8 → (t.ln n).unacked = (s.ln n).unacked ++ [⟨⟨0x21, (s.ln n).eocSeq, false,
          BitVec.ofNat 8 (s.ln n).updNext :: leBytes es.length 2 ++ es.flatMap fun e => leBytes e 4⟩, s.time, 0⟩]) ∧
        Kept [.cen, .line] [] s t) ∧
    (let force := s.flag (F.PORT_ILM_CTRL_FORCE_EN n)
     let want := if force then s.get (F.PORT_ILM_CTRL_FORCE_PROF n) else s.get (F.PISTE_PORT_ZONE_PROF n)
     let f := (s.sfc n + if force then 64 else 4) % 2 ^ 32
     let c : Change := { kind := 1, sf := f, arg := want, mine := true, entries := s.newBands n false want }
     s.leads n = true → want ≠ s.prof n false ∨ want ≠ s.prof n true → (∀ x, x ∈ (s.ln n).pend → x.kind = 0 ∨ x.kind = 2) →
     ∃ t, exec (.profileSwapAnnounce port) s = .next t ∧
       [c, { c with rxDir := true, entries := s.newBands n true want }] <:+ (t.ln n).pend ∧
       ((s.pendDir n false).length < 4 → (s.pendDir n true).length < 4 → (t.ln n).pend =
         ((s.ln n).pend.filter fun x => decide (x.sf ≠ f)) ++ [c, { c with rxDir := true, entries := s.newBands n true want }]) ∧
       (∀ x, x ∈ (s.ln n).pend → x.sf = f → x.mine = true → x ∈ (t.ln n).again) ∧
       (t.ln n).swapQ = (s.ln n).swapQ ++ [swapPayload 0 false 1 want f, swapPayload 0 true 1 want f] ∧ Kept [.line] [.portIlm, .piste] s t) ∧
    (∀ a, (s.ln n).capSent = some (a, true) → (s.pendDir n false).length < 4 → (s.pendDir n true).length < 4 →
      let f := s.freeSf n 2 (s.sfc n + 4) [false, true] % 2 ^ 32
      let c : Change := { kind := 2, sf := f, mine := true, cap := a }
      (f + 2 ^ 32 - (s.sfc n + 4) % 2 ^ 32) % 2 ^ 32 ≤ 8 ∧ (∀ x, x ∈ (s.ln n).pend → x.sf = f → x.kind ≠ 1 ∧ x.kind ≠ 2) ∧
      ∃ t, exec (.toneCapAnnounce port) s = .next t ∧ (t.ln n).capSent = none ∧
        [c, { c with rxDir := true }] <:+ (t.ln n).pend ∧
        (∀ x, x ∈ (s.ln n).pend → x.sf ≠ f → x ∈ (t.ln n).pend) ∧
        (t.ln n).swapQ = (s.ln n).swapQ ++ [swapPayload 0 false 2 0 f, swapPayload 0 true 2 0 f] ∧ Kept [.line] [.portIlm, .piste] s t)

/-- Low-power idle (R115, R116, R138). -/
def Obligations.LowPowerIdle : Prop :=
  ∀ (port : BitVec 4) (s : State), let n := port.toNat
    (∀ (seq : BitVec 8) (sf : BitVec 32),
      (s.zoneArmed n = true → exec (.lpiEnter port seq sf) s = .next s) ∧
      (s.zoneArmed n = false → s.inOrder n seq.toNat → s.upIlm n = true → (s.ln n).lpi = true → sfAfter sf.toNat (s.sfc n) = true →
        ∃ t, exec (.lpiEnter port seq sf) s = .next t ∧ (t.ln n).lpiAt = some sf.toNat ∧ (t.ln n).lpiConf = true ∧ Acked n 0x15 seq.toNat s t ∧
          t.regs = s.regs ∧ Kept [.cen, .line] [] s t)) ∧
    (s.upIlm n = true → s.flag (F.PORT_LINK_STATUS_LPI n) = true →
      ∃ t, exec (.lpiWake port) s = .next t ∧ (t.ln n).lpiOut = true ∧ (t.ln n).lpiAt = none ∧ t.regs = s.regs ∧ Kept [.line] [] s t) ∧
    (s.upIlm n = true → s.flag (F.PORT_LINK_STATUS_LPI n) = false → (s.ln n).lpiAt ≠ none →
      ∃ t, exec (.lpiWake port) s = .next t ∧ (t.ln n).lpiOut = false ∧ (t.ln n).lpiAt = none ∧ t.regs = s.regs ∧ Kept [.line] [] s t) ∧
    (s.upIlm n = true → (s.ln n).lpi = true → s.flag (F.PORT_ILM_STATE_TIMING_SLAVE n) = false → s.flag (F.PORT_LINK_STATUS_LPI n) = false →
      (s.ln n).lpiAt = none → 16 * max 1 (s.get (F.PORT_LINK_CFG_LPI_IDLE n)) ≤ (s.ln n).idle → s.zoneArmed n = false →
      (s.pd n).tx = [] → (s.pd n).staged = [] → (s.pd n).hostStage = [] → s.padGap n = false → (s.ln n).unacked.length < 8 →
      ∃ t, exec (.lpiIdleTimeout port) s = .next t ∧ (t.ln n).lpiAt = some ((s.sfc n + 4) % 2 ^ 32) ∧
        (t.ln n).unacked = (s.ln n).unacked ++
          [{ msg := { typ := 0x15, seq := (s.ln n).eocSeq, body := leBytes ((s.sfc n + 4) % 2 ^ 32) 4 }, sentAt := s.time }] ∧
        t.regs = s.regs ∧ Kept [.cen, .line] [] s t) ∧
    (s.upLegacy n = true → 2 ≤ s.mode n → (s.pd n).toLine = [] → s.flag (F.PORT_LINK_STATUS_LPI n) = false →
      ∃ t, exec (.legacyLpiIdle port) s = .next t ∧ t.flag (F.PORT_LINK_STATUS_LPI n) = true ∧
        t.get (F.PORT_LPI_ENTRIES_COUNT n) = min (2 ^ 32 - 1) (s.get (F.PORT_LPI_ENTRIES_COUNT n) + 1) ∧ t.up n = true ∧
        (∀ a, a ≠ A.PORT_LINK_STATUS n → a ≠ A.PORT_LPI_ENTRIES n → t.word a = s.word a) ∧ Kept [] [.portLink] s t)

/-- Symbols (R62 to R64, R84, R85), superframes (R41), and the monitors' timeouts (R77, R117). -/
def Obligations.SymbolsAndSuperframes : Prop :=
  ∀ (port : BitVec 4) (s : State), let n := port.toNat
    n < s.nPorts ∧ s.coreOn = true →
    (∀ (err : List (BitVec 8)) (w : BitVec 32), let y := ((s.ln n).sym + 1) % 256
      s.eocOpen n = true →
      (s.upIlm n = true → s.flag (F.PORT_LINK_STATUS_LPI n) = true → y ≠ 1 → y ≠ 128 →
        ∃ t, exec (.symbolReceived port err w) s = .next t ∧ (t.ln n).sym = y ∧ (t.ln n).clean = (s.ln n).clean ∧ Kept [.line] [] s t) ∧
      ((s.upIlm n = true → s.flag (F.PORT_LINK_STATUS_LPI n) = false) →
        ∃ t, exec (.symbolReceived port err w) s = .next t ∧ (t.ln n).sym = y ∧
        (s.upIlm n = true ∨ s.an n = 5 ∨ 2 ≤ s.get (F.PORT_LINK_STATUS_PHASE n) →
          (∀ p r, (s.ln n).nakQ = p :: r → Output.reverse n (revWord 1 p) ∈ t.out ∧ (t.ln n).nakQ = r) ∧
          (∀ p r, (s.ln n).swapQ = p :: r → (s.ln n).nakQ = [] → Output.reverse n (revWord 2 p) ∈ t.out ∧ (t.ln n).swapQ = r)) ∧
        (s.symErased n err = true →
          t.get (F.PORT_ILM_ERASED_COUNT n) = min (2 ^ 32 - 1) (s.get (F.PORT_ILM_ERASED_COUNT n) + 1) ∧ (t.ln n).clean = 0 ∧
          (t.ln n).avg = (s.ln n).avg ∧ (t.ln n).adaptAt = (s.ln n).adaptAt ∧
          ((s.ln n).event = none → max 1 (s.get (F.PORT_IMP_CFG_CLEAN_END n)) ≤ (s.ln n).clean →
            (t.ln n).event = some (s.sfc n, y, s.posMm, s.learnable) ∧ t.isPending (Ev.portErasure n) = true)) ∧
        (s.symErased n err = false → (t.ln n).clean = min 255 ((s.ln n).clean + 1) ∧ (t.ln n).avg = newAvg (s.ln n).avg err ∧
          (t.ln n).adaptAt = 256 * s.sfc n + y ∧
          (revOk w = false →
            t.get (F.PORT_ILM_ACKW_ERR_COUNT n) = min (2 ^ 32 - 1) (s.get (F.PORT_ILM_ACKW_ERR_COUNT n) + 1))) ∧
        Kept [.evt, .cen, .line, .piste, .out] [.evt, .portLink, .portIlm] s t)) ∧
    (∀ sf sy x ok, (s.ln n).event = some (sf, sy, x, ok) → max 1 (s.get (F.PORT_IMP_CFG_CLEAN_END n)) ≤ (s.ln n).clean →
      ∃ t, exec (.erasureEventEnd port) s = .next t ∧ (t.ln n).event = none ∧
        (t.ln n).records = (s.ln n).records ++ [(sf, sy, (s.ln n).eventLen, x, ok)] ∧ t.regs = s.regs ∧ Kept [.line] [] s t) ∧
    (∀ (erased : Bool) (mon : Mon), s.eocOpen n = true →
      ∃ t, exec (.superframeBoundary port erased mon) s = .next t ∧ t.sfc n = (s.sfc n + 1) % 2 ^ 32 ∧ (t.ln n).sym = 0 ∧
        (t.ln n).ackDue = true ∧ (t.ln n).lastSync = (if erased then (s.ln n).lastSync else s.time) ∧
        (mon.snr = [] → (s.ln n).resolve = none →
          t.get (F.PORT_MON_MARGIN_RX_MIN n) = marginByte ((s.margins n).foldl min ((s.margins n).headD 0)) ∧
          t.get (F.PORT_MON_MARGIN_RX_AVG n) = marginByte (if s.margins n = [] then 0 else (s.margins n).sum / (s.margins n).length)) ∧
        t.get (F.PORT_ILM_ECHO_ERLE n) = mon.erle.toNat ∧ ((t.ln n).echoAt.isSome = true ↔ mon.erle.toNat < 7000) ∧
        (s.silentSlave n = false → Output.sync n ((s.sfc n + 1) % 2 ^ 32) (!s.isV2 n && walshNeg (n % 4) ((s.sfc n + 1) % 2 ^ 32))
          (s.flags n ((s.sfc n + 1) % 2 ^ 32)) ∈ t.out) ∧
        Kept [.evt, .cen, .line, .clk, .out] [.evt, .portLink, .portIlm, .portTone, .slices, .drv, .piste] s t) ∧
    (∀ (erased : Bool) (mon : Mon), s.eocOpen n = false → s.calls n = true →
      ∃ t, exec (.superframeBoundary port erased mon) s = .next t ∧ t.sfc n = (s.sfc n + 1) % 2 ^ 32 ∧ (t.ln n).sym = 0 ∧
        Kept [.evt, .cen, .line, .clk, .out] [.evt, .portLink, .portIlm, .portTone, .slices, .drv, .piste] s t) ∧
    (∀ d, (s.ln n).lowAt = some d → s.upIlm n = true →
      ∃ t, exec (.marginLowTimeout port) s = .next t ∧ t.isPending (Ev.portMarginLow n) = true ∧
        t.ao.time10 = max s.ao.time10 (10 * (d + 1000000000)) ∧ Kept [.evt, .cen, .out, .time] [.evt] s t) ∧
    (∀ d, (s.ln n).echoAt = some d → s.upIlm n = true →
      ∃ t, exec (.echoLowTimeout port) s = .next t ∧ t.isPending (Ev.portEchoLow n) = true ∧
        t.ao.time10 = max s.ao.time10 (10 * (d + 1000000000)) ∧ Kept [.evt, .cen, .out, .time] [.evt] s t)

/-- The host side of the frame path (R119, R139 to R143). -/
def Obligations.HostFramesAndPauses : Prop :=
  (∀ (lane : BitVec 4) (s : State), let m := lane.toNat
    let n := s.get (F.HL_CFG_PORT m)
    s.get (F.HL_CFG_RATE m) ≠ 0 ∧ s.flag (F.HL_STATUS_LOCKED m) = true ∧ n < s.nPorts ∧ s.coreOn = true →
    (∀ (bytes : List Byte) (err full : Bool) (took : Nat), s.up n = false → s.warmComing n = false → (s.pd n).drainHold = false →
      ∃ t, exec (.hostFrameReceived lane bytes err full took) s = .next t ∧
        t.get (F.PORT_DOWN_DISCARD_COUNT n) = min (2 ^ 32 - 1) (s.get (F.PORT_DOWN_DISCARD_COUNT n) + 1) ∧ t.pad = s.pad ∧ t.out = s.out ∧
        (∀ a, a ≠ A.PORT_DOWN_DISCARD n → a ≠ A.HL_LONG m → a ≠ A.HL_RX_ABORT m → t.word a = s.word a) ∧
        Kept [.evt, .cen, .pch, .bank, .line, .pad, .drv, .cal, .dram, .chk, .out, .freeCtr] [.evt, .cmd, .portLink, .portPad, .portCal, .memCtl, .memInteg, .freezeRec, .memCal, .fab, .lane, .cal, .evid] s t) ∧
    (∀ (bytes : List Byte) (took : Nat), let f : Frame := { id := (s.pd n).nextId, bytes := bytes }
      let lots := (stagedBytes ((s.pd n).staged ++ [f]) + 2015) / 2016 + (s.pd n).tx.length
      let fits := if s.padOn n then lots ≤ capacity (s.pd n).txGrains else s.bufFill n + bytes.length ≤ 1048576
      s.upIlm n = true → s.warmComing n = false → bytes.length ≤ max 64 (s.get (F.HL_CFG_MAX_FRAME m)) →
      ((s.pd n).hostStage = [] →
        ∃ t, exec (.hostFrameReceived lane bytes false false took) s = .next t ∧ (t.pd n).nextId = (s.pd n).nextId + 1 ∧
          (fits → t.get (F.PORT_PAD_HOST_OVF_COUNT n) = s.get (F.PORT_PAD_HOST_OVF_COUNT n) ∧
            (s.padOn n = true ∨ (s.pd n).bufGrains = [] → (t.pd n).staged = (s.pd n).staged ++ [f])) ∧
          (¬ fits → (t.pd n).staged = (s.pd n).staged ∧
            t.get (F.PORT_PAD_HOST_OVF_COUNT n) = min (2 ^ 32 - 1) (s.get (F.PORT_PAD_HOST_OVF_COUNT n) + 1) ∧
            t.isPending (Ev.portPadDrop n) = true) ∧
          Kept [.evt, .cen, .pch, .bank, .line, .pad, .drv, .cal, .dram, .chk, .out, .freeCtr] [.evt, .cmd, .portLink, .portPad, .portCal, .memCtl, .memInteg, .freezeRec, .memCal, .fab, .lane, .cal, .evid] s t) ∧
      (∃ t, exec (.hostFrameReceived lane bytes false true took) s = .next t ∧ (t.pd n).staged = (s.pd n).staged ∧
        (stagedBytes ((s.pd n).hostStage ++ [f]) ≤ 98304 → (t.pd n).hostStage = (s.pd n).hostStage ++ [f] ∧
          t.get (F.PORT_PAD_HOST_OVF_COUNT n) = s.get (F.PORT_PAD_HOST_OVF_COUNT n)) ∧
        (98304 < stagedBytes ((s.pd n).hostStage ++ [f]) → (t.pd n).hostStage = (s.pd n).hostStage ∧
          t.get (F.PORT_PAD_HOST_OVF_COUNT n) = min (2 ^ 32 - 1) (s.get (F.PORT_PAD_HOST_OVF_COUNT n) + 1) ∧
          t.isPending (Ev.portPadDrop n) = true) ∧
        Kept [.evt, .cen, .pch, .bank, .line, .pad, .drv, .cal, .dram, .chk, .out, .freeCtr] [.evt, .cmd, .portLink, .portPad, .portCal, .memCtl, .memInteg, .freezeRec, .memCal, .fab, .lane, .cal, .evid] s t)) ∧
    (∀ (bytes : List Byte) (took : Nat), s.upLegacy n = true → bytes.length ≤ max 64 (s.get (F.HL_CFG_MAX_FRAME m)) → 1 ≤ took →
      (s.pd n).hostStage = [] → (s.pd n).toLine = [] → (s.pd n).bufGrains = [] → s.warmComing n = false → s.padOn n = false →
      s.bufFill n + bytes.length ≤ 1048576 →
      ∃ t, exec (.hostFrameReceived lane bytes false false took) s = .next t ∧ (t.pd n).toLine = [] ∧
        Output.lineFrame n bytes false ∈ t.out ∧ t.flag (F.PORT_LINK_STATUS_LPI n) = false ∧ Kept [.evt, .cen, .pch, .bank, .line, .pad, .drv, .cal, .dram, .chk, .out, .freeCtr] [.evt, .cmd, .portLink, .portPad, .portCal, .memCtl, .memInteg, .freezeRec, .memCal, .fab, .lane, .cal, .evid] s t) ∧
    (∀ (pfc : Bool) (en : BitVec 8) (q : BitVec 16), (pfc = true → en.getLsbD (s.get (F.HL_CFG_PFC_PRIO m)) = true) →
      ∃ t, exec (.hostPauseFrame lane pfc en q) s = .next t ∧
        t.get (F.HL_MACCTL_RX_COUNT m) = min (2 ^ 32 - 1) (s.get (F.HL_MACCTL_RX_COUNT m) + 1) ∧
        t.flag (F.PORT_PAD_STATE_HOST_PAUSED n) = decide (q ≠ 0) ∧
        (t.pd n).pauseEnd = (if q = 0 then none else some (s.time + q.toNat * (if s.get (F.HL_CFG_RATE m) = 2 then 2048 else 5120) / 100)) ∧
        Kept [.evt, .cen, .evid, .pch, .bank, .line, .pad, .drv, .cal, .dram, .chk, .out, .freeCtr] [.evt, .cmd, .portIlm, .portPad, .portCal, .memCtl, .memInteg, .freezeRec, .memCal, .fab, .lane, .cal, .evid] s t) ∧
    (∀ (en : BitVec 8) (q : BitVec 16), en.getLsbD (s.get (F.HL_CFG_PFC_PRIO m)) = false →
      ∃ t, exec (.hostPauseFrame lane true en q) s = .next t ∧ t.pad = s.pad ∧ (∀ a, a ≠ A.HL_MACCTL_RX m → t.word a = s.word a) ∧
        Kept [.cen] [.lane] s t)) ∧
  (∀ (port : BitVec 4) (s : State), let n := port.toNat
    (∀ d, (s.pd n).pauseEnd = some d →
      ∃ t, exec (.hostPauseExpiry port) s = .next t ∧ t.flag (F.PORT_PAD_STATE_HOST_PAUSED n) = false ∧ (t.pd n).pauseEnd = none ∧
        t.ao.time10 = max s.ao.time10 (10 * d) ∧ Kept [.evt, .cen, .evid, .pch, .bank, .line, .pad, .drv, .cal, .dram, .chk, .out, .freeCtr, .time] [.evt, .cmd, .portIlm, .portPad, .portCal, .memCtl, .memInteg, .freezeRec, .memCal, .fab, .lane, .cal, .evid] s t) ∧
    (∀ m, s.flag (F.PORT_PAD_STATE_XOFF n) = true → s.laneOf n = some m →
      ∃ t, exec (.xoffRefresh port) s = .next t ∧ t.ao.time10 = max s.ao.time10 (10 * ((s.pd n).xoffAt + 400000)) ∧
        (t.pd n).xoffAt = t.time ∧ t.regs = s.regs ∧
        t.out = .flowFrame m (decide (s.get (F.HL_CFG_FLOW m) = 0)) (s.get (F.HL_CFG_PFC_PRIO m)) 0xFFFF :: s.out ∧
        Kept [.cen, .pad, .out, .time] [] s t))

/-- Lots sent (R57, R129) and received (R59, R128). -/
def Obligations.LotsAreSentAndAskedFor : Prop :=
  ∀ (port : BitVec 4) (s : State), let n := port.toNat
    let q := s.get (F.PORT_PAD_TXSEQ_NEXT n)
    s.upIlm n = true ∧ (s.ln n).streaming = true →
    (∀ ready : Bool, ready = false ∨ s.flag (F.PORT_LINK_STATUS_LPI n) = true →
      ∃ t, exec (.codewordSlot port ready) s = .next t ∧ t.out.length = s.out.length + 1 ∧
      uLe (t.lastLot n) 0 3 = (q + 2 ^ 24 - 1) % 2 ^ 24 ∧ u8 (t.lastLot n) 3 = 1 ∧ uLe (t.lastLot n) 4 2 = 0xFFFF ∧
      uLe (t.lastLot n) 7 2 = crc16 ((t.lastLot n).take 7) ∧ (t.ln n).txLen = (s.ln n).txLen + 17280 ∧ Kept [.line, .out] [] s t) ∧
    (s.flag (F.PORT_LINK_STATUS_LPI n) = false → (s.pd n).hostStage = [] →
      (s.padOn n = false → (s.pd n).staged ≠ [] →
        ∃ t, exec (.codewordSlot port true) s = .next t ∧ uLe (t.lastLot n) 0 3 = q ∧ u8 (t.lastLot n) 3 = 0 ∧
          t.get (F.PORT_PAD_TXSEQ_NEXT n) = (q + 1) % 2 ^ 24 ∧ (t.ln n).txLen = (s.ln n).txLen + 17280 ∧ Kept [.evt, .cen, .pch, .bank, .line, .pad, .drv, .cal, .dram, .chk, .out, .freeCtr] [.evt, .cmd, .portPad, .portCal, .memCtl, .memInteg, .freezeRec, .memCal, .fab, .cal, .evid] s t) ∧
      (s.padOn n = true → (s.pd n).resend = [] → stagedBytes (s.pd n).staged ≠ 0 →
        seqSub q (s.oldest n) < s.get (F.PORT_PAD_LIMIT_LIMIT n) →
        (freePlace (s.pd n).txGrains (((s.pd n).tx.filter fun l => !l.void).map (·.place)) q).isSome = true →
        ∃ t, exec (.codewordSlot port true) s = .next t ∧ uLe (t.lastLot n) 0 3 = q ∧ u8 (t.lastLot n) 3 = 4 ∧
          t.get (F.PORT_PAD_TXSEQ_NEXT n) = (q + 1) % 2 ^ 24 ∧ Kept [.evt, .cen, .pch, .bank, .line, .pad, .drv, .cal, .dram, .chk, .out, .freeCtr] [.evt, .cmd, .portPad, .portCal, .memCtl, .memInteg, .freezeRec, .memCal, .fab, .cal, .evid] s t) ∧
      (∀ x r l, (s.pd n).resend = x :: r → (s.pd n).tx.find? (fun l => l.seq = x) = some l → l.void = false → x < 2 ^ 24 → s.padOn n = true →
        (s.lotGet (2 * n) l.place).2.isSome = true →
        ∃ t, exec (.codewordSlot port true) s = .next t ∧ uLe (t.lastLot n) 0 3 = x ∧ u8 (t.lastLot n) 3 = 6 ∧
          t.get (F.PORT_PAD_RETX_COUNT n) = min (2 ^ 32 - 1) (s.get (F.PORT_PAD_RETX_COUNT n) + 1) ∧
          t.get (F.PORT_PAD_TXSEQ_NEXT n) = q ∧ x ∉ (t.pd n).resend ∧ Kept [.evt, .cen, .pch, .bank, .line, .pad, .drv, .cal, .dram, .chk, .out, .freeCtr] [.evt, .cmd, .portPad, .portCal, .memCtl, .memInteg, .freezeRec, .memCal, .fab, .cal, .evid] s t) ∧
      (s.padOn n = true → (s.pd n).resend = [] → stagedBytes (s.pd n).staged = 0 ∨ s.get (F.PORT_PAD_LIMIT_LIMIT n) ≤ seqSub q (s.oldest n) →
        ∃ t, exec (.codewordSlot port true) s = .next t ∧ u8 (t.lastLot n) 3 = 1 ∧ t.get (F.PORT_PAD_TXSEQ_NEXT n) = q ∧
          Kept [.evt, .cen, .pch, .bank, .line, .pad, .drv, .cal, .dram, .chk, .out, .freeCtr] [.evt, .cmd, .portPad, .portCal, .memCtl, .memInteg, .freezeRec, .memCal, .fab, .cal, .evid] s t)) ∧
    (∀ (word : BitVec 17280) (mag : List (BitVec 8)) (stalled : Bool),
      let runs := (takeRuns 17280 (s.ln n).rxRuns).1
      let out := decodeWord word mag (erasedMask runs)
      let hd := leBytes (out.toNat % 2 ^ 16200) 2025
      let seq := uLe hd 0 3
      let sound := erasedBits runs ≤ 1080 ∧ syndromeZero out = true ∧ uLe hd 7 2 = crc16 (hd.take 7)
      (s.pd n).rxStage = [] ∨ stalled = true →
      (¬ sound → ∃ t, exec (.lotReceived port word mag stalled) s = .next t ∧
        t.get (F.PORT_ILM_LOTS_LOST_COUNT n) = min (2 ^ 32 - 1) (s.get (F.PORT_ILM_LOTS_LOST_COUNT n) + 1) ∧
        (s.padOn n = true → (∀ a, a ≠ A.PORT_ILM_LOTS_LOST n → t.word a = s.word a) ∧ Kept [.cen, .line] [.portIlm] s t) ∧
        (s.padOn n = false → (t.pd n).hunt = true ∧ (t.pd n).rxFrame = none) ∧ Kept [.evt, .cen, .evid, .pch, .bank, .line, .pad, .drv, .cal, .dram, .chk, .out, .freeCtr] [.evt, .cmd, .portIlm, .portPad, .portCal, .portTone, .memCtl, .memInteg, .freezeRec, .memCal, .fab, .lane, .drv, .cal, .evid] s t) ∧
      (sound → (s.ln n).resolve = none → stalled = true → u8 hd 3 % 2 = 0 → ∃ t, exec (.lotReceived port word mag stalled) s = .next t ∧
        t.get (F.PORT_ILM_LOTS_OK_COUNT n) = min (2 ^ 32 - 1) (s.get (F.PORT_ILM_LOTS_OK_COUNT n) + 1) ∧
        ((s.pd n).rxStage.length < 16 → (t.pd n).rxStage.map (fun e => (e.1, e.2.1)) =
          (s.pd n).rxStage.map (fun e => (e.1, e.2.1)) ++ [(seq, uLe hd 4 2)]) ∧
        (16 ≤ (s.pd n).rxStage.length → t.pad = s.pad ∧
          t.get (F.PORT_PAD_STAGE_DROP_COUNT n) = min (2 ^ 32 - 1) (s.get (F.PORT_PAD_STAGE_DROP_COUNT n) + 1)) ∧
        Kept [.evt, .cen, .evid, .pch, .bank, .line, .pad, .drv, .cal, .dram, .chk, .out, .freeCtr] [.evt, .cmd, .portIlm, .portPad, .portCal, .portTone, .memCtl, .memInteg, .freezeRec, .memCal, .fab, .lane, .drv, .cal, .evid] s t) ∧
      (sound → (s.ln n).resolve = none → stalled = false → u8 hd 3 % 2 = 0 → s.padOn n = true →
        (seqAfter seq (s.get (F.PORT_PAD_RXSEQ_CUM n)) = false ∨ (s.pd n).rx.any (fun l => l.seq = seq) = true →
          ∃ t, exec (.lotReceived port word mag stalled) s = .next t ∧ t.pad = s.pad ∧
            t.get (F.PORT_PAD_DUP_COUNT n) = min (2 ^ 32 - 1) (s.get (F.PORT_PAD_DUP_COUNT n) + 1) ∧ Kept [.evt, .cen, .evid, .pch, .bank, .line, .pad, .drv, .cal, .dram, .chk, .out, .freeCtr] [.evt, .cmd, .portIlm, .portPad, .portCal, .portTone, .memCtl, .memInteg, .freezeRec, .memCal, .fab, .lane, .drv, .cal, .evid] s t) ∧
        (let due := seqAdd (s.get (F.PORT_PAD_RXSEQ_CUM n)) 1
         seqAfter seq (s.get (F.PORT_PAD_RXSEQ_CUM n)) = true → seq ≠ due → due ∉ (s.pd n).voided →
          (∀ l, l ∈ (s.pd n).rx → l.seq ≠ seq ∧ l.seq ≠ due) →
          (freePlace (s.pd n).rxGrains ((s.pd n).rx.map (·.place)) seq).isSome = true →
          ∃ t, exec (.lotReceived port word mag stalled) s = .next t ∧ (t.pd n).rx.any (fun l => l.seq = seq) = true ∧
            t.get (F.PORT_PAD_RXSEQ_CUM n) = s.get (F.PORT_PAD_RXSEQ_CUM n) ∧ Kept [.evt, .cen, .evid, .pch, .bank, .line, .pad, .drv, .cal, .dram, .chk, .out, .freeCtr] [.evt, .cmd, .portIlm, .portPad, .portCal, .portTone, .memCtl, .memInteg, .freezeRec, .memCal, .fab, .lane, .drv, .cal, .evid] s t)) ∧
      (sound → (s.ln n).resolve = none → stalled = false → s.padOn n = true → u8 hd 3 % 2 = 1 → seqAfter seq (s.pd n).high = true →
        (s.pd n).asked = [] → (s.pd n).rx = [] → (s.pd n).voided = [] → (s.pd n).high = s.get (F.PORT_PAD_RXSEQ_CUM n) →
        let run := seqSub seq (s.pd n).high
        run ≤ 128 → ∃ t, exec (.lotReceived port word mag stalled) s = .next t ∧
          (t.ln n).nakQ = (s.ln n).nakQ ++ [((s.pd n).high + 1) % 65536 * 256 + (run - 1)] ∧
          t.get (F.PORT_PAD_NAK_TX_COUNT n) = min (2 ^ 32 - 1) (s.get (F.PORT_PAD_NAK_TX_COUNT n) + 1) ∧
          (t.pd n).asked = (List.range run).map (fun i => (((s.pd n).high + 1 + i) % 2 ^ 24, s.time)) ∧ Kept [.evt, .cen, .evid, .pch, .bank, .line, .pad, .drv, .cal, .dram, .chk, .out, .freeCtr] [.evt, .cmd, .portIlm, .portPad, .portCal, .portTone, .memCtl, .memInteg, .freezeRec, .memCal, .fab, .lane, .drv, .cal, .evid] s t)) ∧
    (∀ x t0, (s.pd n).asked = [(x, t0)] → x < 2 ^ 24 → s.padOn n = true → s.ao.time10 < 10 * 2 ^ 64 →
      t0 + 1000 * max 16 (s.get (F.PORT_PAD_CFG_NAK_WAIT n)) < 2 ^ 64 →
      ∃ t, exec (.nakWaitExpiry port) s = .next t ∧ (t.pd n).asked = [(x, t.time)] ∧
        (t.ln n).nakQ = (s.ln n).nakQ ++ [x % 65536 * 256] ∧
        t.ao.time10 = max s.ao.time10 (10 * (t0 + 1000 * max 16 (s.get (F.PORT_PAD_CFG_NAK_WAIT n)))) ∧
        t.get (F.PORT_PAD_NAK_TX_COUNT n) = min (2 ^ 32 - 1) (s.get (F.PORT_PAD_NAK_TX_COUNT n) + 1) ∧ Kept [.line, .pad, .time] [.portPad] s t)

/-- ACK, NAK and the paddock messages (R126, R130, R132, R133, R137). -/
def Obligations.AcksNaksAndPaddockMessages : Prop :=
  (∀ (port : BitVec 4) (s : State), let n := port.toNat
    let next := s.get (F.PORT_PAD_TXSEQ_NEXT n)
    let u := s.oldest n
    s.upIlm n = true ∧ s.padOn n = true →
    (∀ cum : BitVec 24,
      (seqAfter cum.toNat (seqAdd next (2 ^ 24 - 1)) = true →
        ∃ t, exec (.ackWord port cum) s = .next t ∧ t.pad = s.pad ∧
          t.get (F.PORT_PAD_BAD_WORD_COUNT n) = min (2 ^ 32 - 1) (s.get (F.PORT_PAD_BAD_WORD_COUNT n) + 1) ∧
          (∀ a, a ≠ A.PORT_PAD_BAD_WORD n → t.word a = s.word a) ∧ Kept [] [.portPad] s t) ∧
      (seqAfter cum.toNat (seqAdd next (2 ^ 24 - 1)) = false →
        (seqAfter cum.toNat (seqAdd u (2 ^ 24 - 1)) = false → exec (.ackWord port cum) s = .next s) ∧
        (seqAfter cum.toNat (seqAdd u (2 ^ 24 - 1)) = true →
          ∃ t, exec (.ackWord port cum) s = .next t ∧ (t.pd n).tx = (s.pd n).tx.filter (fun l => seqAfter l.seq cum.toNat) ∧
            (t.pd n).resend = (s.pd n).resend.filter (fun x => seqAfter x cum.toNat) ∧ Kept [.evt, .cen, .pad, .out] [.evt, .portPad, .fab] s t))) ∧
    (∀ w : BitVec 24,
      let off := (bits w.toNat 8 16 + 65536 - u % 65536) % 65536
      let outstanding := seqSub next u
      let run := if w.getLsbD 7 then outstanding - off else w.toNat % 128 + 1
      ∃ t, exec (.nakWord port w) s = .next t ∧
        t.get (F.PORT_PAD_NAK_RX_COUNT n) = min (2 ^ 32 - 1) (s.get (F.PORT_PAD_NAK_RX_COUNT n) + 1) ∧
        (outstanding < off + run ∨ run = 0 → t.pad = s.pad ∧
          t.get (F.PORT_PAD_BAD_WORD_COUNT n) = min (2 ^ 32 - 1) (s.get (F.PORT_PAD_BAD_WORD_COUNT n) + 1)) ∧
        (off + run ≤ outstanding → run ≠ 0 →
          (t.pd n).resend.Sublist (((s.pd n).tx.filter fun l => !l.void).map (·.seq)) ∧
          (∀ x, x ∈ ((s.pd n).tx.filter fun l => !l.void).map (·.seq) →
            (x ∈ (t.pd n).resend ↔ x ∈ (s.pd n).resend ∨ (off ≤ seqSub x u ∧ seqSub x u < off + run))) ∧
          t.get (F.PORT_PAD_BAD_WORD_COUNT n) = s.get (F.PORT_PAD_BAD_WORD_COUNT n)) ∧
        Kept [.pad] [.portPad] s t)) ∧
  (∀ (port : BitVec 4) (seq : BitVec 8) (s : State), let n := port.toNat
    s.inOrder n seq.toNat →
    (∀ (rx tx : BitVec 16) (b : Bool),
      ∃ t, exec (.padParams port seq rx tx b) s = .next t ∧ Acked n 0x40 seq.toNat s t ∧ (t.pd n).partnerRx = rx.toNat ∧
        t.get (F.PORT_PAD_LIMIT_LIMIT n) = min (capacity (s.pd n).txGrains) rx.toNat ∧ Kept [.cen, .line, .pad] [.portPad] s t) ∧
    (∀ (cum high : BitVec 24) (kept : Bool),
      ∃ t, exec (.padResume port seq cum high kept) s = .next t ∧ Acked n 0x41 seq.toNat s t ∧
        (t.pd n).resume = some (cum.toNat, high.toNat, kept) ∧ t.regs = s.regs ∧ Kept [.cen, .line, .pad] [] s t) ∧
    (∀ x : BitVec 24, seqAfter x.toNat (s.get (F.PORT_PAD_RXSEQ_CUM n)) = true → (∀ l, l ∈ (s.pd n).rx → l.seq ≠ x.toNat) →
      x.toNat ∉ (s.pd n).voided →
      ∃ t, exec (.padVoid port seq [(x, 1)]) s = .next t ∧
        t.get (F.PORT_PAD_VOID_RX_COUNT n) = min (2 ^ 32 - 1) (s.get (F.PORT_PAD_VOID_RX_COUNT n) + 1) ∧
        (∀ e, e ∈ (t.pd n).asked → e.1 ≠ x.toNat) ∧ Kept [.evt, .cen, .evid, .pch, .bank, .line, .pad, .drv, .cal, .dram, .chk, .out, .freeCtr] [.evt, .cmd, .portIlm, .portPad, .portCal, .memCtl, .memInteg, .freezeRec, .memCal, .fab, .lane, .cal, .evid] s t))

/-- Search and the three-burst exchange (R198, R199). -/
def Obligations.TraverseSearchEstablishesLinks : Prop :=
  ∀ (port : BitVec 4) (h : TrvHdr) (s : State), let n := port.toNat
    s.allowsTrv n = true ∧ s.clocked = true ∧ s.sweeps n = false ∧ s.up n = false →
    (s.an n = 8 → s.trvState n < 3 →
      ∃ t, exec (.linkreq port h) s = .next t ∧ t.trvState n = 2 ∧ (t.tv n).tag = h.tag.toNat ∧ (t.tv n).awaits = 2 ∧
        t.out = .burst n (t.lastBurst n) [] :: s.out ∧ u8 (t.lastBurst n) 0 = 3 ∧ uLe (t.lastBurst n) 10 4 = h.tag.toNat ∧ uLe (t.lastBurst n) 14 2 = crc16 ((t.lastBurst n).take 14) ∧
        t.get (F.PORT_TRV_BURST_TX_COUNT n) = min (2 ^ 32 - 1) (s.get (F.PORT_TRV_BURST_TX_COUNT n) + 1) ∧ Kept [.cen, .line, .trv, .drv, .out] [.portLink, .portTrv] s t) ∧
    (s.trvStands n = true →
      ∃ t, exec (.linkreq port h) s = .next t ∧ t.trvState n = s.trvState n ∧
        t.get (F.PORT_TRV_HDR_ERR_COUNT n) = min (2 ^ 32 - 1) (s.get (F.PORT_TRV_HDR_ERR_COUNT n) + 1) ∧ Kept [.trv] [.portTrv] s t) ∧
    (s.an n = 8 → s.trvState n < 3 → 20 ≤ s.get (F.PORT_TRV_STATE_Q0_RX n) →
      ((s.tv n).awaits = 1 → h.tag.toNat = (s.tv n).tag →
        ∃ t, exec (.linkacc port h) s = .next t ∧ t.trvState n = 3 ∧ t.trvMaster n = true ∧ t.flag (F.PORT_TRV_STATE_TOKEN n) = false ∧
          t.out.head? = some (.burst n (t.lastBurst n) []) ∧ u8 (t.lastBurst n) 0 = 4 ∧ u8 (t.lastBurst n) 1 % 2 = 1 ∧ t.get (F.PORT_TRV_STATE_Q0_PARTNER n) = h.q0.toNat ∧
          Kept [.evt, .cen, .line, .pad, .lane, .trv, .apply, .clk, .pwr, .out, .freeCtr] [.evt, .cmd, .portLink, .portIlm, .portPad, .portTrv, .portTone, .slices, .fab, .lane, .piste, .tst] s t) ∧
      ((s.tv n).awaits = 2 → h.tag.toNat = (s.tv n).tag →
        ∃ t, exec (.linkcfm port h) s = .next t ∧ t.trvState n = 3 ∧ t.trvMaster n = false ∧ t.flag (F.PORT_TRV_STATE_TOKEN n) = true ∧
          (t.tv n).held.length = 1 ∧ (∀ b, b ∈ (t.tv n).held → b.typ = 6 ∧ b.seq = 0 ∧ b.payload = (t.tv n).own ∧ b.sent = false) ∧
          (t.tv n).own = s.identBody n (s.freeBytes 4) (t.tv n).span ∧
          (t.tv n).turnAt = s.time + 1000 * s.trvTurnGap n ∧ t.freeCtr = s.freeCtr + 4 ∧ Kept [.evt, .cen, .line, .pad, .lane, .trv, .apply, .clk, .pwr, .out, .freeCtr] [.evt, .cmd, .portLink, .portIlm, .portPad, .portTrv, .portTone, .slices, .fab, .lane, .piste, .tst] s t) ∧
      (h.tag.toNat ≠ (s.tv n).tag →
        (∃ t, exec (.linkacc port h) s = .next t ∧ t.trvState n = s.trvState n ∧
          t.get (F.PORT_TRV_HDR_ERR_COUNT n) = min (2 ^ 32 - 1) (s.get (F.PORT_TRV_HDR_ERR_COUNT n) + 1) ∧ Kept [.trv] [.portTrv] s t) ∧
        (∃ t, exec (.linkcfm port h) s = .next t ∧ t.trvState n = s.trvState n ∧
          t.get (F.PORT_TRV_HDR_ERR_COUNT n) = min (2 ^ 32 - 1) (s.get (F.PORT_TRV_HDR_ERR_COUNT n) + 1) ∧ Kept [.trv] [.portTrv] s t))) ∧
    (s.an n = 8 → s.trvState n = 1 →
      ∃ t, exec (.linkreqRetry port) s = .next t ∧ (t.tv n).tag = max 1 (Config.freeWord s.freeCtr).toNat ∧ (t.tv n).awaits = 1 ∧
        t.freeCtr = s.freeCtr + 2 ∧ t.out = .burst n (t.lastBurst n) [] :: s.out ∧ u8 (t.lastBurst n) 0 = 2 ∧
        t.ao.time10 = max s.ao.time10 (10 * (s.tv n).retryAt) ∧ Kept [.cen, .trv, .out, .freeCtr, .time] [.portTrv] s t) ∧
    (s.an n = 8 → (s.tv n).awaits ≠ 0 → (s.tv n).ownEnd ≤ (s.tv n).heardAt → (s.tv n).heardAt ≤ (s.tv n).ownEnd + 1000000 →
      exec (.acquisitionTimeout port) s = .next s) ∧
    (s.an n = 8 → (s.tv n).awaits ≠ 0 → (s.tv n).heardAt < (s.tv n).ownEnd ∨ (s.tv n).ownEnd + 1000000 < (s.tv n).heardAt →
      ∃ t, exec (.acquisitionTimeout port) s = .next t ∧ t.trvState n = 1 ∧ (t.tv n).awaits = 0 ∧
        t.ao.time10 = max s.ao.time10 (10 * ((s.tv n).ownEnd + 1000000)) ∧ Kept [.trv, .time] [.portTrv] s t) ∧
    (s.an n = 8 → s.trvState n = 1 → s.negotiates n →
      ∃ t, exec (.searchExpiry port) s = .next t ∧ t.trvState n = 0 ∧ t.an n = 1 ∧
        t.ao.time10 = max s.ao.time10 (10 * ((s.tv n).since + 500000000 * max 1 (s.get (F.PORT_TRV_CFG_SEARCH n)))) ∧
        Kept [.line, .trv, .apply, .out, .freeCtr, .time] [.portLink, .portTrv] s t) ∧
    (∀ t0, (s.ln n).anSince = some t0 → s.an n = 1 → s.get (F.PORT_TRV_CFG_TRV_AFTER n) ≠ 0 → s.starts = true →
      ∃ t, exec (.trvAfterExpiry port) s = .next t ∧ t.an n = 2 ∧ (t.ln n).target = 9 ∧ (t.ln n).tokenAt = some t.time ∧
        t.ao.time10 = max s.ao.time10 (10 * (t0 + 500000000 * s.get (F.PORT_TRV_CFG_TRV_AFTER n))) ∧
        Kept [.line, .time] [.portLink] s t)

/-- The bursts of a standing link (R192, R202, R203, R205, R207). -/
def Obligations.TraverseBursts : Prop :=
  ∀ (port : BitVec 4) (h : TrvHdr) (coded : Bytes) (missing : List (BitVec 14)) (s : State), let n := port.toNat
    let payload := trvDecode coded (erasedBytes h.code.toNat (missing.map BitVec.toNat))
    (s.trvStands n = true ∧ (s.up n = true → s.mode n = 9) ∧ 20 ≤ s.get (F.PORT_TRV_STATE_Q0_RX n) ∧ (s.tv n).got = [] ∧
        h.base.toNat = ((s.tv n).ackSeq + 1) % 256 ∧ h.tag.toNat = (s.tv n).tag →
      (∃ t, exec (.tokenBurst port h) s = .next t ∧ t.trvStands n = true ∧
        t.flag (F.PORT_TRV_STATE_TOKEN n) = (h.pass || s.flag (F.PORT_TRV_STATE_TOKEN n)) ∧
        (h.pass = true → (t.tv n).turnAt = s.time + 1000 * s.trvTurnGap n) ∧ (t.tv n).wholeAt = s.time ∧
        t.get (F.PORT_TRV_BURST_OK_COUNT n) = min (2 ^ 32 - 1) (s.get (F.PORT_TRV_BURST_OK_COUNT n) + 1) ∧ Kept [.evt, .cen, .evid, .pch, .bank, .line, .pad, .lane, .trv, .drv, .apply, .cal, .clk, .dram, .chk, .pwr, .out, .freeCtr] [.evt, .cmd, .portLink, .portIlm, .portPad, .portTrv, .portCal, .portTone, .slices, .memCtl, .memInteg, .freezeRec, .memCal, .fab, .lane, .cal, .piste, .evid, .tst] s t) ∧
      (fourMissing (missing.map BitVec.toNat) = true → s.allowsTrv n = true →
        ∃ t, exec (.dataBurst port h coded missing) s = .next t ∧ (t.tv n).ackSeq = (s.tv n).ackSeq ∧ (t.tv n).wholeAt = (s.tv n).wholeAt ∧
          t.flag (F.PORT_TRV_STATE_TOKEN n) = s.flag (F.PORT_TRV_STATE_TOKEN n) ∧
          t.get (F.PORT_TRV_TRUNC_COUNT n) = min (2 ^ 32 - 1) (s.get (F.PORT_TRV_TRUNC_COUNT n) + 1) ∧ Kept [.trv] [.portTrv] s t) ∧
      (payload = none → fourMissing (missing.map BitVec.toNat) = false → ∃ t, exec (.dataBurst port h coded missing) s = .next t ∧ (t.tv n).ackSeq = (s.tv n).ackSeq ∧
        t.get (F.PORT_TRV_PAY_ERR_COUNT n) = min (2 ^ 32 - 1) (s.get (F.PORT_TRV_PAY_ERR_COUNT n) + 1) ∧
        t.get (F.PORT_TRV_BURST_OK_COUNT n) = s.get (F.PORT_TRV_BURST_OK_COUNT n) ∧ Kept [.evt, .cen, .evid, .pch, .bank, .line, .pad, .lane, .trv, .drv, .apply, .cal, .clk, .dram, .chk, .pwr, .out, .freeCtr] [.evt, .cmd, .portLink, .portIlm, .portPad, .portTrv, .portCal, .portTone, .slices, .memCtl, .memInteg, .freezeRec, .memCal, .fab, .lane, .cal, .piste, .evid, .tst] s t) ∧
      (∀ p, payload = some p → fourMissing (missing.map BitVec.toNat) = false → h.seq.toNat = ((s.tv n).ackSeq + 1) % 256 →
        ∃ t, exec (.dataBurst port h coded missing) s = .next t ∧ (t.tv n).ackSeq = h.seq.toNat ∧ (t.tv n).got = [] ∧
          t.get (F.PORT_TRV_STATE_CODE_RX n) = h.code.toNat ∧
          t.get (F.PORT_TRV_BURST_OK_COUNT n) = min (2 ^ 32 - 1) (s.get (F.PORT_TRV_BURST_OK_COUNT n) + 1) ∧ Kept [.evt, .cen, .evid, .pch, .bank, .line, .pad, .lane, .trv, .drv, .apply, .cal, .clk, .dram, .chk, .pwr, .out, .freeCtr] [.evt, .cmd, .portLink, .portIlm, .portPad, .portTrv, .portCal, .portTone, .slices, .memCtl, .memInteg, .freezeRec, .memCal, .fab, .lane, .cal, .piste, .evid, .tst] s t) ∧
      (∀ p, payload = some p → fourMissing (missing.map BitVec.toNat) = false → h.seq.toNat = ((s.tv n).ackSeq + 1) % 256 → s.trvState n = 3 → s.trvMaster n = true → (s.ln n).ident = [] → p.length = 94 →
        ∃ t, exec (.identBurst port h coded missing) s = .next t ∧ (t.ln n).ident = p ∧ t.get (F.PORT_PARTNER_INFO_PART n) = uLe p 0 2 ∧
          t.freeCtr = s.freeCtr + 12 ∧ (∃ b, b ∈ (t.tv n).held ∧ b.typ = 6 ∧ b.sent = false) ∧ Kept [.evt, .cen, .evid, .pch, .bank, .line, .pad, .lane, .trv, .drv, .apply, .cal, .clk, .dram, .chk, .pwr, .out, .freeCtr] [.evt, .cmd, .portLink, .portIlm, .portPad, .portTrv, .portCal, .portTone, .slices, .memCtl, .memInteg, .freezeRec, .memCal, .fab, .lane, .cal, .piste, .evid, .tst] s t) ∧
      (∀ p, payload = some p → fourMissing (missing.map BitVec.toNat) = false → h.seq.toNat = ((s.tv n).ackSeq + 1) % 256 → s.trvState n = 3 → s.trvMaster n = true → (s.ln n).ident ≠ [] →
        (s.tv n).judged = false → s.up n = false →
        let ok := ecdsaVerify (identKey (s.ln n).ident) ((s.tv n).nonce ++ (s.ln n).ident) p
        ∃ t, exec (.proofBurst port h coded missing) s = .next t ∧ t.get (F.PORT_PARTNER_INFO_AUTH n) = (if ok then 1 else 2) ∧
          (ok = true ∨ s.flag (F.PORT_LINK_CFG_REQUIRE_AUTH n) = false → (t.tv n).judged = true) ∧
          (ok = false → s.flag (F.PORT_LINK_CFG_REQUIRE_AUTH n) = true → t.trvState n = 0 ∧ t.get (F.PORT_LINK_STATUS_DOWN_CAUSE n) = 11) ∧
          Kept [.evt, .cen, .evid, .pch, .bank, .line, .pad, .lane, .trv, .drv, .apply, .cal, .clk, .dram, .chk, .pwr, .out, .freeCtr] [.evt, .cmd, .portLink, .portIlm, .portPad, .portTrv, .portCal, .portTone, .slices, .memCtl, .memInteg, .freezeRec, .memCal, .fab, .lane, .cal, .piste, .evid, .tst] s t) ∧
      (∃ t, exec (.leave port h) s = .next t ∧ t.up n = false ∧ t.trvState n = 0 ∧ t.get (F.PORT_LINK_STATUS_DOWN_CAUSE n) = 5 ∧
        t.get (F.PORT_LINK_DOWNS_COUNT n) = min (2 ^ 32 - 1) (s.get (F.PORT_LINK_DOWNS_COUNT n) + 1) ∧ Kept [.evt, .cen, .line, .pad, .lane, .trv, .apply, .clk, .pwr, .out, .freeCtr] [.evt, .cmd, .portLink, .portIlm, .portPad, .portTrv, .portTone, .slices, .fab, .lane, .piste, .tst] s t)) ∧
    (∀ hdr : BitVec 128, (s.tv n).rcpt.isSome = true → s.clocked = true →
      let b := leBytes hdr.toNat 16
      (crc16 (b.take 14) ≠ uLe b 14 2 →
        ∃ t, exec (.trvHeaderDiscard port hdr) s = .next t ∧ (t.tv n).rcpt = none ∧ t.regs = s.regs ∧ Kept [.trv] [] s t) ∧
      (crc16 (b.take 14) = uLe b 14 2 → 8 ≤ u8 b 0 % 16 ∨ s.trvStands n = true ∧ uLe b 10 4 ≠ (s.tv n).tag →
        ∃ t, exec (.trvHeaderDiscard port hdr) s = .next t ∧ (t.tv n).rcpt = none ∧
          t.get (F.PORT_TRV_HDR_ERR_COUNT n) = min (2 ^ 32 - 1) (s.get (F.PORT_TRV_HDR_ERR_COUNT n) + 1) ∧ Kept [.trv] [.portTrv] s t))

/-- The receiver of a Traverse port (R189, R194 to R197). -/
def Obligations.TraverseReceptions : Prop :=
  ∀ (port : BitVec 4) (len : BitVec 2) (snr gain : BitVec 8) (delay : BitVec 32) (s : State), let n := port.toNat
    let got (first : Bool) : Rcpt :=
      { len := len.toNat, peak := snr.toNat, delay := if first then some delay.toNat else none, gain := min 96 gain.toNat, frozen := false }
    let q0 := min 255 (snr.toNat + (if len = 0 then 0 else if len = 1 then 12 else 24))
    (s.trvListens n len.toNat = true → (s.tv n).rcpt = none →
      ∃ t, exec (.preambleDetected port len snr gain delay) s = .next t ∧ (t.tv n).rcpt = some (got (s.tv n).measures) ∧ (t.tv n).measures = false ∧ (t.tv n).heardAt = s.time ∧
        t.get (F.PORT_TRV_STATE_Q0_RX n) = q0 ∧ (∀ a, a ≠ A.PORT_TRV_STATE n → t.word a = s.word a) ∧ Kept [.trv] [.portTrv] s t) ∧
    (∀ r, (s.tv n).rcpt = some r → s.clocked = true →
      (∃ t, exec (.falseDetection port none) s = .next t ∧ (t.tv n).rcpt = none ∧
        t.get (F.PORT_TRV_FALSE_SYNC_COUNT n) = min (2 ^ 32 - 1) (s.get (F.PORT_TRV_FALSE_SYNC_COUNT n) + 1) ∧ Kept [.trv] [.portTrv] s t) ∧
      (∀ w : BitVec 48, let tol := min 8 (s.get (F.PORT_TRV_CFG_SYNC_TOL n))
        (differing w.toNat 0x9A6E2D51C7B3 ≤ tol →
          ∃ t, exec (.falseDetection port (some w)) s = .next t ∧ (t.tv n).rcpt = some { r with frozen := true } ∧ Kept [.trv] [] s t) ∧
        (tol < differing w.toNat 0x9A6E2D51C7B3 → exec (.falseDetection port (some w)) s = exec (.falseDetection port none) s)) ∧
      (∀ k : BitVec 8,
        (snr.toNat < r.peak + 2 * max 1 (s.get (F.PORT_TRV_CFG_SHADOW_DB n)) → exec (.shadowRestart port k len snr gain delay) s = .next s) ∧
        (r.peak + 2 * max 1 (s.get (F.PORT_TRV_CFG_SHADOW_DB n)) ≤ snr.toNat → k.toNat ≤ 24 →
          ∃ t, exec (.shadowRestart port k len snr gain delay) s = .next t ∧ (t.tv n).rcpt = some (got r.delay.isSome) ∧
            t.get (F.PORT_TRV_STATE_Q0_RX n) = q0 ∧
            t.get (F.PORT_TRV_SHADOW_COUNT n) = min (2 ^ 32 - 1) (s.get (F.PORT_TRV_SHADOW_COUNT n) + 1) ∧ Kept [.trv] [.portTrv] s t) ∧
        (r.peak + 2 * max 1 (s.get (F.PORT_TRV_CFG_SHADOW_DB n)) ≤ snr.toNat → 24 < k.toNat →
          ∃ t, exec (.shadowRestart port k len snr gain delay) s = .next t ∧ t.trv = s.trv ∧
            t.get (F.PORT_TRV_SHADOW_LATE_COUNT n) = min (2 ^ 32 - 1) (s.get (F.PORT_TRV_SHADOW_LATE_COUNT n) + 1) ∧
            Kept [] [.portTrv] s t)) ∧
      (∃ t, exec (.burstTruncated port) s = .next t ∧ (t.tv n).rcpt = none ∧ (t.tv n).reqRx ≤ (s.tv n).reqRx - 1 ∧ (t.tv n).streak = 0 ∧
        t.get (F.PORT_TRV_TRUNC_COUNT n) = min (2 ^ 32 - 1) (s.get (F.PORT_TRV_TRUNC_COUNT n) + 1) ∧ Kept [.trv] [.portTrv] s t))

/-- Turns (R203, R204), loss (R207) and the bell (R208 to R211). -/
def Obligations.TurnsLossAndBells : Prop :=
  ∀ (port : BitVec 4) (s : State), let n := port.toNat
    (s.trvStands n = true → s.flag (F.PORT_TRV_STATE_TOKEN n) = true → (s.tv n).held = [] → (s.pd n).toLine = [] →
      s.flag (F.PORT_BELL_STATE_SENDING n) = false →
      ∃ t, exec (.turnStart port) s = .next t ∧ t.flag (F.PORT_TRV_STATE_TOKEN n) = false ∧ .burst n (t.lastBurst n) [] ∈ t.out ∧
        u8 (t.lastBurst n) 0 = 1 ∧ u8 (t.lastBurst n) 1 % 2 = 1 ∧ t.get (F.PORT_TRV_BURST_TX_COUNT n) = min (2 ^ 32 - 1) (s.get (F.PORT_TRV_BURST_TX_COUNT n) + 1) ∧
        t.ao.time10 = max s.ao.time10 (10 * (s.tv n).turnAt) ∧ t.trvStands n = true ∧ Kept [.evt, .cen, .line, .pad, .lane, .trv, .apply, .clk, .pwr, .out, .freeCtr, .time] [.evt, .cmd, .portLink, .portIlm, .portPad, .portTrv, .portTone, .slices, .fab, .lane, .piste, .tst] s t) ∧
    (s.trvStands n = true → s.trvMaster n = true → s.flag (F.PORT_TRV_STATE_TOKEN n) = false → (s.tv n).rcpt = none → (s.tv n).held = [] → (s.pd n).toLine = [] →
      s.flag (F.PORT_BELL_STATE_SENDING n) = false →
      ∃ t, exec (.tokenReclaim port) s = .next t ∧ .burst n (t.lastBurst n) [] ∈ t.out ∧ u8 (t.lastBurst n) 0 = 1 ∧
        t.get (F.PORT_TRV_TOKEN_RECLAIM_COUNT n) = min (2 ^ 32 - 1) (s.get (F.PORT_TRV_TOKEN_RECLAIM_COUNT n) + 1) ∧
        t.ao.time10 = max s.ao.time10 (10 * (max (s.tv n).heardAt (s.tv n).ownEnd + s.trvTurnMax n + 2000000)) ∧
        Kept [.evt, .cen, .line, .pad, .lane, .trv, .apply, .clk, .pwr, .out, .freeCtr, .time] [.evt, .cmd, .portLink, .portIlm, .portPad, .portTrv, .portTone, .slices, .fab, .lane, .piste, .tst] s t) ∧
    (s.trvStands n = true → s.trvMaster n = false → exec (.tokenReclaim port) s = .next s) ∧
    (s.trvStands n = true → s.flag (F.PORT_TRV_STATE_TOKEN n) = true → s.up n = true → (s.tv n).held = [] → (s.pd n).toLine = [] →
      s.flag (F.PORT_BELL_STATE_SENDING n) = true → (s.tv n).bellAt + 1000000 ≤ s.time →
      ∃ t, exec (.turnStart port) s = .next t ∧ .bell n (s.get (F.PORT_BELL_CMD_GROUP n)) ∈ t.out ∧ (t.tv n).bellAt = t.time ∧
        t.get (F.PORT_BELL_STATE_LEFT n) = s.get (F.PORT_BELL_STATE_LEFT n) - 1 ∧ t.flag (F.PORT_TRV_STATE_TOKEN n) = false ∧
        Kept [.evt, .cen, .line, .pad, .lane, .trv, .apply, .clk, .pwr, .out, .freeCtr, .time] [.evt, .cmd, .portLink, .portIlm, .portPad, .portTrv, .portTone, .slices, .fab, .lane, .piste, .tst] s t) ∧
    (s.trvStands n = true → (s.up n = true → s.mode n = 9) → n < s.nPorts →
      ∃ t, exec (.trvLossTimeout port) s = .next t ∧ t.up n = false ∧ t.trvState n = 0 ∧ t.get (F.PORT_LINK_STATUS_DOWN_CAUSE n) = 2 ∧
        t.get (F.PORT_LINK_DOWNS_COUNT n) = min (2 ^ 32 - 1) (s.get (F.PORT_LINK_DOWNS_COUNT n) + 1) ∧
        t.isPending (Ev.portLinkDown n) = true ∧
        t.ao.time10 = max s.ao.time10 (10 * ((s.tv n).wholeAt + s.trvLoss n)) ∧ Kept [.evt, .cen, .line, .pad, .lane, .trv, .apply, .clk, .pwr, .out, .freeCtr, .time] [.evt, .cmd, .portLink, .portIlm, .portPad, .portTrv, .portTone, .slices, .fab, .lane, .piste, .tst] s t) ∧
    (s.flag (F.PORT_BELL_STATE_SENDING n) = true → s.up n = false → s.clocked = true →
      ∃ t, exec (.bellSend port) s = .next t ∧ t.out = .bell n (s.get (F.PORT_BELL_CMD_GROUP n)) :: s.out ∧
        t.get (F.PORT_BELL_STATE_LEFT n) = s.get (F.PORT_BELL_STATE_LEFT n) - 1 ∧
        t.flag (F.PORT_BELL_STATE_SENDING n) = decide (1 < s.get (F.PORT_BELL_STATE_LEFT n)) ∧
        t.get (F.PORT_BELL_SENT_COUNT n) = min (2 ^ 32 - 1) (s.get (F.PORT_BELL_SENT_COUNT n) + 1) ∧
        t.ao.time10 = max s.ao.time10 (10 * ((s.tv n).bellAt + 1000000)) ∧ Kept [.trv, .out, .time] [.portTrv] s t) ∧
    (∀ (chirps : BitVec 4) (code : BitVec 16) (boot : Boot), let g := s.get (F.PORT_BELL_CFG_GROUP n)
      n < s.nPorts → s.flag (F.PORT_BELL_CFG_LISTEN n) = true → s.up n = false →
      (chirps.toNat < 6 → exec (.bellAccepted port chirps code boot) s = .next s) ∧
      (6 ≤ chirps.toNat → (code = 0xFFFF ∨ (code.toNat = g ∧ g ≠ 0)) →
        (s.pwr.mode = 0 ∧ s.pwr.entry = 0) ∨ (s.get F.PWR_WAKE_EN_ENABLE).testBit 0 = false →
        ∃ t, exec (.bellAccepted port chirps code boot) s = .next t ∧ t.isPending (Ev.portBellRx n) = true ∧
          t.get (F.PORT_BELL_STATE_LAST_RX n) = code.toNat ∧
          t.get (F.PORT_BELL_HEARD_COUNT n) = min (2 ^ 32 - 1) (s.get (F.PORT_BELL_HEARD_COUNT n) + 1) ∧
          Kept [.evt, .cen, .out] [.evt, .portTrv] s t))

/-- MEM_REQUEST, writes (R241, R242, R259, R266, R272, R274). -/
def Obligations.StackWritesReplaceTheEnabledBytes : Prop :=
  ∀ (req : BitVec 6) (part : BitVec 4) (addr : BitVec 40) (en : BitVec 64) (data : Bytes) (hint capped : Bool) (s : State),
    let k := part.toNat
    let a := addr.toNat / 64 * 64
    let q := (s.unitReq req.toNat k a en.toNat true data).1
    let pc := (s.unitReq req.toNat k a en.toNat true data).2
    let cellOf (i : Nat) : Nat := cellAddr pc q.bank ((s.bk pc q.bank).physRow q.row) (64 * q.unit + i)
    let armed := s.flag (F.MEM_FLIP_CTRL_ARM (pc / 2) (pc % 2)) = true ∧ s.get (F.MEM_FLIP_CTRL_FLIP_REQ (pc / 2) (pc % 2)) = req.toNat
    let allowed := s.coreOn = true ∧ s.partValid k = true ∧ a < s.partBytes k ∧ en ≠ 0 ∧
      s.reaches req.toNat (s.get (F.FAB_PART_TYPE k)) true = true
    (¬ allowed → exec (.memRequest req part addr en true data hint capped false []) s = .next s) ∧
    (allowed → s.fenced pc = true → ∃ t, exec (.memRequest req part addr en true data hint capped false []) s = .next t ∧
      t.get (F.MEM_FENCED_REQ_COUNT (pc / 2) (pc % 2)) = min (2 ^ 32 - 1) (s.get (F.MEM_FENCED_REQ_COUNT (pc / 2) (pc % 2)) + 1) ∧
      t.out = .memAnswer req.toNat outFenced [] :: s.out ∧ Kept [.out, .cen] [.memCtl, .memInteg] s t) ∧
    (allowed → s.fenced pc = false → s.stackHeld pc = true → (s.pc pc).queue.length < 64 →
      ∃ t, exec (.memRequest req part addr en true data hint capped false []) s = .next t ∧
        (t.pc pc).queue = (s.pc pc).queue ++ [{ q with page := s.get (F.FAB_PART_PAGE k), hint := hint }] ∧
        Kept [.pch] [.memCtl] s t) ∧
    (allowed → s.fenced pc = false → s.stackHeld pc = false → ∃ t, exec (.memRequest req part addr en true data hint capped false []) s = .next t ∧
      t.out = .memAnswer req.toNat outClean [] :: s.out ∧ (t.bk pc q.bank).rowFilled q.row = true ∧
      (∀ c, (∀ i, i < 64 → en.getLsbD i = true → c ≠ cellOf i) → t.cell c = s.cell c) ∧
      (¬ armed → ∀ i, i < 64 → en.getLsbD i = true →
        t.cell (cellOf i) = ((data.getD i 0).toNat, checkBits (data.getD i 0).toNat)) ∧
      (armed → t.flag (F.MEM_FLIP_CTRL_ARM (pc / 2) (pc % 2)) = false ∧ ∀ i, i < 64 → en.getLsbD i = true →
        let f := if (s.get (F.MEM_FLIP_CTRL_BEATS (pc / 2) (pc % 2))).testBit (i / 8) then flipOf (s.flipMask pc) (i % 8) else (0, 0)
        t.cell (cellOf i) = ((data.getD i 0).toNat ^^^ f.1, checkBits (data.getD i 0).toNat ^^^ f.2)) ∧
      Kept [.cen, .pch, .bank, .drv, .dram, .chk, .out, .freeCtr] [.memCtl, .memInteg] s t)

/-- MEM_REQUEST, reads (R242, R261, R263, R266, R274), and MEM_CMD_PARITY_ERROR (R273). -/
def Obligations.StackReadsAnswerOneOutcome : Prop :=
  (∀ (req : BitVec 6) (part : BitVec 4) (addr : BitVec 40) (en : BitVec 64) (hint capped : Bool) (s : State),
    let k := part.toNat
    let a := addr.toNat / 64 * 64
    let q := (s.unitReq req.toNat k a en.toNat false []).1
    let pc := (s.unitReq req.toNat k a en.toNat false []).2
    let bank := s.bk pc q.bank
    let byteOf (i : Nat) : ByteRead :=
      let c := s.cell (cellAddr pc q.bank (bank.physRow q.row) (64 * q.unit + i)); decodeByte c.1 c.2
    s.coreOn = true ∧ s.partValid k = true ∧ a < s.partBytes k ∧ en ≠ 0 ∧ s.reaches req.toNat (s.get (F.FAB_PART_TYPE k)) false = true →
    (s.fenced pc = true → ∃ t, exec (.memRequest req part addr en false [] hint capped false []) s = .next t ∧
      t.get (F.MEM_FENCED_REQ_COUNT (pc / 2) (pc % 2)) = min (2 ^ 32 - 1) (s.get (F.MEM_FENCED_REQ_COUNT (pc / 2) (pc % 2)) + 1) ∧
      t.out = .memAnswer req.toNat outFenced (List.replicate 64 0) :: s.out ∧ Kept [.out, .cen] [.memCtl, .memInteg] s t) ∧
    (s.fenced pc = false → s.stackHeld pc = false →
      (bank.rowFilled q.row = false → ∃ t, exec (.memRequest req part addr en false [] hint capped false []) s = .next t ∧
        t.out = .memAnswer req.toNat outUnwritten (List.replicate 64 0) :: s.out ∧
        t.get (F.MEM_UNWRITTEN_RD_COUNT (pc / 2) (pc % 2)) = min (2 ^ 32 - 1) (s.get (F.MEM_UNWRITTEN_RD_COUNT (pc / 2) (pc % 2)) + 1) ∧
        Kept [.cen, .pch, .bank, .drv, .out, .freeCtr] [.memCtl, .memInteg] s t) ∧
      (bank.rowFilled q.row = true → (∀ i, i < 64 → en.getLsbD i = true → byteOf i ≠ .ue) →
        ∃ t, exec (.memRequest req part addr en false [] hint capped false []) s = .next t ∧
          (let poison := (List.range 64).any fun i => en.getLsbD i && decide (byteOf i = .poison)
          let fixed := (List.range 64).any fun i => en.getLsbD i && (match byteOf i with | .corrected _ _ => true | _ => false)
          t.out = .memAnswer req.toNat (if poison then outPoison else if fixed then outCorrected else outClean)
            ((List.range 64).map fun i => if en.getLsbD i then BitVec.ofNat 8 (byteOf i).val else 0) :: s.out) ∧
          Kept [.cen, .pch, .bank, .drv, .out, .freeCtr] [.memCtl, .memInteg] s t) ∧
      (bank.rowFilled q.row = true → (∃ i, i < 64 ∧ en.getLsbD i = true ∧ byteOf i = .ue) → s.frozen pc = false →
        ∃ t, exec (.memRequest req part addr en false [] hint capped false []) s = .next t ∧
          (∃ bs, .memAnswer req.toNat outUe bs ∈ t.out) ∧ t.frozen pc = true ∧ t.get (F.MEM_INTEG_STATE_CAUSE (pc / 2) (pc % 2)) = 1 ∧
          t.dram = s.dram ∧ t.chk = s.chk ∧ t.isPending (Ev.memFreeze (pc / 2)) = true ∧ Kept [.evt, .cen, .pch, .bank, .line, .pad, .drv, .cal, .dram, .chk, .out, .freeCtr] [.evt, .cmd, .portPad, .portCal, .memCtl, .memInteg, .freezeRec, .memCal, .fab, .cal, .evid] s t))) ∧
  (∀ (pc : BitVec 5) (req : BitVec 6) (bank : BitVec 4) (row : BitVec 15) (unit : Option (BitVec 4)) (s : State), let i := pc.toNat
    s.coreOn = true → i < s.nPcs → s.fenced i = false → s.selfRefresh (i / 2) = false →
    ∃ t, exec (.memCmdParityError pc req bank row unit) s = .next t ∧ t.frozen i = true ∧
      t.get (F.MEM_INTEG_STATE_CAUSE (i / 2) (i % 2)) = 2 ∧ t.flag (F.MEM_INTEG_STATE_REC_READ (i / 2) (i % 2)) = false ∧
      t.isPending (Ev.memFreeze (i / 2)) = true ∧ Kept [.evt, .cen, .pch, .line, .pad, .cal, .out] [.evt, .cmd, .portPad, .portCal, .memInteg, .freezeRec, .memCal, .fab, .cal, .evid] s t)

/-- REFRESH_DUE, TALLY_PERIOD_END, PAGE_IDLE_EXPIRY and DROWSE_POWER_DOWN (R245, R248, R251, R253). -/
def Obligations.StackRefreshAndIdle : Prop :=
  (∀ (pc : BitVec 5) (bank : BitVec 4) (s : State), let i := pc.toNat
    let x := s.bk i bank.toNat
    s.refreshes i = true →
    (x.pulled = 0 → x.postpone < 4 → ∃ t, exec (.refreshDue pc bank 0) s = .next t ∧
      (t.bk i bank.toNat).refNext = (x.refNext + 1) % 8192 ∧ (t.bk i bank.toNat).openRow = none ∧
      (t.bk i bank.toNat).nref = [] ∧ (t.bk i bank.toNat).postpone = x.postpone ∧ Kept [.cen, .pch, .bank] [.memCtl] s t) ∧
    (x.pulled = 0 → x.postpone < 4 → ∃ t, exec (.refreshDue pc bank 1) s = .next t ∧
      t.bk i bank.toNat = { x with postpone := x.postpone + 1 } ∧ Kept [.bank] [] s t) ∧
    (∀ how : BitVec 2, how ≠ 2 → x.pulled = 0 → x.postpone = 4 → ∃ t, exec (.refreshDue pc bank how) s = .next t ∧
      (t.bk i bank.toNat).refNext = (x.refNext + 1) % 8192 ∧
      t.get (F.MEM_REF_LIMIT_COUNT (i / 2) (i % 2)) = min (2 ^ 32 - 1) (s.get (F.MEM_REF_LIMIT_COUNT (i / 2) (i % 2)) + 1) ∧
      Kept [.cen, .pch, .bank] [.memCtl] s t) ∧
    (x.postpone = 0 → x.pulled < 4 → ∃ t, exec (.refreshDue pc bank 2) s = .next t ∧
      (t.bk i bank.toNat).refNext = (x.refNext + 1) % 8192 ∧ (t.bk i bank.toNat).pulled = x.pulled + 1 ∧ Kept [.cen, .pch, .bank] [.memCtl] s t) ∧
    (x.postpone ≠ 0 → ∃ t, exec (.refreshDue pc bank 2) s = .next t ∧
      (t.bk i bank.toNat).refNext = (x.refNext + 1) % 8192 ∧ (t.bk i bank.toNat).postpone = x.postpone - 1 ∧ Kept [.cen, .pch, .bank] [.memCtl] s t) ∧
    (x.postpone = 0 → 4 ≤ x.pulled → exec (.refreshDue pc bank 2) s = .next s) ∧
    (∀ how : BitVec 2, how ≠ 2 → x.pulled ≠ 0 → ∃ t, exec (.refreshDue pc bank how) s = .next t ∧
      t.bk i bank.toNat = { x with pulled := x.pulled - 1 } ∧ Kept [.bank] [] s t) ∧
    (∃ t, exec (.pageIdleExpiry pc bank) s = .next t ∧ t.bk i bank.toNat = { x with openRow := none } ∧
      (∀ j b, (16 * j + b ≠ 16 * i + bank.toNat) → t.bk j b = s.bk j b) ∧ Kept [.pch, .bank] [] s t) ∧
    (s.pwr.mode = 1 → (s.pc i).queue = [] → (s.pc i).powerDown = false → ∃ t, exec (.drowsePowerDown pc) s = .next t ∧
      (t.pc i).powerDown = true ∧ t.flag (F.MEM_CH_STATE_POWER_DOWN (i / 2)) = true ∧ (∀ b, b < 16 → (t.bk i b).openRow = none) ∧
      Kept [.pch, .bank] [.memCtl] s t)) ∧
  (∀ (ch : BitVec 4) (s : State), s.refreshes (2 * ch.toNat) = true →
    ∃ t, exec (.tallyPeriodEnd ch) s = .next t ∧
      (∀ j, j < 32 → t.bk (2 * ch.toNat + j / 16) (j % 16) = { s.bk (2 * ch.toNat + j / 16) (j % 16) with tally := [] }) ∧
      Kept [.bank] [] s t)

/-- GLEANER_ROW, LAP_ALARM and AUTO_REPAIR (R267 to R271). -/
def Obligations.GleanerFillsAndRepairs : Prop :=
  (∀ (pc : BitVec 5) (s : State), let i := pc.toNat
    let x := s.pc i
    let b := x.gleanPos % 16
    let r := x.gleanPos / 16
    s.gleans i = true → x.gleanPos < 524287 →
    (∀ upsets, x.fillLap = true → s.suspect i b = false → (s.bk i b).filled = false → (s.bk i b).water = r →
      ∃ t, exec (.gleanerRow pc upsets) s = .next t ∧ (t.bk i b).water = r + 1 ∧ (t.bk i b).rowFilled r = true ∧
        (t.pc i).gleanPos = x.gleanPos + 1 ∧ t.flag (F.MEM_INTEG_STATE_GLEAN_ACTIVE (i / 2) (i % 2)) = true ∧
        Kept [.bank, .pch, .cen] [.memInteg] s t) ∧
    (x.fillLap = false → (s.bk i b).rowFilled r = true →
      (s.flag (F.MEM_FLIP_CTRL_ARM (i / 2) (i % 2)) = true → s.get (F.MEM_FLIP_CTRL_FLIP_REQ (i / 2) (i % 2)) ≠ 0x24) →
      let row := (s.bk i b).physRow r
      let rd (u : State) (col : Nat) : ByteRead := let c := u.cell (cellAddr i b row col); decodeByte c.1 c.2
      (∀ col, col < 1024 → rd s col ≠ .poison) →
      ∃ t, exec (.gleanerRow pc []) s = .next t ∧ (t.pc i).gleanPos = x.gleanPos + 1 ∧ (t.bk i b).openRow = none ∧
        (∀ col, col < 1024 → rd t col = if rd s col = .ue then .poison else .clean (rd s col).val) ∧
        (∀ c, (∀ col, col < 1024 → c ≠ cellAddr i b row col) → t.cell c = s.cell c) ∧ Kept [.evt, .cen, .pch, .bank, .drv, .dram, .chk, .out, .freeCtr, .time] [.evt, .memCtl, .memInteg, .evid] s t)) ∧
  (∀ (pc : BitVec 5) (s : State), let i := pc.toNat
    (i < s.nPcs ∧ s.coreOn = true ∧ s.flag (F.MEM_INTEG_STATE_GLEAN_ACTIVE (i / 2) (i % 2)) = true →
      ((s.pc i).lapAlarm = true → exec (.lapAlarm pc) s = .next s) ∧
      ((s.pc i).lapAlarm = false → ∃ t, exec (.lapAlarm pc) s = .next t ∧ (t.pc i).lapAlarm = true ∧ t.isPending Ev.fabLapAlarm = true ∧
        t.ao.time10 = max s.ao.time10 (10 * ((s.pc i).lapStart + 1000000000 * max 1 (s.get F.FAB_INTEG_CFG_LAP_ALARM))) ∧
        Kept [.evt, .cen, .pch, .out, .time] [.evt] s t)) ∧
    (∀ nvFail, s.flag F.FAB_INTEG_CFG_AUTO_REPAIR = true ∧ s.herderRuns = true ∧ s.gleans i = true →
      (∀ key ks k, (s.pc i).spareDue = key :: ks → (s.bk i (key / 32768)).freeSpare = some k →
        let b := key / 32768
        let src := (s.bk i b).physRow (key % 32768)
        ∃ t, exec (.autoRepair pc nvFail) s = .next t ∧ (t.pc i).spareDue = ks ∧ (t.bk i b).physRow (key % 32768) = 32768 + k ∧
          (∀ col, col < 1024 → src ≠ 32768 + k → let o := s.cell (cellAddr i b src col)
            let c := t.cell (cellAddr i b (32768 + k) col)
            match decodeByte o.1 o.2 with
            | .clean v => c = (v % 256, checkBits v)
            | .corrected v _ => c = (v % 256, checkBits v)
            | _ => c = (0, 31)) ∧
          (nvFail = false → Tbl.get t.nv.repair [] (16 * i + b) = (t.bk i b).spares) ∧ (nvFail = true → t.nv = s.nv) ∧
          Kept [.nv, .pch, .bank, .dram, .chk] [.memInteg] s t) ∧
      (∀ x xs, (s.pc i).spareDue = [] → (s.pc i).tsvDue = x :: xs → x < 104 → s.flag (F.MEM_TSV_SPARE_S0_VALID (i / 2) (i % 2)) = false →
        ∃ t, exec (.autoRepair pc false) s = .next t ∧ (t.pc i).tsvDue = xs ∧
          t.flag (F.MEM_TSV_SPARE_S0_VALID (i / 2) (i % 2)) = true ∧ t.get (F.MEM_TSV_SPARE_S0_TSV (i / 2) (i % 2)) = x ∧
          Kept [.pch] [.memInteg] s t)))

/-- LAME_WINDOW (R256). That LAME_RUN restarts at 0 when a mark changes is the model's reading (log entry 60). -/
def Obligations.LameWindowJudgesAgainstTheMedian : Prop :=
  ∀ (stats : List (BitVec 16 × BitVec 16)) (s : State), s.coreOn = true → s.flag F.FAB_SCHED_CFG_LAME_EN = true → s.selfRefresh 0 = false →
    let served (i : Nat) : Nat := match stats[i]? with | some e => e.1.toNat | none => 0
    let lat (i : Nat) : Nat := match stats[i]? with | some e => e.2.toNat | none => 0
    let q := s.inService.filter fun i => !s.frozen i && decide (256 ≤ served i)
    (q.length < 8 → ∃ t, exec (.lameWindow stats) s = .next t ∧ t.get F.FAB_LAT_MEDIAN_QUALIFIED = q.length ∧
      Kept [] [.memCtl, .fab] s t) ∧
    (8 ≤ q.length → ∃ t, exec (.lameWindow stats) s = .next t ∧ t.get F.FAB_LAT_MEDIAN_QUALIFIED = q.length ∧
      t.get F.FAB_LAT_MEDIAN_NS = median2 (q.map lat) / 2 % 2 ^ 16 ∧
      (s.inService.Nodup → (∀ i ∈ q, i < 32) → ∀ i ∈ q, let c := i / 2
        let run := s.get (F.MEM_PC_STATE_LAME_RUN c (i % 2))
        let lame := s.flag (F.MEM_PC_STATE_LAME c (i % 2))
        let hit := if lame then 4 * lat i ≤ 3 * median2 (q.map lat) else median2 (q.map lat) < lat i
        (¬ hit → t.get (F.MEM_PC_STATE_LAME_RUN c (i % 2)) = 0 ∧ t.flag (F.MEM_PC_STATE_LAME c (i % 2)) = lame) ∧
        (hit → run < 9 → t.get (F.MEM_PC_STATE_LAME_RUN c (i % 2)) = run + 1 ∧ t.flag (F.MEM_PC_STATE_LAME c (i % 2)) = lame) ∧
        (hit → 9 ≤ run → t.get (F.MEM_PC_STATE_LAME_RUN c (i % 2)) = 0 ∧ t.flag (F.MEM_PC_STATE_LAME c (i % 2)) = !lame ∧
          (lame = false → t.isPending (Ev.memLame c) = true))) ∧
      Kept [.evt, .cen, .pad, .out] [.evt, .memCtl, .fab] s t)

/-- MEM_REPAIR, MEM_RETRAIN, MEM_RELEASE and FREEZE_AUTO_RELEASE (R275, R276, R279, R280, R285, R287). -/
def Obligations.StackRepairsRetrainsAndReleases : Prop :=
  (∀ (slot : BitVec 6) (nvFail : Bool) (s : State), let k := slot.toNat
    let w := s.param k 0
    let pc := w % 32
    let b := bits w 8 4
    s.taken k 0x30 = true →
    (bits w 16 2 = 0 → s.repairable pc = false → ∃ t, exec (.memRepairSpareRow slot nvFail) s = .next t ∧ Completed k stInvalid 0 [] s t ∧
      Kept [.evt, .cen, .out] [.evt, .cmd, .sec] s t) ∧
    (∀ i, bits w 16 2 = 0 → s.repairable pc = true → (s.bk pc b).freeSpare = some i → ∃ t, exec (.memRepairSpareRow slot nvFail) s = .next t ∧
      Completed k (if nvFail then stNv else stOk) 0 [] s t ∧ (t.bk pc b).spares = (s.param k 1 % 32768, i) :: (s.bk pc b).spares ∧
      (nvFail = true → t.nv = s.nv) ∧ Kept [.nv, .evt, .cen, .bank, .dram, .chk, .out] [.evt, .cmd, .memInteg, .sec] s t) ∧
    (bits w 16 2 = 0 → s.repairable pc = true → (s.bk pc b).freeSpare = none → ∃ t, exec (.memRepairSpareRow slot nvFail) s = .next t ∧
      Completed k stAborted 0 [] s t ∧ Kept [.evt, .cen, .out] [.evt, .cmd, .sec] s t) ∧
    (∀ i, bits w 16 2 = 1 → s.repairable pc = true → s.param k 1 % 128 < 104 → s.freeTsv pc = some i → nvFail = false →
      ∃ t, exec (.memRepairSteerTsv slot nvFail) s = .next t ∧ Completed k stOk 0 [] s t ∧ s.freeTsvs pc = t.freeTsvs pc + 1 ∧
        (if i = 0 then t.get (F.MEM_TSV_SPARE_S0_TSV (pc / 2) (pc % 2)) else t.get (F.MEM_TSV_SPARE_S1_TSV (pc / 2) (pc % 2))) =
          s.param k 1 % 128 ∧ Kept [.evt, .cen, .out] [.evt, .cmd, .memInteg, .sec] s t) ∧
    (bits w 16 2 = 1 → s.repairable pc = true → s.param k 1 % 128 < 104 → s.freeTsv pc = none →
      ∃ t, exec (.memRepairSteerTsv slot nvFail) s = .next t ∧ Completed k stAborted 0 [] s t ∧ Kept [.evt, .cen, .out] [.evt, .cmd, .sec] s t) ∧
    (bits w 16 2 = 2 → s.nv.retired.testBit (pc / 2) = true → ∃ t, exec (.memRepairReturn slot nvFail) s = .next t ∧
      Completed k (if nvFail then stNv else stOk) 0 [] s t ∧ (nvFail = false → t.nv.returning.testBit (pc / 2) = true) ∧
      (nvFail = true → t.nv = s.nv) ∧ Kept [.nv, .evt, .cen, .out] [.evt, .cmd, .sec] s t)) ∧
  (∀ (slot : BitVec 6) (train : Train) (s : State), let k := slot.toNat
    let pc := s.param k 0 % 32
    s.taken k 0x31 = true →
    (s.nPcs ≤ pc ∨ s.chRole (pc / 2) = 2 ∨ s.frozen pc = true → ∃ t, exec (.memRetrain slot train) s = .next t ∧
      Completed k stInvalid 0 [] s t ∧ Kept [.evt, .cen, .out] [.evt, .cmd] s t) ∧
    (pc < s.nPcs → s.chRole (pc / 2) ≠ 2 → s.frozen pc = false → (s.pc pc).retrain = false →
      (s.flag F.FAB_INTEG_CFG_MODE = false ∧ train.eyes = true ∨ train.bad.length ≤ s.freeTsvs pc ∧ 13 ≤ train.bases.length) →
      ∃ t, exec (.memRetrain slot train) s = .next t ∧ CompletedLast k stOk 0 [] s t ∧
        t.get (F.MEM_TRAIN_STATE_STATE (pc / 2) (pc % 2)) = 5 ∧ (t.pc pc).retrain = false ∧ t.fenced pc = false ∧
        t.flag (F.MEM_TRAIN_STATE_SWEPT (pc / 2) (pc % 2)) = (s.flag F.FAB_INTEG_CFG_MODE || !train.eyes) ∧ Kept [.nv, .ao, .evt, .cen, .pch, .bank, .line, .pad, .lane, .trv, .drv, .apply, .cal, .diag, .clk, .dram, .chk, .pwr, .out, .freeCtr] [.dev, .evt, .cmd, .portLink, .portIlm, .portPad, .portTrv, .portCal, .portTone, .slices, .memCtl, .memInteg, .freezeRec, .memTrain, .memCal, .fab, .lane, .cal, .piste, .evid, .tst] s t) ∧
    (pc < s.nPcs → s.chRole (pc / 2) ≠ 2 → s.frozen pc = false → (s.pc pc).retrain = false →
      (s.flag F.FAB_INTEG_CFG_MODE = true ∨ train.eyes = false) → s.freeTsvs pc < train.bad.length ∨ train.bases.length < 13 →
      ∃ t, exec (.memRetrain slot train) s = .next t ∧ CompletedLast k stAborted 0 [] s t ∧ t.chRole (pc / 2) = 2 ∧
        t.nv.retired.testBit (pc / 2) = true ∧ Kept [.nv, .ao, .evt, .cen, .pch, .bank, .line, .pad, .lane, .trv, .drv, .apply, .cal, .diag, .clk, .dram, .chk, .pwr, .out, .freeCtr] [.dev, .evt, .cmd, .portLink, .portIlm, .portPad, .portTrv, .portCal, .portTone, .slices, .memCtl, .memInteg, .freezeRec, .memTrain, .memCal, .fab, .lane, .cal, .piste, .evid, .tst] s t)) ∧
  (∀ (slot : BitVec 6) (nvFail : Bool) (s : State), let k := slot.toNat
    let pc := s.param k 0 % 32
    let act := bits (s.param k 0) 8 2
    let read := s.flag (F.MEM_INTEG_STATE_REC_READ (pc / 2) (pc % 2))
    s.taken k 0x32 = true → pc < s.nPcs →
    (act ≠ 3 → s.frozen pc = false → ∃ t, exec (.memRelease slot nvFail) s = .next t ∧ Completed k stOk 0 [0, 0xFFFFFFFF] s t ∧
      Kept [.evt, .cen, .out] [.evt, .cmd, .sec] s t) ∧
    (s.frozen pc = true → read = false → ∃ t, exec (.memRelease slot nvFail) s = .next t ∧ Completed k stInvalid 0 [] s t ∧
      Kept [.evt, .cen, .out] [.evt, .cmd, .sec] s t) ∧
    (s.frozen pc = true → read = true → act = 0 → ∃ t, exec (.memRelease slot nvFail) s = .next t ∧
      Completed k stOk 0 [0, 0xFFFFFFFF] s t ∧ t.frozen pc = false ∧ (t.pc pc).queue = [] ∧
      t.get (F.MEM_PC_STATE_QDEPTH (pc / 2) (pc % 2)) = 0 ∧ Kept [.nv, .ao, .evt, .cen, .pch, .bank, .line, .pad, .lane, .trv, .drv, .apply, .cal, .diag, .clk, .dram, .chk, .pwr, .out, .freeCtr] [.dev, .evt, .cmd, .portLink, .portIlm, .portPad, .portTrv, .portCal, .portTone, .slices, .memCtl, .memInteg, .freezeRec, .memCal, .fab, .lane, .cal, .piste, .evid, .sec, .tst] s t) ∧
    (∀ i, s.frozen pc = true → read = true → act = 1 → (s.bk pc (s.frozenUnit pc).1).freeSpare = some i →
      ∃ t, exec (.memRelease slot nvFail) s = .next t ∧ Completed k (if nvFail then stNv else stOk) 0 [0, i] s t ∧ t.frozen pc = false ∧
        (t.bk pc (s.frozenUnit pc).1).physRow (s.frozenUnit pc).2.1 = 32768 + i ∧ Kept [.nv, .ao, .evt, .cen, .pch, .bank, .line, .pad, .lane, .trv, .drv, .apply, .cal, .diag, .clk, .dram, .chk, .pwr, .out, .freeCtr] [.dev, .evt, .cmd, .portLink, .portIlm, .portPad, .portTrv, .portCal, .portTone, .slices, .memCtl, .memInteg, .freezeRec, .memCal, .fab, .lane, .cal, .piste, .evid, .sec, .tst] s t) ∧
    (s.frozen pc = true → read = true → act = 2 → s.chRole (pc / 2) ≠ 2 → ∃ t, exec (.memRelease slot nvFail) s = .next t ∧
      CompletedLast k stOk 0 [0, 0xFFFFFFFF] s t ∧ t.chRole (pc / 2) = 2 ∧ t.frozen pc = false ∧ t.nv.retired.testBit (pc / 2) = true ∧
      Kept [.nv, .ao, .evt, .cen, .pch, .bank, .line, .pad, .lane, .trv, .drv, .apply, .cal, .diag, .clk, .dram, .chk, .pwr, .out, .freeCtr] [.dev, .evt, .cmd, .portLink, .portIlm, .portPad, .portTrv, .portCal, .portTone, .slices, .memCtl, .memInteg, .freezeRec, .memCal, .fab, .lane, .cal, .piste, .evid, .sec, .tst] s t)) ∧
  (∀ (pc : BitVec 5) (nvFail : Bool) (s : State), let i := pc.toNat
    s.coreOn = true → i < s.nPcs → s.frozen i = true → s.get F.FAB_INTEG_CFG_AUTO_REL ≠ 0 → s.selfRefresh (i / 2) = false →
    ∃ t, exec (.freezeAutoRelease pc nvFail) s = .next t ∧ t.frozen i = false ∧ (t.pc i).queue = [] ∧
      t.ao.time10 = max s.ao.time10 (10 * (s.wide (A.MEM_FREEZE_REC (i / 2) (i % 2) 4) + 100000000 * s.get F.FAB_INTEG_CFG_AUTO_REL)) ∧
      Kept [.nv, .pch, .bank, .dram, .chk, .time] [.memCtl, .memInteg, .fab] s t)

/-- EVID_TRIGGER, EVT_TRIG_PIN, SEGMENT_FREEZE, EVID_EXPORT, EVID_RELEASE, CENSUS_LATCH (R402, R403, R405, R407). That a LOST
segment is refused by an export is the model's choice (log entry 70). -/
def Obligations.EvidenceAndCensus : Prop :=
  (∀ (slot : BitVec 6) (s : State), let k := slot.toNat
    s.taken k 0x40 = true → s.herderRuns = true → s.stackOpen = true →
    ∃ t, exec (.evidTrigger slot) s = .next t ∧ Completed k stOk 0 [] s t ∧
      (∀ r, r < 4 → s.param k 0 % 16 = 2 ^ r → s.flag (F.EVID_TRIG_CFG_CMD_EN r) = true →
        (s.recording r = false → t.get F.EVID_TRIG_REFUSED_COUNT = min (2 ^ 32 - 1) (s.get F.EVID_TRIG_REFUSED_COUNT + 1) ∧ t.evid.rings = s.evid.rings) ∧
        (∀ g, s.recording r = true → s.postSeg r = none → (s.ring r).pos + 32 ≤ 1048576 →
          ((List.range 8).find? fun j => decide (s.get (F.EVID_SEG_STATE j) = 0)) = some g →
          t.get (F.EVID_SEG_RING g) = r ∧ t.get (F.EVID_SEG_SRC g) = 1 ∧ t.wide (A.EVID_SEG_TIME g) = s.time % 2 ^ 64 ∧
          (t.get (F.EVID_SEG_STATE g) = 1 ∨ t.get (F.EVID_SEG_STATE g) = 2 ∧ t.flag (F.EVID_SEG_SHORT g) = true))) ∧
      Kept [.evt, .cen, .evid, .pch, .bank, .drv, .dram, .chk, .out, .freeCtr] [.evt, .cmd, .memCtl, .memInteg, .evid] s t) ∧
  (∀ (low high : BitVec 16) (r g : Nat) (s : State), s.clocked = true → s.evid.pinReady = true ∨ 10 ≤ low.toNat → 10 ≤ high.toNat →
    r < 4 → s.flag (F.EVID_TRIG_CFG_PIN_EN r) = true → (∀ q, q < 4 → (s.recording q = true ↔ q = r)) → s.postSeg r = none →
    (s.ring r).pos + 32 ≤ 1048576 → ((List.range 8).find? fun j => decide (s.get (F.EVID_SEG_STATE j) = 0)) = some g →
    ∃ t, exec (.evtTrigPin low high) s = .next t ∧ t.evid.pinReady = false ∧ t.get (F.EVID_SEG_RING g) = r ∧ t.get (F.EVID_SEG_SRC g) = 2 ∧
      t.wide (A.EVID_SEG_TIME g) = s.time % 2 ^ 64 ∧
      (t.get (F.EVID_SEG_STATE g) = 1 ∨ t.get (F.EVID_SEG_STATE g) = 2 ∧ t.flag (F.EVID_SEG_SHORT g) = true) ∧ Kept [.evt, .cen, .evid, .pch, .bank, .drv, .dram, .chk, .out, .freeCtr] [.evt, .memCtl, .memInteg, .evid] s t) ∧
  (∀ (low high : BitVec 16) (s : State), s.clocked = true →
    (∀ r, r < 4 → s.recording r = false) →
    let hit := (s.evid.pinReady = true ∨ 10 ≤ low.toNat) ∧ 10 ≤ high.toNat
    ∃ t, exec (.evtTrigPin low high) s = .next t ∧
      (hit → t.evid.pinReady = false ∧ t.get F.EVID_TRIG_REFUSED_COUNT = min (2 ^ 32 - 1) (s.get F.EVID_TRIG_REFUSED_COUNT +
        ((List.range 4).filter fun r => s.flag (F.EVID_TRIG_CFG_PIN_EN r)).length)) ∧
      (¬ hit → t.regs = s.regs ∧ (t.evid.pinReady = true ↔ s.evid.pinReady = true ∨ 10 ≤ low.toNat)) ∧ Kept [.evt, .cen, .evid, .pch, .bank, .drv, .dram, .chk, .out, .freeCtr] [.evt, .memCtl, .memInteg, .evid] s t) ∧
  (∀ (seg : BitVec 3) (s : State), let k := seg.toNat
    s.get (F.EVID_SEG_STATE k) = 1 → s.recording (s.get (F.EVID_SEG_RING k)) = true →
    ∃ t, exec (.segmentFreeze seg) s = .next t ∧ t.get (F.EVID_SEG_STATE k) = 2 ∧ t.flag (F.EVID_SEG_SHORT k) = false ∧
      t.get (F.EVID_SEG_W1_LAST_MIB k) = s.get (F.EVID_RING_STATE_CUR_MIB (s.get (F.EVID_SEG_RING k))) ∧
      t.isPending Ev.evidFrozen = true ∧
      t.ao.time10 = (if s.postMoved k then s.ao.time10 else max s.ao.time10 (10 * Tbl.get s.evid.postTime 0 k)) ∧ Kept [.evt, .cen, .evid, .pch, .bank, .drv, .dram, .chk, .out, .freeCtr, .time] [.evt, .memCtl, .memInteg, .evid] s t) ∧
  (∀ (slot : BitVec 6) (s : State), let k := slot.toNat
    let g := s.param k 0 % 8
    let op := bits (s.param k 0) 8 2
    s.taken k 0x41 = true → s.herderRuns = true →
    (op ≠ 1 → op ≠ 3 → s.stackOpen = true → s.get (F.EVID_SEG_STATE g) = 1 → ∃ t, exec (.evidExport slot) s = .next t ∧
      Completed k stBusy 0 [] s t ∧ Kept [.evt, .cen, .out] [.evt, .cmd] s t) ∧
    (op ≠ 1 → s.stackOpen = true → s.get (F.EVID_SEG_STATE g) ≠ 1 → op = 3 ∨ s.get (F.EVID_SEG_STATE g) ≠ 2 →
      ∃ t, exec (.evidExport slot) s = .next t ∧ Completed k stInvalid 0 [] s t ∧ Kept [.evt, .cen, .out] [.evt, .cmd] s t) ∧
    (∀ words, op ≠ 1 → op ≠ 3 → s.stackOpen = true → s.get (F.EVID_SEG_STATE g) = 2 → (s.exportSeg g).2 = some words →
      ∃ t, exec (.evidExport slot) s = .next t ∧ Completed k stOk 0 (0 :: words) s t ∧ t.flag (F.EVID_SEG_EXPORTED g) = true ∧
        (op = 0 → t.get (F.EVID_SEG_STATE g) = 2) ∧ (op = 2 → t.get (F.EVID_SEG_STATE g) = 0) ∧ Kept [.evt, .cen, .evid, .pch, .bank, .line, .pad, .drv, .cal, .out, .freeCtr] [.evt, .cmd, .portPad, .portCal, .memCtl, .memInteg, .freezeRec, .memCal, .fab, .cal, .evid] s t) ∧
    (op = 1 → s.clocked = true → s.get (F.EVID_SEG_STATE g) = 1 → ∃ t, exec (.evidRelease slot) s = .next t ∧
      Completed k stBusy 0 [] s t ∧ Kept [.evt, .cen, .out] [.evt, .cmd] s t) ∧
    (op = 1 → s.clocked = true → 2 ≤ s.get (F.EVID_SEG_STATE g) → ∃ t, exec (.evidRelease slot) s = .next t ∧
      Completed k stOk 0 [] s t ∧ t.get (F.EVID_SEG_STATE g) = 0 ∧ Kept [.evt, .cen, .evid, .out] [.evt, .cmd, .evid] s t)) ∧
  (∀ (busy : Bool) (k : Nat) (s : State), s.partOf 3 = some k → s.flag F.CEN_CFG_ENABLE = true → s.clocked = true →
    let next := (s.time / (1000 * s.cenPeriod) + 1) * (1000 * s.cenPeriod)
    (busy = true → ∃ t, exec (.censusLatch busy) s = .next t ∧ t.time = next ∧ t.cen.seq = (s.cen.seq + 1) % 2 ^ 64 ∧ t.cen.gap = true ∧
      t.get F.CEN_SKIPPED_COUNT = min (2 ^ 32 - 1) (s.get F.CEN_SKIPPED_COUNT + 1) ∧ t.dram = s.dram ∧ Kept [.evt, .cen, .pch, .bank, .drv, .dram, .chk, .out, .freeCtr, .time] [.evt, .memCtl, .memInteg, .cen] s t) ∧
    (busy = false → s.stackOpen = true → s.flag F.CEN_STATUS_RUNNING = true → s.apply.stage ≠ 5 → s.apply.stage ≠ 6 →
      ((unitsOf (8192 * (((s.cen.seq + 1) % 2 ^ 64) % (s.partBytes k / 8192))) 8192).all fun e => !s.fenced (s.locate k e.1).pc) = true →
      ∃ t, exec (.censusLatch busy) s = .next t ∧ t.time = next ∧ t.cen.seq = (s.cen.seq + 1) % 2 ^ 64 ∧
        t.wide A.CEN_SEQ = (s.cen.seq + 1) % 2 ^ 64 ∧ t.cen.samples = [] ∧ t.cen.overrun = [] ∧ t.cen.gap = false ∧ t.cen.first = false ∧
        t.cen.config = false ∧ Kept [.evt, .cen, .pch, .bank, .drv, .dram, .chk, .out, .freeCtr, .time] [.evt, .memCtl, .memInteg, .cen] s t))

/-- ODOMETER_EDGE, POSITION_TICK, HOLD_TIMEOUT, STOPPED_TIMEOUT and FIX_AGE_EXPIRY (R154 to R162). The formula of the speed is the
model's choice (log entry 110). -/
def Obligations.PositionFollowsEdgesAndTicks : Prop :=
  (∀ (a b : Bool) (after stands : BitVec 32) (s : State),
    let now := (s.ao.time10 + 10 * after.toNat) / 10
    let d : Int := s.get F.POS_SCALE_MM_PER_EDGE
    let da := a != s.pos.a
    let fwd := (if da then a != b else a == b) != s.flag F.POS_CFG_ODO_SENSE
    let move := if fwd = s.flag F.POS_STATE_ORIENT then d else -d
    (stands.toNat ≤ 10 * max 1 (s.get F.POS_CFG_GLITCH) → ∃ t, exec (.odometerEdge a b after stands) s = .next t ∧
      t.ao.time10 = s.ao.time10 + 10 * after.toNat + (if a = s.pos.a ∧ b = s.pos.b then 0 else 10 * stands.toNat) ∧ Kept [.time] [] s t) ∧
    (10 * max 1 (s.get F.POS_CFG_GLITCH) < stands.toNat →
     s.flag F.POS_CFG_ODO_EN = false ∨ s.get F.POS_WHEEL_PPR = 0 ∨ (a = s.pos.a ∧ b = s.pos.b) → ∃ t, exec (.odometerEdge a b after stands) s = .next t ∧
      t.pos.a = a ∧ t.pos.b = b ∧ t.ao.time10 = s.ao.time10 + 10 * after.toNat ∧ Kept [.pos, .time] [] s t) ∧
    (10 * max 1 (s.get F.POS_CFG_GLITCH) < stands.toNat → s.flag F.POS_CFG_ODO_EN = true → s.get F.POS_WHEEL_PPR ≠ 0 → s.pwr.held = 0 →
      (a ≠ s.pos.a → b ≠ s.pos.b → ∃ t, exec (.odometerEdge a b after stands) s = .next t ∧
        t.get F.POS_ODO_ERR_COUNT = min (2 ^ 32 - 1) (s.get F.POS_ODO_ERR_COUNT + 1) ∧ t.posAcc = s.posAcc ∧ t.pos.a = a ∧ t.pos.b = b ∧
        t.get F.POS_EDGES_COUNT = s.get F.POS_EDGES_COUNT ∧ Kept [.evt, .cen, .line, .pos, .pwr, .out, .time] [.evt, .portIlm, .pos, .piste] s t) ∧
      ((a ≠ s.pos.a ↔ b = s.pos.b) → (∀ r, a ≠ s.pos.a → a = true → s.pos.riseA = some r → r + 5000 ≤ now) →
        (∀ r, b ≠ s.pos.b → b = true → s.pos.riseB = some r → r + 5000 ≤ now) →
        (s.flag F.POS_STATE_HOLD = true → ∃ t, exec (.odometerEdge a b after stands) s = .next t ∧ t.posAcc = s.posAcc ∧
          t.get F.POS_EDGES_COUNT = s.get F.POS_EDGES_COUNT ∧ Kept [.evt, .cen, .line, .pos, .pwr, .out, .time] [.evt, .portIlm, .pos, .piste] s t) ∧
        (s.flag F.POS_STATE_HOLD = false → ∃ t, exec (.odometerEdge a b after stands) s = .next t ∧
          t.posAcc = max (-(2 ^ 63)) (min (2 ^ 63 - 1) (s.posAcc + move)) ∧
          t.get F.POS_EDGES_COUNT = min (2 ^ 32 - 1) (s.get F.POS_EDGES_COUNT + 1) ∧ t.flag F.POS_STATE_STOPPED = false ∧
          t.pos.odo = s.pos.odo + (if fwd then d else -d) ∧ t.pos.edgeAt = now ∧ (d ≠ 0 → t.pos.moved = true) ∧
          (s.flag F.POS_STATE_STOPPED = true → s.coreOn = true → t.isPending Ev.posMotion = true) ∧ Kept [.evt, .cen, .line, .pos, .pwr, .out, .time] [.evt, .portIlm, .pos, .piste] s t)))) ∧
  (∀ s : State, s.clocked = true →
    let odo := s.flag F.POS_CFG_ODO_EN
    let now := max s.ao.time10 (10 * (s.pos.tickAt + 1000000)) / 10
    let since := now - s.pos.exAt
    let estimate := if !odo then s.pos.fixMms.natAbs else match s.pos.edges with
      | [u, v] => s.get F.POS_SCALE_MM_PER_EDGE * 1000000000 / (max 1 (max (u - v) (now - u)) * 2 ^ 24)
      | _ => 0
    let moved (d : Int) : Int := max (-(2 ^ 63)) (min (2 ^ 63 - 1) (s.posAcc + d))
    let sp := if s.flag F.POS_STATE_STOPPED then 0 else min 65535 estimate
    let acc : Int := (sp : Int) - ((((sp :: s.pos.speeds).take 101).getLastD sp : Nat) : Int)
    ∃ t, exec .positionTick s = .next t ∧ t.get F.POS_SPEED_SPEED = sp ∧ t.pos.tickAt = now ∧ t.pos.exAt = now ∧
      t.ao.time10 = max s.ao.time10 (10 * (s.pos.tickAt + 1000000)) ∧
      t.get F.POS_SPEED_ACCEL = unsigned 16 (max (-32768) (min 32767 acc)) ∧
      (s.flag F.POS_STATE_HOLD = false → odo = false → s.flag F.POS_STATE_FIX_VALID = true → t.posAcc = moved (travelOf s.pos.fixMms since)) ∧
      (s.flag F.POS_STATE_HOLD = false → odo = true → t.posAcc = s.posAcc ∧
        (t.flag F.POS_STATE_HOLD = true ↔ 10 * s.accLimit < acc.natAbs) ∧
        (10 * s.accLimit < acc.natAbs → t.get F.POS_HOLDS_COUNT = min (2 ^ F.POS_HOLDS_COUNT.len - 1) (s.get F.POS_HOLDS_COUNT + 1) ∧
          t.isPending Ev.posHold = true ∧ t.pos.heldMms = s.pos.speeds.headD 0 ∧ t.pos.holdAt = t.time)) ∧
      (s.flag F.POS_STATE_HOLD = true → t.posAcc =
        moved (if s.flag F.POS_STATE_CAR_FWD = s.flag F.POS_STATE_ORIENT then travelOf s.pos.heldMms since else -travelOf s.pos.heldMms since)) ∧
      Kept [.evt, .cen, .line, .pos, .out, .time] [.evt, .portIlm, .pos, .piste] s t) ∧
  (∀ s : State, s.clocked = true →
    (s.flag F.POS_STATE_HOLD = true → ∃ t, exec .holdTimeout s = .next t ∧ t.flag F.POS_STATE_HOLD = false ∧
      t.flag F.POS_STATE_DEGRADED = true ∧ t.ao.time10 = max s.ao.time10 (10 * (s.pos.holdAt + 10000000000)) ∧
      (∀ a, a ≠ A.POS_STATE → t.word a = s.word a) ∧ Kept [.pos, .time] [.pos] s t) ∧
    (s.flag F.POS_STATE_HOLD = false → s.flag F.POS_STATE_STOPPED = false → ∃ t, exec .stoppedTimeout s = .next t ∧
      t.flag F.POS_STATE_STOPPED = true ∧ t.get F.POS_SPEED_SPEED = 0 ∧ t.isPending Ev.posMotion = true ∧
      t.pos.saveDue = (s.pos.saveDue || s.flag F.PISTE_STATUS_DIRTY) ∧ t.ao.time10 = max s.ao.time10 (10 * (s.pos.edgeAt + 2000000000)) ∧ Kept [.evt, .cen, .pos, .out, .time] [.evt, .pos] s t) ∧
    (s.flag F.POS_CFG_ODO_EN = false → s.flag F.POS_STATE_FIX_VALID = true → ∃ t, exec .fixAgeExpiry s = .next t ∧
      t.flag F.POS_STATE_FIX_VALID = false ∧
      t.ao.time10 = max s.ao.time10 (10 * (s.pos.fixAt + 1000000000 * max 1 (s.get F.POS_CFG_FIX_MAX_AGE))) ∧
      (∀ a, a ≠ A.POS_STATE → t.word a = s.word a) ∧ Kept [.line, .time] [.pos] s t))

/-- POS_FIX, PISTE_LOAD, PISTE_SAVE and AUTOSAVE (R159, R180 to R182). -/
def Obligations.FixesAndRouteTables : Prop :=
  (∀ (slot : BitVec 6) (s : State), let k := slot.toNat
    let route := s.param k 0
    let w2 := s.param k 2
    let at_ := s.param k 3 + 4294967296 * s.param k 4
    let mms : Int := if w2.testBit 9 then 10 * signed 16 (bits w2 16 16) else 0
    let u := s.extrapolate
    let ran := u.pos.odo - u.odoAt at_
    let travel := if s.flag F.POS_CFG_ODO_EN then (if w2.testBit 8 then ran else -ran) else travelOf mms (s.time - at_)
    let base := signed 40 (s.param k 1 + 4294967296 * (w2 % 256))
    s.taken k 0x12 = true → s.herderRuns = true →
    (route = 0 ∨ s.time < at_ ∨ at_ + 1000000000 < s.time → ∃ t, exec (.posFix slot) s = .next t ∧ Completed k stInvalid 0 [] s t ∧
      Kept [.evt, .cen, .out] [.evt, .cmd] s t) ∧
    (route ≠ 0 → at_ ≤ s.time → s.time ≤ at_ + 1000000000 → ∃ t, exec (.posFix slot) s = .next t ∧
      t.posAcc = max (-(2 ^ 63)) (min (2 ^ 63 - 1) (base * 16777216 + travel)) ∧
      t.flag F.POS_STATE_FIX_VALID = true ∧ t.flag F.POS_STATE_ORIENT = w2.testBit 8 ∧ t.flag F.POS_STATE_DEGRADED = false ∧
      t.flag F.POS_STATE_DIR = u.flag F.POS_STATE_DIR ∧ t.get F.POS_ROUTE_ROUTE = route % 2 ^ 32 ∧
      t.get F.POS_LAST_JUMP_MM = unsigned 32 (max (-2147483648) (min 2147483647 (t.posMm - u.posMm))) ∧ t.pos.fixAt = s.time ∧
      t.pos.fixMms = mms ∧
      (route = s.get F.PISTE_TABLE_ROUTE_ROUTE → Completed k stOk 0 [0, t.get F.POS_LAST_JUMP_MM, 0] s t ∧
        (∀ i, t.entry i = s.entry i)) ∧
      (route ≠ s.get F.PISTE_TABLE_ROUTE_ROUTE → route < 2 ^ 32 → t.slotState k = 3 ∧ t.get F.PISTE_TABLE_ROUTE_ROUTE = route ∧
        (s.coreOn = true → t.isPending Ev.pisteRoute = true)) ∧ Kept [.evt, .cen, .line, .pad, .pos, .piste, .cal, .out] [.evt, .cmd, .portIlm, .portPad, .portCal, .memCal, .fab, .cal, .pos, .piste] s t)) ∧
  (∀ (slot : BitVec 6) (s : State), let k := slot.toNat
    let src := s.param k 0 % 4
    s.taken k 0x10 = true → s.herderRuns = true →
    (src = 3 ∨ src = 0 ∧ s.stackOpen = true ∧ s.generalAt k 1 = none → ∃ t, exec (.pisteLoad slot) s = .next t ∧
      Completed k stInvalid 0 [0, 0xFFFFFFFF] s t ∧ t.flag F.PISTE_STATUS_LOADING = false ∧
      (∀ a, regGroup a = .piste → a ≠ A.PISTE_STATUS → t.word a = s.word a) ∧ Kept [.evt, .cen, .out] [.evt, .cmd, .sec, .piste] s t) ∧
    (src = 0 → s.stackOpen = false → ∃ t, exec (.pisteLoad slot) s = .next t ∧ t.flag F.PISTE_STATUS_LOADING = true ∧
      (∀ a, a ≠ A.PISTE_STATUS → t.word a = s.word a) ∧ Kept [] [.piste] s t) ∧
    (src = 1 ∨ src = 2 → let bs := Tbl.get s.nv.piste [] (src - 1)
      (∀ i, tableFault bs = some i → ∃ t, exec (.pisteLoad slot) s = .next t ∧ Completed k stInvalid 0 [0, i] s t ∧
        (∀ a, regGroup a = .piste → a ≠ A.PISTE_STATUS → t.word a = s.word a) ∧ Kept [.evt, .cen, .out] [.evt, .cmd, .sec, .piste] s t) ∧
      (tableFault bs = none → ∃ t, exec (.pisteLoad slot) s = .next t ∧ CompletedLast k stOk 0 [] s t ∧
        t.get F.PISTE_TABLE_ROUTE_ROUTE = uLe bs 8 4 ∧ t.flag F.PISTE_STATUS_DIRTY = false ∧ t.piste.serial = uLe bs 0x10 4 ∧
        (∀ i, i < 32768 → t.entry i = if i < uLe bs 0x0C 4 then (uLe bs (64 + 16 * i) 8, uLe bs (72 + 16 * i) 8) else (0, 0)) ∧
        Kept [.evt, .cen, .pch, .bank, .line, .pad, .drv, .piste, .cal, .out, .freeCtr] [.evt, .cmd, .portPad, .portCal, .memCtl, .memInteg, .freezeRec, .memCal, .fab, .cal, .piste, .evid, .sec] s t)) ∧
    (∀ g off len, src = 0 → s.stackOpen = true → s.generalAt k 1 = some (g, off, len) →
      let r1 := s.stackGet 0x23 g off (min 64 len)
      let r2 := r1.1.stackGet 0x23 g (off + 64) (min (16 * min (uLe r1.2.2 0x0C 4) 32768) (len - 64))
      tableFault (r1.2.2 ++ r2.2.2) = none → ∃ t, exec (.pisteLoad slot) s = .next t ∧ CompletedLast k stOk 0 [] s t ∧
        t.get F.PISTE_TABLE_ROUTE_ROUTE = uLe (r1.2.2 ++ r2.2.2) 8 4 ∧ t.flag F.PISTE_STATUS_DIRTY = false ∧ Kept [.evt, .cen, .pch, .bank, .line, .pad, .drv, .piste, .cal, .out, .freeCtr] [.evt, .cmd, .portPad, .portCal, .memCtl, .memInteg, .freezeRec, .memCal, .fab, .cal, .piste, .evid, .sec] s t)) ∧
  (∀ (slot : BitVec 6) (nvFail : Bool) (s : State), let k := slot.toNat
    let dst := s.param k 0 % 4
    s.taken k 0x11 = true → s.herderRuns = true →
    (dst = 3 ∨ dst = 0 ∧ s.stackOpen = true ∧ s.generalAt k 1 = none → ∃ t, exec (.pisteSave slot nvFail) s = .next t ∧
      Completed k stInvalid 0 [] s t ∧ Kept [.evt, .cen, .out] [.evt, .cmd] s t) ∧
    (dst = 1 ∨ dst = 2 → ∃ t, exec (.pisteSave slot nvFail) s = .next t ∧ Completed k (if nvFail then stNv else stOk) 0 [] s t ∧
      (nvFail = true → t.nv = s.nv ∧ t.piste = s.piste ∧ Kept [.evt, .cen, .out] [.evt, .cmd] s t) ∧
      (nvFail = false → Tbl.get t.nv.piste [] (dst - 1) = s.tableImage ∧ t.flag F.PISTE_STATUS_DIRTY = false ∧
        t.piste.serial = (s.piste.serial + 1) % 4294967296 ∧ Kept [.nv, .evt, .cen, .pch, .bank, .drv, .piste, .dram, .chk, .out, .freeCtr] [.evt, .cmd, .memCtl, .memInteg, .piste] s t)) ∧
    (∀ g off len, dst = 0 → s.stackOpen = true → s.generalAt k 1 = some (g, off, len) → s.tableImage.length ≤ len →
      (s.stackPut 0x23 g off s.tableImage).2 = false → ∃ t, exec (.pisteSave slot nvFail) s = .next t ∧ Completed k stOk 0 [] s t ∧
        t.dram = (s.stackPut 0x23 g off s.tableImage).1.dram ∧ t.flag F.PISTE_STATUS_DIRTY = false ∧ Kept [.nv, .evt, .cen, .pch, .bank, .drv, .piste, .dram, .chk, .out, .freeCtr] [.evt, .cmd, .memCtl, .memInteg, .piste] s t)) ∧
  (∀ (nvFail : Bool) (k : Nat) (s : State), s.pos.saveDue = true → s.herderRuns = true → s.clocked = true →
    s.flag F.PISTE_CTRL_AUTOSAVE = true → s.boundSlot (s.get F.PISTE_TABLE_ROUTE_ROUTE) = some k →
    ∃ t, exec (.autosave nvFail) s = .next t ∧ t.pos.saveDue = false ∧
      (nvFail = true → t.nv = s.nv ∧ t.regs = s.regs) ∧
      (nvFail = false → Tbl.get t.nv.piste [] k = s.tableImage ∧ t.flag F.PISTE_STATUS_DIRTY = false) ∧ Kept [.nv, .pos, .piste] [.piste] s t)

/-- PISTE_ENGINE_TICK, LEARNING_RECORD and PASS_UPDATE (R165, R174, R175, R177). -/
def Obligations.PisteEngineAndLearning : Prop :=
  (∀ s : State, s.clocked = true → ∃ t, exec .pisteEngineTick s = .next t ∧
    t.get F.PISTE_STATUS_ARMED = (t.piste.armed.filter fun a => !a.track).length % 2 ^ 16 ∧ t.piste.prev = some s.posMm ∧
    (s.flag F.POS_STATE_FIX_VALID = true → s.flag F.PISTE_STATUS_ROUTE_MATCH = true → s.flag F.PISTE_STATUS_LOADING = false →
      s.flag F.PISTE_CTRL_ARM_EN = true → ∀ i a, i ∈ s.validEntries → s.armsNow i = some a → a.track = false → i ∉ s.piste.wait →
      ∃ b, b ∈ t.piste.armed ∧ b.idx = i) ∧
    (s.flag F.POS_STATE_FIX_VALID = false → t.piste.armed.map (·.idx) = (s.piste.armed.filter fun a => !a.track || s.flag F.PISTE_CTRL_LEARN_EN).map (·.idx)) ∧
    Kept [.evt, .cen, .evid, .pch, .bank, .line, .pad, .drv, .piste, .cal, .dram, .chk, .out, .freeCtr] [.evt, .cmd, .portIlm, .portPad, .portCal, .memCtl, .memInteg, .memCal, .fab, .cal, .piste, .evid] s t) ∧
  (∀ (port : BitVec 4) (x : Int) (b0 b1 b2 : Nat) (rest : List (Nat × Nat × Nat × Int × Bool)) (s : State), let n := port.toNat
    (s.ln n).records = (b0, b1, b2, x, true) :: rest → s.herderRuns = true → s.clocked = true → s.flag F.PISTE_CTRL_LEARN_EN = true →
    let up := s.flag F.POS_STATE_DIR
    let m : Int := 1000 * s.get F.PISTE_LEARN_MATCH_M
    let hit := s.validEntries.find? fun i => eDir (s.entry i).2 up && decide (eStart (s.entry i).1 - m ≤ x) &&
      decide (x ≤ eStart (s.entry i).1 + eLen (s.entry i).1 + m)
    (∀ i, hit = none → s.learnPlace = some i → ∃ t, exec (.learningRecord port) s = .next t ∧ (t.ln n).records = rest ∧
      (let len := 1000 * max 1 (s.get F.PISTE_LEARN_MIN_LEN_M)
      (t.entry i).1 = (unsigned 40 (x - (len / 2 : Nat)) + 2 ^ 40 * len) % 2 ^ 64) ∧
      eValid (t.entry i).2 = true ∧ eLearned (t.entry i).2 = true ∧ eConf (t.entry i).2 = 1 ∧ (ePorts (t.entry i).2).testBit n = true ∧
      t.flag F.PISTE_STATUS_DIRTY = true ∧ i ∈ t.piste.wait ∧ Kept [.evt, .cen, .line, .piste, .out] [.evt, .piste] s t) ∧
    (∀ i, hit = some i → eLock (s.entry i).2 = false → ∃ t, exec (.learningRecord port) s = .next t ∧ (t.ln n).records = rest ∧
      (ePorts (t.entry i).2).testBit n = true ∧
      (eStart (s.entry i).1 ≤ x → x ≤ eStart (s.entry i).1 + eLen (s.entry i).1 → (t.entry i).1 = (s.entry i).1) ∧ Kept [.evt, .cen, .line, .piste, .out] [.evt, .piste] s t) ∧
    (∀ i, hit = some i → eLock (s.entry i).2 = true → ∃ t, exec (.learningRecord port) s = .next t ∧ (t.ln n).records = rest ∧
      t.regs = s.regs ∧ Kept [.evt, .cen, .line, .piste, .out] [.evt, .piste] s t)) ∧
  (∀ (i : Nat) (conf : Bool) (rest : List (Nat × Bool)) (s : State), s.piste.passes = (i, conf) :: rest → i < 32768 →
    s.herderRuns = true → s.clocked = true → s.flag F.PISTE_CTRL_LEARN_EN = true →
    let w1 := (s.entry i).2
    eValid w1 = true → eLock w1 = false →
    let age := if conf then 0 else min 255 (eAge w1 + 1)
    ∃ t, exec .passUpdate s = .next t ∧ t.piste.passes = rest ∧ t.flag F.PISTE_STATUS_DIRTY = true ∧
      (eLearned w1 = true → conf = false → max 1 (s.get F.PISTE_LEARN_AGE_LIMIT) ≤ age → t.entry i = (0, 0)) ∧
      (eLearned w1 = false ∨ conf = true ∨ age < max 1 (s.get F.PISTE_LEARN_AGE_LIMIT) →
        (t.entry i).1 = (s.entry i).1 ∧ eAge (t.entry i).2 = age ∧ eHits (t.entry i).2 = (if conf then min 4095 (eHits w1 + 1) else eHits w1) ∧
        eConf (t.entry i).2 = (if eLearned w1 then (if conf then min 15 (eConf w1 + 1) else eConf w1 - 1) else eConf w1)) ∧
      (∀ j, j < 32768 → j ≠ i → t.entry j = s.entry j) ∧ Kept [.piste] [.piste] s t)

/-- CAL_RUN, CAL_UNIT_START, CAL_STAGE_END, CAL_SAVE and CAL_RESTORE (R225, R226, R230, R233, R234). -/
def Obligations.CalibrationRuns : Prop :=
  (∀ (slot : BitVec 6) (s : State), let k := slot.toNat
    let named (u : Nat) : Prop := s.hasUnit u = true ∧ (u < 16 ∧ (s.param k 0).testBit u = true ∨ 16 ≤ u ∧ u < 48 ∧ (s.param k 1).testBit (u - 16) = true)
    s.taken k 0x20 = true → s.herderRuns = true →
    ((s.runningOp 0x20).isSome = true → ∃ t, exec (.calRun slot) s = .next t ∧ Completed k stBusy 0 [] s t ∧
      Kept [.evt, .cen, .out] [.evt, .cmd] s t) ∧
    ((s.runningOp 0x20).isSome = false → (∃ u, named u ∧ s.calHeld u = false) → ∃ t, exec (.calRun slot) s = .next t ∧
      t.slotState k = 2 ∧ (t.slot k).begun = true ∧
      (∀ u, named u → t.flag (calDue u) = true ∧ (t.calOf u).asked = true ∧ (t.calOf u).outcome = if s.calHeld u then 3 else 0) ∧
      Kept [.box, .evt, .cen, .cal, .out] [.evt, .cmd, .portCal, .memCal, .cal] s t) ∧
    ((s.runningOp 0x20).isSome = false → (∀ u, named u → s.calHeld u = true) → (∀ u, (s.calOf u).asked = false) →
      s.cal.all (fun e => !e.2.asked) = true → ∃ t, exec (.calRun slot) s = .next t ∧ t.slotState k = 3 ∧ Kept [.box, .evt, .cen, .cal, .out] [.evt, .cmd, .portCal, .memCal, .cal] s t)) ∧
  (∀ (unit : BitVec 6) (s : State), let u := unit.toNat
    u < 48 → s.hasUnit u = true → (s.calOf u).stage = 0 → s.flag (calDue u) = true → s.flag F.THM_CAL_CFG_AUTO_EN = true →
    s.calHeld u = false →
    (s.cal.filter fun e => decide (e.1 < 16 ↔ u < 16) && decide (e.2.stage ≠ 0)).length < (if u < 16 then 4 else 8) →
    ∃ t, exec (.calUnitStart unit) s = .next t ∧ (t.calOf u).stage = (if u < 16 then 1 else 3) ∧ t.flag (calRunning u) = true ∧
      (t.calOf u).old = (trimRegs u).map s.word ∧ (∀ a, regGroup a = .portCal ∨ regGroup a = .memCal → a ≠ (calRunning u).off → t.word a = s.word a) ∧
      Kept [.evt, .cen, .cal, .out] [.evt, .cmd, .portCal, .memCal, .cal] s t) ∧
  (∀ (unit : BitVec 6) (vals : List (BitVec 8)) (before after : List (BitVec 16)) (train : Train) (s : State), let u := unit.toNat
    let st := (s.calOf u).stage
    let fs := stageFields u st
    let v (i : Nat) : Int := if st = 2 then ((vals.getD i 0).toNat : Int) else signed 8 (vals.getD i 0).toNat
    let ok := (∀ i f, fs[i]? = some f → trimInRange st (v i) = true ∧ (v i - trimVal st f (s.get f)).natAbs ≤ trimMaxChange st) ∧
      stageCheck st (before.map BitVec.toNat) (after.map BitVec.toNat) = true
    u < 48 → s.hasUnit u = true → 1 ≤ st → st ≤ 4 → (u < 16 ↔ st ≤ 2) → fs.length ≤ vals.length →
    (s.calHeld u = true ∨ st = 2 ∧ s.upIlm u = false → (s.calOf u).old.length = (trimRegs u).length →
      ∃ t, exec (.calStageEnd unit vals before after train) s = .next t ∧ (t.calOf u).stage = 0 ∧
        (trimRegs u).map t.word = (s.calOf u).old ∧ Kept [.evt, .cen, .cal, .out] [.evt, .cmd, .portCal, .memCal, .cal] s t) ∧
    (s.calHeld u = false → (st = 2 → s.upIlm u = true) → ∃ t, exec (.calStageEnd unit vals before after train) s = .next t ∧
      (st ≠ 4 → ok → ∀ i f, fs[i]? = some f → t.get f = (vals.getD i 0).toNat % 2 ^ f.len) ∧
      (st ≠ 4 → ¬ ok → (∀ f, f ∈ fs → t.get f = s.get f) ∧
        t.isPending (if u < 16 then Ev.portCalFail u else Ev.memTrimFail ((u - 16) / 2)) = true ∧
        t.get F.THM_CAL_FAILS_COUNT = min (2 ^ F.THM_CAL_FAILS_COUNT.len - 1) (s.get F.THM_CAL_FAILS_COUNT + 1)) ∧
      (st = 3 ∨ st = 1 ∧ s.upIlm u = true → (t.calOf u).stage = st + 1) ∧
      (st = 4 ∨ st = 2 ∨ st = 1 ∧ s.upIlm u = false → (t.calOf u).stage = 0 ∧
        t.get F.THM_CAL_RUNS_COUNT = min (2 ^ F.THM_CAL_RUNS_COUNT.len - 1) (s.get F.THM_CAL_RUNS_COUNT + 1) ∧
        (u < 16 → t.flag (calRunning u) = false ∧ t.flag (calDue u) = false)) ∧
      Kept [.nv, .ao, .evt, .cen, .pch, .bank, .line, .pad, .lane, .trv, .drv, .apply, .cal, .diag, .clk, .dram, .chk, .pwr, .out, .freeCtr] [.dev, .evt, .cmd, .portLink, .portIlm, .portPad, .portTrv, .portCal, .portTone, .slices, .memCtl, .memInteg, .freezeRec, .memTrain, .memCal, .fab, .lane, .cal, .piste, .evid, .tst] s t)) ∧
  (∀ (slot : BitVec 6) (s : State), let k := slot.toNat
    s.taken k 0x21 = true → s.herderRuns = true → s.stackOpen = true →
    (s.generalAt k 0 = none → ∃ t, exec (.calSave slot) s = .next t ∧ Completed k stInvalid 0 [] s t ∧ Kept [.evt, .cen, .out] [.evt, .cmd] s t) ∧
    (∀ g off len, s.generalAt k 0 = some (g, off, len) → s.trimsLen ≤ len → (s.stackPut 0x23 g off s.trimsImage).2 = false →
      ∃ t, exec (.calSave slot) s = .next t ∧ Completed k stOk 0 [0, s.trimsLen] s t ∧
        t.dram = (s.stackPut 0x23 g off s.trimsImage).1.dram ∧ Kept [.evt, .cen, .pch, .bank, .drv, .dram, .chk, .out, .freeCtr] [.evt, .cmd, .memCtl, .memInteg] s t)) ∧
  (∀ (slot : BitVec 6) (bad : BitVec 48) (s : State), let k := slot.toNat
    s.taken k 0x22 = true → s.herderRuns = true → s.stackOpen = true →
    (s.generalAt k 0 = none → ∃ t, exec (.calRestore slot bad) s = .next t ∧ Completed k stInvalid 0 [] s t ∧
      Kept [.evt, .cen, .out] [.evt, .cmd, .sec] s t) ∧
    (∀ g off len, s.generalAt k 0 = some (g, off, len) → s.trimsLen ≤ len → s.param k 2 = s.trimsLen →
      let r := s.stackGet 0x23 g off s.trimsLen
      let bs := r.2.2
      let v (u i : Nat) : Nat := u8 (slice bs (16 + 32 * (if u < 16 then u else s.nPorts + u - 16)) 32) i
      let inRange (u : Nat) : Bool :=
        if u < 16 then ((List.range 24).all fun i => decide (v u i ≠ 0x80)) && decide (v u 24 ≤ 63) && decide (v u 25 ≤ 63)
        else (List.range 26).all fun i => decide ((signed 8 (v u i)).natAbs ≤ 31)
      let good := s.units.filter fun u => decide (v u 0x1B % 2 = 1) && inRange u && !bad.getLsbD u
      let refused := s.units.filter fun u => decide (v u 0x1B % 2 = 1) && !(inRange u && !bad.getLsbD u)
      uLe bs 0 8 = s.wide A.SEC_ID_SERIAL → u8 bs 8 = s.nPorts → u8 bs 9 = s.nPcs →
      ∃ t, exec (.calRestore slot bad) s = .next t ∧
        CompletedLast k stOk 0 [0, 0, listMask (good.filter (· < 16)), listMask (refused.filter (· < 16)),
          listMask ((good.filter (16 ≤ ·)).map (· - 16)), listMask ((refused.filter (16 ≤ ·)).map (· - 16))] s t ∧
        t.flag F.THM_CAL_STATUS_TRIMS_REFUSED = decide (refused ≠ []) ∧
        (∀ u, u ∈ good → ∀ i f, (stageFields u (if u < 16 then 1 else 3) ++ stageFields u (if u < 16 then 2 else 4))[i]? = some f →
          t.get f = v u i % 2 ^ f.len) ∧
        Kept [.evt, .cen, .pch, .bank, .line, .pad, .drv, .cal, .out, .freeCtr] [.evt, .cmd, .portPad, .portCal, .memCtl, .memInteg, .freezeRec, .memCal, .fab, .cal, .evid, .sec] s t))

/-- DIAG_REFLECT, SWEEP_LISTEN_RETRY, DIAG_PASSIVE and CABLE_CHECK_PERIOD (R213 to R223). The threshold of the periodic check is the
model's choice (log entry 72), and so is that a standing Traverse link counts as training (log entry 112). -/
def Obligations.CableDiagnostics : Prop :=
  let shows (n kind : Nat) (evs : List (Nat × Bool × Nat)) (s t : State) : Prop :=
    (∀ i, i < 8 → t.word (A.PORT_DIAG_EVT n i) = BitVec.ofNat 32 (match evs[i]? with | some p => eventWord p | none => 0)) ∧
    t.flag (F.PORT_DIAG_STATE_RUNNING n) = false ∧ t.get (F.PORT_DIAG_STATE_SOURCE n) = kind ∧ t.get (F.PORT_DIAG_STATE_COUNT n) = evs.length ∧
    t.flag (F.PORT_DIAG_STATE_FAR_END n) = (evs.any fun p => decide (2 ≤ eventKind p.1 p.2.2 p.2.1)) ∧
    (t.get (F.PORT_DIAG_STATE_CHANGED n) ≠ 0 → s.coreOn = true → n < s.nPorts → t.isPending (Ev.portCableChange n) = true)
  let ends (k n kind : Nat) (evs : List (Nat × Bool × Nat)) (nvFail : Bool) (s t : State) : Prop :=
    shows n kind evs s t ∧ ((s.param k 0).testBit 17 = true → t.slotState k = 3) ∧
    ((s.param k 0).testBit 17 = false → CompletedLast k (if (s.param k 0).testBit 16 && nvFail then stNv else stOk) 0
      [0, evs.length + 256 * t.get (F.PORT_DIAG_STATE_FAR_END n) + 65536 * ((evs.getLast?.map (·.1)).getD 0), (t.word (A.PORT_DIAG_STATE n)).toNat] s t) ∧
    ((s.param k 0).testBit 16 = true → nvFail = false → Tbl.get t.nv.thresh 0 (2 * n + kind) = threshOf (s.param k 3) ∧
      ∀ i, i < 8 → t.word (A.PORT_DIAG_BASE n (8 * kind + i)) = t.word (A.PORT_DIAG_EVT n i)) ∧
    ((s.param k 0).testBit 16 = false ∨ nvFail = true → t.nv = s.nv)
  let sweeps (k : Nat) (reduced : Bool) (s : State) : Nat :=
    if reduced then 255 else if bits (s.param k 0) 8 8 = 0 then 64 else bits (s.param k 0) 8 8
  (∀ (slot : BitVec 6) (nvFail : Bool) (s : State), let k := slot.toNat
    let n := s.param k 0 % 16
    s.taken k 0x23 = true → s.herderRuns = true →
    (∀ quiet echo, s.diagInvalid k n = true → ∃ t, exec (.diagReflect slot quiet echo nvFail) s = .next t ∧ Completed k stInvalid 0 [] s t ∧
      Kept [.evt, .cen, .out] [.evt, .cmd] s t) ∧
    (∀ quiet echo, s.diagInvalid k n = false → s.up n = true ∨ s.flag (F.PORT_DIAG_STATE_RUNNING n) = true ∨ s.an n = 3 ∨ s.an n = 5 ∨
        s.trvStands n = true →
      ∃ t, exec (.diagReflect slot quiet echo nvFail) s = .next t ∧ Completed k stBusy 0 [] s t ∧ Kept [.evt, .cen, .out] [.evt, .cmd] s t) ∧
    (s.diagInvalid k n = false → s.up n = false → s.flag (F.PORT_DIAG_STATE_RUNNING n) = false → s.an n ≠ 3 → s.an n ≠ 5 → s.trvStands n = false →
      (∀ quiet echo, s.diagStopped = true → ∃ t, exec (.diagReflect slot quiet echo nvFail) s = .next t ∧
        Completed k stAborted 0 [0, 0, (s.word (A.PORT_DIAG_STATE n)).toNat] s t ∧ Kept [.evt, .cen, .out] [.evt, .cmd] s t) ∧
      (∀ quiet e, s.diagStopped = false → 16 * BitVec.toNat quiet < sweeps k (s.diagReduced n) s → ∃ t, exec (.diagReflect slot quiet e nvFail) s = .next t ∧
        (let d := Tbl.get t.diag {} n
         d.slot = k + 1 ∧ d.fails = 1 ∧ d.left = sweeps k (s.diagReduced n) s - 16 * quiet.toNat ∧ d.reduced = s.diagReduced n ∧
          d.since = s.time ∧ s.time + 100000 ≤ d.retryAt ∧ d.retryAt ≤ s.time + 300000) ∧
        (quiet ≠ 0 → .sweep n (16 * quiet.toNat) (if s.diagReduced n then 24 else 0) ∈ t.out) ∧
        t.flag (F.PORT_DIAG_STATE_RUNNING n) = true ∧ t.flag (F.PORT_DIAG_STATE_REDUCED n) = s.diagReduced n ∧
        (t.slot k).begun = true ∧ Kept [.nv, .box, .evt, .cen, .pch, .bank, .line, .trv, .drv, .cal, .diag, .dram, .chk, .out, .freeCtr] [.evt, .cmd, .portCal, .memCtl, .memInteg, .memCal, .cal] s t) ∧
      (∀ quiet (e : Echo), s.diagStopped = false → sweeps k (s.diagReduced n) s ≤ 16 * BitVec.toNat quiet →
        ∃ t, exec (.diagReflect slot quiet e nvFail) s = .next t ∧
        .sweep n (sweeps k (s.diagReduced n) s) (if s.diagReduced n then 24 else 0) ∈ t.out ∧ ends k n 0 (findEvents (echoCovered e 4799).1 (threshOf (s.param k 3))) nvFail s t ∧
        t.flag (F.PORT_DIAG_STATE_REDUCED n) = s.diagReduced n ∧ Kept [.nv, .box, .evt, .cen, .pch, .bank, .line, .trv, .drv, .cal, .diag, .dram, .chk, .out, .freeCtr] [.evt, .cmd, .portCal, .memCtl, .memInteg, .memCal, .cal] s t))) ∧
  (∀ (port : BitVec 4) (nvFail : Bool) (s : State), let n := port.toNat
    let d := Tbl.get s.diag {} n
    let k := d.slot - 1
    d.slot ≠ 0 → s.herderRuns = true → s.clocked = true → s.slotState k = 2 →
    (∀ quiet e, 16 * BitVec.toNat quiet < d.left → d.fails < 15 → ∃ t, exec (.sweepListenRetry port quiet e nvFail) s = .next t ∧
      (let x := Tbl.get t.diag {} n
       x = { d with fails := d.fails + 1, left := d.left - 16 * quiet.toNat, retryAt := x.retryAt } ∧
        t.time + 100000 ≤ x.retryAt ∧ x.retryAt ≤ t.time + 300000) ∧
      (quiet ≠ 0 → .sweep n (16 * quiet.toNat) (if d.reduced then 24 else 0) ∈ t.out) ∧
      t.ao.time10 = max s.ao.time10 (10 * d.retryAt) ∧ Kept [.nv, .evt, .cen, .pch, .bank, .line, .trv, .drv, .diag, .dram, .chk, .out, .freeCtr, .time] [.evt, .cmd, .portCal, .memCtl, .memInteg] s t) ∧
    (∀ quiet e, 16 * BitVec.toNat quiet < d.left → 15 ≤ d.fails → ∃ t, exec (.sweepListenRetry port quiet e nvFail) s = .next t ∧
      Tbl.get t.diag {} n = {} ∧ Completed k stAborted 0 [0, 2 ^ 31, (t.word (A.PORT_DIAG_STATE n)).toNat] s t ∧
      t.flag (F.PORT_DIAG_STATE_RUNNING n) = false ∧ Kept [.nv, .evt, .cen, .pch, .bank, .line, .trv, .drv, .diag, .dram, .chk, .out, .freeCtr, .time] [.evt, .cmd, .portCal, .memCtl, .memInteg] s t) ∧
    (∀ quiet (e : Echo), d.left ≤ 16 * BitVec.toNat quiet → ∃ t, exec (.sweepListenRetry port quiet e nvFail) s = .next t ∧
      ends k n 0 (findEvents (echoCovered e 4799).1 (threshOf (s.param k 3))) nvFail s t ∧ Tbl.get t.diag {} n = {} ∧ Kept [.nv, .evt, .cen, .pch, .bank, .line, .trv, .drv, .diag, .dram, .chk, .out, .freeCtr, .time] [.evt, .cmd, .portCal, .memCtl, .memInteg] s t)) ∧
  (∀ (slot : BitVec 6) (e : Echo) (nvFail : Bool) (s : State), let k := slot.toNat
    let n := s.param k 0 % 16
    s.taken k 0x24 = true → s.herderRuns = true →
    (s.diagInvalid k n = true ∨ s.upIlm n = false → ∃ t, exec (.diagPassive slot e nvFail) s = .next t ∧ Completed k stInvalid 0 [] s t ∧
      Kept [.evt, .cen, .out] [.evt, .cmd] s t) ∧
    (s.diagInvalid k n = false → s.upIlm n = true → ∃ t, exec (.diagPassive slot e nvFail) s = .next t ∧
      ends k n 1 (findEvents (echoCovered e (s.passiveCover n)).1 (threshOf (s.param k 3))) nvFail s t ∧ Kept [.nv, .evt, .cen, .pch, .bank, .drv, .cal, .dram, .chk, .out, .freeCtr] [.evt, .cmd, .portCal, .memCtl, .memInteg, .memCal, .cal] s t)) ∧
  (∀ (port : BitVec 4) (e : Echo) (s : State), let n := port.toNat
    s.herderRuns = true → s.clocked = true → s.upIlm n = true → s.get F.THM_CAL_CFG_CABLE_PERIOD ≠ 0 → s.baseThresh n 1 ≠ 0 →
    ∃ t, exec (.cableCheckPeriod port e) s = .next t ∧ shows n 1 (findEvents (echoCovered e (s.passiveCover n)).1 80) s t ∧ t.nv = s.nv ∧
      Kept [.nv, .evt, .cen, .cal, .out] [.evt, .cmd, .portCal, .memCal, .cal] s t)

/-- FOLD_LOAD, STRUCTURAL_APPLY_STAGE, FOLD_LOAD_COMPLETION and FOLD_COMMIT (R29 to R38, Table 2-14). -/
def Obligations.FoldsAreLoadedAppliedAndCommitted : Prop :=
  (∀ (slot : BitVec 6) (nvFail : Bool) (bad : BitVec 48) (s : State), let k := slot.toNat
    let b := s.staged (s.param k 0)
    let u := s.loadSlot
    s.taken k 0x01 = true → s.herderRuns = true → s.stackOpen = true →
    (s.foldBusy = true → ∃ t, exec (.foldLoad slot nvFail bad) s = .next t ∧ Completed k stBusy 0 [] s t ∧
      Kept [.evt, .cen, .out] [.evt, .cmd, .sec] s t) ∧
    (∀ code id off, s.foldBusy = false → s.imageErr b (s.param k 0) = some (code, id, off) → code < 256 →
      ∃ t, exec (.foldLoad slot nvFail bad) s = .next t ∧
      Completed k stInvalid code [id * 16777216 + off % 16777216] s t ∧ t.get F.DEV_FOLD_STATUS_LAST_ERR = code ∧
      Kept [.evt, .cen, .out] [.dev, .evt, .cmd, .sec] s t) ∧
    (s.foldBusy = false → s.imageErr b (s.param k 0) = none → nvFail = true → ∃ t, exec (.foldLoad slot nvFail bad) s = .next t ∧
      Completed k stNv 0x18 [] s t ∧ t.flag (slotValid u) = false ∧ Kept [.nv, .evt, .cen, .out] [.dev, .evt, .cmd, .sec] s t) ∧
    (s.foldBusy = false → s.imageErr b (s.param k 0) = none → nvFail = false → ∃ t, exec (.foldLoad slot nvFail bad) s = .next t ∧
      Tbl.get t.nv.foldSlots [] u = b ∧ t.flag (slotValid u) = true ∧ t.get F.DEV_FOLD_STATUS_LAST_ERR = 0 ∧
      ((s.param k 1).testBit 0 = false → Completed k stOk 0 (loadWords 0 0 0 0 (skippedIds b)) s t ∧ t.fold = s.fold) ∧
      ((s.param k 1).testBit 0 = true → s.sameStructure b = true → b ≠ [] → t.slotState k = 3 ∧ t.fold = foldOf b ∧
        t.get F.DEV_FOLD_STATUS_RUN_SRC = u + 1) ∧
      ((s.param k 1).testBit 0 = true → s.sameStructure b = false → t.slotState k = 2 ∧ (t.slot k).begun = true ∧ t.fold = s.fold ∧
        t.apply.stage = 3 ∧ t.apply.slot = k + 1 ∧ t.apply.image = b ∧ t.get F.DEV_FOLD_STATUS_APPLY_STATE = 3) ∧
      Kept [.nv, .fold, .box, .evt, .cen, .pch, .bank, .line, .pad, .lane, .trv, .drv, .apply, .cal, .diag, .clk, .pwr, .out, .freeCtr] [.dev, .evt, .cmd, .portLink, .portIlm, .portPad, .portTrv, .portCal, .portTone, .slices, .memCtl, .memInteg, .freezeRec, .memCal, .fab, .lane, .drv, .cal, .pos, .piste, .evid, .sec, .tst, .evtCfg] s t)) ∧
  (∀ (bad : BitVec 48) (s : State), let g := s.apply.stage
    s.herderRuns = true → s.stackOpen = true → 3 ≤ g → g ≤ 7 →
    ∃ t, exec (.structuralApplyStage bad) s = .next t ∧ s.ao.time10 ≤ t.ao.time10 ∧
      10 * (s.apply.start + s.apply.halted + stageEnd g) ≤ t.ao.time10 ∧
      (g ≠ 7 → t.apply.stage = g + 1 ∧ t.get F.DEV_FOLD_STATUS_APPLY_STATE = g + 1) ∧
      (g = 6 → s.apply.relay = false → s.apply.image ≠ [] → t.fold = foldOf s.apply.image) ∧
      (g = 7 → s.apply.slot ≠ 0 → t.apply.stage = 8 ∧ t.apply.slot = s.apply.slot) ∧
      (g = 7 → s.apply.slot = 0 → s.apply.again = false → t.apply = {} ∧ t.get F.DEV_FOLD_STATUS_APPLY_STATE = 0) ∧
      Kept [.nv, .ao, .fold, .evt, .cen, .evid, .pch, .bank, .line, .pad, .lane, .trv, .drv, .apply, .cal, .diag, .clk, .dram, .chk, .pwr, .pins, .out, .freeCtr, .time] [.dev, .evt, .cmd, .portLink, .portIlm, .portPad, .portTrv, .portCal, .portTone, .slices, .memCtl, .memInteg, .freezeRec, .memCal, .fab, .lane, .drv, .cal, .pos, .piste, .cen, .evid, .tst, .evtCfg] s t) ∧
  (∀ (alone : BitVec 16) (s : State), let k := s.apply.slot - 1
    let training := s.trainingMask alone.toNat
    s.herderRuns = true → s.apply.stage = 8 → s.apply.slot ≠ 0 → s.apply.again = false → s.slotState k = 2 →
    ∃ t, exec (.foldLoadCompletion alone) s = .next t ∧
      Completed k stOk 0 (loadWords s.upMask training s.apply.sent s.apply.disc s.apply.skipped) s t ∧ t.apply = {} ∧
      t.get F.DEV_FOLD_STATUS_APPLY_STATE = 0 ∧
      t.ao.time10 = (if training = 0 then s.ao.time10 else max s.ao.time10 (10 * (s.apply.start + s.apply.halted + 450000000))) ∧
      Kept [.evt, .cen, .pch, .bank, .line, .pad, .lane, .trv, .drv, .apply, .cal, .diag, .clk, .pwr, .out, .freeCtr, .time] [.dev, .evt, .cmd, .portLink, .portIlm, .portPad, .portTrv, .portCal, .portTone, .slices, .memCtl, .memInteg, .freezeRec, .memCal, .fab, .lane, .cal, .piste, .evid, .sec, .tst] s t) ∧
  (∀ (slot : BitVec 6) (nvFail : Bool) (s : State), let k := slot.toNat
    let u := s.param k 0 % 2
    let b := Tbl.get s.nv.foldSlots [] u
    let same := s.flag F.DEV_FOLD_STATUS_COMMIT_VALID = true ∧ s.get F.DEV_FOLD_STATUS_COMMITTED_SLOT = u
    s.taken k 0x02 = true → s.herderRuns = true → s.clocked = true →
    (s.foldBusy = true → ∃ t, exec (.foldCommit slot nvFail) s = .next t ∧ Completed k stBusy 0 [] s t ∧
      Kept [.evt, .cen, .out] [.evt, .cmd, .sec] s t) ∧
    (s.foldBusy = false → same → ∃ t, exec (.foldCommit slot nvFail) s = .next t ∧ Completed k stOk 0 [] s t ∧
      Kept [.evt, .cen, .out] [.evt, .cmd, .sec] s t) ∧
    (∀ code, s.foldBusy = false → ¬ same → s.slotErr b = some code → ∃ t, exec (.foldCommit slot nvFail) s = .next t ∧
      Completed k stInvalid code [] s t ∧ t.flag (slotValid u) = false ∧ Kept [.evt, .cen, .out] [.dev, .evt, .cmd, .sec] s t) ∧
    (s.foldBusy = false → ¬ same → s.slotErr b = none → nvFail = true → ∃ t, exec (.foldCommit slot nvFail) s = .next t ∧
      Completed k stNv 0x18 [] s t ∧ t.commitWord = s.commitWord ∧ Kept [.evt, .cen, .out] [.dev, .evt, .cmd, .sec] s t) ∧
    (s.foldBusy = false → ¬ same → s.slotErr b = none → nvFail = false → ∃ t, exec (.foldCommit slot nvFail) s = .next t ∧
      Completed k stOk 0 [] s t ∧ t.commitOk = true ∧ t.commitWord % 2 = u ∧ t.flag F.DEV_FOLD_STATUS_COMMIT_VALID = true ∧
      t.get F.DEV_FOLD_STATUS_COMMITTED_SLOT = u ∧
      t.get F.DEV_FOLD_FLOOR_FLOOR = (if (s.param k 0).testBit 8 then max (s.get F.DEV_FOLD_FLOOR_FLOOR) (uLe b 0x1C 4)
        else s.get F.DEV_FOLD_FLOOR_FLOOR) ∧ Kept [.evt, .cen, .out] [.dev, .evt, .cmd, .sec] s t))

/-- LC_ADVANCE, FW_STAGE, FW_COMMIT, KEY_READ, KEY_ENROL, KEY_REVOKE and IDENTITY_CHALLENGE (R380, R387 to R390). -/
def Obligations.LifeCycleFirmwareAndKeys : Prop :=
  (∀ (slot : BitVec 6) (s : State), let k := slot.toNat
    let op := s.param k 0 % 16
    let target := bits (s.param k 0) 4 3
    s.taken k 0x62 = true → s.herderRuns = true → s.stackOpen = true →
    (∀ nvFail, 3 ≤ op → ∃ t, exec (.lcAdvance slot nvFail) s = .next t ∧ Completed k stInvalid 0 [] s t ∧
      Kept [.evt, .cen, .out] [.evt, .cmd] s t) ∧
    (∀ nvFail, op = 0 → s.lcStatus k target ≠ stOk → ∃ t, exec (.lcAdvance slot nvFail) s = .next t ∧
      Completed k (s.lcStatus k target) 0 [] s t ∧ t.lc = s.lc ∧ t.nv = s.nv ∧
      (s.lcStatus k target = stDenied → t.isPending Ev.secDenied = true) ∧ Kept [.evt, .cen, .out] [.evt, .cmd, .sec] s t) ∧
    (op = 0 → s.lcStatus k target = stOk → ∃ t, exec (.lcAdvance slot (some false)) s = .next t ∧ Completed k stNv 0 [] s t ∧
      t.lc = s.lc ∧ t.nv = s.nv ∧ Kept [.evt, .cen, .out] [.evt, .cmd, .sec] s t) ∧
    (op = 0 → s.lcStatus k target = stOk → ∃ t, exec (.lcAdvance slot none) s = .next t ∧ Completed k stOk 0 [] s t ∧
      t.lc = target ∧ t.role = 0 ∧ t.flag F.SEC_STATE_PENDING = false ∧ t.sec.lcReset = true ∧
      (target = 3 ∨ target = 4 → t.nv.keys = [] ∧ t.nv.foldSlots = [] ∧ t.nv.piste = [] ∧ t.wide A.DEV_FOLD_COMMIT = 0) ∧
      (target = 4 → t.nv.fwSlots = [] ∧ t.nv.fwCommitted = false) ∧
      (target = 2 ∨ s.lc = 0 ∧ target = 1 → t.nv = s.nv ∧ t.dram = s.dram) ∧ Kept [.nv, .sec, .evt, .cen, .evid, .pch, .bank, .line, .apply, .dram, .chk, .herder, .out] [.dev, .evt, .cmd, .portLink, .portCal, .memInteg, .evid, .sec] s t)) ∧
  (∀ (slot : BitVec 6) (nvFail : Bool) (s : State), let k := slot.toNat
    let off := s.param k 1
    let len := s.param k 2
    let u := s.fwStageSlot
    let sized := off % 262144 = 0 ∧ len ≤ 262144 ∧ len % 8 = 0 ∧ off + len ≤ 1048576
    let bytes := overlay (Tbl.get s.nv.fwSlots [] u) off ((s.wordBytes (A.DEV_FOLD_STAGE 0) ((len + 3) / 4)).take len)
    let passes := ∃ v, Config.firmware bytes = some v ∧ s.get F.DEV_FW_FLOOR_FLOOR ≤ v.toNat
    s.taken k 0x62 = true → s.param k 0 % 16 = 1 → s.herderRuns = true → s.clocked = true →
    (s.mayAs (s.slot k).role 3 = false → ∃ t, exec (.fwStage slot nvFail) s = .next t ∧ Completed k stDenied 0 [] s t ∧
      t.isPending Ev.secDenied = true ∧ Kept [.evt, .cen, .out] [.evt, .cmd, .sec] s t) ∧
    (s.mayAs (s.slot k).role 3 = true → ¬ sized → ∃ t, exec (.fwStage slot nvFail) s = .next t ∧ Completed k stInvalid 0 [] s t ∧
      Kept [.evt, .cen, .out] [.evt, .cmd, .sec] s t) ∧
    (s.mayAs (s.slot k).role 3 = true → sized → nvFail = false → ∃ t, exec (.fwStage slot nvFail) s = .next t ∧
      Tbl.get t.nv.fwSlots [] u = bytes ∧
      ((s.param k 3).testBit 0 = false → Completed k stOk 0 [] s t ∧ t.flag (fwValidFld u) = false ∧ Tbl.get t.nv.fwVer none u = none) ∧
      ((s.param k 3).testBit 0 = true → passes → Completed k stOk 0 [] s t ∧ t.flag (fwValidFld u) = true ∧
        Tbl.get t.nv.fwVer none u = (Config.firmware bytes).map BitVec.toNat) ∧
      ((s.param k 3).testBit 0 = true → ¬ passes → Completed k stInvalid 0 [] s t ∧ t.flag (fwValidFld u) = false) ∧ Kept [.nv, .evt, .cen, .out] [.dev, .evt, .cmd, .sec] s t)) ∧
  (∀ (slot : BitVec 6) (nvFail : Bool) (s : State), let k := slot.toNat
    let u := bits (s.param k 0) 9 1
    s.taken k 0x62 = true → s.param k 0 % 16 = 2 → s.herderRuns = true → s.clocked = true →
    (s.mayAs (s.slot k).role 3 = false → ∃ t, exec (.fwCommit slot nvFail) s = .next t ∧ Completed k stDenied 0 [] s t ∧
      t.isPending Ev.secDenied = true ∧ Kept [.evt, .cen, .out] [.evt, .cmd, .sec] s t) ∧
    (s.mayAs (s.slot k).role 3 = true → s.fwPasses u = false ∨ nvFail = true → ∃ t, exec (.fwCommit slot nvFail) s = .next t ∧
      Completed k (if s.fwPasses u then stNv else stInvalid) 0 [] s t ∧ Kept [.evt, .cen, .out] [.evt, .cmd, .sec] s t) ∧
    (s.mayAs (s.slot k).role 3 = true → s.fwPasses u = true → nvFail = false → ∃ t, exec (.fwCommit slot nvFail) s = .next t ∧
      Completed k stOk 0 [] s t ∧ t.nv.fwCommitted = true ∧ t.get F.DEV_FW_STATUS_COMMITTED_SLOT = u ∧
      ((s.param k 0).testBit 8 = true → t.get F.DEV_FW_FLOOR_FLOOR = ((Tbl.get s.nv.fwVer none u).getD 0) % 2 ^ 32) ∧ Kept [.nv, .evt, .cen, .out] [.dev, .evt, .cmd, .sec] s t)) ∧
  (∀ (val : Word) (s : State), let op := getBits val 28 2
    let cls := getBits val 27 1
    let slot := getBits val 24 3
    let key := Tbl.get s.nv.keys [] (keyIdx cls slot)
    s.barOpen → s.lc ≠ 4 → val.getLsbD 31 = true →
    (op = 0 ∨ op = 3 → key.length = 64 ∨ key = [] → ∃ t, exec (.keyRead val) s = .next t ∧
      t.wordBytes (A.SEC_KEY_STAGE 0) 16 = (if key = [] then List.replicate 64 0 else key) ∧ t.get F.SEC_KEY_CTRL_RESULT = 0 ∧ Kept [] [.sec] s t) ∧
    (∀ nvFail, op = 1 → let res := s.enrolResult cls nvFail
      ∃ t, exec (.keyEnrol val nvFail) s = .next t ∧ t.get F.SEC_KEY_CTRL_RESULT = res ∧
        (res = 0 → Tbl.get t.nv.keys [] (keyIdx cls slot) = s.wordBytes (A.SEC_KEY_STAGE 0) 16 ∧
          (s.role = cls + 1 → s.get F.SEC_SESSION_SLOT = slot → t.role = 0)) ∧
        (res ≠ 0 → t.nv = s.nv ∧ t.role = s.role) ∧ (res = 1 → t.isPending Ev.secDenied = true) ∧ Kept [.nv, .sec, .evt, .cen, .evid, .line, .apply, .herder, .out] [.evt, .sec] s t) ∧
    (∀ nvFail, op = 2 → let res := s.revokeResult cls slot nvFail
      ∃ t, exec (.keyRevoke val nvFail) s = .next t ∧ t.get F.SEC_KEY_CTRL_RESULT = res ∧
        (res = 0 → Tbl.get t.nv.keys [] (keyIdx cls slot) = [] ∧ (s.role = cls + 1 → s.get F.SEC_SESSION_SLOT = slot → t.role = 0)) ∧
        (res ≠ 0 → t.nv = s.nv ∧ t.role = s.role) ∧ (res = 1 → t.isPending Ev.secDenied = true) ∧ Kept [.nv, .sec, .evt, .cen, .evid, .line, .apply, .herder, .out] [.evt, .sec] s t)) ∧
  (∀ (val : Word) (s : State), s.barOpen → val.getLsbD 31 = true →
    ∃ t, exec (.identityChallenge val) s = .next t ∧ t.get F.SEC_ID_CTRL_DONE = 1 ∧
      (∃ k, 1 ≤ k ∧ k < curveN ∧ t.wordBytes (A.SEC_ID_SIG 0) 16 = ecdsaSign s.nv.idPriv k s.challengeMessage) ∧ Kept [.freeCtr] [.sec] s t)

/-- The mailbox over resets and over PERST_N (R314). -/
def Obligations.ResetsEmptyTheMailbox : Prop :=
  (∀ (cause : Nat) (b : Boot) (s : State), let t := s.resetDevice cause b;
    (∀ k, t.slotState k = 0) ∧ t.get F.CMD_CQ_PROD_COUNT = 0 ∧ t.get F.CMD_CQ_CONS_COUNT = 0 ∧
    (∀ i w, t.word (A.CMD_CQ i w) = 0) ∧ t.box = {}) ∧
  (∀ (low : Bool) (s : State), ∃ t, exec (.perstN low) s = .next t ∧ t.box = s.box ∧
    ∀ a, regGroup a = .cmd → t.word a = s.word a)

/-- POWER_ON_RESET, SUPPLY_FAULT, RESET_PIN, SOFT_RESET, DEBUG_RESET and LIFECYCLE_RESET (R357 to R362, R387). The pulse that does
nothing and the times are the model's choices (log entries 76 and 77). -/
def Obligations.ResetsRestartTheDevice : Prop :=
  (∀ (b : Boot) (s : State), ∃ t, exec (.powerOnReset b) s = .next t ∧ Restarted 1 false b s t) ∧
  (∀ (stack : Bool) (b : Boot) (s : State),
    (s.pwr.mode = 3 ∨ s.pwr.mode = 2 ∧ stack = false → exec (.supplyFault stack b) s = .next s) ∧
    (s.pwr.mode ≠ 3 → (s.pwr.mode = 2 → stack = true) → ∃ t, exec (.supplyFault stack b) s = .next t ∧ Restarted 2 (!stack) b s t)) ∧
  (∀ (us : BitVec 16) (b : Boot) (s : State),
    (us.toNat < 10 → exec (.resetPin us b) s = .next s) ∧
    (10 ≤ us.toNat → ∃ t, exec (.resetPin us b) s = .next t ∧ Restarted 6 (decide (s.pwr.mode ≠ 3)) b s t)) ∧
  (∀ (val : Word) (b : Boot) (s : State), s.barOpen → s.lc ≠ 4 →
    (val.getLsbD 0 = false → exec (.softReset val b) s = .next s) ∧
    (val.getLsbD 0 = true → s.may 2 = true → ∃ t, exec (.softReset val b) s = .next t ∧ Restarted 9 true b s t) ∧
    (val.getLsbD 0 = true → s.may 2 = false → ∃ t, exec (.softReset val b) s = .next t ∧ t.isPending Ev.secDenied = true ∧
      Kept [.evt, .cen, .out] [.evt] s t)) ∧
  (∀ (b : Boot) (s : State),
    (s.unlocked = false → exec (.debugReset b) s = .next s) ∧
    (s.unlocked = true → ∃ t, exec (.debugReset b) s = .next t ∧ Restarted 7 (decide (s.pwr.mode ≠ 3)) b s t)) ∧
  (∀ (b : Boot) (s : State),
    (s.sec.lcReset = false → exec (.lifecycleReset b) s = .next s) ∧
    (s.sec.lcReset = true → s.pwr.mode ≠ 3 → ∃ t, exec (.lifecycleReset b) s = .next t ∧ Restarted 8 true b (s.timeOn 1000000) t))

/-- PWR_STATE, CLOCK_GATE_REQUEST, GATE_ACK_TIMEOUT, PEN_ENTRY_WAIT and WINTER_AFTER_EXPIRY (R327 to R331, R355). -/
def Obligations.PowerStateEntries : Prop :=
  (∀ (slot : BitVec 6) (s : State), let k := slot.toNat
    let target := s.param k 0 % 4
    s.taken k 0x50 = true → s.herderRuns = true → s.coreOn = true →
    (s.pwr.entry ≠ 0 ∨ s.pwr.begun ≠ [] → ∃ t, exec (.pwrState slot) s = .next t ∧ Completed k stBusy 0 [] s t ∧
      Kept [.evt, .cen, .out] [.evt, .cmd] s t) ∧
    (s.pwr.entry = 0 → s.pwr.begun = [] →
      (target = s.pwr.mode → ∃ t, exec (.pwrState slot) s = .next t ∧ Completed k stOk 0 [] s t ∧ Kept [.evt, .cen, .out] [.evt, .cmd] s t) ∧
      (target ≠ s.pwr.mode → target = 0 → ∃ t, exec (.pwrState slot) s = .next t ∧ Completed k stOk 0 [] s t ∧ t.pwr.mode = 0 ∧
        t.get F.PWR_MODE_STATE = 0 ∧ Kept [.evt, .cen, .out, .pwr, .pins] [.evt, .cmd, .pwr, .drv] s t) ∧
      (target ≠ s.pwr.mode → target ≠ 0 →
        (∀ code, s.refuser k target = some code → ∃ t, exec (.pwrState slot) s = .next t ∧ Completed k stRefused code [] s t ∧
          t.get F.PWR_LAST_REFUSER = code ∧ t.flag F.PWR_LAST_ABORTED = false ∧
          t.get (F.PWR_REFUSE_CNT_COUNT code) = min (2 ^ 32 - 1) (s.get (F.PWR_REFUSE_CNT_COUNT code) + 1) ∧
          t.isPending Ev.pwrRefused = true ∧ Kept [.evt, .cen, .out] [.evt, .cmd, .pwr] s t) ∧
        (s.refuser k target = none → ∃ t, exec (.pwrState slot) s = .next t ∧
          (s.param k 2 ≠ 0 → t.get F.PWR_TIMER_SECONDS = s.param k 2 ∧ t.ao.timerAt = s.time) ∧
          (target = 1 → CompletedLast k stOk 0 [] s t ∧ t.pwr.mode = 1 ∧ t.get F.PWR_MODE_STATE = 1 ∧
            Kept [.ao, .evt, .cen, .out, .pwr, .cal, .diag, .line, .trv] [.evt, .cmd, .pwr, .portCal, .memCal, .cal] s t) ∧
          (2 ≤ target → (t.slot k).begun = true ∧ t.pwr.target = target ∧ t.pwr.slot = k ∧ t.pwr.winterAfter = s.param k 1 % 65536 ∧
            t.flag F.PWR_MODE_ENTERING = true ∧ t.pwr.mode = s.pwr.mode ∧ (t.pwr.entry = 2 ∨ t.pwr.entry = 4) ∧
            (∀ n, n < s.nPorts → s.up n = true → s.flag (F.PORT_PAD_STATE_DRAINING n) = false →
              t.up n = true ∧ t.flag (F.PORT_PAD_STATE_DRAINING n) = true ∧ (t.pd n).drainCause = 7 ∨
              t.up n = false ∧ t.get (F.PORT_LINK_STATUS_DOWN_CAUSE n) = 7)) ∧
          Kept [.ao, .box, .evt, .cen, .evid, .pch, .bank, .line, .pad, .lane, .trv, .drv, .apply, .cal, .diag, .clk, .dram, .chk, .pwr, .pins, .out, .freeCtr] [.evt, .cmd, .portLink, .portIlm, .portPad, .portTrv, .portCal, .portTone, .slices, .memCtl, .memInteg, .freezeRec, .memCal, .fab, .lane, .pwr, .drv, .cal, .piste, .cen, .evid, .tst] s t)))) ∧
  (∀ (block : BitVec 4) (ack demand : Bool) (s : State), let b := block.toNat;
    (s.clocked = false ∨ b ∉ gateOrder ∨ s.pwr.entry = 6 → exec (.clockGateRequest block ack demand) s = .next s) ∧
    (s.clocked = true → b ∈ gateOrder →
      (s.pwr.entry = 0 → ∃ t, exec (.clockGateRequest block ack demand) s = .next t ∧
        (ack = true → t.pwr.gate = none ∧ t.clk.gates.testBit b = !demand) ∧
        (ack = false → t.pwr.gate = some b ∧ t.clk.gates = s.clk.gates) ∧ Kept [.pwr, .clk] [] s t) ∧
      (s.pwr.entry = 2 → (∃ n, n < s.nPorts ∧ s.flag (F.PORT_PAD_STATE_DRAINING n) = true) →
        exec (.clockGateRequest block ack demand) s = .next s) ∧
      (s.pwr.entry = 2 → (∀ n, n < s.nPorts → s.flag (F.PORT_PAD_STATE_DRAINING n) = false) →
        ∃ t, exec (.clockGateRequest block ack demand) s = .next t ∧ t.pwr.entry = 4 ∧ t.pins.byp = 0 ∧ t.flag F.CEN_STATUS_RUNNING = false ∧
          (s.pwr.target = 2 → t.pwr.penCount = (s.pwr.penCount + 1) % 2 ^ 32) ∧ t.pwr.closed = (if ack ∧ b = 9 then 1 else 0) ∧
          Kept [.evt, .cen, .evid, .pch, .bank, .line, .pad, .drv, .cal, .clk, .dram, .chk, .pwr, .pins, .out, .freeCtr] [.evt, .cmd, .portPad, .portCal, .memCtl, .memInteg, .freezeRec, .memCal, .fab, .cal, .cen, .evid] s t) ∧
      (s.pwr.entry = 4 → gateOrder[s.pwr.closed]? ≠ some b → exec (.clockGateRequest block ack demand) s = .next s) ∧
      (s.pwr.entry = 4 → gateOrder[s.pwr.closed]? = some b → ∃ t, exec (.clockGateRequest block ack demand) s = .next t ∧
        (ack = false → t.pwr.gate = some b ∧ Kept [.pwr] [] s t) ∧
        (ack = true → t.pwr.closed = s.pwr.closed + 1 ∧ t.pwr.gate = none ∧ t.clk.gates.testBit b = true ∧
          (b ≠ 13 → t.pwr.entry = 4 ∧ Kept [.pwr, .clk] [] s t) ∧
          (b = 13 → s.slotState s.pwr.slot = 2 → CompletedLast s.pwr.slot stOk 0 [0, s.pwr.drained, s.pwr.discarded] s t ∧ t.pwr.entry = 6 ∧ t.pwr.since = s.time ∧
            (∀ c, c < s.nChans → s.chRole c ≠ 2 → t.selfRefresh c = true) ∧
            Kept [.evt, .cen, .evid, .pch, .bank, .line, .pad, .drv, .cal, .clk, .dram, .chk, .pwr, .pins, .out, .freeCtr] [.evt, .cmd, .portPad, .portCal, .memCtl, .memInteg, .freezeRec, .memCal, .fab, .cal, .cen, .evid] s t))))) ∧
  (∀ (why : BitVec 4) (s : State),
    (s.pwr.gate = none → exec (.gateAckTimeout why) s = .next s) ∧
    (∀ b, s.pwr.gate = some b → ∃ t, exec (.gateAckTimeout why) s = .next t ∧ t.ao.time10 = s.ao.time10 + 20000 ∧
      (s.pwr.entry = 0 → t.pwr.gate = none ∧ t.get F.CLK_GATE_REFUSE_COUNT = min (2 ^ 32 - 1) (s.get F.CLK_GATE_REFUSE_COUNT + 1) ∧
        Kept [.time, .pwr, .cen] [.clk] s t) ∧
      (s.pwr.entry ≠ 0 → b < 16 → EntryRefused (if why.toNat = 8 ∨ 14 ≤ why.toNat then why.toNat else b) s t))) ∧
  (∀ s : State,
    (s.pwr.entry ≠ 6 → exec .penEntryWait s = .next s) ∧
    (s.pwr.entry = 6 → ∃ t, exec .penEntryWait s = .next t ∧ t.pwr.mode = (if s.pwr.target = 3 then 3 else 2) ∧ t.pwr.entry = 0 ∧
      t.ao.time10 = max s.ao.time10 (10 * (s.pwr.since + 1000000)) ∧ t.pins.enCore = false ∧ t.pci.link = false ∧
      t.get F.PWR_MODE_TARGET = s.pwr.target % 4 ∧ t.flag F.PWR_MODE_ENTERING = false ∧ t.pwr.offHold = true ∧ t.herder.running = false ∧
      (s.pwr.target = 3 → t.pins.enStack = false ∧ t.role = 0) ∧ Kept [.sec, .evt, .pci, .cen, .evid, .line, .apply, .herder, .pwr, .pins, .out, .time] [.evt, .pwr, .sec] s t)) ∧
  (∀ s : State, let runs := s.pwr.mode = 2 ∧ s.pwr.winterAfter ≠ 0 ∧ s.pwr.begun = [] ∧ s.pwr.held = 0;
    (¬ runs → exec .winterAfterExpiry s = .next s) ∧
    (runs → ∃ t, exec .winterAfterExpiry s = .next t ∧ t.pwr.mode = 3 ∧ t.pins.enStack = false ∧ t.role = 0 ∧ t.pwr.canaries = [] ∧
      t.ao.time10 = max s.ao.time10 (10 * (s.pwr.since + 60000000000 * s.pwr.winterAfter)) ∧ Kept [.sec, .evt, .pci, .cen, .evid, .line, .apply, .herder, .pwr, .pins, .out, .time] [.evt, .sec] s t))

/-- WAKE_N, LINK_ENERGY, PCIE_WAKE, ODOMETER_WAKE, PWR_TIMER_EXPIRY, CORE_OFF_TIME_END and PEN_RETURN_STEP (R330 to R335, R425). -/
def Obligations.WakesAndTheReturnFromPen : Prop :=
  (∀ (us : BitVec 16) (boot : Boot) (s : State),
    (us.toNat < 10 → exec (.wakeN us boot) s = .next s) ∧ (10 ≤ us.toNat → ∃ t, exec (.wakeN us boot) s = .next t ∧ Wakes 4 0 boot s t)) ∧
  (∀ (port : BitVec 4) (us : BitVec 16) (boot : Boot) (s : State), let n := port.toNat
    let heard := (2 ≤ s.pwr.mode ∨ s.pwr.entry ≠ 0) ∧ n < s.nPorts ∧ s.pModes n ≠ 0 ∧ 100 ≤ us.toNat;
    (¬ heard → exec (.linkEnergy port us boot) s = .next s) ∧ (heard → ∃ t, exec (.linkEnergy port us boot) s = .next t ∧ Wakes 2 n boot s t)) ∧
  (∀ (boot : Boot) (s : State), let sensed := 2 ≤ s.pwr.mode ∨ s.pwr.entry ≠ 0;
    (¬ sensed → exec (.pcieWake boot) s = .next s) ∧ (sensed → ∃ t, exec (.pcieWake boot) s = .next t ∧ Wakes 3 0 boot s t)) ∧
  (∀ (boot : Boot) (s : State), let enough := max 1 (s.get F.PWR_WAKE_EN_ODO_WAKE_EDGES) ≤ s.pwr.edges;
    (¬ enough → exec (.odometerWake boot) s = .next s) ∧ (enough → ∃ t, exec (.odometerWake boot) s = .next t ∧ Wakes 5 0 boot s t)) ∧
  (∀ (boot : Boot) (s : State), let k := s.get F.PWR_TIMER_SECONDS;
    (k = 0 → exec (.pwrTimerExpiry boot) s = .next s) ∧
    (k ≠ 0 → ∃ u t, exec (.pwrTimerExpiry boot) s = .next t ∧ u.ao.time10 = max s.ao.time10 (10 * (s.ao.timerAt + 1000000000 * k)) ∧ u.get F.PWR_TIMER_SECONDS = 0 ∧
      Kept [.time] [.pwr] s u ∧ Wakes 6 0 boot u t)) ∧
  (∀ (boot : Boot) (s : State), let runs := s.pwr.offHold = true ∧ 2 ≤ s.pwr.mode;
    (¬ runs → exec (.coreOffTimeEnd boot) s = .next s) ∧
    (runs → ∃ u, u.ao.time10 = max s.ao.time10 (10 * (s.pwr.since + 50000)) ∧ u.pwr = { s.pwr with offHold := false } ∧
      Kept [.time, .pwr] [] s u ∧
      (s.pwr.latched = none → exec (.coreOffTimeEnd boot) s = .next u) ∧
      (∀ src port, s.pwr.latched = some (src, port) → src < 16 → port < 16 →
        (s.pwr.mode = 2 → ∃ t, exec (.coreOffTimeEnd boot) s = .next t ∧ WakeNoted src port 2 true u t ∧ t.pins.enCore = true ∧
          t.pwr.begun = (1, u.time) :: s.pwr.begun ∧ t.pwr.latched = none ∧ t.flag F.PWR_MODE_WAKE_LATCHED = false ∧
          Kept [.evt, .cen, .out, .pwr, .pins] [.evt, .pwr] u t) ∧
        (s.pwr.mode = 3 → ∃ v t, exec (.coreOffTimeEnd boot) s = .next t ∧ WakeNoted src port 3 true u v ∧
          Kept [.evt, .cen, .out] [.evt, .pwr] u v ∧ Restarted 5 false boot v t)))) ∧
  (∀ (step : BitVec 3) (ups : List (BitVec 5 × BitVec 4 × BitVec 10 × BitVec 13)) (s : State), let k := step.toNat
    let lost := ups.map fun u => (u.1.toNat, u.2.1.toNat, u.2.2.1.toNat, u.2.2.2.toNat);
    (k ∉ s.pwr.begun.map (·.1) ∨ k ∈ s.pwr.ended ∨ s.pwr.held ≠ 0 → exec (.penReturnStep step ups) s = .next s) ∧
    (∀ e, s.pwr.begun.find? (fun e => decide (e.1 = k)) = some e → k ∉ s.pwr.ended → s.pwr.held = 0 →
      ∃ t, exec (.penReturnStep step ups) s = .next t ∧ t.ao.time10 = max s.ao.time10 (10 * (e.2 + 1000 * s.returnUs k)) ∧
        (k = 7 → t.pwr.begun = [] ∧ t.pwr.ended = []) ∧
        (k ≠ 7 → t.pwr.ended = k :: s.pwr.ended ∧ ∀ j, 2 ≤ j → j ≤ 7 →
          (j ∈ t.pwr.begun.map (·.1) ↔ j ∈ s.pwr.begun.map (·.1) ∨ ∀ i ∈ stepAfter j, i ∈ k :: s.pwr.ended)) ∧
        (k = 2 → t.pwr.mode = 0 ∧ t.get F.CLK_STATUS_STATE = 3 ∧ t.get F.DRV_STATE_PL = 3) ∧
        (k = 3 → t.get F.CLK_STATUS_STATE = 0 ∧ t.flag F.CLK_STATUS_LREF_GOOD = true ∧ t.flag F.CLK_STATUS_LPLL_LOCK = true) ∧
        (k = 4 → t.herder.running = true) ∧
        (k = 5 → (∀ c, c < s.nChans → s.chRole c ≠ 2 → t.selfRefresh c = false) ∧ t.pwr.canaries = [] ∧
          ∀ pc b, pc ∈ s.pwr.canaries → pc < 32 → b < 16 →
            s.canaryFails pc b ((lost.filter fun u => u.1 = pc ∧ u.2.1 = b).map fun u => u.2.2) = true →
            t.suspect pc b = true ∧ (t.bk pc b).water = 0 ∧ (t.bk pc b).filled = false) ∧
        Kept [.sec, .evt, .cen, .evid, .pch, .bank, .line, .pad, .lane, .drv, .apply, .cal, .clk, .dram, .chk, .herder, .pwr, .pins, .out, .freeCtr, .time] [.evt, .cmd, .portLink, .portIlm, .portPad, .portCal, .memCtl, .memInteg, .freezeRec, .memCal, .fab, .lane, .clk, .pwr, .drv, .cal, .cen, .evid, .sec] s t))

/-- DROVER_PERIOD, PL_RAISE_SETTLE, SENSOR_READ, THERMAL_TRIP, HERDER_WATCHDOG_EXPIRY and HERDER_RUNNING_AGAIN (R324, R326, R337 to
R345). -/
def Obligations.DroverHeatAndWatchdog : Prop :=
  (∀ s : State,
    (s.clocked = false → exec .droverPeriod s = .next s) ∧
    (s.clocked = true → ∃ t, exec .droverPeriod s = .next t ∧
      t.get F.DRV_EFFECTIVE_MW = s.effective % 2 ^ F.DRV_EFFECTIVE_MW.len ∧ t.flag F.DRV_STATE_THERMAL = decide (s.reduction ≠ 0) ∧
      (s.reduction ≠ 0 → s.flag F.DRV_STATE_THERMAL = false → t.isPending Ev.thmCap = true) ∧
      (s.flag F.DRV_STATE_LIMIT = true → t.drv.lower = some 3 ∨ t.get F.DRV_STATE_PL = 3) ∧
      ((∀ n, n < s.nPorts → (s.ln n).owed = false) →
        (s.flag F.DRV_STATE_LIMIT = false → t.flag F.DRV_STATE_SHORT = decide (s.effective < s.planSum (s.planAll s.effective)) ∧
          (t.flag F.DRV_STATE_SHORT = true → s.flag F.DRV_STATE_SHORT = false → t.isPending Ev.drvShort = true) ∧
          (s.effective < s.planSum s.planNow → ∀ n a, (n, a) ∈ (s.planAll s.effective).counts → s.planned n ≠ a →
            (t.ln n).capSent = some (a, false))) ∧
        (t.flag F.DRV_STATE_SHORT = true → ∀ n, n < s.nPorts → t.an n = s.an n) ∧
        (s.flag F.DRV_STATE_LIMIT = true → ∀ n, n < s.nPorts → t.an n = 3 → s.an n = 3) ∧
        (∀ n, s.starts = true → s.flag F.DRV_STATE_LIMIT = false → s.planSum s.planNow ≤ s.effective → s.drv.lower = none →
          (∀ m, m < s.nPorts → s.upIlm m = false ∧ s.capInFlight m = false) → s.waiting = [n] → 6 ≤ (s.ln n).target → (s.ln n).target ≤ 8 →
          s.sweeps n = false → s.adcFirst n = false →
          s.recentStarts.length < 2 →
          s.demandAt (s.get F.DRV_STATE_PL) + s.waitDemand n ≤ s.effective + s.portDemandAt n (s.get F.DRV_STATE_PL) → t.an n = 3)) ∧
      Kept [.evt, .cen, .line, .pad, .trv, .drv, .cal, .pwr, .pins, .out, .freeCtr] [.evt, .cmd, .portLink, .portIlm, .portPad, .portTrv, .portCal, .portTone, .slices, .memCal, .drv, .cal, .tst] s t)) ∧
  (∀ s : State,
    (s.pwr.raise = none ∨ s.clocked = false → exec .plRaiseSettle s = .next s) ∧
    (∀ l, s.pwr.raise = some l → s.clocked = true → ∃ t, exec .plRaiseSettle s = .next t ∧ t.pwr.raise = none ∧
      t.ao.time10 = s.ao.time10 + 500000 ∧
      (s.flag F.DRV_STATE_LIMIT = true ∨ s.get F.CLK_STATUS_STATE ≠ 0 → t.get F.DRV_STATE_PL = s.get F.DRV_STATE_PL ∧
        t.pins.vid = s.get F.DRV_STATE_PL) ∧
      (s.flag F.DRV_STATE_LIMIT = false → s.get F.CLK_STATUS_STATE = 0 → t.get F.DRV_STATE_PL = l % 4 ∧ t.pins.vid = l ∧
        t.get F.DRV_PL_CHANGES_COUNT = min (2 ^ 32 - 1) (s.get F.DRV_PL_CHANGES_COUNT + 1)) ∧ Kept [.cen, .pwr, .pins, .time] [.portIlm, .drv] s t)) ∧
  (∀ (base core : List (BitVec 5 × Option (BitVec 16))) (boot : Boot) (s : State),
    (s.coreOn = false → s.pwr.held ≠ 3 → exec (.sensorRead base core boot) s = .next s) ∧
    (s.coreOn = true → ∃ t, exec (.sensorRead base core boot) s = .next t ∧ SensorsRead true base s t ∧ SensorsRead false core s t ∧
      (∀ d, d < s.nChans / 2 → t.flag (F.THM_CORE_DISAGREE (2 * d)) = (t.sensorOk (F.THM_CORE_VALID (2 * d)) &&
        t.sensorOk (F.THM_CORE_VALID (2 * d + 1)) &&
        decide (60 < (signed 16 (t.get (F.THM_CORE_TEMP (2 * d))) - signed 16 (t.get (F.THM_CORE_TEMP (2 * d + 1)))).natAbs))) ∧
      (∀ c x, c < s.nChans → s.chRole c ≠ 2 → t.chanTemp c = some x → 340 < x → t.flag (F.MEM_CH_STATE_HOT c) = true) ∧
      (t.flag F.DRV_STATE_LIMIT = (t.thm.coreLim || t.thm.baseLim)) ∧
      (t.thm.coreLim = (decide (380 < t.coreTemp.getD (-1000)) || (s.thm.coreLim && decide (372 < t.coreTemp.getD (-1000))))) ∧
      (t.thm.baseLim = (decide (t.baseTemps ≠ []) && (decide (420 < t.baseTemp) || (s.thm.baseLim && decide (412 < t.baseTemp))))) ∧
      (t.thm.coreLim = true → s.thm.coreLim = false → (t.get (F.EVT_CAUSE_CAUSE 2)).testBit 0 = true) ∧
      (t.thm.baseLim = true → s.thm.baseLim = false → (t.get (F.EVT_CAUSE_CAUSE 2)).testBit 1 = true) ∧
      (t.flag F.DRV_STATE_THERMAL = decide (t.reduction ≠ 0)) ∧
      (t.reduction ≠ 0 → s.flag F.DRV_STATE_THERMAL = false → t.isPending Ev.thmCap = true) ∧
      Kept [.evt, .cen, .thm, .bank, .out] [.evt, .thm, .memCtl, .drv, .portCal, .memCal, .cal] s t) ∧
    (s.pwr.held = 3 → s.pwr.mode ≠ 3 → ∃ u t, exec (.sensorRead base core boot) s = .next t ∧ SensorsRead true base s u ∧
      SensorsRead false core s u ∧ Kept [.evt, .cen, .out] [.evt, .thm] s u ∧
      (u.cooled = false → t = u) ∧ (u.cooled = true → Restarted 3 true boot u t))) ∧
  (∀ s : State,
    (s.thm.hot = [] ∨ s.coreOn = false → exec .thermalTrip s = .next s) ∧
    (s.thm.hot ≠ [] → s.coreOn = true → ∃ t, exec .thermalTrip s = .next t ∧ t.pwr.held = 3 ∧ t.pwr.entry = 0 ∧ t.pins.byp = 0 ∧
      (∃ e ∈ s.thm.hot, t.ao.time10 = max s.ao.time10 (10 * (e.2 + 1000000))) ∧
      t.get F.THM_TRIPS_COUNT = min (2 ^ F.THM_TRIPS_COUNT.len - 1) (s.get F.THM_TRIPS_COUNT + 1) ∧
      (∀ c, c < s.nChans → s.chRole c ≠ 2 → t.selfRefresh c = true) ∧ Kept [.bank, .clk, .pwr, .pins, .time] [.memCtl, .thm] s t)) ∧
  (∀ s : State,
    (s.herderRuns = false ∨ s.coreOn = false → exec .herderWatchdogExpiry s = .next s) ∧
    (s.herderRuns = true → s.coreOn = true → ∃ t, exec .herderWatchdogExpiry s = .next t ∧ t.herder.running = false ∧
      t.herder.restart = s.fwChoice.isSome ∧ t.get F.DEV_FW_STATUS_RESTARTS = (s.get F.DEV_FW_STATUS_RESTARTS + 1) % 65536 ∧
      t.isPending Ev.devHerderRestart = true ∧ Kept [.evt, .cen, .cal, .herder, .out] [.dev, .evt, .cmd, .portCal, .memCal, .cal] s t)) ∧
  (∀ s : State,
    (s.herder.restart = false → exec .herderRunningAgain s = .next s) ∧
    (s.herder.restart = true → (s.pwr.entry = 0 ∨ s.pwr.entry = 6) → s.diag = [] → s.apply.stage = 0 → ∃ t,
      exec .herderRunningAgain s = .next t ∧ t.herder.running = true ∧ t.herder.restart = false ∧
      (∀ k, k < 64 → t.slotState k = if s.slotState k = 2 then 3 else s.slotState k) ∧
      t.get F.CMD_CQ_PROD_COUNT = (s.get F.CMD_CQ_PROD_COUNT + ((List.range 64).filter fun k => decide (s.slotState k = 2)).length) % 2 ^ 32 ∧
      (∀ k, k < 64 → (∀ j, j < 64 → s.slotState j = 2 ↔ j = k) → Completed k stAborted 0 [] s t) ∧
      Kept [.evt, .cen, .line, .pad, .lane, .trv, .apply, .cal, .diag, .pwr, .out, .freeCtr, .herder]
        [.dev, .evt, .cmd, .portLink, .portIlm, .portPad, .portTrv, .portCal, .portTone, .slices, .memCal, .lane, .cal, .piste, .sec,
          .tst] s t))

/-- LREFCLK_TRIP, CLOCK_HOLD_COAST_END, HREFCLK_TRIP, OSCILLATOR_JUDGED, IRO_JUDGE_DEADLINE, XO32_ACCEPTED, XO32_DROPPED,
DEBUGGER_ATTACH, DEBUGGER_DETACH, DEBUG_HALT, DEBUG_RESUME, BOUNDARY_SCAN_ENTER and BOUNDARY_SCAN_EXIT (R347 to R354, R391 to R393). -/
def Obligations.ClocksDebuggerAndScan : Prop :=
  (∀ s : State,
    (s.coreOn = false ∨ s.get F.CLK_STATUS_STATE ≠ 0 → exec .lrefclkTrip s = .next s) ∧
    (s.coreOn = true → s.get F.CLK_STATUS_STATE = 0 →
      (s.flag F.CLK_STATUS_IRO_FAILED = true → ∃ t, exec .lrefclkTrip s = .next t ∧ HeldForClock s t) ∧
      (s.flag F.CLK_STATUS_IRO_FAILED = false → ∃ t, exec .lrefclkTrip s = .next t ∧
        t.get F.CLK_LREF_TRIPS_COUNT = min (2 ^ 32 - 1) (s.get F.CLK_LREF_TRIPS_COUNT + 1) ∧ t.get F.CLK_STATUS_STATE = 1 ∧
        t.flag F.CLK_STATUS_LREF_GOOD = false ∧ t.flag F.CLK_STATUS_LPLL_LOCK = false ∧ t.flag F.CLK_STATUS_IRO_RUN = true ∧
        (s.flag F.CLK_STATUS_IRO_RUN = false → t.flag F.CLK_STATUS_IRO_GOOD = false) ∧ t.clk.coasting = true ∧ t.clk.tripAt = s.time ∧
        t.pwr.entry = 0 ∧ t.apply.stage = 0 ∧ (s.pwr.entry ≠ 0 → t.get F.PWR_LAST_REFUSER = 7) ∧
        (s.pwr.entry = 0 → Kept [.evt, .cen, .apply, .clk, .cal, .diag, .line, .trv, .sec, .out]
          [.dev, .evt, .cmd, .sec, .clk, .portLink, .portIlm, .portCal, .memCal, .cal, .slices, .tst] s t)))) ∧
  (∀ s : State,
    (s.clk.coasting = false → exec .clockHoldCoastEnd s = .next s) ∧
    (s.clk.coasting = true → ∃ t, exec .clockHoldCoastEnd s = .next t ∧ t.ao.time10 = max s.ao.time10 (10 * (s.clk.tripAt + 1000)) ∧
      t.clk.coasting = false ∧ t.clk.gates = 65535 ∧ t.pins.byp = 0 ∧ t.flag F.CEN_STATUS_RUNNING = false ∧
      (∀ c, c < s.nChans → s.chRole c ≠ 2 → t.selfRefresh c = true) ∧ Kept [.evid, .bank, .clk, .pins, .time] [.memCtl, .cen, .evid] s t)) ∧
  (∀ s : State,
    (s.coreOn = false ∨ s.flag F.CLK_STATUS_HREF_GOOD = false → exec .hrefclkTrip s = .next s) ∧
    (s.coreOn = true → s.flag F.CLK_STATUS_HREF_GOOD = true → ∃ t, exec .hrefclkTrip s = .next t ∧
      (s.get F.CLK_STATUS_STATE ≠ 0 → t.clk.hrefDue = true ∧ Kept [.clk] [] s t) ∧
      (s.get F.CLK_STATUS_STATE = 0 → t.flag F.CLK_STATUS_HREF_GOOD = false ∧ t.isPending Ev.clkHrefLoss = true ∧
        t.get F.CLK_HREF_TRIPS_COUNT = min (2 ^ 32 - 1) (s.get F.CLK_HREF_TRIPS_COUNT + 1) ∧ t.flag F.CLK_STATUS_IRO_RUN = true ∧
        (∀ m, m < s.nPorts → s.get (F.HL_CFG_RATE m) ≠ 0 → t.flag (F.HL_STATUS_LOCKED m) = false) ∧ Kept [.evt, .cen, .pch, .bank, .pad, .lane, .drv, .clk, .dram, .chk, .out, .freeCtr] [.evt, .portPad, .memCtl, .memInteg, .lane, .clk] s t))) ∧
  (∀ (which : BitVec 2) (counts : List (BitVec 16)) (boot : Boot) (s : State),
    (s.coreOn = false ∧ s.pwr.held ≠ 2 ∨ which = 3 → exec (.oscillatorJudged which counts boot) s = .next s) ∧
    (s.coreOn = true ∨ s.pwr.held = 2 →
      (which = 0 → let good := s.flag F.CLK_STATUS_IRO_RUN = true ∧ s.flag F.CLK_STATUS_IRO_GOOD = false ∧ judged counts 2500 30 = true;
        (¬ good → exec (.oscillatorJudged which counts boot) s = .next s) ∧
        (good → ∃ t, exec (.oscillatorJudged which counts boot) s = .next t ∧ t.flag F.CLK_STATUS_IRO_GOOD = true ∧
          (s.get F.CLK_STATUS_STATE ≠ 1 → Kept [] [.clk] s t) ∧
          (s.get F.CLK_STATUS_STATE = 1 → t.get F.CLK_STATUS_STATE = 2 ∧ t.get F.DRV_STATE_PL = 3 ∧ t.pins.vid = 3 ∧ t.clk.gates = 0 ∧
            (s.coreOn = true → t.isPending Ev.clkHold = true) ∧
            (∀ n, n < s.nPorts → s.up n = true → t.up n = false ∧ t.get (F.PORT_LINK_STATUS_DOWN_CAUSE n) = 9)))) ∧
      (which = 1 → let good := s.refJudged counts = true ∧ (s.flag F.CLK_STATUS_IRO_GOOD = true ∨ s.pwr.held ≠ 0);
        (¬ good ∨ s.pwr.held ≠ 2 ∧ s.pwr.held ≠ 4 ∧ s.get F.CLK_STATUS_STATE ≠ 2 → exec (.oscillatorJudged which counts boot) s = .next s) ∧
        (good → s.pwr.held = 2 → ∃ t, exec (.oscillatorJudged which counts boot) s = .next t ∧ t.ao.time10 = s.ao.time10 + 599000000 ∧ (bistFails boot 4 → t.pwr.held = 1) ∧
          (¬ bistFails boot 4 → boot.lref = true → t.pwr.held = 0 ∧ t.get F.CLK_STATUS_STATE = 0 ∧
            (s.pwr.mode < 2 → t.isPending Ev.devReset = true))) ∧
        (good → s.pwr.held = 4 → ∃ t, exec (.oscillatorJudged which counts boot) s = .next t ∧ t.pwr.held = 0 ∧ t.get F.CLK_STATUS_STATE = 0 ∧
          t.flag F.CLK_STATUS_LREF_GOOD = true ∧ t.isPending Ev.devReset = true) ∧
        (good → s.pwr.held ≠ 2 → s.pwr.held ≠ 4 → s.get F.CLK_STATUS_STATE = 2 → ∃ t, exec (.oscillatorJudged which counts boot) s = .next t ∧ t.get F.CLK_STATUS_STATE = 0 ∧
          t.flag F.CLK_STATUS_LREF_GOOD = true ∧ t.flag F.CLK_STATUS_LPLL_LOCK = true ∧ t.ao.time10 = s.ao.time10 + 400000 ∧
          t.get F.CLK_HOLD_TIME_US = min (2 ^ F.CLK_HOLD_TIME_US.len - 1)
            (s.get F.CLK_HOLD_TIME_US + (s.time + 40000 - s.clk.tripAt) / 1000) ∧
          t.isPending Ev.clkRestored = true ∧ t.clk.wake = none ∧ t.clk.restore = false ∧
          (s.clk.restore = false → t.get F.DRV_STATE_PL = (if s.flag F.DRV_STATE_LIMIT then 3 else s.plFast % 4) ∧
            ∀ c, c < s.nChans → s.chRole c ≠ 2 → t.selfRefresh c = false) ∧
          (∀ src port, s.clk.wake = some (src, port) → s.pwr.mode = 1 → t.pwr.mode = 0))) ∧
      (which = 2 →
        let good := s.refJudged counts = true ∧ s.coreOn = true ∧ s.flag F.CLK_STATUS_HREF_GOOD = false ∧ s.get F.CLK_STATUS_STATE = 0;
        (¬ good → exec (.oscillatorJudged which counts boot) s = .next s) ∧
        (good → ∃ t, exec (.oscillatorJudged which counts boot) s = .next t ∧ t.flag F.CLK_STATUS_HREF_GOOD = true ∧
          (s.flag F.CLK_STATUS_LREF_GOOD = true → t.flag F.CLK_STATUS_IRO_RUN = false) ∧ Kept [.clk, .lane] [.clk, .lane] s t)))) ∧
  (∀ s : State, let late := s.coreOn = true ∧ s.get F.CLK_STATUS_STATE = 1 ∧ s.flag F.CLK_STATUS_IRO_GOOD = false;
    (¬ late → exec .iroJudgeDeadline s = .next s) ∧
    (late → ∃ t, exec .iroJudgeDeadline s = .next t ∧ t.ao.time10 = max s.ao.time10 (10 * (s.clk.tripAt + 400000)) ∧ HeldForClock s t)) ∧
  (∀ (counts : List (BitVec 16)) (s : State),
    (judged counts 1953 30 = false → exec (.xo32Accepted counts) s = .next s) ∧
    (judged counts 1953 30 = true → ∃ t, exec (.xo32Accepted counts) s = .next t ∧ t.flag F.CLK_STATUS_XO32_OK = true ∧ Kept [] [.clk] s t)) ∧
  (∀ (count : BitVec 16) (s : State), let within := 1953 * 970 ≤ 1000 * count.toNat ∧ 1000 * count.toNat ≤ 1953 * 1030;
    (within → exec (.xo32Dropped count) s = .next s) ∧
    (¬ within → ∃ t, exec (.xo32Dropped count) s = .next t ∧ t.flag F.CLK_STATUS_XO32_OK = false ∧ Kept [] [.clk] s t)) ∧
  (∀ s : State,
    (s.unlocked = false ∨ s.coreOn = false → exec .debuggerAttach s = .next s) ∧
    (s.unlocked = true → s.coreOn = true → ∃ t, exec .debuggerAttach s = .next t ∧ t.herder = { s.herder with attached := true } ∧
      t.get F.SEC_STATE_DEBUG = (if s.herder.halted then 3 else 2) ∧ (s.pwr.entry = 0 → Kept [.herder] [.sec] s t) ∧
      (s.pwr.entry ≠ 0 → EntryRefused 1 s t))) ∧
  (∀ s : State,
    (s.herder.attached = false → exec .debuggerDetach s = .next s) ∧
    (s.herder.attached = true → ∃ t, exec .debuggerDetach s = .next t ∧ t.herder = { s.herder with attached := false, halted := false } ∧
      t.get F.SEC_STATE_DEBUG = b2n s.unlocked ∧ Kept [.evt, .cen, .line, .pad, .apply, .herder, .out, .freeCtr] [.evt, .portLink, .portIlm, .portPad, .sec] s t)) ∧
  (∀ s : State, let may := s.herder.attached = true ∧ s.herder.halted = false ∧ s.clocked = true;
    (¬ may → exec .debugHalt s = .next s) ∧
    (may → ∃ t, exec .debugHalt s = .next t ∧ t.herder = { s.herder with halted := true } ∧ t.apply.haltAt = s.time ∧
      t.get F.SEC_STATE_DEBUG = (if s.unlocked then 3 else 0) ∧ Kept [.evt, .cen, .apply, .cal, .herder, .out] [.evt, .cmd, .portCal, .memCal, .cal, .sec] s t)) ∧
  (∀ s : State,
    (s.herder.halted = false → exec .debugResume s = .next s) ∧
    (s.herder.halted = true → ∃ t, exec .debugResume s = .next t ∧ t.herder = { s.herder with halted := false } ∧
      t.apply.halted = s.apply.halted + (s.time - s.apply.haltAt) ∧ Kept [.evt, .cen, .line, .pad, .apply, .herder, .out, .freeCtr] [.evt, .portLink, .portIlm, .portPad, .sec] s t)) ∧
  (∀ (byp : Byte) (s : State), (2 ≤ s.pwr.mode → exec (.boundaryScanEnter byp) s = .next s) ∧ (s.pwr.mode < 2 →
    ∃ t, exec (.boundaryScanEnter byp) s = .next t ∧ t.clk.scan = true ∧ t.pins.byp = byp.toNat ∧
    (s.clk.scan = true → Kept [.pins] [] s t) ∧
    (s.clk.scan = false → s.coreOn = false → Kept [.pins, .clk] [] s t) ∧
    (s.clk.scan = false → s.coreOn = true → (∀ n, n < s.nPorts → s.up n = true → s.pwr.entry = 0 → t.up n = false) ∧
      t.flag F.CEN_STATUS_RUNNING = false ∧ t.pwr.entry = 0 ∧ (s.pwr.entry ≠ 0 → t.get F.PWR_LAST_REFUSER = 7) ∧
      (∀ c, c < s.nChans → s.chRole c ≠ 2 → t.selfRefresh c = true)))) ∧
  (∀ s : State,
    (s.clk.scan = false → exec .boundaryScanExit s = .next s) ∧
    (s.clk.scan = true → ∃ t, exec .boundaryScanExit s = .next t ∧ t.clk.scan = false ∧
      (s.coreOn = false ∨ s.get F.CLK_STATUS_STATE ≠ 0 → t.pins.byp = 0 ∧ Kept [.clk, .pins] [] s t) ∧
      (s.coreOn = true → s.get F.CLK_STATUS_STATE = 0 → t.isPending Ev.clkRestored = true ∧ t.clk.wake = none ∧
        (s.clk.restore = false → ∀ c, c < s.nChans → s.chRole c ≠ 2 → t.selfRefresh c = false))))

/-- ROTATION_SWAP, SLICE_TEST_END, SR_SEGMENT, SLICE_CHECKER_FIRED and ROTATION_OVERDUE (R366 to R373). The lowest idle slice is the
model's choice (log entry 85). -/
def Obligations.RotationAndCheckers : Prop :=
  (∀ (slice : BitVec 7) (s : State), let x := slice.toNat
    let may := s.rotates = true ∧ s.tested = none ∧ x ∈ s.sliceList;
    (¬ may → exec (.rotationSwap slice) s = .next s) ∧
    (may → s.sliceState x = 0 → ∃ t, exec (.rotationSwap slice) s = .next t ∧ t.tested = some x ∧ t.sliceState x = 2 ∧
      Kept [.evt, .cen, .out] [.evt, .slices, .tst] s t) ∧
    (may → s.sliceState x ≠ 0 → s.sliceState x ≠ 1 ∨ s.portOfSlice x = none → exec (.rotationSwap slice) s = .next s) ∧
    (∀ n, may → s.sliceState x = 1 → s.portOfSlice x = some n →
      ((s.pFlags n).testBit 1 = true → s.flag (F.PORT_LINK_STATUS_LPI n) = false → exec (.rotationSwap slice) s = .next s) ∧
      ((s.pFlags n).testBit 1 = true → s.flag (F.PORT_LINK_STATUS_LPI n) = true → ∃ t, exec (.rotationSwap slice) s = .next t ∧
        t.tested = some x ∧ t.sliceState x = 2 ∧ t.servedBy n = s.servedBy n ∧ Kept [] [.tst] s t) ∧
      ((s.pFlags n).testBit 1 = false → s.swapWaits n = true ∨ (∀ y, y ∈ s.sliceList → s.sliceState y ≠ 0) →
        exec (.rotationSwap slice) s = .next s) ∧
      (∀ y, (s.pFlags n).testBit 1 = false → s.swapWaits n = false → s.sliceList.find? (fun y => decide (s.sliceState y = 0)) = some y →
        ∃ t, exec (.rotationSwap slice) s = .next t ∧ t.tested = some x ∧ t.sliceState x = 2 ∧ t.sliceState y = 1 ∧
          t.servedBy n = (s.servedBy n).map (fun z => if z = x then y else z) ∧ Kept [.evt, .cen, .out] [.evt, .slices, .tst] s t))) ∧
  (∀ (pass : Bool) (s : State),
    (s.tested = none ∨ s.coreOn = false → exec (.sliceTestEnd pass) s = .next s) ∧
    (∀ x, s.tested = some x → s.coreOn = true → x ∈ s.sliceList → s.sliceState x ≠ 0 → ∃ t, exec (.sliceTestEnd pass) s = .next t ∧ t.tested = none ∧
      (pass = true → t.sliceState x = (if (s.portOfSlice x).isSome then 1 else 0) ∧
        Tbl.get t.tst.passAt 0 x = s.time + 1 ∧ t.get F.TST_PASSES_COUNT = min (2 ^ 32 - 1) (s.get F.TST_PASSES_COUNT + 1)) ∧
      (pass = false → t.sliceState x = 3 ∧ t.get F.TST_FAULTS_COUNT = min (2 ^ 32 - 1) (s.get F.TST_FAULTS_COUNT + 1) ∧
        (t.get (F.EVT_CAUSE_CAUSE 3)).testBit 0 = true ∧ ∀ n, s.portOfSlice x = some n → x ∉ t.servedBy n) ∧
      Kept [.evt, .cen, .line, .tst, .out] [.evt, .slices, .tst] s t)) ∧
  (∀ (block : BitVec 7) (served crc pass : Bool) (s : State), let busy := s.flag F.TST_ROT_STATE_SR_BUSY
    let b := if busy then s.get F.TST_ROT_STATE_BLOCK else block.toNat
    let runs := s.rotates = true ∧ s.blockPresent b = true ∧ s.get (F.TST_BLOCK_STATE_STATE b) ≠ 3
    let last := served = false ∧ s.tst.segs + 1 = 1024;
    (¬ runs → exec (.srSegment block served crc pass) s = .next s) ∧
    (runs → s.tst.segs < 1024 → ∃ t, exec (.srSegment block served crc pass) s = .next t ∧
      t.ao.time10 = (if busy then max s.ao.time10 (10 * (s.tst.segAt + s.segGap)) else s.ao.time10) ∧
      t.get F.TST_FAULTS_COUNT = min (2 ^ 32 - 1) (s.get F.TST_FAULTS_COUNT + b2n (!crc) + b2n (decide last && !pass)) ∧
      (¬ last → t.flag F.TST_ROT_STATE_SR_BUSY = true ∧ t.get F.TST_ROT_STATE_BLOCK = b ∧ t.get (F.TST_BLOCK_STATE_STATE b) = 1 ∧
        t.tst.segs = s.tst.segs + b2n (!served)) ∧
      (last → t.flag F.TST_ROT_STATE_SR_BUSY = false ∧ t.tst.segs = 0 ∧
        (pass = true → t.get (F.TST_BLOCK_STATE_STATE b) = 0 ∧ b ∉ t.tst.failing ∧
          t.get F.TST_PASSES_COUNT = min (2 ^ 32 - 1) (s.get F.TST_PASSES_COUNT + 1)) ∧
        (pass = false → t.get (F.TST_BLOCK_STATE_STATE b) = (if b ∈ s.tst.failing then 3 else 2) ∧ b ∈ t.tst.failing ∧
          (t.get (F.EVT_CAUSE_CAUSE 3)).testBit 0 = true)) ∧
      Kept [.evt, .cen, .tst, .out, .time] [.evt, .tst] s t)) ∧
  (∀ (slice : BitVec 7) (s : State), let x := slice.toNat
    let fires := s.coreOn = true ∧ s.sliceState x = 1 ∧ (s.portOfSlice x).isSome = true;
    (¬ fires → exec (.sliceCheckerFired slice) s = .next s) ∧
    (∀ n, fires → x ∈ s.sliceList → s.portOfSlice x = some n → ∃ t, exec (.sliceCheckerFired slice) s = .next t ∧ t.sliceState x = 3 ∧
      t.get F.TST_FAULTS_COUNT = min (2 ^ 32 - 1) (s.get F.TST_FAULTS_COUNT + 1) ∧ (t.get (F.EVT_CAUSE_CAUSE 3)).testBit 0 = true ∧
      (∀ y, (s.takeSlice n).2 = some y → t.servedBy n = (s.servedBy n).map (fun z => if z = x then y else z) ∧ t.sliceState y = 1 ∧
        t.get F.TST_HANDOVERS_COUNT = min (2 ^ 32 - 1) (s.get F.TST_HANDOVERS_COUNT + 1)) ∧
      ((s.takeSlice n).2 = none → t.servedBy n = (s.servedBy n).filter (fun z => decide (z ≠ x)) ∧
        t.get F.TST_HANDOVERS_COUNT = s.get F.TST_HANDOVERS_COUNT) ∧ Kept [.evt, .cen, .line, .out] [.evt, .slices, .tst] s t)) ∧
  (∀ (slice : BitVec 7) (s : State), let x := slice.toNat
    let due := s.rotates = true ∧ x ∈ s.sliceList ∧ s.sliceState x < 3;
    (¬ due → exec (.rotationOverdue slice) s = .next s) ∧
    (due → ∃ t, exec (.rotationOverdue slice) s = .next t ∧
      t.get F.TST_OVERDUE_COUNT = min (2 ^ 32 - 1) (s.get F.TST_OVERDUE_COUNT + 1) ∧ (t.get (F.EVT_CAUSE_CAUSE 3)).testBit 2 = true ∧
      (Tbl.get s.tst.passAt 0 x = 0 → s.tst.since + 2 * s.slicePeriod ≤ t.time) ∧
      (∀ p, Tbl.get s.tst.passAt 0 x = p + 1 → p + 2 * s.slicePeriod ≤ t.time) ∧
      (∀ p, Tbl.get s.tst.overdue 0 x = p + 1 → p + s.slicePeriod ≤ t.time) ∧ Kept [.evt, .cen, .tst, .out, .time] [.evt, .tst] s t))

/-- REGISTER_WRITE (R7, R9, R10, R304, R305, R395). -/
def Obligations.RegisterWritesFollowAccessTypes : Prop :=
  ∀ (off : BitVec 24) (s : State), let o := off.toNat
    (∀ len val, 256 < len → exec (.registerWrite off len val) s = .fault .illFormed) ∧
    (∀ len val, len ≤ 256 → s.coreOn = false ∨ s.pci.perst = true → exec (.registerWrite off len val) s = .next s) ∧
    (∀ len val, len ≤ 256 → s.coreOn = true → s.pci.perst = false → s.pci.d3hot = true →
      ∃ t, exec (.registerWrite off len val) s = .next t ∧ t.out = .unsupportedRequest :: s.out ∧ Kept [.out] [] s t) ∧
    (∀ val, s.barOpen → s.lc = 4 → endTakes o = false → o % 4 = 0 → exec (.registerWrite off 4 val) s = .next s) ∧
    (∀ len val, len ≤ 256 → s.answers o → s.absentBlock o = false → (o % 4 ≠ 0 ∨ (len ≠ 4 ∧ len ≠ 8) ∨ (len = 4 ∧ regAt o = none)) →
      ∃ t, exec (.registerWrite off len val) s = .next t ∧ t.isPending Ev.devBadAccess = true ∧ Kept [.evt, .cen, .out] [.evt] s t) ∧
    (∀ len val, len ≤ 256 → s.answers o → s.absentBlock o = true → len ≠ 8 ∨ o % 4 ≠ 0 ∨ s.absentBlock (o + 4) = true →
      exec (.registerWrite off len val) s = .next s) ∧
    (∀ (r : RegRow) (w : Nat) (val : BitVec 64), let v := val.setWidth 32
      s.answers o → o % 4 = 0 → plainOffset o = true → s.mapped o r w →
      ∃ t, exec (.registerWrite off 4 val) s = .next t ∧ (∀ f, f ∈ r.fields → s.fieldAfter o w v f t) ∧
        (∀ b, b < 32 → (∀ f, f ∈ r.fields → (f.mask w).getLsbD b = false) → (t.word o).getLsbD b = (s.word o).getLsbD b) ∧
        (∀ f, f ∈ r.fields → (f.acc = .rwi ∧ s.may 2 = false ∨ f.acc = .rwm ∧ s.may 3 = false) → v &&& f.mask w ≠ s.word o &&& f.mask w →
          t.isPending Ev.secDenied = true) ∧
        (quietOffset o = true → (∀ a, a ≠ o → regGroup a ≠ .sec → regGroup a ≠ .evt → t.word a = s.word a) ∧
          Kept [.sec, .evt, .cen, .out] [regGroup o, .sec, .evt] s t)) ∧
    (∀ (w : Fin 10) (val : BitVec 64), o = A.EVT_MASK w → s.answers o → ∃ t, exec (.registerWrite off 4 val) s = .next t ∧
      (∀ b, b < 32 → (t.word o).getLsbD b = (if s.srcPresent (32 * w + b) then (val.setWidth 32).getLsbD b else false)) ∧
      (∀ a, a ≠ o → t.word a = s.word a) ∧ Kept [.evt, .out] [regGroup o] s t) ∧
    (∀ (n : Fin 16) (val : BitVec 64), o = A.PORT_PAD_CFG n → n < s.nPorts → s.answers o →
      ∃ t, exec (.registerWrite off 4 val) s = .next t ∧ t.get (F.PORT_PAD_CFG_NAK_WAIT n) = getBits (val.setWidth 32) 16 8 ∧
        t.word o &&& 0xFFF = s.word o &&& 0xFFF ∧
        t.get (F.PORT_PAD_CFG_DRAIN_MS n) = (if s.may 2 then getBits (val.setWidth 32) 24 8 else s.get (F.PORT_PAD_CFG_DRAIN_MS n)) ∧
        (s.may 2 = false → getBits (val.setWidth 32) 24 8 ≠ s.get (F.PORT_PAD_CFG_DRAIN_MS n) → t.isPending Ev.secDenied = true) ∧
        (∀ a, a ≠ o → regGroup a = .portPad → t.word a = s.word a) ∧ Kept [.sec, .evt, .cen, .out] [.portPad, .sec, .evt] s t) ∧
    (∀ (n : Fin 16) (val : BitVec 64), o = A.PORT_PAD_HOST_OVF n ∨ o = A.PORT_LINK_DOWNS n ∨ o = A.PORT_LINK_STATUS n → n < s.nPorts → s.answers o →
      ∃ t, exec (.registerWrite off 4 val) s = .next t ∧ Kept [] [] s t) ∧
    (∀ (i : Fin 65535) (val : BitVec 64), i.val % 2 = 0 → o = A.DEV_FOLD_STAGE i → s.answers o → s.may 2 = true →
      ∃ t, exec (.registerWrite off 8 val) s = .next t ∧ t.word o = val.setWidth 32 ∧ t.word (o + 4) = (val >>> 32).setWidth 32 ∧
        (∀ a, a ≠ o → a ≠ o + 4 → regGroup a ≠ .sec → t.word a = s.word a) ∧ Kept [.sec] [.stage, .sec] s t) ∧
    (∀ (w : Fin 10) (val : BitVec 64), o = A.EVT_STATUS w → s.answers o → ∃ t, exec (.registerWrite off 4 val) s = .next t ∧
      (∀ b, b < 32 → t.isPending (32 * w + b) = (s.isPending (32 * w + b) && !(val.setWidth 32).getLsbD b)) ∧
      (∀ v : Fin 10, v ≠ w → ∀ b, b < 32 → groupOf (32 * v + b) = none → t.isPending (32 * v + b) = s.isPending (32 * v + b)) ∧
      Kept [] [.evt] s t)

/-- READ_CLEAR, WIDE_LOW_WORD_READ, FREEZE_RECORD_READ, PISTE_ENTRY_READ (R7, R10, R183, R275, R305, R395). -/
def Obligations.RegisterReadsAnswerAndClear : Prop :=
  (∀ (off : BitVec 24) (added : Word) (s : State), let o := off.toNat
    (∀ len, 4096 < len → exec (.readClear off len added) s = .fault .illFormed) ∧
    (s.barOpen → s.lc = 4 → o % 4 = 0 → endAnswers o = false → ∃ t, exec (.readClear off 4 added) s = .next t ∧
      t.out = .barRead o 0 :: s.out ∧ Kept [.out] [] s t) ∧
    (s.barOpen → s.lc ≠ 4 → o % 4 = 0 → s.holdCloses o = true → ∃ t, exec (.readClear off 4 added) s = .next t ∧
      t.out = .barRead o 0xFFFFFFFF :: s.out ∧ Kept [.out] [] s t) ∧
    (s.answers o → s.absentBlock o = true → o % 4 = 0 → ∃ t, exec (.readClear off 4 added) s = .next t ∧
      t.out = .barRead o 0 :: s.out ∧ Kept [.out] [] s t) ∧
    (∀ (r : RegRow) (w : Nat), s.answers o → o % 4 = 0 → plainRead o = true → s.mapped o r w → Tbl.get s.latch none o = none →
      ∃ t, exec (.readClear off 4 added) s = .next t ∧ t.out = .barRead o (s.shown o) :: s.out ∧
        (∀ f, f ∈ r.fields → t.word o &&& f.mask w = (if f.acc = .rc then added else s.word o) &&& f.mask w) ∧
        (∀ b, b < 32 → (∀ f, f ∈ r.fields → (f.mask w).getLsbD b = false) → (t.word o).getLsbD b = (s.word o).getLsbD b) ∧
        (r.wide = true → w = 0 → Tbl.get t.latch none (o + 4) = some (s.shown (o + 4))) ∧
        (∀ a, a ≠ o → regGroup a ≠ .memInteg → t.word a = s.word a) ∧ Kept [.out, .latch] [regGroup o, .memInteg] s t) ∧
    (s.answers o → s.absentBlock o = false → o % 4 = 0 → regAt o = none → ∃ t, exec (.readClear off 4 added) s = .next t ∧
      t.out.head? = some (.barRead o 0) ∧ t.isPending Ev.devBadAccess = true ∧ Kept [.evt, .cen, .out] [.evt] s t) ∧
    (∀ n : Fin 16, o = A.PORT_PAD_HOST_OVF n → n < s.nPorts → s.answers o → Tbl.get s.latch none o = none →
      ∃ t, exec (.readClear off 4 added) s = .next t ∧ t.out = .barRead o (s.word o) :: s.out ∧ t.word o = added ∧
        (∀ a, a ≠ o → t.word a = s.word a) ∧ Kept [.out] [.portPad] s t) ∧
    (∀ n : Fin 16, o = A.PORT_LINK_STATUS n → n < s.nPorts → s.answers o → Tbl.get s.latch none o = none →
      ∃ t, exec (.readClear off 4 added) s = .next t ∧ t.out = .barRead o (s.word o) :: s.out ∧ Kept [.out] [] s t)) ∧
  (∀ (off : BitVec 24) (s : State), let o := off.toNat
    s.answers o → o % 4 = 0 → plainRead o = true →
    (∀ r : RegRow, r.wide = true → s.mapped o r 0 → Tbl.get s.latch none o = none → (∀ f, f ∈ r.fields → f.acc ≠ .rc) →
      ∃ t, exec (.wideLowWordRead off) s = .next t ∧ t.out = .barRead o (s.shown o) :: s.out ∧
        t.latch = Tbl.set s.latch none (o + 4) (some (s.shown (o + 4))) ∧ Kept [.out, .latch] [] s t) ∧
    (∀ (r : RegRow) (w : Nat) (v : Word), s.mapped o r w → Tbl.get s.latch none o = some v →
      ∃ t, exec (.wideLowWordRead off) s = .next t ∧ t.out = .barRead o v :: s.out ∧ t.latch = Tbl.set s.latch none o none ∧
        Kept [.out, .latch] [] s t)) ∧
  (∀ s : State, s.answers A.DEV_TIME →
    (Tbl.get s.latch none A.DEV_TIME = none → ∃ t, exec (.wideLowWordRead (BitVec.ofNat 24 A.DEV_TIME)) s = .next t ∧
      t.out = .barRead A.DEV_TIME (BitVec.ofNat 32 s.time) :: s.out ∧
      Tbl.get t.latch none (A.DEV_TIME + 4) = some (BitVec.ofNat 32 (s.time / 2 ^ 32)) ∧ Kept [.out, .latch] [] s t) ∧
    (∀ v, Tbl.get s.latch none (A.DEV_TIME + 4) = some v → ∃ t, exec (.wideLowWordRead (BitVec.ofNat 24 (A.DEV_TIME + 4))) s = .next t ∧
      t.out = .barRead (A.DEV_TIME + 4) v :: s.out ∧ Tbl.get t.latch none (A.DEV_TIME + 4) = none ∧ Kept [.out, .latch] [] s t)) ∧
  (∀ (pc : BitVec 5) (s : State), let c := pc.toNat / 2
    let p := pc.toNat % 2
    let o := A.MEM_FREEZE_REC c p 159
    c < s.nChans → s.answers o → Tbl.get s.latch none o = none → ∃ t, exec (.freezeRecordRead pc) s = .next t ∧
      t.out = .barRead o (s.word o) :: s.out ∧ t.flag (F.MEM_INTEG_STATE_REC_READ c p) = true ∧
      (∀ a, a ≠ A.MEM_INTEG_STATE c p → t.word a = s.word a) ∧ Kept [.out, .latch] [.memInteg] s t) ∧
  (∀ (idx : BitVec 15) (s : State), let i := idx.toNat
    s.answers (A.PISTE_ENTRY i 0) → ∃ t, exec (.pisteEntryRead idx) s = .next t ∧
      t.out = .barRead (A.PISTE_ENTRY i 0) (s.word (A.PISTE_ENTRY i 0)) :: s.out ∧
      t.piste.latch = some (i, [s.word (A.PISTE_ENTRY i 0), s.word (A.PISTE_ENTRY i 1), s.word (A.PISTE_ENTRY i 2), s.word (A.PISTE_ENTRY i 3)]) ∧
      Kept [.out, .piste] [] s t)

/-- PORT_CUSTOM_WRITE, TRIM_WRITE, PISTE_ENTRY_COMMIT, PORT_BELL_GO, MEM_FLIP_ARM, CEN_SEL_WRITE, EVID_RING_CFG_WRITE, EVT_FORCE and
TST_MAN_GO (R50, R183, R209, R232, R272, R375, R397, R406, R418). -/
def Obligations.RegistersThatDoMore : Prop :=
  (∀ (port : BitVec 4) (b : Bool) (k : BitVec 3) (val : Word) (s : State), let n := port.toNat
    let o := if b then A.PORT_CUSTOM_B n k.toNat else A.PORT_CUSTOM_A n k.toNat
    n < s.nPorts → s.answers o →
    (s.may 2 = true → ∃ t, exec (.portCustomWrite port b k val) s = .next t ∧ t.word o = val ∧
      (∀ a, a ≠ o → regGroup a ≠ .sec → t.word a = s.word a) ∧ Kept [.sec, .line, .cen] [.portIlm, .sec] s t) ∧
    (s.may 2 = false → val ≠ s.word o → ∃ t, exec (.portCustomWrite port b k val) s = .next t ∧ t.isPending Ev.secDenied = true ∧
      Kept [.evt, .cen, .out] [.evt] s t)) ∧
  (∀ (off : BitVec 24) (val : Word) (s : State), s.may 2 = true → s.answers off.toNat →
    (∀ n : Fin 16, off.toNat = A.PORT_TRIM_HYB n → n < s.nPorts → ∃ t, exec (.trimWrite off val) s = .next t ∧
      t.get (F.PORT_TRIM_HYB_HYB_RES n) = getBits val 0 6 ∧ t.get (F.PORT_TRIM_HYB_HYB_CAP n) = getBits val 8 6 ∧
      Kept [.evt, .cen, .cal, .out, .sec] [.portCal, .memCal, .cal, .evt, .cmd, .sec] s t) ∧
    (∀ (c : Fin 16) (p : Fin 2) (j : Fin 13), off.toNat = A.MEM_TRIM c p j → c < s.nChans → getBits val 0 6 = 32 → getBits val 8 6 = 32 →
      ∃ t, exec (.trimWrite off val) s = .next t ∧ t.word off.toNat = s.word off.toNat ∧ t.isPending Ev.devBadAccess = true ∧
        Kept [.evt, .cen, .out, .sec] [.evt, .sec] s t)) ∧
  (∀ (idx : BitVec 15) (val : Word) (s : State), let i := idx.toNat
    let w0 := (s.piste.shadow.getD 0 0).toNat + 2 ^ 32 * (s.piste.shadow.getD 1 0).toNat
    let w1 := (s.piste.shadow.getD 2 0).toNat + 2 ^ 32 * val.toNat
    s.may 2 = true → s.answers (A.PISTE_ENTRY i 3) →
    (eValid w1 = false ∨ entryOk w0 w1 = true → ∃ t, exec (.pisteEntryCommit idx val) s = .next t ∧
      t.wide (A.PISTE_ENTRY i 0) = w0 ∧ t.wide (A.PISTE_ENTRY i 2) = withBits (withBits w1 27 1 0) 63 1 0 ∧ t.flag F.PISTE_STATUS_DIRTY = true ∧
      (∀ j k, j < 32768 → j ≠ i → t.word (A.PISTE_ENTRY j k) = s.word (A.PISTE_ENTRY j k)) ∧ Kept [.piste, .sec] [.piste, .sec] s t) ∧
    (eValid w1 = true → entryOk w0 w1 = false → ∃ t, exec (.pisteEntryCommit idx val) s = .next t ∧
      t.wide (A.PISTE_ENTRY i 0) = w0 ∧ eValid (t.wide (A.PISTE_ENTRY i 2)) = false ∧ t.isPending Ev.devBadAccess = true ∧
      Kept [.piste, .sec, .evt, .cen, .out] [.piste, .sec, .evt] s t)) ∧
  (∀ (port : BitVec 4) (val : Word) (s : State), let n := port.toNat
    n < s.nPorts → s.answers (A.PORT_BELL_CMD n) →
    ∃ t, exec (.portBellGo port val) s = .next t ∧
      (val.getLsbD 31 = true → s.upIlm n = true ∨ s.upLegacy n = true → t.flag (F.PORT_BELL_STATE_REFUSED n) = true ∧
        (∀ a, a ≠ A.PORT_BELL_STATE n → t.word a = s.word a) ∧ Kept [] [.portTrv] s t) ∧
      (val.getLsbD 31 = false ∨ s.upIlm n = false ∧ s.upLegacy n = false → t.get (F.PORT_BELL_CMD_COUNT n) = getBits val 16 8 ∧
        t.get (F.PORT_BELL_CMD_GROUP n) = getBits val 0 16) ∧
      (val.getLsbD 31 = true → s.upIlm n = false → s.upLegacy n = false → t.flag (F.PORT_BELL_STATE_SENDING n) = true ∧
        t.get (F.PORT_BELL_STATE_LEFT n) = max 1 (getBits val 16 8)) ∧ Kept [.trv] [.portTrv] s t) ∧
  (∀ (pc : BitVec 5) (val : Word) (s : State), let c := pc.toNat / 2
    let p := pc.toNat % 2
    let o := A.MEM_FLIP_CTRL c p
    c < s.nChans → s.answers o →
    (s.may 2 = true → ∃ t, exec (.memFlipArm pc val) s = .next t ∧ t.flag (F.MEM_FLIP_CTRL_ARM c p) = val.getLsbD 31 ∧
      t.get (F.MEM_FLIP_CTRL_FLIP_REQ c p) = getBits val 8 6 ∧ t.get (F.MEM_FLIP_CTRL_BEATS c p) = getBits val 0 8 ∧
      (∀ a, a ≠ o → regGroup a = .memInteg → t.word a = s.word a) ∧ Kept [.sec] [.memInteg, .sec] s t) ∧
    (s.may 2 = false → (val ^^^ s.word o) &&& 0x80003FFF#32 ≠ 0 → ∃ t, exec (.memFlipArm pc val) s = .next t ∧
      t.isPending Ev.secDenied = true ∧ t.word o = s.word o ∧ Kept [.sec, .evt, .cen, .out] [.evt, .sec] s t)) ∧
  (∀ (k : BitVec 9) (val : Word) (s : State), let i := k.toNat
    i < 312 → s.answers (A.CEN_SEL i) → s.may 2 = true →
    ∃ t, exec (.cenSelWrite k val) s = .next t ∧ t.get (F.CEN_SEL_EVENT i) = getBits val 0 10 ∧ Tbl.get t.cen.ctr 0 i = 0 ∧
      (i % 2 = 0 → t.get (F.CEN_SEL_CHAIN i) = getBits val 31 1) ∧ (i % 2 = 1 → t.get (F.CEN_SEL_CHAIN i) = s.get (F.CEN_SEL_CHAIN i)) ∧
      t.cen.config = true ∧ (∀ a, a ≠ A.CEN_SEL i → regGroup a ≠ .sec → t.word a = s.word a) ∧ Kept [.cen, .sec] [.cen, .sec] s t) ∧
  (∀ (ring word : BitVec 2) (val : Word) (s : State), let r := ring.toNat
    let o := A.EVID_RING_CFG r + 4 * word.toNat
    s.answers o → s.may 2 = true →
    (s.ringClash r word.toNat val = true → ∃ t, exec (.evidRingCfgWrite ring word val) s = .next t ∧ t.word o = s.word o ∧
      t.isPending Ev.devBadAccess = true ∧ Kept [.evt, .cen, .out, .sec] [.evt, .sec] s t) ∧
    (s.ringClash r word.toNat val = false → ∃ t, exec (.evidRingCfgWrite ring word val) s = .next t ∧
      (word = 0 → t.flag (F.EVID_RING_CFG_ENABLE r) = val.getLsbD 31 ∧ t.get (F.EVID_RING_CFG_PORTS r) = getBits val 0 16) ∧
      (word = 1 → t.ringRange r = (getBits val 16 15, getBits val 0 15)) ∧
      Kept [.sec, .evt, .cen, .evid, .pch, .bank, .drv, .dram, .chk, .out, .freeCtr] [.sec, .evt, .memCtl, .memInteg, .evid] s t)) ∧
  (∀ (w : BitVec 4) (val : Word) (s : State), w.toNat < 10 → s.answers (A.EVT_FORCE w.toNat) →
    ∃ t, exec (.evtForce w val) s = .next t ∧
      (∀ b, b < 32 → val.getLsbD b = true → s.srcPresent (32 * w.toNat + b) = true → t.isPending (32 * w.toNat + b) = true) ∧
      Kept [.evt, .cen, .out] [.evt] s t) ∧
  (∀ (val sig : Word) (pass : Bool) (s : State), s.answers A.TST_MAN_CTRL → s.may 3 = true → s.mayTst A.TST_MAN_CTRL = true →
    val.getLsbD 31 = true →
    (s.manualFree (getBits val 27 2) (getBits val 20 7) = false → ∃ t, exec (.tstManGo val sig pass) s = .next t ∧
      t.get F.TST_MAN_CTRL_RESULT = 3 ∧ t.flag F.TST_MAN_CTRL_GO = false ∧ Kept [.sec] [.tst, .sec] s t) ∧
    (s.manualFree (getBits val 27 2) (getBits val 20 7) = true → ∃ t, exec (.tstManGo val sig pass) s = .next t ∧
      t.get F.TST_MAN_CTRL_RESULT = (if pass then 1 else 2) ∧ t.word A.TST_MAN_SIG = sig ∧ t.flag F.TST_MAN_CTRL_GO = false ∧
      Kept [.sec, .evt, .cen, .tst, .out] [.tst, .sec, .evt] s t))

/-- BAR2_READ and BAR2_WRITE (R306 to R308). -/
def Obligations.Bar2ReachesTheSelectedPartition : Prop :=
  (∀ (off : BitVec 26) (len : Nat) (s : State),
    (4096 < len → exec (.bar2Read off len) s = .fault .illFormed) ∧
    (len ≤ 4096 → s.barOpen →
      (s.bar2At off.toNat len false = .closed → ∃ t, exec (.bar2Read off len) s = .next t ∧
        t.out = .bar2Read (List.replicate len 0) false :: s.out ∧ Kept [.out] [] s t) ∧
      (s.bar2At off.toNat len false = .denied → ∃ t, exec (.bar2Read off len) s = .next t ∧ t.isPending Ev.secDenied = true ∧
        t.out.head? = some (.bar2Read (List.replicate len 0) false) ∧ Kept [.evt, .cen, .out] [.evt] s t) ∧
      (s.bar2At off.toNat len false = .absent → ∃ t, exec (.bar2Read off len) s = .next t ∧ t.isPending Ev.devBadAccess = true ∧
        t.out.head? = some (.bar2Read (List.replicate len 0) false) ∧ Kept [.evt, .cen, .out] [.evt] s t) ∧
      (∀ k a, s.bar2At off.toNat len false = .held k a → ∃ t, exec (.bar2Read off len) s = .next t ∧
        t.out = .bar2Read (List.replicate len 0) true :: s.out ∧ Kept [.out] [] s t) ∧
      (∀ k a, s.bar2At off.toNat len false = .at_ k a →
        let loc (i : Nat) : Loc := s.locate k ((a + i) / 64 * 64)
        let byteOf (i : Nat) : ByteRead := let l := loc i
          let c := s.cell (cellAddr l.pc l.bank ((s.bk l.pc l.bank).physRow l.row) (64 * (l.col / 64) + (a + i) % 64))
          decodeByte c.1 c.2
        (∀ i, i < len → s.fenced (loc i).pc = false ∧ (s.bk (loc i).pc (loc i).bank).rowFilled (loc i).row = true ∧ byteOf i ≠ .ue) →
        ∃ t, exec (.bar2Read off len) s = .next t ∧
          t.out = .bar2Read ((List.range len).map fun i => BitVec.ofNat 8 (byteOf i).val)
            ((List.range len).any fun i => decide (byteOf i = .poison)) :: s.out ∧
          Kept [.cen, .pch, .bank, .drv, .out, .freeCtr] [.memCtl, .memInteg] s t))) ∧
  (∀ (off : BitVec 26) (data : List (Option (BitVec 8))) (s : State),
    (256 < data.length → exec (.bar2Write off data) s = .fault .illFormed) ∧
    (data.length ≤ 256 → s.barOpen →
      (s.bar2At off.toNat data.length true = .closed → exec (.bar2Write off data) s = .next s) ∧
      (s.bar2At off.toNat data.length true = .denied → ∃ t, exec (.bar2Write off data) s = .next t ∧ t.isPending Ev.secDenied = true ∧
        Kept [.evt, .cen, .out] [.evt] s t) ∧
      (s.bar2At off.toNat data.length true = .absent → ∃ t, exec (.bar2Write off data) s = .next t ∧ t.isPending Ev.devBadAccess = true ∧
        Kept [.evt, .cen, .out] [.evt] s t) ∧
      (∀ k a, s.bar2At off.toNat data.length true = .held k a → ∃ t, exec (.bar2Write off data) s = .next t ∧
        t.dram = s.dram ∧ t.chk = s.chk ∧ Kept [] [.memCtl, .memInteg] s t) ∧
      (∀ k a, s.bar2At off.toNat data.length true = .at_ k a →
        let loc (i : Nat) : Loc := s.locate k ((a + i) / 64 * 64)
        let cellOf (i : Nat) : Nat := let l := loc i
          cellAddr l.pc l.bank ((s.bk l.pc l.bank).physRow l.row) (64 * (l.col / 64) + (a + i) % 64)
        ∃ t, exec (.bar2Write off data) s = .next t ∧
          (∀ c, (∀ i, i < data.length → c ≠ cellOf i) → t.cell c = s.cell c) ∧
          (∀ i d, data[i]? = some (some d) → s.fenced (loc i).pc = false →
            (s.flag (F.MEM_FLIP_CTRL_ARM ((loc i).pc / 2) ((loc i).pc % 2)) = false) →
            (∀ j, j < data.length → cellOf j = cellOf i → j = i) →
            t.cell (cellOf i) = (d.toNat, checkBits d.toNat) ∧ (t.bk (loc i).pc (loc i).bank).rowFilled (loc i).row = true) ∧
          Kept [.evt, .cen, .pch, .bank, .drv, .dram, .chk, .out, .freeCtr] [.evt, .memCtl, .memInteg] s t)))

/-- PERST_N, CONFIGURATION_WRITE, CONTROL_PORT_LINK_UP, MDIO_READ and MDIO_WRITE (R309, R319 to R321). -/
def Obligations.ControlPortAndMdio : Prop :=
  (∀ s : State,
    (s.pci.perst = false → ∃ t, exec (.perstN true) s = .next t ∧ t.pci = { link := false, perst := true } ∧
      (∀ v j, v < 32 → j < 4 → t.word (A.MSIX_TABLE v j) = resetWord s.part (A.MSIX_TABLE v j)) ∧ t.wide A.DEV_BAR2_WIN = 0 ∧
      t.sec.chal = false ∧ t.role = 0 ∧ (s.role ≠ 0 → s.coreOn = true → t.isPending Ev.secSessionEnd = true) ∧ Kept [.sec, .evt, .pci, .cen, .evid, .line, .apply, .herder, .out] [.dev, .msix, .evt, .sec] s t) ∧
    (∃ t, exec (.perstN false) s = .next t ∧ t.pci = { s.pci with perst := false } ∧ Kept [.pci] [] s t) ∧
    (s.coreOn = true → s.pci.perst = false → ∃ t, exec .controlPortLinkUp s = .next t ∧ t.pci = { s.pci with link := true } ∧
      Kept [.evt, .pci, .out] [] s t) ∧
    (s.coreOn = true → s.pci.perst = true → exec .controlPortLinkUp s = .next s) ∧
    (∀ d3hot msixEn funcMask, s.coreOn = true → s.pci.perst = false →
      ∃ t, exec (.configurationWrite d3hot msixEn funcMask) s = .next t ∧
        t.pci = { s.pci with d3hot := d3hot, msixEn := msixEn, funcMask := funcMask } ∧ Kept [.evt, .pci, .out] [] s t)) ∧
  (∀ (port : BitVec 5) (s : State), let n := port.toNat
    s.mdioServes n = true →
    (Tbl.get s.mdio.latch none (mdioKey n 30 0) = none → ∃ t, exec (.mdioRead port 30 0) s = .next t ∧
      t.out = .mdioRead ((s.word (A.PORT_LINK_STATUS n)).setWidth 16) :: s.out ∧
      Tbl.get t.mdio.latch none (mdioKey n 30 1) = some ((s.word (A.PORT_LINK_STATUS n)).toNat / 65536) ∧ Kept [.mdio, .out] [] s t) ∧
    (∀ v, Tbl.get s.mdio.latch none (mdioKey n 30 1) = some v → ∃ t, exec (.mdioRead port 30 1) s = .next t ∧
      t.out = .mdioRead (BitVec.ofNat 16 v) :: s.out ∧ Tbl.get t.mdio.latch none (mdioKey n 30 1) = none ∧ Kept [.mdio, .out] [] s t) ∧
    (Tbl.get s.mdio.latch none (mdioKey n 31 11) = none → ∃ t, exec (.mdioRead port 31 11) s = .next t ∧
      t.out = .mdioRead (BitVec.ofNat 16 s.lc) :: s.out ∧ Kept [.out] [] s t) ∧
    (∀ mmd reg val, (∀ g, mdioGroup mmd.toNat reg.toNat = some g → (s.mdioGrant n).testBit g = false) →
      ∃ t, exec (.mdioWrite port mmd reg val) s = .next t ∧ t.isPending Ev.secDenied = true ∧
        t.get F.DEV_MDIO_DENIED_COUNT = min (2 ^ F.DEV_MDIO_DENIED_COUNT.len - 1) (s.get F.DEV_MDIO_DENIED_COUNT + 1) ∧
        Kept [.evt, .cen, .out] [.dev, .evt] s t) ∧
    (∀ (reg val : BitVec 16) g, mdioGroup 1 reg.toNat = some g → (s.mdioGrant n).testBit g = true →
      ∃ t, exec (.mdioWrite port 1 reg val) s = .next t ∧
        Tbl.get t.mdio.regs none (mdioKey n 1 reg.toNat) = some (val &&& 0x7FFF).toNat ∧ Kept [.mdio] [] s t) ∧
    (∀ val : BitVec 16, (s.mdioGrant n).testBit 0 = true → val.getLsbD 15 = false → val.getLsbD 14 = false →
      s.flag (F.PORT_MODE_ENABLE n) = false → ∃ t, exec (.mdioWrite port 30 16 val) s = .next t ∧
        t.flag (F.PORT_MODE_ENABLE n) = false ∧ (∀ a, a ≠ A.PORT_MODE n → t.word a = s.word a) ∧ Kept [.evt, .mdio, .cen, .pch, .bank, .line, .pad, .lane, .trv, .drv, .apply, .cal, .clk, .pwr, .out, .freeCtr] [.dev, .evt, .cmd, .portLink, .portIlm, .portPad, .portTrv, .portCal, .portTone, .slices, .memCtl, .memInteg, .freezeRec, .memCal, .fab, .lane, .cal, .piste, .evid, .tst] s t))
end

