-- ==== Sys2Proof/Laws/State.lean ====
section
/-!
SUPPORT. What each update of a field of the state leaves alone: one equation per field per update, so that no proof
unfolds a record update.
-/
namespace Sys2Proof.Machine

@[simp] theorem State.withPart_part (s : State) (v : Part) : (s.withPart v).part = v := rfl
@[simp] theorem State.withPart_regs (s : State) (v : Part) : (s.withPart v).regs = s.regs := rfl
@[simp] theorem State.withPart_latch (s : State) (v : Part) : (s.withPart v).latch = s.latch := rfl
@[simp] theorem State.withPart_nv (s : State) (v : Part) : (s.withPart v).nv = s.nv := rfl
@[simp] theorem State.withPart_ao (s : State) (v : Part) : (s.withPart v).ao = s.ao := rfl
@[simp] theorem State.withPart_fold (s : State) (v : Part) : (s.withPart v).fold = s.fold := rfl
@[simp] theorem State.withPart_box (s : State) (v : Part) : (s.withPart v).box = s.box := rfl
@[simp] theorem State.withPart_sec (s : State) (v : Part) : (s.withPart v).sec = s.sec := rfl
@[simp] theorem State.withPart_evt (s : State) (v : Part) : (s.withPart v).evt = s.evt := rfl
@[simp] theorem State.withPart_pci (s : State) (v : Part) : (s.withPart v).pci = s.pci := rfl
@[simp] theorem State.withPart_mdio (s : State) (v : Part) : (s.withPart v).mdio = s.mdio := rfl
@[simp] theorem State.withPart_cen (s : State) (v : Part) : (s.withPart v).cen = s.cen := rfl
@[simp] theorem State.withPart_evid (s : State) (v : Part) : (s.withPart v).evid = s.evid := rfl
@[simp] theorem State.withPart_pch (s : State) (v : Part) : (s.withPart v).pch = s.pch := rfl
@[simp] theorem State.withPart_bank (s : State) (v : Part) : (s.withPart v).bank = s.bank := rfl
@[simp] theorem State.withPart_line (s : State) (v : Part) : (s.withPart v).line = s.line := rfl
@[simp] theorem State.withPart_pad (s : State) (v : Part) : (s.withPart v).pad = s.pad := rfl
@[simp] theorem State.withPart_lane (s : State) (v : Part) : (s.withPart v).lane = s.lane := rfl
@[simp] theorem State.withPart_trv (s : State) (v : Part) : (s.withPart v).trv = s.trv := rfl
@[simp] theorem State.withPart_drv (s : State) (v : Part) : (s.withPart v).drv = s.drv := rfl
@[simp] theorem State.withPart_apply (s : State) (v : Part) : (s.withPart v).apply = s.apply := rfl
@[simp] theorem State.withPart_pos (s : State) (v : Part) : (s.withPart v).pos = s.pos := rfl
@[simp] theorem State.withPart_piste (s : State) (v : Part) : (s.withPart v).piste = s.piste := rfl
@[simp] theorem State.withPart_cal (s : State) (v : Part) : (s.withPart v).cal = s.cal := rfl
@[simp] theorem State.withPart_diag (s : State) (v : Part) : (s.withPart v).diag = s.diag := rfl
@[simp] theorem State.withPart_clk (s : State) (v : Part) : (s.withPart v).clk = s.clk := rfl
@[simp] theorem State.withPart_start (s : State) (v : Part) : (s.withPart v).start = s.start := rfl
@[simp] theorem State.withPart_tst (s : State) (v : Part) : (s.withPart v).tst = s.tst := rfl
@[simp] theorem State.withPart_thm (s : State) (v : Part) : (s.withPart v).thm = s.thm := rfl
@[simp] theorem State.withPart_dram (s : State) (v : Part) : (s.withPart v).dram = s.dram := rfl
@[simp] theorem State.withPart_chk (s : State) (v : Part) : (s.withPart v).chk = s.chk := rfl
@[simp] theorem State.withPart_herder (s : State) (v : Part) : (s.withPart v).herder = s.herder := rfl
@[simp] theorem State.withPart_pwr (s : State) (v : Part) : (s.withPart v).pwr = s.pwr := rfl
@[simp] theorem State.withPart_pins (s : State) (v : Part) : (s.withPart v).pins = s.pins := rfl
@[simp] theorem State.withPart_out (s : State) (v : Part) : (s.withPart v).out = s.out := rfl
@[simp] theorem State.withPart_freeCtr (s : State) (v : Part) : (s.withPart v).freeCtr = s.freeCtr := rfl
@[simp] theorem State.withPart_pending (s : State) (v : Part) : (s.withPart v).pending = s.pending := rfl
@[simp] theorem State.withRegs_part (s : State) (v : Tbl Word) : (s.withRegs v).part = s.part := rfl
@[simp] theorem State.withRegs_regs (s : State) (v : Tbl Word) : (s.withRegs v).regs = v := rfl
@[simp] theorem State.withRegs_latch (s : State) (v : Tbl Word) : (s.withRegs v).latch = s.latch := rfl
@[simp] theorem State.withRegs_nv (s : State) (v : Tbl Word) : (s.withRegs v).nv = s.nv := rfl
@[simp] theorem State.withRegs_ao (s : State) (v : Tbl Word) : (s.withRegs v).ao = s.ao := rfl
@[simp] theorem State.withRegs_fold (s : State) (v : Tbl Word) : (s.withRegs v).fold = s.fold := rfl
@[simp] theorem State.withRegs_box (s : State) (v : Tbl Word) : (s.withRegs v).box = s.box := rfl
@[simp] theorem State.withRegs_sec (s : State) (v : Tbl Word) : (s.withRegs v).sec = s.sec := rfl
@[simp] theorem State.withRegs_evt (s : State) (v : Tbl Word) : (s.withRegs v).evt = s.evt := rfl
@[simp] theorem State.withRegs_pci (s : State) (v : Tbl Word) : (s.withRegs v).pci = s.pci := rfl
@[simp] theorem State.withRegs_mdio (s : State) (v : Tbl Word) : (s.withRegs v).mdio = s.mdio := rfl
@[simp] theorem State.withRegs_cen (s : State) (v : Tbl Word) : (s.withRegs v).cen = s.cen := rfl
@[simp] theorem State.withRegs_evid (s : State) (v : Tbl Word) : (s.withRegs v).evid = s.evid := rfl
@[simp] theorem State.withRegs_pch (s : State) (v : Tbl Word) : (s.withRegs v).pch = s.pch := rfl
@[simp] theorem State.withRegs_bank (s : State) (v : Tbl Word) : (s.withRegs v).bank = s.bank := rfl
@[simp] theorem State.withRegs_line (s : State) (v : Tbl Word) : (s.withRegs v).line = s.line := rfl
@[simp] theorem State.withRegs_pad (s : State) (v : Tbl Word) : (s.withRegs v).pad = s.pad := rfl
@[simp] theorem State.withRegs_lane (s : State) (v : Tbl Word) : (s.withRegs v).lane = s.lane := rfl
@[simp] theorem State.withRegs_trv (s : State) (v : Tbl Word) : (s.withRegs v).trv = s.trv := rfl
@[simp] theorem State.withRegs_drv (s : State) (v : Tbl Word) : (s.withRegs v).drv = s.drv := rfl
@[simp] theorem State.withRegs_apply (s : State) (v : Tbl Word) : (s.withRegs v).apply = s.apply := rfl
@[simp] theorem State.withRegs_pos (s : State) (v : Tbl Word) : (s.withRegs v).pos = s.pos := rfl
@[simp] theorem State.withRegs_piste (s : State) (v : Tbl Word) : (s.withRegs v).piste = s.piste := rfl
@[simp] theorem State.withRegs_cal (s : State) (v : Tbl Word) : (s.withRegs v).cal = s.cal := rfl
@[simp] theorem State.withRegs_diag (s : State) (v : Tbl Word) : (s.withRegs v).diag = s.diag := rfl
@[simp] theorem State.withRegs_clk (s : State) (v : Tbl Word) : (s.withRegs v).clk = s.clk := rfl
@[simp] theorem State.withRegs_start (s : State) (v : Tbl Word) : (s.withRegs v).start = s.start := rfl
@[simp] theorem State.withRegs_tst (s : State) (v : Tbl Word) : (s.withRegs v).tst = s.tst := rfl
@[simp] theorem State.withRegs_thm (s : State) (v : Tbl Word) : (s.withRegs v).thm = s.thm := rfl
@[simp] theorem State.withRegs_dram (s : State) (v : Tbl Word) : (s.withRegs v).dram = s.dram := rfl
@[simp] theorem State.withRegs_chk (s : State) (v : Tbl Word) : (s.withRegs v).chk = s.chk := rfl
@[simp] theorem State.withRegs_herder (s : State) (v : Tbl Word) : (s.withRegs v).herder = s.herder := rfl
@[simp] theorem State.withRegs_pwr (s : State) (v : Tbl Word) : (s.withRegs v).pwr = s.pwr := rfl
@[simp] theorem State.withRegs_pins (s : State) (v : Tbl Word) : (s.withRegs v).pins = s.pins := rfl
@[simp] theorem State.withRegs_out (s : State) (v : Tbl Word) : (s.withRegs v).out = s.out := rfl
@[simp] theorem State.withRegs_freeCtr (s : State) (v : Tbl Word) : (s.withRegs v).freeCtr = s.freeCtr := rfl
@[simp] theorem State.withRegs_pending (s : State) (v : Tbl Word) : (s.withRegs v).pending = s.pending := rfl
@[simp] theorem State.withLatch_part (s : State) (v : Tbl (Option Word)) : (s.withLatch v).part = s.part := rfl
@[simp] theorem State.withLatch_regs (s : State) (v : Tbl (Option Word)) : (s.withLatch v).regs = s.regs := rfl
@[simp] theorem State.withLatch_latch (s : State) (v : Tbl (Option Word)) : (s.withLatch v).latch = v := rfl
@[simp] theorem State.withLatch_nv (s : State) (v : Tbl (Option Word)) : (s.withLatch v).nv = s.nv := rfl
@[simp] theorem State.withLatch_ao (s : State) (v : Tbl (Option Word)) : (s.withLatch v).ao = s.ao := rfl
@[simp] theorem State.withLatch_fold (s : State) (v : Tbl (Option Word)) : (s.withLatch v).fold = s.fold := rfl
@[simp] theorem State.withLatch_box (s : State) (v : Tbl (Option Word)) : (s.withLatch v).box = s.box := rfl
@[simp] theorem State.withLatch_sec (s : State) (v : Tbl (Option Word)) : (s.withLatch v).sec = s.sec := rfl
@[simp] theorem State.withLatch_evt (s : State) (v : Tbl (Option Word)) : (s.withLatch v).evt = s.evt := rfl
@[simp] theorem State.withLatch_pci (s : State) (v : Tbl (Option Word)) : (s.withLatch v).pci = s.pci := rfl
@[simp] theorem State.withLatch_mdio (s : State) (v : Tbl (Option Word)) : (s.withLatch v).mdio = s.mdio := rfl
@[simp] theorem State.withLatch_cen (s : State) (v : Tbl (Option Word)) : (s.withLatch v).cen = s.cen := rfl
@[simp] theorem State.withLatch_evid (s : State) (v : Tbl (Option Word)) : (s.withLatch v).evid = s.evid := rfl
@[simp] theorem State.withLatch_pch (s : State) (v : Tbl (Option Word)) : (s.withLatch v).pch = s.pch := rfl
@[simp] theorem State.withLatch_bank (s : State) (v : Tbl (Option Word)) : (s.withLatch v).bank = s.bank := rfl
@[simp] theorem State.withLatch_line (s : State) (v : Tbl (Option Word)) : (s.withLatch v).line = s.line := rfl
@[simp] theorem State.withLatch_pad (s : State) (v : Tbl (Option Word)) : (s.withLatch v).pad = s.pad := rfl
@[simp] theorem State.withLatch_lane (s : State) (v : Tbl (Option Word)) : (s.withLatch v).lane = s.lane := rfl
@[simp] theorem State.withLatch_trv (s : State) (v : Tbl (Option Word)) : (s.withLatch v).trv = s.trv := rfl
@[simp] theorem State.withLatch_drv (s : State) (v : Tbl (Option Word)) : (s.withLatch v).drv = s.drv := rfl
@[simp] theorem State.withLatch_apply (s : State) (v : Tbl (Option Word)) : (s.withLatch v).apply = s.apply := rfl
@[simp] theorem State.withLatch_pos (s : State) (v : Tbl (Option Word)) : (s.withLatch v).pos = s.pos := rfl
@[simp] theorem State.withLatch_piste (s : State) (v : Tbl (Option Word)) : (s.withLatch v).piste = s.piste := rfl
@[simp] theorem State.withLatch_cal (s : State) (v : Tbl (Option Word)) : (s.withLatch v).cal = s.cal := rfl
@[simp] theorem State.withLatch_diag (s : State) (v : Tbl (Option Word)) : (s.withLatch v).diag = s.diag := rfl
@[simp] theorem State.withLatch_clk (s : State) (v : Tbl (Option Word)) : (s.withLatch v).clk = s.clk := rfl
@[simp] theorem State.withLatch_start (s : State) (v : Tbl (Option Word)) : (s.withLatch v).start = s.start := rfl
@[simp] theorem State.withLatch_tst (s : State) (v : Tbl (Option Word)) : (s.withLatch v).tst = s.tst := rfl
@[simp] theorem State.withLatch_thm (s : State) (v : Tbl (Option Word)) : (s.withLatch v).thm = s.thm := rfl
@[simp] theorem State.withLatch_dram (s : State) (v : Tbl (Option Word)) : (s.withLatch v).dram = s.dram := rfl
@[simp] theorem State.withLatch_chk (s : State) (v : Tbl (Option Word)) : (s.withLatch v).chk = s.chk := rfl
@[simp] theorem State.withLatch_herder (s : State) (v : Tbl (Option Word)) : (s.withLatch v).herder = s.herder := rfl
@[simp] theorem State.withLatch_pwr (s : State) (v : Tbl (Option Word)) : (s.withLatch v).pwr = s.pwr := rfl
@[simp] theorem State.withLatch_pins (s : State) (v : Tbl (Option Word)) : (s.withLatch v).pins = s.pins := rfl
@[simp] theorem State.withLatch_out (s : State) (v : Tbl (Option Word)) : (s.withLatch v).out = s.out := rfl
@[simp] theorem State.withLatch_freeCtr (s : State) (v : Tbl (Option Word)) : (s.withLatch v).freeCtr = s.freeCtr := rfl
@[simp] theorem State.withLatch_pending (s : State) (v : Tbl (Option Word)) : (s.withLatch v).pending = s.pending := rfl
@[simp] theorem State.withNv_part (s : State) (v : Nv) : (s.withNv v).part = s.part := rfl
@[simp] theorem State.withNv_regs (s : State) (v : Nv) : (s.withNv v).regs = s.regs := rfl
@[simp] theorem State.withNv_latch (s : State) (v : Nv) : (s.withNv v).latch = s.latch := rfl
@[simp] theorem State.withNv_nv (s : State) (v : Nv) : (s.withNv v).nv = v := rfl
@[simp] theorem State.withNv_ao (s : State) (v : Nv) : (s.withNv v).ao = s.ao := rfl
@[simp] theorem State.withNv_fold (s : State) (v : Nv) : (s.withNv v).fold = s.fold := rfl
@[simp] theorem State.withNv_box (s : State) (v : Nv) : (s.withNv v).box = s.box := rfl
@[simp] theorem State.withNv_sec (s : State) (v : Nv) : (s.withNv v).sec = s.sec := rfl
@[simp] theorem State.withNv_evt (s : State) (v : Nv) : (s.withNv v).evt = s.evt := rfl
@[simp] theorem State.withNv_pci (s : State) (v : Nv) : (s.withNv v).pci = s.pci := rfl
@[simp] theorem State.withNv_mdio (s : State) (v : Nv) : (s.withNv v).mdio = s.mdio := rfl
@[simp] theorem State.withNv_cen (s : State) (v : Nv) : (s.withNv v).cen = s.cen := rfl
@[simp] theorem State.withNv_evid (s : State) (v : Nv) : (s.withNv v).evid = s.evid := rfl
@[simp] theorem State.withNv_pch (s : State) (v : Nv) : (s.withNv v).pch = s.pch := rfl
@[simp] theorem State.withNv_bank (s : State) (v : Nv) : (s.withNv v).bank = s.bank := rfl
@[simp] theorem State.withNv_line (s : State) (v : Nv) : (s.withNv v).line = s.line := rfl
@[simp] theorem State.withNv_pad (s : State) (v : Nv) : (s.withNv v).pad = s.pad := rfl
@[simp] theorem State.withNv_lane (s : State) (v : Nv) : (s.withNv v).lane = s.lane := rfl
@[simp] theorem State.withNv_trv (s : State) (v : Nv) : (s.withNv v).trv = s.trv := rfl
@[simp] theorem State.withNv_drv (s : State) (v : Nv) : (s.withNv v).drv = s.drv := rfl
@[simp] theorem State.withNv_apply (s : State) (v : Nv) : (s.withNv v).apply = s.apply := rfl
@[simp] theorem State.withNv_pos (s : State) (v : Nv) : (s.withNv v).pos = s.pos := rfl
@[simp] theorem State.withNv_piste (s : State) (v : Nv) : (s.withNv v).piste = s.piste := rfl
@[simp] theorem State.withNv_cal (s : State) (v : Nv) : (s.withNv v).cal = s.cal := rfl
@[simp] theorem State.withNv_diag (s : State) (v : Nv) : (s.withNv v).diag = s.diag := rfl
@[simp] theorem State.withNv_clk (s : State) (v : Nv) : (s.withNv v).clk = s.clk := rfl
@[simp] theorem State.withNv_start (s : State) (v : Nv) : (s.withNv v).start = s.start := rfl
@[simp] theorem State.withNv_tst (s : State) (v : Nv) : (s.withNv v).tst = s.tst := rfl
@[simp] theorem State.withNv_thm (s : State) (v : Nv) : (s.withNv v).thm = s.thm := rfl
@[simp] theorem State.withNv_dram (s : State) (v : Nv) : (s.withNv v).dram = s.dram := rfl
@[simp] theorem State.withNv_chk (s : State) (v : Nv) : (s.withNv v).chk = s.chk := rfl
@[simp] theorem State.withNv_herder (s : State) (v : Nv) : (s.withNv v).herder = s.herder := rfl
@[simp] theorem State.withNv_pwr (s : State) (v : Nv) : (s.withNv v).pwr = s.pwr := rfl
@[simp] theorem State.withNv_pins (s : State) (v : Nv) : (s.withNv v).pins = s.pins := rfl
@[simp] theorem State.withNv_out (s : State) (v : Nv) : (s.withNv v).out = s.out := rfl
@[simp] theorem State.withNv_freeCtr (s : State) (v : Nv) : (s.withNv v).freeCtr = s.freeCtr := rfl
@[simp] theorem State.withNv_pending (s : State) (v : Nv) : (s.withNv v).pending = s.pending := rfl
@[simp] theorem State.withAo_part (s : State) (v : Ao) : (s.withAo v).part = s.part := rfl
@[simp] theorem State.withAo_regs (s : State) (v : Ao) : (s.withAo v).regs = s.regs := rfl
@[simp] theorem State.withAo_latch (s : State) (v : Ao) : (s.withAo v).latch = s.latch := rfl
@[simp] theorem State.withAo_nv (s : State) (v : Ao) : (s.withAo v).nv = s.nv := rfl
@[simp] theorem State.withAo_ao (s : State) (v : Ao) : (s.withAo v).ao = v := rfl
@[simp] theorem State.withAo_fold (s : State) (v : Ao) : (s.withAo v).fold = s.fold := rfl
@[simp] theorem State.withAo_box (s : State) (v : Ao) : (s.withAo v).box = s.box := rfl
@[simp] theorem State.withAo_sec (s : State) (v : Ao) : (s.withAo v).sec = s.sec := rfl
@[simp] theorem State.withAo_evt (s : State) (v : Ao) : (s.withAo v).evt = s.evt := rfl
@[simp] theorem State.withAo_pci (s : State) (v : Ao) : (s.withAo v).pci = s.pci := rfl
@[simp] theorem State.withAo_mdio (s : State) (v : Ao) : (s.withAo v).mdio = s.mdio := rfl
@[simp] theorem State.withAo_cen (s : State) (v : Ao) : (s.withAo v).cen = s.cen := rfl
@[simp] theorem State.withAo_evid (s : State) (v : Ao) : (s.withAo v).evid = s.evid := rfl
@[simp] theorem State.withAo_pch (s : State) (v : Ao) : (s.withAo v).pch = s.pch := rfl
@[simp] theorem State.withAo_bank (s : State) (v : Ao) : (s.withAo v).bank = s.bank := rfl
@[simp] theorem State.withAo_line (s : State) (v : Ao) : (s.withAo v).line = s.line := rfl
@[simp] theorem State.withAo_pad (s : State) (v : Ao) : (s.withAo v).pad = s.pad := rfl
@[simp] theorem State.withAo_lane (s : State) (v : Ao) : (s.withAo v).lane = s.lane := rfl
@[simp] theorem State.withAo_trv (s : State) (v : Ao) : (s.withAo v).trv = s.trv := rfl
@[simp] theorem State.withAo_drv (s : State) (v : Ao) : (s.withAo v).drv = s.drv := rfl
@[simp] theorem State.withAo_apply (s : State) (v : Ao) : (s.withAo v).apply = s.apply := rfl
@[simp] theorem State.withAo_pos (s : State) (v : Ao) : (s.withAo v).pos = s.pos := rfl
@[simp] theorem State.withAo_piste (s : State) (v : Ao) : (s.withAo v).piste = s.piste := rfl
@[simp] theorem State.withAo_cal (s : State) (v : Ao) : (s.withAo v).cal = s.cal := rfl
@[simp] theorem State.withAo_diag (s : State) (v : Ao) : (s.withAo v).diag = s.diag := rfl
@[simp] theorem State.withAo_clk (s : State) (v : Ao) : (s.withAo v).clk = s.clk := rfl
@[simp] theorem State.withAo_start (s : State) (v : Ao) : (s.withAo v).start = s.start := rfl
@[simp] theorem State.withAo_tst (s : State) (v : Ao) : (s.withAo v).tst = s.tst := rfl
@[simp] theorem State.withAo_thm (s : State) (v : Ao) : (s.withAo v).thm = s.thm := rfl
@[simp] theorem State.withAo_dram (s : State) (v : Ao) : (s.withAo v).dram = s.dram := rfl
@[simp] theorem State.withAo_chk (s : State) (v : Ao) : (s.withAo v).chk = s.chk := rfl
@[simp] theorem State.withAo_herder (s : State) (v : Ao) : (s.withAo v).herder = s.herder := rfl
@[simp] theorem State.withAo_pwr (s : State) (v : Ao) : (s.withAo v).pwr = s.pwr := rfl
@[simp] theorem State.withAo_pins (s : State) (v : Ao) : (s.withAo v).pins = s.pins := rfl
@[simp] theorem State.withAo_out (s : State) (v : Ao) : (s.withAo v).out = s.out := rfl
@[simp] theorem State.withAo_freeCtr (s : State) (v : Ao) : (s.withAo v).freeCtr = s.freeCtr := rfl
@[simp] theorem State.withAo_pending (s : State) (v : Ao) : (s.withAo v).pending = s.pending := rfl
@[simp] theorem State.withFold_part (s : State) (v : Fold) : (s.withFold v).part = s.part := rfl
@[simp] theorem State.withFold_regs (s : State) (v : Fold) : (s.withFold v).regs = s.regs := rfl
@[simp] theorem State.withFold_latch (s : State) (v : Fold) : (s.withFold v).latch = s.latch := rfl
@[simp] theorem State.withFold_nv (s : State) (v : Fold) : (s.withFold v).nv = s.nv := rfl
@[simp] theorem State.withFold_ao (s : State) (v : Fold) : (s.withFold v).ao = s.ao := rfl
@[simp] theorem State.withFold_fold (s : State) (v : Fold) : (s.withFold v).fold = v := rfl
@[simp] theorem State.withFold_box (s : State) (v : Fold) : (s.withFold v).box = s.box := rfl
@[simp] theorem State.withFold_sec (s : State) (v : Fold) : (s.withFold v).sec = s.sec := rfl
@[simp] theorem State.withFold_evt (s : State) (v : Fold) : (s.withFold v).evt = s.evt := rfl
@[simp] theorem State.withFold_pci (s : State) (v : Fold) : (s.withFold v).pci = s.pci := rfl
@[simp] theorem State.withFold_mdio (s : State) (v : Fold) : (s.withFold v).mdio = s.mdio := rfl
@[simp] theorem State.withFold_cen (s : State) (v : Fold) : (s.withFold v).cen = s.cen := rfl
@[simp] theorem State.withFold_evid (s : State) (v : Fold) : (s.withFold v).evid = s.evid := rfl
@[simp] theorem State.withFold_pch (s : State) (v : Fold) : (s.withFold v).pch = s.pch := rfl
@[simp] theorem State.withFold_bank (s : State) (v : Fold) : (s.withFold v).bank = s.bank := rfl
@[simp] theorem State.withFold_line (s : State) (v : Fold) : (s.withFold v).line = s.line := rfl
@[simp] theorem State.withFold_pad (s : State) (v : Fold) : (s.withFold v).pad = s.pad := rfl
@[simp] theorem State.withFold_lane (s : State) (v : Fold) : (s.withFold v).lane = s.lane := rfl
@[simp] theorem State.withFold_trv (s : State) (v : Fold) : (s.withFold v).trv = s.trv := rfl
@[simp] theorem State.withFold_drv (s : State) (v : Fold) : (s.withFold v).drv = s.drv := rfl
@[simp] theorem State.withFold_apply (s : State) (v : Fold) : (s.withFold v).apply = s.apply := rfl
@[simp] theorem State.withFold_pos (s : State) (v : Fold) : (s.withFold v).pos = s.pos := rfl
@[simp] theorem State.withFold_piste (s : State) (v : Fold) : (s.withFold v).piste = s.piste := rfl
@[simp] theorem State.withFold_cal (s : State) (v : Fold) : (s.withFold v).cal = s.cal := rfl
@[simp] theorem State.withFold_diag (s : State) (v : Fold) : (s.withFold v).diag = s.diag := rfl
@[simp] theorem State.withFold_clk (s : State) (v : Fold) : (s.withFold v).clk = s.clk := rfl
@[simp] theorem State.withFold_start (s : State) (v : Fold) : (s.withFold v).start = s.start := rfl
@[simp] theorem State.withFold_tst (s : State) (v : Fold) : (s.withFold v).tst = s.tst := rfl
@[simp] theorem State.withFold_thm (s : State) (v : Fold) : (s.withFold v).thm = s.thm := rfl
@[simp] theorem State.withFold_dram (s : State) (v : Fold) : (s.withFold v).dram = s.dram := rfl
@[simp] theorem State.withFold_chk (s : State) (v : Fold) : (s.withFold v).chk = s.chk := rfl
@[simp] theorem State.withFold_herder (s : State) (v : Fold) : (s.withFold v).herder = s.herder := rfl
@[simp] theorem State.withFold_pwr (s : State) (v : Fold) : (s.withFold v).pwr = s.pwr := rfl
@[simp] theorem State.withFold_pins (s : State) (v : Fold) : (s.withFold v).pins = s.pins := rfl
@[simp] theorem State.withFold_out (s : State) (v : Fold) : (s.withFold v).out = s.out := rfl
@[simp] theorem State.withFold_freeCtr (s : State) (v : Fold) : (s.withFold v).freeCtr = s.freeCtr := rfl
@[simp] theorem State.withFold_pending (s : State) (v : Fold) : (s.withFold v).pending = s.pending := rfl
@[simp] theorem State.withBox_part (s : State) (v : Box) : (s.withBox v).part = s.part := rfl
@[simp] theorem State.withBox_regs (s : State) (v : Box) : (s.withBox v).regs = s.regs := rfl
@[simp] theorem State.withBox_latch (s : State) (v : Box) : (s.withBox v).latch = s.latch := rfl
@[simp] theorem State.withBox_nv (s : State) (v : Box) : (s.withBox v).nv = s.nv := rfl
@[simp] theorem State.withBox_ao (s : State) (v : Box) : (s.withBox v).ao = s.ao := rfl
@[simp] theorem State.withBox_fold (s : State) (v : Box) : (s.withBox v).fold = s.fold := rfl
@[simp] theorem State.withBox_box (s : State) (v : Box) : (s.withBox v).box = v := rfl
@[simp] theorem State.withBox_sec (s : State) (v : Box) : (s.withBox v).sec = s.sec := rfl
@[simp] theorem State.withBox_evt (s : State) (v : Box) : (s.withBox v).evt = s.evt := rfl
@[simp] theorem State.withBox_pci (s : State) (v : Box) : (s.withBox v).pci = s.pci := rfl
@[simp] theorem State.withBox_mdio (s : State) (v : Box) : (s.withBox v).mdio = s.mdio := rfl
@[simp] theorem State.withBox_cen (s : State) (v : Box) : (s.withBox v).cen = s.cen := rfl
@[simp] theorem State.withBox_evid (s : State) (v : Box) : (s.withBox v).evid = s.evid := rfl
@[simp] theorem State.withBox_pch (s : State) (v : Box) : (s.withBox v).pch = s.pch := rfl
@[simp] theorem State.withBox_bank (s : State) (v : Box) : (s.withBox v).bank = s.bank := rfl
@[simp] theorem State.withBox_line (s : State) (v : Box) : (s.withBox v).line = s.line := rfl
@[simp] theorem State.withBox_pad (s : State) (v : Box) : (s.withBox v).pad = s.pad := rfl
@[simp] theorem State.withBox_lane (s : State) (v : Box) : (s.withBox v).lane = s.lane := rfl
@[simp] theorem State.withBox_trv (s : State) (v : Box) : (s.withBox v).trv = s.trv := rfl
@[simp] theorem State.withBox_drv (s : State) (v : Box) : (s.withBox v).drv = s.drv := rfl
@[simp] theorem State.withBox_apply (s : State) (v : Box) : (s.withBox v).apply = s.apply := rfl
@[simp] theorem State.withBox_pos (s : State) (v : Box) : (s.withBox v).pos = s.pos := rfl
@[simp] theorem State.withBox_piste (s : State) (v : Box) : (s.withBox v).piste = s.piste := rfl
@[simp] theorem State.withBox_cal (s : State) (v : Box) : (s.withBox v).cal = s.cal := rfl
@[simp] theorem State.withBox_diag (s : State) (v : Box) : (s.withBox v).diag = s.diag := rfl
@[simp] theorem State.withBox_clk (s : State) (v : Box) : (s.withBox v).clk = s.clk := rfl
@[simp] theorem State.withBox_start (s : State) (v : Box) : (s.withBox v).start = s.start := rfl
@[simp] theorem State.withBox_tst (s : State) (v : Box) : (s.withBox v).tst = s.tst := rfl
@[simp] theorem State.withBox_thm (s : State) (v : Box) : (s.withBox v).thm = s.thm := rfl
@[simp] theorem State.withBox_dram (s : State) (v : Box) : (s.withBox v).dram = s.dram := rfl
@[simp] theorem State.withBox_chk (s : State) (v : Box) : (s.withBox v).chk = s.chk := rfl
@[simp] theorem State.withBox_herder (s : State) (v : Box) : (s.withBox v).herder = s.herder := rfl
@[simp] theorem State.withBox_pwr (s : State) (v : Box) : (s.withBox v).pwr = s.pwr := rfl
@[simp] theorem State.withBox_pins (s : State) (v : Box) : (s.withBox v).pins = s.pins := rfl
@[simp] theorem State.withBox_out (s : State) (v : Box) : (s.withBox v).out = s.out := rfl
@[simp] theorem State.withBox_freeCtr (s : State) (v : Box) : (s.withBox v).freeCtr = s.freeCtr := rfl
@[simp] theorem State.withBox_pending (s : State) (v : Box) : (s.withBox v).pending = s.pending := rfl
@[simp] theorem State.withSec_part (s : State) (v : Sec) : (s.withSec v).part = s.part := rfl
@[simp] theorem State.withSec_regs (s : State) (v : Sec) : (s.withSec v).regs = s.regs := rfl
@[simp] theorem State.withSec_latch (s : State) (v : Sec) : (s.withSec v).latch = s.latch := rfl
@[simp] theorem State.withSec_nv (s : State) (v : Sec) : (s.withSec v).nv = s.nv := rfl
@[simp] theorem State.withSec_ao (s : State) (v : Sec) : (s.withSec v).ao = s.ao := rfl
@[simp] theorem State.withSec_fold (s : State) (v : Sec) : (s.withSec v).fold = s.fold := rfl
@[simp] theorem State.withSec_box (s : State) (v : Sec) : (s.withSec v).box = s.box := rfl
@[simp] theorem State.withSec_sec (s : State) (v : Sec) : (s.withSec v).sec = v := rfl
@[simp] theorem State.withSec_evt (s : State) (v : Sec) : (s.withSec v).evt = s.evt := rfl
@[simp] theorem State.withSec_pci (s : State) (v : Sec) : (s.withSec v).pci = s.pci := rfl
@[simp] theorem State.withSec_mdio (s : State) (v : Sec) : (s.withSec v).mdio = s.mdio := rfl
@[simp] theorem State.withSec_cen (s : State) (v : Sec) : (s.withSec v).cen = s.cen := rfl
@[simp] theorem State.withSec_evid (s : State) (v : Sec) : (s.withSec v).evid = s.evid := rfl
@[simp] theorem State.withSec_pch (s : State) (v : Sec) : (s.withSec v).pch = s.pch := rfl
@[simp] theorem State.withSec_bank (s : State) (v : Sec) : (s.withSec v).bank = s.bank := rfl
@[simp] theorem State.withSec_line (s : State) (v : Sec) : (s.withSec v).line = s.line := rfl
@[simp] theorem State.withSec_pad (s : State) (v : Sec) : (s.withSec v).pad = s.pad := rfl
@[simp] theorem State.withSec_lane (s : State) (v : Sec) : (s.withSec v).lane = s.lane := rfl
@[simp] theorem State.withSec_trv (s : State) (v : Sec) : (s.withSec v).trv = s.trv := rfl
@[simp] theorem State.withSec_drv (s : State) (v : Sec) : (s.withSec v).drv = s.drv := rfl
@[simp] theorem State.withSec_apply (s : State) (v : Sec) : (s.withSec v).apply = s.apply := rfl
@[simp] theorem State.withSec_pos (s : State) (v : Sec) : (s.withSec v).pos = s.pos := rfl
@[simp] theorem State.withSec_piste (s : State) (v : Sec) : (s.withSec v).piste = s.piste := rfl
@[simp] theorem State.withSec_cal (s : State) (v : Sec) : (s.withSec v).cal = s.cal := rfl
@[simp] theorem State.withSec_diag (s : State) (v : Sec) : (s.withSec v).diag = s.diag := rfl
@[simp] theorem State.withSec_clk (s : State) (v : Sec) : (s.withSec v).clk = s.clk := rfl
@[simp] theorem State.withSec_start (s : State) (v : Sec) : (s.withSec v).start = s.start := rfl
@[simp] theorem State.withSec_tst (s : State) (v : Sec) : (s.withSec v).tst = s.tst := rfl
@[simp] theorem State.withSec_thm (s : State) (v : Sec) : (s.withSec v).thm = s.thm := rfl
@[simp] theorem State.withSec_dram (s : State) (v : Sec) : (s.withSec v).dram = s.dram := rfl
@[simp] theorem State.withSec_chk (s : State) (v : Sec) : (s.withSec v).chk = s.chk := rfl
@[simp] theorem State.withSec_herder (s : State) (v : Sec) : (s.withSec v).herder = s.herder := rfl
@[simp] theorem State.withSec_pwr (s : State) (v : Sec) : (s.withSec v).pwr = s.pwr := rfl
@[simp] theorem State.withSec_pins (s : State) (v : Sec) : (s.withSec v).pins = s.pins := rfl
@[simp] theorem State.withSec_out (s : State) (v : Sec) : (s.withSec v).out = s.out := rfl
@[simp] theorem State.withSec_freeCtr (s : State) (v : Sec) : (s.withSec v).freeCtr = s.freeCtr := rfl
@[simp] theorem State.withSec_pending (s : State) (v : Sec) : (s.withSec v).pending = s.pending := rfl
@[simp] theorem State.withEvt_part (s : State) (v : Evt) : (s.withEvt v).part = s.part := rfl
@[simp] theorem State.withEvt_regs (s : State) (v : Evt) : (s.withEvt v).regs = s.regs := rfl
@[simp] theorem State.withEvt_latch (s : State) (v : Evt) : (s.withEvt v).latch = s.latch := rfl
@[simp] theorem State.withEvt_nv (s : State) (v : Evt) : (s.withEvt v).nv = s.nv := rfl
@[simp] theorem State.withEvt_ao (s : State) (v : Evt) : (s.withEvt v).ao = s.ao := rfl
@[simp] theorem State.withEvt_fold (s : State) (v : Evt) : (s.withEvt v).fold = s.fold := rfl
@[simp] theorem State.withEvt_box (s : State) (v : Evt) : (s.withEvt v).box = s.box := rfl
@[simp] theorem State.withEvt_sec (s : State) (v : Evt) : (s.withEvt v).sec = s.sec := rfl
@[simp] theorem State.withEvt_evt (s : State) (v : Evt) : (s.withEvt v).evt = v := rfl
@[simp] theorem State.withEvt_pci (s : State) (v : Evt) : (s.withEvt v).pci = s.pci := rfl
@[simp] theorem State.withEvt_mdio (s : State) (v : Evt) : (s.withEvt v).mdio = s.mdio := rfl
@[simp] theorem State.withEvt_cen (s : State) (v : Evt) : (s.withEvt v).cen = s.cen := rfl
@[simp] theorem State.withEvt_evid (s : State) (v : Evt) : (s.withEvt v).evid = s.evid := rfl
@[simp] theorem State.withEvt_pch (s : State) (v : Evt) : (s.withEvt v).pch = s.pch := rfl
@[simp] theorem State.withEvt_bank (s : State) (v : Evt) : (s.withEvt v).bank = s.bank := rfl
@[simp] theorem State.withEvt_line (s : State) (v : Evt) : (s.withEvt v).line = s.line := rfl
@[simp] theorem State.withEvt_pad (s : State) (v : Evt) : (s.withEvt v).pad = s.pad := rfl
@[simp] theorem State.withEvt_lane (s : State) (v : Evt) : (s.withEvt v).lane = s.lane := rfl
@[simp] theorem State.withEvt_trv (s : State) (v : Evt) : (s.withEvt v).trv = s.trv := rfl
@[simp] theorem State.withEvt_drv (s : State) (v : Evt) : (s.withEvt v).drv = s.drv := rfl
@[simp] theorem State.withEvt_apply (s : State) (v : Evt) : (s.withEvt v).apply = s.apply := rfl
@[simp] theorem State.withEvt_pos (s : State) (v : Evt) : (s.withEvt v).pos = s.pos := rfl
@[simp] theorem State.withEvt_piste (s : State) (v : Evt) : (s.withEvt v).piste = s.piste := rfl
@[simp] theorem State.withEvt_cal (s : State) (v : Evt) : (s.withEvt v).cal = s.cal := rfl
@[simp] theorem State.withEvt_diag (s : State) (v : Evt) : (s.withEvt v).diag = s.diag := rfl
@[simp] theorem State.withEvt_clk (s : State) (v : Evt) : (s.withEvt v).clk = s.clk := rfl
@[simp] theorem State.withEvt_start (s : State) (v : Evt) : (s.withEvt v).start = s.start := rfl
@[simp] theorem State.withEvt_tst (s : State) (v : Evt) : (s.withEvt v).tst = s.tst := rfl
@[simp] theorem State.withEvt_thm (s : State) (v : Evt) : (s.withEvt v).thm = s.thm := rfl
@[simp] theorem State.withEvt_dram (s : State) (v : Evt) : (s.withEvt v).dram = s.dram := rfl
@[simp] theorem State.withEvt_chk (s : State) (v : Evt) : (s.withEvt v).chk = s.chk := rfl
@[simp] theorem State.withEvt_herder (s : State) (v : Evt) : (s.withEvt v).herder = s.herder := rfl
@[simp] theorem State.withEvt_pwr (s : State) (v : Evt) : (s.withEvt v).pwr = s.pwr := rfl
@[simp] theorem State.withEvt_pins (s : State) (v : Evt) : (s.withEvt v).pins = s.pins := rfl
@[simp] theorem State.withEvt_out (s : State) (v : Evt) : (s.withEvt v).out = s.out := rfl
@[simp] theorem State.withEvt_freeCtr (s : State) (v : Evt) : (s.withEvt v).freeCtr = s.freeCtr := rfl
@[simp] theorem State.withEvt_pending (s : State) (v : Evt) : (s.withEvt v).pending = s.pending := rfl
@[simp] theorem State.withPci_part (s : State) (v : Pci) : (s.withPci v).part = s.part := rfl
@[simp] theorem State.withPci_regs (s : State) (v : Pci) : (s.withPci v).regs = s.regs := rfl
@[simp] theorem State.withPci_latch (s : State) (v : Pci) : (s.withPci v).latch = s.latch := rfl
@[simp] theorem State.withPci_nv (s : State) (v : Pci) : (s.withPci v).nv = s.nv := rfl
@[simp] theorem State.withPci_ao (s : State) (v : Pci) : (s.withPci v).ao = s.ao := rfl
@[simp] theorem State.withPci_fold (s : State) (v : Pci) : (s.withPci v).fold = s.fold := rfl
@[simp] theorem State.withPci_box (s : State) (v : Pci) : (s.withPci v).box = s.box := rfl
@[simp] theorem State.withPci_sec (s : State) (v : Pci) : (s.withPci v).sec = s.sec := rfl
@[simp] theorem State.withPci_evt (s : State) (v : Pci) : (s.withPci v).evt = s.evt := rfl
@[simp] theorem State.withPci_pci (s : State) (v : Pci) : (s.withPci v).pci = v := rfl
@[simp] theorem State.withPci_mdio (s : State) (v : Pci) : (s.withPci v).mdio = s.mdio := rfl
@[simp] theorem State.withPci_cen (s : State) (v : Pci) : (s.withPci v).cen = s.cen := rfl
@[simp] theorem State.withPci_evid (s : State) (v : Pci) : (s.withPci v).evid = s.evid := rfl
@[simp] theorem State.withPci_pch (s : State) (v : Pci) : (s.withPci v).pch = s.pch := rfl
@[simp] theorem State.withPci_bank (s : State) (v : Pci) : (s.withPci v).bank = s.bank := rfl
@[simp] theorem State.withPci_line (s : State) (v : Pci) : (s.withPci v).line = s.line := rfl
@[simp] theorem State.withPci_pad (s : State) (v : Pci) : (s.withPci v).pad = s.pad := rfl
@[simp] theorem State.withPci_lane (s : State) (v : Pci) : (s.withPci v).lane = s.lane := rfl
@[simp] theorem State.withPci_trv (s : State) (v : Pci) : (s.withPci v).trv = s.trv := rfl
@[simp] theorem State.withPci_drv (s : State) (v : Pci) : (s.withPci v).drv = s.drv := rfl
@[simp] theorem State.withPci_apply (s : State) (v : Pci) : (s.withPci v).apply = s.apply := rfl
@[simp] theorem State.withPci_pos (s : State) (v : Pci) : (s.withPci v).pos = s.pos := rfl
@[simp] theorem State.withPci_piste (s : State) (v : Pci) : (s.withPci v).piste = s.piste := rfl
@[simp] theorem State.withPci_cal (s : State) (v : Pci) : (s.withPci v).cal = s.cal := rfl
@[simp] theorem State.withPci_diag (s : State) (v : Pci) : (s.withPci v).diag = s.diag := rfl
@[simp] theorem State.withPci_clk (s : State) (v : Pci) : (s.withPci v).clk = s.clk := rfl
@[simp] theorem State.withPci_start (s : State) (v : Pci) : (s.withPci v).start = s.start := rfl
@[simp] theorem State.withPci_tst (s : State) (v : Pci) : (s.withPci v).tst = s.tst := rfl
@[simp] theorem State.withPci_thm (s : State) (v : Pci) : (s.withPci v).thm = s.thm := rfl
@[simp] theorem State.withPci_dram (s : State) (v : Pci) : (s.withPci v).dram = s.dram := rfl
@[simp] theorem State.withPci_chk (s : State) (v : Pci) : (s.withPci v).chk = s.chk := rfl
@[simp] theorem State.withPci_herder (s : State) (v : Pci) : (s.withPci v).herder = s.herder := rfl
@[simp] theorem State.withPci_pwr (s : State) (v : Pci) : (s.withPci v).pwr = s.pwr := rfl
@[simp] theorem State.withPci_pins (s : State) (v : Pci) : (s.withPci v).pins = s.pins := rfl
@[simp] theorem State.withPci_out (s : State) (v : Pci) : (s.withPci v).out = s.out := rfl
@[simp] theorem State.withPci_freeCtr (s : State) (v : Pci) : (s.withPci v).freeCtr = s.freeCtr := rfl
@[simp] theorem State.withPci_pending (s : State) (v : Pci) : (s.withPci v).pending = s.pending := rfl
@[simp] theorem State.withMdio_part (s : State) (v : Mdio) : (s.withMdio v).part = s.part := rfl
@[simp] theorem State.withMdio_regs (s : State) (v : Mdio) : (s.withMdio v).regs = s.regs := rfl
@[simp] theorem State.withMdio_latch (s : State) (v : Mdio) : (s.withMdio v).latch = s.latch := rfl
@[simp] theorem State.withMdio_nv (s : State) (v : Mdio) : (s.withMdio v).nv = s.nv := rfl
@[simp] theorem State.withMdio_ao (s : State) (v : Mdio) : (s.withMdio v).ao = s.ao := rfl
@[simp] theorem State.withMdio_fold (s : State) (v : Mdio) : (s.withMdio v).fold = s.fold := rfl
@[simp] theorem State.withMdio_box (s : State) (v : Mdio) : (s.withMdio v).box = s.box := rfl
@[simp] theorem State.withMdio_sec (s : State) (v : Mdio) : (s.withMdio v).sec = s.sec := rfl
@[simp] theorem State.withMdio_evt (s : State) (v : Mdio) : (s.withMdio v).evt = s.evt := rfl
@[simp] theorem State.withMdio_pci (s : State) (v : Mdio) : (s.withMdio v).pci = s.pci := rfl
@[simp] theorem State.withMdio_mdio (s : State) (v : Mdio) : (s.withMdio v).mdio = v := rfl
@[simp] theorem State.withMdio_cen (s : State) (v : Mdio) : (s.withMdio v).cen = s.cen := rfl
@[simp] theorem State.withMdio_evid (s : State) (v : Mdio) : (s.withMdio v).evid = s.evid := rfl
@[simp] theorem State.withMdio_pch (s : State) (v : Mdio) : (s.withMdio v).pch = s.pch := rfl
@[simp] theorem State.withMdio_bank (s : State) (v : Mdio) : (s.withMdio v).bank = s.bank := rfl
@[simp] theorem State.withMdio_line (s : State) (v : Mdio) : (s.withMdio v).line = s.line := rfl
@[simp] theorem State.withMdio_pad (s : State) (v : Mdio) : (s.withMdio v).pad = s.pad := rfl
@[simp] theorem State.withMdio_lane (s : State) (v : Mdio) : (s.withMdio v).lane = s.lane := rfl
@[simp] theorem State.withMdio_trv (s : State) (v : Mdio) : (s.withMdio v).trv = s.trv := rfl
@[simp] theorem State.withMdio_drv (s : State) (v : Mdio) : (s.withMdio v).drv = s.drv := rfl
@[simp] theorem State.withMdio_apply (s : State) (v : Mdio) : (s.withMdio v).apply = s.apply := rfl
@[simp] theorem State.withMdio_pos (s : State) (v : Mdio) : (s.withMdio v).pos = s.pos := rfl
@[simp] theorem State.withMdio_piste (s : State) (v : Mdio) : (s.withMdio v).piste = s.piste := rfl
@[simp] theorem State.withMdio_cal (s : State) (v : Mdio) : (s.withMdio v).cal = s.cal := rfl
@[simp] theorem State.withMdio_diag (s : State) (v : Mdio) : (s.withMdio v).diag = s.diag := rfl
@[simp] theorem State.withMdio_clk (s : State) (v : Mdio) : (s.withMdio v).clk = s.clk := rfl
@[simp] theorem State.withMdio_start (s : State) (v : Mdio) : (s.withMdio v).start = s.start := rfl
@[simp] theorem State.withMdio_tst (s : State) (v : Mdio) : (s.withMdio v).tst = s.tst := rfl
@[simp] theorem State.withMdio_thm (s : State) (v : Mdio) : (s.withMdio v).thm = s.thm := rfl
@[simp] theorem State.withMdio_dram (s : State) (v : Mdio) : (s.withMdio v).dram = s.dram := rfl
@[simp] theorem State.withMdio_chk (s : State) (v : Mdio) : (s.withMdio v).chk = s.chk := rfl
@[simp] theorem State.withMdio_herder (s : State) (v : Mdio) : (s.withMdio v).herder = s.herder := rfl
@[simp] theorem State.withMdio_pwr (s : State) (v : Mdio) : (s.withMdio v).pwr = s.pwr := rfl
@[simp] theorem State.withMdio_pins (s : State) (v : Mdio) : (s.withMdio v).pins = s.pins := rfl
@[simp] theorem State.withMdio_out (s : State) (v : Mdio) : (s.withMdio v).out = s.out := rfl
@[simp] theorem State.withMdio_freeCtr (s : State) (v : Mdio) : (s.withMdio v).freeCtr = s.freeCtr := rfl
@[simp] theorem State.withMdio_pending (s : State) (v : Mdio) : (s.withMdio v).pending = s.pending := rfl
@[simp] theorem State.withCen_part (s : State) (v : Cen) : (s.withCen v).part = s.part := rfl
@[simp] theorem State.withCen_regs (s : State) (v : Cen) : (s.withCen v).regs = s.regs := rfl
@[simp] theorem State.withCen_latch (s : State) (v : Cen) : (s.withCen v).latch = s.latch := rfl
@[simp] theorem State.withCen_nv (s : State) (v : Cen) : (s.withCen v).nv = s.nv := rfl
@[simp] theorem State.withCen_ao (s : State) (v : Cen) : (s.withCen v).ao = s.ao := rfl
@[simp] theorem State.withCen_fold (s : State) (v : Cen) : (s.withCen v).fold = s.fold := rfl
@[simp] theorem State.withCen_box (s : State) (v : Cen) : (s.withCen v).box = s.box := rfl
@[simp] theorem State.withCen_sec (s : State) (v : Cen) : (s.withCen v).sec = s.sec := rfl
@[simp] theorem State.withCen_evt (s : State) (v : Cen) : (s.withCen v).evt = s.evt := rfl
@[simp] theorem State.withCen_pci (s : State) (v : Cen) : (s.withCen v).pci = s.pci := rfl
@[simp] theorem State.withCen_mdio (s : State) (v : Cen) : (s.withCen v).mdio = s.mdio := rfl
@[simp] theorem State.withCen_cen (s : State) (v : Cen) : (s.withCen v).cen = v := rfl
@[simp] theorem State.withCen_evid (s : State) (v : Cen) : (s.withCen v).evid = s.evid := rfl
@[simp] theorem State.withCen_pch (s : State) (v : Cen) : (s.withCen v).pch = s.pch := rfl
@[simp] theorem State.withCen_bank (s : State) (v : Cen) : (s.withCen v).bank = s.bank := rfl
@[simp] theorem State.withCen_line (s : State) (v : Cen) : (s.withCen v).line = s.line := rfl
@[simp] theorem State.withCen_pad (s : State) (v : Cen) : (s.withCen v).pad = s.pad := rfl
@[simp] theorem State.withCen_lane (s : State) (v : Cen) : (s.withCen v).lane = s.lane := rfl
@[simp] theorem State.withCen_trv (s : State) (v : Cen) : (s.withCen v).trv = s.trv := rfl
@[simp] theorem State.withCen_drv (s : State) (v : Cen) : (s.withCen v).drv = s.drv := rfl
@[simp] theorem State.withCen_apply (s : State) (v : Cen) : (s.withCen v).apply = s.apply := rfl
@[simp] theorem State.withCen_pos (s : State) (v : Cen) : (s.withCen v).pos = s.pos := rfl
@[simp] theorem State.withCen_piste (s : State) (v : Cen) : (s.withCen v).piste = s.piste := rfl
@[simp] theorem State.withCen_cal (s : State) (v : Cen) : (s.withCen v).cal = s.cal := rfl
@[simp] theorem State.withCen_diag (s : State) (v : Cen) : (s.withCen v).diag = s.diag := rfl
@[simp] theorem State.withCen_clk (s : State) (v : Cen) : (s.withCen v).clk = s.clk := rfl
@[simp] theorem State.withCen_start (s : State) (v : Cen) : (s.withCen v).start = s.start := rfl
@[simp] theorem State.withCen_tst (s : State) (v : Cen) : (s.withCen v).tst = s.tst := rfl
@[simp] theorem State.withCen_thm (s : State) (v : Cen) : (s.withCen v).thm = s.thm := rfl
@[simp] theorem State.withCen_dram (s : State) (v : Cen) : (s.withCen v).dram = s.dram := rfl
@[simp] theorem State.withCen_chk (s : State) (v : Cen) : (s.withCen v).chk = s.chk := rfl
@[simp] theorem State.withCen_herder (s : State) (v : Cen) : (s.withCen v).herder = s.herder := rfl
@[simp] theorem State.withCen_pwr (s : State) (v : Cen) : (s.withCen v).pwr = s.pwr := rfl
@[simp] theorem State.withCen_pins (s : State) (v : Cen) : (s.withCen v).pins = s.pins := rfl
@[simp] theorem State.withCen_out (s : State) (v : Cen) : (s.withCen v).out = s.out := rfl
@[simp] theorem State.withCen_freeCtr (s : State) (v : Cen) : (s.withCen v).freeCtr = s.freeCtr := rfl
@[simp] theorem State.withCen_pending (s : State) (v : Cen) : (s.withCen v).pending = s.pending := rfl
@[simp] theorem State.withEvid_part (s : State) (v : Evid) : (s.withEvid v).part = s.part := rfl
@[simp] theorem State.withEvid_regs (s : State) (v : Evid) : (s.withEvid v).regs = s.regs := rfl
@[simp] theorem State.withEvid_latch (s : State) (v : Evid) : (s.withEvid v).latch = s.latch := rfl
@[simp] theorem State.withEvid_nv (s : State) (v : Evid) : (s.withEvid v).nv = s.nv := rfl
@[simp] theorem State.withEvid_ao (s : State) (v : Evid) : (s.withEvid v).ao = s.ao := rfl
@[simp] theorem State.withEvid_fold (s : State) (v : Evid) : (s.withEvid v).fold = s.fold := rfl
@[simp] theorem State.withEvid_box (s : State) (v : Evid) : (s.withEvid v).box = s.box := rfl
@[simp] theorem State.withEvid_sec (s : State) (v : Evid) : (s.withEvid v).sec = s.sec := rfl
@[simp] theorem State.withEvid_evt (s : State) (v : Evid) : (s.withEvid v).evt = s.evt := rfl
@[simp] theorem State.withEvid_pci (s : State) (v : Evid) : (s.withEvid v).pci = s.pci := rfl
@[simp] theorem State.withEvid_mdio (s : State) (v : Evid) : (s.withEvid v).mdio = s.mdio := rfl
@[simp] theorem State.withEvid_cen (s : State) (v : Evid) : (s.withEvid v).cen = s.cen := rfl
@[simp] theorem State.withEvid_evid (s : State) (v : Evid) : (s.withEvid v).evid = v := rfl
@[simp] theorem State.withEvid_pch (s : State) (v : Evid) : (s.withEvid v).pch = s.pch := rfl
@[simp] theorem State.withEvid_bank (s : State) (v : Evid) : (s.withEvid v).bank = s.bank := rfl
@[simp] theorem State.withEvid_line (s : State) (v : Evid) : (s.withEvid v).line = s.line := rfl
@[simp] theorem State.withEvid_pad (s : State) (v : Evid) : (s.withEvid v).pad = s.pad := rfl
@[simp] theorem State.withEvid_lane (s : State) (v : Evid) : (s.withEvid v).lane = s.lane := rfl
@[simp] theorem State.withEvid_trv (s : State) (v : Evid) : (s.withEvid v).trv = s.trv := rfl
@[simp] theorem State.withEvid_drv (s : State) (v : Evid) : (s.withEvid v).drv = s.drv := rfl
@[simp] theorem State.withEvid_apply (s : State) (v : Evid) : (s.withEvid v).apply = s.apply := rfl
@[simp] theorem State.withEvid_pos (s : State) (v : Evid) : (s.withEvid v).pos = s.pos := rfl
@[simp] theorem State.withEvid_piste (s : State) (v : Evid) : (s.withEvid v).piste = s.piste := rfl
@[simp] theorem State.withEvid_cal (s : State) (v : Evid) : (s.withEvid v).cal = s.cal := rfl
@[simp] theorem State.withEvid_diag (s : State) (v : Evid) : (s.withEvid v).diag = s.diag := rfl
@[simp] theorem State.withEvid_clk (s : State) (v : Evid) : (s.withEvid v).clk = s.clk := rfl
@[simp] theorem State.withEvid_start (s : State) (v : Evid) : (s.withEvid v).start = s.start := rfl
@[simp] theorem State.withEvid_tst (s : State) (v : Evid) : (s.withEvid v).tst = s.tst := rfl
@[simp] theorem State.withEvid_thm (s : State) (v : Evid) : (s.withEvid v).thm = s.thm := rfl
@[simp] theorem State.withEvid_dram (s : State) (v : Evid) : (s.withEvid v).dram = s.dram := rfl
@[simp] theorem State.withEvid_chk (s : State) (v : Evid) : (s.withEvid v).chk = s.chk := rfl
@[simp] theorem State.withEvid_herder (s : State) (v : Evid) : (s.withEvid v).herder = s.herder := rfl
@[simp] theorem State.withEvid_pwr (s : State) (v : Evid) : (s.withEvid v).pwr = s.pwr := rfl
@[simp] theorem State.withEvid_pins (s : State) (v : Evid) : (s.withEvid v).pins = s.pins := rfl
@[simp] theorem State.withEvid_out (s : State) (v : Evid) : (s.withEvid v).out = s.out := rfl
@[simp] theorem State.withEvid_freeCtr (s : State) (v : Evid) : (s.withEvid v).freeCtr = s.freeCtr := rfl
@[simp] theorem State.withEvid_pending (s : State) (v : Evid) : (s.withEvid v).pending = s.pending := rfl
@[simp] theorem State.withPch_part (s : State) (v : Tbl Pch) : (s.withPch v).part = s.part := rfl
@[simp] theorem State.withPch_regs (s : State) (v : Tbl Pch) : (s.withPch v).regs = s.regs := rfl
@[simp] theorem State.withPch_latch (s : State) (v : Tbl Pch) : (s.withPch v).latch = s.latch := rfl
@[simp] theorem State.withPch_nv (s : State) (v : Tbl Pch) : (s.withPch v).nv = s.nv := rfl
@[simp] theorem State.withPch_ao (s : State) (v : Tbl Pch) : (s.withPch v).ao = s.ao := rfl
@[simp] theorem State.withPch_fold (s : State) (v : Tbl Pch) : (s.withPch v).fold = s.fold := rfl
@[simp] theorem State.withPch_box (s : State) (v : Tbl Pch) : (s.withPch v).box = s.box := rfl
@[simp] theorem State.withPch_sec (s : State) (v : Tbl Pch) : (s.withPch v).sec = s.sec := rfl
@[simp] theorem State.withPch_evt (s : State) (v : Tbl Pch) : (s.withPch v).evt = s.evt := rfl
@[simp] theorem State.withPch_pci (s : State) (v : Tbl Pch) : (s.withPch v).pci = s.pci := rfl
@[simp] theorem State.withPch_mdio (s : State) (v : Tbl Pch) : (s.withPch v).mdio = s.mdio := rfl
@[simp] theorem State.withPch_cen (s : State) (v : Tbl Pch) : (s.withPch v).cen = s.cen := rfl
@[simp] theorem State.withPch_evid (s : State) (v : Tbl Pch) : (s.withPch v).evid = s.evid := rfl
@[simp] theorem State.withPch_pch (s : State) (v : Tbl Pch) : (s.withPch v).pch = v := rfl
@[simp] theorem State.withPch_bank (s : State) (v : Tbl Pch) : (s.withPch v).bank = s.bank := rfl
@[simp] theorem State.withPch_line (s : State) (v : Tbl Pch) : (s.withPch v).line = s.line := rfl
@[simp] theorem State.withPch_pad (s : State) (v : Tbl Pch) : (s.withPch v).pad = s.pad := rfl
@[simp] theorem State.withPch_lane (s : State) (v : Tbl Pch) : (s.withPch v).lane = s.lane := rfl
@[simp] theorem State.withPch_trv (s : State) (v : Tbl Pch) : (s.withPch v).trv = s.trv := rfl
@[simp] theorem State.withPch_drv (s : State) (v : Tbl Pch) : (s.withPch v).drv = s.drv := rfl
@[simp] theorem State.withPch_apply (s : State) (v : Tbl Pch) : (s.withPch v).apply = s.apply := rfl
@[simp] theorem State.withPch_pos (s : State) (v : Tbl Pch) : (s.withPch v).pos = s.pos := rfl
@[simp] theorem State.withPch_piste (s : State) (v : Tbl Pch) : (s.withPch v).piste = s.piste := rfl
@[simp] theorem State.withPch_cal (s : State) (v : Tbl Pch) : (s.withPch v).cal = s.cal := rfl
@[simp] theorem State.withPch_diag (s : State) (v : Tbl Pch) : (s.withPch v).diag = s.diag := rfl
@[simp] theorem State.withPch_clk (s : State) (v : Tbl Pch) : (s.withPch v).clk = s.clk := rfl
@[simp] theorem State.withPch_start (s : State) (v : Tbl Pch) : (s.withPch v).start = s.start := rfl
@[simp] theorem State.withPch_tst (s : State) (v : Tbl Pch) : (s.withPch v).tst = s.tst := rfl
@[simp] theorem State.withPch_thm (s : State) (v : Tbl Pch) : (s.withPch v).thm = s.thm := rfl
@[simp] theorem State.withPch_dram (s : State) (v : Tbl Pch) : (s.withPch v).dram = s.dram := rfl
@[simp] theorem State.withPch_chk (s : State) (v : Tbl Pch) : (s.withPch v).chk = s.chk := rfl
@[simp] theorem State.withPch_herder (s : State) (v : Tbl Pch) : (s.withPch v).herder = s.herder := rfl
@[simp] theorem State.withPch_pwr (s : State) (v : Tbl Pch) : (s.withPch v).pwr = s.pwr := rfl
@[simp] theorem State.withPch_pins (s : State) (v : Tbl Pch) : (s.withPch v).pins = s.pins := rfl
@[simp] theorem State.withPch_out (s : State) (v : Tbl Pch) : (s.withPch v).out = s.out := rfl
@[simp] theorem State.withPch_freeCtr (s : State) (v : Tbl Pch) : (s.withPch v).freeCtr = s.freeCtr := rfl
@[simp] theorem State.withPch_pending (s : State) (v : Tbl Pch) : (s.withPch v).pending = s.pending := rfl
@[simp] theorem State.withBank_part (s : State) (v : Tbl Bank) : (s.withBank v).part = s.part := rfl
@[simp] theorem State.withBank_regs (s : State) (v : Tbl Bank) : (s.withBank v).regs = s.regs := rfl
@[simp] theorem State.withBank_latch (s : State) (v : Tbl Bank) : (s.withBank v).latch = s.latch := rfl
@[simp] theorem State.withBank_nv (s : State) (v : Tbl Bank) : (s.withBank v).nv = s.nv := rfl
@[simp] theorem State.withBank_ao (s : State) (v : Tbl Bank) : (s.withBank v).ao = s.ao := rfl
@[simp] theorem State.withBank_fold (s : State) (v : Tbl Bank) : (s.withBank v).fold = s.fold := rfl
@[simp] theorem State.withBank_box (s : State) (v : Tbl Bank) : (s.withBank v).box = s.box := rfl
@[simp] theorem State.withBank_sec (s : State) (v : Tbl Bank) : (s.withBank v).sec = s.sec := rfl
@[simp] theorem State.withBank_evt (s : State) (v : Tbl Bank) : (s.withBank v).evt = s.evt := rfl
@[simp] theorem State.withBank_pci (s : State) (v : Tbl Bank) : (s.withBank v).pci = s.pci := rfl
@[simp] theorem State.withBank_mdio (s : State) (v : Tbl Bank) : (s.withBank v).mdio = s.mdio := rfl
@[simp] theorem State.withBank_cen (s : State) (v : Tbl Bank) : (s.withBank v).cen = s.cen := rfl
@[simp] theorem State.withBank_evid (s : State) (v : Tbl Bank) : (s.withBank v).evid = s.evid := rfl
@[simp] theorem State.withBank_pch (s : State) (v : Tbl Bank) : (s.withBank v).pch = s.pch := rfl
@[simp] theorem State.withBank_bank (s : State) (v : Tbl Bank) : (s.withBank v).bank = v := rfl
@[simp] theorem State.withBank_line (s : State) (v : Tbl Bank) : (s.withBank v).line = s.line := rfl
@[simp] theorem State.withBank_pad (s : State) (v : Tbl Bank) : (s.withBank v).pad = s.pad := rfl
@[simp] theorem State.withBank_lane (s : State) (v : Tbl Bank) : (s.withBank v).lane = s.lane := rfl
@[simp] theorem State.withBank_trv (s : State) (v : Tbl Bank) : (s.withBank v).trv = s.trv := rfl
@[simp] theorem State.withBank_drv (s : State) (v : Tbl Bank) : (s.withBank v).drv = s.drv := rfl
@[simp] theorem State.withBank_apply (s : State) (v : Tbl Bank) : (s.withBank v).apply = s.apply := rfl
@[simp] theorem State.withBank_pos (s : State) (v : Tbl Bank) : (s.withBank v).pos = s.pos := rfl
@[simp] theorem State.withBank_piste (s : State) (v : Tbl Bank) : (s.withBank v).piste = s.piste := rfl
@[simp] theorem State.withBank_cal (s : State) (v : Tbl Bank) : (s.withBank v).cal = s.cal := rfl
@[simp] theorem State.withBank_diag (s : State) (v : Tbl Bank) : (s.withBank v).diag = s.diag := rfl
@[simp] theorem State.withBank_clk (s : State) (v : Tbl Bank) : (s.withBank v).clk = s.clk := rfl
@[simp] theorem State.withBank_start (s : State) (v : Tbl Bank) : (s.withBank v).start = s.start := rfl
@[simp] theorem State.withBank_tst (s : State) (v : Tbl Bank) : (s.withBank v).tst = s.tst := rfl
@[simp] theorem State.withBank_thm (s : State) (v : Tbl Bank) : (s.withBank v).thm = s.thm := rfl
@[simp] theorem State.withBank_dram (s : State) (v : Tbl Bank) : (s.withBank v).dram = s.dram := rfl
@[simp] theorem State.withBank_chk (s : State) (v : Tbl Bank) : (s.withBank v).chk = s.chk := rfl
@[simp] theorem State.withBank_herder (s : State) (v : Tbl Bank) : (s.withBank v).herder = s.herder := rfl
@[simp] theorem State.withBank_pwr (s : State) (v : Tbl Bank) : (s.withBank v).pwr = s.pwr := rfl
@[simp] theorem State.withBank_pins (s : State) (v : Tbl Bank) : (s.withBank v).pins = s.pins := rfl
@[simp] theorem State.withBank_out (s : State) (v : Tbl Bank) : (s.withBank v).out = s.out := rfl
@[simp] theorem State.withBank_freeCtr (s : State) (v : Tbl Bank) : (s.withBank v).freeCtr = s.freeCtr := rfl
@[simp] theorem State.withBank_pending (s : State) (v : Tbl Bank) : (s.withBank v).pending = s.pending := rfl
@[simp] theorem State.withLine_part (s : State) (v : Tbl Line) : (s.withLine v).part = s.part := rfl
@[simp] theorem State.withLine_regs (s : State) (v : Tbl Line) : (s.withLine v).regs = s.regs := rfl
@[simp] theorem State.withLine_latch (s : State) (v : Tbl Line) : (s.withLine v).latch = s.latch := rfl
@[simp] theorem State.withLine_nv (s : State) (v : Tbl Line) : (s.withLine v).nv = s.nv := rfl
@[simp] theorem State.withLine_ao (s : State) (v : Tbl Line) : (s.withLine v).ao = s.ao := rfl
@[simp] theorem State.withLine_fold (s : State) (v : Tbl Line) : (s.withLine v).fold = s.fold := rfl
@[simp] theorem State.withLine_box (s : State) (v : Tbl Line) : (s.withLine v).box = s.box := rfl
@[simp] theorem State.withLine_sec (s : State) (v : Tbl Line) : (s.withLine v).sec = s.sec := rfl
@[simp] theorem State.withLine_evt (s : State) (v : Tbl Line) : (s.withLine v).evt = s.evt := rfl
@[simp] theorem State.withLine_pci (s : State) (v : Tbl Line) : (s.withLine v).pci = s.pci := rfl
@[simp] theorem State.withLine_mdio (s : State) (v : Tbl Line) : (s.withLine v).mdio = s.mdio := rfl
@[simp] theorem State.withLine_cen (s : State) (v : Tbl Line) : (s.withLine v).cen = s.cen := rfl
@[simp] theorem State.withLine_evid (s : State) (v : Tbl Line) : (s.withLine v).evid = s.evid := rfl
@[simp] theorem State.withLine_pch (s : State) (v : Tbl Line) : (s.withLine v).pch = s.pch := rfl
@[simp] theorem State.withLine_bank (s : State) (v : Tbl Line) : (s.withLine v).bank = s.bank := rfl
@[simp] theorem State.withLine_line (s : State) (v : Tbl Line) : (s.withLine v).line = v := rfl
@[simp] theorem State.withLine_pad (s : State) (v : Tbl Line) : (s.withLine v).pad = s.pad := rfl
@[simp] theorem State.withLine_lane (s : State) (v : Tbl Line) : (s.withLine v).lane = s.lane := rfl
@[simp] theorem State.withLine_trv (s : State) (v : Tbl Line) : (s.withLine v).trv = s.trv := rfl
@[simp] theorem State.withLine_drv (s : State) (v : Tbl Line) : (s.withLine v).drv = s.drv := rfl
@[simp] theorem State.withLine_apply (s : State) (v : Tbl Line) : (s.withLine v).apply = s.apply := rfl
@[simp] theorem State.withLine_pos (s : State) (v : Tbl Line) : (s.withLine v).pos = s.pos := rfl
@[simp] theorem State.withLine_piste (s : State) (v : Tbl Line) : (s.withLine v).piste = s.piste := rfl
@[simp] theorem State.withLine_cal (s : State) (v : Tbl Line) : (s.withLine v).cal = s.cal := rfl
@[simp] theorem State.withLine_diag (s : State) (v : Tbl Line) : (s.withLine v).diag = s.diag := rfl
@[simp] theorem State.withLine_clk (s : State) (v : Tbl Line) : (s.withLine v).clk = s.clk := rfl
@[simp] theorem State.withLine_start (s : State) (v : Tbl Line) : (s.withLine v).start = s.start := rfl
@[simp] theorem State.withLine_tst (s : State) (v : Tbl Line) : (s.withLine v).tst = s.tst := rfl
@[simp] theorem State.withLine_thm (s : State) (v : Tbl Line) : (s.withLine v).thm = s.thm := rfl
@[simp] theorem State.withLine_dram (s : State) (v : Tbl Line) : (s.withLine v).dram = s.dram := rfl
@[simp] theorem State.withLine_chk (s : State) (v : Tbl Line) : (s.withLine v).chk = s.chk := rfl
@[simp] theorem State.withLine_herder (s : State) (v : Tbl Line) : (s.withLine v).herder = s.herder := rfl
@[simp] theorem State.withLine_pwr (s : State) (v : Tbl Line) : (s.withLine v).pwr = s.pwr := rfl
@[simp] theorem State.withLine_pins (s : State) (v : Tbl Line) : (s.withLine v).pins = s.pins := rfl
@[simp] theorem State.withLine_out (s : State) (v : Tbl Line) : (s.withLine v).out = s.out := rfl
@[simp] theorem State.withLine_freeCtr (s : State) (v : Tbl Line) : (s.withLine v).freeCtr = s.freeCtr := rfl
@[simp] theorem State.withLine_pending (s : State) (v : Tbl Line) : (s.withLine v).pending = s.pending := rfl
@[simp] theorem State.withPad_part (s : State) (v : Tbl Pad) : (s.withPad v).part = s.part := rfl
@[simp] theorem State.withPad_regs (s : State) (v : Tbl Pad) : (s.withPad v).regs = s.regs := rfl
@[simp] theorem State.withPad_latch (s : State) (v : Tbl Pad) : (s.withPad v).latch = s.latch := rfl
@[simp] theorem State.withPad_nv (s : State) (v : Tbl Pad) : (s.withPad v).nv = s.nv := rfl
@[simp] theorem State.withPad_ao (s : State) (v : Tbl Pad) : (s.withPad v).ao = s.ao := rfl
@[simp] theorem State.withPad_fold (s : State) (v : Tbl Pad) : (s.withPad v).fold = s.fold := rfl
@[simp] theorem State.withPad_box (s : State) (v : Tbl Pad) : (s.withPad v).box = s.box := rfl
@[simp] theorem State.withPad_sec (s : State) (v : Tbl Pad) : (s.withPad v).sec = s.sec := rfl
@[simp] theorem State.withPad_evt (s : State) (v : Tbl Pad) : (s.withPad v).evt = s.evt := rfl
@[simp] theorem State.withPad_pci (s : State) (v : Tbl Pad) : (s.withPad v).pci = s.pci := rfl
@[simp] theorem State.withPad_mdio (s : State) (v : Tbl Pad) : (s.withPad v).mdio = s.mdio := rfl
@[simp] theorem State.withPad_cen (s : State) (v : Tbl Pad) : (s.withPad v).cen = s.cen := rfl
@[simp] theorem State.withPad_evid (s : State) (v : Tbl Pad) : (s.withPad v).evid = s.evid := rfl
@[simp] theorem State.withPad_pch (s : State) (v : Tbl Pad) : (s.withPad v).pch = s.pch := rfl
@[simp] theorem State.withPad_bank (s : State) (v : Tbl Pad) : (s.withPad v).bank = s.bank := rfl
@[simp] theorem State.withPad_line (s : State) (v : Tbl Pad) : (s.withPad v).line = s.line := rfl
@[simp] theorem State.withPad_pad (s : State) (v : Tbl Pad) : (s.withPad v).pad = v := rfl
@[simp] theorem State.withPad_lane (s : State) (v : Tbl Pad) : (s.withPad v).lane = s.lane := rfl
@[simp] theorem State.withPad_trv (s : State) (v : Tbl Pad) : (s.withPad v).trv = s.trv := rfl
@[simp] theorem State.withPad_drv (s : State) (v : Tbl Pad) : (s.withPad v).drv = s.drv := rfl
@[simp] theorem State.withPad_apply (s : State) (v : Tbl Pad) : (s.withPad v).apply = s.apply := rfl
@[simp] theorem State.withPad_pos (s : State) (v : Tbl Pad) : (s.withPad v).pos = s.pos := rfl
@[simp] theorem State.withPad_piste (s : State) (v : Tbl Pad) : (s.withPad v).piste = s.piste := rfl
@[simp] theorem State.withPad_cal (s : State) (v : Tbl Pad) : (s.withPad v).cal = s.cal := rfl
@[simp] theorem State.withPad_diag (s : State) (v : Tbl Pad) : (s.withPad v).diag = s.diag := rfl
@[simp] theorem State.withPad_clk (s : State) (v : Tbl Pad) : (s.withPad v).clk = s.clk := rfl
@[simp] theorem State.withPad_start (s : State) (v : Tbl Pad) : (s.withPad v).start = s.start := rfl
@[simp] theorem State.withPad_tst (s : State) (v : Tbl Pad) : (s.withPad v).tst = s.tst := rfl
@[simp] theorem State.withPad_thm (s : State) (v : Tbl Pad) : (s.withPad v).thm = s.thm := rfl
@[simp] theorem State.withPad_dram (s : State) (v : Tbl Pad) : (s.withPad v).dram = s.dram := rfl
@[simp] theorem State.withPad_chk (s : State) (v : Tbl Pad) : (s.withPad v).chk = s.chk := rfl
@[simp] theorem State.withPad_herder (s : State) (v : Tbl Pad) : (s.withPad v).herder = s.herder := rfl
@[simp] theorem State.withPad_pwr (s : State) (v : Tbl Pad) : (s.withPad v).pwr = s.pwr := rfl
@[simp] theorem State.withPad_pins (s : State) (v : Tbl Pad) : (s.withPad v).pins = s.pins := rfl
@[simp] theorem State.withPad_out (s : State) (v : Tbl Pad) : (s.withPad v).out = s.out := rfl
@[simp] theorem State.withPad_freeCtr (s : State) (v : Tbl Pad) : (s.withPad v).freeCtr = s.freeCtr := rfl
@[simp] theorem State.withPad_pending (s : State) (v : Tbl Pad) : (s.withPad v).pending = s.pending := rfl
@[simp] theorem State.withLane_part (s : State) (v : Tbl Lane) : (s.withLane v).part = s.part := rfl
@[simp] theorem State.withLane_regs (s : State) (v : Tbl Lane) : (s.withLane v).regs = s.regs := rfl
@[simp] theorem State.withLane_latch (s : State) (v : Tbl Lane) : (s.withLane v).latch = s.latch := rfl
@[simp] theorem State.withLane_nv (s : State) (v : Tbl Lane) : (s.withLane v).nv = s.nv := rfl
@[simp] theorem State.withLane_ao (s : State) (v : Tbl Lane) : (s.withLane v).ao = s.ao := rfl
@[simp] theorem State.withLane_fold (s : State) (v : Tbl Lane) : (s.withLane v).fold = s.fold := rfl
@[simp] theorem State.withLane_box (s : State) (v : Tbl Lane) : (s.withLane v).box = s.box := rfl
@[simp] theorem State.withLane_sec (s : State) (v : Tbl Lane) : (s.withLane v).sec = s.sec := rfl
@[simp] theorem State.withLane_evt (s : State) (v : Tbl Lane) : (s.withLane v).evt = s.evt := rfl
@[simp] theorem State.withLane_pci (s : State) (v : Tbl Lane) : (s.withLane v).pci = s.pci := rfl
@[simp] theorem State.withLane_mdio (s : State) (v : Tbl Lane) : (s.withLane v).mdio = s.mdio := rfl
@[simp] theorem State.withLane_cen (s : State) (v : Tbl Lane) : (s.withLane v).cen = s.cen := rfl
@[simp] theorem State.withLane_evid (s : State) (v : Tbl Lane) : (s.withLane v).evid = s.evid := rfl
@[simp] theorem State.withLane_pch (s : State) (v : Tbl Lane) : (s.withLane v).pch = s.pch := rfl
@[simp] theorem State.withLane_bank (s : State) (v : Tbl Lane) : (s.withLane v).bank = s.bank := rfl
@[simp] theorem State.withLane_line (s : State) (v : Tbl Lane) : (s.withLane v).line = s.line := rfl
@[simp] theorem State.withLane_pad (s : State) (v : Tbl Lane) : (s.withLane v).pad = s.pad := rfl
@[simp] theorem State.withLane_lane (s : State) (v : Tbl Lane) : (s.withLane v).lane = v := rfl
@[simp] theorem State.withLane_trv (s : State) (v : Tbl Lane) : (s.withLane v).trv = s.trv := rfl
@[simp] theorem State.withLane_drv (s : State) (v : Tbl Lane) : (s.withLane v).drv = s.drv := rfl
@[simp] theorem State.withLane_apply (s : State) (v : Tbl Lane) : (s.withLane v).apply = s.apply := rfl
@[simp] theorem State.withLane_pos (s : State) (v : Tbl Lane) : (s.withLane v).pos = s.pos := rfl
@[simp] theorem State.withLane_piste (s : State) (v : Tbl Lane) : (s.withLane v).piste = s.piste := rfl
@[simp] theorem State.withLane_cal (s : State) (v : Tbl Lane) : (s.withLane v).cal = s.cal := rfl
@[simp] theorem State.withLane_diag (s : State) (v : Tbl Lane) : (s.withLane v).diag = s.diag := rfl
@[simp] theorem State.withLane_clk (s : State) (v : Tbl Lane) : (s.withLane v).clk = s.clk := rfl
@[simp] theorem State.withLane_start (s : State) (v : Tbl Lane) : (s.withLane v).start = s.start := rfl
@[simp] theorem State.withLane_tst (s : State) (v : Tbl Lane) : (s.withLane v).tst = s.tst := rfl
@[simp] theorem State.withLane_thm (s : State) (v : Tbl Lane) : (s.withLane v).thm = s.thm := rfl
@[simp] theorem State.withLane_dram (s : State) (v : Tbl Lane) : (s.withLane v).dram = s.dram := rfl
@[simp] theorem State.withLane_chk (s : State) (v : Tbl Lane) : (s.withLane v).chk = s.chk := rfl
@[simp] theorem State.withLane_herder (s : State) (v : Tbl Lane) : (s.withLane v).herder = s.herder := rfl
@[simp] theorem State.withLane_pwr (s : State) (v : Tbl Lane) : (s.withLane v).pwr = s.pwr := rfl
@[simp] theorem State.withLane_pins (s : State) (v : Tbl Lane) : (s.withLane v).pins = s.pins := rfl
@[simp] theorem State.withLane_out (s : State) (v : Tbl Lane) : (s.withLane v).out = s.out := rfl
@[simp] theorem State.withLane_freeCtr (s : State) (v : Tbl Lane) : (s.withLane v).freeCtr = s.freeCtr := rfl
@[simp] theorem State.withLane_pending (s : State) (v : Tbl Lane) : (s.withLane v).pending = s.pending := rfl
@[simp] theorem State.withTrv_part (s : State) (v : Tbl Trv) : (s.withTrv v).part = s.part := rfl
@[simp] theorem State.withTrv_regs (s : State) (v : Tbl Trv) : (s.withTrv v).regs = s.regs := rfl
@[simp] theorem State.withTrv_latch (s : State) (v : Tbl Trv) : (s.withTrv v).latch = s.latch := rfl
@[simp] theorem State.withTrv_nv (s : State) (v : Tbl Trv) : (s.withTrv v).nv = s.nv := rfl
@[simp] theorem State.withTrv_ao (s : State) (v : Tbl Trv) : (s.withTrv v).ao = s.ao := rfl
@[simp] theorem State.withTrv_fold (s : State) (v : Tbl Trv) : (s.withTrv v).fold = s.fold := rfl
@[simp] theorem State.withTrv_box (s : State) (v : Tbl Trv) : (s.withTrv v).box = s.box := rfl
@[simp] theorem State.withTrv_sec (s : State) (v : Tbl Trv) : (s.withTrv v).sec = s.sec := rfl
@[simp] theorem State.withTrv_evt (s : State) (v : Tbl Trv) : (s.withTrv v).evt = s.evt := rfl
@[simp] theorem State.withTrv_pci (s : State) (v : Tbl Trv) : (s.withTrv v).pci = s.pci := rfl
@[simp] theorem State.withTrv_mdio (s : State) (v : Tbl Trv) : (s.withTrv v).mdio = s.mdio := rfl
@[simp] theorem State.withTrv_cen (s : State) (v : Tbl Trv) : (s.withTrv v).cen = s.cen := rfl
@[simp] theorem State.withTrv_evid (s : State) (v : Tbl Trv) : (s.withTrv v).evid = s.evid := rfl
@[simp] theorem State.withTrv_pch (s : State) (v : Tbl Trv) : (s.withTrv v).pch = s.pch := rfl
@[simp] theorem State.withTrv_bank (s : State) (v : Tbl Trv) : (s.withTrv v).bank = s.bank := rfl
@[simp] theorem State.withTrv_line (s : State) (v : Tbl Trv) : (s.withTrv v).line = s.line := rfl
@[simp] theorem State.withTrv_pad (s : State) (v : Tbl Trv) : (s.withTrv v).pad = s.pad := rfl
@[simp] theorem State.withTrv_lane (s : State) (v : Tbl Trv) : (s.withTrv v).lane = s.lane := rfl
@[simp] theorem State.withTrv_trv (s : State) (v : Tbl Trv) : (s.withTrv v).trv = v := rfl
@[simp] theorem State.withTrv_drv (s : State) (v : Tbl Trv) : (s.withTrv v).drv = s.drv := rfl
@[simp] theorem State.withTrv_apply (s : State) (v : Tbl Trv) : (s.withTrv v).apply = s.apply := rfl
@[simp] theorem State.withTrv_pos (s : State) (v : Tbl Trv) : (s.withTrv v).pos = s.pos := rfl
@[simp] theorem State.withTrv_piste (s : State) (v : Tbl Trv) : (s.withTrv v).piste = s.piste := rfl
@[simp] theorem State.withTrv_cal (s : State) (v : Tbl Trv) : (s.withTrv v).cal = s.cal := rfl
@[simp] theorem State.withTrv_diag (s : State) (v : Tbl Trv) : (s.withTrv v).diag = s.diag := rfl
@[simp] theorem State.withTrv_clk (s : State) (v : Tbl Trv) : (s.withTrv v).clk = s.clk := rfl
@[simp] theorem State.withTrv_start (s : State) (v : Tbl Trv) : (s.withTrv v).start = s.start := rfl
@[simp] theorem State.withTrv_tst (s : State) (v : Tbl Trv) : (s.withTrv v).tst = s.tst := rfl
@[simp] theorem State.withTrv_thm (s : State) (v : Tbl Trv) : (s.withTrv v).thm = s.thm := rfl
@[simp] theorem State.withTrv_dram (s : State) (v : Tbl Trv) : (s.withTrv v).dram = s.dram := rfl
@[simp] theorem State.withTrv_chk (s : State) (v : Tbl Trv) : (s.withTrv v).chk = s.chk := rfl
@[simp] theorem State.withTrv_herder (s : State) (v : Tbl Trv) : (s.withTrv v).herder = s.herder := rfl
@[simp] theorem State.withTrv_pwr (s : State) (v : Tbl Trv) : (s.withTrv v).pwr = s.pwr := rfl
@[simp] theorem State.withTrv_pins (s : State) (v : Tbl Trv) : (s.withTrv v).pins = s.pins := rfl
@[simp] theorem State.withTrv_out (s : State) (v : Tbl Trv) : (s.withTrv v).out = s.out := rfl
@[simp] theorem State.withTrv_freeCtr (s : State) (v : Tbl Trv) : (s.withTrv v).freeCtr = s.freeCtr := rfl
@[simp] theorem State.withTrv_pending (s : State) (v : Tbl Trv) : (s.withTrv v).pending = s.pending := rfl
@[simp] theorem State.withDrv_part (s : State) (v : Drv) : (s.withDrv v).part = s.part := rfl
@[simp] theorem State.withDrv_regs (s : State) (v : Drv) : (s.withDrv v).regs = s.regs := rfl
@[simp] theorem State.withDrv_latch (s : State) (v : Drv) : (s.withDrv v).latch = s.latch := rfl
@[simp] theorem State.withDrv_nv (s : State) (v : Drv) : (s.withDrv v).nv = s.nv := rfl
@[simp] theorem State.withDrv_ao (s : State) (v : Drv) : (s.withDrv v).ao = s.ao := rfl
@[simp] theorem State.withDrv_fold (s : State) (v : Drv) : (s.withDrv v).fold = s.fold := rfl
@[simp] theorem State.withDrv_box (s : State) (v : Drv) : (s.withDrv v).box = s.box := rfl
@[simp] theorem State.withDrv_sec (s : State) (v : Drv) : (s.withDrv v).sec = s.sec := rfl
@[simp] theorem State.withDrv_evt (s : State) (v : Drv) : (s.withDrv v).evt = s.evt := rfl
@[simp] theorem State.withDrv_pci (s : State) (v : Drv) : (s.withDrv v).pci = s.pci := rfl
@[simp] theorem State.withDrv_mdio (s : State) (v : Drv) : (s.withDrv v).mdio = s.mdio := rfl
@[simp] theorem State.withDrv_cen (s : State) (v : Drv) : (s.withDrv v).cen = s.cen := rfl
@[simp] theorem State.withDrv_evid (s : State) (v : Drv) : (s.withDrv v).evid = s.evid := rfl
@[simp] theorem State.withDrv_pch (s : State) (v : Drv) : (s.withDrv v).pch = s.pch := rfl
@[simp] theorem State.withDrv_bank (s : State) (v : Drv) : (s.withDrv v).bank = s.bank := rfl
@[simp] theorem State.withDrv_line (s : State) (v : Drv) : (s.withDrv v).line = s.line := rfl
@[simp] theorem State.withDrv_pad (s : State) (v : Drv) : (s.withDrv v).pad = s.pad := rfl
@[simp] theorem State.withDrv_lane (s : State) (v : Drv) : (s.withDrv v).lane = s.lane := rfl
@[simp] theorem State.withDrv_trv (s : State) (v : Drv) : (s.withDrv v).trv = s.trv := rfl
@[simp] theorem State.withDrv_drv (s : State) (v : Drv) : (s.withDrv v).drv = v := rfl
@[simp] theorem State.withDrv_apply (s : State) (v : Drv) : (s.withDrv v).apply = s.apply := rfl
@[simp] theorem State.withDrv_pos (s : State) (v : Drv) : (s.withDrv v).pos = s.pos := rfl
@[simp] theorem State.withDrv_piste (s : State) (v : Drv) : (s.withDrv v).piste = s.piste := rfl
@[simp] theorem State.withDrv_cal (s : State) (v : Drv) : (s.withDrv v).cal = s.cal := rfl
@[simp] theorem State.withDrv_diag (s : State) (v : Drv) : (s.withDrv v).diag = s.diag := rfl
@[simp] theorem State.withDrv_clk (s : State) (v : Drv) : (s.withDrv v).clk = s.clk := rfl
@[simp] theorem State.withDrv_start (s : State) (v : Drv) : (s.withDrv v).start = s.start := rfl
@[simp] theorem State.withDrv_tst (s : State) (v : Drv) : (s.withDrv v).tst = s.tst := rfl
@[simp] theorem State.withDrv_thm (s : State) (v : Drv) : (s.withDrv v).thm = s.thm := rfl
@[simp] theorem State.withDrv_dram (s : State) (v : Drv) : (s.withDrv v).dram = s.dram := rfl
@[simp] theorem State.withDrv_chk (s : State) (v : Drv) : (s.withDrv v).chk = s.chk := rfl
@[simp] theorem State.withDrv_herder (s : State) (v : Drv) : (s.withDrv v).herder = s.herder := rfl
@[simp] theorem State.withDrv_pwr (s : State) (v : Drv) : (s.withDrv v).pwr = s.pwr := rfl
@[simp] theorem State.withDrv_pins (s : State) (v : Drv) : (s.withDrv v).pins = s.pins := rfl
@[simp] theorem State.withDrv_out (s : State) (v : Drv) : (s.withDrv v).out = s.out := rfl
@[simp] theorem State.withDrv_freeCtr (s : State) (v : Drv) : (s.withDrv v).freeCtr = s.freeCtr := rfl
@[simp] theorem State.withDrv_pending (s : State) (v : Drv) : (s.withDrv v).pending = s.pending := rfl
@[simp] theorem State.withApply_part (s : State) (v : Apply) : (s.withApply v).part = s.part := rfl
@[simp] theorem State.withApply_regs (s : State) (v : Apply) : (s.withApply v).regs = s.regs := rfl
@[simp] theorem State.withApply_latch (s : State) (v : Apply) : (s.withApply v).latch = s.latch := rfl
@[simp] theorem State.withApply_nv (s : State) (v : Apply) : (s.withApply v).nv = s.nv := rfl
@[simp] theorem State.withApply_ao (s : State) (v : Apply) : (s.withApply v).ao = s.ao := rfl
@[simp] theorem State.withApply_fold (s : State) (v : Apply) : (s.withApply v).fold = s.fold := rfl
@[simp] theorem State.withApply_box (s : State) (v : Apply) : (s.withApply v).box = s.box := rfl
@[simp] theorem State.withApply_sec (s : State) (v : Apply) : (s.withApply v).sec = s.sec := rfl
@[simp] theorem State.withApply_evt (s : State) (v : Apply) : (s.withApply v).evt = s.evt := rfl
@[simp] theorem State.withApply_pci (s : State) (v : Apply) : (s.withApply v).pci = s.pci := rfl
@[simp] theorem State.withApply_mdio (s : State) (v : Apply) : (s.withApply v).mdio = s.mdio := rfl
@[simp] theorem State.withApply_cen (s : State) (v : Apply) : (s.withApply v).cen = s.cen := rfl
@[simp] theorem State.withApply_evid (s : State) (v : Apply) : (s.withApply v).evid = s.evid := rfl
@[simp] theorem State.withApply_pch (s : State) (v : Apply) : (s.withApply v).pch = s.pch := rfl
@[simp] theorem State.withApply_bank (s : State) (v : Apply) : (s.withApply v).bank = s.bank := rfl
@[simp] theorem State.withApply_line (s : State) (v : Apply) : (s.withApply v).line = s.line := rfl
@[simp] theorem State.withApply_pad (s : State) (v : Apply) : (s.withApply v).pad = s.pad := rfl
@[simp] theorem State.withApply_lane (s : State) (v : Apply) : (s.withApply v).lane = s.lane := rfl
@[simp] theorem State.withApply_trv (s : State) (v : Apply) : (s.withApply v).trv = s.trv := rfl
@[simp] theorem State.withApply_drv (s : State) (v : Apply) : (s.withApply v).drv = s.drv := rfl
@[simp] theorem State.withApply_apply (s : State) (v : Apply) : (s.withApply v).apply = v := rfl
@[simp] theorem State.withApply_pos (s : State) (v : Apply) : (s.withApply v).pos = s.pos := rfl
@[simp] theorem State.withApply_piste (s : State) (v : Apply) : (s.withApply v).piste = s.piste := rfl
@[simp] theorem State.withApply_cal (s : State) (v : Apply) : (s.withApply v).cal = s.cal := rfl
@[simp] theorem State.withApply_diag (s : State) (v : Apply) : (s.withApply v).diag = s.diag := rfl
@[simp] theorem State.withApply_clk (s : State) (v : Apply) : (s.withApply v).clk = s.clk := rfl
@[simp] theorem State.withApply_start (s : State) (v : Apply) : (s.withApply v).start = s.start := rfl
@[simp] theorem State.withApply_tst (s : State) (v : Apply) : (s.withApply v).tst = s.tst := rfl
@[simp] theorem State.withApply_thm (s : State) (v : Apply) : (s.withApply v).thm = s.thm := rfl
@[simp] theorem State.withApply_dram (s : State) (v : Apply) : (s.withApply v).dram = s.dram := rfl
@[simp] theorem State.withApply_chk (s : State) (v : Apply) : (s.withApply v).chk = s.chk := rfl
@[simp] theorem State.withApply_herder (s : State) (v : Apply) : (s.withApply v).herder = s.herder := rfl
@[simp] theorem State.withApply_pwr (s : State) (v : Apply) : (s.withApply v).pwr = s.pwr := rfl
@[simp] theorem State.withApply_pins (s : State) (v : Apply) : (s.withApply v).pins = s.pins := rfl
@[simp] theorem State.withApply_out (s : State) (v : Apply) : (s.withApply v).out = s.out := rfl
@[simp] theorem State.withApply_freeCtr (s : State) (v : Apply) : (s.withApply v).freeCtr = s.freeCtr := rfl
@[simp] theorem State.withApply_pending (s : State) (v : Apply) : (s.withApply v).pending = s.pending := rfl
@[simp] theorem State.withPos_part (s : State) (v : Pos) : (s.withPos v).part = s.part := rfl
@[simp] theorem State.withPos_regs (s : State) (v : Pos) : (s.withPos v).regs = s.regs := rfl
@[simp] theorem State.withPos_latch (s : State) (v : Pos) : (s.withPos v).latch = s.latch := rfl
@[simp] theorem State.withPos_nv (s : State) (v : Pos) : (s.withPos v).nv = s.nv := rfl
@[simp] theorem State.withPos_ao (s : State) (v : Pos) : (s.withPos v).ao = s.ao := rfl
@[simp] theorem State.withPos_fold (s : State) (v : Pos) : (s.withPos v).fold = s.fold := rfl
@[simp] theorem State.withPos_box (s : State) (v : Pos) : (s.withPos v).box = s.box := rfl
@[simp] theorem State.withPos_sec (s : State) (v : Pos) : (s.withPos v).sec = s.sec := rfl
@[simp] theorem State.withPos_evt (s : State) (v : Pos) : (s.withPos v).evt = s.evt := rfl
@[simp] theorem State.withPos_pci (s : State) (v : Pos) : (s.withPos v).pci = s.pci := rfl
@[simp] theorem State.withPos_mdio (s : State) (v : Pos) : (s.withPos v).mdio = s.mdio := rfl
@[simp] theorem State.withPos_cen (s : State) (v : Pos) : (s.withPos v).cen = s.cen := rfl
@[simp] theorem State.withPos_evid (s : State) (v : Pos) : (s.withPos v).evid = s.evid := rfl
@[simp] theorem State.withPos_pch (s : State) (v : Pos) : (s.withPos v).pch = s.pch := rfl
@[simp] theorem State.withPos_bank (s : State) (v : Pos) : (s.withPos v).bank = s.bank := rfl
@[simp] theorem State.withPos_line (s : State) (v : Pos) : (s.withPos v).line = s.line := rfl
@[simp] theorem State.withPos_pad (s : State) (v : Pos) : (s.withPos v).pad = s.pad := rfl
@[simp] theorem State.withPos_lane (s : State) (v : Pos) : (s.withPos v).lane = s.lane := rfl
@[simp] theorem State.withPos_trv (s : State) (v : Pos) : (s.withPos v).trv = s.trv := rfl
@[simp] theorem State.withPos_drv (s : State) (v : Pos) : (s.withPos v).drv = s.drv := rfl
@[simp] theorem State.withPos_apply (s : State) (v : Pos) : (s.withPos v).apply = s.apply := rfl
@[simp] theorem State.withPos_pos (s : State) (v : Pos) : (s.withPos v).pos = v := rfl
@[simp] theorem State.withPos_piste (s : State) (v : Pos) : (s.withPos v).piste = s.piste := rfl
@[simp] theorem State.withPos_cal (s : State) (v : Pos) : (s.withPos v).cal = s.cal := rfl
@[simp] theorem State.withPos_diag (s : State) (v : Pos) : (s.withPos v).diag = s.diag := rfl
@[simp] theorem State.withPos_clk (s : State) (v : Pos) : (s.withPos v).clk = s.clk := rfl
@[simp] theorem State.withPos_start (s : State) (v : Pos) : (s.withPos v).start = s.start := rfl
@[simp] theorem State.withPos_tst (s : State) (v : Pos) : (s.withPos v).tst = s.tst := rfl
@[simp] theorem State.withPos_thm (s : State) (v : Pos) : (s.withPos v).thm = s.thm := rfl
@[simp] theorem State.withPos_dram (s : State) (v : Pos) : (s.withPos v).dram = s.dram := rfl
@[simp] theorem State.withPos_chk (s : State) (v : Pos) : (s.withPos v).chk = s.chk := rfl
@[simp] theorem State.withPos_herder (s : State) (v : Pos) : (s.withPos v).herder = s.herder := rfl
@[simp] theorem State.withPos_pwr (s : State) (v : Pos) : (s.withPos v).pwr = s.pwr := rfl
@[simp] theorem State.withPos_pins (s : State) (v : Pos) : (s.withPos v).pins = s.pins := rfl
@[simp] theorem State.withPos_out (s : State) (v : Pos) : (s.withPos v).out = s.out := rfl
@[simp] theorem State.withPos_freeCtr (s : State) (v : Pos) : (s.withPos v).freeCtr = s.freeCtr := rfl
@[simp] theorem State.withPos_pending (s : State) (v : Pos) : (s.withPos v).pending = s.pending := rfl
@[simp] theorem State.withPiste_part (s : State) (v : Piste) : (s.withPiste v).part = s.part := rfl
@[simp] theorem State.withPiste_regs (s : State) (v : Piste) : (s.withPiste v).regs = s.regs := rfl
@[simp] theorem State.withPiste_latch (s : State) (v : Piste) : (s.withPiste v).latch = s.latch := rfl
@[simp] theorem State.withPiste_nv (s : State) (v : Piste) : (s.withPiste v).nv = s.nv := rfl
@[simp] theorem State.withPiste_ao (s : State) (v : Piste) : (s.withPiste v).ao = s.ao := rfl
@[simp] theorem State.withPiste_fold (s : State) (v : Piste) : (s.withPiste v).fold = s.fold := rfl
@[simp] theorem State.withPiste_box (s : State) (v : Piste) : (s.withPiste v).box = s.box := rfl
@[simp] theorem State.withPiste_sec (s : State) (v : Piste) : (s.withPiste v).sec = s.sec := rfl
@[simp] theorem State.withPiste_evt (s : State) (v : Piste) : (s.withPiste v).evt = s.evt := rfl
@[simp] theorem State.withPiste_pci (s : State) (v : Piste) : (s.withPiste v).pci = s.pci := rfl
@[simp] theorem State.withPiste_mdio (s : State) (v : Piste) : (s.withPiste v).mdio = s.mdio := rfl
@[simp] theorem State.withPiste_cen (s : State) (v : Piste) : (s.withPiste v).cen = s.cen := rfl
@[simp] theorem State.withPiste_evid (s : State) (v : Piste) : (s.withPiste v).evid = s.evid := rfl
@[simp] theorem State.withPiste_pch (s : State) (v : Piste) : (s.withPiste v).pch = s.pch := rfl
@[simp] theorem State.withPiste_bank (s : State) (v : Piste) : (s.withPiste v).bank = s.bank := rfl
@[simp] theorem State.withPiste_line (s : State) (v : Piste) : (s.withPiste v).line = s.line := rfl
@[simp] theorem State.withPiste_pad (s : State) (v : Piste) : (s.withPiste v).pad = s.pad := rfl
@[simp] theorem State.withPiste_lane (s : State) (v : Piste) : (s.withPiste v).lane = s.lane := rfl
@[simp] theorem State.withPiste_trv (s : State) (v : Piste) : (s.withPiste v).trv = s.trv := rfl
@[simp] theorem State.withPiste_drv (s : State) (v : Piste) : (s.withPiste v).drv = s.drv := rfl
@[simp] theorem State.withPiste_apply (s : State) (v : Piste) : (s.withPiste v).apply = s.apply := rfl
@[simp] theorem State.withPiste_pos (s : State) (v : Piste) : (s.withPiste v).pos = s.pos := rfl
@[simp] theorem State.withPiste_piste (s : State) (v : Piste) : (s.withPiste v).piste = v := rfl
@[simp] theorem State.withPiste_cal (s : State) (v : Piste) : (s.withPiste v).cal = s.cal := rfl
@[simp] theorem State.withPiste_diag (s : State) (v : Piste) : (s.withPiste v).diag = s.diag := rfl
@[simp] theorem State.withPiste_clk (s : State) (v : Piste) : (s.withPiste v).clk = s.clk := rfl
@[simp] theorem State.withPiste_start (s : State) (v : Piste) : (s.withPiste v).start = s.start := rfl
@[simp] theorem State.withPiste_tst (s : State) (v : Piste) : (s.withPiste v).tst = s.tst := rfl
@[simp] theorem State.withPiste_thm (s : State) (v : Piste) : (s.withPiste v).thm = s.thm := rfl
@[simp] theorem State.withPiste_dram (s : State) (v : Piste) : (s.withPiste v).dram = s.dram := rfl
@[simp] theorem State.withPiste_chk (s : State) (v : Piste) : (s.withPiste v).chk = s.chk := rfl
@[simp] theorem State.withPiste_herder (s : State) (v : Piste) : (s.withPiste v).herder = s.herder := rfl
@[simp] theorem State.withPiste_pwr (s : State) (v : Piste) : (s.withPiste v).pwr = s.pwr := rfl
@[simp] theorem State.withPiste_pins (s : State) (v : Piste) : (s.withPiste v).pins = s.pins := rfl
@[simp] theorem State.withPiste_out (s : State) (v : Piste) : (s.withPiste v).out = s.out := rfl
@[simp] theorem State.withPiste_freeCtr (s : State) (v : Piste) : (s.withPiste v).freeCtr = s.freeCtr := rfl
@[simp] theorem State.withPiste_pending (s : State) (v : Piste) : (s.withPiste v).pending = s.pending := rfl
@[simp] theorem State.withCal_part (s : State) (v : Tbl Cal) : (s.withCal v).part = s.part := rfl
@[simp] theorem State.withCal_regs (s : State) (v : Tbl Cal) : (s.withCal v).regs = s.regs := rfl
@[simp] theorem State.withCal_latch (s : State) (v : Tbl Cal) : (s.withCal v).latch = s.latch := rfl
@[simp] theorem State.withCal_nv (s : State) (v : Tbl Cal) : (s.withCal v).nv = s.nv := rfl
@[simp] theorem State.withCal_ao (s : State) (v : Tbl Cal) : (s.withCal v).ao = s.ao := rfl
@[simp] theorem State.withCal_fold (s : State) (v : Tbl Cal) : (s.withCal v).fold = s.fold := rfl
@[simp] theorem State.withCal_box (s : State) (v : Tbl Cal) : (s.withCal v).box = s.box := rfl
@[simp] theorem State.withCal_sec (s : State) (v : Tbl Cal) : (s.withCal v).sec = s.sec := rfl
@[simp] theorem State.withCal_evt (s : State) (v : Tbl Cal) : (s.withCal v).evt = s.evt := rfl
@[simp] theorem State.withCal_pci (s : State) (v : Tbl Cal) : (s.withCal v).pci = s.pci := rfl
@[simp] theorem State.withCal_mdio (s : State) (v : Tbl Cal) : (s.withCal v).mdio = s.mdio := rfl
@[simp] theorem State.withCal_cen (s : State) (v : Tbl Cal) : (s.withCal v).cen = s.cen := rfl
@[simp] theorem State.withCal_evid (s : State) (v : Tbl Cal) : (s.withCal v).evid = s.evid := rfl
@[simp] theorem State.withCal_pch (s : State) (v : Tbl Cal) : (s.withCal v).pch = s.pch := rfl
@[simp] theorem State.withCal_bank (s : State) (v : Tbl Cal) : (s.withCal v).bank = s.bank := rfl
@[simp] theorem State.withCal_line (s : State) (v : Tbl Cal) : (s.withCal v).line = s.line := rfl
@[simp] theorem State.withCal_pad (s : State) (v : Tbl Cal) : (s.withCal v).pad = s.pad := rfl
@[simp] theorem State.withCal_lane (s : State) (v : Tbl Cal) : (s.withCal v).lane = s.lane := rfl
@[simp] theorem State.withCal_trv (s : State) (v : Tbl Cal) : (s.withCal v).trv = s.trv := rfl
@[simp] theorem State.withCal_drv (s : State) (v : Tbl Cal) : (s.withCal v).drv = s.drv := rfl
@[simp] theorem State.withCal_apply (s : State) (v : Tbl Cal) : (s.withCal v).apply = s.apply := rfl
@[simp] theorem State.withCal_pos (s : State) (v : Tbl Cal) : (s.withCal v).pos = s.pos := rfl
@[simp] theorem State.withCal_piste (s : State) (v : Tbl Cal) : (s.withCal v).piste = s.piste := rfl
@[simp] theorem State.withCal_cal (s : State) (v : Tbl Cal) : (s.withCal v).cal = v := rfl
@[simp] theorem State.withCal_diag (s : State) (v : Tbl Cal) : (s.withCal v).diag = s.diag := rfl
@[simp] theorem State.withCal_clk (s : State) (v : Tbl Cal) : (s.withCal v).clk = s.clk := rfl
@[simp] theorem State.withCal_start (s : State) (v : Tbl Cal) : (s.withCal v).start = s.start := rfl
@[simp] theorem State.withCal_tst (s : State) (v : Tbl Cal) : (s.withCal v).tst = s.tst := rfl
@[simp] theorem State.withCal_thm (s : State) (v : Tbl Cal) : (s.withCal v).thm = s.thm := rfl
@[simp] theorem State.withCal_dram (s : State) (v : Tbl Cal) : (s.withCal v).dram = s.dram := rfl
@[simp] theorem State.withCal_chk (s : State) (v : Tbl Cal) : (s.withCal v).chk = s.chk := rfl
@[simp] theorem State.withCal_herder (s : State) (v : Tbl Cal) : (s.withCal v).herder = s.herder := rfl
@[simp] theorem State.withCal_pwr (s : State) (v : Tbl Cal) : (s.withCal v).pwr = s.pwr := rfl
@[simp] theorem State.withCal_pins (s : State) (v : Tbl Cal) : (s.withCal v).pins = s.pins := rfl
@[simp] theorem State.withCal_out (s : State) (v : Tbl Cal) : (s.withCal v).out = s.out := rfl
@[simp] theorem State.withCal_freeCtr (s : State) (v : Tbl Cal) : (s.withCal v).freeCtr = s.freeCtr := rfl
@[simp] theorem State.withCal_pending (s : State) (v : Tbl Cal) : (s.withCal v).pending = s.pending := rfl
@[simp] theorem State.withDiag_part (s : State) (v : Tbl Diag) : (s.withDiag v).part = s.part := rfl
@[simp] theorem State.withDiag_regs (s : State) (v : Tbl Diag) : (s.withDiag v).regs = s.regs := rfl
@[simp] theorem State.withDiag_latch (s : State) (v : Tbl Diag) : (s.withDiag v).latch = s.latch := rfl
@[simp] theorem State.withDiag_nv (s : State) (v : Tbl Diag) : (s.withDiag v).nv = s.nv := rfl
@[simp] theorem State.withDiag_ao (s : State) (v : Tbl Diag) : (s.withDiag v).ao = s.ao := rfl
@[simp] theorem State.withDiag_fold (s : State) (v : Tbl Diag) : (s.withDiag v).fold = s.fold := rfl
@[simp] theorem State.withDiag_box (s : State) (v : Tbl Diag) : (s.withDiag v).box = s.box := rfl
@[simp] theorem State.withDiag_sec (s : State) (v : Tbl Diag) : (s.withDiag v).sec = s.sec := rfl
@[simp] theorem State.withDiag_evt (s : State) (v : Tbl Diag) : (s.withDiag v).evt = s.evt := rfl
@[simp] theorem State.withDiag_pci (s : State) (v : Tbl Diag) : (s.withDiag v).pci = s.pci := rfl
@[simp] theorem State.withDiag_mdio (s : State) (v : Tbl Diag) : (s.withDiag v).mdio = s.mdio := rfl
@[simp] theorem State.withDiag_cen (s : State) (v : Tbl Diag) : (s.withDiag v).cen = s.cen := rfl
@[simp] theorem State.withDiag_evid (s : State) (v : Tbl Diag) : (s.withDiag v).evid = s.evid := rfl
@[simp] theorem State.withDiag_pch (s : State) (v : Tbl Diag) : (s.withDiag v).pch = s.pch := rfl
@[simp] theorem State.withDiag_bank (s : State) (v : Tbl Diag) : (s.withDiag v).bank = s.bank := rfl
@[simp] theorem State.withDiag_line (s : State) (v : Tbl Diag) : (s.withDiag v).line = s.line := rfl
@[simp] theorem State.withDiag_pad (s : State) (v : Tbl Diag) : (s.withDiag v).pad = s.pad := rfl
@[simp] theorem State.withDiag_lane (s : State) (v : Tbl Diag) : (s.withDiag v).lane = s.lane := rfl
@[simp] theorem State.withDiag_trv (s : State) (v : Tbl Diag) : (s.withDiag v).trv = s.trv := rfl
@[simp] theorem State.withDiag_drv (s : State) (v : Tbl Diag) : (s.withDiag v).drv = s.drv := rfl
@[simp] theorem State.withDiag_apply (s : State) (v : Tbl Diag) : (s.withDiag v).apply = s.apply := rfl
@[simp] theorem State.withDiag_pos (s : State) (v : Tbl Diag) : (s.withDiag v).pos = s.pos := rfl
@[simp] theorem State.withDiag_piste (s : State) (v : Tbl Diag) : (s.withDiag v).piste = s.piste := rfl
@[simp] theorem State.withDiag_cal (s : State) (v : Tbl Diag) : (s.withDiag v).cal = s.cal := rfl
@[simp] theorem State.withDiag_diag (s : State) (v : Tbl Diag) : (s.withDiag v).diag = v := rfl
@[simp] theorem State.withDiag_clk (s : State) (v : Tbl Diag) : (s.withDiag v).clk = s.clk := rfl
@[simp] theorem State.withDiag_start (s : State) (v : Tbl Diag) : (s.withDiag v).start = s.start := rfl
@[simp] theorem State.withDiag_tst (s : State) (v : Tbl Diag) : (s.withDiag v).tst = s.tst := rfl
@[simp] theorem State.withDiag_thm (s : State) (v : Tbl Diag) : (s.withDiag v).thm = s.thm := rfl
@[simp] theorem State.withDiag_dram (s : State) (v : Tbl Diag) : (s.withDiag v).dram = s.dram := rfl
@[simp] theorem State.withDiag_chk (s : State) (v : Tbl Diag) : (s.withDiag v).chk = s.chk := rfl
@[simp] theorem State.withDiag_herder (s : State) (v : Tbl Diag) : (s.withDiag v).herder = s.herder := rfl
@[simp] theorem State.withDiag_pwr (s : State) (v : Tbl Diag) : (s.withDiag v).pwr = s.pwr := rfl
@[simp] theorem State.withDiag_pins (s : State) (v : Tbl Diag) : (s.withDiag v).pins = s.pins := rfl
@[simp] theorem State.withDiag_out (s : State) (v : Tbl Diag) : (s.withDiag v).out = s.out := rfl
@[simp] theorem State.withDiag_freeCtr (s : State) (v : Tbl Diag) : (s.withDiag v).freeCtr = s.freeCtr := rfl
@[simp] theorem State.withDiag_pending (s : State) (v : Tbl Diag) : (s.withDiag v).pending = s.pending := rfl
@[simp] theorem State.withClk_part (s : State) (v : Clk) : (s.withClk v).part = s.part := rfl
@[simp] theorem State.withClk_regs (s : State) (v : Clk) : (s.withClk v).regs = s.regs := rfl
@[simp] theorem State.withClk_latch (s : State) (v : Clk) : (s.withClk v).latch = s.latch := rfl
@[simp] theorem State.withClk_nv (s : State) (v : Clk) : (s.withClk v).nv = s.nv := rfl
@[simp] theorem State.withClk_ao (s : State) (v : Clk) : (s.withClk v).ao = s.ao := rfl
@[simp] theorem State.withClk_fold (s : State) (v : Clk) : (s.withClk v).fold = s.fold := rfl
@[simp] theorem State.withClk_box (s : State) (v : Clk) : (s.withClk v).box = s.box := rfl
@[simp] theorem State.withClk_sec (s : State) (v : Clk) : (s.withClk v).sec = s.sec := rfl
@[simp] theorem State.withClk_evt (s : State) (v : Clk) : (s.withClk v).evt = s.evt := rfl
@[simp] theorem State.withClk_pci (s : State) (v : Clk) : (s.withClk v).pci = s.pci := rfl
@[simp] theorem State.withClk_mdio (s : State) (v : Clk) : (s.withClk v).mdio = s.mdio := rfl
@[simp] theorem State.withClk_cen (s : State) (v : Clk) : (s.withClk v).cen = s.cen := rfl
@[simp] theorem State.withClk_evid (s : State) (v : Clk) : (s.withClk v).evid = s.evid := rfl
@[simp] theorem State.withClk_pch (s : State) (v : Clk) : (s.withClk v).pch = s.pch := rfl
@[simp] theorem State.withClk_bank (s : State) (v : Clk) : (s.withClk v).bank = s.bank := rfl
@[simp] theorem State.withClk_line (s : State) (v : Clk) : (s.withClk v).line = s.line := rfl
@[simp] theorem State.withClk_pad (s : State) (v : Clk) : (s.withClk v).pad = s.pad := rfl
@[simp] theorem State.withClk_lane (s : State) (v : Clk) : (s.withClk v).lane = s.lane := rfl
@[simp] theorem State.withClk_trv (s : State) (v : Clk) : (s.withClk v).trv = s.trv := rfl
@[simp] theorem State.withClk_drv (s : State) (v : Clk) : (s.withClk v).drv = s.drv := rfl
@[simp] theorem State.withClk_apply (s : State) (v : Clk) : (s.withClk v).apply = s.apply := rfl
@[simp] theorem State.withClk_pos (s : State) (v : Clk) : (s.withClk v).pos = s.pos := rfl
@[simp] theorem State.withClk_piste (s : State) (v : Clk) : (s.withClk v).piste = s.piste := rfl
@[simp] theorem State.withClk_cal (s : State) (v : Clk) : (s.withClk v).cal = s.cal := rfl
@[simp] theorem State.withClk_diag (s : State) (v : Clk) : (s.withClk v).diag = s.diag := rfl
@[simp] theorem State.withClk_clk (s : State) (v : Clk) : (s.withClk v).clk = v := rfl
@[simp] theorem State.withClk_start (s : State) (v : Clk) : (s.withClk v).start = s.start := rfl
@[simp] theorem State.withClk_tst (s : State) (v : Clk) : (s.withClk v).tst = s.tst := rfl
@[simp] theorem State.withClk_thm (s : State) (v : Clk) : (s.withClk v).thm = s.thm := rfl
@[simp] theorem State.withClk_dram (s : State) (v : Clk) : (s.withClk v).dram = s.dram := rfl
@[simp] theorem State.withClk_chk (s : State) (v : Clk) : (s.withClk v).chk = s.chk := rfl
@[simp] theorem State.withClk_herder (s : State) (v : Clk) : (s.withClk v).herder = s.herder := rfl
@[simp] theorem State.withClk_pwr (s : State) (v : Clk) : (s.withClk v).pwr = s.pwr := rfl
@[simp] theorem State.withClk_pins (s : State) (v : Clk) : (s.withClk v).pins = s.pins := rfl
@[simp] theorem State.withClk_out (s : State) (v : Clk) : (s.withClk v).out = s.out := rfl
@[simp] theorem State.withClk_freeCtr (s : State) (v : Clk) : (s.withClk v).freeCtr = s.freeCtr := rfl
@[simp] theorem State.withClk_pending (s : State) (v : Clk) : (s.withClk v).pending = s.pending := rfl
@[simp] theorem State.withStart_part (s : State) (v : Start) : (s.withStart v).part = s.part := rfl
@[simp] theorem State.withStart_regs (s : State) (v : Start) : (s.withStart v).regs = s.regs := rfl
@[simp] theorem State.withStart_latch (s : State) (v : Start) : (s.withStart v).latch = s.latch := rfl
@[simp] theorem State.withStart_nv (s : State) (v : Start) : (s.withStart v).nv = s.nv := rfl
@[simp] theorem State.withStart_ao (s : State) (v : Start) : (s.withStart v).ao = s.ao := rfl
@[simp] theorem State.withStart_fold (s : State) (v : Start) : (s.withStart v).fold = s.fold := rfl
@[simp] theorem State.withStart_box (s : State) (v : Start) : (s.withStart v).box = s.box := rfl
@[simp] theorem State.withStart_sec (s : State) (v : Start) : (s.withStart v).sec = s.sec := rfl
@[simp] theorem State.withStart_evt (s : State) (v : Start) : (s.withStart v).evt = s.evt := rfl
@[simp] theorem State.withStart_pci (s : State) (v : Start) : (s.withStart v).pci = s.pci := rfl
@[simp] theorem State.withStart_mdio (s : State) (v : Start) : (s.withStart v).mdio = s.mdio := rfl
@[simp] theorem State.withStart_cen (s : State) (v : Start) : (s.withStart v).cen = s.cen := rfl
@[simp] theorem State.withStart_evid (s : State) (v : Start) : (s.withStart v).evid = s.evid := rfl
@[simp] theorem State.withStart_pch (s : State) (v : Start) : (s.withStart v).pch = s.pch := rfl
@[simp] theorem State.withStart_bank (s : State) (v : Start) : (s.withStart v).bank = s.bank := rfl
@[simp] theorem State.withStart_line (s : State) (v : Start) : (s.withStart v).line = s.line := rfl
@[simp] theorem State.withStart_pad (s : State) (v : Start) : (s.withStart v).pad = s.pad := rfl
@[simp] theorem State.withStart_lane (s : State) (v : Start) : (s.withStart v).lane = s.lane := rfl
@[simp] theorem State.withStart_trv (s : State) (v : Start) : (s.withStart v).trv = s.trv := rfl
@[simp] theorem State.withStart_drv (s : State) (v : Start) : (s.withStart v).drv = s.drv := rfl
@[simp] theorem State.withStart_apply (s : State) (v : Start) : (s.withStart v).apply = s.apply := rfl
@[simp] theorem State.withStart_pos (s : State) (v : Start) : (s.withStart v).pos = s.pos := rfl
@[simp] theorem State.withStart_piste (s : State) (v : Start) : (s.withStart v).piste = s.piste := rfl
@[simp] theorem State.withStart_cal (s : State) (v : Start) : (s.withStart v).cal = s.cal := rfl
@[simp] theorem State.withStart_diag (s : State) (v : Start) : (s.withStart v).diag = s.diag := rfl
@[simp] theorem State.withStart_clk (s : State) (v : Start) : (s.withStart v).clk = s.clk := rfl
@[simp] theorem State.withStart_start (s : State) (v : Start) : (s.withStart v).start = v := rfl
@[simp] theorem State.withStart_tst (s : State) (v : Start) : (s.withStart v).tst = s.tst := rfl
@[simp] theorem State.withStart_thm (s : State) (v : Start) : (s.withStart v).thm = s.thm := rfl
@[simp] theorem State.withStart_dram (s : State) (v : Start) : (s.withStart v).dram = s.dram := rfl
@[simp] theorem State.withStart_chk (s : State) (v : Start) : (s.withStart v).chk = s.chk := rfl
@[simp] theorem State.withStart_herder (s : State) (v : Start) : (s.withStart v).herder = s.herder := rfl
@[simp] theorem State.withStart_pwr (s : State) (v : Start) : (s.withStart v).pwr = s.pwr := rfl
@[simp] theorem State.withStart_pins (s : State) (v : Start) : (s.withStart v).pins = s.pins := rfl
@[simp] theorem State.withStart_out (s : State) (v : Start) : (s.withStart v).out = s.out := rfl
@[simp] theorem State.withStart_freeCtr (s : State) (v : Start) : (s.withStart v).freeCtr = s.freeCtr := rfl
@[simp] theorem State.withStart_pending (s : State) (v : Start) : (s.withStart v).pending = s.pending := rfl
@[simp] theorem State.withTst_part (s : State) (v : Tst) : (s.withTst v).part = s.part := rfl
@[simp] theorem State.withTst_regs (s : State) (v : Tst) : (s.withTst v).regs = s.regs := rfl
@[simp] theorem State.withTst_latch (s : State) (v : Tst) : (s.withTst v).latch = s.latch := rfl
@[simp] theorem State.withTst_nv (s : State) (v : Tst) : (s.withTst v).nv = s.nv := rfl
@[simp] theorem State.withTst_ao (s : State) (v : Tst) : (s.withTst v).ao = s.ao := rfl
@[simp] theorem State.withTst_fold (s : State) (v : Tst) : (s.withTst v).fold = s.fold := rfl
@[simp] theorem State.withTst_box (s : State) (v : Tst) : (s.withTst v).box = s.box := rfl
@[simp] theorem State.withTst_sec (s : State) (v : Tst) : (s.withTst v).sec = s.sec := rfl
@[simp] theorem State.withTst_evt (s : State) (v : Tst) : (s.withTst v).evt = s.evt := rfl
@[simp] theorem State.withTst_pci (s : State) (v : Tst) : (s.withTst v).pci = s.pci := rfl
@[simp] theorem State.withTst_mdio (s : State) (v : Tst) : (s.withTst v).mdio = s.mdio := rfl
@[simp] theorem State.withTst_cen (s : State) (v : Tst) : (s.withTst v).cen = s.cen := rfl
@[simp] theorem State.withTst_evid (s : State) (v : Tst) : (s.withTst v).evid = s.evid := rfl
@[simp] theorem State.withTst_pch (s : State) (v : Tst) : (s.withTst v).pch = s.pch := rfl
@[simp] theorem State.withTst_bank (s : State) (v : Tst) : (s.withTst v).bank = s.bank := rfl
@[simp] theorem State.withTst_line (s : State) (v : Tst) : (s.withTst v).line = s.line := rfl
@[simp] theorem State.withTst_pad (s : State) (v : Tst) : (s.withTst v).pad = s.pad := rfl
@[simp] theorem State.withTst_lane (s : State) (v : Tst) : (s.withTst v).lane = s.lane := rfl
@[simp] theorem State.withTst_trv (s : State) (v : Tst) : (s.withTst v).trv = s.trv := rfl
@[simp] theorem State.withTst_drv (s : State) (v : Tst) : (s.withTst v).drv = s.drv := rfl
@[simp] theorem State.withTst_apply (s : State) (v : Tst) : (s.withTst v).apply = s.apply := rfl
@[simp] theorem State.withTst_pos (s : State) (v : Tst) : (s.withTst v).pos = s.pos := rfl
@[simp] theorem State.withTst_piste (s : State) (v : Tst) : (s.withTst v).piste = s.piste := rfl
@[simp] theorem State.withTst_cal (s : State) (v : Tst) : (s.withTst v).cal = s.cal := rfl
@[simp] theorem State.withTst_diag (s : State) (v : Tst) : (s.withTst v).diag = s.diag := rfl
@[simp] theorem State.withTst_clk (s : State) (v : Tst) : (s.withTst v).clk = s.clk := rfl
@[simp] theorem State.withTst_start (s : State) (v : Tst) : (s.withTst v).start = s.start := rfl
@[simp] theorem State.withTst_tst (s : State) (v : Tst) : (s.withTst v).tst = v := rfl
@[simp] theorem State.withTst_thm (s : State) (v : Tst) : (s.withTst v).thm = s.thm := rfl
@[simp] theorem State.withTst_dram (s : State) (v : Tst) : (s.withTst v).dram = s.dram := rfl
@[simp] theorem State.withTst_chk (s : State) (v : Tst) : (s.withTst v).chk = s.chk := rfl
@[simp] theorem State.withTst_herder (s : State) (v : Tst) : (s.withTst v).herder = s.herder := rfl
@[simp] theorem State.withTst_pwr (s : State) (v : Tst) : (s.withTst v).pwr = s.pwr := rfl
@[simp] theorem State.withTst_pins (s : State) (v : Tst) : (s.withTst v).pins = s.pins := rfl
@[simp] theorem State.withTst_out (s : State) (v : Tst) : (s.withTst v).out = s.out := rfl
@[simp] theorem State.withTst_freeCtr (s : State) (v : Tst) : (s.withTst v).freeCtr = s.freeCtr := rfl
@[simp] theorem State.withTst_pending (s : State) (v : Tst) : (s.withTst v).pending = s.pending := rfl
@[simp] theorem State.withThm_part (s : State) (v : Thm) : (s.withThm v).part = s.part := rfl
@[simp] theorem State.withThm_regs (s : State) (v : Thm) : (s.withThm v).regs = s.regs := rfl
@[simp] theorem State.withThm_latch (s : State) (v : Thm) : (s.withThm v).latch = s.latch := rfl
@[simp] theorem State.withThm_nv (s : State) (v : Thm) : (s.withThm v).nv = s.nv := rfl
@[simp] theorem State.withThm_ao (s : State) (v : Thm) : (s.withThm v).ao = s.ao := rfl
@[simp] theorem State.withThm_fold (s : State) (v : Thm) : (s.withThm v).fold = s.fold := rfl
@[simp] theorem State.withThm_box (s : State) (v : Thm) : (s.withThm v).box = s.box := rfl
@[simp] theorem State.withThm_sec (s : State) (v : Thm) : (s.withThm v).sec = s.sec := rfl
@[simp] theorem State.withThm_evt (s : State) (v : Thm) : (s.withThm v).evt = s.evt := rfl
@[simp] theorem State.withThm_pci (s : State) (v : Thm) : (s.withThm v).pci = s.pci := rfl
@[simp] theorem State.withThm_mdio (s : State) (v : Thm) : (s.withThm v).mdio = s.mdio := rfl
@[simp] theorem State.withThm_cen (s : State) (v : Thm) : (s.withThm v).cen = s.cen := rfl
@[simp] theorem State.withThm_evid (s : State) (v : Thm) : (s.withThm v).evid = s.evid := rfl
@[simp] theorem State.withThm_pch (s : State) (v : Thm) : (s.withThm v).pch = s.pch := rfl
@[simp] theorem State.withThm_bank (s : State) (v : Thm) : (s.withThm v).bank = s.bank := rfl
@[simp] theorem State.withThm_line (s : State) (v : Thm) : (s.withThm v).line = s.line := rfl
@[simp] theorem State.withThm_pad (s : State) (v : Thm) : (s.withThm v).pad = s.pad := rfl
@[simp] theorem State.withThm_lane (s : State) (v : Thm) : (s.withThm v).lane = s.lane := rfl
@[simp] theorem State.withThm_trv (s : State) (v : Thm) : (s.withThm v).trv = s.trv := rfl
@[simp] theorem State.withThm_drv (s : State) (v : Thm) : (s.withThm v).drv = s.drv := rfl
@[simp] theorem State.withThm_apply (s : State) (v : Thm) : (s.withThm v).apply = s.apply := rfl
@[simp] theorem State.withThm_pos (s : State) (v : Thm) : (s.withThm v).pos = s.pos := rfl
@[simp] theorem State.withThm_piste (s : State) (v : Thm) : (s.withThm v).piste = s.piste := rfl
@[simp] theorem State.withThm_cal (s : State) (v : Thm) : (s.withThm v).cal = s.cal := rfl
@[simp] theorem State.withThm_diag (s : State) (v : Thm) : (s.withThm v).diag = s.diag := rfl
@[simp] theorem State.withThm_clk (s : State) (v : Thm) : (s.withThm v).clk = s.clk := rfl
@[simp] theorem State.withThm_start (s : State) (v : Thm) : (s.withThm v).start = s.start := rfl
@[simp] theorem State.withThm_tst (s : State) (v : Thm) : (s.withThm v).tst = s.tst := rfl
@[simp] theorem State.withThm_thm (s : State) (v : Thm) : (s.withThm v).thm = v := rfl
@[simp] theorem State.withThm_dram (s : State) (v : Thm) : (s.withThm v).dram = s.dram := rfl
@[simp] theorem State.withThm_chk (s : State) (v : Thm) : (s.withThm v).chk = s.chk := rfl
@[simp] theorem State.withThm_herder (s : State) (v : Thm) : (s.withThm v).herder = s.herder := rfl
@[simp] theorem State.withThm_pwr (s : State) (v : Thm) : (s.withThm v).pwr = s.pwr := rfl
@[simp] theorem State.withThm_pins (s : State) (v : Thm) : (s.withThm v).pins = s.pins := rfl
@[simp] theorem State.withThm_out (s : State) (v : Thm) : (s.withThm v).out = s.out := rfl
@[simp] theorem State.withThm_freeCtr (s : State) (v : Thm) : (s.withThm v).freeCtr = s.freeCtr := rfl
@[simp] theorem State.withThm_pending (s : State) (v : Thm) : (s.withThm v).pending = s.pending := rfl
@[simp] theorem State.withDram_part (s : State) (v : List Host.Cell) : (s.withDram v).part = s.part := rfl
@[simp] theorem State.withDram_regs (s : State) (v : List Host.Cell) : (s.withDram v).regs = s.regs := rfl
@[simp] theorem State.withDram_latch (s : State) (v : List Host.Cell) : (s.withDram v).latch = s.latch := rfl
@[simp] theorem State.withDram_nv (s : State) (v : List Host.Cell) : (s.withDram v).nv = s.nv := rfl
@[simp] theorem State.withDram_ao (s : State) (v : List Host.Cell) : (s.withDram v).ao = s.ao := rfl
@[simp] theorem State.withDram_fold (s : State) (v : List Host.Cell) : (s.withDram v).fold = s.fold := rfl
@[simp] theorem State.withDram_box (s : State) (v : List Host.Cell) : (s.withDram v).box = s.box := rfl
@[simp] theorem State.withDram_sec (s : State) (v : List Host.Cell) : (s.withDram v).sec = s.sec := rfl
@[simp] theorem State.withDram_evt (s : State) (v : List Host.Cell) : (s.withDram v).evt = s.evt := rfl
@[simp] theorem State.withDram_pci (s : State) (v : List Host.Cell) : (s.withDram v).pci = s.pci := rfl
@[simp] theorem State.withDram_mdio (s : State) (v : List Host.Cell) : (s.withDram v).mdio = s.mdio := rfl
@[simp] theorem State.withDram_cen (s : State) (v : List Host.Cell) : (s.withDram v).cen = s.cen := rfl
@[simp] theorem State.withDram_evid (s : State) (v : List Host.Cell) : (s.withDram v).evid = s.evid := rfl
@[simp] theorem State.withDram_pch (s : State) (v : List Host.Cell) : (s.withDram v).pch = s.pch := rfl
@[simp] theorem State.withDram_bank (s : State) (v : List Host.Cell) : (s.withDram v).bank = s.bank := rfl
@[simp] theorem State.withDram_line (s : State) (v : List Host.Cell) : (s.withDram v).line = s.line := rfl
@[simp] theorem State.withDram_pad (s : State) (v : List Host.Cell) : (s.withDram v).pad = s.pad := rfl
@[simp] theorem State.withDram_lane (s : State) (v : List Host.Cell) : (s.withDram v).lane = s.lane := rfl
@[simp] theorem State.withDram_trv (s : State) (v : List Host.Cell) : (s.withDram v).trv = s.trv := rfl
@[simp] theorem State.withDram_drv (s : State) (v : List Host.Cell) : (s.withDram v).drv = s.drv := rfl
@[simp] theorem State.withDram_apply (s : State) (v : List Host.Cell) : (s.withDram v).apply = s.apply := rfl
@[simp] theorem State.withDram_pos (s : State) (v : List Host.Cell) : (s.withDram v).pos = s.pos := rfl
@[simp] theorem State.withDram_piste (s : State) (v : List Host.Cell) : (s.withDram v).piste = s.piste := rfl
@[simp] theorem State.withDram_cal (s : State) (v : List Host.Cell) : (s.withDram v).cal = s.cal := rfl
@[simp] theorem State.withDram_diag (s : State) (v : List Host.Cell) : (s.withDram v).diag = s.diag := rfl
@[simp] theorem State.withDram_clk (s : State) (v : List Host.Cell) : (s.withDram v).clk = s.clk := rfl
@[simp] theorem State.withDram_start (s : State) (v : List Host.Cell) : (s.withDram v).start = s.start := rfl
@[simp] theorem State.withDram_tst (s : State) (v : List Host.Cell) : (s.withDram v).tst = s.tst := rfl
@[simp] theorem State.withDram_thm (s : State) (v : List Host.Cell) : (s.withDram v).thm = s.thm := rfl
@[simp] theorem State.withDram_dram (s : State) (v : List Host.Cell) : (s.withDram v).dram = v := rfl
@[simp] theorem State.withDram_chk (s : State) (v : List Host.Cell) : (s.withDram v).chk = s.chk := rfl
@[simp] theorem State.withDram_herder (s : State) (v : List Host.Cell) : (s.withDram v).herder = s.herder := rfl
@[simp] theorem State.withDram_pwr (s : State) (v : List Host.Cell) : (s.withDram v).pwr = s.pwr := rfl
@[simp] theorem State.withDram_pins (s : State) (v : List Host.Cell) : (s.withDram v).pins = s.pins := rfl
@[simp] theorem State.withDram_out (s : State) (v : List Host.Cell) : (s.withDram v).out = s.out := rfl
@[simp] theorem State.withDram_freeCtr (s : State) (v : List Host.Cell) : (s.withDram v).freeCtr = s.freeCtr := rfl
@[simp] theorem State.withDram_pending (s : State) (v : List Host.Cell) : (s.withDram v).pending = s.pending := rfl
@[simp] theorem State.withChk_part (s : State) (v : Tbl Byte) : (s.withChk v).part = s.part := rfl
@[simp] theorem State.withChk_regs (s : State) (v : Tbl Byte) : (s.withChk v).regs = s.regs := rfl
@[simp] theorem State.withChk_latch (s : State) (v : Tbl Byte) : (s.withChk v).latch = s.latch := rfl
@[simp] theorem State.withChk_nv (s : State) (v : Tbl Byte) : (s.withChk v).nv = s.nv := rfl
@[simp] theorem State.withChk_ao (s : State) (v : Tbl Byte) : (s.withChk v).ao = s.ao := rfl
@[simp] theorem State.withChk_fold (s : State) (v : Tbl Byte) : (s.withChk v).fold = s.fold := rfl
@[simp] theorem State.withChk_box (s : State) (v : Tbl Byte) : (s.withChk v).box = s.box := rfl
@[simp] theorem State.withChk_sec (s : State) (v : Tbl Byte) : (s.withChk v).sec = s.sec := rfl
@[simp] theorem State.withChk_evt (s : State) (v : Tbl Byte) : (s.withChk v).evt = s.evt := rfl
@[simp] theorem State.withChk_pci (s : State) (v : Tbl Byte) : (s.withChk v).pci = s.pci := rfl
@[simp] theorem State.withChk_mdio (s : State) (v : Tbl Byte) : (s.withChk v).mdio = s.mdio := rfl
@[simp] theorem State.withChk_cen (s : State) (v : Tbl Byte) : (s.withChk v).cen = s.cen := rfl
@[simp] theorem State.withChk_evid (s : State) (v : Tbl Byte) : (s.withChk v).evid = s.evid := rfl
@[simp] theorem State.withChk_pch (s : State) (v : Tbl Byte) : (s.withChk v).pch = s.pch := rfl
@[simp] theorem State.withChk_bank (s : State) (v : Tbl Byte) : (s.withChk v).bank = s.bank := rfl
@[simp] theorem State.withChk_line (s : State) (v : Tbl Byte) : (s.withChk v).line = s.line := rfl
@[simp] theorem State.withChk_pad (s : State) (v : Tbl Byte) : (s.withChk v).pad = s.pad := rfl
@[simp] theorem State.withChk_lane (s : State) (v : Tbl Byte) : (s.withChk v).lane = s.lane := rfl
@[simp] theorem State.withChk_trv (s : State) (v : Tbl Byte) : (s.withChk v).trv = s.trv := rfl
@[simp] theorem State.withChk_drv (s : State) (v : Tbl Byte) : (s.withChk v).drv = s.drv := rfl
@[simp] theorem State.withChk_apply (s : State) (v : Tbl Byte) : (s.withChk v).apply = s.apply := rfl
@[simp] theorem State.withChk_pos (s : State) (v : Tbl Byte) : (s.withChk v).pos = s.pos := rfl
@[simp] theorem State.withChk_piste (s : State) (v : Tbl Byte) : (s.withChk v).piste = s.piste := rfl
@[simp] theorem State.withChk_cal (s : State) (v : Tbl Byte) : (s.withChk v).cal = s.cal := rfl
@[simp] theorem State.withChk_diag (s : State) (v : Tbl Byte) : (s.withChk v).diag = s.diag := rfl
@[simp] theorem State.withChk_clk (s : State) (v : Tbl Byte) : (s.withChk v).clk = s.clk := rfl
@[simp] theorem State.withChk_start (s : State) (v : Tbl Byte) : (s.withChk v).start = s.start := rfl
@[simp] theorem State.withChk_tst (s : State) (v : Tbl Byte) : (s.withChk v).tst = s.tst := rfl
@[simp] theorem State.withChk_thm (s : State) (v : Tbl Byte) : (s.withChk v).thm = s.thm := rfl
@[simp] theorem State.withChk_dram (s : State) (v : Tbl Byte) : (s.withChk v).dram = s.dram := rfl
@[simp] theorem State.withChk_chk (s : State) (v : Tbl Byte) : (s.withChk v).chk = v := rfl
@[simp] theorem State.withChk_herder (s : State) (v : Tbl Byte) : (s.withChk v).herder = s.herder := rfl
@[simp] theorem State.withChk_pwr (s : State) (v : Tbl Byte) : (s.withChk v).pwr = s.pwr := rfl
@[simp] theorem State.withChk_pins (s : State) (v : Tbl Byte) : (s.withChk v).pins = s.pins := rfl
@[simp] theorem State.withChk_out (s : State) (v : Tbl Byte) : (s.withChk v).out = s.out := rfl
@[simp] theorem State.withChk_freeCtr (s : State) (v : Tbl Byte) : (s.withChk v).freeCtr = s.freeCtr := rfl
@[simp] theorem State.withChk_pending (s : State) (v : Tbl Byte) : (s.withChk v).pending = s.pending := rfl
@[simp] theorem State.withHerder_part (s : State) (v : Herder) : (s.withHerder v).part = s.part := rfl
@[simp] theorem State.withHerder_regs (s : State) (v : Herder) : (s.withHerder v).regs = s.regs := rfl
@[simp] theorem State.withHerder_latch (s : State) (v : Herder) : (s.withHerder v).latch = s.latch := rfl
@[simp] theorem State.withHerder_nv (s : State) (v : Herder) : (s.withHerder v).nv = s.nv := rfl
@[simp] theorem State.withHerder_ao (s : State) (v : Herder) : (s.withHerder v).ao = s.ao := rfl
@[simp] theorem State.withHerder_fold (s : State) (v : Herder) : (s.withHerder v).fold = s.fold := rfl
@[simp] theorem State.withHerder_box (s : State) (v : Herder) : (s.withHerder v).box = s.box := rfl
@[simp] theorem State.withHerder_sec (s : State) (v : Herder) : (s.withHerder v).sec = s.sec := rfl
@[simp] theorem State.withHerder_evt (s : State) (v : Herder) : (s.withHerder v).evt = s.evt := rfl
@[simp] theorem State.withHerder_pci (s : State) (v : Herder) : (s.withHerder v).pci = s.pci := rfl
@[simp] theorem State.withHerder_mdio (s : State) (v : Herder) : (s.withHerder v).mdio = s.mdio := rfl
@[simp] theorem State.withHerder_cen (s : State) (v : Herder) : (s.withHerder v).cen = s.cen := rfl
@[simp] theorem State.withHerder_evid (s : State) (v : Herder) : (s.withHerder v).evid = s.evid := rfl
@[simp] theorem State.withHerder_pch (s : State) (v : Herder) : (s.withHerder v).pch = s.pch := rfl
@[simp] theorem State.withHerder_bank (s : State) (v : Herder) : (s.withHerder v).bank = s.bank := rfl
@[simp] theorem State.withHerder_line (s : State) (v : Herder) : (s.withHerder v).line = s.line := rfl
@[simp] theorem State.withHerder_pad (s : State) (v : Herder) : (s.withHerder v).pad = s.pad := rfl
@[simp] theorem State.withHerder_lane (s : State) (v : Herder) : (s.withHerder v).lane = s.lane := rfl
@[simp] theorem State.withHerder_trv (s : State) (v : Herder) : (s.withHerder v).trv = s.trv := rfl
@[simp] theorem State.withHerder_drv (s : State) (v : Herder) : (s.withHerder v).drv = s.drv := rfl
@[simp] theorem State.withHerder_apply (s : State) (v : Herder) : (s.withHerder v).apply = s.apply := rfl
@[simp] theorem State.withHerder_pos (s : State) (v : Herder) : (s.withHerder v).pos = s.pos := rfl
@[simp] theorem State.withHerder_piste (s : State) (v : Herder) : (s.withHerder v).piste = s.piste := rfl
@[simp] theorem State.withHerder_cal (s : State) (v : Herder) : (s.withHerder v).cal = s.cal := rfl
@[simp] theorem State.withHerder_diag (s : State) (v : Herder) : (s.withHerder v).diag = s.diag := rfl
@[simp] theorem State.withHerder_clk (s : State) (v : Herder) : (s.withHerder v).clk = s.clk := rfl
@[simp] theorem State.withHerder_start (s : State) (v : Herder) : (s.withHerder v).start = s.start := rfl
@[simp] theorem State.withHerder_tst (s : State) (v : Herder) : (s.withHerder v).tst = s.tst := rfl
@[simp] theorem State.withHerder_thm (s : State) (v : Herder) : (s.withHerder v).thm = s.thm := rfl
@[simp] theorem State.withHerder_dram (s : State) (v : Herder) : (s.withHerder v).dram = s.dram := rfl
@[simp] theorem State.withHerder_chk (s : State) (v : Herder) : (s.withHerder v).chk = s.chk := rfl
@[simp] theorem State.withHerder_herder (s : State) (v : Herder) : (s.withHerder v).herder = v := rfl
@[simp] theorem State.withHerder_pwr (s : State) (v : Herder) : (s.withHerder v).pwr = s.pwr := rfl
@[simp] theorem State.withHerder_pins (s : State) (v : Herder) : (s.withHerder v).pins = s.pins := rfl
@[simp] theorem State.withHerder_out (s : State) (v : Herder) : (s.withHerder v).out = s.out := rfl
@[simp] theorem State.withHerder_freeCtr (s : State) (v : Herder) : (s.withHerder v).freeCtr = s.freeCtr := rfl
@[simp] theorem State.withHerder_pending (s : State) (v : Herder) : (s.withHerder v).pending = s.pending := rfl
@[simp] theorem State.withPwr_part (s : State) (v : Pwr) : (s.withPwr v).part = s.part := rfl
@[simp] theorem State.withPwr_regs (s : State) (v : Pwr) : (s.withPwr v).regs = s.regs := rfl
@[simp] theorem State.withPwr_latch (s : State) (v : Pwr) : (s.withPwr v).latch = s.latch := rfl
@[simp] theorem State.withPwr_nv (s : State) (v : Pwr) : (s.withPwr v).nv = s.nv := rfl
@[simp] theorem State.withPwr_ao (s : State) (v : Pwr) : (s.withPwr v).ao = s.ao := rfl
@[simp] theorem State.withPwr_fold (s : State) (v : Pwr) : (s.withPwr v).fold = s.fold := rfl
@[simp] theorem State.withPwr_box (s : State) (v : Pwr) : (s.withPwr v).box = s.box := rfl
@[simp] theorem State.withPwr_sec (s : State) (v : Pwr) : (s.withPwr v).sec = s.sec := rfl
@[simp] theorem State.withPwr_evt (s : State) (v : Pwr) : (s.withPwr v).evt = s.evt := rfl
@[simp] theorem State.withPwr_pci (s : State) (v : Pwr) : (s.withPwr v).pci = s.pci := rfl
@[simp] theorem State.withPwr_mdio (s : State) (v : Pwr) : (s.withPwr v).mdio = s.mdio := rfl
@[simp] theorem State.withPwr_cen (s : State) (v : Pwr) : (s.withPwr v).cen = s.cen := rfl
@[simp] theorem State.withPwr_evid (s : State) (v : Pwr) : (s.withPwr v).evid = s.evid := rfl
@[simp] theorem State.withPwr_pch (s : State) (v : Pwr) : (s.withPwr v).pch = s.pch := rfl
@[simp] theorem State.withPwr_bank (s : State) (v : Pwr) : (s.withPwr v).bank = s.bank := rfl
@[simp] theorem State.withPwr_line (s : State) (v : Pwr) : (s.withPwr v).line = s.line := rfl
@[simp] theorem State.withPwr_pad (s : State) (v : Pwr) : (s.withPwr v).pad = s.pad := rfl
@[simp] theorem State.withPwr_lane (s : State) (v : Pwr) : (s.withPwr v).lane = s.lane := rfl
@[simp] theorem State.withPwr_trv (s : State) (v : Pwr) : (s.withPwr v).trv = s.trv := rfl
@[simp] theorem State.withPwr_drv (s : State) (v : Pwr) : (s.withPwr v).drv = s.drv := rfl
@[simp] theorem State.withPwr_apply (s : State) (v : Pwr) : (s.withPwr v).apply = s.apply := rfl
@[simp] theorem State.withPwr_pos (s : State) (v : Pwr) : (s.withPwr v).pos = s.pos := rfl
@[simp] theorem State.withPwr_piste (s : State) (v : Pwr) : (s.withPwr v).piste = s.piste := rfl
@[simp] theorem State.withPwr_cal (s : State) (v : Pwr) : (s.withPwr v).cal = s.cal := rfl
@[simp] theorem State.withPwr_diag (s : State) (v : Pwr) : (s.withPwr v).diag = s.diag := rfl
@[simp] theorem State.withPwr_clk (s : State) (v : Pwr) : (s.withPwr v).clk = s.clk := rfl
@[simp] theorem State.withPwr_start (s : State) (v : Pwr) : (s.withPwr v).start = s.start := rfl
@[simp] theorem State.withPwr_tst (s : State) (v : Pwr) : (s.withPwr v).tst = s.tst := rfl
@[simp] theorem State.withPwr_thm (s : State) (v : Pwr) : (s.withPwr v).thm = s.thm := rfl
@[simp] theorem State.withPwr_dram (s : State) (v : Pwr) : (s.withPwr v).dram = s.dram := rfl
@[simp] theorem State.withPwr_chk (s : State) (v : Pwr) : (s.withPwr v).chk = s.chk := rfl
@[simp] theorem State.withPwr_herder (s : State) (v : Pwr) : (s.withPwr v).herder = s.herder := rfl
@[simp] theorem State.withPwr_pwr (s : State) (v : Pwr) : (s.withPwr v).pwr = v := rfl
@[simp] theorem State.withPwr_pins (s : State) (v : Pwr) : (s.withPwr v).pins = s.pins := rfl
@[simp] theorem State.withPwr_out (s : State) (v : Pwr) : (s.withPwr v).out = s.out := rfl
@[simp] theorem State.withPwr_freeCtr (s : State) (v : Pwr) : (s.withPwr v).freeCtr = s.freeCtr := rfl
@[simp] theorem State.withPwr_pending (s : State) (v : Pwr) : (s.withPwr v).pending = s.pending := rfl
@[simp] theorem State.withPins_part (s : State) (v : Pins) : (s.withPins v).part = s.part := rfl
@[simp] theorem State.withPins_regs (s : State) (v : Pins) : (s.withPins v).regs = s.regs := rfl
@[simp] theorem State.withPins_latch (s : State) (v : Pins) : (s.withPins v).latch = s.latch := rfl
@[simp] theorem State.withPins_nv (s : State) (v : Pins) : (s.withPins v).nv = s.nv := rfl
@[simp] theorem State.withPins_ao (s : State) (v : Pins) : (s.withPins v).ao = s.ao := rfl
@[simp] theorem State.withPins_fold (s : State) (v : Pins) : (s.withPins v).fold = s.fold := rfl
@[simp] theorem State.withPins_box (s : State) (v : Pins) : (s.withPins v).box = s.box := rfl
@[simp] theorem State.withPins_sec (s : State) (v : Pins) : (s.withPins v).sec = s.sec := rfl
@[simp] theorem State.withPins_evt (s : State) (v : Pins) : (s.withPins v).evt = s.evt := rfl
@[simp] theorem State.withPins_pci (s : State) (v : Pins) : (s.withPins v).pci = s.pci := rfl
@[simp] theorem State.withPins_mdio (s : State) (v : Pins) : (s.withPins v).mdio = s.mdio := rfl
@[simp] theorem State.withPins_cen (s : State) (v : Pins) : (s.withPins v).cen = s.cen := rfl
@[simp] theorem State.withPins_evid (s : State) (v : Pins) : (s.withPins v).evid = s.evid := rfl
@[simp] theorem State.withPins_pch (s : State) (v : Pins) : (s.withPins v).pch = s.pch := rfl
@[simp] theorem State.withPins_bank (s : State) (v : Pins) : (s.withPins v).bank = s.bank := rfl
@[simp] theorem State.withPins_line (s : State) (v : Pins) : (s.withPins v).line = s.line := rfl
@[simp] theorem State.withPins_pad (s : State) (v : Pins) : (s.withPins v).pad = s.pad := rfl
@[simp] theorem State.withPins_lane (s : State) (v : Pins) : (s.withPins v).lane = s.lane := rfl
@[simp] theorem State.withPins_trv (s : State) (v : Pins) : (s.withPins v).trv = s.trv := rfl
@[simp] theorem State.withPins_drv (s : State) (v : Pins) : (s.withPins v).drv = s.drv := rfl
@[simp] theorem State.withPins_apply (s : State) (v : Pins) : (s.withPins v).apply = s.apply := rfl
@[simp] theorem State.withPins_pos (s : State) (v : Pins) : (s.withPins v).pos = s.pos := rfl
@[simp] theorem State.withPins_piste (s : State) (v : Pins) : (s.withPins v).piste = s.piste := rfl
@[simp] theorem State.withPins_cal (s : State) (v : Pins) : (s.withPins v).cal = s.cal := rfl
@[simp] theorem State.withPins_diag (s : State) (v : Pins) : (s.withPins v).diag = s.diag := rfl
@[simp] theorem State.withPins_clk (s : State) (v : Pins) : (s.withPins v).clk = s.clk := rfl
@[simp] theorem State.withPins_start (s : State) (v : Pins) : (s.withPins v).start = s.start := rfl
@[simp] theorem State.withPins_tst (s : State) (v : Pins) : (s.withPins v).tst = s.tst := rfl
@[simp] theorem State.withPins_thm (s : State) (v : Pins) : (s.withPins v).thm = s.thm := rfl
@[simp] theorem State.withPins_dram (s : State) (v : Pins) : (s.withPins v).dram = s.dram := rfl
@[simp] theorem State.withPins_chk (s : State) (v : Pins) : (s.withPins v).chk = s.chk := rfl
@[simp] theorem State.withPins_herder (s : State) (v : Pins) : (s.withPins v).herder = s.herder := rfl
@[simp] theorem State.withPins_pwr (s : State) (v : Pins) : (s.withPins v).pwr = s.pwr := rfl
@[simp] theorem State.withPins_pins (s : State) (v : Pins) : (s.withPins v).pins = v := rfl
@[simp] theorem State.withPins_out (s : State) (v : Pins) : (s.withPins v).out = s.out := rfl
@[simp] theorem State.withPins_freeCtr (s : State) (v : Pins) : (s.withPins v).freeCtr = s.freeCtr := rfl
@[simp] theorem State.withPins_pending (s : State) (v : Pins) : (s.withPins v).pending = s.pending := rfl
@[simp] theorem State.withOut_part (s : State) (v : List Output) : (s.withOut v).part = s.part := rfl
@[simp] theorem State.withOut_regs (s : State) (v : List Output) : (s.withOut v).regs = s.regs := rfl
@[simp] theorem State.withOut_latch (s : State) (v : List Output) : (s.withOut v).latch = s.latch := rfl
@[simp] theorem State.withOut_nv (s : State) (v : List Output) : (s.withOut v).nv = s.nv := rfl
@[simp] theorem State.withOut_ao (s : State) (v : List Output) : (s.withOut v).ao = s.ao := rfl
@[simp] theorem State.withOut_fold (s : State) (v : List Output) : (s.withOut v).fold = s.fold := rfl
@[simp] theorem State.withOut_box (s : State) (v : List Output) : (s.withOut v).box = s.box := rfl
@[simp] theorem State.withOut_sec (s : State) (v : List Output) : (s.withOut v).sec = s.sec := rfl
@[simp] theorem State.withOut_evt (s : State) (v : List Output) : (s.withOut v).evt = s.evt := rfl
@[simp] theorem State.withOut_pci (s : State) (v : List Output) : (s.withOut v).pci = s.pci := rfl
@[simp] theorem State.withOut_mdio (s : State) (v : List Output) : (s.withOut v).mdio = s.mdio := rfl
@[simp] theorem State.withOut_cen (s : State) (v : List Output) : (s.withOut v).cen = s.cen := rfl
@[simp] theorem State.withOut_evid (s : State) (v : List Output) : (s.withOut v).evid = s.evid := rfl
@[simp] theorem State.withOut_pch (s : State) (v : List Output) : (s.withOut v).pch = s.pch := rfl
@[simp] theorem State.withOut_bank (s : State) (v : List Output) : (s.withOut v).bank = s.bank := rfl
@[simp] theorem State.withOut_line (s : State) (v : List Output) : (s.withOut v).line = s.line := rfl
@[simp] theorem State.withOut_pad (s : State) (v : List Output) : (s.withOut v).pad = s.pad := rfl
@[simp] theorem State.withOut_lane (s : State) (v : List Output) : (s.withOut v).lane = s.lane := rfl
@[simp] theorem State.withOut_trv (s : State) (v : List Output) : (s.withOut v).trv = s.trv := rfl
@[simp] theorem State.withOut_drv (s : State) (v : List Output) : (s.withOut v).drv = s.drv := rfl
@[simp] theorem State.withOut_apply (s : State) (v : List Output) : (s.withOut v).apply = s.apply := rfl
@[simp] theorem State.withOut_pos (s : State) (v : List Output) : (s.withOut v).pos = s.pos := rfl
@[simp] theorem State.withOut_piste (s : State) (v : List Output) : (s.withOut v).piste = s.piste := rfl
@[simp] theorem State.withOut_cal (s : State) (v : List Output) : (s.withOut v).cal = s.cal := rfl
@[simp] theorem State.withOut_diag (s : State) (v : List Output) : (s.withOut v).diag = s.diag := rfl
@[simp] theorem State.withOut_clk (s : State) (v : List Output) : (s.withOut v).clk = s.clk := rfl
@[simp] theorem State.withOut_start (s : State) (v : List Output) : (s.withOut v).start = s.start := rfl
@[simp] theorem State.withOut_tst (s : State) (v : List Output) : (s.withOut v).tst = s.tst := rfl
@[simp] theorem State.withOut_thm (s : State) (v : List Output) : (s.withOut v).thm = s.thm := rfl
@[simp] theorem State.withOut_dram (s : State) (v : List Output) : (s.withOut v).dram = s.dram := rfl
@[simp] theorem State.withOut_chk (s : State) (v : List Output) : (s.withOut v).chk = s.chk := rfl
@[simp] theorem State.withOut_herder (s : State) (v : List Output) : (s.withOut v).herder = s.herder := rfl
@[simp] theorem State.withOut_pwr (s : State) (v : List Output) : (s.withOut v).pwr = s.pwr := rfl
@[simp] theorem State.withOut_pins (s : State) (v : List Output) : (s.withOut v).pins = s.pins := rfl
@[simp] theorem State.withOut_out (s : State) (v : List Output) : (s.withOut v).out = v := rfl
@[simp] theorem State.withOut_freeCtr (s : State) (v : List Output) : (s.withOut v).freeCtr = s.freeCtr := rfl
@[simp] theorem State.withOut_pending (s : State) (v : List Output) : (s.withOut v).pending = s.pending := rfl
@[simp] theorem State.withFreeCtr_part (s : State) (v : Nat) : (s.withFreeCtr v).part = s.part := rfl
@[simp] theorem State.withFreeCtr_regs (s : State) (v : Nat) : (s.withFreeCtr v).regs = s.regs := rfl
@[simp] theorem State.withFreeCtr_latch (s : State) (v : Nat) : (s.withFreeCtr v).latch = s.latch := rfl
@[simp] theorem State.withFreeCtr_nv (s : State) (v : Nat) : (s.withFreeCtr v).nv = s.nv := rfl
@[simp] theorem State.withFreeCtr_ao (s : State) (v : Nat) : (s.withFreeCtr v).ao = s.ao := rfl
@[simp] theorem State.withFreeCtr_fold (s : State) (v : Nat) : (s.withFreeCtr v).fold = s.fold := rfl
@[simp] theorem State.withFreeCtr_box (s : State) (v : Nat) : (s.withFreeCtr v).box = s.box := rfl
@[simp] theorem State.withFreeCtr_sec (s : State) (v : Nat) : (s.withFreeCtr v).sec = s.sec := rfl
@[simp] theorem State.withFreeCtr_evt (s : State) (v : Nat) : (s.withFreeCtr v).evt = s.evt := rfl
@[simp] theorem State.withFreeCtr_pci (s : State) (v : Nat) : (s.withFreeCtr v).pci = s.pci := rfl
@[simp] theorem State.withFreeCtr_mdio (s : State) (v : Nat) : (s.withFreeCtr v).mdio = s.mdio := rfl
@[simp] theorem State.withFreeCtr_cen (s : State) (v : Nat) : (s.withFreeCtr v).cen = s.cen := rfl
@[simp] theorem State.withFreeCtr_evid (s : State) (v : Nat) : (s.withFreeCtr v).evid = s.evid := rfl
@[simp] theorem State.withFreeCtr_pch (s : State) (v : Nat) : (s.withFreeCtr v).pch = s.pch := rfl
@[simp] theorem State.withFreeCtr_bank (s : State) (v : Nat) : (s.withFreeCtr v).bank = s.bank := rfl
@[simp] theorem State.withFreeCtr_line (s : State) (v : Nat) : (s.withFreeCtr v).line = s.line := rfl
@[simp] theorem State.withFreeCtr_pad (s : State) (v : Nat) : (s.withFreeCtr v).pad = s.pad := rfl
@[simp] theorem State.withFreeCtr_lane (s : State) (v : Nat) : (s.withFreeCtr v).lane = s.lane := rfl
@[simp] theorem State.withFreeCtr_trv (s : State) (v : Nat) : (s.withFreeCtr v).trv = s.trv := rfl
@[simp] theorem State.withFreeCtr_drv (s : State) (v : Nat) : (s.withFreeCtr v).drv = s.drv := rfl
@[simp] theorem State.withFreeCtr_apply (s : State) (v : Nat) : (s.withFreeCtr v).apply = s.apply := rfl
@[simp] theorem State.withFreeCtr_pos (s : State) (v : Nat) : (s.withFreeCtr v).pos = s.pos := rfl
@[simp] theorem State.withFreeCtr_piste (s : State) (v : Nat) : (s.withFreeCtr v).piste = s.piste := rfl
@[simp] theorem State.withFreeCtr_cal (s : State) (v : Nat) : (s.withFreeCtr v).cal = s.cal := rfl
@[simp] theorem State.withFreeCtr_diag (s : State) (v : Nat) : (s.withFreeCtr v).diag = s.diag := rfl
@[simp] theorem State.withFreeCtr_clk (s : State) (v : Nat) : (s.withFreeCtr v).clk = s.clk := rfl
@[simp] theorem State.withFreeCtr_start (s : State) (v : Nat) : (s.withFreeCtr v).start = s.start := rfl
@[simp] theorem State.withFreeCtr_tst (s : State) (v : Nat) : (s.withFreeCtr v).tst = s.tst := rfl
@[simp] theorem State.withFreeCtr_thm (s : State) (v : Nat) : (s.withFreeCtr v).thm = s.thm := rfl
@[simp] theorem State.withFreeCtr_dram (s : State) (v : Nat) : (s.withFreeCtr v).dram = s.dram := rfl
@[simp] theorem State.withFreeCtr_chk (s : State) (v : Nat) : (s.withFreeCtr v).chk = s.chk := rfl
@[simp] theorem State.withFreeCtr_herder (s : State) (v : Nat) : (s.withFreeCtr v).herder = s.herder := rfl
@[simp] theorem State.withFreeCtr_pwr (s : State) (v : Nat) : (s.withFreeCtr v).pwr = s.pwr := rfl
@[simp] theorem State.withFreeCtr_pins (s : State) (v : Nat) : (s.withFreeCtr v).pins = s.pins := rfl
@[simp] theorem State.withFreeCtr_out (s : State) (v : Nat) : (s.withFreeCtr v).out = s.out := rfl
@[simp] theorem State.withFreeCtr_freeCtr (s : State) (v : Nat) : (s.withFreeCtr v).freeCtr = v := rfl
@[simp] theorem State.withFreeCtr_pending (s : State) (v : Nat) : (s.withFreeCtr v).pending = s.pending := rfl
@[simp] theorem State.withPending_part (s : State) (v : List Instr) : (s.withPending v).part = s.part := rfl
@[simp] theorem State.withPending_regs (s : State) (v : List Instr) : (s.withPending v).regs = s.regs := rfl
@[simp] theorem State.withPending_latch (s : State) (v : List Instr) : (s.withPending v).latch = s.latch := rfl
@[simp] theorem State.withPending_nv (s : State) (v : List Instr) : (s.withPending v).nv = s.nv := rfl
@[simp] theorem State.withPending_ao (s : State) (v : List Instr) : (s.withPending v).ao = s.ao := rfl
@[simp] theorem State.withPending_fold (s : State) (v : List Instr) : (s.withPending v).fold = s.fold := rfl
@[simp] theorem State.withPending_box (s : State) (v : List Instr) : (s.withPending v).box = s.box := rfl
@[simp] theorem State.withPending_sec (s : State) (v : List Instr) : (s.withPending v).sec = s.sec := rfl
@[simp] theorem State.withPending_evt (s : State) (v : List Instr) : (s.withPending v).evt = s.evt := rfl
@[simp] theorem State.withPending_pci (s : State) (v : List Instr) : (s.withPending v).pci = s.pci := rfl
@[simp] theorem State.withPending_mdio (s : State) (v : List Instr) : (s.withPending v).mdio = s.mdio := rfl
@[simp] theorem State.withPending_cen (s : State) (v : List Instr) : (s.withPending v).cen = s.cen := rfl
@[simp] theorem State.withPending_evid (s : State) (v : List Instr) : (s.withPending v).evid = s.evid := rfl
@[simp] theorem State.withPending_pch (s : State) (v : List Instr) : (s.withPending v).pch = s.pch := rfl
@[simp] theorem State.withPending_bank (s : State) (v : List Instr) : (s.withPending v).bank = s.bank := rfl
@[simp] theorem State.withPending_line (s : State) (v : List Instr) : (s.withPending v).line = s.line := rfl
@[simp] theorem State.withPending_pad (s : State) (v : List Instr) : (s.withPending v).pad = s.pad := rfl
@[simp] theorem State.withPending_lane (s : State) (v : List Instr) : (s.withPending v).lane = s.lane := rfl
@[simp] theorem State.withPending_trv (s : State) (v : List Instr) : (s.withPending v).trv = s.trv := rfl
@[simp] theorem State.withPending_drv (s : State) (v : List Instr) : (s.withPending v).drv = s.drv := rfl
@[simp] theorem State.withPending_apply (s : State) (v : List Instr) : (s.withPending v).apply = s.apply := rfl
@[simp] theorem State.withPending_pos (s : State) (v : List Instr) : (s.withPending v).pos = s.pos := rfl
@[simp] theorem State.withPending_piste (s : State) (v : List Instr) : (s.withPending v).piste = s.piste := rfl
@[simp] theorem State.withPending_cal (s : State) (v : List Instr) : (s.withPending v).cal = s.cal := rfl
@[simp] theorem State.withPending_diag (s : State) (v : List Instr) : (s.withPending v).diag = s.diag := rfl
@[simp] theorem State.withPending_clk (s : State) (v : List Instr) : (s.withPending v).clk = s.clk := rfl
@[simp] theorem State.withPending_start (s : State) (v : List Instr) : (s.withPending v).start = s.start := rfl
@[simp] theorem State.withPending_tst (s : State) (v : List Instr) : (s.withPending v).tst = s.tst := rfl
@[simp] theorem State.withPending_thm (s : State) (v : List Instr) : (s.withPending v).thm = s.thm := rfl
@[simp] theorem State.withPending_dram (s : State) (v : List Instr) : (s.withPending v).dram = s.dram := rfl
@[simp] theorem State.withPending_chk (s : State) (v : List Instr) : (s.withPending v).chk = s.chk := rfl
@[simp] theorem State.withPending_herder (s : State) (v : List Instr) : (s.withPending v).herder = s.herder := rfl
@[simp] theorem State.withPending_pwr (s : State) (v : List Instr) : (s.withPending v).pwr = s.pwr := rfl
@[simp] theorem State.withPending_pins (s : State) (v : List Instr) : (s.withPending v).pins = s.pins := rfl
@[simp] theorem State.withPending_out (s : State) (v : List Instr) : (s.withPending v).out = s.out := rfl
@[simp] theorem State.withPending_freeCtr (s : State) (v : List Instr) : (s.withPending v).freeCtr = s.freeCtr := rfl
@[simp] theorem State.withPending_pending (s : State) (v : List Instr) : (s.withPending v).pending = v := rfl

end Sys2Proof.Machine
end

