-- ==== Sys2Proof/Laws/Tbl.lean ====
section
/-!
SUPPORT. Reading a table after writing it, and that every table operation keeps the canonical form.
-/
namespace Sys2Proof.Machine

variable {α : Type}

theorem Tbl.get_drop_self (t : Tbl α) (d : α) (k : Nat) : Tbl.get (Tbl.drop t k) d k = d := by
  induction t with
  | nil => rfl
  | cons e r ih =>
    obtain ⟨j, v⟩ := e
    by_cases h : j = k <;> simp [Tbl.drop, Tbl.get, h, ih]

theorem Tbl.get_drop_ne (t : Tbl α) (d : α) {k j : Nat} (hk : j ≠ k) : Tbl.get (Tbl.drop t k) d j = Tbl.get t d j := by
  induction t with
  | nil => rfl
  | cons e r ih =>
    obtain ⟨i, v⟩ := e
    by_cases h : i = k
    · subst h; simp [Tbl.drop, Tbl.get, ih, Ne.symm hk]
    · rw [Tbl.drop, if_neg h]
      by_cases h' : i = j <;> simp [Tbl.get, h', ih]

theorem Tbl.get_place_self (t : Tbl α) (d : α) (k : Nat) (v : α) :
    Tbl.get (Tbl.place (Tbl.drop t k) k v) d k = v := by
  induction t with
  | nil => simp [Tbl.drop, Tbl.place, Tbl.get]
  | cons e r ih =>
    obtain ⟨j, w⟩ := e
    by_cases h : j = k
    · simpa [Tbl.drop, h] using ih
    · by_cases h' : k < j <;> simp [Tbl.drop, Tbl.place, Tbl.get, h, h', ih]

theorem Tbl.get_place_ne (t : Tbl α) (d : α) {k j : Nat} (v : α) (hk : j ≠ k) :
    Tbl.get (Tbl.place t k v) d j = Tbl.get t d j := by
  induction t with
  | nil => simp [Tbl.place, Tbl.get, Ne.symm hk]
  | cons e r ih =>
    obtain ⟨i, w⟩ := e
    by_cases h : k < i
    · simp [Tbl.place, Tbl.get, h, Ne.symm hk]
    · rw [Tbl.place, if_neg h]
      by_cases h' : i = j <;> simp [Tbl.get, h', ih]

variable [DecidableEq α]

/-- A table reads what was written to it. -/
@[simp] theorem Tbl.get_set_self (t : Tbl α) (d : α) (k : Nat) (v : α) : Tbl.get (Tbl.set t d k v) d k = v := by
  unfold Tbl.set
  by_cases h : v = d
  · simp [h, Tbl.get_drop_self]
  · simp [h, Tbl.get_place_self t d k v]

/-- A write leaves every other key as it was. -/
theorem Tbl.get_set_ne (t : Tbl α) (d d' : α) {k j : Nat} (v : α) (h : j ≠ k) :
    Tbl.get (Tbl.set t d k v) d' j = Tbl.get t d' j := by
  unfold Tbl.set
  by_cases hv : v = d
  · simp [hv, Tbl.get_drop_ne _ _ h]
  · simp [hv, Tbl.get_place_ne _ _ _ h, Tbl.get_drop_ne _ _ h]

/-! ## The canonical form -/

theorem Tbl.wfFrom_mono {d : Nat → α} {t : Tbl α} {lo lo' : Nat} (h : lo ≤ lo') (w : Tbl.wfFrom d lo' t = true) :
    Tbl.wfFrom d lo t = true := by
  cases t with
  | nil => rfl
  | cons e r =>
    obtain ⟨j, v⟩ := e
    simp only [Tbl.wfFrom, Bool.and_eq_true, decide_eq_true_eq] at w ⊢
    exact ⟨⟨Nat.le_trans h w.1.1, w.1.2⟩, w.2⟩

theorem Tbl.wfFrom_filter {d : Nat → α} (p : Nat × α → Bool) {t : Tbl α} {lo : Nat} (w : Tbl.wfFrom d lo t = true) :
    Tbl.wfFrom d lo (t.filter p) = true := by
  induction t generalizing lo with
  | nil => rfl
  | cons e r ih =>
    obtain ⟨j, v⟩ := e
    simp only [Tbl.wfFrom, Bool.and_eq_true, decide_eq_true_eq] at w
    by_cases hp : p (j, v) = true
    · simp only [List.filter_cons, hp, if_true, Tbl.wfFrom, Bool.and_eq_true, decide_eq_true_eq]
      exact ⟨w.1, ih w.2⟩
    · simp only [List.filter_cons, hp]
      exact Tbl.wfFrom_mono (Nat.le_succ_of_le w.1.1) (ih w.2)

theorem Tbl.wfFrom_drop {d : Nat → α} (k : Nat) {t : Tbl α} {lo : Nat} (w : Tbl.wfFrom d lo t = true) :
    Tbl.wfFrom d lo (Tbl.drop t k) = true := by
  induction t generalizing lo with
  | nil => rfl
  | cons e r ih =>
    obtain ⟨j, v⟩ := e
    simp only [Tbl.wfFrom, Bool.and_eq_true, decide_eq_true_eq] at w
    by_cases hk : j = k
    · simp only [Tbl.drop, hk, if_true]
      exact Tbl.wfFrom_mono (Nat.le_succ_of_le (hk ▸ w.1.1)) (ih (hk ▸ w.2))
    · simp only [Tbl.drop, hk, if_false, Tbl.wfFrom, Bool.and_eq_true, decide_eq_true_eq]
      exact ⟨w.1, ih w.2⟩

theorem Tbl.wfFrom_place {d : Nat → α} (k : Nat) (v : α) (hv : v ≠ d k) {t : Tbl α} {lo : Nat} (hk : lo ≤ k)
    (w : Tbl.wfFrom d lo (Tbl.drop t k) = true) : Tbl.wfFrom d lo (Tbl.place (Tbl.drop t k) k v) = true := by
  induction t generalizing lo with
  | nil => simp [Tbl.drop, Tbl.place, Tbl.wfFrom, hk, hv]
  | cons e r ih =>
    obtain ⟨j, u⟩ := e
    by_cases hj : j = k
    · simp only [Tbl.drop, hj, if_true] at w ⊢
      exact ih hk w
    · simp only [Tbl.drop, hj, if_false, Tbl.wfFrom, Bool.and_eq_true, decide_eq_true_eq] at w ⊢
      by_cases hl : k < j
      · simp only [Tbl.place, hl, if_true, Tbl.wfFrom, Bool.and_eq_true, decide_eq_true_eq]
        exact ⟨⟨hk, hv⟩, ⟨⟨hl, w.1.2⟩, w.2⟩⟩
      · simp only [Tbl.place, hl, if_false, Tbl.wfFrom, Bool.and_eq_true, decide_eq_true_eq]
        exact ⟨w.1, ih (by omega) w.2⟩

/-- A write keeps the canonical form. -/
theorem Tbl.wf_set {d : Nat → α} {t : Tbl α} (k : Nat) (v : α) (w : Tbl.wf d t = true) :
    Tbl.wf d (Tbl.set t (d k) k v) = true := by
  unfold Tbl.set Tbl.wf at *
  by_cases hv : v = d k
  · simpa [hv] using Tbl.wfFrom_drop k w
  · simpa [hv] using Tbl.wfFrom_place k v hv (Nat.zero_le k) (Tbl.wfFrom_drop k w)

/-- Keeping some entries keeps the canonical form. -/
theorem Tbl.wf_filter {d : Nat → α} (p : Nat × α → Bool) {t : Tbl α} (w : Tbl.wf d t = true) :
    Tbl.wf d (t.filter p) = true := Tbl.wfFrom_filter p w

/-- Keeping some keys keeps the canonical form. -/
theorem Tbl.wf_keep {d : Nat → α} (p : Nat → Bool) {t : Tbl α} (w : Tbl.wf d t = true) :
    Tbl.wf d (Tbl.keep t p) = true := Tbl.wfFrom_filter _ w

/-- Changing every listed value, dropping those that come to read as unlisted ones, keeps the canonical form. -/
theorem Tbl.wf_filterMap {d : Nat → α} (g : Nat × α → α) {t : Tbl α} (w : Tbl.wf d t = true) :
    Tbl.wf d (t.filterMap fun e => if g e = d e.1 then none else some (e.1, g e)) = true := by
  unfold Tbl.wf at *
  generalize 0 = lo at w ⊢
  induction t generalizing lo with
  | nil => rfl
  | cons e r ih =>
    obtain ⟨j, v⟩ := e
    simp only [Tbl.wfFrom, Bool.and_eq_true, decide_eq_true_eq] at w
    by_cases hg : g (j, v) = d j
    · simp only [List.filterMap_cons, hg, if_true]
      exact Tbl.wfFrom_mono (Nat.le_succ_of_le w.1.1) (ih _ w.2)
    · simp only [List.filterMap_cons, hg, if_false, Tbl.wfFrom, Bool.and_eq_true, decide_eq_true_eq]
      exact ⟨⟨w.1.1, hg⟩, ih _ w.2⟩

end Sys2Proof.Machine
end

