-- ==== Sys2Proof/Laws/Keeps.lean ====
section
/-!
SUPPORT. What a step can do, said once: every meaning is a chain of the updates listed here (`Upd`), and each operation has one
law that names the kinds of updates it makes, as a set of bits. A property that those kinds of update keep is kept by the
operation, so a frame, an invariant or a canonical form is proved by looking at the updates alone.
-/
namespace Sys2Proof.Machine

/-- One update of the state. -/
inductive Upd where
  | reg (off : Nat) (w : Word)
  | dropRegs (g : RegGroup) (p : Nat → Bool)
  | resetRegs (powerOn : Bool)
  | ao (v : Ao)
  | time (n : Nat)
  | powerOn
  | dram (a : Nat) (v : Byte)
  | keepDram (p : Host.Cell → Bool)
  | noDram
  | chk (a : Nat) (v : Byte)
  | keepChk (p : Nat × Byte → Bool)
  | noChk
  | latch (v : Tbl (Option Word))
  | nv (v : Nv)
  | fold (v : Fold)
  | box (v : Box)
  | sec (v : Sec)
  | evt (v : Evt)
  | pci (v : Pci)
  | mdio (v : Mdio)
  | cen (v : Cen)
  | evid (v : Evid)
  | pch (v : Tbl Pch)
  | bank (v : Tbl Bank)
  | line (v : Tbl Line)
  | pad (v : Tbl Pad)
  | lane (v : Tbl Lane)
  | trv (v : Tbl Trv)
  | drv (v : Drv)
  | apply (v : Apply)
  | pos (v : Pos)
  | piste (v : Piste)
  | cal (v : Tbl Cal)
  | diag (v : Tbl Diag)
  | clk (v : Clk)
  | start (v : Start)
  | tst (v : Tst)
  | thm (v : Thm)
  | herder (v : Herder)
  | pwr (v : Pwr)
  | pins (v : Pins)
  | out (v : List Output)
  | freeCtr (v : Nat)

/-- The state after an update. An update of the always-on fields other than DEV_TIME leaves DEV_TIME; DEV_TIME goes on, or a
power-on reset clears it. -/
def Upd.on (u : Upd) (s : State) : State :=
  match u with
  | .reg off w => s.putWord off w
  | .dropRegs g p => s.withRegs (Tbl.keep s.regs fun a => p a || decide (regGroup a ≠ g))
  | .resetRegs b => s.resetRegs b
  | .ao v => s.withAo { v with time10 := s.ao.time10 }
  | .time n => s.withAo { s.ao with time10 := s.ao.time10 + n }
  | .powerOn => s.withAo {}
  | .dram a v => s.withDram (Tbl.set s.dram 0 a v)
  | .keepDram p => s.withDram (s.dram.filter p)
  | .noDram => s.withDram []
  | .chk a v => s.withChk (Tbl.set s.chk 0 a v)
  | .keepChk p => s.withChk (s.chk.filter p)
  | .noChk => s.withChk []
  | .latch v => s.withLatch v
  | .nv v => s.withNv v
  | .fold v => s.withFold v
  | .box v => s.withBox v
  | .sec v => s.withSec v
  | .evt v => s.withEvt v
  | .pci v => s.withPci v
  | .mdio v => s.withMdio v
  | .cen v => s.withCen v
  | .evid v => s.withEvid v
  | .pch v => s.withPch v
  | .bank v => s.withBank v
  | .line v => s.withLine v
  | .pad v => s.withPad v
  | .lane v => s.withLane v
  | .trv v => s.withTrv v
  | .drv v => s.withDrv v
  | .apply v => s.withApply v
  | .pos v => s.withPos v
  | .piste v => s.withPiste v
  | .cal v => s.withCal v
  | .diag v => s.withDiag v
  | .clk v => s.withClk v
  | .start v => s.withStart v
  | .tst v => s.withTst v
  | .thm v => s.withThm v
  | .herder v => s.withHerder v
  | .pwr v => s.withPwr v
  | .pins v => s.withPins v
  | .out v => s.withOut v
  | .freeCtr v => s.withFreeCtr v

/-- The bit of a group of registers. -/
def RegGroup.kind : RegGroup → Nat
  | .dev => 48
  | .msix => 49
  | .stage => 50
  | .evt => 51
  | .cmd => 52
  | .portLink => 53
  | .portIlm => 54
  | .portPad => 55
  | .portTrv => 56
  | .portCal => 57
  | .portTone => 58
  | .slices => 59
  | .memCtl => 60
  | .memInteg => 61
  | .freezeRec => 62
  | .memTrain => 63
  | .memCal => 64
  | .fab => 65
  | .lane => 66
  | .clk => 67
  | .pwr => 68
  | .drv => 69
  | .thm => 70
  | .cal => 71
  | .pos => 72
  | .piste => 73
  | .cen => 74
  | .evid => 75
  | .sec => 76
  | .tst => 77
  | .other => 78
  | .evtCfg => 79

/-- The kind of an update, as a bit number: the field it writes, and of a register write the group of the register. DEV_TIME going
on is a kind of its own (37), and so are the clearing of the always-on fields (38) and a reset's rewriting of the registers (39). -/
def Upd.kind (u : Upd) : Nat :=
  match u with
  | .reg off _ => (regGroup off).kind
  | .dropRegs g _ => g.kind
  | .resetRegs _ => 39
  | .ao _ => 4
  | .time _ => 37
  | .powerOn => 38
  | .dram _ _ => 29
  | .keepDram _ => 29
  | .noDram => 29
  | .chk _ _ => 30
  | .keepChk _ => 30
  | .noChk => 30
  | .latch _ => 2
  | .nv _ => 3
  | .fold _ => 5
  | .box _ => 6
  | .sec _ => 7
  | .evt _ => 8
  | .pci _ => 9
  | .mdio _ => 10
  | .cen _ => 11
  | .evid _ => 12
  | .pch _ => 13
  | .bank _ => 14
  | .line _ => 15
  | .pad _ => 16
  | .lane _ => 17
  | .trv _ => 18
  | .drv _ => 19
  | .apply _ => 20
  | .pos _ => 21
  | .piste _ => 22
  | .cal _ => 23
  | .diag _ => 24
  | .clk _ => 25
  | .start _ => 26
  | .tst _ => 27
  | .thm _ => 28
  | .herder _ => 31
  | .pwr _ => 32
  | .pins _ => 33
  | .out _ => 34
  | .freeCtr _ => 35

/-- The property `P` is kept by every update whose kind is a bit of `m`. -/
def Closed (m : Nat) (P : State → Prop) : Prop := ∀ u : Upd, m.testBit u.kind = true → ∀ s, P s → P (u.on s)

/-- The same of an outcome that is a next state. -/
def OutIs (P : State → Prop) : Host.Outcome State Fault Refusal → Prop
  | .next t => P t
  | .fault _ => True
  | .refused _ => True

variable {P : State → Prop} {m k : Nat} {s : State}

theorem Closed.mono (c : Closed m P) (h : k &&& m = k) : Closed k P := by
  intro u hu s hs
  refine c u ?_ s hs
  rw [← h, Nat.testBit_and] at hu
  exact (Bool.and_eq_true _ _ ▸ hu).2

theorem Closed.at {n : Nat} (c : Closed m P) (u : Upd) (e : u.kind = n) (b : m.testBit n = true) (h : P s) : P (u.on s) :=
  c u (by rw [e]; exact b) s h

theorem outIs_next {t : State} (h : P t) : OutIs P (.next t) := h
theorem outIs_fault (f : Fault) : OutIs P (.fault f) := trivial

/-! ## The updates -/

/-- The group of an offset is a bit of the set. -/
def InGroup (m off : Nat) : Prop := m.testBit (regGroup off).kind = true

theorem putWord_keeps {off : Nat} {w : Word} (c : Closed m P) (hg : InGroup m off) (h : P s) : P (s.putWord off w) :=
  c (.reg off w) hg s h
theorem State.put_keeps {f : Fld} {v : Nat} (c : Closed m P) (hg : InGroup m f.off) (h : P s) : P (s.put f v) :=
  putWord_keeps c hg h
theorem State.count_keeps {f : Fld} {k : Nat} (c : Closed m P) (hg : InGroup m f.off) (h : P s) :
    P (s.count f k) := putWord_keeps c hg h
theorem State.putWide_keeps {off v : Nat} (c : Closed m P) (hg : InGroup m off)
    (hg' : InGroup m (off + 4)) (h : P s) : P (s.putWide off v) :=
  putWord_keeps c hg' (putWord_keeps c hg h)
theorem State.putBytes_keeps {off n : Nat} {bs : Bytes} {g : RegGroup} (hr : ∀ a, off ≤ a → a < off + 4 * n → regGroup a = g)
    (c : Closed m P) (hm : m.testBit g.kind = true) (h : P s) : P (s.putBytes off n bs) := by
  induction n generalizing s off bs with
  | zero => exact h
  | succ n ih =>
    refine ih (fun a h1 h2 => hr a (by omega) (by omega)) (putWord_keeps c ?_ h)
    rw [InGroup, hr off (Nat.le_refl _) (by omega)]
    exact hm
theorem State.dropWords_keeps {off len : Nat} {g : RegGroup} (hr : ∀ a, off ≤ a → a < off + len → regGroup a = g)
    (c : Closed m P) (hm : m.testBit g.kind = true) (h : P s) : P (s.dropWords off len) := by
  have e : (fun a => !(decide (off ≤ a) && decide (a < off + len))) =
      fun a => !(decide (off ≤ a) && decide (a < off + len)) || decide (regGroup a ≠ g) := by
    funext a
    by_cases h1 : off ≤ a
    · by_cases h2 : a < off + len
      · simp [h1, h2, hr a h1 h2]
      · simp [h2]
    · simp [h1]
  unfold State.dropWords
  rw [e]
  exact c (.dropRegs g _) hm s h
theorem allGroups {off : Nat} (h : m &&& 1208925819333154197995520 = 1208925819333154197995520) : InGroup m off := by
  have : (m &&& 1208925819333154197995520).testBit (regGroup off).kind = true := by rw [h]; cases regGroup off <;> decide
  rw [Nat.testBit_and] at this
  unfold InGroup
  exact (Bool.and_eq_true _ _ ▸ this).1
theorem iteGroup {p : Prop} [Decidable p] {a b : Nat} (ha : InGroup m a)
    (hb : InGroup m b) : InGroup m (if p then a else b) := by
  split
  · exact ha
  · exact hb
theorem resetRegs_keeps {b : Bool} (c : Closed 549755813888 P) (h : P s) : P (s.resetRegs b) := c.at (n := 39) (.resetRegs b) rfl (by decide) h
theorem withAo_keeps {v : Ao} (c : Closed 16 P) (e : v.time10 = s.ao.time10) (h : P s) : P (s.withAo v) := by
  have := c.at (n := 4) (.ao v) rfl (by decide) h
  simp only [Upd.on, ← e] at this
  exact this
theorem withAo_powerOn {s : State} (c : Closed 274877906944 P) (h : P s) : P (s.withAo {}) := c.at (n := 38) .powerOn rfl (by decide) h
theorem timeOn_keeps {n : Nat} (c : Closed 137438953472 P) (h : P s) : P (s.timeOn n) := c.at (n := 37) (.time (10 * n)) rfl (by decide) h
theorem timeTo_keeps {n : Nat} (c : Closed 137438953472 P) (h : P s) : P (s.timeTo n) := by
  have := c.at (n := 37) (.time (10 * n - s.ao.time10)) rfl (by decide) h
  have e : s.ao.time10 + (10 * n - s.ao.time10) = max s.ao.time10 (10 * n) := by omega
  simp only [Upd.on, e] at this
  exact this
theorem putCell_keeps {a d e : Nat} (c : Closed 1610612736 P) (h : P s) : P (s.putCell a d e) :=
  c.at (n := 30) (.chk a _) rfl (by decide) (c.at (n := 29) (.dram a _) rfl (by decide) h)
theorem dropCells_keeps {p : Nat → Bool} (c : Closed 1610612736 P) (h : P s) : P (s.dropCells p) :=
  c.at (n := 30) (.keepChk _) rfl (by decide) (c.at (n := 29) (.keepDram _) rfl (by decide) h)
theorem withDram_nil (c : Closed 536870912 P) (h : P s) : P (s.withDram []) := c.at (n := 29) .noDram rfl (by decide) h
theorem withChk_nil (c : Closed 1073741824 P) (h : P s) : P (s.withChk []) := c.at (n := 30) .noChk rfl (by decide) h
theorem withLatch_keeps {v : Tbl (Option Word)} (c : Closed 4 P) (h : P s) : P (s.withLatch v) := c.at (n := 2) (.latch v) rfl (by decide) h
theorem withNv_keeps {v : Nv} (c : Closed 8 P) (h : P s) : P (s.withNv v) := c.at (n := 3) (.nv v) rfl (by decide) h
theorem withFold_keeps {v : Fold} (c : Closed 32 P) (h : P s) : P (s.withFold v) := c.at (n := 5) (.fold v) rfl (by decide) h
theorem withBox_keeps {v : Box} (c : Closed 64 P) (h : P s) : P (s.withBox v) := c.at (n := 6) (.box v) rfl (by decide) h
theorem withSec_keeps {v : Sec} (c : Closed 128 P) (h : P s) : P (s.withSec v) := c.at (n := 7) (.sec v) rfl (by decide) h
theorem withEvt_keeps {v : Evt} (c : Closed 256 P) (h : P s) : P (s.withEvt v) := c.at (n := 8) (.evt v) rfl (by decide) h
theorem withPci_keeps {v : Pci} (c : Closed 512 P) (h : P s) : P (s.withPci v) := c.at (n := 9) (.pci v) rfl (by decide) h
theorem withMdio_keeps {v : Mdio} (c : Closed 1024 P) (h : P s) : P (s.withMdio v) := c.at (n := 10) (.mdio v) rfl (by decide) h
theorem withCen_keeps {v : Cen} (c : Closed 2048 P) (h : P s) : P (s.withCen v) := c.at (n := 11) (.cen v) rfl (by decide) h
theorem withEvid_keeps {v : Evid} (c : Closed 4096 P) (h : P s) : P (s.withEvid v) := c.at (n := 12) (.evid v) rfl (by decide) h
theorem withPch_keeps {v : Tbl Pch} (c : Closed 8192 P) (h : P s) : P (s.withPch v) := c.at (n := 13) (.pch v) rfl (by decide) h
theorem withBank_keeps {v : Tbl Bank} (c : Closed 16384 P) (h : P s) : P (s.withBank v) := c.at (n := 14) (.bank v) rfl (by decide) h
theorem withLine_keeps {v : Tbl Line} (c : Closed 32768 P) (h : P s) : P (s.withLine v) := c.at (n := 15) (.line v) rfl (by decide) h
theorem withPad_keeps {v : Tbl Pad} (c : Closed 65536 P) (h : P s) : P (s.withPad v) := c.at (n := 16) (.pad v) rfl (by decide) h
theorem withLane_keeps {v : Tbl Lane} (c : Closed 131072 P) (h : P s) : P (s.withLane v) := c.at (n := 17) (.lane v) rfl (by decide) h
theorem withTrv_keeps {v : Tbl Trv} (c : Closed 262144 P) (h : P s) : P (s.withTrv v) := c.at (n := 18) (.trv v) rfl (by decide) h
theorem withDrv_keeps {v : Drv} (c : Closed 524288 P) (h : P s) : P (s.withDrv v) := c.at (n := 19) (.drv v) rfl (by decide) h
theorem withApply_keeps {v : Apply} (c : Closed 1048576 P) (h : P s) : P (s.withApply v) := c.at (n := 20) (.apply v) rfl (by decide) h
theorem withPos_keeps {v : Pos} (c : Closed 2097152 P) (h : P s) : P (s.withPos v) := c.at (n := 21) (.pos v) rfl (by decide) h
theorem withPiste_keeps {v : Piste} (c : Closed 4194304 P) (h : P s) : P (s.withPiste v) := c.at (n := 22) (.piste v) rfl (by decide) h
theorem withCal_keeps {v : Tbl Cal} (c : Closed 8388608 P) (h : P s) : P (s.withCal v) := c.at (n := 23) (.cal v) rfl (by decide) h
theorem withDiag_keeps {v : Tbl Diag} (c : Closed 16777216 P) (h : P s) : P (s.withDiag v) := c.at (n := 24) (.diag v) rfl (by decide) h
theorem withClk_keeps {v : Clk} (c : Closed 33554432 P) (h : P s) : P (s.withClk v) := c.at (n := 25) (.clk v) rfl (by decide) h
theorem withStart_keeps {v : Start} (c : Closed 67108864 P) (h : P s) : P (s.withStart v) := c.at (n := 26) (.start v) rfl (by decide) h
theorem withTst_keeps {v : Tst} (c : Closed 134217728 P) (h : P s) : P (s.withTst v) := c.at (n := 27) (.tst v) rfl (by decide) h
theorem withThm_keeps {v : Thm} (c : Closed 268435456 P) (h : P s) : P (s.withThm v) := c.at (n := 28) (.thm v) rfl (by decide) h
theorem withHerder_keeps {v : Herder} (c : Closed 2147483648 P) (h : P s) : P (s.withHerder v) := c.at (n := 31) (.herder v) rfl (by decide) h
theorem withPwr_keeps {v : Pwr} (c : Closed 4294967296 P) (h : P s) : P (s.withPwr v) := c.at (n := 32) (.pwr v) rfl (by decide) h
theorem withPins_keeps {v : Pins} (c : Closed 8589934592 P) (h : P s) : P (s.withPins v) := c.at (n := 33) (.pins v) rfl (by decide) h
theorem withOut_keeps {v : List Output} (c : Closed 17179869184 P) (h : P s) : P (s.withOut v) := c.at (n := 34) (.out v) rfl (by decide) h
theorem withFreeCtr_keeps {v : Nat} (c : Closed 34359738368 P) (h : P s) : P (s.withFreeCtr v) := c.at (n := 35) (.freeCtr v) rfl (by decide) h

/-! ## Repetition and choice -/

theorem foldl_keeps {α : Type} {f : State → α → State} {l : List α} (hf : ∀ t a, P t → P (f t a)) (h : P s) : P (l.foldl f s) := by
  induction l generalizing s with
  | nil => exact h
  | cons a l ih => exact ih (hf _ _ h)

theorem foldlFst_keeps {α β : Type} {f : State × β → α → State × β} {l : List α} {x : State × β}
    (hf : ∀ t a, P t.1 → P (f t a).1) (h : P x.1) : P (l.foldl f x).1 := by
  induction l generalizing x with
  | nil => exact h
  | cons a l ih => exact ih (hf _ _ h)

theorem each_keeps {α : Type} {f : State → α → State} {l : List α} (hf : ∀ t a, P t → P (f t a)) (h : P s) : P (s.each l f) :=
  foldl_keeps hf h

theorem each_mem {α : Type} {f : State → α → State} {l : List α} (hf : ∀ t a, a ∈ l → P t → P (f t a)) (h : P s) : P (s.each l f) := by
  unfold State.each
  induction l generalizing s with
  | nil => exact h
  | cons a l ih => exact ih (fun t b hb => hf t b (List.mem_cons_of_mem _ hb)) (hf _ _ (List.mem_cons_self ..) h)

theorem when_keeps {f : State → State} {b : Bool} (hf : ∀ t, P t → P (f t)) (h : P s) : P (s.when b f) := by
  unfold State.when
  split
  · exact hf _ h
  · exact h

theorem id_keeps (h : P s) : P (id s) := h

theorem have_state {t : State} {Q : Prop} (h : P t) (q : P t → Q) : Q := q h
theorem have_pair {α : Type} {p : State × α} {Q : Prop} (h : P p.1) (q : P p.1 → Q) : Q := q h

theorem pair_keeps {α : Type} {p : State × α} {t : State} {a : α} (e : p = (t, a)) (h : P p.1) : P t := by
  subst e
  exact h

end Sys2Proof.Machine
end

