-- ==== Sys2Proof/Laws/Canon.lean ====
section
/-!
SUPPORT. Every update keeps the part and the canonical form of the registers and of the stack's cells, and DEV_TIME runs forward
under every update but a power-on reset's.
-/
namespace Sys2Proof.Machine

/-- A cell write keeps the canonical form of the stack. -/
theorem memory_set_wf {d : List Host.Cell} (a : Nat) (v : Byte) (h : Memory.wf d = true) : Memory.wf (Tbl.set d 0 a v) = true :=
  Tbl.wf_set (d := fun _ => 0) a v h

/-- Dropping cells keeps the canonical form of the stack. -/
theorem memory_filter_wf {d : List Host.Cell} (p : Host.Cell → Bool) (h : Memory.wf d = true) : Memory.wf (d.filter p) = true :=
  Tbl.wf_filter p h

theorem canon_iff (s : State) :
    s.canon = true ↔ Tbl.wf (resetWord s.part) s.regs = true ∧ Memory.wf s.dram = true ∧ Memory.wf s.chk = true := by
  simp [State.canon, and_assoc]

/-- Every update keeps the part and the canonical form. -/
theorem canon_closed (m : Nat) : Closed m (fun t => t.canon = true) := by
  intro u _ s h
  rw [canon_iff] at h ⊢
  obtain ⟨h1, h2, h3⟩ := h
  cases u <;> try exact ⟨h1, h2, h3⟩
  · exact ⟨Tbl.wf_set _ _ h1, h2, h3⟩
  · exact ⟨Tbl.wf_filter _ h1, h2, h3⟩
  · exact ⟨Tbl.wf_filterMap _ h1, h2, h3⟩
  · exact ⟨h1, memory_set_wf _ _ h2, h3⟩
  · exact ⟨h1, memory_filter_wf _ h2, h3⟩
  · exact ⟨h1, rfl, h3⟩
  · exact ⟨h1, h2, memory_set_wf _ _ h3⟩
  · exact ⟨h1, h2, memory_filter_wf _ h3⟩
  · exact ⟨h1, h2, rfl⟩

/-- DEV_TIME runs forward under every update but the clearing of the always-on domain (kind 38). -/
theorem time_closed {m : Nat} (n : Nat) (hm : m.testBit 38 = false) : Closed m (fun t => n ≤ t.ao.time10) := by
  intro u hu s h
  cases u <;> try exact h
  · exact Nat.le_trans h (Nat.le_add_right _ _)
  · exact absurd hu (by simp [Upd.kind, hm])

end Sys2Proof.Machine
end

