-- ==== Sys2Proof/Laws/Reads.lean ====
section
/-!
SUPPORT. Reading a register after an operation: a register field reads what was written to it, and a write leaves every other
word, and every other field of its own word, as it was.
-/
namespace Sys2Proof.Machine

theorem getBits_eq (w : Word) (lo len : Nat) : getBits w lo len = w.toNat / 2 ^ lo % 2 ^ len := by
  simp [getBits, Nat.shiftRight_eq_div_pow]

theorem testBit_getBits (w : Word) (lo len j : Nat) :
    (getBits w lo len).testBit j = (decide (j < len) && w.toNat.testBit (lo + j)) := by
  simp [getBits, Nat.testBit_mod_two_pow, Nat.testBit_shiftRight]

theorem getBits_lt (w : Word) (lo len : Nat) : getBits w lo len < 2 ^ len := Nat.mod_lt _ (Nat.two_pow_pos _)

theorem testBit_mask (len j : Nat) : (2 ^ len - 1).testBit j = decide (j < len) := Nat.testBit_two_pow_sub_one len j

/-- The bits of a word after a field of it is replaced. -/
theorem testBit_setBits (w : Word) (lo len v j : Nat) (hj : j < 32) :
    (setBits w lo len v).toNat.testBit j =
      if lo ≤ j ∧ j < lo + len then v.testBit (j - lo) else w.toNat.testBit j := by
  have hb : ∀ x : Word, x.toNat.testBit j = x.getLsbD j := fun x => rfl
  simp only [hb]
  unfold setBits bitMask
  simp only [BitVec.getLsbD_or, BitVec.getLsbD_and, BitVec.getLsbD_not, BitVec.getLsbD_ofNat, hj, decide_true, Bool.true_and,
    Nat.testBit_shiftLeft, testBit_mask, Nat.testBit_mod_two_pow]
  by_cases h1 : lo ≤ j
  · by_cases h2 : j < lo + len
    · have h3 : j - lo < len := by omega
      simp [h1, h2, h3]
    · have h3 : ¬ j - lo < len := by omega
      simp [h1, h2, h3]
  · simp [h1]

/-- A field reads what was written to it. -/
theorem getBits_setBits_self (w : Word) (lo len v : Nat) (h : lo + len ≤ 32) :
    getBits (setBits w lo len v) lo len = v % 2 ^ len := by
  apply Nat.eq_of_testBit_eq
  intro j
  rw [testBit_getBits, Nat.testBit_mod_two_pow]
  by_cases hj : j < len
  · rw [testBit_setBits _ _ _ _ _ (by omega)]
    have h1 : lo ≤ lo + j ∧ lo + j < lo + len := by omega
    have h2 : lo + j - lo = j := by omega
    rw [if_pos h1, h2]
  · simp [hj]

/-- A field that shares no bit with the one written reads as before. -/
theorem getBits_setBits_ne (w : Word) (lo len v lo' len' : Nat) (h : lo' + len' ≤ lo ∨ lo + len ≤ lo') :
    getBits (setBits w lo len v) lo' len' = getBits w lo' len' := by
  apply Nat.eq_of_testBit_eq
  intro j
  rw [testBit_getBits, testBit_getBits]
  by_cases hj : j < len'
  · by_cases h32 : lo' + j < 32
    · rw [testBit_setBits _ _ _ _ _ h32]
      have : ¬ (lo ≤ lo' + j ∧ lo' + j < lo + len) := by omega
      rw [if_neg this]
    · have hz : ∀ x : Word, x.toNat.testBit (lo' + j) = false := fun x =>
        Nat.testBit_lt_two_pow (Nat.lt_of_lt_of_le x.isLt (Nat.pow_le_pow_right (by decide) (by omega)))
      rw [hz, hz]
  · simp [hj]

variable (s : State)

@[simp] theorem word_putWord_self (off : Nat) (w : Word) : (s.putWord off w).word off = w := by
  simp [State.word, State.putWord]

theorem word_putWord_ne {off a : Nat} (w : Word) (h : a ≠ off) : (s.putWord off w).word a = s.word a := by
  simp [State.word, State.putWord, Tbl.get_set_ne _ _ _ _ h]

theorem word_put_ne {f : Fld} {a : Nat} (v : Nat) (h : a ≠ f.off) : (s.put f v).word a = s.word a := word_putWord_ne s _ h

theorem get_put_self (f : Fld) (v : Nat) (h : f.lo + f.len ≤ 32) : (s.put f v).get f = v % 2 ^ f.len := by
  simp [State.get, State.put, getBits_setBits_self _ _ _ _ h]

theorem get_put_off {f g : Fld} (v : Nat) (h : g.off ≠ f.off) : (s.put f v).get g = s.get g := by
  simp [State.get, word_put_ne s v h]

theorem get_put_bits {f g : Fld} (v : Nat) (h : g.off ≠ f.off ∨ g.lo + g.len ≤ f.lo ∨ f.lo + f.len ≤ g.lo) :
    (s.put f v).get g = s.get g := by
  by_cases e : g.off = f.off
  · have h' : g.lo + g.len ≤ f.lo ∨ f.lo + f.len ≤ g.lo := h.resolve_left (fun n => n e)
    simp [State.get, State.put, e, getBits_setBits_ne _ _ _ _ _ _ h']
  · exact get_put_off s v e

theorem get_lt (f : Fld) : s.get f < 2 ^ f.len := getBits_lt _ _ _

theorem word_each {α : Type} {l : List α} {f : State → α → State} {a : Nat} (h : ∀ t x, (f t x).word a = t.word a) :
    (s.each l f).word a = s.word a := by
  induction l generalizing s with
  | nil => rfl
  | cons x l ih => exact (ih (f s x)).trans (h s x)

/-! A register write leaves every other field. -/

@[simp] theorem putWord_part (off : Nat) (w : Word) : (s.putWord off w).part = s.part := rfl
@[simp] theorem putWord_latch (off : Nat) (w : Word) : (s.putWord off w).latch = s.latch := rfl
@[simp] theorem putWord_nv (off : Nat) (w : Word) : (s.putWord off w).nv = s.nv := rfl
@[simp] theorem putWord_ao (off : Nat) (w : Word) : (s.putWord off w).ao = s.ao := rfl
@[simp] theorem putWord_fold (off : Nat) (w : Word) : (s.putWord off w).fold = s.fold := rfl
@[simp] theorem putWord_box (off : Nat) (w : Word) : (s.putWord off w).box = s.box := rfl
@[simp] theorem putWord_sec (off : Nat) (w : Word) : (s.putWord off w).sec = s.sec := rfl
@[simp] theorem putWord_evt (off : Nat) (w : Word) : (s.putWord off w).evt = s.evt := rfl
@[simp] theorem putWord_pci (off : Nat) (w : Word) : (s.putWord off w).pci = s.pci := rfl
@[simp] theorem putWord_mdio (off : Nat) (w : Word) : (s.putWord off w).mdio = s.mdio := rfl
@[simp] theorem putWord_cen (off : Nat) (w : Word) : (s.putWord off w).cen = s.cen := rfl
@[simp] theorem putWord_evid (off : Nat) (w : Word) : (s.putWord off w).evid = s.evid := rfl
@[simp] theorem putWord_pch (off : Nat) (w : Word) : (s.putWord off w).pch = s.pch := rfl
@[simp] theorem putWord_bank (off : Nat) (w : Word) : (s.putWord off w).bank = s.bank := rfl
@[simp] theorem putWord_line (off : Nat) (w : Word) : (s.putWord off w).line = s.line := rfl
@[simp] theorem putWord_pad (off : Nat) (w : Word) : (s.putWord off w).pad = s.pad := rfl
@[simp] theorem putWord_lane (off : Nat) (w : Word) : (s.putWord off w).lane = s.lane := rfl
@[simp] theorem putWord_trv (off : Nat) (w : Word) : (s.putWord off w).trv = s.trv := rfl
@[simp] theorem putWord_drv (off : Nat) (w : Word) : (s.putWord off w).drv = s.drv := rfl
@[simp] theorem putWord_apply (off : Nat) (w : Word) : (s.putWord off w).apply = s.apply := rfl
@[simp] theorem putWord_pos (off : Nat) (w : Word) : (s.putWord off w).pos = s.pos := rfl
@[simp] theorem putWord_piste (off : Nat) (w : Word) : (s.putWord off w).piste = s.piste := rfl
@[simp] theorem putWord_cal (off : Nat) (w : Word) : (s.putWord off w).cal = s.cal := rfl
@[simp] theorem putWord_diag (off : Nat) (w : Word) : (s.putWord off w).diag = s.diag := rfl
@[simp] theorem putWord_clk (off : Nat) (w : Word) : (s.putWord off w).clk = s.clk := rfl
@[simp] theorem putWord_start (off : Nat) (w : Word) : (s.putWord off w).start = s.start := rfl
@[simp] theorem putWord_tst (off : Nat) (w : Word) : (s.putWord off w).tst = s.tst := rfl
@[simp] theorem putWord_thm (off : Nat) (w : Word) : (s.putWord off w).thm = s.thm := rfl
@[simp] theorem putWord_dram (off : Nat) (w : Word) : (s.putWord off w).dram = s.dram := rfl
@[simp] theorem putWord_chk (off : Nat) (w : Word) : (s.putWord off w).chk = s.chk := rfl
@[simp] theorem putWord_herder (off : Nat) (w : Word) : (s.putWord off w).herder = s.herder := rfl
@[simp] theorem putWord_pwr (off : Nat) (w : Word) : (s.putWord off w).pwr = s.pwr := rfl
@[simp] theorem putWord_pins (off : Nat) (w : Word) : (s.putWord off w).pins = s.pins := rfl
@[simp] theorem putWord_out (off : Nat) (w : Word) : (s.putWord off w).out = s.out := rfl
@[simp] theorem putWord_freeCtr (off : Nat) (w : Word) : (s.putWord off w).freeCtr = s.freeCtr := rfl
@[simp] theorem putWord_pending (off : Nat) (w : Word) : (s.putWord off w).pending = s.pending := rfl
@[simp] theorem put_part (f : Fld) (v : Nat) : (s.put f v).part = s.part := rfl
@[simp] theorem put_latch (f : Fld) (v : Nat) : (s.put f v).latch = s.latch := rfl
@[simp] theorem put_nv (f : Fld) (v : Nat) : (s.put f v).nv = s.nv := rfl
@[simp] theorem put_ao (f : Fld) (v : Nat) : (s.put f v).ao = s.ao := rfl
@[simp] theorem put_fold (f : Fld) (v : Nat) : (s.put f v).fold = s.fold := rfl
@[simp] theorem put_box (f : Fld) (v : Nat) : (s.put f v).box = s.box := rfl
@[simp] theorem put_sec (f : Fld) (v : Nat) : (s.put f v).sec = s.sec := rfl
@[simp] theorem put_evt (f : Fld) (v : Nat) : (s.put f v).evt = s.evt := rfl
@[simp] theorem put_pci (f : Fld) (v : Nat) : (s.put f v).pci = s.pci := rfl
@[simp] theorem put_mdio (f : Fld) (v : Nat) : (s.put f v).mdio = s.mdio := rfl
@[simp] theorem put_cen (f : Fld) (v : Nat) : (s.put f v).cen = s.cen := rfl
@[simp] theorem put_evid (f : Fld) (v : Nat) : (s.put f v).evid = s.evid := rfl
@[simp] theorem put_pch (f : Fld) (v : Nat) : (s.put f v).pch = s.pch := rfl
@[simp] theorem put_bank (f : Fld) (v : Nat) : (s.put f v).bank = s.bank := rfl
@[simp] theorem put_line (f : Fld) (v : Nat) : (s.put f v).line = s.line := rfl
@[simp] theorem put_pad (f : Fld) (v : Nat) : (s.put f v).pad = s.pad := rfl
@[simp] theorem put_lane (f : Fld) (v : Nat) : (s.put f v).lane = s.lane := rfl
@[simp] theorem put_trv (f : Fld) (v : Nat) : (s.put f v).trv = s.trv := rfl
@[simp] theorem put_drv (f : Fld) (v : Nat) : (s.put f v).drv = s.drv := rfl
@[simp] theorem put_apply (f : Fld) (v : Nat) : (s.put f v).apply = s.apply := rfl
@[simp] theorem put_pos (f : Fld) (v : Nat) : (s.put f v).pos = s.pos := rfl
@[simp] theorem put_piste (f : Fld) (v : Nat) : (s.put f v).piste = s.piste := rfl
@[simp] theorem put_cal (f : Fld) (v : Nat) : (s.put f v).cal = s.cal := rfl
@[simp] theorem put_diag (f : Fld) (v : Nat) : (s.put f v).diag = s.diag := rfl
@[simp] theorem put_clk (f : Fld) (v : Nat) : (s.put f v).clk = s.clk := rfl
@[simp] theorem put_start (f : Fld) (v : Nat) : (s.put f v).start = s.start := rfl
@[simp] theorem put_tst (f : Fld) (v : Nat) : (s.put f v).tst = s.tst := rfl
@[simp] theorem put_thm (f : Fld) (v : Nat) : (s.put f v).thm = s.thm := rfl
@[simp] theorem put_dram (f : Fld) (v : Nat) : (s.put f v).dram = s.dram := rfl
@[simp] theorem put_chk (f : Fld) (v : Nat) : (s.put f v).chk = s.chk := rfl
@[simp] theorem put_herder (f : Fld) (v : Nat) : (s.put f v).herder = s.herder := rfl
@[simp] theorem put_pwr (f : Fld) (v : Nat) : (s.put f v).pwr = s.pwr := rfl
@[simp] theorem put_pins (f : Fld) (v : Nat) : (s.put f v).pins = s.pins := rfl
@[simp] theorem put_out (f : Fld) (v : Nat) : (s.put f v).out = s.out := rfl
@[simp] theorem put_freeCtr (f : Fld) (v : Nat) : (s.put f v).freeCtr = s.freeCtr := rfl
@[simp] theorem put_pending (f : Fld) (v : Nat) : (s.put f v).pending = s.pending := rfl
@[simp] theorem count_part (f : Fld) (k : Nat) : (s.count f k).part = s.part := rfl
@[simp] theorem count_latch (f : Fld) (k : Nat) : (s.count f k).latch = s.latch := rfl
@[simp] theorem count_nv (f : Fld) (k : Nat) : (s.count f k).nv = s.nv := rfl
@[simp] theorem count_ao (f : Fld) (k : Nat) : (s.count f k).ao = s.ao := rfl
@[simp] theorem count_fold (f : Fld) (k : Nat) : (s.count f k).fold = s.fold := rfl
@[simp] theorem count_box (f : Fld) (k : Nat) : (s.count f k).box = s.box := rfl
@[simp] theorem count_sec (f : Fld) (k : Nat) : (s.count f k).sec = s.sec := rfl
@[simp] theorem count_evt (f : Fld) (k : Nat) : (s.count f k).evt = s.evt := rfl
@[simp] theorem count_pci (f : Fld) (k : Nat) : (s.count f k).pci = s.pci := rfl
@[simp] theorem count_mdio (f : Fld) (k : Nat) : (s.count f k).mdio = s.mdio := rfl
@[simp] theorem count_cen (f : Fld) (k : Nat) : (s.count f k).cen = s.cen := rfl
@[simp] theorem count_evid (f : Fld) (k : Nat) : (s.count f k).evid = s.evid := rfl
@[simp] theorem count_pch (f : Fld) (k : Nat) : (s.count f k).pch = s.pch := rfl
@[simp] theorem count_bank (f : Fld) (k : Nat) : (s.count f k).bank = s.bank := rfl
@[simp] theorem count_line (f : Fld) (k : Nat) : (s.count f k).line = s.line := rfl
@[simp] theorem count_pad (f : Fld) (k : Nat) : (s.count f k).pad = s.pad := rfl
@[simp] theorem count_lane (f : Fld) (k : Nat) : (s.count f k).lane = s.lane := rfl
@[simp] theorem count_trv (f : Fld) (k : Nat) : (s.count f k).trv = s.trv := rfl
@[simp] theorem count_drv (f : Fld) (k : Nat) : (s.count f k).drv = s.drv := rfl
@[simp] theorem count_apply (f : Fld) (k : Nat) : (s.count f k).apply = s.apply := rfl
@[simp] theorem count_pos (f : Fld) (k : Nat) : (s.count f k).pos = s.pos := rfl
@[simp] theorem count_piste (f : Fld) (k : Nat) : (s.count f k).piste = s.piste := rfl
@[simp] theorem count_cal (f : Fld) (k : Nat) : (s.count f k).cal = s.cal := rfl
@[simp] theorem count_diag (f : Fld) (k : Nat) : (s.count f k).diag = s.diag := rfl
@[simp] theorem count_clk (f : Fld) (k : Nat) : (s.count f k).clk = s.clk := rfl
@[simp] theorem count_start (f : Fld) (k : Nat) : (s.count f k).start = s.start := rfl
@[simp] theorem count_tst (f : Fld) (k : Nat) : (s.count f k).tst = s.tst := rfl
@[simp] theorem count_thm (f : Fld) (k : Nat) : (s.count f k).thm = s.thm := rfl
@[simp] theorem count_dram (f : Fld) (k : Nat) : (s.count f k).dram = s.dram := rfl
@[simp] theorem count_chk (f : Fld) (k : Nat) : (s.count f k).chk = s.chk := rfl
@[simp] theorem count_herder (f : Fld) (k : Nat) : (s.count f k).herder = s.herder := rfl
@[simp] theorem count_pwr (f : Fld) (k : Nat) : (s.count f k).pwr = s.pwr := rfl
@[simp] theorem count_pins (f : Fld) (k : Nat) : (s.count f k).pins = s.pins := rfl
@[simp] theorem count_out (f : Fld) (k : Nat) : (s.count f k).out = s.out := rfl
@[simp] theorem count_freeCtr (f : Fld) (k : Nat) : (s.count f k).freeCtr = s.freeCtr := rfl
@[simp] theorem count_pending (f : Fld) (k : Nat) : (s.count f k).pending = s.pending := rfl

end Sys2Proof.Machine
end

