-- ==== Sys2Proof/Laws/Frame.lean ====
section
/-!
SUPPORT. What a step leaves alone, from the kinds of update it makes: a field whose kind is no bit of the operation's set is as it
was; the registers, the stack's cells and the check bits stay canonical; DEV_TIME runs forward.
-/
namespace Sys2Proof.Machine

/-- `t` agrees with `z` in every field whose kind is no bit of `m`. -/
structure Agree (m : Nat) (z t : State) : Prop where
  part : t.part = z.part
  pending : t.pending = z.pending
  words : m.testBit 39 = false → ∀ a, m.testBit (regGroup a).kind = false → t.word a = z.word a
  ao : m.testBit 4 = false → m.testBit 38 = false → t.ao = { z.ao with time10 := t.ao.time10 }
  time : m.testBit 37 = false → m.testBit 38 = false → t.ao.time10 = z.ao.time10
  latch : m.testBit 2 = false → t.latch = z.latch
  nv : m.testBit 3 = false → t.nv = z.nv
  fold : m.testBit 5 = false → t.fold = z.fold
  box : m.testBit 6 = false → t.box = z.box
  sec : m.testBit 7 = false → t.sec = z.sec
  evt : m.testBit 8 = false → t.evt = z.evt
  pci : m.testBit 9 = false → t.pci = z.pci
  mdio : m.testBit 10 = false → t.mdio = z.mdio
  cen : m.testBit 11 = false → t.cen = z.cen
  evid : m.testBit 12 = false → t.evid = z.evid
  pch : m.testBit 13 = false → t.pch = z.pch
  bank : m.testBit 14 = false → t.bank = z.bank
  line : m.testBit 15 = false → t.line = z.line
  pad : m.testBit 16 = false → t.pad = z.pad
  lane : m.testBit 17 = false → t.lane = z.lane
  trv : m.testBit 18 = false → t.trv = z.trv
  drv : m.testBit 19 = false → t.drv = z.drv
  apply : m.testBit 20 = false → t.apply = z.apply
  pos : m.testBit 21 = false → t.pos = z.pos
  piste : m.testBit 22 = false → t.piste = z.piste
  cal : m.testBit 23 = false → t.cal = z.cal
  diag : m.testBit 24 = false → t.diag = z.diag
  clk : m.testBit 25 = false → t.clk = z.clk
  start : m.testBit 26 = false → t.start = z.start
  tst : m.testBit 27 = false → t.tst = z.tst
  thm : m.testBit 28 = false → t.thm = z.thm
  dram : m.testBit 29 = false → t.dram = z.dram
  chk : m.testBit 30 = false → t.chk = z.chk
  herder : m.testBit 31 = false → t.herder = z.herder
  pwr : m.testBit 32 = false → t.pwr = z.pwr
  pins : m.testBit 33 = false → t.pins = z.pins
  out : m.testBit 34 = false → t.out = z.out
  freeCtr : m.testBit 35 = false → t.freeCtr = z.freeCtr

theorem Agree.refl (m : Nat) (z : State) : Agree m z z := by constructor <;> intros <;> rfl

/-! An update leaves every field but the one of its kind. -/

theorem Upd.on_part (u : Upd) (t : State) : (u.on t).part = t.part := by cases u <;> rfl
theorem Upd.on_pending (u : Upd) (t : State) : (u.on t).pending = t.pending := by cases u <;> rfl
theorem Upd.on_time {u : Upd} {t : State} (h1 : u.kind ≠ 37) (h2 : u.kind ≠ 38) : (u.on t).ao.time10 = t.ao.time10 := by
  cases u <;> first | rfl | exact absurd rfl h1 | exact absurd rfl h2
theorem Upd.on_ao {u : Upd} {t : State} (h1 : u.kind ≠ 4) (h2 : u.kind ≠ 38) : (u.on t).ao = { t.ao with time10 := (u.on t).ao.time10 } := by
  cases u <;> first | rfl | exact absurd rfl h1 | exact absurd rfl h2
theorem Tbl.get_keep {α : Type} {p : Nat → Bool} {k : Nat} (d : α) (h : p k = true) (l : Tbl α) :
    Tbl.get (Tbl.keep l p) d k = Tbl.get l d k := by
  induction l with
  | nil => rfl
  | cons e l ih =>
    obtain ⟨j, v⟩ := e
    unfold Tbl.keep at ih ⊢
    by_cases hj : j = k
    · subst hj
      simp [Tbl.get, h]
    · by_cases hp : p j = true <;> simp [Tbl.get, hj, hp, ih]
theorem Upd.on_word {u : Upd} {t : State} {a : Nat} (h1 : u.kind ≠ 39) (h2 : u.kind ≠ (regGroup a).kind) :
    (u.on t).word a = t.word a := by
  cases u <;> try rfl
  case reg off w =>
    refine word_putWord_ne t w ?_
    rintro rfl
    exact h2 rfl
  case dropRegs g p =>
    refine Tbl.get_keep (p := fun a => p a || decide (regGroup a ≠ g)) (resetWord t.part a) ?_ t.regs
    have : regGroup a ≠ g := fun e => h2 (e ▸ rfl)
    simp [this]
  case resetRegs => exact absurd rfl h1
theorem Upd.on_latch {u : Upd} {t : State} (h : u.kind ≠ 2) : (u.on t).latch = t.latch := by
  cases u <;> first | rfl | exact absurd rfl h
theorem Upd.on_nv {u : Upd} {t : State} (h : u.kind ≠ 3) : (u.on t).nv = t.nv := by
  cases u <;> first | rfl | exact absurd rfl h
theorem Upd.on_fold {u : Upd} {t : State} (h : u.kind ≠ 5) : (u.on t).fold = t.fold := by
  cases u <;> first | rfl | exact absurd rfl h
theorem Upd.on_box {u : Upd} {t : State} (h : u.kind ≠ 6) : (u.on t).box = t.box := by
  cases u <;> first | rfl | exact absurd rfl h
theorem Upd.on_sec {u : Upd} {t : State} (h : u.kind ≠ 7) : (u.on t).sec = t.sec := by
  cases u <;> first | rfl | exact absurd rfl h
theorem Upd.on_evt {u : Upd} {t : State} (h : u.kind ≠ 8) : (u.on t).evt = t.evt := by
  cases u <;> first | rfl | exact absurd rfl h
theorem Upd.on_pci {u : Upd} {t : State} (h : u.kind ≠ 9) : (u.on t).pci = t.pci := by
  cases u <;> first | rfl | exact absurd rfl h
theorem Upd.on_mdio {u : Upd} {t : State} (h : u.kind ≠ 10) : (u.on t).mdio = t.mdio := by
  cases u <;> first | rfl | exact absurd rfl h
theorem Upd.on_cen {u : Upd} {t : State} (h : u.kind ≠ 11) : (u.on t).cen = t.cen := by
  cases u <;> first | rfl | exact absurd rfl h
theorem Upd.on_evid {u : Upd} {t : State} (h : u.kind ≠ 12) : (u.on t).evid = t.evid := by
  cases u <;> first | rfl | exact absurd rfl h
theorem Upd.on_pch {u : Upd} {t : State} (h : u.kind ≠ 13) : (u.on t).pch = t.pch := by
  cases u <;> first | rfl | exact absurd rfl h
theorem Upd.on_bank {u : Upd} {t : State} (h : u.kind ≠ 14) : (u.on t).bank = t.bank := by
  cases u <;> first | rfl | exact absurd rfl h
theorem Upd.on_line {u : Upd} {t : State} (h : u.kind ≠ 15) : (u.on t).line = t.line := by
  cases u <;> first | rfl | exact absurd rfl h
theorem Upd.on_pad {u : Upd} {t : State} (h : u.kind ≠ 16) : (u.on t).pad = t.pad := by
  cases u <;> first | rfl | exact absurd rfl h
theorem Upd.on_lane {u : Upd} {t : State} (h : u.kind ≠ 17) : (u.on t).lane = t.lane := by
  cases u <;> first | rfl | exact absurd rfl h
theorem Upd.on_trv {u : Upd} {t : State} (h : u.kind ≠ 18) : (u.on t).trv = t.trv := by
  cases u <;> first | rfl | exact absurd rfl h
theorem Upd.on_drv {u : Upd} {t : State} (h : u.kind ≠ 19) : (u.on t).drv = t.drv := by
  cases u <;> first | rfl | exact absurd rfl h
theorem Upd.on_apply {u : Upd} {t : State} (h : u.kind ≠ 20) : (u.on t).apply = t.apply := by
  cases u <;> first | rfl | exact absurd rfl h
theorem Upd.on_pos {u : Upd} {t : State} (h : u.kind ≠ 21) : (u.on t).pos = t.pos := by
  cases u <;> first | rfl | exact absurd rfl h
theorem Upd.on_piste {u : Upd} {t : State} (h : u.kind ≠ 22) : (u.on t).piste = t.piste := by
  cases u <;> first | rfl | exact absurd rfl h
theorem Upd.on_cal {u : Upd} {t : State} (h : u.kind ≠ 23) : (u.on t).cal = t.cal := by
  cases u <;> first | rfl | exact absurd rfl h
theorem Upd.on_diag {u : Upd} {t : State} (h : u.kind ≠ 24) : (u.on t).diag = t.diag := by
  cases u <;> first | rfl | exact absurd rfl h
theorem Upd.on_clk {u : Upd} {t : State} (h : u.kind ≠ 25) : (u.on t).clk = t.clk := by
  cases u <;> first | rfl | exact absurd rfl h
theorem Upd.on_start {u : Upd} {t : State} (h : u.kind ≠ 26) : (u.on t).start = t.start := by
  cases u <;> first | rfl | exact absurd rfl h
theorem Upd.on_tst {u : Upd} {t : State} (h : u.kind ≠ 27) : (u.on t).tst = t.tst := by
  cases u <;> first | rfl | exact absurd rfl h
theorem Upd.on_thm {u : Upd} {t : State} (h : u.kind ≠ 28) : (u.on t).thm = t.thm := by
  cases u <;> first | rfl | exact absurd rfl h
theorem Upd.on_dram {u : Upd} {t : State} (h : u.kind ≠ 29) : (u.on t).dram = t.dram := by
  cases u <;> first | rfl | exact absurd rfl h
theorem Upd.on_chk {u : Upd} {t : State} (h : u.kind ≠ 30) : (u.on t).chk = t.chk := by
  cases u <;> first | rfl | exact absurd rfl h
theorem Upd.on_herder {u : Upd} {t : State} (h : u.kind ≠ 31) : (u.on t).herder = t.herder := by
  cases u <;> first | rfl | exact absurd rfl h
theorem Upd.on_pwr {u : Upd} {t : State} (h : u.kind ≠ 32) : (u.on t).pwr = t.pwr := by
  cases u <;> first | rfl | exact absurd rfl h
theorem Upd.on_pins {u : Upd} {t : State} (h : u.kind ≠ 33) : (u.on t).pins = t.pins := by
  cases u <;> first | rfl | exact absurd rfl h
theorem Upd.on_out {u : Upd} {t : State} (h : u.kind ≠ 34) : (u.on t).out = t.out := by
  cases u <;> first | rfl | exact absurd rfl h
theorem Upd.on_freeCtr {u : Upd} {t : State} (h : u.kind ≠ 35) : (u.on t).freeCtr = t.freeCtr := by
  cases u <;> first | rfl | exact absurd rfl h

theorem kind_ne {m k : Nat} {u : Upd} (hu : m.testBit u.kind = true) (h : m.testBit k = false) : u.kind ≠ k := by
  intro e
  rw [e, h] at hu
  exact Bool.noConfusion hu

theorem agree_closed (m : Nat) (z : State) : Closed m (Agree m z) := by
  intro u hu t h
  exact {
    part := (u.on_part t).trans h.part
    pending := (u.on_pending t).trans h.pending
    words := fun b a c => (Upd.on_word (kind_ne hu b) (kind_ne hu c)).trans (h.words b a c)
    ao := fun a b => by rw [Upd.on_ao (kind_ne hu a) (kind_ne hu b), h.ao a b]
    time := fun a b => (Upd.on_time (kind_ne hu a) (kind_ne hu b)).trans (h.time a b)
    latch := fun a => (Upd.on_latch (kind_ne hu a)).trans (h.latch a)
    nv := fun a => (Upd.on_nv (kind_ne hu a)).trans (h.nv a)
    fold := fun a => (Upd.on_fold (kind_ne hu a)).trans (h.fold a)
    box := fun a => (Upd.on_box (kind_ne hu a)).trans (h.box a)
    sec := fun a => (Upd.on_sec (kind_ne hu a)).trans (h.sec a)
    evt := fun a => (Upd.on_evt (kind_ne hu a)).trans (h.evt a)
    pci := fun a => (Upd.on_pci (kind_ne hu a)).trans (h.pci a)
    mdio := fun a => (Upd.on_mdio (kind_ne hu a)).trans (h.mdio a)
    cen := fun a => (Upd.on_cen (kind_ne hu a)).trans (h.cen a)
    evid := fun a => (Upd.on_evid (kind_ne hu a)).trans (h.evid a)
    pch := fun a => (Upd.on_pch (kind_ne hu a)).trans (h.pch a)
    bank := fun a => (Upd.on_bank (kind_ne hu a)).trans (h.bank a)
    line := fun a => (Upd.on_line (kind_ne hu a)).trans (h.line a)
    pad := fun a => (Upd.on_pad (kind_ne hu a)).trans (h.pad a)
    lane := fun a => (Upd.on_lane (kind_ne hu a)).trans (h.lane a)
    trv := fun a => (Upd.on_trv (kind_ne hu a)).trans (h.trv a)
    drv := fun a => (Upd.on_drv (kind_ne hu a)).trans (h.drv a)
    apply := fun a => (Upd.on_apply (kind_ne hu a)).trans (h.apply a)
    pos := fun a => (Upd.on_pos (kind_ne hu a)).trans (h.pos a)
    piste := fun a => (Upd.on_piste (kind_ne hu a)).trans (h.piste a)
    cal := fun a => (Upd.on_cal (kind_ne hu a)).trans (h.cal a)
    diag := fun a => (Upd.on_diag (kind_ne hu a)).trans (h.diag a)
    clk := fun a => (Upd.on_clk (kind_ne hu a)).trans (h.clk a)
    start := fun a => (Upd.on_start (kind_ne hu a)).trans (h.start a)
    tst := fun a => (Upd.on_tst (kind_ne hu a)).trans (h.tst a)
    thm := fun a => (Upd.on_thm (kind_ne hu a)).trans (h.thm a)
    dram := fun a => (Upd.on_dram (kind_ne hu a)).trans (h.dram a)
    chk := fun a => (Upd.on_chk (kind_ne hu a)).trans (h.chk a)
    herder := fun a => (Upd.on_herder (kind_ne hu a)).trans (h.herder a)
    pwr := fun a => (Upd.on_pwr (kind_ne hu a)).trans (h.pwr a)
    pins := fun a => (Upd.on_pins (kind_ne hu a)).trans (h.pins a)
    out := fun a => (Upd.on_out (kind_ne hu a)).trans (h.out a)
    freeCtr := fun a => (Upd.on_freeCtr (kind_ne hu a)).trans (h.freeCtr a)
  }

/-- The bits of a field's kinds. -/
def Field.bits : Field → Nat
  | .latch => 2 ^ 2
  | .nv => 2 ^ 3
  | .ao => 2 ^ 4 + 2 ^ 38
  | .time => 2 ^ 37 + 2 ^ 38
  | .fold => 2 ^ 5
  | .box => 2 ^ 6
  | .sec => 2 ^ 7
  | .evt => 2 ^ 8
  | .pci => 2 ^ 9
  | .mdio => 2 ^ 10
  | .cen => 2 ^ 11
  | .evid => 2 ^ 12
  | .pch => 2 ^ 13
  | .bank => 2 ^ 14
  | .line => 2 ^ 15
  | .pad => 2 ^ 16
  | .lane => 2 ^ 17
  | .trv => 2 ^ 18
  | .drv => 2 ^ 19
  | .apply => 2 ^ 20
  | .pos => 2 ^ 21
  | .piste => 2 ^ 22
  | .cal => 2 ^ 23
  | .diag => 2 ^ 24
  | .clk => 2 ^ 25
  | .start => 2 ^ 26
  | .tst => 2 ^ 27
  | .thm => 2 ^ 28
  | .dram => 2 ^ 29
  | .chk => 2 ^ 30
  | .herder => 2 ^ 31
  | .pwr => 2 ^ 32
  | .pins => 2 ^ 33
  | .out => 2 ^ 34
  | .freeCtr => 2 ^ 35

/-- Every field. -/
def Field.all : List Field :=
  [.latch, .nv, .ao, .time, .fold, .box, .sec, .evt, .pci, .mdio, .cen, .evid, .pch, .bank, .line, .pad, .lane, .trv, .drv, .apply, .pos, .piste, .cal, .diag, .clk, .start, .tst, .thm, .dram, .chk, .herder, .pwr, .pins, .out, .freeCtr]

theorem Field.mem_all (f : Field) : f ∈ Field.all := by cases f <;> decide

/-- Every group. -/
def RegGroup.all : List RegGroup :=
  [.dev, .msix, .stage, .evt, .cmd, .portLink, .portIlm, .portPad, .portTrv, .portCal, .portTone, .slices, .memCtl, .memInteg, .freezeRec, .memTrain, .memCal, .fab, .lane, .clk, .pwr, .drv, .thm, .cal, .pos, .piste, .cen, .evid, .sec, .tst, .other, .evtCfg]

theorem RegGroup.mem_all (g : RegGroup) : g ∈ RegGroup.all := by cases g <;> decide

/-- The updates of the set `m` leave every field but those of `fs`, and every register outside `gs`. -/
def leaves (m : Nat) (fs : List Field) (gs : List RegGroup) : Bool :=
  (Field.all.all fun f => decide (f ∈ fs) || decide (m &&& f.bits = 0)) &&
  (RegGroup.all.all fun g => decide (g ∈ gs) || (!m.testBit g.kind && !m.testBit 39))

theorem clear_of_and {m k j : Nat} (h : m &&& k = 0) (hk : k.testBit j = true) : m.testBit j = false := by
  have : (m &&& k).testBit j = false := by rw [h]; exact Nat.zero_testBit j
  rw [Nat.testBit_and, hk, Bool.and_true] at this
  exact this

theorem Agree.kept {m : Nat} {z t : State} {fs : List Field} {gs : List RegGroup} (h : Agree m z t) (hl : leaves m fs gs = true) :
    Kept fs gs z t := by
  simp only [leaves, Bool.and_eq_true, List.all_eq_true] at hl
  refine ⟨h.part, h.pending, fun f hf => ?_, fun a ha => ?_⟩
  · have hb := hl.1 f f.mem_all
    simp only [decide_eq_false hf, Bool.false_or, decide_eq_true_eq] at hb
    cases f
    case latch => exact h.latch (clear_of_and hb (by decide))
    case nv => exact h.nv (clear_of_and hb (by decide))
    case ao => exact h.ao (clear_of_and hb (by decide)) (clear_of_and hb (by decide))
    case time => exact h.time (clear_of_and hb (by decide)) (clear_of_and hb (by decide))
    case fold => exact h.fold (clear_of_and hb (by decide))
    case box => exact h.box (clear_of_and hb (by decide))
    case sec => exact h.sec (clear_of_and hb (by decide))
    case evt => exact h.evt (clear_of_and hb (by decide))
    case pci => exact h.pci (clear_of_and hb (by decide))
    case mdio => exact h.mdio (clear_of_and hb (by decide))
    case cen => exact h.cen (clear_of_and hb (by decide))
    case evid => exact h.evid (clear_of_and hb (by decide))
    case pch => exact h.pch (clear_of_and hb (by decide))
    case bank => exact h.bank (clear_of_and hb (by decide))
    case line => exact h.line (clear_of_and hb (by decide))
    case pad => exact h.pad (clear_of_and hb (by decide))
    case lane => exact h.lane (clear_of_and hb (by decide))
    case trv => exact h.trv (clear_of_and hb (by decide))
    case drv => exact h.drv (clear_of_and hb (by decide))
    case apply => exact h.apply (clear_of_and hb (by decide))
    case pos => exact h.pos (clear_of_and hb (by decide))
    case piste => exact h.piste (clear_of_and hb (by decide))
    case cal => exact h.cal (clear_of_and hb (by decide))
    case diag => exact h.diag (clear_of_and hb (by decide))
    case clk => exact h.clk (clear_of_and hb (by decide))
    case start => exact h.start (clear_of_and hb (by decide))
    case tst => exact h.tst (clear_of_and hb (by decide))
    case thm => exact h.thm (clear_of_and hb (by decide))
    case dram => exact h.dram (clear_of_and hb (by decide))
    case chk => exact h.chk (clear_of_and hb (by decide))
    case herder => exact h.herder (clear_of_and hb (by decide))
    case pwr => exact h.pwr (clear_of_and hb (by decide))
    case pins => exact h.pins (clear_of_and hb (by decide))
    case out => exact h.out (clear_of_and hb (by decide))
    case freeCtr => exact h.freeCtr (clear_of_and hb (by decide))
  · have hb := hl.2 (regGroup a) (regGroup a).mem_all
    simp only [decide_eq_false ha, Bool.false_or, Bool.and_eq_true, Bool.not_eq_true'] at hb
    exact h.words hb.2 a hb.1

/-- The frame of a command whose updates are known. -/
theorem kept_of {m : Nat} {o : Host.Outcome State Fault Refusal} {s t : State} {fs : List Field} {gs : List RegGroup}
    (hk : ∀ P : State → Prop, Closed m P → P s → OutIs P o) (hl : leaves m fs gs = true) (e : o = .next t) : Kept fs gs s t := by
  have h := hk (Agree m s) (agree_closed m s) (Agree.refl m s)
  rw [e] at h
  exact Agree.kept h hl

end Sys2Proof.Machine
end

