-- ==== Sys2Proof/Laws/Groups.lean ====
section
/-!
SUPPORT. The group of every register of the map.
-/
namespace Sys2Proof.Machine

theorem ofGroup {m off : Nat} {g : RegGroup} (e : regGroup off = g) (h : m.testBit g.kind = true) :
    InGroup m off := by
  rw [InGroup, e]
  exact h

@[simp] theorem A.DEV_PARTID_group : regGroup (A.DEV_PARTID) = .dev := rfl
theorem A.DEV_PARTID_in {m : Nat} (h : m.testBit 48 = true) : InGroup m (A.DEV_PARTID) := ofGroup (A.DEV_PARTID_group) h
@[simp] theorem A.DEV_FOLD_STATUS_group : regGroup (A.DEV_FOLD_STATUS) = .dev := rfl
theorem A.DEV_FOLD_STATUS_in {m : Nat} (h : m.testBit 48 = true) : InGroup m (A.DEV_FOLD_STATUS) := ofGroup (A.DEV_FOLD_STATUS_group) h
@[simp] theorem A.DEV_FOLD_RUN_group : regGroup (A.DEV_FOLD_RUN) = .dev := rfl
theorem A.DEV_FOLD_RUN_in {m : Nat} (h : m.testBit 48 = true) : InGroup m (A.DEV_FOLD_RUN) := ofGroup (A.DEV_FOLD_RUN_group) h
@[simp] theorem A.DEV_FOLD_RUN_group4 : regGroup (A.DEV_FOLD_RUN + 4) = .dev := rfl
theorem A.DEV_FOLD_RUN_in4 {m : Nat} (h : m.testBit 48 = true) : InGroup m (A.DEV_FOLD_RUN + 4) := ofGroup (A.DEV_FOLD_RUN_group4) h
@[simp] theorem A.DEV_FOLD_FLOOR_group : regGroup (A.DEV_FOLD_FLOOR) = .dev := rfl
theorem A.DEV_FOLD_FLOOR_in {m : Nat} (h : m.testBit 48 = true) : InGroup m (A.DEV_FOLD_FLOOR) := ofGroup (A.DEV_FOLD_FLOOR_group) h
@[simp] theorem A.DEV_FOLD_COMMIT_group : regGroup (A.DEV_FOLD_COMMIT) = .dev := rfl
theorem A.DEV_FOLD_COMMIT_in {m : Nat} (h : m.testBit 48 = true) : InGroup m (A.DEV_FOLD_COMMIT) := ofGroup (A.DEV_FOLD_COMMIT_group) h
@[simp] theorem A.DEV_FOLD_COMMIT_group4 : regGroup (A.DEV_FOLD_COMMIT + 4) = .dev := rfl
theorem A.DEV_FOLD_COMMIT_in4 {m : Nat} (h : m.testBit 48 = true) : InGroup m (A.DEV_FOLD_COMMIT + 4) := ofGroup (A.DEV_FOLD_COMMIT_group4) h
@[simp] theorem A.PORT_ILM_CTRL_group (n : Nat) : regGroup (A.PORT_ILM_CTRL n) = .portIlm := 
  (by decide : ∀ x < 16, regGroup (0x400400 + 0x20000 * x) = .portIlm) _ (Nat.mod_lt _ (by decide))
theorem A.PORT_ILM_CTRL_in {m n : Nat} (h : m.testBit 54 = true) : InGroup m (A.PORT_ILM_CTRL n) := ofGroup (A.PORT_ILM_CTRL_group _) h
@[simp] theorem A.PORT_ILM_STATE_group (n : Nat) : regGroup (A.PORT_ILM_STATE n) = .portIlm := 
  (by decide : ∀ x < 16, regGroup (0x400404 + 0x20000 * x) = .portIlm) _ (Nat.mod_lt _ (by decide))
theorem A.PORT_ILM_STATE_in {m n : Nat} (h : m.testBit 54 = true) : InGroup m (A.PORT_ILM_STATE n) := ofGroup (A.PORT_ILM_STATE_group _) h
@[simp] theorem A.PORT_ILM_SFC_group (n : Nat) : regGroup (A.PORT_ILM_SFC n) = .portIlm := 
  (by decide : ∀ x < 16, regGroup (0x400408 + 0x20000 * x) = .portIlm) _ (Nat.mod_lt _ (by decide))
theorem A.PORT_ILM_SFC_in {m n : Nat} (h : m.testBit 54 = true) : InGroup m (A.PORT_ILM_SFC n) := ofGroup (A.PORT_ILM_SFC_group _) h
@[simp] theorem A.PORT_ILM_TONES_group (n : Nat) : regGroup (A.PORT_ILM_TONES n) = .portIlm := 
  (by decide : ∀ x < 16, regGroup (0x40040c + 0x20000 * x) = .portIlm) _ (Nat.mod_lt _ (by decide))
theorem A.PORT_ILM_TONES_in {m n : Nat} (h : m.testBit 54 = true) : InGroup m (A.PORT_ILM_TONES n) := ofGroup (A.PORT_ILM_TONES_group _) h
@[simp] theorem A.PORT_ILM_RATE_group (n : Nat) : regGroup (A.PORT_ILM_RATE n) = .portIlm := 
  (by decide : ∀ x < 16, regGroup (0x400410 + 0x20000 * x) = .portIlm) _ (Nat.mod_lt _ (by decide))
theorem A.PORT_ILM_RATE_in {m n : Nat} (h : m.testBit 54 = true) : InGroup m (A.PORT_ILM_RATE n) := ofGroup (A.PORT_ILM_RATE_group _) h
@[simp] theorem A.PORT_ILM_BITS_group (n : Nat) : regGroup (A.PORT_ILM_BITS n) = .portIlm := 
  (by decide : ∀ x < 16, regGroup (0x400414 + 0x20000 * x) = .portIlm) _ (Nat.mod_lt _ (by decide))
theorem A.PORT_ILM_BITS_in {m n : Nat} (h : m.testBit 54 = true) : InGroup m (A.PORT_ILM_BITS n) := ofGroup (A.PORT_ILM_BITS_group _) h
@[simp] theorem A.PORT_ILM_PEND_group (n : Nat) : regGroup (A.PORT_ILM_PEND n) = .portIlm := 
  (by decide : ∀ x < 16, regGroup (0x400418 + 0x20000 * x) = .portIlm) _ (Nat.mod_lt _ (by decide))
theorem A.PORT_ILM_PEND_in {m n : Nat} (h : m.testBit 54 = true) : InGroup m (A.PORT_ILM_PEND n) := ofGroup (A.PORT_ILM_PEND_group _) h
@[simp] theorem A.PORT_IMP_CFG_group (n : Nat) : regGroup (A.PORT_IMP_CFG n) = .portIlm := 
  (by decide : ∀ x < 16, regGroup (0x40041c + 0x20000 * x) = .portIlm) _ (Nat.mod_lt _ (by decide))
theorem A.PORT_IMP_CFG_in {m n : Nat} (h : m.testBit 54 = true) : InGroup m (A.PORT_IMP_CFG n) := ofGroup (A.PORT_IMP_CFG_group _) h
@[simp] theorem A.PORT_CUSTOM_A_group (n k : Nat) : regGroup (A.PORT_CUSTOM_A n k) = .portIlm := 
  (by decide : ∀ x < 16, ∀ y < 8, regGroup (0x400420 + 0x20000 * x + 0x4 * y) = .portIlm) _ (Nat.mod_lt _ (by decide)) _ (Nat.mod_lt _ (by decide))
theorem A.PORT_CUSTOM_A_in {m n k : Nat} (h : m.testBit 54 = true) : InGroup m (A.PORT_CUSTOM_A n k) := ofGroup (A.PORT_CUSTOM_A_group _ _) h
@[simp] theorem A.PORT_CUSTOM_B_group (n k : Nat) : regGroup (A.PORT_CUSTOM_B n k) = .portIlm := 
  (by decide : ∀ x < 16, ∀ y < 8, regGroup (0x400440 + 0x20000 * x + 0x4 * y) = .portIlm) _ (Nat.mod_lt _ (by decide)) _ (Nat.mod_lt _ (by decide))
theorem A.PORT_CUSTOM_B_in {m n k : Nat} (h : m.testBit 54 = true) : InGroup m (A.PORT_CUSTOM_B n k) := ofGroup (A.PORT_CUSTOM_B_group _ _) h
@[simp] theorem A.PORT_ILM_LOTS_OK_group (n : Nat) : regGroup (A.PORT_ILM_LOTS_OK n) = .portIlm := 
  (by decide : ∀ x < 16, regGroup (0x400460 + 0x20000 * x) = .portIlm) _ (Nat.mod_lt _ (by decide))
theorem A.PORT_ILM_LOTS_OK_in {m n : Nat} (h : m.testBit 54 = true) : InGroup m (A.PORT_ILM_LOTS_OK n) := ofGroup (A.PORT_ILM_LOTS_OK_group _) h
@[simp] theorem A.PORT_ILM_LOTS_LOST_group (n : Nat) : regGroup (A.PORT_ILM_LOTS_LOST n) = .portIlm := 
  (by decide : ∀ x < 16, regGroup (0x400464 + 0x20000 * x) = .portIlm) _ (Nat.mod_lt _ (by decide))
theorem A.PORT_ILM_LOTS_LOST_in {m n : Nat} (h : m.testBit 54 = true) : InGroup m (A.PORT_ILM_LOTS_LOST n) := ofGroup (A.PORT_ILM_LOTS_LOST_group _) h
@[simp] theorem A.PORT_ILM_HDR_ERR_group (n : Nat) : regGroup (A.PORT_ILM_HDR_ERR n) = .portIlm := 
  (by decide : ∀ x < 16, regGroup (0x400468 + 0x20000 * x) = .portIlm) _ (Nat.mod_lt _ (by decide))
theorem A.PORT_ILM_HDR_ERR_in {m n : Nat} (h : m.testBit 54 = true) : InGroup m (A.PORT_ILM_HDR_ERR n) := ofGroup (A.PORT_ILM_HDR_ERR_group _) h
@[simp] theorem A.PORT_ILM_ERASED_group (n : Nat) : regGroup (A.PORT_ILM_ERASED n) = .portIlm := 
  (by decide : ∀ x < 16, regGroup (0x40046c + 0x20000 * x) = .portIlm) _ (Nat.mod_lt _ (by decide))
theorem A.PORT_ILM_ERASED_in {m n : Nat} (h : m.testBit 54 = true) : InGroup m (A.PORT_ILM_ERASED n) := ofGroup (A.PORT_ILM_ERASED_group _) h
@[simp] theorem A.PORT_ILM_ACKW_ERR_group (n : Nat) : regGroup (A.PORT_ILM_ACKW_ERR n) = .portIlm := 
  (by decide : ∀ x < 16, regGroup (0x400470 + 0x20000 * x) = .portIlm) _ (Nat.mod_lt _ (by decide))
theorem A.PORT_ILM_ACKW_ERR_in {m n : Nat} (h : m.testBit 54 = true) : InGroup m (A.PORT_ILM_ACKW_ERR n) := ofGroup (A.PORT_ILM_ACKW_ERR_group _) h
@[simp] theorem A.PORT_ILM_SWAP_FAIL_group (n : Nat) : regGroup (A.PORT_ILM_SWAP_FAIL n) = .portIlm := 
  (by decide : ∀ x < 16, regGroup (0x400474 + 0x20000 * x) = .portIlm) _ (Nat.mod_lt _ (by decide))
theorem A.PORT_ILM_SWAP_FAIL_in {m n : Nat} (h : m.testBit 54 = true) : InGroup m (A.PORT_ILM_SWAP_FAIL n) := ofGroup (A.PORT_ILM_SWAP_FAIL_group _) h
@[simp] theorem A.PORT_ILM_ECHO_group (n : Nat) : regGroup (A.PORT_ILM_ECHO n) = .portIlm := 
  (by decide : ∀ x < 16, regGroup (0x400478 + 0x20000 * x) = .portIlm) _ (Nat.mod_lt _ (by decide))
theorem A.PORT_ILM_ECHO_in {m n : Nat} (h : m.testBit 54 = true) : InGroup m (A.PORT_ILM_ECHO n) := ofGroup (A.PORT_ILM_ECHO_group _) h
@[simp] theorem A.FLOCK_VEC_STATE_group (n : Nat) : regGroup (A.FLOCK_VEC_STATE n) = .slices := 
  (by decide : ∀ x < 4, regGroup (0x608000 + 0x40 * x) = .slices) _ (Nat.mod_lt _ (by decide))
theorem A.FLOCK_VEC_STATE_in {m n : Nat} (h : m.testBit 59 = true) : InGroup m (A.FLOCK_VEC_STATE n) := ofGroup (A.FLOCK_VEC_STATE_group _) h
@[simp] theorem A.FLOCK_VEC_SWEEPS_group (n : Nat) : regGroup (A.FLOCK_VEC_SWEEPS n) = .slices := 
  (by decide : ∀ x < 4, regGroup (0x608004 + 0x40 * x) = .slices) _ (Nat.mod_lt _ (by decide))
theorem A.FLOCK_VEC_SWEEPS_in {m n : Nat} (h : m.testBit 59 = true) : InGroup m (A.FLOCK_VEC_SWEEPS n) := ofGroup (A.FLOCK_VEC_SWEEPS_group _) h
@[simp] theorem A.PORT_MODE_group (n : Nat) : regGroup (A.PORT_MODE n) = .portLink := 
  (by decide : ∀ x < 16, regGroup (0x400000 + 0x20000 * x) = .portLink) _ (Nat.mod_lt _ (by decide))
theorem A.PORT_MODE_in {m n : Nat} (h : m.testBit 53 = true) : InGroup m (A.PORT_MODE n) := ofGroup (A.PORT_MODE_group _) h
@[simp] theorem A.PORT_AN_CTRL_group (n : Nat) : regGroup (A.PORT_AN_CTRL n) = .portLink := 
  (by decide : ∀ x < 16, regGroup (0x400004 + 0x20000 * x) = .portLink) _ (Nat.mod_lt _ (by decide))
theorem A.PORT_AN_CTRL_in {m n : Nat} (h : m.testBit 53 = true) : InGroup m (A.PORT_AN_CTRL n) := ofGroup (A.PORT_AN_CTRL_group _) h
@[simp] theorem A.PORT_AN_STATUS_group (n : Nat) : regGroup (A.PORT_AN_STATUS n) = .portLink := 
  (by decide : ∀ x < 16, regGroup (0x400008 + 0x20000 * x) = .portLink) _ (Nat.mod_lt _ (by decide))
theorem A.PORT_AN_STATUS_in {m n : Nat} (h : m.testBit 53 = true) : InGroup m (A.PORT_AN_STATUS n) := ofGroup (A.PORT_AN_STATUS_group _) h
@[simp] theorem A.PORT_LINK_STATUS_group (n : Nat) : regGroup (A.PORT_LINK_STATUS n) = .portLink := 
  (by decide : ∀ x < 16, regGroup (0x40000c + 0x20000 * x) = .portLink) _ (Nat.mod_lt _ (by decide))
theorem A.PORT_LINK_STATUS_in {m n : Nat} (h : m.testBit 53 = true) : InGroup m (A.PORT_LINK_STATUS n) := ofGroup (A.PORT_LINK_STATUS_group _) h
@[simp] theorem A.PORT_LINK_CFG_group (n : Nat) : regGroup (A.PORT_LINK_CFG n) = .portLink := 
  (by decide : ∀ x < 16, regGroup (0x400010 + 0x20000 * x) = .portLink) _ (Nat.mod_lt _ (by decide))
theorem A.PORT_LINK_CFG_in {m n : Nat} (h : m.testBit 53 = true) : InGroup m (A.PORT_LINK_CFG n) := ofGroup (A.PORT_LINK_CFG_group _) h
@[simp] theorem A.PORT_MON_MARGIN_group (n : Nat) : regGroup (A.PORT_MON_MARGIN n) = .portLink := 
  (by decide : ∀ x < 16, regGroup (0x400014 + 0x20000 * x) = .portLink) _ (Nat.mod_lt _ (by decide))
theorem A.PORT_MON_MARGIN_in {m n : Nat} (h : m.testBit 53 = true) : InGroup m (A.PORT_MON_MARGIN n) := ofGroup (A.PORT_MON_MARGIN_group _) h
@[simp] theorem A.PORT_PARTNER_INFO_group (n : Nat) : regGroup (A.PORT_PARTNER_INFO n) = .portLink := 
  (by decide : ∀ x < 16, regGroup (0x400018 + 0x20000 * x) = .portLink) _ (Nat.mod_lt _ (by decide))
theorem A.PORT_PARTNER_INFO_in {m n : Nat} (h : m.testBit 53 = true) : InGroup m (A.PORT_PARTNER_INFO n) := ofGroup (A.PORT_PARTNER_INFO_group _) h
@[simp] theorem A.PORT_PARTNER_SN_group (n : Nat) : regGroup (A.PORT_PARTNER_SN n) = .portLink := 
  (by decide : ∀ x < 16, regGroup (0x400020 + 0x20000 * x) = .portLink) _ (Nat.mod_lt _ (by decide))
theorem A.PORT_PARTNER_SN_in {m n : Nat} (h : m.testBit 53 = true) : InGroup m (A.PORT_PARTNER_SN n) := ofGroup (A.PORT_PARTNER_SN_group _) h
@[simp] theorem A.PORT_PARTNER_SN_group4 (n : Nat) : regGroup (A.PORT_PARTNER_SN n + 4) = .portLink := 
  (by decide : ∀ x < 16, regGroup (0x400020 + 0x20000 * x + 4) = .portLink) _ (Nat.mod_lt _ (by decide))
theorem A.PORT_PARTNER_SN_in4 {m n : Nat} (h : m.testBit 53 = true) : InGroup m (A.PORT_PARTNER_SN n + 4) := ofGroup (A.PORT_PARTNER_SN_group4 _) h
@[simp] theorem A.PORT_PARTNER_PREV_group (n : Nat) : regGroup (A.PORT_PARTNER_PREV n) = .portLink := 
  (by decide : ∀ x < 16, regGroup (0x400028 + 0x20000 * x) = .portLink) _ (Nat.mod_lt _ (by decide))
theorem A.PORT_PARTNER_PREV_in {m n : Nat} (h : m.testBit 53 = true) : InGroup m (A.PORT_PARTNER_PREV n) := ofGroup (A.PORT_PARTNER_PREV_group _) h
@[simp] theorem A.PORT_PARTNER_PREV_group4 (n : Nat) : regGroup (A.PORT_PARTNER_PREV n + 4) = .portLink := 
  (by decide : ∀ x < 16, regGroup (0x400028 + 0x20000 * x + 4) = .portLink) _ (Nat.mod_lt _ (by decide))
theorem A.PORT_PARTNER_PREV_in4 {m n : Nat} (h : m.testBit 53 = true) : InGroup m (A.PORT_PARTNER_PREV n + 4) := ofGroup (A.PORT_PARTNER_PREV_group4 _) h
@[simp] theorem A.PORT_LINK_DOWNS_group (n : Nat) : regGroup (A.PORT_LINK_DOWNS n) = .portLink := 
  (by decide : ∀ x < 16, regGroup (0x400040 + 0x20000 * x) = .portLink) _ (Nat.mod_lt _ (by decide))
theorem A.PORT_LINK_DOWNS_in {m n : Nat} (h : m.testBit 53 = true) : InGroup m (A.PORT_LINK_DOWNS n) := ofGroup (A.PORT_LINK_DOWNS_group _) h
@[simp] theorem A.PORT_TRAIN_FAILS_group (n : Nat) : regGroup (A.PORT_TRAIN_FAILS n) = .portLink := 
  (by decide : ∀ x < 16, regGroup (0x400044 + 0x20000 * x) = .portLink) _ (Nat.mod_lt _ (by decide))
theorem A.PORT_TRAIN_FAILS_in {m n : Nat} (h : m.testBit 53 = true) : InGroup m (A.PORT_TRAIN_FAILS n) := ofGroup (A.PORT_TRAIN_FAILS_group _) h
@[simp] theorem A.PORT_WARM_OK_group (n : Nat) : regGroup (A.PORT_WARM_OK n) = .portLink := 
  (by decide : ∀ x < 16, regGroup (0x400048 + 0x20000 * x) = .portLink) _ (Nat.mod_lt _ (by decide))
theorem A.PORT_WARM_OK_in {m n : Nat} (h : m.testBit 53 = true) : InGroup m (A.PORT_WARM_OK n) := ofGroup (A.PORT_WARM_OK_group _) h
@[simp] theorem A.PORT_WARM_FAIL_group (n : Nat) : regGroup (A.PORT_WARM_FAIL n) = .portLink := 
  (by decide : ∀ x < 16, regGroup (0x40004c + 0x20000 * x) = .portLink) _ (Nat.mod_lt _ (by decide))
theorem A.PORT_WARM_FAIL_in {m n : Nat} (h : m.testBit 53 = true) : InGroup m (A.PORT_WARM_FAIL n) := ofGroup (A.PORT_WARM_FAIL_group _) h
@[simp] theorem A.PORT_EOC_RETRY_group (n : Nat) : regGroup (A.PORT_EOC_RETRY n) = .portLink := 
  (by decide : ∀ x < 16, regGroup (0x400050 + 0x20000 * x) = .portLink) _ (Nat.mod_lt _ (by decide))
theorem A.PORT_EOC_RETRY_in {m n : Nat} (h : m.testBit 53 = true) : InGroup m (A.PORT_EOC_RETRY n) := ofGroup (A.PORT_EOC_RETRY_group _) h
@[simp] theorem A.PORT_EOC_ERR_group (n : Nat) : regGroup (A.PORT_EOC_ERR n) = .portLink := 
  (by decide : ∀ x < 16, regGroup (0x400054 + 0x20000 * x) = .portLink) _ (Nat.mod_lt _ (by decide))
theorem A.PORT_EOC_ERR_in {m n : Nat} (h : m.testBit 53 = true) : InGroup m (A.PORT_EOC_ERR n) := ofGroup (A.PORT_EOC_ERR_group _) h
@[simp] theorem A.PORT_DOWN_DISCARD_group (n : Nat) : regGroup (A.PORT_DOWN_DISCARD n) = .portLink := 
  (by decide : ∀ x < 16, regGroup (0x400058 + 0x20000 * x) = .portLink) _ (Nat.mod_lt _ (by decide))
theorem A.PORT_DOWN_DISCARD_in {m n : Nat} (h : m.testBit 53 = true) : InGroup m (A.PORT_DOWN_DISCARD n) := ofGroup (A.PORT_DOWN_DISCARD_group _) h
@[simp] theorem A.PORT_LPI_ENTRIES_group (n : Nat) : regGroup (A.PORT_LPI_ENTRIES n) = .portLink := 
  (by decide : ∀ x < 16, regGroup (0x40005c + 0x20000 * x) = .portLink) _ (Nat.mod_lt _ (by decide))
theorem A.PORT_LPI_ENTRIES_in {m n : Nat} (h : m.testBit 53 = true) : InGroup m (A.PORT_LPI_ENTRIES n) := ofGroup (A.PORT_LPI_ENTRIES_group _) h
@[simp] theorem A.PORT_PAD_CFG_group (n : Nat) : regGroup (A.PORT_PAD_CFG n) = .portPad := 
  (by decide : ∀ x < 16, regGroup (0x400600 + 0x20000 * x) = .portPad) _ (Nat.mod_lt _ (by decide))
theorem A.PORT_PAD_CFG_in {m n : Nat} (h : m.testBit 55 = true) : InGroup m (A.PORT_PAD_CFG n) := ofGroup (A.PORT_PAD_CFG_group _) h
@[simp] theorem A.PORT_PAD_FLOW_group (n : Nat) : regGroup (A.PORT_PAD_FLOW n) = .portPad := 
  (by decide : ∀ x < 16, regGroup (0x400604 + 0x20000 * x) = .portPad) _ (Nat.mod_lt _ (by decide))
theorem A.PORT_PAD_FLOW_in {m n : Nat} (h : m.testBit 55 = true) : InGroup m (A.PORT_PAD_FLOW n) := ofGroup (A.PORT_PAD_FLOW_group _) h
@[simp] theorem A.PORT_PAD_STATE_group (n : Nat) : regGroup (A.PORT_PAD_STATE n) = .portPad := 
  (by decide : ∀ x < 16, regGroup (0x400608 + 0x20000 * x) = .portPad) _ (Nat.mod_lt _ (by decide))
theorem A.PORT_PAD_STATE_in {m n : Nat} (h : m.testBit 55 = true) : InGroup m (A.PORT_PAD_STATE n) := ofGroup (A.PORT_PAD_STATE_group _) h
@[simp] theorem A.PORT_PAD_CAP_group (n : Nat) : regGroup (A.PORT_PAD_CAP n) = .portPad := 
  (by decide : ∀ x < 16, regGroup (0x40060c + 0x20000 * x) = .portPad) _ (Nat.mod_lt _ (by decide))
theorem A.PORT_PAD_CAP_in {m n : Nat} (h : m.testBit 55 = true) : InGroup m (A.PORT_PAD_CAP n) := ofGroup (A.PORT_PAD_CAP_group _) h
@[simp] theorem A.PORT_PAD_FILL_group (n : Nat) : regGroup (A.PORT_PAD_FILL n) = .portPad := 
  (by decide : ∀ x < 16, regGroup (0x400610 + 0x20000 * x) = .portPad) _ (Nat.mod_lt _ (by decide))
theorem A.PORT_PAD_FILL_in {m n : Nat} (h : m.testBit 55 = true) : InGroup m (A.PORT_PAD_FILL n) := ofGroup (A.PORT_PAD_FILL_group _) h
@[simp] theorem A.PORT_PAD_LIMIT_group (n : Nat) : regGroup (A.PORT_PAD_LIMIT n) = .portPad := 
  (by decide : ∀ x < 16, regGroup (0x400614 + 0x20000 * x) = .portPad) _ (Nat.mod_lt _ (by decide))
theorem A.PORT_PAD_LIMIT_in {m n : Nat} (h : m.testBit 55 = true) : InGroup m (A.PORT_PAD_LIMIT n) := ofGroup (A.PORT_PAD_LIMIT_group _) h
@[simp] theorem A.PORT_PAD_TXSEQ_group (n : Nat) : regGroup (A.PORT_PAD_TXSEQ n) = .portPad := 
  (by decide : ∀ x < 16, regGroup (0x400618 + 0x20000 * x) = .portPad) _ (Nat.mod_lt _ (by decide))
theorem A.PORT_PAD_TXSEQ_in {m n : Nat} (h : m.testBit 55 = true) : InGroup m (A.PORT_PAD_TXSEQ n) := ofGroup (A.PORT_PAD_TXSEQ_group _) h
@[simp] theorem A.PORT_PAD_RXSEQ_group (n : Nat) : regGroup (A.PORT_PAD_RXSEQ n) = .portPad := 
  (by decide : ∀ x < 16, regGroup (0x40061c + 0x20000 * x) = .portPad) _ (Nat.mod_lt _ (by decide))
theorem A.PORT_PAD_RXSEQ_in {m n : Nat} (h : m.testBit 55 = true) : InGroup m (A.PORT_PAD_RXSEQ n) := ofGroup (A.PORT_PAD_RXSEQ_group _) h
@[simp] theorem A.PORT_PAD_PEAK_group (n : Nat) : regGroup (A.PORT_PAD_PEAK n) = .portPad := 
  (by decide : ∀ x < 16, regGroup (0x400620 + 0x20000 * x) = .portPad) _ (Nat.mod_lt _ (by decide))
theorem A.PORT_PAD_PEAK_in {m n : Nat} (h : m.testBit 55 = true) : InGroup m (A.PORT_PAD_PEAK n) := ofGroup (A.PORT_PAD_PEAK_group _) h
@[simp] theorem A.PORT_PAD_RETX_group (n : Nat) : regGroup (A.PORT_PAD_RETX n) = .portPad := 
  (by decide : ∀ x < 16, regGroup (0x400640 + 0x20000 * x) = .portPad) _ (Nat.mod_lt _ (by decide))
theorem A.PORT_PAD_RETX_in {m n : Nat} (h : m.testBit 55 = true) : InGroup m (A.PORT_PAD_RETX n) := ofGroup (A.PORT_PAD_RETX_group _) h
@[simp] theorem A.PORT_PAD_NAK_TX_group (n : Nat) : regGroup (A.PORT_PAD_NAK_TX n) = .portPad := 
  (by decide : ∀ x < 16, regGroup (0x400644 + 0x20000 * x) = .portPad) _ (Nat.mod_lt _ (by decide))
theorem A.PORT_PAD_NAK_TX_in {m n : Nat} (h : m.testBit 55 = true) : InGroup m (A.PORT_PAD_NAK_TX n) := ofGroup (A.PORT_PAD_NAK_TX_group _) h
@[simp] theorem A.PORT_PAD_NAK_RX_group (n : Nat) : regGroup (A.PORT_PAD_NAK_RX n) = .portPad := 
  (by decide : ∀ x < 16, regGroup (0x400648 + 0x20000 * x) = .portPad) _ (Nat.mod_lt _ (by decide))
theorem A.PORT_PAD_NAK_RX_in {m n : Nat} (h : m.testBit 55 = true) : InGroup m (A.PORT_PAD_NAK_RX n) := ofGroup (A.PORT_PAD_NAK_RX_group _) h
@[simp] theorem A.PORT_PAD_DUP_group (n : Nat) : regGroup (A.PORT_PAD_DUP n) = .portPad := 
  (by decide : ∀ x < 16, regGroup (0x40064c + 0x20000 * x) = .portPad) _ (Nat.mod_lt _ (by decide))
theorem A.PORT_PAD_DUP_in {m n : Nat} (h : m.testBit 55 = true) : InGroup m (A.PORT_PAD_DUP n) := ofGroup (A.PORT_PAD_DUP_group _) h
@[simp] theorem A.PORT_PAD_BAD_WORD_group (n : Nat) : regGroup (A.PORT_PAD_BAD_WORD n) = .portPad := 
  (by decide : ∀ x < 16, regGroup (0x400650 + 0x20000 * x) = .portPad) _ (Nat.mod_lt _ (by decide))
theorem A.PORT_PAD_BAD_WORD_in {m n : Nat} (h : m.testBit 55 = true) : InGroup m (A.PORT_PAD_BAD_WORD n) := ofGroup (A.PORT_PAD_BAD_WORD_group _) h
@[simp] theorem A.PORT_PAD_VOID_TX_group (n : Nat) : regGroup (A.PORT_PAD_VOID_TX n) = .portPad := 
  (by decide : ∀ x < 16, regGroup (0x400654 + 0x20000 * x) = .portPad) _ (Nat.mod_lt _ (by decide))
theorem A.PORT_PAD_VOID_TX_in {m n : Nat} (h : m.testBit 55 = true) : InGroup m (A.PORT_PAD_VOID_TX n) := ofGroup (A.PORT_PAD_VOID_TX_group _) h
@[simp] theorem A.PORT_PAD_VOID_RX_group (n : Nat) : regGroup (A.PORT_PAD_VOID_RX n) = .portPad := 
  (by decide : ∀ x < 16, regGroup (0x400658 + 0x20000 * x) = .portPad) _ (Nat.mod_lt _ (by decide))
theorem A.PORT_PAD_VOID_RX_in {m n : Nat} (h : m.testBit 55 = true) : InGroup m (A.PORT_PAD_VOID_RX n) := ofGroup (A.PORT_PAD_VOID_RX_group _) h
@[simp] theorem A.PORT_PAD_DROP_TX_group (n : Nat) : regGroup (A.PORT_PAD_DROP_TX n) = .portPad := 
  (by decide : ∀ x < 16, regGroup (0x40065c + 0x20000 * x) = .portPad) _ (Nat.mod_lt _ (by decide))
theorem A.PORT_PAD_DROP_TX_in {m n : Nat} (h : m.testBit 55 = true) : InGroup m (A.PORT_PAD_DROP_TX n) := ofGroup (A.PORT_PAD_DROP_TX_group _) h
@[simp] theorem A.PORT_PAD_DROP_RX_group (n : Nat) : regGroup (A.PORT_PAD_DROP_RX n) = .portPad := 
  (by decide : ∀ x < 16, regGroup (0x400660 + 0x20000 * x) = .portPad) _ (Nat.mod_lt _ (by decide))
theorem A.PORT_PAD_DROP_RX_in {m n : Nat} (h : m.testBit 55 = true) : InGroup m (A.PORT_PAD_DROP_RX n) := ofGroup (A.PORT_PAD_DROP_RX_group _) h
@[simp] theorem A.PORT_PAD_HOST_OVF_group (n : Nat) : regGroup (A.PORT_PAD_HOST_OVF n) = .portPad := 
  (by decide : ∀ x < 16, regGroup (0x400664 + 0x20000 * x) = .portPad) _ (Nat.mod_lt _ (by decide))
theorem A.PORT_PAD_HOST_OVF_in {m n : Nat} (h : m.testBit 55 = true) : InGroup m (A.PORT_PAD_HOST_OVF n) := ofGroup (A.PORT_PAD_HOST_OVF_group _) h
@[simp] theorem A.PORT_PAD_RX_OVF_group (n : Nat) : regGroup (A.PORT_PAD_RX_OVF n) = .portPad := 
  (by decide : ∀ x < 16, regGroup (0x400668 + 0x20000 * x) = .portPad) _ (Nat.mod_lt _ (by decide))
theorem A.PORT_PAD_RX_OVF_in {m n : Nat} (h : m.testBit 55 = true) : InGroup m (A.PORT_PAD_RX_OVF n) := ofGroup (A.PORT_PAD_RX_OVF_group _) h
@[simp] theorem A.PORT_PAD_STAGE_DROP_group (n : Nat) : regGroup (A.PORT_PAD_STAGE_DROP n) = .portPad := 
  (by decide : ∀ x < 16, regGroup (0x40066c + 0x20000 * x) = .portPad) _ (Nat.mod_lt _ (by decide))
theorem A.PORT_PAD_STAGE_DROP_in {m n : Nat} (h : m.testBit 55 = true) : InGroup m (A.PORT_PAD_STAGE_DROP n) := ofGroup (A.PORT_PAD_STAGE_DROP_group _) h
@[simp] theorem A.PORT_PAD_XOFF_group (n : Nat) : regGroup (A.PORT_PAD_XOFF n) = .portPad := 
  (by decide : ∀ x < 16, regGroup (0x400670 + 0x20000 * x) = .portPad) _ (Nat.mod_lt _ (by decide))
theorem A.PORT_PAD_XOFF_in {m n : Nat} (h : m.testBit 55 = true) : InGroup m (A.PORT_PAD_XOFF n) := ofGroup (A.PORT_PAD_XOFF_group _) h
@[simp] theorem A.PORT_PAD_DRAIN_DISC_group (n : Nat) : regGroup (A.PORT_PAD_DRAIN_DISC n) = .portPad := 
  (by decide : ∀ x < 16, regGroup (0x400674 + 0x20000 * x) = .portPad) _ (Nat.mod_lt _ (by decide))
theorem A.PORT_PAD_DRAIN_DISC_in {m n : Nat} (h : m.testBit 55 = true) : InGroup m (A.PORT_PAD_DRAIN_DISC n) := ofGroup (A.PORT_PAD_DRAIN_DISC_group _) h
@[simp] theorem A.FAB_PAD_TOTAL_group : regGroup (A.FAB_PAD_TOTAL) = .fab := rfl
theorem A.FAB_PAD_TOTAL_in {m : Nat} (h : m.testBit 65 = true) : InGroup m (A.FAB_PAD_TOTAL) := ofGroup (A.FAB_PAD_TOTAL_group) h
@[simp] theorem A.FAB_PAD_FREE_group : regGroup (A.FAB_PAD_FREE) = .fab := rfl
theorem A.FAB_PAD_FREE_in {m : Nat} (h : m.testBit 65 = true) : InGroup m (A.FAB_PAD_FREE) := ofGroup (A.FAB_PAD_FREE_group) h
@[simp] theorem A.POS_CFG_group : regGroup (A.POS_CFG) = .pos := rfl
theorem A.POS_CFG_in {m : Nat} (h : m.testBit 72 = true) : InGroup m (A.POS_CFG) := ofGroup (A.POS_CFG_group) h
@[simp] theorem A.POS_WHEEL_group : regGroup (A.POS_WHEEL) = .pos := rfl
theorem A.POS_WHEEL_in {m : Nat} (h : m.testBit 72 = true) : InGroup m (A.POS_WHEEL) := ofGroup (A.POS_WHEEL_group) h
@[simp] theorem A.POS_POSITION_group : regGroup (A.POS_POSITION) = .pos := rfl
theorem A.POS_POSITION_in {m : Nat} (h : m.testBit 72 = true) : InGroup m (A.POS_POSITION) := ofGroup (A.POS_POSITION_group) h
@[simp] theorem A.POS_POSITION_group4 : regGroup (A.POS_POSITION + 4) = .pos := rfl
theorem A.POS_POSITION_in4 {m : Nat} (h : m.testBit 72 = true) : InGroup m (A.POS_POSITION + 4) := ofGroup (A.POS_POSITION_group4) h
@[simp] theorem A.POS_ROUTE_group : regGroup (A.POS_ROUTE) = .pos := rfl
theorem A.POS_ROUTE_in {m : Nat} (h : m.testBit 72 = true) : InGroup m (A.POS_ROUTE) := ofGroup (A.POS_ROUTE_group) h
@[simp] theorem A.POS_STATE_group : regGroup (A.POS_STATE) = .pos := rfl
theorem A.POS_STATE_in {m : Nat} (h : m.testBit 72 = true) : InGroup m (A.POS_STATE) := ofGroup (A.POS_STATE_group) h
@[simp] theorem A.POS_SPEED_group : regGroup (A.POS_SPEED) = .pos := rfl
theorem A.POS_SPEED_in {m : Nat} (h : m.testBit 72 = true) : InGroup m (A.POS_SPEED) := ofGroup (A.POS_SPEED_group) h
@[simp] theorem A.POS_SCALE_group : regGroup (A.POS_SCALE) = .pos := rfl
theorem A.POS_SCALE_in {m : Nat} (h : m.testBit 72 = true) : InGroup m (A.POS_SCALE) := ofGroup (A.POS_SCALE_group) h
@[simp] theorem A.POS_LAST_JUMP_group : regGroup (A.POS_LAST_JUMP) = .pos := rfl
theorem A.POS_LAST_JUMP_in {m : Nat} (h : m.testBit 72 = true) : InGroup m (A.POS_LAST_JUMP) := ofGroup (A.POS_LAST_JUMP_group) h
@[simp] theorem A.POS_EDGES_group : regGroup (A.POS_EDGES) = .pos := rfl
theorem A.POS_EDGES_in {m : Nat} (h : m.testBit 72 = true) : InGroup m (A.POS_EDGES) := ofGroup (A.POS_EDGES_group) h
@[simp] theorem A.POS_ODO_ERR_group : regGroup (A.POS_ODO_ERR) = .pos := rfl
theorem A.POS_ODO_ERR_in {m : Nat} (h : m.testBit 72 = true) : InGroup m (A.POS_ODO_ERR) := ofGroup (A.POS_ODO_ERR_group) h
@[simp] theorem A.POS_HOLDS_group : regGroup (A.POS_HOLDS) = .pos := rfl
theorem A.POS_HOLDS_in {m : Nat} (h : m.testBit 72 = true) : InGroup m (A.POS_HOLDS) := ofGroup (A.POS_HOLDS_group) h
@[simp] theorem A.POS_REVERSALS_group : regGroup (A.POS_REVERSALS) = .pos := rfl
theorem A.POS_REVERSALS_in {m : Nat} (h : m.testBit 72 = true) : InGroup m (A.POS_REVERSALS) := ofGroup (A.POS_REVERSALS_group) h
@[simp] theorem A.PISTE_CTRL_group : regGroup (A.PISTE_CTRL) = .piste := rfl
theorem A.PISTE_CTRL_in {m : Nat} (h : m.testBit 73 = true) : InGroup m (A.PISTE_CTRL) := ofGroup (A.PISTE_CTRL_group) h
@[simp] theorem A.PISTE_LEARN_group : regGroup (A.PISTE_LEARN) = .piste := rfl
theorem A.PISTE_LEARN_in {m : Nat} (h : m.testBit 73 = true) : InGroup m (A.PISTE_LEARN) := ofGroup (A.PISTE_LEARN_group) h
@[simp] theorem A.PISTE_STATUS_group : regGroup (A.PISTE_STATUS) = .piste := rfl
theorem A.PISTE_STATUS_in {m : Nat} (h : m.testBit 73 = true) : InGroup m (A.PISTE_STATUS) := ofGroup (A.PISTE_STATUS_group) h
@[simp] theorem A.PISTE_COUNT_group : regGroup (A.PISTE_COUNT) = .piste := rfl
theorem A.PISTE_COUNT_in {m : Nat} (h : m.testBit 73 = true) : InGroup m (A.PISTE_COUNT) := ofGroup (A.PISTE_COUNT_group) h
@[simp] theorem A.PISTE_TABLE_ROUTE_group : regGroup (A.PISTE_TABLE_ROUTE) = .piste := rfl
theorem A.PISTE_TABLE_ROUTE_in {m : Nat} (h : m.testBit 73 = true) : InGroup m (A.PISTE_TABLE_ROUTE) := ofGroup (A.PISTE_TABLE_ROUTE_group) h
@[simp] theorem A.PISTE_ARMS_group : regGroup (A.PISTE_ARMS) = .piste := rfl
theorem A.PISTE_ARMS_in {m : Nat} (h : m.testBit 73 = true) : InGroup m (A.PISTE_ARMS) := ofGroup (A.PISTE_ARMS_group) h
@[simp] theorem A.PISTE_FULL_DROPS_group : regGroup (A.PISTE_FULL_DROPS) = .piste := rfl
theorem A.PISTE_FULL_DROPS_in {m : Nat} (h : m.testBit 73 = true) : InGroup m (A.PISTE_FULL_DROPS) := ofGroup (A.PISTE_FULL_DROPS_group) h
@[simp] theorem A.PISTE_PORT_group (n : Nat) : regGroup (A.PISTE_PORT n) = .piste := 
  (by decide : ∀ x < 16, regGroup (0xc00200 + 0x4 * x) = .piste) _ (Nat.mod_lt _ (by decide))
theorem A.PISTE_PORT_in {m n : Nat} (h : m.testBit 73 = true) : InGroup m (A.PISTE_PORT n) := ofGroup (A.PISTE_PORT_group _) h
@[simp] theorem A.PORT_TRV_CFG_group (n : Nat) : regGroup (A.PORT_TRV_CFG n) = .portTrv := 
  (by decide : ∀ x < 16, regGroup (0x400800 + 0x20000 * x) = .portTrv) _ (Nat.mod_lt _ (by decide))
theorem A.PORT_TRV_CFG_in {m n : Nat} (h : m.testBit 56 = true) : InGroup m (A.PORT_TRV_CFG n) := ofGroup (A.PORT_TRV_CFG_group _) h
@[simp] theorem A.PORT_TRV_TURN_group (n : Nat) : regGroup (A.PORT_TRV_TURN n) = .portTrv := 
  (by decide : ∀ x < 16, regGroup (0x400804 + 0x20000 * x) = .portTrv) _ (Nat.mod_lt _ (by decide))
theorem A.PORT_TRV_TURN_in {m n : Nat} (h : m.testBit 56 = true) : InGroup m (A.PORT_TRV_TURN n) := ofGroup (A.PORT_TRV_TURN_group _) h
@[simp] theorem A.PORT_TRV_STATE_group (n : Nat) : regGroup (A.PORT_TRV_STATE n) = .portTrv := 
  (by decide : ∀ x < 16, regGroup (0x400808 + 0x20000 * x) = .portTrv) _ (Nat.mod_lt _ (by decide))
theorem A.PORT_TRV_STATE_in {m n : Nat} (h : m.testBit 56 = true) : InGroup m (A.PORT_TRV_STATE n) := ofGroup (A.PORT_TRV_STATE_group _) h
@[simp] theorem A.PORT_TRV_SPAN_group (n : Nat) : regGroup (A.PORT_TRV_SPAN n) = .portTrv := 
  (by decide : ∀ x < 16, regGroup (0x40080c + 0x20000 * x) = .portTrv) _ (Nat.mod_lt _ (by decide))
theorem A.PORT_TRV_SPAN_in {m n : Nat} (h : m.testBit 56 = true) : InGroup m (A.PORT_TRV_SPAN n) := ofGroup (A.PORT_TRV_SPAN_group _) h
@[simp] theorem A.PORT_BELL_CFG_group (n : Nat) : regGroup (A.PORT_BELL_CFG n) = .portTrv := 
  (by decide : ∀ x < 16, regGroup (0x400810 + 0x20000 * x) = .portTrv) _ (Nat.mod_lt _ (by decide))
theorem A.PORT_BELL_CFG_in {m n : Nat} (h : m.testBit 56 = true) : InGroup m (A.PORT_BELL_CFG n) := ofGroup (A.PORT_BELL_CFG_group _) h
@[simp] theorem A.PORT_BELL_CMD_group (n : Nat) : regGroup (A.PORT_BELL_CMD n) = .portTrv := 
  (by decide : ∀ x < 16, regGroup (0x400814 + 0x20000 * x) = .portTrv) _ (Nat.mod_lt _ (by decide))
theorem A.PORT_BELL_CMD_in {m n : Nat} (h : m.testBit 56 = true) : InGroup m (A.PORT_BELL_CMD n) := ofGroup (A.PORT_BELL_CMD_group _) h
@[simp] theorem A.PORT_BELL_STATE_group (n : Nat) : regGroup (A.PORT_BELL_STATE n) = .portTrv := 
  (by decide : ∀ x < 16, regGroup (0x400818 + 0x20000 * x) = .portTrv) _ (Nat.mod_lt _ (by decide))
theorem A.PORT_BELL_STATE_in {m n : Nat} (h : m.testBit 56 = true) : InGroup m (A.PORT_BELL_STATE n) := ofGroup (A.PORT_BELL_STATE_group _) h
@[simp] theorem A.PORT_TRV_BURST_TX_group (n : Nat) : regGroup (A.PORT_TRV_BURST_TX n) = .portTrv := 
  (by decide : ∀ x < 16, regGroup (0x400840 + 0x20000 * x) = .portTrv) _ (Nat.mod_lt _ (by decide))
theorem A.PORT_TRV_BURST_TX_in {m n : Nat} (h : m.testBit 56 = true) : InGroup m (A.PORT_TRV_BURST_TX n) := ofGroup (A.PORT_TRV_BURST_TX_group _) h
@[simp] theorem A.PORT_TRV_BURST_OK_group (n : Nat) : regGroup (A.PORT_TRV_BURST_OK n) = .portTrv := 
  (by decide : ∀ x < 16, regGroup (0x400844 + 0x20000 * x) = .portTrv) _ (Nat.mod_lt _ (by decide))
theorem A.PORT_TRV_BURST_OK_in {m n : Nat} (h : m.testBit 56 = true) : InGroup m (A.PORT_TRV_BURST_OK n) := ofGroup (A.PORT_TRV_BURST_OK_group _) h
@[simp] theorem A.PORT_TRV_HDR_ERR_group (n : Nat) : regGroup (A.PORT_TRV_HDR_ERR n) = .portTrv := 
  (by decide : ∀ x < 16, regGroup (0x400848 + 0x20000 * x) = .portTrv) _ (Nat.mod_lt _ (by decide))
theorem A.PORT_TRV_HDR_ERR_in {m n : Nat} (h : m.testBit 56 = true) : InGroup m (A.PORT_TRV_HDR_ERR n) := ofGroup (A.PORT_TRV_HDR_ERR_group _) h
@[simp] theorem A.PORT_TRV_FALSE_SYNC_group (n : Nat) : regGroup (A.PORT_TRV_FALSE_SYNC n) = .portTrv := 
  (by decide : ∀ x < 16, regGroup (0x40084c + 0x20000 * x) = .portTrv) _ (Nat.mod_lt _ (by decide))
theorem A.PORT_TRV_FALSE_SYNC_in {m n : Nat} (h : m.testBit 56 = true) : InGroup m (A.PORT_TRV_FALSE_SYNC n) := ofGroup (A.PORT_TRV_FALSE_SYNC_group _) h
@[simp] theorem A.PORT_TRV_SHADOW_group (n : Nat) : regGroup (A.PORT_TRV_SHADOW n) = .portTrv := 
  (by decide : ∀ x < 16, regGroup (0x400850 + 0x20000 * x) = .portTrv) _ (Nat.mod_lt _ (by decide))
theorem A.PORT_TRV_SHADOW_in {m n : Nat} (h : m.testBit 56 = true) : InGroup m (A.PORT_TRV_SHADOW n) := ofGroup (A.PORT_TRV_SHADOW_group _) h
@[simp] theorem A.PORT_TRV_SHADOW_LATE_group (n : Nat) : regGroup (A.PORT_TRV_SHADOW_LATE n) = .portTrv := 
  (by decide : ∀ x < 16, regGroup (0x400854 + 0x20000 * x) = .portTrv) _ (Nat.mod_lt _ (by decide))
theorem A.PORT_TRV_SHADOW_LATE_in {m n : Nat} (h : m.testBit 56 = true) : InGroup m (A.PORT_TRV_SHADOW_LATE n) := ofGroup (A.PORT_TRV_SHADOW_LATE_group _) h
@[simp] theorem A.PORT_TRV_TRUNC_group (n : Nat) : regGroup (A.PORT_TRV_TRUNC n) = .portTrv := 
  (by decide : ∀ x < 16, regGroup (0x400858 + 0x20000 * x) = .portTrv) _ (Nat.mod_lt _ (by decide))
theorem A.PORT_TRV_TRUNC_in {m n : Nat} (h : m.testBit 56 = true) : InGroup m (A.PORT_TRV_TRUNC n) := ofGroup (A.PORT_TRV_TRUNC_group _) h
@[simp] theorem A.PORT_TRV_PAY_ERR_group (n : Nat) : regGroup (A.PORT_TRV_PAY_ERR n) = .portTrv := 
  (by decide : ∀ x < 16, regGroup (0x40085c + 0x20000 * x) = .portTrv) _ (Nat.mod_lt _ (by decide))
theorem A.PORT_TRV_PAY_ERR_in {m n : Nat} (h : m.testBit 56 = true) : InGroup m (A.PORT_TRV_PAY_ERR n) := ofGroup (A.PORT_TRV_PAY_ERR_group _) h
@[simp] theorem A.PORT_TRV_RESEND_group (n : Nat) : regGroup (A.PORT_TRV_RESEND n) = .portTrv := 
  (by decide : ∀ x < 16, regGroup (0x400860 + 0x20000 * x) = .portTrv) _ (Nat.mod_lt _ (by decide))
theorem A.PORT_TRV_RESEND_in {m n : Nat} (h : m.testBit 56 = true) : InGroup m (A.PORT_TRV_RESEND n) := ofGroup (A.PORT_TRV_RESEND_group _) h
@[simp] theorem A.PORT_TRV_ABANDON_group (n : Nat) : regGroup (A.PORT_TRV_ABANDON n) = .portTrv := 
  (by decide : ∀ x < 16, regGroup (0x400864 + 0x20000 * x) = .portTrv) _ (Nat.mod_lt _ (by decide))
theorem A.PORT_TRV_ABANDON_in {m n : Nat} (h : m.testBit 56 = true) : InGroup m (A.PORT_TRV_ABANDON n) := ofGroup (A.PORT_TRV_ABANDON_group _) h
@[simp] theorem A.PORT_TRV_DROP_TX_group (n : Nat) : regGroup (A.PORT_TRV_DROP_TX n) = .portTrv := 
  (by decide : ∀ x < 16, regGroup (0x400868 + 0x20000 * x) = .portTrv) _ (Nat.mod_lt _ (by decide))
theorem A.PORT_TRV_DROP_TX_in {m n : Nat} (h : m.testBit 56 = true) : InGroup m (A.PORT_TRV_DROP_TX n) := ofGroup (A.PORT_TRV_DROP_TX_group _) h
@[simp] theorem A.PORT_TRV_DROP_RX_group (n : Nat) : regGroup (A.PORT_TRV_DROP_RX n) = .portTrv := 
  (by decide : ∀ x < 16, regGroup (0x40086c + 0x20000 * x) = .portTrv) _ (Nat.mod_lt _ (by decide))
theorem A.PORT_TRV_DROP_RX_in {m n : Nat} (h : m.testBit 56 = true) : InGroup m (A.PORT_TRV_DROP_RX n) := ofGroup (A.PORT_TRV_DROP_RX_group _) h
@[simp] theorem A.PORT_TRV_TOKEN_RECLAIM_group (n : Nat) : regGroup (A.PORT_TRV_TOKEN_RECLAIM n) = .portTrv := 
  (by decide : ∀ x < 16, regGroup (0x400870 + 0x20000 * x) = .portTrv) _ (Nat.mod_lt _ (by decide))
theorem A.PORT_TRV_TOKEN_RECLAIM_in {m n : Nat} (h : m.testBit 56 = true) : InGroup m (A.PORT_TRV_TOKEN_RECLAIM n) := ofGroup (A.PORT_TRV_TOKEN_RECLAIM_group _) h
@[simp] theorem A.PORT_BELL_SENT_group (n : Nat) : regGroup (A.PORT_BELL_SENT n) = .portTrv := 
  (by decide : ∀ x < 16, regGroup (0x400874 + 0x20000 * x) = .portTrv) _ (Nat.mod_lt _ (by decide))
theorem A.PORT_BELL_SENT_in {m n : Nat} (h : m.testBit 56 = true) : InGroup m (A.PORT_BELL_SENT n) := ofGroup (A.PORT_BELL_SENT_group _) h
@[simp] theorem A.PORT_BELL_HEARD_group (n : Nat) : regGroup (A.PORT_BELL_HEARD n) = .portTrv := 
  (by decide : ∀ x < 16, regGroup (0x400878 + 0x20000 * x) = .portTrv) _ (Nat.mod_lt _ (by decide))
theorem A.PORT_BELL_HEARD_in {m n : Nat} (h : m.testBit 56 = true) : InGroup m (A.PORT_BELL_HEARD n) := ofGroup (A.PORT_BELL_HEARD_group _) h
@[simp] theorem A.PORT_CAL_STATE_group (n : Nat) : regGroup (A.PORT_CAL_STATE n) = .portCal := 
  (by decide : ∀ x < 16, regGroup (0x400a00 + 0x20000 * x) = .portCal) _ (Nat.mod_lt _ (by decide))
theorem A.PORT_CAL_STATE_in {m n : Nat} (h : m.testBit 57 = true) : InGroup m (A.PORT_CAL_STATE n) := ofGroup (A.PORT_CAL_STATE_group _) h
@[simp] theorem A.PORT_GRADE_group (n : Nat) : regGroup (A.PORT_GRADE n) = .portCal := 
  (by decide : ∀ x < 16, regGroup (0x400a04 + 0x20000 * x) = .portCal) _ (Nat.mod_lt _ (by decide))
theorem A.PORT_GRADE_in {m n : Nat} (h : m.testBit 57 = true) : InGroup m (A.PORT_GRADE n) := ofGroup (A.PORT_GRADE_group _) h
@[simp] theorem A.PORT_TRIM_ADC_group (n k : Nat) : regGroup (A.PORT_TRIM_ADC n k) = .portCal := 
  (by decide : ∀ x < 16, ∀ y < 8, regGroup (0x400a40 + 0x20000 * x + 0x4 * y) = .portCal) _ (Nat.mod_lt _ (by decide)) _ (Nat.mod_lt _ (by decide))
theorem A.PORT_TRIM_ADC_in {m n k : Nat} (h : m.testBit 57 = true) : InGroup m (A.PORT_TRIM_ADC n k) := ofGroup (A.PORT_TRIM_ADC_group _ _) h
@[simp] theorem A.PORT_TRIM_HYB_group (n : Nat) : regGroup (A.PORT_TRIM_HYB n) = .portCal := 
  (by decide : ∀ x < 16, regGroup (0x400a60 + 0x20000 * x) = .portCal) _ (Nat.mod_lt _ (by decide))
theorem A.PORT_TRIM_HYB_in {m n : Nat} (h : m.testBit 57 = true) : InGroup m (A.PORT_TRIM_HYB n) := ofGroup (A.PORT_TRIM_HYB_group _) h
@[simp] theorem A.PORT_DIAG_STATE_group (n : Nat) : regGroup (A.PORT_DIAG_STATE n) = .portCal := 
  (by decide : ∀ x < 16, regGroup (0x400a80 + 0x20000 * x) = .portCal) _ (Nat.mod_lt _ (by decide))
theorem A.PORT_DIAG_STATE_in {m n : Nat} (h : m.testBit 57 = true) : InGroup m (A.PORT_DIAG_STATE n) := ofGroup (A.PORT_DIAG_STATE_group _) h
@[simp] theorem A.PORT_DIAG_EVT_group (n k : Nat) : regGroup (A.PORT_DIAG_EVT n k) = .portCal := 
  (by decide : ∀ x < 16, ∀ y < 8, regGroup (0x400aa0 + 0x20000 * x + 0x4 * y) = .portCal) _ (Nat.mod_lt _ (by decide)) _ (Nat.mod_lt _ (by decide))
theorem A.PORT_DIAG_EVT_in {m n k : Nat} (h : m.testBit 57 = true) : InGroup m (A.PORT_DIAG_EVT n k) := ofGroup (A.PORT_DIAG_EVT_group _ _) h
@[simp] theorem A.PORT_DIAG_BASE_group (n k : Nat) : regGroup (A.PORT_DIAG_BASE n k) = .portCal := 
  (by decide : ∀ x < 16, ∀ y < 16, regGroup (0x400ac0 + 0x20000 * x + 0x4 * y) = .portCal) _ (Nat.mod_lt _ (by decide)) _ (Nat.mod_lt _ (by decide))
theorem A.PORT_DIAG_BASE_in {m n k : Nat} (h : m.testBit 57 = true) : InGroup m (A.PORT_DIAG_BASE n k) := ofGroup (A.PORT_DIAG_BASE_group _ _) h
@[simp] theorem A.MEM_CAL_STATE_group (n k : Nat) : regGroup (A.MEM_CAL_STATE n k) = .memCal := 
  (by decide : ∀ x < 16, ∀ y < 2, regGroup (0x803000 + 0x10000 * x + 0x100 * y) = .memCal) _ (Nat.mod_lt _ (by decide)) _ (Nat.mod_lt _ (by decide))
theorem A.MEM_CAL_STATE_in {m n k : Nat} (h : m.testBit 64 = true) : InGroup m (A.MEM_CAL_STATE n k) := ofGroup (A.MEM_CAL_STATE_group _ _) h
@[simp] theorem A.MEM_TRIM_group (n k j : Nat) : regGroup (A.MEM_TRIM n k j) = .memCal := by
  unfold A.MEM_TRIM regGroup
  rw [if_neg (by omega), if_neg (by omega), if_neg (by omega), if_pos (by omega), if_neg (by omega), if_neg (by omega), if_neg (by omega), if_neg (by omega)]
theorem A.MEM_TRIM_in {m n k j : Nat} (h : m.testBit 64 = true) : InGroup m (A.MEM_TRIM n k j) := ofGroup (A.MEM_TRIM_group _ _ _) h
@[simp] theorem A.MEM_GRADE_group (n k j : Nat) : regGroup (A.MEM_GRADE n k j) = .memCal := by
  unfold A.MEM_GRADE regGroup
  rw [if_neg (by omega), if_neg (by omega), if_neg (by omega), if_pos (by omega), if_neg (by omega), if_neg (by omega), if_neg (by omega), if_neg (by omega)]
theorem A.MEM_GRADE_in {m n k j : Nat} (h : m.testBit 64 = true) : InGroup m (A.MEM_GRADE n k j) := ofGroup (A.MEM_GRADE_group _ _ _) h
@[simp] theorem A.THM_CAL_CFG_group : regGroup (A.THM_CAL_CFG) = .cal := rfl
theorem A.THM_CAL_CFG_in {m : Nat} (h : m.testBit 71 = true) : InGroup m (A.THM_CAL_CFG) := ofGroup (A.THM_CAL_CFG_group) h
@[simp] theorem A.THM_CAL_STATUS_group : regGroup (A.THM_CAL_STATUS) = .cal := rfl
theorem A.THM_CAL_STATUS_in {m : Nat} (h : m.testBit 71 = true) : InGroup m (A.THM_CAL_STATUS) := ofGroup (A.THM_CAL_STATUS_group) h
@[simp] theorem A.THM_CAL_RUNS_group : regGroup (A.THM_CAL_RUNS) = .cal := rfl
theorem A.THM_CAL_RUNS_in {m : Nat} (h : m.testBit 71 = true) : InGroup m (A.THM_CAL_RUNS) := ofGroup (A.THM_CAL_RUNS_group) h
@[simp] theorem A.THM_CAL_FAILS_group : regGroup (A.THM_CAL_FAILS) = .cal := rfl
theorem A.THM_CAL_FAILS_in {m : Nat} (h : m.testBit 71 = true) : InGroup m (A.THM_CAL_FAILS) := ofGroup (A.THM_CAL_FAILS_group) h
@[simp] theorem A.THM_CAL_DEFERRED_group : regGroup (A.THM_CAL_DEFERRED) = .cal := rfl
theorem A.THM_CAL_DEFERRED_in {m : Nat} (h : m.testBit 71 = true) : InGroup m (A.THM_CAL_DEFERRED) := ofGroup (A.THM_CAL_DEFERRED_group) h
@[simp] theorem A.FAB_STACK_group : regGroup (A.FAB_STACK) = .fab := rfl
theorem A.FAB_STACK_in {m : Nat} (h : m.testBit 65 = true) : InGroup m (A.FAB_STACK) := ofGroup (A.FAB_STACK_group) h
@[simp] theorem A.FAB_SCHED_CFG_group : regGroup (A.FAB_SCHED_CFG) = .fab := rfl
theorem A.FAB_SCHED_CFG_in {m : Nat} (h : m.testBit 65 = true) : InGroup m (A.FAB_SCHED_CFG) := ofGroup (A.FAB_SCHED_CFG_group) h
@[simp] theorem A.FAB_LAT_MEDIAN_group : regGroup (A.FAB_LAT_MEDIAN) = .fab := rfl
theorem A.FAB_LAT_MEDIAN_in {m : Nat} (h : m.testBit 65 = true) : InGroup m (A.FAB_LAT_MEDIAN) := ofGroup (A.FAB_LAT_MEDIAN_group) h
@[simp] theorem A.FAB_PCMAP_group (n : Nat) : regGroup (A.FAB_PCMAP n) = .fab := 
  (by decide : ∀ x < 32, regGroup (0x900200 + 0x4 * x) = .fab) _ (Nat.mod_lt _ (by decide))
theorem A.FAB_PCMAP_in {m n : Nat} (h : m.testBit 65 = true) : InGroup m (A.FAB_PCMAP n) := ofGroup (A.FAB_PCMAP_group _) h
@[simp] theorem A.FAB_PART_group (n : Nat) : regGroup (A.FAB_PART n) = .fab := 
  (by decide : ∀ x < 16, regGroup (0x900300 + 0x10 * x) = .fab) _ (Nat.mod_lt _ (by decide))
theorem A.FAB_PART_in {m n : Nat} (h : m.testBit 65 = true) : InGroup m (A.FAB_PART n) := ofGroup (A.FAB_PART_group _) h
@[simp] theorem A.FAB_PART_BASE_group (n : Nat) : regGroup (A.FAB_PART_BASE n) = .fab := 
  (by decide : ∀ x < 16, regGroup (0x900304 + 0x10 * x) = .fab) _ (Nat.mod_lt _ (by decide))
theorem A.FAB_PART_BASE_in {m n : Nat} (h : m.testBit 65 = true) : InGroup m (A.FAB_PART_BASE n) := ofGroup (A.FAB_PART_BASE_group _) h
@[simp] theorem A.FAB_PART_SIZE_group (n : Nat) : regGroup (A.FAB_PART_SIZE n) = .fab := 
  (by decide : ∀ x < 16, regGroup (0x900308 + 0x10 * x) = .fab) _ (Nat.mod_lt _ (by decide))
theorem A.FAB_PART_SIZE_in {m n : Nat} (h : m.testBit 65 = true) : InGroup m (A.FAB_PART_SIZE n) := ofGroup (A.FAB_PART_SIZE_group _) h
@[simp] theorem A.FAB_PART_MIN_group (n : Nat) : regGroup (A.FAB_PART_MIN n) = .fab := 
  (by decide : ∀ x < 16, regGroup (0x90030c + 0x10 * x) = .fab) _ (Nat.mod_lt _ (by decide))
theorem A.FAB_PART_MIN_in {m n : Nat} (h : m.testBit 65 = true) : InGroup m (A.FAB_PART_MIN n) := ofGroup (A.FAB_PART_MIN_group _) h
@[simp] theorem A.MEM_CH_STATE_group (n : Nat) : regGroup (A.MEM_CH_STATE n) = .memCtl := 
  (by decide : ∀ x < 16, regGroup (0x800000 + 0x10000 * x) = .memCtl) _ (Nat.mod_lt _ (by decide))
theorem A.MEM_CH_STATE_in {m n : Nat} (h : m.testBit 60 = true) : InGroup m (A.MEM_CH_STATE n) := ofGroup (A.MEM_CH_STATE_group _) h
@[simp] theorem A.MEM_PC_STATE_group (n k : Nat) : regGroup (A.MEM_PC_STATE n k) = .memCtl := 
  (by decide : ∀ x < 16, ∀ y < 2, regGroup (0x800100 + 0x10000 * x + 0x80 * y) = .memCtl) _ (Nat.mod_lt _ (by decide)) _ (Nat.mod_lt _ (by decide))
theorem A.MEM_PC_STATE_in {m n k : Nat} (h : m.testBit 60 = true) : InGroup m (A.MEM_PC_STATE n k) := ofGroup (A.MEM_PC_STATE_group _ _) h
@[simp] theorem A.MEM_ACTS_group (n k : Nat) : regGroup (A.MEM_ACTS n k) = .memCtl := 
  (by decide : ∀ x < 16, ∀ y < 2, regGroup (0x800110 + 0x10000 * x + 0x80 * y) = .memCtl) _ (Nat.mod_lt _ (by decide)) _ (Nat.mod_lt _ (by decide))
theorem A.MEM_ACTS_in {m n k : Nat} (h : m.testBit 60 = true) : InGroup m (A.MEM_ACTS n k) := ofGroup (A.MEM_ACTS_group _ _) h
@[simp] theorem A.MEM_HITS_group (n k : Nat) : regGroup (A.MEM_HITS n k) = .memCtl := 
  (by decide : ∀ x < 16, ∀ y < 2, regGroup (0x800114 + 0x10000 * x + 0x80 * y) = .memCtl) _ (Nat.mod_lt _ (by decide)) _ (Nat.mod_lt _ (by decide))
theorem A.MEM_HITS_in {m n k : Nat} (h : m.testBit 60 = true) : InGroup m (A.MEM_HITS n k) := ofGroup (A.MEM_HITS_group _ _) h
@[simp] theorem A.MEM_CAPPED_group (n k : Nat) : regGroup (A.MEM_CAPPED n k) = .memCtl := 
  (by decide : ∀ x < 16, ∀ y < 2, regGroup (0x800118 + 0x10000 * x + 0x80 * y) = .memCtl) _ (Nat.mod_lt _ (by decide)) _ (Nat.mod_lt _ (by decide))
theorem A.MEM_CAPPED_in {m n k : Nat} (h : m.testBit 60 = true) : InGroup m (A.MEM_CAPPED n k) := ofGroup (A.MEM_CAPPED_group _ _) h
@[simp] theorem A.MEM_REF_LIMIT_group (n k : Nat) : regGroup (A.MEM_REF_LIMIT n k) = .memCtl := 
  (by decide : ∀ x < 16, ∀ y < 2, regGroup (0x80011c + 0x10000 * x + 0x80 * y) = .memCtl) _ (Nat.mod_lt _ (by decide)) _ (Nat.mod_lt _ (by decide))
theorem A.MEM_REF_LIMIT_in {m n k : Nat} (h : m.testBit 60 = true) : InGroup m (A.MEM_REF_LIMIT n k) := ofGroup (A.MEM_REF_LIMIT_group _ _) h
@[simp] theorem A.MEM_TALLY_TRIG_group (n k : Nat) : regGroup (A.MEM_TALLY_TRIG n k) = .memCtl := 
  (by decide : ∀ x < 16, ∀ y < 2, regGroup (0x800120 + 0x10000 * x + 0x80 * y) = .memCtl) _ (Nat.mod_lt _ (by decide)) _ (Nat.mod_lt _ (by decide))
theorem A.MEM_TALLY_TRIG_in {m n k : Nat} (h : m.testBit 60 = true) : InGroup m (A.MEM_TALLY_TRIG n k) := ofGroup (A.MEM_TALLY_TRIG_group _ _) h
@[simp] theorem A.MEM_NREF_ROWS_group (n k : Nat) : regGroup (A.MEM_NREF_ROWS n k) = .memCtl := 
  (by decide : ∀ x < 16, ∀ y < 2, regGroup (0x800124 + 0x10000 * x + 0x80 * y) = .memCtl) _ (Nat.mod_lt _ (by decide)) _ (Nat.mod_lt _ (by decide))
theorem A.MEM_NREF_ROWS_in {m n k : Nat} (h : m.testBit 60 = true) : InGroup m (A.MEM_NREF_ROWS n k) := ofGroup (A.MEM_NREF_ROWS_group _ _) h
@[simp] theorem A.MEM_QFULL_group (n k : Nat) : regGroup (A.MEM_QFULL n k) = .memCtl := 
  (by decide : ∀ x < 16, ∀ y < 2, regGroup (0x800128 + 0x10000 * x + 0x80 * y) = .memCtl) _ (Nat.mod_lt _ (by decide)) _ (Nat.mod_lt _ (by decide))
theorem A.MEM_QFULL_in {m n k : Nat} (h : m.testBit 60 = true) : InGroup m (A.MEM_QFULL n k) := ofGroup (A.MEM_QFULL_group _ _) h
@[simp] theorem A.MEM_LAME_MARKS_group (n k : Nat) : regGroup (A.MEM_LAME_MARKS n k) = .memCtl := 
  (by decide : ∀ x < 16, ∀ y < 2, regGroup (0x80012c + 0x10000 * x + 0x80 * y) = .memCtl) _ (Nat.mod_lt _ (by decide)) _ (Nat.mod_lt _ (by decide))
theorem A.MEM_LAME_MARKS_in {m n k : Nat} (h : m.testBit 60 = true) : InGroup m (A.MEM_LAME_MARKS n k) := ofGroup (A.MEM_LAME_MARKS_group _ _) h
@[simp] theorem A.MEM_INTEG_STATE_group (n k : Nat) : regGroup (A.MEM_INTEG_STATE n k) = .memInteg := 
  (by decide : ∀ x < 16, ∀ y < 2, regGroup (0x800400 + 0x10000 * x + 0x80 * y) = .memInteg) _ (Nat.mod_lt _ (by decide)) _ (Nat.mod_lt _ (by decide))
theorem A.MEM_INTEG_STATE_in {m n k : Nat} (h : m.testBit 61 = true) : InGroup m (A.MEM_INTEG_STATE n k) := ofGroup (A.MEM_INTEG_STATE_group _ _) h
@[simp] theorem A.MEM_GLEAN_LAP_group (n k : Nat) : regGroup (A.MEM_GLEAN_LAP n k) = .memInteg := 
  (by decide : ∀ x < 16, ∀ y < 2, regGroup (0x800404 + 0x10000 * x + 0x80 * y) = .memInteg) _ (Nat.mod_lt _ (by decide)) _ (Nat.mod_lt _ (by decide))
theorem A.MEM_GLEAN_LAP_in {m n k : Nat} (h : m.testBit 61 = true) : InGroup m (A.MEM_GLEAN_LAP n k) := ofGroup (A.MEM_GLEAN_LAP_group _ _) h
@[simp] theorem A.MEM_FLIP_CTRL_group (n k : Nat) : regGroup (A.MEM_FLIP_CTRL n k) = .memInteg := 
  (by decide : ∀ x < 16, ∀ y < 2, regGroup (0x800408 + 0x10000 * x + 0x80 * y) = .memInteg) _ (Nat.mod_lt _ (by decide)) _ (Nat.mod_lt _ (by decide))
theorem A.MEM_FLIP_CTRL_in {m n k : Nat} (h : m.testBit 61 = true) : InGroup m (A.MEM_FLIP_CTRL n k) := ofGroup (A.MEM_FLIP_CTRL_group _ _) h
@[simp] theorem A.MEM_FLIPMASK_group (n k j : Nat) : regGroup (A.MEM_FLIPMASK n k j) = .memInteg := 
  (by decide : ∀ x < 16, ∀ y < 2, ∀ z < 3, regGroup (0x80040c + 0x10000 * x + 0x80 * y + 0x4 * z) = .memInteg) _ (Nat.mod_lt _ (by decide)) _ (Nat.mod_lt _ (by decide)) _ (Nat.mod_lt _ (by decide))
theorem A.MEM_FLIPMASK_in {m n k j : Nat} (h : m.testBit 61 = true) : InGroup m (A.MEM_FLIPMASK n k j) := ofGroup (A.MEM_FLIPMASK_group _ _ _) h
@[simp] theorem A.MEM_FLIPMASK3_group (n k : Nat) : regGroup (A.MEM_FLIPMASK3 n k) = .memInteg := 
  (by decide : ∀ x < 16, ∀ y < 2, regGroup (0x800418 + 0x10000 * x + 0x80 * y) = .memInteg) _ (Nat.mod_lt _ (by decide)) _ (Nat.mod_lt _ (by decide))
theorem A.MEM_FLIPMASK3_in {m n k : Nat} (h : m.testBit 61 = true) : InGroup m (A.MEM_FLIPMASK3 n k) := ofGroup (A.MEM_FLIPMASK3_group _ _) h
@[simp] theorem A.MEM_FLIP_ADDR_group (n k : Nat) : regGroup (A.MEM_FLIP_ADDR n k) = .memInteg := 
  (by decide : ∀ x < 16, ∀ y < 2, regGroup (0x80041c + 0x10000 * x + 0x80 * y) = .memInteg) _ (Nat.mod_lt _ (by decide)) _ (Nat.mod_lt _ (by decide))
theorem A.MEM_FLIP_ADDR_in {m n k : Nat} (h : m.testBit 61 = true) : InGroup m (A.MEM_FLIP_ADDR n k) := ofGroup (A.MEM_FLIP_ADDR_group _ _) h
@[simp] theorem A.MEM_TSV_SPARE_group (n k : Nat) : regGroup (A.MEM_TSV_SPARE n k) = .memInteg := 
  (by decide : ∀ x < 16, ∀ y < 2, regGroup (0x800420 + 0x10000 * x + 0x80 * y) = .memInteg) _ (Nat.mod_lt _ (by decide)) _ (Nat.mod_lt _ (by decide))
theorem A.MEM_TSV_SPARE_in {m n k : Nat} (h : m.testBit 61 = true) : InGroup m (A.MEM_TSV_SPARE n k) := ofGroup (A.MEM_TSV_SPARE_group _ _) h
@[simp] theorem A.MEM_CE_group (n k : Nat) : regGroup (A.MEM_CE n k) = .memInteg := 
  (by decide : ∀ x < 16, ∀ y < 2, regGroup (0x800440 + 0x10000 * x + 0x80 * y) = .memInteg) _ (Nat.mod_lt _ (by decide)) _ (Nat.mod_lt _ (by decide))
theorem A.MEM_CE_in {m n k : Nat} (h : m.testBit 61 = true) : InGroup m (A.MEM_CE n k) := ofGroup (A.MEM_CE_group _ _) h
@[simp] theorem A.MEM_UE_SCRUB_group (n k : Nat) : regGroup (A.MEM_UE_SCRUB n k) = .memInteg := 
  (by decide : ∀ x < 16, ∀ y < 2, regGroup (0x800444 + 0x10000 * x + 0x80 * y) = .memInteg) _ (Nat.mod_lt _ (by decide)) _ (Nat.mod_lt _ (by decide))
theorem A.MEM_UE_SCRUB_in {m n k : Nat} (h : m.testBit 61 = true) : InGroup m (A.MEM_UE_SCRUB n k) := ofGroup (A.MEM_UE_SCRUB_group _ _) h
@[simp] theorem A.MEM_POISON_RD_group (n k : Nat) : regGroup (A.MEM_POISON_RD n k) = .memInteg := 
  (by decide : ∀ x < 16, ∀ y < 2, regGroup (0x800448 + 0x10000 * x + 0x80 * y) = .memInteg) _ (Nat.mod_lt _ (by decide)) _ (Nat.mod_lt _ (by decide))
theorem A.MEM_POISON_RD_in {m n k : Nat} (h : m.testBit 61 = true) : InGroup m (A.MEM_POISON_RD n k) := ofGroup (A.MEM_POISON_RD_group _ _) h
@[simp] theorem A.MEM_UNWRITTEN_RD_group (n k : Nat) : regGroup (A.MEM_UNWRITTEN_RD n k) = .memInteg := 
  (by decide : ∀ x < 16, ∀ y < 2, regGroup (0x80044c + 0x10000 * x + 0x80 * y) = .memInteg) _ (Nat.mod_lt _ (by decide)) _ (Nat.mod_lt _ (by decide))
theorem A.MEM_UNWRITTEN_RD_in {m n k : Nat} (h : m.testBit 61 = true) : InGroup m (A.MEM_UNWRITTEN_RD n k) := ofGroup (A.MEM_UNWRITTEN_RD_group _ _) h
@[simp] theorem A.MEM_FENCED_REQ_group (n k : Nat) : regGroup (A.MEM_FENCED_REQ n k) = .memInteg := 
  (by decide : ∀ x < 16, ∀ y < 2, regGroup (0x800450 + 0x10000 * x + 0x80 * y) = .memInteg) _ (Nat.mod_lt _ (by decide)) _ (Nat.mod_lt _ (by decide))
theorem A.MEM_FENCED_REQ_in {m n k : Nat} (h : m.testBit 61 = true) : InGroup m (A.MEM_FENCED_REQ n k) := ofGroup (A.MEM_FENCED_REQ_group _ _) h
@[simp] theorem A.MEM_UE_LOG_group (n k j : Nat) : regGroup (A.MEM_UE_LOG n k j) = .memInteg := 
  (by decide : ∀ x < 16, ∀ y < 2, ∀ z < 8, regGroup (0x800460 + 0x10000 * x + 0x80 * y + 0x4 * z) = .memInteg) _ (Nat.mod_lt _ (by decide)) _ (Nat.mod_lt _ (by decide)) _ (Nat.mod_lt _ (by decide))
theorem A.MEM_UE_LOG_in {m n k j : Nat} (h : m.testBit 61 = true) : InGroup m (A.MEM_UE_LOG n k j) := ofGroup (A.MEM_UE_LOG_group _ _ _) h
@[simp] theorem A.MEM_TRAIN_STATE_group (n k : Nat) : regGroup (A.MEM_TRAIN_STATE n k) = .memTrain := 
  (by decide : ∀ x < 16, ∀ y < 2, regGroup (0x802000 + 0x10000 * x + 0x100 * y) = .memTrain) _ (Nat.mod_lt _ (by decide)) _ (Nat.mod_lt _ (by decide))
theorem A.MEM_TRAIN_STATE_in {m n k : Nat} (h : m.testBit 63 = true) : InGroup m (A.MEM_TRAIN_STATE n k) := ofGroup (A.MEM_TRAIN_STATE_group _ _) h
@[simp] theorem A.MEM_TRAIN_DLY_group (n k j : Nat) : regGroup (A.MEM_TRAIN_DLY n k j) = .memTrain := by
  unfold A.MEM_TRAIN_DLY regGroup
  rw [if_neg (by omega), if_neg (by omega), if_neg (by omega), if_pos (by omega), if_neg (by omega), if_neg (by omega), if_neg (by omega), if_pos (by omega)]
theorem A.MEM_TRAIN_DLY_in {m n k j : Nat} (h : m.testBit 63 = true) : InGroup m (A.MEM_TRAIN_DLY n k j) := ofGroup (A.MEM_TRAIN_DLY_group _ _ _) h
@[simp] theorem A.FAB_PAD_DOWN_group : regGroup (A.FAB_PAD_DOWN) = .fab := rfl
theorem A.FAB_PAD_DOWN_in {m : Nat} (h : m.testBit 65 = true) : InGroup m (A.FAB_PAD_DOWN) := ofGroup (A.FAB_PAD_DOWN_group) h
@[simp] theorem A.FAB_INTEG_CFG_group : regGroup (A.FAB_INTEG_CFG) = .fab := rfl
theorem A.FAB_INTEG_CFG_in {m : Nat} (h : m.testBit 65 = true) : InGroup m (A.FAB_INTEG_CFG) := ofGroup (A.FAB_INTEG_CFG_group) h
@[simp] theorem A.HL_CFG_group (n : Nat) : regGroup (A.HL_CFG n) = .lane := 
  (by decide : ∀ x < 16, regGroup (0xa00000 + 0x1000 * x) = .lane) _ (Nat.mod_lt _ (by decide))
theorem A.HL_CFG_in {m n : Nat} (h : m.testBit 66 = true) : InGroup m (A.HL_CFG n) := ofGroup (A.HL_CFG_group _) h
@[simp] theorem A.HL_EQ_group (n : Nat) : regGroup (A.HL_EQ n) = .lane := 
  (by decide : ∀ x < 16, regGroup (0xa00004 + 0x1000 * x) = .lane) _ (Nat.mod_lt _ (by decide))
theorem A.HL_EQ_in {m n : Nat} (h : m.testBit 66 = true) : InGroup m (A.HL_EQ n) := ofGroup (A.HL_EQ_group _) h
@[simp] theorem A.HL_STATUS_group (n : Nat) : regGroup (A.HL_STATUS n) = .lane := 
  (by decide : ∀ x < 16, regGroup (0xa00008 + 0x1000 * x) = .lane) _ (Nat.mod_lt _ (by decide))
theorem A.HL_STATUS_in {m n : Nat} (h : m.testBit 66 = true) : InGroup m (A.HL_STATUS n) := ofGroup (A.HL_STATUS_group _) h
@[simp] theorem A.HL_LOSS_EVENTS_group (n : Nat) : regGroup (A.HL_LOSS_EVENTS n) = .lane := 
  (by decide : ∀ x < 16, regGroup (0xa00040 + 0x1000 * x) = .lane) _ (Nat.mod_lt _ (by decide))
theorem A.HL_LOSS_EVENTS_in {m n : Nat} (h : m.testBit 66 = true) : InGroup m (A.HL_LOSS_EVENTS n) := ofGroup (A.HL_LOSS_EVENTS_group _) h
@[simp] theorem A.HL_RX_ABORT_group (n : Nat) : regGroup (A.HL_RX_ABORT n) = .lane := 
  (by decide : ∀ x < 16, regGroup (0xa00044 + 0x1000 * x) = .lane) _ (Nat.mod_lt _ (by decide))
theorem A.HL_RX_ABORT_in {m n : Nat} (h : m.testBit 66 = true) : InGroup m (A.HL_RX_ABORT n) := ofGroup (A.HL_RX_ABORT_group _) h
@[simp] theorem A.HL_RX_RESUME_DISC_group (n : Nat) : regGroup (A.HL_RX_RESUME_DISC n) = .lane := 
  (by decide : ∀ x < 16, regGroup (0xa00048 + 0x1000 * x) = .lane) _ (Nat.mod_lt _ (by decide))
theorem A.HL_RX_RESUME_DISC_in {m n : Nat} (h : m.testBit 66 = true) : InGroup m (A.HL_RX_RESUME_DISC n) := ofGroup (A.HL_RX_RESUME_DISC_group _) h
@[simp] theorem A.HL_BAD_BLOCK_group (n : Nat) : regGroup (A.HL_BAD_BLOCK n) = .lane := 
  (by decide : ∀ x < 16, regGroup (0xa0004c + 0x1000 * x) = .lane) _ (Nat.mod_lt _ (by decide))
theorem A.HL_BAD_BLOCK_in {m n : Nat} (h : m.testBit 66 = true) : InGroup m (A.HL_BAD_BLOCK n) := ofGroup (A.HL_BAD_BLOCK_group _) h
@[simp] theorem A.HL_LONG_group (n : Nat) : regGroup (A.HL_LONG n) = .lane := 
  (by decide : ∀ x < 16, regGroup (0xa00050 + 0x1000 * x) = .lane) _ (Nat.mod_lt _ (by decide))
theorem A.HL_LONG_in {m n : Nat} (h : m.testBit 66 = true) : InGroup m (A.HL_LONG n) := ofGroup (A.HL_LONG_group _) h
@[simp] theorem A.HL_IDLE_DEL_group (n : Nat) : regGroup (A.HL_IDLE_DEL n) = .lane := 
  (by decide : ∀ x < 16, regGroup (0xa00054 + 0x1000 * x) = .lane) _ (Nat.mod_lt _ (by decide))
theorem A.HL_IDLE_DEL_in {m n : Nat} (h : m.testBit 66 = true) : InGroup m (A.HL_IDLE_DEL n) := ofGroup (A.HL_IDLE_DEL_group _) h
@[simp] theorem A.HL_IDLE_INS_group (n : Nat) : regGroup (A.HL_IDLE_INS n) = .lane := 
  (by decide : ∀ x < 16, regGroup (0xa00058 + 0x1000 * x) = .lane) _ (Nat.mod_lt _ (by decide))
theorem A.HL_IDLE_INS_in {m n : Nat} (h : m.testBit 66 = true) : InGroup m (A.HL_IDLE_INS n) := ofGroup (A.HL_IDLE_INS_group _) h
@[simp] theorem A.HL_FEC_CORR_group (n : Nat) : regGroup (A.HL_FEC_CORR n) = .lane := 
  (by decide : ∀ x < 16, regGroup (0xa0005c + 0x1000 * x) = .lane) _ (Nat.mod_lt _ (by decide))
theorem A.HL_FEC_CORR_in {m n : Nat} (h : m.testBit 66 = true) : InGroup m (A.HL_FEC_CORR n) := ofGroup (A.HL_FEC_CORR_group _) h
@[simp] theorem A.HL_FEC_UNCORR_group (n : Nat) : regGroup (A.HL_FEC_UNCORR n) = .lane := 
  (by decide : ∀ x < 16, regGroup (0xa00060 + 0x1000 * x) = .lane) _ (Nat.mod_lt _ (by decide))
theorem A.HL_FEC_UNCORR_in {m n : Nat} (h : m.testBit 66 = true) : InGroup m (A.HL_FEC_UNCORR n) := ofGroup (A.HL_FEC_UNCORR_group _) h
@[simp] theorem A.HL_TX_ERRORED_group (n : Nat) : regGroup (A.HL_TX_ERRORED n) = .lane := 
  (by decide : ∀ x < 16, regGroup (0xa00064 + 0x1000 * x) = .lane) _ (Nat.mod_lt _ (by decide))
theorem A.HL_TX_ERRORED_in {m n : Nat} (h : m.testBit 66 = true) : InGroup m (A.HL_TX_ERRORED n) := ofGroup (A.HL_TX_ERRORED_group _) h
@[simp] theorem A.HL_MACCTL_RX_group (n : Nat) : regGroup (A.HL_MACCTL_RX n) = .lane := 
  (by decide : ∀ x < 16, regGroup (0xa00068 + 0x1000 * x) = .lane) _ (Nat.mod_lt _ (by decide))
theorem A.HL_MACCTL_RX_in {m n : Nat} (h : m.testBit 66 = true) : InGroup m (A.HL_MACCTL_RX n) := ofGroup (A.HL_MACCTL_RX_group _) h
@[simp] theorem A.DEV_BAR2_WIN_group : regGroup (A.DEV_BAR2_WIN) = .dev := rfl
theorem A.DEV_BAR2_WIN_in {m : Nat} (h : m.testBit 48 = true) : InGroup m (A.DEV_BAR2_WIN) := ofGroup (A.DEV_BAR2_WIN_group) h
@[simp] theorem A.DEV_BAR2_WIN_group4 : regGroup (A.DEV_BAR2_WIN + 4) = .dev := rfl
theorem A.DEV_BAR2_WIN_in4 {m : Nat} (h : m.testBit 48 = true) : InGroup m (A.DEV_BAR2_WIN + 4) := ofGroup (A.DEV_BAR2_WIN_group4) h
@[simp] theorem A.DEV_MDIO_DENIED_group : regGroup (A.DEV_MDIO_DENIED) = .dev := rfl
theorem A.DEV_MDIO_DENIED_in {m : Nat} (h : m.testBit 48 = true) : InGroup m (A.DEV_MDIO_DENIED) := ofGroup (A.DEV_MDIO_DENIED_group) h
@[simp] theorem A.CMD_PARAM_group (n : Nat) : regGroup (A.CMD_PARAM n) = .cmd := 
  (by decide : ∀ x < 8, regGroup (0x200000 + 0x4 * x) = .cmd) _ (Nat.mod_lt _ (by decide))
theorem A.CMD_PARAM_in {m n : Nat} (h : m.testBit 52 = true) : InGroup m (A.CMD_PARAM n) := ofGroup (A.CMD_PARAM_group _) h
@[simp] theorem A.CMD_SUBMIT_group : regGroup (A.CMD_SUBMIT) = .cmd := rfl
theorem A.CMD_SUBMIT_in {m : Nat} (h : m.testBit 52 = true) : InGroup m (A.CMD_SUBMIT) := ofGroup (A.CMD_SUBMIT_group) h
@[simp] theorem A.CMD_ACCEPT_group : regGroup (A.CMD_ACCEPT) = .cmd := rfl
theorem A.CMD_ACCEPT_in {m : Nat} (h : m.testBit 52 = true) : InGroup m (A.CMD_ACCEPT) := ofGroup (A.CMD_ACCEPT_group) h
@[simp] theorem A.CMD_CQ_PROD_group : regGroup (A.CMD_CQ_PROD) = .cmd := rfl
theorem A.CMD_CQ_PROD_in {m : Nat} (h : m.testBit 52 = true) : InGroup m (A.CMD_CQ_PROD) := ofGroup (A.CMD_CQ_PROD_group) h
@[simp] theorem A.CMD_CQ_CONS_group : regGroup (A.CMD_CQ_CONS) = .cmd := rfl
theorem A.CMD_CQ_CONS_in {m : Nat} (h : m.testBit 52 = true) : InGroup m (A.CMD_CQ_CONS) := ofGroup (A.CMD_CQ_CONS_group) h
@[simp] theorem A.CMD_SLOT_STATE_group (n : Nat) : regGroup (A.CMD_SLOT_STATE n) = .cmd := 
  (by decide : ∀ x < 64, regGroup (0x200800 + 0x4 * x) = .cmd) _ (Nat.mod_lt _ (by decide))
theorem A.CMD_SLOT_STATE_in {m n : Nat} (h : m.testBit 52 = true) : InGroup m (A.CMD_SLOT_STATE n) := ofGroup (A.CMD_SLOT_STATE_group _) h
@[simp] theorem A.CMD_CQ_group (n k : Nat) : regGroup (A.CMD_CQ n k) = .cmd := by
  unfold A.CMD_CQ regGroup
  rw [if_pos (by omega), if_neg (by omega), if_neg (by omega), if_neg (by omega), if_neg (by omega)]
theorem A.CMD_CQ_in {m n k : Nat} (h : m.testBit 52 = true) : InGroup m (A.CMD_CQ n k) := ofGroup (A.CMD_CQ_group _ _) h
@[simp] theorem A.DEV_FW_VER_group : regGroup (A.DEV_FW_VER) = .dev := rfl
theorem A.DEV_FW_VER_in {m : Nat} (h : m.testBit 48 = true) : InGroup m (A.DEV_FW_VER) := ofGroup (A.DEV_FW_VER_group) h
@[simp] theorem A.DEV_FW_STATUS_group : regGroup (A.DEV_FW_STATUS) = .dev := rfl
theorem A.DEV_FW_STATUS_in {m : Nat} (h : m.testBit 48 = true) : InGroup m (A.DEV_FW_STATUS) := ofGroup (A.DEV_FW_STATUS_group) h
@[simp] theorem A.DEV_FW_FLOOR_group : regGroup (A.DEV_FW_FLOOR) = .dev := rfl
theorem A.DEV_FW_FLOOR_in {m : Nat} (h : m.testBit 48 = true) : InGroup m (A.DEV_FW_FLOOR) := ofGroup (A.DEV_FW_FLOOR_group) h
@[simp] theorem A.PWR_MODE_group : regGroup (A.PWR_MODE) = .pwr := rfl
theorem A.PWR_MODE_in {m : Nat} (h : m.testBit 68 = true) : InGroup m (A.PWR_MODE) := ofGroup (A.PWR_MODE_group) h
@[simp] theorem A.PWR_LAST_group : regGroup (A.PWR_LAST) = .pwr := rfl
theorem A.PWR_LAST_in {m : Nat} (h : m.testBit 68 = true) : InGroup m (A.PWR_LAST) := ofGroup (A.PWR_LAST_group) h
@[simp] theorem A.PWR_WAKE_EN_group : regGroup (A.PWR_WAKE_EN) = .pwr := rfl
theorem A.PWR_WAKE_EN_in {m : Nat} (h : m.testBit 68 = true) : InGroup m (A.PWR_WAKE_EN) := ofGroup (A.PWR_WAKE_EN_group) h
@[simp] theorem A.PWR_TIMER_group : regGroup (A.PWR_TIMER) = .pwr := rfl
theorem A.PWR_TIMER_in {m : Nat} (h : m.testBit 68 = true) : InGroup m (A.PWR_TIMER) := ofGroup (A.PWR_TIMER_group) h
@[simp] theorem A.PWR_REFUSE_CNT_group (n : Nat) : regGroup (A.PWR_REFUSE_CNT n) = .pwr := 
  (by decide : ∀ x < 16, regGroup (0xb01040 + 0x4 * x) = .pwr) _ (Nat.mod_lt _ (by decide))
theorem A.PWR_REFUSE_CNT_in {m n : Nat} (h : m.testBit 68 = true) : InGroup m (A.PWR_REFUSE_CNT n) := ofGroup (A.PWR_REFUSE_CNT_group _) h
@[simp] theorem A.PWR_WAKES_group : regGroup (A.PWR_WAKES) = .pwr := rfl
theorem A.PWR_WAKES_in {m : Nat} (h : m.testBit 68 = true) : InGroup m (A.PWR_WAKES) := ofGroup (A.PWR_WAKES_group) h
@[simp] theorem A.PWR_WAKE_HIST_group (n : Nat) : regGroup (A.PWR_WAKE_HIST n) = .pwr := 
  (by decide : ∀ x < 16, regGroup (0xb01100 + 0x8 * x) = .pwr) _ (Nat.mod_lt _ (by decide))
theorem A.PWR_WAKE_HIST_in {m n : Nat} (h : m.testBit 68 = true) : InGroup m (A.PWR_WAKE_HIST n) := ofGroup (A.PWR_WAKE_HIST_group _) h
@[simp] theorem A.PWR_WAKE_HIST_W1_group (n : Nat) : regGroup (A.PWR_WAKE_HIST_W1 n) = .pwr := 
  (by decide : ∀ x < 16, regGroup (0xb01104 + 0x8 * x) = .pwr) _ (Nat.mod_lt _ (by decide))
theorem A.PWR_WAKE_HIST_W1_in {m n : Nat} (h : m.testBit 68 = true) : InGroup m (A.PWR_WAKE_HIST_W1 n) := ofGroup (A.PWR_WAKE_HIST_W1_group _) h
@[simp] theorem A.DRV_BUDGET_group : regGroup (A.DRV_BUDGET) = .drv := rfl
theorem A.DRV_BUDGET_in {m : Nat} (h : m.testBit 69 = true) : InGroup m (A.DRV_BUDGET) := ofGroup (A.DRV_BUDGET_group) h
@[simp] theorem A.DRV_EFFECTIVE_group : regGroup (A.DRV_EFFECTIVE) = .drv := rfl
theorem A.DRV_EFFECTIVE_in {m : Nat} (h : m.testBit 69 = true) : InGroup m (A.DRV_EFFECTIVE) := ofGroup (A.DRV_EFFECTIVE_group) h
@[simp] theorem A.DRV_SUM_group : regGroup (A.DRV_SUM) = .drv := rfl
theorem A.DRV_SUM_in {m : Nat} (h : m.testBit 69 = true) : InGroup m (A.DRV_SUM) := ofGroup (A.DRV_SUM_group) h
@[simp] theorem A.DRV_STATE_group : regGroup (A.DRV_STATE) = .drv := rfl
theorem A.DRV_STATE_in {m : Nat} (h : m.testBit 69 = true) : InGroup m (A.DRV_STATE) := ofGroup (A.DRV_STATE_group) h
@[simp] theorem A.DRV_PORT_group (n : Nat) : regGroup (A.DRV_PORT n) = .drv := 
  (by decide : ∀ x < 16, regGroup (0xb02040 + 0x4 * x) = .drv) _ (Nat.mod_lt _ (by decide))
theorem A.DRV_PORT_in {m n : Nat} (h : m.testBit 69 = true) : InGroup m (A.DRV_PORT n) := ofGroup (A.DRV_PORT_group _) h
@[simp] theorem A.DRV_PL_CHANGES_group : regGroup (A.DRV_PL_CHANGES) = .drv := rfl
theorem A.DRV_PL_CHANGES_in {m : Nat} (h : m.testBit 69 = true) : InGroup m (A.DRV_PL_CHANGES) := ofGroup (A.DRV_PL_CHANGES_group) h
@[simp] theorem A.DRV_CAPS_group : regGroup (A.DRV_CAPS) = .drv := rfl
theorem A.DRV_CAPS_in {m : Nat} (h : m.testBit 69 = true) : InGroup m (A.DRV_CAPS) := ofGroup (A.DRV_CAPS_group) h
@[simp] theorem A.THM_BASE_group (n : Nat) : regGroup (A.THM_BASE n) = .thm := 
  (by decide : ∀ x < 24, regGroup (0xb02800 + 0x4 * x) = .thm) _ (Nat.mod_lt _ (by decide))
theorem A.THM_BASE_in {m n : Nat} (h : m.testBit 70 = true) : InGroup m (A.THM_BASE n) := ofGroup (A.THM_BASE_group _) h
@[simp] theorem A.THM_CORE_group (n : Nat) : regGroup (A.THM_CORE n) = .thm := 
  (by decide : ∀ x < 16, regGroup (0xb02880 + 0x4 * x) = .thm) _ (Nat.mod_lt _ (by decide))
theorem A.THM_CORE_in {m n : Nat} (h : m.testBit 70 = true) : InGroup m (A.THM_CORE n) := ofGroup (A.THM_CORE_group _) h
@[simp] theorem A.THM_TRIPS_group : regGroup (A.THM_TRIPS) = .thm := rfl
theorem A.THM_TRIPS_in {m : Nat} (h : m.testBit 70 = true) : InGroup m (A.THM_TRIPS) := ofGroup (A.THM_TRIPS_group) h
@[simp] theorem A.CLK_STATUS_group : regGroup (A.CLK_STATUS) = .clk := rfl
theorem A.CLK_STATUS_in {m : Nat} (h : m.testBit 67 = true) : InGroup m (A.CLK_STATUS) := ofGroup (A.CLK_STATUS_group) h
@[simp] theorem A.CLK_LREF_TRIPS_group : regGroup (A.CLK_LREF_TRIPS) = .clk := rfl
theorem A.CLK_LREF_TRIPS_in {m : Nat} (h : m.testBit 67 = true) : InGroup m (A.CLK_LREF_TRIPS) := ofGroup (A.CLK_LREF_TRIPS_group) h
@[simp] theorem A.CLK_HREF_TRIPS_group : regGroup (A.CLK_HREF_TRIPS) = .clk := rfl
theorem A.CLK_HREF_TRIPS_in {m : Nat} (h : m.testBit 67 = true) : InGroup m (A.CLK_HREF_TRIPS) := ofGroup (A.CLK_HREF_TRIPS_group) h
@[simp] theorem A.CLK_HOLD_TIME_group : regGroup (A.CLK_HOLD_TIME) = .clk := rfl
theorem A.CLK_HOLD_TIME_in {m : Nat} (h : m.testBit 67 = true) : InGroup m (A.CLK_HOLD_TIME) := ofGroup (A.CLK_HOLD_TIME_group) h
@[simp] theorem A.CLK_GATE_REFUSE_group : regGroup (A.CLK_GATE_REFUSE) = .clk := rfl
theorem A.CLK_GATE_REFUSE_in {m : Nat} (h : m.testBit 67 = true) : InGroup m (A.CLK_GATE_REFUSE) := ofGroup (A.CLK_GATE_REFUSE_group) h
@[simp] theorem A.DEV_RESET_CAUSE_group : regGroup (A.DEV_RESET_CAUSE) = .dev := rfl
theorem A.DEV_RESET_CAUSE_in {m : Nat} (h : m.testBit 48 = true) : InGroup m (A.DEV_RESET_CAUSE) := ofGroup (A.DEV_RESET_CAUSE_group) h
@[simp] theorem A.DEV_RESET_CTRL_group : regGroup (A.DEV_RESET_CTRL) = .dev := rfl
theorem A.DEV_RESET_CTRL_in {m : Nat} (h : m.testBit 48 = true) : InGroup m (A.DEV_RESET_CTRL) := ofGroup (A.DEV_RESET_CTRL_group) h
@[simp] theorem A.DEV_TIME_group : regGroup (A.DEV_TIME) = .dev := rfl
theorem A.DEV_TIME_in {m : Nat} (h : m.testBit 48 = true) : InGroup m (A.DEV_TIME) := ofGroup (A.DEV_TIME_group) h
@[simp] theorem A.TST_BIST_RESULT_group : regGroup (A.TST_BIST_RESULT) = .tst := rfl
theorem A.TST_BIST_RESULT_in {m : Nat} (h : m.testBit 77 = true) : InGroup m (A.TST_BIST_RESULT) := ofGroup (A.TST_BIST_RESULT_group) h
@[simp] theorem A.TST_ROT_CFG_group : regGroup (A.TST_ROT_CFG) = .tst := rfl
theorem A.TST_ROT_CFG_in {m : Nat} (h : m.testBit 77 = true) : InGroup m (A.TST_ROT_CFG) := ofGroup (A.TST_ROT_CFG_group) h
@[simp] theorem A.TST_ROT_STATE_group : regGroup (A.TST_ROT_STATE) = .tst := rfl
theorem A.TST_ROT_STATE_in {m : Nat} (h : m.testBit 77 = true) : InGroup m (A.TST_ROT_STATE) := ofGroup (A.TST_ROT_STATE_group) h
@[simp] theorem A.TST_SLICE_STATE_group (n : Nat) : regGroup (A.TST_SLICE_STATE n) = .tst := 
  (by decide : ∀ x < 68, regGroup (0xf00100 + 0x4 * x) = .tst) _ (Nat.mod_lt _ (by decide))
theorem A.TST_SLICE_STATE_in {m n : Nat} (h : m.testBit 77 = true) : InGroup m (A.TST_SLICE_STATE n) := ofGroup (A.TST_SLICE_STATE_group _) h
@[simp] theorem A.TST_BLOCK_STATE_group (n : Nat) : regGroup (A.TST_BLOCK_STATE n) = .tst := 
  (by decide : ∀ x < 96, regGroup (0xf00300 + 0x4 * x) = .tst) _ (Nat.mod_lt _ (by decide))
theorem A.TST_BLOCK_STATE_in {m n : Nat} (h : m.testBit 77 = true) : InGroup m (A.TST_BLOCK_STATE n) := ofGroup (A.TST_BLOCK_STATE_group _) h
@[simp] theorem A.SLICE_MAP_group (n : Nat) : regGroup (A.SLICE_MAP n) = .slices := 
  (by decide : ∀ x < 16, regGroup (0x600000 + 0x8 * x) = .slices) _ (Nat.mod_lt _ (by decide))
theorem A.SLICE_MAP_in {m n : Nat} (h : m.testBit 59 = true) : InGroup m (A.SLICE_MAP n) := ofGroup (A.SLICE_MAP_group _) h
@[simp] theorem A.SLICE_MAP_W1_group (n : Nat) : regGroup (A.SLICE_MAP_W1 n) = .slices := 
  (by decide : ∀ x < 16, regGroup (0x600004 + 0x8 * x) = .slices) _ (Nat.mod_lt _ (by decide))
theorem A.SLICE_MAP_W1_in {m n : Nat} (h : m.testBit 59 = true) : InGroup m (A.SLICE_MAP_W1 n) := ofGroup (A.SLICE_MAP_W1_group _) h
@[simp] theorem A.TST_MAN_CTRL_group : regGroup (A.TST_MAN_CTRL) = .tst := rfl
theorem A.TST_MAN_CTRL_in {m : Nat} (h : m.testBit 77 = true) : InGroup m (A.TST_MAN_CTRL) := ofGroup (A.TST_MAN_CTRL_group) h
@[simp] theorem A.TST_MAN_SIG_group : regGroup (A.TST_MAN_SIG) = .tst := rfl
theorem A.TST_MAN_SIG_in {m : Nat} (h : m.testBit 77 = true) : InGroup m (A.TST_MAN_SIG) := ofGroup (A.TST_MAN_SIG_group) h
@[simp] theorem A.TST_PASSES_group : regGroup (A.TST_PASSES) = .tst := rfl
theorem A.TST_PASSES_in {m : Nat} (h : m.testBit 77 = true) : InGroup m (A.TST_PASSES) := ofGroup (A.TST_PASSES_group) h
@[simp] theorem A.TST_ABORTS_group : regGroup (A.TST_ABORTS) = .tst := rfl
theorem A.TST_ABORTS_in {m : Nat} (h : m.testBit 77 = true) : InGroup m (A.TST_ABORTS) := ofGroup (A.TST_ABORTS_group) h
@[simp] theorem A.TST_FAULTS_group : regGroup (A.TST_FAULTS) = .tst := rfl
theorem A.TST_FAULTS_in {m : Nat} (h : m.testBit 77 = true) : InGroup m (A.TST_FAULTS) := ofGroup (A.TST_FAULTS_group) h
@[simp] theorem A.TST_HANDOVERS_group : regGroup (A.TST_HANDOVERS) = .tst := rfl
theorem A.TST_HANDOVERS_in {m : Nat} (h : m.testBit 77 = true) : InGroup m (A.TST_HANDOVERS) := ofGroup (A.TST_HANDOVERS_group) h
@[simp] theorem A.TST_OVERDUE_group : regGroup (A.TST_OVERDUE) = .tst := rfl
theorem A.TST_OVERDUE_in {m : Nat} (h : m.testBit 77 = true) : InGroup m (A.TST_OVERDUE) := ofGroup (A.TST_OVERDUE_group) h
@[simp] theorem A.SEC_STATE_group : regGroup (A.SEC_STATE) = .sec := rfl
theorem A.SEC_STATE_in {m : Nat} (h : m.testBit 76 = true) : InGroup m (A.SEC_STATE) := ofGroup (A.SEC_STATE_group) h
@[simp] theorem A.SEC_SESSION_group : regGroup (A.SEC_SESSION) = .sec := rfl
theorem A.SEC_SESSION_in {m : Nat} (h : m.testBit 76 = true) : InGroup m (A.SEC_SESSION) := ofGroup (A.SEC_SESSION_group) h
@[simp] theorem A.SEC_SESS_CTRL_group : regGroup (A.SEC_SESS_CTRL) = .sec := rfl
theorem A.SEC_SESS_CTRL_in {m : Nat} (h : m.testBit 76 = true) : InGroup m (A.SEC_SESS_CTRL) := ofGroup (A.SEC_SESS_CTRL_group) h
@[simp] theorem A.SEC_CHALLENGE_group (n : Nat) : regGroup (A.SEC_CHALLENGE n) = .sec := 
  (by decide : ∀ x < 8, regGroup (0xe00010 + 0x4 * x) = .sec) _ (Nat.mod_lt _ (by decide))
theorem A.SEC_CHALLENGE_in {m n : Nat} (h : m.testBit 76 = true) : InGroup m (A.SEC_CHALLENGE n) := ofGroup (A.SEC_CHALLENGE_group _) h
@[simp] theorem A.SEC_RESP_group (n : Nat) : regGroup (A.SEC_RESP n) = .sec := 
  (by decide : ∀ x < 16, regGroup (0xe00040 + 0x4 * x) = .sec) _ (Nat.mod_lt _ (by decide))
theorem A.SEC_RESP_in {m n : Nat} (h : m.testBit 76 = true) : InGroup m (A.SEC_RESP n) := ofGroup (A.SEC_RESP_group _) h
@[simp] theorem A.SEC_KEY_CTRL_group : regGroup (A.SEC_KEY_CTRL) = .sec := rfl
theorem A.SEC_KEY_CTRL_in {m : Nat} (h : m.testBit 76 = true) : InGroup m (A.SEC_KEY_CTRL) := ofGroup (A.SEC_KEY_CTRL_group) h
@[simp] theorem A.SEC_KEYS_group : regGroup (A.SEC_KEYS) = .sec := rfl
theorem A.SEC_KEYS_in {m : Nat} (h : m.testBit 76 = true) : InGroup m (A.SEC_KEYS) := ofGroup (A.SEC_KEYS_group) h
@[simp] theorem A.SEC_KEY_STAGE_group (n : Nat) : regGroup (A.SEC_KEY_STAGE n) = .sec := 
  (by decide : ∀ x < 16, regGroup (0xe000c0 + 0x4 * x) = .sec) _ (Nat.mod_lt _ (by decide))
theorem A.SEC_KEY_STAGE_in {m n : Nat} (h : m.testBit 76 = true) : InGroup m (A.SEC_KEY_STAGE n) := ofGroup (A.SEC_KEY_STAGE_group _) h
@[simp] theorem A.SEC_ID_SERIAL_group : regGroup (A.SEC_ID_SERIAL) = .sec := rfl
theorem A.SEC_ID_SERIAL_in {m : Nat} (h : m.testBit 76 = true) : InGroup m (A.SEC_ID_SERIAL) := ofGroup (A.SEC_ID_SERIAL_group) h
@[simp] theorem A.SEC_ID_CTRL_group : regGroup (A.SEC_ID_CTRL) = .sec := rfl
theorem A.SEC_ID_CTRL_in {m : Nat} (h : m.testBit 76 = true) : InGroup m (A.SEC_ID_CTRL) := ofGroup (A.SEC_ID_CTRL_group) h
@[simp] theorem A.SEC_ID_NONCE_group (n : Nat) : regGroup (A.SEC_ID_NONCE n) = .sec := 
  (by decide : ∀ x < 8, regGroup (0xe00140 + 0x4 * x) = .sec) _ (Nat.mod_lt _ (by decide))
theorem A.SEC_ID_NONCE_in {m n : Nat} (h : m.testBit 76 = true) : InGroup m (A.SEC_ID_NONCE n) := ofGroup (A.SEC_ID_NONCE_group _) h
@[simp] theorem A.SEC_ID_SIG_group (n : Nat) : regGroup (A.SEC_ID_SIG n) = .sec := 
  (by decide : ∀ x < 16, regGroup (0xe00180 + 0x4 * x) = .sec) _ (Nat.mod_lt _ (by decide))
theorem A.SEC_ID_SIG_in {m n : Nat} (h : m.testBit 76 = true) : InGroup m (A.SEC_ID_SIG n) := ofGroup (A.SEC_ID_SIG_group _) h
@[simp] theorem A.SEC_ID_PUB_group (n : Nat) : regGroup (A.SEC_ID_PUB n) = .sec := 
  (by decide : ∀ x < 16, regGroup (0xe001c0 + 0x4 * x) = .sec) _ (Nat.mod_lt _ (by decide))
theorem A.SEC_ID_PUB_in {m n : Nat} (h : m.testBit 76 = true) : InGroup m (A.SEC_ID_PUB n) := ofGroup (A.SEC_ID_PUB_group _) h
@[simp] theorem A.SEC_ID_CERT_group (n : Nat) : regGroup (A.SEC_ID_CERT n) = .sec := 
  (by decide : ∀ x < 128, regGroup (0xe00400 + 0x4 * x) = .sec) _ (Nat.mod_lt _ (by decide))
theorem A.SEC_ID_CERT_in {m n : Nat} (h : m.testBit 76 = true) : InGroup m (A.SEC_ID_CERT n) := ofGroup (A.SEC_ID_CERT_group _) h
@[simp] theorem A.SEC_AUDIT_HEAD_group : regGroup (A.SEC_AUDIT_HEAD) = .sec := rfl
theorem A.SEC_AUDIT_HEAD_in {m : Nat} (h : m.testBit 76 = true) : InGroup m (A.SEC_AUDIT_HEAD) := ofGroup (A.SEC_AUDIT_HEAD_group) h
@[simp] theorem A.SEC_AUDIT_group (n k : Nat) : regGroup (A.SEC_AUDIT n k) = .sec := by
  unfold A.SEC_AUDIT regGroup
  rw [if_neg (by omega), if_neg (by omega), if_neg (by omega), if_neg (by omega), if_neg (by omega), if_neg (by omega), if_neg (by omega), if_pos (by omega), if_pos (by omega)]
theorem A.SEC_AUDIT_in {m n k : Nat} (h : m.testBit 76 = true) : InGroup m (A.SEC_AUDIT n k) := ofGroup (A.SEC_AUDIT_group _ _) h
@[simp] theorem A.CEN_CFG_group : regGroup (A.CEN_CFG) = .cen := rfl
theorem A.CEN_CFG_in {m : Nat} (h : m.testBit 74 = true) : InGroup m (A.CEN_CFG) := ofGroup (A.CEN_CFG_group) h
@[simp] theorem A.CEN_SAMPLE_group : regGroup (A.CEN_SAMPLE) = .cen := rfl
theorem A.CEN_SAMPLE_in {m : Nat} (h : m.testBit 74 = true) : InGroup m (A.CEN_SAMPLE) := ofGroup (A.CEN_SAMPLE_group) h
@[simp] theorem A.CEN_STATUS_group : regGroup (A.CEN_STATUS) = .cen := rfl
theorem A.CEN_STATUS_in {m : Nat} (h : m.testBit 74 = true) : InGroup m (A.CEN_STATUS) := ofGroup (A.CEN_STATUS_group) h
@[simp] theorem A.CEN_SLOTS_group : regGroup (A.CEN_SLOTS) = .cen := rfl
theorem A.CEN_SLOTS_in {m : Nat} (h : m.testBit 74 = true) : InGroup m (A.CEN_SLOTS) := ofGroup (A.CEN_SLOTS_group) h
@[simp] theorem A.CEN_SEQ_group : regGroup (A.CEN_SEQ) = .cen := rfl
theorem A.CEN_SEQ_in {m : Nat} (h : m.testBit 74 = true) : InGroup m (A.CEN_SEQ) := ofGroup (A.CEN_SEQ_group) h
@[simp] theorem A.CEN_SEQ_group4 : regGroup (A.CEN_SEQ + 4) = .cen := rfl
theorem A.CEN_SEQ_in4 {m : Nat} (h : m.testBit 74 = true) : InGroup m (A.CEN_SEQ + 4) := ofGroup (A.CEN_SEQ_group4) h
@[simp] theorem A.CEN_SKIPPED_group : regGroup (A.CEN_SKIPPED) = .cen := rfl
theorem A.CEN_SKIPPED_in {m : Nat} (h : m.testBit 74 = true) : InGroup m (A.CEN_SKIPPED) := ofGroup (A.CEN_SKIPPED_group) h
@[simp] theorem A.CEN_SEL_group (n : Nat) : regGroup (A.CEN_SEL n) = .cen := by
  unfold A.CEN_SEL regGroup
  rw [if_neg (by omega), if_neg (by omega), if_neg (by omega), if_neg (by omega), if_neg (by omega), if_neg (by omega), if_pos (by omega), if_neg (by omega), if_neg (by omega), if_pos (by omega)]
theorem A.CEN_SEL_in {m n : Nat} (h : m.testBit 74 = true) : InGroup m (A.CEN_SEL n) := ofGroup (A.CEN_SEL_group _) h
@[simp] theorem A.EVID_RING_CFG_group (n : Nat) : regGroup (A.EVID_RING_CFG n) = .evid := 
  (by decide : ∀ x < 4, regGroup (0xd10000 + 0x40 * x) = .evid) _ (Nat.mod_lt _ (by decide))
theorem A.EVID_RING_CFG_in {m n : Nat} (h : m.testBit 75 = true) : InGroup m (A.EVID_RING_CFG n) := ofGroup (A.EVID_RING_CFG_group _) h
@[simp] theorem A.EVID_RING_CFG1_group (n : Nat) : regGroup (A.EVID_RING_CFG1 n) = .evid := 
  (by decide : ∀ x < 4, regGroup (0xd10004 + 0x40 * x) = .evid) _ (Nat.mod_lt _ (by decide))
theorem A.EVID_RING_CFG1_in {m n : Nat} (h : m.testBit 75 = true) : InGroup m (A.EVID_RING_CFG1 n) := ofGroup (A.EVID_RING_CFG1_group _) h
@[simp] theorem A.EVID_RING_CFG2_group (n : Nat) : regGroup (A.EVID_RING_CFG2 n) = .evid := 
  (by decide : ∀ x < 4, regGroup (0xd10008 + 0x40 * x) = .evid) _ (Nat.mod_lt _ (by decide))
theorem A.EVID_RING_CFG2_in {m n : Nat} (h : m.testBit 75 = true) : InGroup m (A.EVID_RING_CFG2 n) := ofGroup (A.EVID_RING_CFG2_group _) h
@[simp] theorem A.EVID_RING_CFG3_group (n : Nat) : regGroup (A.EVID_RING_CFG3 n) = .evid := 
  (by decide : ∀ x < 4, regGroup (0xd1000c + 0x40 * x) = .evid) _ (Nat.mod_lt _ (by decide))
theorem A.EVID_RING_CFG3_in {m n : Nat} (h : m.testBit 75 = true) : InGroup m (A.EVID_RING_CFG3 n) := ofGroup (A.EVID_RING_CFG3_group _) h
@[simp] theorem A.EVID_TRIG_CFG_group (n : Nat) : regGroup (A.EVID_TRIG_CFG n) = .evid := 
  (by decide : ∀ x < 4, regGroup (0xd10010 + 0x40 * x) = .evid) _ (Nat.mod_lt _ (by decide))
theorem A.EVID_TRIG_CFG_in {m n : Nat} (h : m.testBit 75 = true) : InGroup m (A.EVID_TRIG_CFG n) := ofGroup (A.EVID_TRIG_CFG_group _) h
@[simp] theorem A.EVID_TRIG_ROUTE_group (n : Nat) : regGroup (A.EVID_TRIG_ROUTE n) = .evid := 
  (by decide : ∀ x < 4, regGroup (0xd10014 + 0x40 * x) = .evid) _ (Nat.mod_lt _ (by decide))
theorem A.EVID_TRIG_ROUTE_in {m n : Nat} (h : m.testBit 75 = true) : InGroup m (A.EVID_TRIG_ROUTE n) := ofGroup (A.EVID_TRIG_ROUTE_group _) h
@[simp] theorem A.EVID_TRIG_POS_group (n : Nat) : regGroup (A.EVID_TRIG_POS n) = .evid := 
  (by decide : ∀ x < 4, regGroup (0xd10018 + 0x40 * x) = .evid) _ (Nat.mod_lt _ (by decide))
theorem A.EVID_TRIG_POS_in {m n : Nat} (h : m.testBit 75 = true) : InGroup m (A.EVID_TRIG_POS n) := ofGroup (A.EVID_TRIG_POS_group _) h
@[simp] theorem A.EVID_RING_STATE_group (n : Nat) : regGroup (A.EVID_RING_STATE n) = .evid := 
  (by decide : ∀ x < 4, regGroup (0xd10020 + 0x40 * x) = .evid) _ (Nat.mod_lt _ (by decide))
theorem A.EVID_RING_STATE_in {m n : Nat} (h : m.testBit 75 = true) : InGroup m (A.EVID_RING_STATE n) := ofGroup (A.EVID_RING_STATE_group _) h
@[simp] theorem A.EVID_RING_SEQ_group (n : Nat) : regGroup (A.EVID_RING_SEQ n) = .evid := 
  (by decide : ∀ x < 4, regGroup (0xd10024 + 0x40 * x) = .evid) _ (Nat.mod_lt _ (by decide))
theorem A.EVID_RING_SEQ_in {m n : Nat} (h : m.testBit 75 = true) : InGroup m (A.EVID_RING_SEQ n) := ofGroup (A.EVID_RING_SEQ_group _) h
@[simp] theorem A.EVID_RECORDS_group (n : Nat) : regGroup (A.EVID_RECORDS n) = .evid := 
  (by decide : ∀ x < 4, regGroup (0xd10030 + 0x40 * x) = .evid) _ (Nat.mod_lt _ (by decide))
theorem A.EVID_RECORDS_in {m n : Nat} (h : m.testBit 75 = true) : InGroup m (A.EVID_RECORDS n) := ofGroup (A.EVID_RECORDS_group _) h
@[simp] theorem A.EVID_NOT_REC_group (n : Nat) : regGroup (A.EVID_NOT_REC n) = .evid := 
  (by decide : ∀ x < 4, regGroup (0xd10034 + 0x40 * x) = .evid) _ (Nat.mod_lt _ (by decide))
theorem A.EVID_NOT_REC_in {m n : Nat} (h : m.testBit 75 = true) : InGroup m (A.EVID_NOT_REC n) := ofGroup (A.EVID_NOT_REC_group _) h
@[simp] theorem A.EVID_DISCARD_group (n : Nat) : regGroup (A.EVID_DISCARD n) = .evid := 
  (by decide : ∀ x < 4, regGroup (0xd10038 + 0x40 * x) = .evid) _ (Nat.mod_lt _ (by decide))
theorem A.EVID_DISCARD_in {m n : Nat} (h : m.testBit 75 = true) : InGroup m (A.EVID_DISCARD n) := ofGroup (A.EVID_DISCARD_group _) h
@[simp] theorem A.EVID_SEG_group (n : Nat) : regGroup (A.EVID_SEG n) = .evid := 
  (by decide : ∀ x < 8, regGroup (0xd10400 + 0x20 * x) = .evid) _ (Nat.mod_lt _ (by decide))
theorem A.EVID_SEG_in {m n : Nat} (h : m.testBit 75 = true) : InGroup m (A.EVID_SEG n) := ofGroup (A.EVID_SEG_group _) h
@[simp] theorem A.EVID_SEG_W1_group (n : Nat) : regGroup (A.EVID_SEG_W1 n) = .evid := 
  (by decide : ∀ x < 8, regGroup (0xd10404 + 0x20 * x) = .evid) _ (Nat.mod_lt _ (by decide))
theorem A.EVID_SEG_W1_in {m n : Nat} (h : m.testBit 75 = true) : InGroup m (A.EVID_SEG_W1 n) := ofGroup (A.EVID_SEG_W1_group _) h
@[simp] theorem A.EVID_SEG_TIME_group (n : Nat) : regGroup (A.EVID_SEG_TIME n) = .evid := 
  (by decide : ∀ x < 8, regGroup (0xd10408 + 0x20 * x) = .evid) _ (Nat.mod_lt _ (by decide))
theorem A.EVID_SEG_TIME_in {m n : Nat} (h : m.testBit 75 = true) : InGroup m (A.EVID_SEG_TIME n) := ofGroup (A.EVID_SEG_TIME_group _) h
@[simp] theorem A.EVID_SEG_TIME_group4 (n : Nat) : regGroup (A.EVID_SEG_TIME n + 4) = .evid := 
  (by decide : ∀ x < 8, regGroup (0xd10408 + 0x20 * x + 4) = .evid) _ (Nat.mod_lt _ (by decide))
theorem A.EVID_SEG_TIME_in4 {m n : Nat} (h : m.testBit 75 = true) : InGroup m (A.EVID_SEG_TIME n + 4) := ofGroup (A.EVID_SEG_TIME_group4 _) h
@[simp] theorem A.EVID_SEG_POS_group (n : Nat) : regGroup (A.EVID_SEG_POS n) = .evid := 
  (by decide : ∀ x < 8, regGroup (0xd10410 + 0x20 * x) = .evid) _ (Nat.mod_lt _ (by decide))
theorem A.EVID_SEG_POS_in {m n : Nat} (h : m.testBit 75 = true) : InGroup m (A.EVID_SEG_POS n) := ofGroup (A.EVID_SEG_POS_group _) h
@[simp] theorem A.EVID_SEG_POS_group4 (n : Nat) : regGroup (A.EVID_SEG_POS n + 4) = .evid := 
  (by decide : ∀ x < 8, regGroup (0xd10410 + 0x20 * x + 4) = .evid) _ (Nat.mod_lt _ (by decide))
theorem A.EVID_SEG_POS_in4 {m n : Nat} (h : m.testBit 75 = true) : InGroup m (A.EVID_SEG_POS n + 4) := ofGroup (A.EVID_SEG_POS_group4 _) h
@[simp] theorem A.EVID_SEG_FIRST_SEQ_group (n : Nat) : regGroup (A.EVID_SEG_FIRST_SEQ n) = .evid := 
  (by decide : ∀ x < 8, regGroup (0xd10418 + 0x20 * x) = .evid) _ (Nat.mod_lt _ (by decide))
theorem A.EVID_SEG_FIRST_SEQ_in {m n : Nat} (h : m.testBit 75 = true) : InGroup m (A.EVID_SEG_FIRST_SEQ n) := ofGroup (A.EVID_SEG_FIRST_SEQ_group _) h
@[simp] theorem A.EVID_SEG_LAST_SEQ_group (n : Nat) : regGroup (A.EVID_SEG_LAST_SEQ n) = .evid := 
  (by decide : ∀ x < 8, regGroup (0xd1041c + 0x20 * x) = .evid) _ (Nat.mod_lt _ (by decide))
theorem A.EVID_SEG_LAST_SEQ_in {m n : Nat} (h : m.testBit 75 = true) : InGroup m (A.EVID_SEG_LAST_SEQ n) := ofGroup (A.EVID_SEG_LAST_SEQ_group _) h
@[simp] theorem A.EVID_DIGEST_group (n : Nat) : regGroup (A.EVID_DIGEST n) = .evid := 
  (by decide : ∀ x < 8, regGroup (0xd10600 + 0x4 * x) = .evid) _ (Nat.mod_lt _ (by decide))
theorem A.EVID_DIGEST_in {m n : Nat} (h : m.testBit 75 = true) : InGroup m (A.EVID_DIGEST n) := ofGroup (A.EVID_DIGEST_group _) h
@[simp] theorem A.EVID_TRIG_REFUSED_group : regGroup (A.EVID_TRIG_REFUSED) = .evid := rfl
theorem A.EVID_TRIG_REFUSED_in {m : Nat} (h : m.testBit 75 = true) : InGroup m (A.EVID_TRIG_REFUSED) := ofGroup (A.EVID_TRIG_REFUSED_group) h
@[simp] theorem A.EVID_IMAP_group (n : Nat) : regGroup (A.EVID_IMAP n) = .evid := by
  unfold A.EVID_IMAP regGroup
  rw [if_neg (by omega), if_neg (by omega), if_neg (by omega), if_neg (by omega), if_neg (by omega), if_neg (by omega), if_pos (by omega), if_neg (by omega), if_neg (by omega), if_neg (by omega)]
theorem A.EVID_IMAP_in {m n : Nat} (h : m.testBit 75 = true) : InGroup m (A.EVID_IMAP n) := ofGroup (A.EVID_IMAP_group _) h
@[simp] theorem A.EVT_STATUS_group (n : Nat) : regGroup (A.EVT_STATUS n) = .evt := 
  (by decide : ∀ x < 10, regGroup (0x100000 + 0x4 * x) = .evt) _ (Nat.mod_lt _ (by decide))
theorem A.EVT_STATUS_in {m n : Nat} (h : m.testBit 51 = true) : InGroup m (A.EVT_STATUS n) := ofGroup (A.EVT_STATUS_group _) h
@[simp] theorem A.EVT_MASK_group (n : Nat) : regGroup (A.EVT_MASK n) = .evtCfg := 
  (by decide : ∀ x < 10, regGroup (0x100040 + 0x4 * x) = .evtCfg) _ (Nat.mod_lt _ (by decide))
theorem A.EVT_MASK_in {m n : Nat} (h : m.testBit 79 = true) : InGroup m (A.EVT_MASK n) := ofGroup (A.EVT_MASK_group _) h
@[simp] theorem A.EVT_PEND_group (n : Nat) : regGroup (A.EVT_PEND n) = .evtCfg := 
  (by decide : ∀ x < 10, regGroup (0x100080 + 0x4 * x) = .evtCfg) _ (Nat.mod_lt _ (by decide))
theorem A.EVT_PEND_in {m n : Nat} (h : m.testBit 79 = true) : InGroup m (A.EVT_PEND n) := ofGroup (A.EVT_PEND_group _) h
@[simp] theorem A.EVT_FORCE_group (n : Nat) : regGroup (A.EVT_FORCE n) = .evtCfg := 
  (by decide : ∀ x < 10, regGroup (0x1000c0 + 0x4 * x) = .evtCfg) _ (Nat.mod_lt _ (by decide))
theorem A.EVT_FORCE_in {m n : Nat} (h : m.testBit 79 = true) : InGroup m (A.EVT_FORCE n) := ofGroup (A.EVT_FORCE_group _) h
@[simp] theorem A.EVT_VEC_SUM_group : regGroup (A.EVT_VEC_SUM) = .evtCfg := rfl
theorem A.EVT_VEC_SUM_in {m : Nat} (h : m.testBit 79 = true) : InGroup m (A.EVT_VEC_SUM) := ofGroup (A.EVT_VEC_SUM_group) h
@[simp] theorem A.EVT_INTN_group : regGroup (A.EVT_INTN) = .evtCfg := rfl
theorem A.EVT_INTN_in {m : Nat} (h : m.testBit 79 = true) : InGroup m (A.EVT_INTN) := ofGroup (A.EVT_INTN_group) h
@[simp] theorem A.EVT_CAUSE_group (n : Nat) : regGroup (A.EVT_CAUSE n) = .evt := 
  (by decide : ∀ x < 6, regGroup (0x100200 + 0x4 * x) = .evt) _ (Nat.mod_lt _ (by decide))
theorem A.EVT_CAUSE_in {m n : Nat} (h : m.testBit 51 = true) : InGroup m (A.EVT_CAUSE n) := ofGroup (A.EVT_CAUSE_group _) h
@[simp] theorem A.EVT_ROUTE_group (n : Nat) : regGroup (A.EVT_ROUTE n) = .evtCfg := by
  unfold A.EVT_ROUTE regGroup
  rw [if_pos (by omega), if_neg (by omega), if_neg (by omega), if_neg (by omega), if_pos (by omega), if_neg (by omega), if_neg (by omega), if_neg (by omega)]
theorem A.EVT_ROUTE_in {m n : Nat} (h : m.testBit 79 = true) : InGroup m (A.EVT_ROUTE n) := ofGroup (A.EVT_ROUTE_group _) h
@[simp] theorem A.DEV_OUI_group : regGroup (A.DEV_OUI) = .dev := rfl
theorem A.DEV_OUI_in {m : Nat} (h : m.testBit 48 = true) : InGroup m (A.DEV_OUI) := ofGroup (A.DEV_OUI_group) h
@[simp] theorem A.DEV_FOLD_STAGE_group (n : Nat) : regGroup (A.DEV_FOLD_STAGE n) = .stage := by
  unfold A.DEV_FOLD_STAGE regGroup
  rw [if_pos (by omega), if_neg (by omega), if_neg (by omega), if_pos (by omega)]
theorem A.DEV_FOLD_STAGE_in {m n : Nat} (h : m.testBit 50 = true) : InGroup m (A.DEV_FOLD_STAGE n) := ofGroup (A.DEV_FOLD_STAGE_group _) h
@[simp] theorem A.PORT_TONE_group (n k : Nat) : regGroup (A.PORT_TONE n k) = .portTone := by
  unfold A.PORT_TONE regGroup
  rw [if_neg (by omega), if_pos (by omega), if_neg (by omega), if_neg (by omega), if_neg (by omega), if_neg (by omega), if_neg (by omega)]
theorem A.PORT_TONE_in {m n k : Nat} (h : m.testBit 58 = true) : InGroup m (A.PORT_TONE n k) := ofGroup (A.PORT_TONE_group _ _) h
@[simp] theorem A.PORT_SNR_group (n k : Nat) : regGroup (A.PORT_SNR n k) = .portTone := by
  unfold A.PORT_SNR regGroup
  rw [if_neg (by omega), if_pos (by omega), if_neg (by omega), if_neg (by omega), if_neg (by omega), if_neg (by omega), if_neg (by omega)]
theorem A.PORT_SNR_in {m n k : Nat} (h : m.testBit 58 = true) : InGroup m (A.PORT_SNR n k) := ofGroup (A.PORT_SNR_group _ _) h
@[simp] theorem A.MEM_FREEZE_REC_group (n k j : Nat) : regGroup (A.MEM_FREEZE_REC n k j) = .freezeRec := by
  unfold A.MEM_FREEZE_REC regGroup
  rw [if_neg (by omega), if_neg (by omega), if_neg (by omega), if_pos (by omega), if_neg (by omega), if_neg (by omega), if_pos (by omega)]
theorem A.MEM_FREEZE_REC_in {m n k j : Nat} (h : m.testBit 62 = true) : InGroup m (A.MEM_FREEZE_REC n k j) := ofGroup (A.MEM_FREEZE_REC_group _ _ _) h
@[simp] theorem A.PISTE_ENTRY_group (n k : Nat) : regGroup (A.PISTE_ENTRY n k) = .piste := by
  unfold A.PISTE_ENTRY regGroup
  rw [if_neg (by omega), if_neg (by omega), if_neg (by omega), if_neg (by omega), if_neg (by omega), if_neg (by omega), if_pos (by omega), if_neg (by omega), if_pos (by omega)]
theorem A.PISTE_ENTRY_in {m n k : Nat} (h : m.testBit 73 = true) : InGroup m (A.PISTE_ENTRY n k) := ofGroup (A.PISTE_ENTRY_group _ _) h
@[simp] theorem A.MSIX_TABLE_group (n k : Nat) : regGroup (A.MSIX_TABLE n k) = .msix := 
  (by decide : ∀ x < 32, ∀ y < 3, regGroup (0x010000 + 0x10 * x + 0x4 * y) = .msix) _ (Nat.mod_lt _ (by decide)) _ (Nat.mod_lt _ (by decide))
theorem A.MSIX_TABLE_in {m n k : Nat} (h : m.testBit 49 = true) : InGroup m (A.MSIX_TABLE n k) := ofGroup (A.MSIX_TABLE_group _ _) h
@[simp] theorem A.MSIX_PBA_group (n : Nat) : regGroup (A.MSIX_PBA n) = .msix := 
  (by decide : ∀ x < 1, regGroup (0x011000 + 0x4 * x) = .msix) _ (Nat.mod_lt _ (by decide))
theorem A.MSIX_PBA_in {m n : Nat} (h : m.testBit 49 = true) : InGroup m (A.MSIX_PBA n) := ofGroup (A.MSIX_PBA_group _) h
@[simp] theorem A.MSIX_VCTRL_group (n : Nat) : regGroup (A.MSIX_VCTRL n) = .msix := 
  (by decide : ∀ x < 32, regGroup (0x01000c + 0x10 * x) = .msix) _ (Nat.mod_lt _ (by decide))
theorem A.MSIX_VCTRL_in {m n : Nat} (h : m.testBit 49 = true) : InGroup m (A.MSIX_VCTRL n) := ofGroup (A.MSIX_VCTRL_group _) h
theorem A.SEC_CHALLENGE_range : ∀ a, A.SEC_CHALLENGE 0 ≤ a → a < A.SEC_CHALLENGE 0 + 4 * 8 → regGroup a = .sec := by
  unfold A.SEC_CHALLENGE regGroup
  intro a h1 h2
  rw [if_neg (by omega), if_neg (by omega), if_neg (by omega), if_neg (by omega), if_neg (by omega), if_neg (by omega), if_neg (by omega), if_pos (by omega), if_pos (by omega)]
theorem A.SEC_KEY_STAGE_range : ∀ a, A.SEC_KEY_STAGE 0 ≤ a → a < A.SEC_KEY_STAGE 0 + 4 * 16 → regGroup a = .sec := by
  unfold A.SEC_KEY_STAGE regGroup
  intro a h1 h2
  rw [if_neg (by omega), if_neg (by omega), if_neg (by omega), if_neg (by omega), if_neg (by omega), if_neg (by omega), if_neg (by omega), if_pos (by omega), if_pos (by omega)]
theorem A.SEC_ID_SIG_range : ∀ a, A.SEC_ID_SIG 0 ≤ a → a < A.SEC_ID_SIG 0 + 4 * 16 → regGroup a = .sec := by
  unfold A.SEC_ID_SIG regGroup
  intro a h1 h2
  rw [if_neg (by omega), if_neg (by omega), if_neg (by omega), if_neg (by omega), if_neg (by omega), if_neg (by omega), if_neg (by omega), if_pos (by omega), if_pos (by omega)]
theorem A.EVID_DIGEST_range : ∀ a, A.EVID_DIGEST 0 ≤ a → a < A.EVID_DIGEST 0 + 4 * 8 → regGroup a = .evid := by
  unfold A.EVID_DIGEST regGroup
  intro a h1 h2
  rw [if_neg (by omega), if_neg (by omega), if_neg (by omega), if_neg (by omega), if_neg (by omega), if_neg (by omega), if_pos (by omega), if_neg (by omega), if_neg (by omega), if_neg (by omega)]
theorem A.MEM_FREEZE_REC_range {n k : Nat} : ∀ a, A.MEM_FREEZE_REC n k 0 ≤ a → a < A.MEM_FREEZE_REC n k 0 + 4 * 160 → regGroup a = .freezeRec := by
  unfold A.MEM_FREEZE_REC regGroup
  intro a h1 h2
  rw [if_neg (by omega), if_neg (by omega), if_neg (by omega), if_pos (by omega), if_neg (by omega), if_neg (by omega), if_pos (by omega)]
theorem A.MSIX_TABLE_range : ∀ a, A.MSIX_TABLE 0 0 ≤ a → a < A.MSIX_TABLE 0 0 + 512 → regGroup a = .msix := by
  unfold A.MSIX_TABLE regGroup
  intro a h1 h2
  rw [if_pos (by omega), if_neg (by omega), if_pos (by omega)]
theorem A.EVID_IMAP_range : ∀ a, A.EVID_IMAP 0 ≤ a → a < A.EVID_IMAP 0 + 16384 → regGroup a = .evid := by
  unfold A.EVID_IMAP regGroup
  intro a h1 h2
  rw [if_neg (by omega), if_neg (by omega), if_neg (by omega), if_neg (by omega), if_neg (by omega), if_neg (by omega), if_pos (by omega), if_neg (by omega), if_neg (by omega), if_neg (by omega)]
theorem A.PORT_SNR_range {n : Nat} : ∀ a, A.PORT_SNR n 0 ≤ a → a < A.PORT_SNR n 0 + 4096 → regGroup a = .portTone := by
  unfold A.PORT_SNR regGroup
  intro a h1 h2
  rw [if_neg (by omega), if_pos (by omega), if_neg (by omega), if_neg (by omega), if_neg (by omega), if_neg (by omega), if_neg (by omega)]
theorem A.PORT_TONE_range {n : Nat} : ∀ a, A.PORT_TONE n 0 ≤ a → a < A.PORT_TONE n 0 + 65536 → regGroup a = .portTone := by
  unfold A.PORT_TONE regGroup
  intro a h1 h2
  rw [if_neg (by omega), if_pos (by omega), if_neg (by omega), if_neg (by omega), if_neg (by omega), if_neg (by omega), if_neg (by omega)]
theorem A.PISTE_ENTRY_range : ∀ a, A.PISTE_ENTRY 0 0 ≤ a → a < A.PISTE_ENTRY 0 0 + 524288 → regGroup a = .piste := by
  unfold A.PISTE_ENTRY regGroup
  intro a h1 h2
  rw [if_neg (by omega), if_neg (by omega), if_neg (by omega), if_neg (by omega), if_neg (by omega), if_neg (by omega), if_pos (by omega), if_neg (by omega), if_pos (by omega)]

end Sys2Proof.Machine
end

