-- ==== Sys2Proof/Laws/Keeps/Ops.lean ====
section
/-!
SUPPORT. The updates that each operation of Machine/Ops.lean makes: one law for each.
-/
namespace Sys2Proof.Machine

variable {P : State → Prop}

theorem State.bar_keeps {s : State} {f : State → State} (cl : Closed 17179869184 P) (hf : ∀ t, P t → P (f t)) (h0 : P s) :
    P (State.bar s f) := by
  unfold State.bar
  try dsimp only
  repeat' first
    | with_reducible assumption | (with_reducible apply Closed.mono cl; decide) | with_reducible refine hf _ ?_
    | with_reducible apply withOut_keeps | intro _ _ _ | intro _ _
    | with_reducible refine pair_keeps (by with_reducible assumption) ?_ | dsimp only | split

theorem State.emit_keeps {s : State} {o : Output} (cl : Closed 17179869184 P) (h0 : P s) : P (State.emit s o) := by
  unfold State.emit
  try dsimp only
  repeat' first
    | with_reducible assumption | (with_reducible apply Closed.mono cl; decide) | with_reducible apply withOut_keeps
    | intro _ _ _ | intro _ _ | with_reducible refine pair_keeps (by with_reducible assumption) ?_ | dsimp only | split

theorem State.emits_keeps {s : State} {os : List Output} (cl : Closed 17179869184 P) (h0 : P s) : P (State.emits s os) := by
  unfold State.emits
  try dsimp only
  repeat' first
    | with_reducible assumption | (with_reducible apply Closed.mono cl; decide) | with_reducible apply withOut_keeps
    | intro _ _ _ | intro _ _ | with_reducible refine pair_keeps (by with_reducible assumption) ?_ | dsimp only | split

theorem State.drawn_keeps {s : State} {n : Nat} (cl : Closed 34359738368 P) (h0 : P s) : P (State.drawn s n) := by
  unfold State.drawn
  try dsimp only
  repeat' first
    | with_reducible assumption | (with_reducible apply Closed.mono cl; decide) | with_reducible apply withFreeCtr_keeps
    | intro _ _ _ | intro _ _ | with_reducible refine pair_keeps (by with_reducible assumption) ?_ | dsimp only | split

theorem State.cenBump_keeps {s : State} {ev : Nat} {n : Nat} {k : Nat} (cl : Closed 2048 P) (h0 : P s) :
    P (State.cenBump s ev n k) := by
  unfold State.cenBump
  try dsimp only
  repeat' first
    | with_reducible assumption | (with_reducible apply Closed.mono cl; decide) | with_reducible apply withCen_keeps
    | intro _ _ _ | intro _ _ | with_reducible refine pair_keeps (by with_reducible assumption) ?_ | dsimp only | split

theorem State.cenAdd_keeps {s : State} {base : Nat} {len : Nat} {ev : Nat} {n : Nat} (cl : Closed 2048 P) (h0 : P s) :
    P (State.cenAdd s base len ev n) := by
  unfold State.cenAdd
  try dsimp only
  repeat' first
    | with_reducible assumption | (with_reducible apply Closed.mono cl; decide) | with_reducible apply each_keeps
    | with_reducible apply State.cenBump_keeps | intro _ _ _ | intro _ _
    | with_reducible refine pair_keeps (by with_reducible assumption) ?_ | dsimp only | split

theorem State.cenPort_keeps {s : State} {p : Nat} {ev : Nat} {n : Nat} (cl : Closed 2048 P) (h0 : P s) :
    P (State.cenPort s p ev n) := by
  unfold State.cenPort
  try dsimp only
  repeat' first
    | with_reducible assumption | (with_reducible apply Closed.mono cl; decide) | with_reducible apply State.cenAdd_keeps
    | intro _ _ _ | intro _ _ | with_reducible refine pair_keeps (by with_reducible assumption) ?_ | dsimp only | split

theorem State.cenPc_keeps {s : State} {i : Nat} {ev : Nat} {n : Nat} (cl : Closed 2048 P) (h0 : P s) :
    P (State.cenPc s i ev n) := by
  unfold State.cenPc
  try dsimp only
  repeat' first
    | with_reducible assumption | (with_reducible apply Closed.mono cl; decide) | with_reducible apply State.cenAdd_keeps
    | intro _ _ _ | intro _ _ | with_reducible refine pair_keeps (by with_reducible assumption) ?_ | dsimp only | split

theorem State.cenLane_keeps {s : State} {m : Nat} {ev : Nat} {n : Nat} (cl : Closed 2048 P) (h0 : P s) :
    P (State.cenLane s m ev n) := by
  unfold State.cenLane
  try dsimp only
  repeat' first
    | with_reducible assumption | (with_reducible apply Closed.mono cl; decide) | with_reducible apply State.cenAdd_keeps
    | intro _ _ _ | intro _ _ | with_reducible refine pair_keeps (by with_reducible assumption) ?_ | dsimp only | split

theorem State.cenFab_keeps {s : State} {ev : Nat} {n : Nat} (cl : Closed 2048 P) (h0 : P s) : P (State.cenFab s ev n) := by
  unfold State.cenFab
  try dsimp only
  repeat' first
    | with_reducible assumption | (with_reducible apply Closed.mono cl; decide) | with_reducible apply State.cenAdd_keeps
    | intro _ _ _ | intro _ _ | with_reducible refine pair_keeps (by with_reducible assumption) ?_ | dsimp only | split

theorem State.cenHerd_keeps {s : State} {ev : Nat} {n : Nat} (cl : Closed 2048 P) (h0 : P s) : P (State.cenHerd s ev n) := by
  unfold State.cenHerd
  try dsimp only
  repeat' first
    | with_reducible assumption | (with_reducible apply Closed.mono cl; decide) | with_reducible apply State.cenAdd_keeps
    | intro _ _ _ | intro _ _ | with_reducible refine pair_keeps (by with_reducible assumption) ?_ | dsimp only | split

end Sys2Proof.Machine
end

