-- ==== Sys2Proof/Laws/Keeps/Flags.lean ====
section
/-!
SUPPORT. The updates that each operation of Machine/Flags.lean makes: one law for each.
-/
namespace Sys2Proof.Machine

variable {P : State → Prop}
theorem srcBit_g {m i : Nat} (h : m.testBit 51 = true) : InGroup m (srcBit (A.EVT_STATUS 0) i).off := by
  have e : (srcBit (A.EVT_STATUS 0) i).off = A.EVT_STATUS (i / 32) := by unfold srcBit A.EVT_STATUS; simp
  rw [e]
  exact ofGroup (A.EVT_STATUS_group _) h


theorem State.sendOwed_keeps {s : State} {v : Nat} (cl : Closed 17179869440 P) (h0 : P s) : P (State.sendOwed s v) := by
  unfold State.sendOwed
  try dsimp only
  repeat' first
    | with_reducible assumption | (with_reducible apply Closed.mono cl; decide) | with_reducible apply State.emit_keeps
    | with_reducible apply withEvt_keeps | intro _ _ _ | intro _ _
    | with_reducible refine pair_keeps (by with_reducible assumption) ?_ | dsimp only | split

theorem State.sendAllOwed_keeps {s : State} (cl : Closed 17179869440 P) (h0 : P s) : P (State.sendAllOwed s) := by
  unfold State.sendAllOwed
  try dsimp only
  repeat' first
    | with_reducible assumption | (with_reducible apply Closed.mono cl; decide) | with_reducible apply each_keeps
    | with_reducible apply State.sendOwed_keeps | intro _ _ _ | intro _ _
    | with_reducible refine pair_keeps (by with_reducible assumption) ?_ | dsimp only | split

theorem State.owe_keeps {s : State} {v : Nat} (cl : Closed 17179869440 P) (h0 : P s) : P (State.owe s v) := by
  unfold State.owe
  try dsimp only
  repeat' first
    | with_reducible assumption | (with_reducible apply Closed.mono cl; decide) | with_reducible apply State.sendOwed_keeps
    | with_reducible apply withEvt_keeps | intro _ _ _ | intro _ _
    | with_reducible refine pair_keeps (by with_reducible assumption) ?_ | dsimp only | split

theorem State.becomePending_keeps {s : State} {i : Nat} {f : State → State} (cl : Closed 17179869440 P) (hf : ∀ t, P t → P (f t)) (h0 : P s) :
    P (State.becomePending s i f) := by
  unfold State.becomePending
  try dsimp only
  repeat' first
    | with_reducible assumption | (with_reducible apply Closed.mono cl; decide) | with_reducible refine hf _ ?_
    | with_reducible apply State.owe_keeps | intro _ _ _ | intro _ _
    | with_reducible refine pair_keeps (by with_reducible assumption) ?_ | dsimp only | split

theorem State.herderSees_keeps {s : State} {i : Nat} (cl : Closed 256 P) (h0 : P s) : P (State.herderSees s i) := by
  unfold State.herderSees
  try dsimp only
  repeat' first
    | with_reducible assumption | (with_reducible apply Closed.mono cl; decide) | with_reducible apply withEvt_keeps
    | intro _ _ _ | intro _ _ | with_reducible refine pair_keeps (by with_reducible assumption) ?_ | dsimp only | split

theorem State.raise_keeps {s : State} {i : Nat} (cl : Closed 2251816993556736 P) (h0 : P s) : P (State.raise s i) := by
  unfold State.raise
  try dsimp only
  repeat' first
    | with_reducible assumption | (with_reducible apply Closed.mono cl; decide) | (with_reducible apply State.put_keeps cl)
    | (with_reducible apply srcBit_g <;> decide) | (with_reducible apply A.EVT_STATUS_in; decide)
    | with_reducible apply State.cenFab_keeps | with_reducible apply State.herderSees_keeps
    | with_reducible apply State.becomePending_keeps | intro _ _ _ | intro _ _
    | with_reducible refine pair_keeps (by with_reducible assumption) ?_ | dsimp only | split

theorem State.raiseCause_keeps {s : State} {g : Nat} {c : Nat} (cl : Closed 2251816993556736 P) (h0 : P s) :
    P (State.raiseCause s g c) := by
  unfold State.raiseCause
  try dsimp only
  repeat' first
    | with_reducible assumption | (with_reducible apply Closed.mono cl; decide) | (with_reducible apply State.put_keeps cl)
    | (with_reducible apply A.EVT_CAUSE_in; decide) | with_reducible apply State.cenFab_keeps
    | with_reducible apply State.herderSees_keeps | with_reducible apply State.becomePending_keeps | intro _ _ _ | intro _ _
    | with_reducible refine pair_keeps (by with_reducible assumption) ?_ | dsimp only | split

theorem State.reroute_keeps {s : State} {f : State → State} (cl : Closed 17179869440 P) (hf : ∀ t, P t → P (f t)) (h0 : P s) :
    P (State.reroute s f) := by
  unfold State.reroute
  try dsimp only
  repeat' first
    | with_reducible assumption | (with_reducible apply Closed.mono cl; decide) | with_reducible refine hf _ ?_
    | with_reducible apply each_keeps | with_reducible apply State.owe_keeps | intro _ _ _ | intro _ _
    | with_reducible refine pair_keeps (by with_reducible assumption) ?_ | dsimp only | split

theorem State.raiseFoldFallback_keeps {s : State} (cl : Closed 2251816993556736 P) (h0 : P s) :
    P (State.raiseFoldFallback s) := by
  unfold State.raiseFoldFallback
  try dsimp only
  repeat' first
    | with_reducible assumption | (with_reducible apply Closed.mono cl; decide) | with_reducible apply State.raiseCause_keeps
    | intro _ _ _ | intro _ _ | with_reducible refine pair_keeps (by with_reducible assumption) ?_ | dsimp only | split

theorem State.raiseNoFold_keeps {s : State} (cl : Closed 2251816993556736 P) (h0 : P s) : P (State.raiseNoFold s) := by
  unfold State.raiseNoFold
  try dsimp only
  repeat' first
    | with_reducible assumption | (with_reducible apply Closed.mono cl; decide) | with_reducible apply State.raiseCause_keeps
    | intro _ _ _ | intro _ _ | with_reducible refine pair_keeps (by with_reducible assumption) ?_ | dsimp only | split

theorem State.raiseFwFallback_keeps {s : State} (cl : Closed 2251816993556736 P) (h0 : P s) : P (State.raiseFwFallback s) := by
  unfold State.raiseFwFallback
  try dsimp only
  repeat' first
    | with_reducible assumption | (with_reducible apply Closed.mono cl; decide) | with_reducible apply State.raiseCause_keeps
    | intro _ _ _ | intro _ _ | with_reducible refine pair_keeps (by with_reducible assumption) ?_ | dsimp only | split

theorem State.raiseNoFw_keeps {s : State} (cl : Closed 2251816993556736 P) (h0 : P s) : P (State.raiseNoFw s) := by
  unfold State.raiseNoFw
  try dsimp only
  repeat' first
    | with_reducible assumption | (with_reducible apply Closed.mono cl; decide) | with_reducible apply State.raiseCause_keeps
    | intro _ _ _ | intro _ _ | with_reducible refine pair_keeps (by with_reducible assumption) ?_ | dsimp only | split

theorem State.raiseCoreLimit_keeps {s : State} (cl : Closed 2251816993556736 P) (h0 : P s) : P (State.raiseCoreLimit s) := by
  unfold State.raiseCoreLimit
  try dsimp only
  repeat' first
    | with_reducible assumption | (with_reducible apply Closed.mono cl; decide) | with_reducible apply State.raiseCause_keeps
    | intro _ _ _ | intro _ _ | with_reducible refine pair_keeps (by with_reducible assumption) ?_ | dsimp only | split

theorem State.raiseBaseLimit_keeps {s : State} (cl : Closed 2251816993556736 P) (h0 : P s) : P (State.raiseBaseLimit s) := by
  unfold State.raiseBaseLimit
  try dsimp only
  repeat' first
    | with_reducible assumption | (with_reducible apply Closed.mono cl; decide) | with_reducible apply State.raiseCause_keeps
    | intro _ _ _ | intro _ _ | with_reducible refine pair_keeps (by with_reducible assumption) ?_ | dsimp only | split

theorem State.raiseTstFault_keeps {s : State} (cl : Closed 2251816993556736 P) (h0 : P s) : P (State.raiseTstFault s) := by
  unfold State.raiseTstFault
  try dsimp only
  repeat' first
    | with_reducible assumption | (with_reducible apply Closed.mono cl; decide) | with_reducible apply State.raiseCause_keeps
    | intro _ _ _ | intro _ _ | with_reducible refine pair_keeps (by with_reducible assumption) ?_ | dsimp only | split

theorem State.raiseSparesOut_keeps {s : State} (cl : Closed 2251816993556736 P) (h0 : P s) : P (State.raiseSparesOut s) := by
  unfold State.raiseSparesOut
  try dsimp only
  repeat' first
    | with_reducible assumption | (with_reducible apply Closed.mono cl; decide) | with_reducible apply State.raiseCause_keeps
    | intro _ _ _ | intro _ _ | with_reducible refine pair_keeps (by with_reducible assumption) ?_ | dsimp only | split

theorem State.raiseTstOverdue_keeps {s : State} (cl : Closed 2251816993556736 P) (h0 : P s) : P (State.raiseTstOverdue s) := by
  unfold State.raiseTstOverdue
  try dsimp only
  repeat' first
    | with_reducible assumption | (with_reducible apply Closed.mono cl; decide) | with_reducible apply State.raiseCause_keeps
    | intro _ _ _ | intro _ _ | with_reducible refine pair_keeps (by with_reducible assumption) ?_ | dsimp only | split

theorem State.raiseTrigRefused_keeps {s : State} (cl : Closed 2251816993556736 P) (h0 : P s) : P (State.raiseTrigRefused s) := by
  unfold State.raiseTrigRefused
  try dsimp only
  repeat' first
    | with_reducible assumption | (with_reducible apply Closed.mono cl; decide) | with_reducible apply State.raiseCause_keeps
    | intro _ _ _ | intro _ _ | with_reducible refine pair_keeps (by with_reducible assumption) ?_ | dsimp only | split

theorem State.raiseSegLost_keeps {s : State} (cl : Closed 2251816993556736 P) (h0 : P s) : P (State.raiseSegLost s) := by
  unfold State.raiseSegLost
  try dsimp only
  repeat' first
    | with_reducible assumption | (with_reducible apply Closed.mono cl; decide) | with_reducible apply State.raiseCause_keeps
    | intro _ _ _ | intro _ _ | with_reducible refine pair_keeps (by with_reducible assumption) ?_ | dsimp only | split

theorem State.raiseEvidBudget_keeps {s : State} (cl : Closed 2251816993556736 P) (h0 : P s) : P (State.raiseEvidBudget s) := by
  unfold State.raiseEvidBudget
  try dsimp only
  repeat' first
    | with_reducible assumption | (with_reducible apply Closed.mono cl; decide) | with_reducible apply State.raiseCause_keeps
    | intro _ _ _ | intro _ _ | with_reducible refine pair_keeps (by with_reducible assumption) ?_ | dsimp only | split

theorem State.raiseHlLoss_keeps {s : State} {m : Nat} (cl : Closed 2251816993556736 P) (h0 : P s) :
    P (State.raiseHlLoss s m) := by
  unfold State.raiseHlLoss
  try dsimp only
  repeat' first
    | with_reducible assumption | (with_reducible apply Closed.mono cl; decide) | with_reducible apply State.raiseCause_keeps
    | intro _ _ _ | intro _ _ | with_reducible refine pair_keeps (by with_reducible assumption) ?_ | dsimp only | split

end Sys2Proof.Machine
end

