-- ==== Sys2Proof/Laws/Keeps/Memory.lean ====
section
/-!
SUPPORT. The updates that each operation of Machine/Memory.lean makes: one law for each.
-/
namespace Sys2Proof.Machine

variable {P : State → Prop}

theorem State.modPc_keeps {s : State} {pc : Nat} {f : Pch → Pch} (cl : Closed 8192 P) (h0 : P s) : P (State.modPc s pc f) := by
  unfold State.modPc
  try dsimp only
  repeat' first
    | with_reducible assumption | (with_reducible apply Closed.mono cl; decide) | with_reducible apply withPch_keeps
    | intro _ _ _ | intro _ _ | with_reducible refine pair_keeps (by with_reducible assumption) ?_ | dsimp only | split

theorem State.modBk_keeps {s : State} {pc : Nat} {b : Nat} {f : Bank → Bank} (cl : Closed 16384 P) (h0 : P s) :
    P (State.modBk s pc b f) := by
  unfold State.modBk
  try dsimp only
  repeat' first
    | with_reducible assumption | (with_reducible apply Closed.mono cl; decide) | with_reducible apply withBank_keeps
    | intro _ _ _ | intro _ _ | with_reducible refine pair_keeps (by with_reducible assumption) ?_ | dsimp only | split

theorem State.storeByte_keeps {s : State} {a : Nat} {d : Nat} (cl : Closed 1610612736 P) (h0 : P s) :
    P (State.storeByte s a d) := by
  unfold State.storeByte
  try dsimp only
  repeat' first
    | with_reducible assumption | (with_reducible apply Closed.mono cl; decide) | with_reducible apply putCell_keeps
    | intro _ _ _ | intro _ _ | with_reducible refine pair_keeps (by with_reducible assumption) ?_ | dsimp only | split

theorem State.storePoison_keeps {s : State} {a : Nat} (cl : Closed 1610612736 P) (h0 : P s) : P (State.storePoison s a) := by
  unfold State.storePoison
  try dsimp only
  repeat' first
    | with_reducible assumption | (with_reducible apply Closed.mono cl; decide) | with_reducible apply putCell_keeps
    | intro _ _ _ | intro _ _ | with_reducible refine pair_keeps (by with_reducible assumption) ?_ | dsimp only | split

theorem State.upset_keeps {s : State} {pc : Nat} {b : Nat} {prow : Nat} {l : List (Nat × Nat)} (cl : Closed 1610612736 P) (h0 : P s) :
    P (State.upset s pc b prow l) := by
  unfold State.upset
  try dsimp only
  repeat' first
    | with_reducible assumption | (with_reducible apply Closed.mono cl; decide) | with_reducible apply each_keeps
    | with_reducible apply putCell_keeps | intro _ _ _ | intro _ _
    | with_reducible refine pair_keeps (by with_reducible assumption) ?_ | dsimp only | split

theorem State.fillGroup_keeps {s : State} {pc : Nat} {b : Nat} {r : Nat} (cl : Closed 16384 P) (h0 : P s) :
    P (State.fillGroup s pc b r) := by
  unfold State.fillGroup
  try dsimp only
  repeat' first
    | with_reducible assumption | (with_reducible apply Closed.mono cl; decide) | with_reducible apply State.modBk_keeps
    | intro _ _ _ | intro _ _ | with_reducible refine pair_keeps (by with_reducible assumption) ?_ | dsimp only | split

theorem State.setFillDone_keeps {s : State} {pc : Nat} (cl : Closed 2305843009213693952 P) (h0 : P s) :
    P (State.setFillDone s pc) := by
  unfold State.setFillDone
  try dsimp only
  repeat' first
    | with_reducible assumption | (with_reducible apply Closed.mono cl; decide) | (with_reducible apply State.put_keeps cl)
    | (with_reducible apply A.MEM_INTEG_STATE_in; decide) | intro _ _ _ | intro _ _
    | with_reducible refine pair_keeps (by with_reducible assumption) ?_ | dsimp only | split

theorem State.resetFill_keeps {s : State} {pc : Nat} {b : Nat} {keep : List Nat} (cl : Closed 2305843010824331264 P) (h0 : P s) :
    P (State.resetFill s pc b keep) := by
  unfold State.resetFill
  try dsimp only
  repeat' first
    | with_reducible assumption | (with_reducible apply Closed.mono cl; decide) | with_reducible apply dropCells_keeps
    | with_reducible apply State.setFillDone_keeps | with_reducible apply State.modPc_keeps
    | with_reducible apply State.modBk_keeps | intro _ _ _ | intro _ _
    | with_reducible refine pair_keeps (by with_reducible assumption) ?_ | dsimp only | split

theorem State.restartFill_keeps {s : State} {pc : Nat} {b : Nat} (cl : Closed 2305843010824331264 P) (h0 : P s) :
    P (State.restartFill s pc b) := by
  unfold State.restartFill
  try dsimp only
  repeat' first
    | with_reducible assumption | (with_reducible apply Closed.mono cl; decide) | with_reducible apply State.resetFill_keeps
    | intro _ _ _ | intro _ _ | with_reducible refine pair_keeps (by with_reducible assumption) ?_ | dsimp only | split

theorem State.issue_keeps {s : State} {pc : Nat} {c : MemCmd} (cl : Closed 8192 P) (h0 : P s) : P (State.issue s pc c) := by
  unfold State.issue
  try dsimp only
  repeat' first
    | with_reducible assumption | (with_reducible apply Closed.mono cl; decide) | with_reducible apply State.modPc_keeps
    | intro _ _ _ | intro _ _ | with_reducible refine pair_keeps (by with_reducible assumption) ?_ | dsimp only | split

theorem State.wakePc_keeps {s : State} {pc : Nat} {req : Nat} (cl : Closed 1152921504606855168 P) (h0 : P s) :
    P (State.wakePc s pc req) := by
  unfold State.wakePc
  try dsimp only
  repeat' first
    | with_reducible assumption | (with_reducible apply Closed.mono cl; decide) | (with_reducible apply State.put_keeps cl)
    | (with_reducible apply A.MEM_CH_STATE_in; decide) | with_reducible apply State.issue_keeps
    | with_reducible apply State.modPc_keeps | intro _ _ _ | intro _ _
    | with_reducible refine pair_keeps (by with_reducible assumption) ?_ | dsimp only | split

theorem State.closeRow_keeps {s : State} {pc : Nat} {b : Nat} {req : Nat} (cl : Closed 24576 P) (h0 : P s) :
    P (State.closeRow s pc b req) := by
  unfold State.closeRow
  try dsimp only
  repeat' first
    | with_reducible assumption | (with_reducible apply Closed.mono cl; decide) | with_reducible apply State.issue_keeps
    | with_reducible apply State.modBk_keeps | intro _ _ _ | intro _ _
    | with_reducible refine pair_keeps (by with_reducible assumption) ?_ | dsimp only | split

theorem State.neighbourRefresh_keeps {s : State} {pc : Nat} {b : Nat} (cl : Closed 1152921504606873600 P) (h0 : P s) :
    P (State.neighbourRefresh s pc b) := by
  unfold State.neighbourRefresh
  try dsimp only
  repeat' first
    | with_reducible assumption | (with_reducible apply Closed.mono cl; decide) | (with_reducible apply State.count_keeps cl)
    | (with_reducible apply A.MEM_NREF_ROWS_in; decide) | with_reducible apply State.closeRow_keeps
    | with_reducible apply each_keeps | with_reducible apply State.issue_keeps | with_reducible apply State.cenPc_keeps
    | with_reducible apply State.modBk_keeps | intro _ _ _ | intro _ _
    | with_reducible refine pair_keeps (by with_reducible assumption) ?_ | dsimp only | split

theorem State.activate_keeps {s : State} {pc : Nat} {b : Nat} {r : Nat} {req : Nat} (cl : Closed 1152921504606873600 P) (h0 : P s) :
    P (State.activate s pc b r req) := by
  unfold State.activate
  try dsimp only
  repeat' first
    | with_reducible assumption | (with_reducible apply Closed.mono cl; decide) | (with_reducible apply State.count_keeps cl)
    | (with_reducible apply A.MEM_ACTS_in; decide) | (with_reducible apply A.MEM_TALLY_TRIG_in; decide)
    | with_reducible apply State.closeRow_keeps | with_reducible apply State.neighbourRefresh_keeps
    | with_reducible apply State.cenPc_keeps | with_reducible apply State.issue_keeps | with_reducible apply State.modBk_keeps
    | intro _ _ _ | intro _ _ | with_reducible refine pair_keeps (by with_reducible assumption) ?_ | dsimp only | split

theorem State.openFor_keeps {s : State} {pc : Nat} {b : Nat} {r : Nat} {req : Nat} (cl : Closed 1152921504607397888 P) (h0 : P s) :
    P (State.openFor s pc b r req) := by
  unfold State.openFor
  try dsimp only
  repeat' first
    | with_reducible assumption | (with_reducible apply Closed.mono cl; decide) | (with_reducible apply State.count_keeps cl)
    | (with_reducible apply A.MEM_HITS_in; decide) | with_reducible apply withDrv_keeps | with_reducible apply State.wakePc_keeps
    | with_reducible apply State.cenPc_keeps | with_reducible apply State.activate_keeps | intro _ _ _ | intro _ _
    | with_reducible refine pair_keeps (by with_reducible assumption) ?_ | dsimp only | split

theorem State.sampleReq_keeps {s : State} {pc : Nat} {q : MemReq} (cl : Closed 34359740416 P) (h0 : P s) :
    P (State.sampleReq s pc q) := by
  unfold State.sampleReq
  try dsimp only
  repeat' first
    | with_reducible assumption | (with_reducible apply Closed.mono cl; decide) | with_reducible apply withCen_keeps
    | with_reducible apply State.drawn_keeps | intro _ _ _ | intro _ _
    | with_reducible refine pair_keeps (by with_reducible assumption) ?_ | dsimp only | split

theorem State.readUnit_keeps {s : State} {q : MemReq} {pc : Nat} {page : Nat} {hint : Bool} (cl : Closed 3458764548180830208 P) (h0 : P s) :
    P (State.readUnit s q pc page hint).1 := by
  unfold State.readUnit
  try dsimp only
  repeat' first
    | with_reducible assumption | (with_reducible apply Closed.mono cl; decide) | (with_reducible apply State.count_keeps cl)
    | (with_reducible apply A.MEM_CE_in; decide) | (with_reducible apply A.MEM_POISON_RD_in; decide)
    | (with_reducible apply A.MEM_UNWRITTEN_RD_in; decide) | with_reducible apply State.cenPc_keeps
    | with_reducible apply State.openFor_keeps | with_reducible apply State.sampleReq_keeps
    | with_reducible apply State.issue_keeps | with_reducible apply State.modBk_keeps | intro _ _ _ | intro _ _
    | with_reducible refine pair_keeps (by with_reducible assumption) ?_ | dsimp only | split

theorem State.writeUnit_keeps {s : State} {q : MemReq} {pc : Nat} {page : Nat} {hint : Bool} (cl : Closed 3458764549791442944 P) (h0 : P s) :
    P (State.writeUnit s q pc page hint) := by
  unfold State.writeUnit
  try dsimp only
  repeat' first
    | with_reducible assumption | (with_reducible apply Closed.mono cl; decide) | (with_reducible apply State.put_keeps cl)
    | (with_reducible apply A.MEM_FLIP_ADDR_in; decide) | (with_reducible apply A.MEM_FLIP_CTRL_in; decide)
    | with_reducible apply State.cenPc_keeps | with_reducible apply State.openFor_keeps
    | with_reducible apply State.sampleReq_keeps | with_reducible apply State.fillGroup_keeps | with_reducible apply each_keeps
    | with_reducible apply putCell_keeps | with_reducible apply State.modPc_keeps | with_reducible apply State.modBk_keeps
    | with_reducible apply State.issue_keeps | intro _ _ _ | intro _ _
    | with_reducible refine pair_keeps (by with_reducible assumption) ?_ | dsimp only | split

theorem State.answerFenced_keeps {s : State} {pc : Nat} {req : Nat} {wr : Bool} (cl : Closed 2305843026393563136 P) (h0 : P s) :
    P (State.answerFenced s pc req wr) := by
  unfold State.answerFenced
  try dsimp only
  repeat' first
    | with_reducible assumption | (with_reducible apply Closed.mono cl; decide) | (with_reducible apply State.count_keeps cl)
    | (with_reducible apply A.MEM_FENCED_REQ_in; decide) | with_reducible apply State.emit_keeps | intro _ _ _ | intro _ _
    | with_reducible refine pair_keeps (by with_reducible assumption) ?_ | dsimp only | split

theorem State.freezePc_keeps {s : State} {pc : Nat} {cause : Nat} {q : MemReq} {col : Bool} (cl : Closed 6919780844634638592 P) (h0 : P s) :
    P (State.freezePc s pc cause q col) := by
  unfold State.freezePc
  try dsimp only
  repeat' first
    | with_reducible assumption | (with_reducible apply Closed.mono cl; decide)
    | (with_reducible apply State.putBytes_keeps A.MEM_FREEZE_REC_range cl (by decide))
    | (with_reducible apply State.put_keeps cl) | (with_reducible apply A.MEM_INTEG_STATE_in; decide)
    | with_reducible apply State.raise_keeps | intro _ _ _ | intro _ _
    | with_reducible refine pair_keeps (by with_reducible assumption) ?_ | dsimp only | split

theorem State.copyRow_keeps {s : State} {pc : Nat} {b : Nat} {src : Nat} {dst : Nat} (cl : Closed 1610612736 P) (h0 : P s) :
    P (State.copyRow s pc b src dst) := by
  unfold State.copyRow
  try dsimp only
  repeat' first
    | with_reducible assumption | (with_reducible apply Closed.mono cl; decide) | with_reducible apply each_keeps
    | with_reducible apply State.storeByte_keeps | with_reducible apply State.storePoison_keeps | intro _ _ _ | intro _ _
    | with_reducible refine pair_keeps (by with_reducible assumption) ?_ | dsimp only | split

theorem State.spareRow_keeps {s : State} {pc : Nat} {b : Nat} {r : Nat} {i : Nat} {nvFail : Bool} (cl : Closed 2305843010824323080 P) (h0 : P s) :
    P (State.spareRow s pc b r i nvFail) := by
  unfold State.spareRow
  try dsimp only
  repeat' first
    | with_reducible assumption | (with_reducible apply Closed.mono cl; decide) | (with_reducible apply State.put_keeps cl)
    | (with_reducible apply A.MEM_TSV_SPARE_in; decide) | with_reducible apply State.copyRow_keeps
    | with_reducible apply State.modBk_keeps | with_reducible apply withNv_keeps | intro _ _ _ | intro _ _
    | with_reducible refine pair_keeps (by with_reducible assumption) ?_ | dsimp only | split

theorem State.steerTsv_keeps {s : State} {pc : Nat} {tsv : Nat} {i : Nat} (cl : Closed 2305843009213693952 P) (h0 : P s) :
    P (State.steerTsv s pc tsv i) := by
  unfold State.steerTsv
  try dsimp only
  repeat' first
    | with_reducible assumption | (with_reducible apply Closed.mono cl; decide) | (with_reducible apply State.put_keeps cl)
    | (with_reducible apply A.MEM_TSV_SPARE_in; decide) | intro _ _ _ | intro _ _
    | with_reducible refine pair_keeps (by with_reducible assumption) ?_ | dsimp only | split

theorem State.quietPc_keeps {s : State} {pc : Nat} (cl : Closed 1152921504606873600 P) (h0 : P s) : P (State.quietPc s pc) := by
  unfold State.quietPc
  try dsimp only
  repeat' first
    | with_reducible assumption | (with_reducible apply Closed.mono cl; decide) | with_reducible apply State.modPc_keeps
    | with_reducible apply each_keeps | with_reducible apply State.closeRow_keeps
    | with_reducible apply State.neighbourRefresh_keeps | with_reducible apply State.modBk_keeps
    | with_reducible apply State.issue_keeps | intro _ _ _ | intro _ _
    | with_reducible refine pair_keeps (by with_reducible assumption) ?_ | dsimp only | split

theorem State.enterSelfRefresh_keeps {s : State} (cl : Closed 1152921504606863360 P) (h0 : P s) :
    P (State.enterSelfRefresh s) := by
  unfold State.enterSelfRefresh
  try dsimp only
  repeat' first
    | with_reducible assumption | (with_reducible apply Closed.mono cl; decide) | (with_reducible apply State.put_keeps cl)
    | (with_reducible apply A.MEM_CH_STATE_in; decide) | with_reducible apply each_keeps | with_reducible apply State.modBk_keeps
    | intro _ _ _ | intro _ _ | with_reducible refine pair_keeps (by with_reducible assumption) ?_ | dsimp only | split

theorem State.leaveSelfRefresh_keeps {s : State} (cl : Closed 1152921504606871552 P) (h0 : P s) :
    P (State.leaveSelfRefresh s) := by
  unfold State.leaveSelfRefresh
  try dsimp only
  repeat' first
    | with_reducible assumption | (with_reducible apply Closed.mono cl; decide) | (with_reducible apply State.put_keeps cl)
    | (with_reducible apply A.MEM_CH_STATE_in; decide) | with_reducible apply each_keeps | with_reducible apply State.issue_keeps
    | with_reducible apply State.modPc_keeps | with_reducible apply State.modBk_keeps | intro _ _ _ | intro _ _
    | with_reducible refine pair_keeps (by with_reducible assumption) ?_ | dsimp only | split

end Sys2Proof.Machine
end

