-- ==== Sys2Proof/Laws/Keeps/Evidence.lean ====
section
/-!
SUPPORT. The updates that each operation of Machine/Evidence.lean makes: one law for each.
-/
namespace Sys2Proof.Machine

variable {P : State → Prop}
theorem imapFld_g {m c : Nat} (h : m.testBit 75 = true) : InGroup m (imapFld c).off :=
  ofGroup (A.EVID_IMAP_group _) h


theorem State.stackPut_keeps {s : State} {req : Nat} {k : Nat} {a : Nat} {bs : Bytes} (cl : Closed 3458764566971312128 P) (h0 : P s) :
    P (State.stackPut s req k a bs).1 := by
  unfold State.stackPut
  try dsimp only
  repeat' first
    | with_reducible assumption | (with_reducible apply Closed.mono cl; decide) | with_reducible apply State.answerFenced_keeps
    | with_reducible apply State.writeUnit_keeps | with_reducible refine foldl_keeps ?_ ?_
    | with_reducible refine foldlFst_keeps ?_ ?_ | intro _ _ _ | intro _ _
    | with_reducible refine pair_keeps (by with_reducible assumption) ?_ | dsimp only | split

theorem State.modRing_keeps {s : State} {r : Nat} {f : Ring → Ring} (cl : Closed 4096 P) (h0 : P s) :
    P (State.modRing s r f) := by
  unfold State.modRing
  try dsimp only
  repeat' first
    | with_reducible assumption | (with_reducible apply Closed.mono cl; decide) | with_reducible apply withEvid_keeps
    | intro _ _ _ | intro _ _ | with_reducible refine pair_keeps (by with_reducible assumption) ?_ | dsimp only | split

theorem State.markChunk_keeps {s : State} {m : Nat} {c : Nat} (cl : Closed 37778931862957161709568 P) (h0 : P s) :
    P (State.markChunk s m c) := by
  unfold State.markChunk
  try dsimp only
  repeat' first
    | with_reducible assumption | (with_reducible apply Closed.mono cl; decide) | (with_reducible apply State.put_keeps cl)
    | (with_reducible apply imapFld_g <;> decide) | (with_reducible apply A.EVID_SEG_in; decide)
    | with_reducible apply each_keeps | intro _ _ _ | intro _ _
    | with_reducible refine pair_keeps (by with_reducible assumption) ?_ | dsimp only | split

theorem State.markPc_keeps {s : State} {m : Nat} {pc : Nat} {p : Nat → Bool} (cl : Closed 37778931862957161709568 P) (h0 : P s) :
    P (State.markPc s m pc p) := by
  unfold State.markPc
  try dsimp only
  repeat' first
    | with_reducible assumption | (with_reducible apply Closed.mono cl; decide) | with_reducible apply each_keeps
    | with_reducible apply State.markChunk_keeps | intro _ _ _ | intro _ _
    | with_reducible refine pair_keeps (by with_reducible assumption) ?_ | dsimp only | split

theorem State.markChunks_keeps {s : State} {m : Nat} {p : Nat → Nat → Bool} (cl : Closed 37778931862957161709568 P) (h0 : P s) :
    P (State.markChunks s m p) := by
  unfold State.markChunks
  try dsimp only
  repeat' first
    | with_reducible assumption | (with_reducible apply Closed.mono cl; decide) | with_reducible apply each_keeps
    | with_reducible apply State.markChunk_keeps | intro _ _ _ | intro _ _
    | with_reducible refine pair_keeps (by with_reducible assumption) ?_ | dsimp only | split

theorem State.beginChunk_keeps {s : State} {r : Nat} {c : Nat} (cl : Closed 37778931862957161713664 P) (h0 : P s) :
    P (State.beginChunk s r c) := by
  unfold State.beginChunk
  try dsimp only
  repeat' first
    | with_reducible assumption | (with_reducible apply Closed.mono cl; decide) | (with_reducible apply State.put_keeps cl)
    | (with_reducible apply imapFld_g <;> decide) | (with_reducible apply A.EVID_RING_STATE_in; decide)
    | with_reducible apply State.modRing_keeps | intro _ _ _ | intro _ _
    | with_reducible refine pair_keeps (by with_reducible assumption) ?_ | dsimp only | split

theorem State.nextChunk_keeps {s : State} {r : Nat} (cl : Closed 37778931862957161713664 P) (h0 : P s) :
    P (State.nextChunk s r) := by
  unfold State.nextChunk
  try dsimp only
  repeat' first
    | with_reducible assumption | (with_reducible apply Closed.mono cl; decide) | (with_reducible apply State.put_keeps cl)
    | (with_reducible apply A.EVID_RING_STATE_in; decide) | with_reducible apply State.beginChunk_keeps | intro _ _ _ | intro _ _
    | with_reducible refine pair_keeps (by with_reducible assumption) ?_ | dsimp only | split

theorem State.putRecord_keeps {s : State} {r : Nat} {rec_ : Bytes} (cl : Closed 37782390627524133025792 P) (h0 : P s) :
    P (State.putRecord s r rec_) := by
  unfold State.putRecord
  try dsimp only
  repeat' first
    | with_reducible assumption | (with_reducible apply Closed.mono cl; decide) | (with_reducible apply State.count_keeps cl)
    | (with_reducible apply State.put_keeps cl) | (with_reducible apply A.EVID_DISCARD_in; decide)
    | (with_reducible apply A.EVID_RECORDS_in; decide) | (with_reducible apply A.EVID_RING_SEQ_in; decide)
    | with_reducible apply State.stackPut_keeps | with_reducible apply State.markChunk_keeps | with_reducible apply when_keeps
    | with_reducible apply State.modRing_keeps | with_reducible apply State.cenFab_keeps | intro _ _ _ | intro _ _
    | with_reducible refine pair_keeps (by with_reducible assumption) ?_ | dsimp only | split

theorem State.padChunk_keeps {s : State} {r : Nat} (cl : Closed 37782390627524133025792 P) (h0 : P s) :
    P (State.padChunk s r) := by
  unfold State.padChunk
  try dsimp only
  repeat' first
    | with_reducible assumption | (with_reducible apply Closed.mono cl; decide) | with_reducible apply State.drawn_keeps
    | with_reducible apply State.putRecord_keeps | intro _ _ _ | intro _ _
    | with_reducible refine pair_keeps (by with_reducible assumption) ?_ | dsimp only | split

theorem State.stretch_keeps {s : State} {r : Nat} {k : Nat} (cl : Closed 4096 P) (h0 : P s) : P (State.stretch s r k) := by
  unfold State.stretch
  try dsimp only
  repeat' first
    | with_reducible assumption | (with_reducible apply Closed.mono cl; decide) | with_reducible apply withEvid_keeps
    | intro _ _ _ | intro _ _ | with_reducible refine pair_keeps (by with_reducible assumption) ?_ | dsimp only | split

theorem State.freezeSeg_keeps {s : State} {k : Nat} {short : Bool} {atRecord : Bool} (cl : Closed 37782392879323946711296 P) (h0 : P s) :
    P (State.freezeSeg s k short atRecord) := by
  unfold State.freezeSeg
  try dsimp only
  repeat' first
    | with_reducible assumption | (with_reducible apply Closed.mono cl; decide) | (with_reducible apply State.put_keeps cl)
    | (with_reducible apply A.EVID_SEG_in; decide) | (with_reducible apply A.EVID_SEG_LAST_SEQ_in; decide)
    | (with_reducible apply A.EVID_SEG_W1_in; decide) | (with_reducible apply A.EVID_RING_STATE_in; decide)
    | with_reducible apply State.padChunk_keeps | with_reducible apply withEvid_keeps | with_reducible apply State.raise_keeps
    | with_reducible apply State.nextChunk_keeps | intro _ _ _ | intro _ _
    | with_reducible refine pair_keeps (by with_reducible assumption) ?_ | dsimp only | split

theorem State.shortCheck_keeps {s : State} {r : Nat} (cl : Closed 37782392879323946711296 P) (h0 : P s) :
    P (State.shortCheck s r) := by
  unfold State.shortCheck
  try dsimp only
  repeat' first
    | with_reducible assumption | (with_reducible apply Closed.mono cl; decide) | with_reducible apply State.freezeSeg_keeps
    | intro _ _ _ | intro _ _ | with_reducible refine pair_keeps (by with_reducible assumption) ?_ | dsimp only | split

theorem State.record_keeps {s : State} {r : Nat} {typ : Nat} {port : Nat} {flags : Nat} {orig : Nat} {body : Bytes} (cl : Closed 37782392879323946711296 P) (h0 : P s) :
    P (State.record s r typ port flags orig body) := by
  unfold State.record
  try dsimp only
  repeat' first
    | with_reducible assumption | (with_reducible apply Closed.mono cl; decide) | with_reducible apply State.shortCheck_keeps
    | with_reducible apply State.nextChunk_keeps | with_reducible apply State.padChunk_keeps
    | with_reducible apply State.putRecord_keeps | intro _ _ _ | intro _ _
    | with_reducible refine pair_keeps (by with_reducible assumption) ?_ | dsimp only | split

theorem State.mirror_keeps {s : State} {port : Nat} {bytes : Bytes} {errored : Bool} (cl : Closed 37782392879323946711296 P) (h0 : P s) :
    P (State.mirror s port bytes errored) := by
  unfold State.mirror
  try dsimp only
  repeat' first
    | with_reducible assumption | (with_reducible apply Closed.mono cl; decide) | (with_reducible apply State.count_keeps cl)
    | (with_reducible apply A.EVID_NOT_REC_in; decide) | with_reducible apply State.cenPort_keeps
    | with_reducible apply State.record_keeps | with_reducible apply withEvid_keeps | with_reducible apply State.cenFab_keeps
    | with_reducible apply State.modRing_keeps | with_reducible apply State.raiseEvidBudget_keeps | intro _ _ _ | intro _ _
    | with_reducible refine pair_keeps (by with_reducible assumption) ?_ | dsimp only | split

theorem State.trigger_keeps {s : State} {r : Nat} {src : Nat} (cl : Closed 37782392879323946711296 P) (h0 : P s) :
    P (State.trigger s r src) := by
  unfold State.trigger
  try dsimp only
  repeat' first
    | with_reducible assumption | (with_reducible apply Closed.mono cl; decide) | (with_reducible apply State.count_keeps cl)
    | (with_reducible apply State.put_keeps cl) | (with_reducible apply State.putWide_keeps cl)
    | (with_reducible apply A.EVID_TRIG_REFUSED_in; decide) | (with_reducible apply A.EVID_SEG_in; decide)
    | (with_reducible apply A.EVID_SEG_W1_in; decide) | (with_reducible apply A.EVID_SEG_FIRST_SEQ_in; decide)
    | (with_reducible apply A.EVID_SEG_LAST_SEQ_in; decide) | (with_reducible apply A.EVID_SEG_POS_in; decide)
    | (with_reducible apply A.EVID_SEG_POS_in4; decide) | (with_reducible apply A.EVID_SEG_TIME_in; decide)
    | (with_reducible apply A.EVID_SEG_TIME_in4; decide) | (with_reducible apply A.EVID_RING_STATE_in; decide) | intro t e he ht
    | (simp only [List.mem_cons, List.not_mem_nil, or_false] at he) | (rcases he with he | he) | subst he
    | with_reducible apply State.raiseTrigRefused_keeps | with_reducible apply State.record_keeps
    | with_reducible apply State.stretch_keeps | with_reducible apply each_mem | with_reducible apply State.shortCheck_keeps
    | with_reducible refine foldl_keeps ?_ ?_ | with_reducible refine foldlFst_keeps ?_ ?_ | intro _ _ _ | intro _ _
    | with_reducible refine pair_keeps (by with_reducible assumption) ?_ | dsimp only | split

theorem State.seekRing_keeps {s : State} {r : Nat} (cl : Closed 37778931862957161709568 P) (h0 : P s) :
    P (State.seekRing s r) := by
  unfold State.seekRing
  try dsimp only
  repeat' first
    | with_reducible assumption | (with_reducible apply Closed.mono cl; decide) | (with_reducible apply State.put_keeps cl)
    | (with_reducible apply A.EVID_RING_STATE_in; decide) | intro _ _ _ | intro _ _
    | with_reducible refine pair_keeps (by with_reducible assumption) ?_ | dsimp only | split

theorem State.firstChunk_keeps {s : State} {r : Nat} (cl : Closed 37782392879323946711296 P) (h0 : P s) :
    P (State.firstChunk s r) := by
  unfold State.firstChunk
  try dsimp only
  repeat' first
    | with_reducible assumption | (with_reducible apply Closed.mono cl; decide) | with_reducible apply State.beginChunk_keeps
    | with_reducible apply State.shortCheck_keeps | with_reducible apply State.nextChunk_keeps | intro _ _ _ | intro _ _
    | with_reducible refine pair_keeps (by with_reducible assumption) ?_ | dsimp only | split

theorem State.startRing_keeps {s : State} {r : Nat} (cl : Closed 37782392879323946711296 P) (h0 : P s) :
    P (State.startRing s r) := by
  unfold State.startRing
  try dsimp only
  repeat' first
    | with_reducible assumption | (with_reducible apply Closed.mono cl; decide) | (with_reducible apply State.put_keeps cl)
    | (with_reducible apply A.EVID_RING_STATE_in; decide) | with_reducible apply State.seekRing_keeps
    | with_reducible apply State.modRing_keeps | with_reducible apply State.firstChunk_keeps
    | with_reducible apply State.record_keeps | intro _ _ _ | intro _ _
    | with_reducible refine pair_keeps (by with_reducible assumption) ?_ | dsimp only | split

theorem State.stopRing_keeps {s : State} {r : Nat} (cl : Closed 37782392879323946711296 P) (h0 : P s) :
    P (State.stopRing s r) := by
  unfold State.stopRing
  try dsimp only
  repeat' first
    | with_reducible assumption | (with_reducible apply Closed.mono cl; decide) | (with_reducible apply State.put_keeps cl)
    | (with_reducible apply A.EVID_RING_STATE_in; decide) | with_reducible apply State.freezeSeg_keeps
    | with_reducible apply State.modRing_keeps | intro _ _ _ | intro _ _
    | with_reducible refine pair_keeps (by with_reducible assumption) ?_ | dsimp only | split

theorem State.loseSegs_keeps {s : State} (cl : Closed 37778934114774155266304 P) (h0 : P s) : P (State.loseSegs s) := by
  unfold State.loseSegs
  try dsimp only
  repeat' first
    | with_reducible assumption | (with_reducible apply Closed.mono cl; decide) | (with_reducible apply State.put_keeps cl)
    | (with_reducible apply A.EVID_SEG_in; decide) | with_reducible apply each_keeps
    | with_reducible apply State.raiseSegLost_keeps | intro _ _ _ | intro _ _
    | with_reducible refine pair_keeps (by with_reducible assumption) ?_ | dsimp only | split

theorem State.clearEvidence_keeps {s : State} (cl : Closed 37778931862957161709568 P) (h0 : P s) : P (State.clearEvidence s) := by
  unfold State.clearEvidence
  try dsimp only
  repeat' first
    | with_reducible assumption | (with_reducible apply Closed.mono cl; decide)
    | (with_reducible apply State.dropWords_keeps A.EVID_IMAP_range cl (by decide)) | (with_reducible apply putWord_keeps cl)
    | (with_reducible apply A.EVID_SEG_in; decide) | (with_reducible apply A.EVID_SEG_W1_in; decide)
    | (with_reducible apply A.EVID_SEG_TIME_in; decide) | (with_reducible apply A.EVID_SEG_TIME_in4; decide)
    | (with_reducible apply A.EVID_SEG_POS_in; decide) | (with_reducible apply A.EVID_SEG_POS_in4; decide)
    | (with_reducible apply A.EVID_SEG_FIRST_SEQ_in; decide) | (with_reducible apply A.EVID_SEG_LAST_SEQ_in; decide)
    | intro t e he ht | (simp only [List.mem_cons, List.not_mem_nil, or_false] at he) | (rcases he with he | he) | subst he
    | with_reducible apply each_mem | intro _ _ _ | intro _ _
    | with_reducible refine pair_keeps (by with_reducible assumption) ?_ | dsimp only | split

end Sys2Proof.Machine
end

