-- ==== Sys2Proof/Laws/Keeps/Ports.lean ====
section
/-!
SUPPORT. The updates that each operation of Machine/Ports.lean makes: one law for each.
-/
namespace Sys2Proof.Machine

variable {P : State → Prop}
theorem calRunning_g {m u : Nat} (h1 : m.testBit 57 = true) (h2 : m.testBit 64 = true) :
    InGroup m (calRunning u).off := by
  unfold calRunning
  split
  · exact ofGroup (A.PORT_CAL_STATE_group _) h1
  · exact ofGroup (A.MEM_CAL_STATE_group _ _) h2

theorem calDue_g {m u : Nat} (h1 : m.testBit 57 = true) (h2 : m.testBit 64 = true) :
    InGroup m (calDue u).off := by
  unfold calDue
  split
  · exact ofGroup (A.PORT_CAL_STATE_group _) h1
  · exact ofGroup (A.MEM_CAL_STATE_group _ _) h2

theorem calFailed_g {m u : Nat} (h1 : m.testBit 57 = true) (h2 : m.testBit 64 = true) :
    InGroup m (calFailed u).off := by
  unfold calFailed
  split
  · exact ofGroup (A.PORT_CAL_STATE_group _) h1
  · exact ofGroup (A.MEM_CAL_STATE_group _ _) h2

theorem calFailStage_g {m u : Nat} (h1 : m.testBit 57 = true) (h2 : m.testBit 64 = true) :
    InGroup m (calFailStage u).off := by
  unfold calFailStage
  split
  · exact ofGroup (A.PORT_CAL_STATE_group _) h1
  · exact ofGroup (A.MEM_CAL_STATE_group _ _) h2

theorem calTLast_g {m u : Nat} (h1 : m.testBit 57 = true) (h2 : m.testBit 64 = true) :
    InGroup m (calTLast u).off := by
  unfold calTLast
  split
  · exact ofGroup (A.PORT_CAL_STATE_group _) h1
  · exact ofGroup (A.MEM_CAL_STATE_group _ _) h2

theorem trimRegs_g {m u a : Nat} (h : a ∈ trimRegs u) (h1 : m.testBit 57 = true) (h2 : m.testBit 64 = true) :
    InGroup m a := by
  unfold trimRegs at h
  split at h
  · simp only [List.mem_append, List.mem_map, List.mem_singleton] at h
    rcases h with ⟨k, _, rfl⟩ | rfl
    · exact ofGroup (A.PORT_TRIM_ADC_group _ _) h1
    · exact ofGroup (A.PORT_TRIM_HYB_group _) h1
  · simp only [List.mem_map] at h
    obtain ⟨k, _, rfl⟩ := h
    exact ofGroup (A.MEM_TRIM_group _ _ _) h2


theorem State.modLn_keeps {s : State} {n : Nat} {f : Line → Line} (cl : Closed 32768 P) (h0 : P s) : P (State.modLn s n f) := by
  unfold State.modLn
  try dsimp only
  repeat' first
    | with_reducible assumption | (with_reducible apply Closed.mono cl; decide) | with_reducible apply withLine_keeps
    | intro _ _ _ | intro _ _ | with_reducible refine pair_keeps (by with_reducible assumption) ?_ | dsimp only | split

theorem State.modPd_keeps {s : State} {n : Nat} {f : Pad → Pad} (cl : Closed 65536 P) (h0 : P s) : P (State.modPd s n f) := by
  unfold State.modPd
  try dsimp only
  repeat' first
    | with_reducible assumption | (with_reducible apply Closed.mono cl; decide) | with_reducible apply withPad_keeps
    | intro _ _ _ | intro _ _ | with_reducible refine pair_keeps (by with_reducible assumption) ?_ | dsimp only | split

theorem State.modHl_keeps {s : State} {m : Nat} {f : Lane → Lane} (cl : Closed 131072 P) (h0 : P s) : P (State.modHl s m f) := by
  unfold State.modHl
  try dsimp only
  repeat' first
    | with_reducible assumption | (with_reducible apply Closed.mono cl; decide) | with_reducible apply withLane_keeps
    | intro _ _ _ | intro _ _ | with_reducible refine pair_keeps (by with_reducible assumption) ?_ | dsimp only | split

theorem State.modCal_keeps {s : State} {u : Nat} {f : Cal → Cal} (cl : Closed 8388608 P) (h0 : P s) : P (State.modCal s u f) := by
  unfold State.modCal
  try dsimp only
  repeat' first
    | with_reducible assumption | (with_reducible apply Closed.mono cl; decide) | with_reducible apply withCal_keeps
    | intro _ _ _ | intro _ _ | with_reducible refine pair_keeps (by with_reducible assumption) ?_ | dsimp only | split

theorem State.showRuns_keeps {s : State} (cl : Closed 2361183241434822606848 P) (h0 : P s) : P (State.showRuns s) := by
  unfold State.showRuns
  try dsimp only
  repeat' first
    | with_reducible assumption | (with_reducible apply Closed.mono cl; decide) | (with_reducible apply State.put_keeps cl)
    | (with_reducible apply A.THM_CAL_STATUS_in; decide) | intro _ _ _ | intro _ _
    | with_reducible refine pair_keeps (by with_reducible assumption) ?_ | dsimp only | split

theorem State.dropRun_keeps {s : State} {u : Nat} (cl : Closed 2379774100696616402944 P) (h0 : P s) : P (State.dropRun s u) := by
  unfold State.dropRun
  try dsimp only
  repeat' first
    | with_reducible assumption | (with_reducible apply Closed.mono cl; decide) | (with_reducible apply putWord_keeps cl)
    | (with_reducible apply State.put_keeps cl) | (with_reducible apply trimRegs_g (List.of_mem_zip he).1 <;> decide)
    | (with_reducible apply calRunning_g <;> decide) | intro t e he ht
    | (simp only [List.mem_cons, List.not_mem_nil, or_false] at he) | (rcases he with he | he) | subst he
    | with_reducible apply each_mem | with_reducible apply State.showRuns_keeps | with_reducible apply State.modCal_keeps
    | intro _ _ _ | intro _ _ | with_reducible refine pair_keeps (by with_reducible assumption) ?_ | dsimp only | split

theorem State.modTv_keeps {s : State} {n : Nat} {f : Trv → Trv} (cl : Closed 262144 P) (h0 : P s) : P (State.modTv s n f) := by
  unfold State.modTv
  try dsimp only
  repeat' first
    | with_reducible assumption | (with_reducible apply Closed.mono cl; decide) | with_reducible apply withTrv_keeps
    | intro _ _ _ | intro _ _ | with_reducible refine pair_keeps (by with_reducible assumption) ?_ | dsimp only | split

theorem State.sendTrv_keeps {s : State} {n : Nat} {typ : Nat} {pass : Bool} {cause : Nat} (cl : Closed 72057611217799168 P) (h0 : P s) :
    P (State.sendTrv s n typ pass cause) := by
  unfold State.sendTrv
  try dsimp only
  repeat' first
    | with_reducible assumption | (with_reducible apply Closed.mono cl; decide) | (with_reducible apply State.count_keeps cl)
    | (with_reducible apply A.PORT_TRV_BURST_TX_in; decide) | with_reducible apply State.cenPort_keeps
    | with_reducible apply State.emit_keeps | intro _ _ _ | intro _ _
    | with_reducible refine pair_keeps (by with_reducible assumption) ?_ | dsimp only | split

theorem State.burstOk_keeps {s : State} {n : Nat} (cl : Closed 72057594037929984 P) (h0 : P s) : P (State.burstOk s n) := by
  unfold State.burstOk
  try dsimp only
  repeat' first
    | with_reducible assumption | (with_reducible apply Closed.mono cl; decide) | (with_reducible apply State.count_keeps cl)
    | (with_reducible apply A.PORT_TRV_BURST_OK_in; decide) | with_reducible apply State.cenPort_keeps | intro _ _ _ | intro _ _
    | with_reducible refine pair_keeps (by with_reducible assumption) ?_ | dsimp only | split

theorem State.oweNak_keeps {s : State} {n : Nat} {first : Nat} {run : Nat} (cl : Closed 36028797018996736 P) (h0 : P s) :
    P (State.oweNak s n first run) := by
  unfold State.oweNak
  try dsimp only
  repeat' first
    | with_reducible assumption | (with_reducible apply Closed.mono cl; decide) | (with_reducible apply State.count_keeps cl)
    | (with_reducible apply A.PORT_PAD_NAK_TX_in; decide) | with_reducible apply State.modLn_keeps | intro _ _ _ | intro _ _
    | with_reducible refine pair_keeps (by with_reducible assumption) ?_ | dsimp only | split

theorem State.oweSwap_keeps {s : State} {n : Nat} {op : Nat} {dir : Bool} {kind : Nat} {arg : Nat} {sf : Nat} (cl : Closed 32768 P) (h0 : P s) :
    P (State.oweSwap s n op dir kind arg sf) := by
  unfold State.oweSwap
  try dsimp only
  repeat' first
    | with_reducible assumption | (with_reducible apply Closed.mono cl; decide) | with_reducible apply State.modLn_keeps
    | intro _ _ _ | intro _ _ | with_reducible refine pair_keeps (by with_reducible assumption) ?_ | dsimp only | split

theorem State.nextWord_keeps {s : State} {n : Nat} (cl : Closed 34816 P) (h0 : P s) : P (State.nextWord s n).1 := by
  unfold State.nextWord
  try dsimp only
  repeat' first
    | with_reducible assumption | (with_reducible apply Closed.mono cl; decide) | with_reducible apply State.cenPort_keeps
    | with_reducible apply State.modLn_keeps | intro _ _ _ | intro _ _
    | with_reducible refine pair_keeps (by with_reducible assumption) ?_ | dsimp only | split

theorem State.putEoc_keeps {s : State} {n : Nat} {m : Eoc} (cl : Closed 34816 P) (h0 : P s) : P (State.putEoc s n m) := by
  unfold State.putEoc
  try dsimp only
  repeat' first
    | with_reducible assumption | (with_reducible apply Closed.mono cl; decide) | with_reducible apply State.cenHerd_keeps
    | with_reducible apply State.modLn_keeps | intro _ _ _ | intro _ _
    | with_reducible refine pair_keeps (by with_reducible assumption) ?_ | dsimp only | split

theorem State.sendEoc_keeps {s : State} {n : Nat} {typ : Nat} {body : Bytes} (cl : Closed 34816 P) (h0 : P s) :
    P (State.sendEoc s n typ body) := by
  unfold State.sendEoc
  try dsimp only
  repeat' first
    | with_reducible assumption | (with_reducible apply Closed.mono cl; decide) | with_reducible apply State.putEoc_keeps
    | with_reducible apply State.modLn_keeps | intro _ _ _ | intro _ _
    | with_reducible refine pair_keeps (by with_reducible assumption) ?_ | dsimp only | split

theorem State.sendWaiting_keeps {s : State} {n : Nat} {x0 : Nat} (cl : Closed 34816 P) (h0 : P s) :
    P (State.sendWaiting s n x0) := by
  induction x0 generalizing s with
  | zero => exact h0
  | succ _ ih =>
    unfold State.sendWaiting
    try dsimp only
    repeat' first
      | with_reducible assumption | (with_reducible apply Closed.mono cl; decide) | with_reducible refine ih ?_
      | with_reducible apply State.modLn_keeps | with_reducible apply State.putEoc_keeps | intro _ _ _ | intro _ _
      | with_reducible refine pair_keeps (by with_reducible assumption) ?_ | dsimp only | split

theorem State.eocRestart_keeps {s : State} {n : Nat} (cl : Closed 32768 P) (h0 : P s) : P (State.eocRestart s n) := by
  unfold State.eocRestart
  try dsimp only
  repeat' first
    | with_reducible assumption | (with_reducible apply Closed.mono cl; decide) | with_reducible apply State.modLn_keeps
    | intro _ _ _ | intro _ _ | with_reducible refine pair_keeps (by with_reducible assumption) ?_ | dsimp only | split

theorem State.eocIn_keeps {s : State} {n : Nat} {typ : Nat} {seq : Nat} (cl : Closed 34816 P) (h0 : P s) :
    P (State.eocIn s n typ seq).1 := by
  unfold State.eocIn
  try dsimp only
  repeat' first
    | with_reducible assumption | (with_reducible apply Closed.mono cl; decide) | with_reducible apply State.sendEoc_keeps
    | with_reducible apply State.modLn_keeps | intro _ _ _ | intro _ _
    | with_reducible refine pair_keeps (by with_reducible assumption) ?_ | dsimp only | split

theorem State.eocDo_keeps {s : State} {n : Nat} {typ : Nat} {seq : Nat} {f : State → State} (cl : Closed 34816 P) (hf : ∀ t, P t → P (f t)) (h0 : P s) :
    P (State.eocDo s n typ seq f) := by
  unfold State.eocDo
  try dsimp only
  repeat' first
    | with_reducible assumption | (with_reducible apply Closed.mono cl; decide) | with_reducible refine hf _ ?_
    | with_reducible apply State.eocIn_keeps | intro _ _ _ | intro _ _
    | with_reducible refine pair_keeps (by with_reducible assumption) ?_ | dsimp only | split

theorem State.eocBytesIn_keeps {s : State} {n : Nat} {bs : Bytes} (cl : Closed 9007199254773760 P) (h0 : P s) :
    P (State.eocBytesIn s n bs) := by
  unfold State.eocBytesIn
  try dsimp only
  repeat' first
    | with_reducible assumption | (with_reducible apply Closed.mono cl; decide) | (with_reducible apply State.count_keeps cl)
    | (with_reducible apply A.PORT_EOC_ERR_in; decide) | with_reducible apply State.modLn_keeps
    | with_reducible refine foldl_keeps ?_ ?_ | with_reducible refine foldlFst_keeps ?_ ?_ | intro _ _ _ | intro _ _
    | with_reducible refine pair_keeps (by with_reducible assumption) ?_ | dsimp only | split

end Sys2Proof.Machine
end

