-- ==== Sys2Proof/Laws/Keeps/Security.lean ====
section
/-!
SUPPORT. The updates that each operation of Machine/Security.lean makes: one law for each.
-/
namespace Sys2Proof.Machine

variable {P : State → Prop}

theorem State.auditAs_keeps {s : State} {kind : Nat} {role : Nat} {slot : Nat} {result : Nat} {object : Nat} (cl : Closed 75557863725914323419136 P) (h0 : P s) :
    P (State.auditAs s kind role slot result object) := by
  unfold State.auditAs
  try dsimp only
  repeat' first
    | with_reducible assumption | (with_reducible apply Closed.mono cl; decide) | (with_reducible apply putWord_keeps cl)
    | (with_reducible apply State.put_keeps cl) | (with_reducible apply A.SEC_AUDIT_in; decide)
    | (with_reducible apply A.SEC_AUDIT_HEAD_in; decide) | intro _ _ _ | intro _ _
    | with_reducible refine pair_keeps (by with_reducible assumption) ?_ | dsimp only | split

theorem State.audit_keeps {s : State} {kind : Nat} {result : Nat} {object : Nat} (cl : Closed 75557863725914323419136 P) (h0 : P s) :
    P (State.audit s kind result object) := by
  unfold State.audit
  try dsimp only
  repeat' first
    | with_reducible assumption | (with_reducible apply Closed.mono cl; decide) | with_reducible apply State.auditAs_keeps
    | intro _ _ _ | intro _ _ | with_reducible refine pair_keeps (by with_reducible assumption) ?_ | dsimp only | split

theorem State.showDebug_keeps {s : State} (cl : Closed 75557863725914323419136 P) (h0 : P s) : P (State.showDebug s) := by
  unfold State.showDebug
  try dsimp only
  repeat' first
    | with_reducible assumption | (with_reducible apply Closed.mono cl; decide) | (with_reducible apply State.put_keeps cl)
    | (with_reducible apply A.SEC_STATE_in; decide) | intro _ _ _ | intro _ _
    | with_reducible refine pair_keeps (by with_reducible assumption) ?_ | dsimp only | split

theorem State.unlockBegins_keeps {s : State} {life : Nat} (cl : Closed 113336797840688478689536 P) (h0 : P s) :
    P (State.unlockBegins s life) := by
  unfold State.unlockBegins
  try dsimp only
  repeat' first
    | with_reducible assumption | (with_reducible apply Closed.mono cl; decide) | with_reducible apply State.raise_keeps
    | with_reducible apply State.audit_keeps | with_reducible apply withEvid_keeps | with_reducible apply each_keeps
    | with_reducible apply State.markChunk_keeps | with_reducible apply State.showDebug_keeps | intro _ _ _ | intro _ _
    | with_reducible refine pair_keeps (by with_reducible assumption) ?_ | dsimp only | split

theorem State.haltEnds_keeps {s : State} (cl : Closed 2148564992 P) (h0 : P s) : P (State.haltEnds s) := by
  unfold State.haltEnds
  try dsimp only
  repeat' first
    | with_reducible assumption | (with_reducible apply Closed.mono cl; decide) | with_reducible apply withApply_keeps
    | with_reducible apply withHerder_keeps | with_reducible apply each_keeps | with_reducible apply State.modLn_keeps
    | intro _ _ _ | intro _ _ | with_reducible refine pair_keeps (by with_reducible assumption) ?_ | dsimp only | split

theorem State.unlockEnds_keeps {s : State} {life : Nat} (cl : Closed 75557865977733465544960 P) (h0 : P s) :
    P (State.unlockEnds s life) := by
  unfold State.unlockEnds
  try dsimp only
  repeat' first
    | with_reducible assumption | (with_reducible apply Closed.mono cl; decide) | with_reducible apply withEvid_keeps
    | with_reducible apply State.raise_keeps | with_reducible apply State.audit_keeps | with_reducible apply State.haltEnds_keeps
    | with_reducible apply withHerder_keeps | intro _ _ _ | intro _ _
    | with_reducible refine pair_keeps (by with_reducible assumption) ?_ | dsimp only | split

theorem State.endSession_keeps {s : State} {cause : Nat} (cl : Closed 75557865977733465545088 P) (h0 : P s) :
    P (State.endSession s cause) := by
  unfold State.endSession
  try dsimp only
  repeat' first
    | with_reducible assumption | (with_reducible apply Closed.mono cl; decide) | (with_reducible apply putWord_keeps cl)
    | (with_reducible apply A.SEC_SESSION_in; decide) | with_reducible apply State.audit_keeps
    | with_reducible apply State.unlockEnds_keeps | with_reducible apply State.raise_keeps
    | with_reducible apply State.showDebug_keeps | with_reducible apply withSec_keeps | intro _ _ _ | intro _ _
    | with_reducible refine pair_keeps (by with_reducible assumption) ?_ | dsimp only | split

theorem State.voidChallenge_keeps {s : State} (cl : Closed 75557863725914323419264 P) (h0 : P s) : P (State.voidChallenge s) := by
  unfold State.voidChallenge
  try dsimp only
  repeat' first
    | with_reducible assumption | (with_reducible apply Closed.mono cl; decide)
    | (with_reducible apply State.putBytes_keeps A.SEC_CHALLENGE_range cl (by decide)) | with_reducible apply withSec_keeps
    | intro _ _ _ | intro _ _ | with_reducible refine pair_keeps (by with_reducible assumption) ?_ | dsimp only | split

theorem State.showKeys_keeps {s : State} (cl : Closed 75557863725914323419136 P) (h0 : P s) : P (State.showKeys s) := by
  unfold State.showKeys
  try dsimp only
  repeat' first
    | with_reducible assumption | (with_reducible apply Closed.mono cl; decide) | (with_reducible apply State.put_keeps cl)
    | (with_reducible apply A.SEC_KEYS_in; decide) | intro _ _ _ | intro _ _
    | with_reducible refine pair_keeps (by with_reducible assumption) ?_ | dsimp only | split

theorem State.openSession_keeps {s : State} {role : Nat} {slot : Nat} {dbg : Nat} {life : Nat} (cl : Closed 113336797840690627254672 P) (h0 : P s) :
    P (State.openSession s role slot dbg life).1 := by
  unfold State.openSession
  try dsimp only
  repeat' first
    | with_reducible assumption | (with_reducible apply Closed.mono cl; decide) | (with_reducible apply State.put_keeps cl)
    | (with_reducible apply A.SEC_STATE_in; decide) | (with_reducible apply A.SEC_SESSION_in; decide)
    | with_reducible apply State.unlockEnds_keeps | with_reducible apply State.voidChallenge_keeps
    | with_reducible apply withSec_keeps | with_reducible apply State.audit_keeps | with_reducible apply State.unlockBegins_keeps
    | with_reducible apply State.showDebug_keeps | with_reducible apply State.auditAs_keeps
    | with_reducible apply State.raise_keeps | with_reducible refine withAo_keeps (cl.mono (by decide)) rfl ?_ | intro _ _ _
    | intro _ _ | with_reducible refine pair_keeps (by with_reducible assumption) ?_ | dsimp only | split

end Sys2Proof.Machine
end

