-- ==== Sys2Proof/Laws/Keeps/Mailbox.lean ====
section
/-!
SUPPORT. The updates that each operation of Machine/Mailbox.lean makes: one law for each.
-/
namespace Sys2Proof.Machine

variable {P : State → Prop}

theorem State.modSlot_keeps {s : State} {k : Nat} {f : Slot → Slot} (cl : Closed 64 P) (h0 : P s) : P (State.modSlot s k f) := by
  unfold State.modSlot
  try dsimp only
  repeat' first
    | with_reducible assumption | (with_reducible apply Closed.mono cl; decide) | with_reducible apply withBox_keeps
    | intro _ _ _ | intro _ _ | with_reducible refine pair_keeps (by with_reducible assumption) ?_ | dsimp only | split

theorem State.begin_keeps {s : State} {k : Nat} {work : List Nat} (cl : Closed 64 P) (h0 : P s) : P (State.begin s k work) := by
  unfold State.begin
  try dsimp only
  repeat' first
    | with_reducible assumption | (with_reducible apply Closed.mono cl; decide) | with_reducible apply State.modSlot_keeps
    | intro _ _ _ | intro _ _ | with_reducible refine pair_keeps (by with_reducible assumption) ?_ | dsimp only | split

theorem State.complete_keeps {s : State} {k : Nat} {status : Nat} {detail : Nat} {results : List Nat} (cl : Closed 6755416620927232 P) (h0 : P s) :
    P (State.complete s k status detail results) := by
  unfold State.complete
  try dsimp only
  repeat' first
    | with_reducible assumption | (with_reducible apply Closed.mono cl; decide) | (with_reducible apply putWord_keeps cl)
    | (with_reducible apply State.put_keeps cl) | (with_reducible apply A.CMD_CQ_in; decide)
    | (with_reducible apply A.CMD_CQ_PROD_in; decide) | (with_reducible apply A.CMD_SLOT_STATE_in; decide)
    | with_reducible apply each_keeps | with_reducible apply State.cenHerd_keeps | with_reducible apply State.raise_keeps
    | intro _ _ _ | intro _ _ | with_reducible refine pair_keeps (by with_reducible assumption) ?_ | dsimp only | split

theorem State.completeLogged_keeps {s : State} {k : Nat} {kind : Nat} {object : Nat} {status : Nat} {detail : Nat} {results : List Nat} (cl : Closed 75557870481330944346368 P) (h0 : P s) :
    P (State.completeLogged s k kind object status detail results) := by
  unfold State.completeLogged
  try dsimp only
  repeat' first
    | with_reducible assumption | (with_reducible apply Closed.mono cl; decide) | with_reducible apply State.complete_keeps
    | with_reducible apply State.auditAs_keeps | intro _ _ _ | intro _ _
    | with_reducible refine pair_keeps (by with_reducible assumption) ?_ | dsimp only | split

theorem State.calRunCheck_keeps {s : State} (cl : Closed 6755416629315840 P) (h0 : P s) : P (State.calRunCheck s) := by
  unfold State.calRunCheck
  try dsimp only
  repeat' first
    | with_reducible assumption | (with_reducible apply Closed.mono cl; decide) | with_reducible apply withCal_keeps
    | with_reducible apply State.complete_keeps | with_reducible apply each_keeps | with_reducible apply State.modCal_keeps
    | intro _ _ _ | intro _ _ | with_reducible refine pair_keeps (by with_reducible assumption) ?_ | dsimp only | split

theorem State.abandonCal_keeps {s : State} {u : Nat} (cl : Closed 2379780856113237330176 P) (h0 : P s) :
    P (State.abandonCal s u) := by
  unfold State.abandonCal
  try dsimp only
  repeat' first
    | with_reducible assumption | (with_reducible apply Closed.mono cl; decide) | with_reducible apply State.calRunCheck_keeps
    | with_reducible apply State.dropRun_keeps | intro _ _ _ | intro _ _
    | with_reducible refine pair_keeps (by with_reducible assumption) ?_ | dsimp only | split

theorem State.abandonRuns_keeps {s : State} (cl : Closed 2379780856113237330176 P) (h0 : P s) : P (State.abandonRuns s) := by
  unfold State.abandonRuns
  try dsimp only
  repeat' first
    | with_reducible assumption | (with_reducible apply Closed.mono cl; decide) | with_reducible apply State.calRunCheck_keeps
    | with_reducible apply each_keeps | with_reducible apply State.dropRun_keeps | intro _ _ _ | intro _ _
    | with_reducible refine pair_keeps (by with_reducible assumption) ?_ | dsimp only | split

theorem State.submit_keeps {s : State} {op : Nat} (cl : Closed 6755416620927312 P) (h0 : P s) : P (State.submit s op) := by
  unfold State.submit
  try dsimp only
  repeat' first
    | with_reducible assumption | (with_reducible apply Closed.mono cl; decide) | (with_reducible apply State.put_keeps cl)
    | (with_reducible apply A.CMD_ACCEPT_in; decide) | (with_reducible apply A.CMD_SLOT_STATE_in; decide)
    | with_reducible refine withAo_keeps (cl.mono (by decide)) rfl ?_ | with_reducible apply withBox_keeps
    | with_reducible apply State.complete_keeps | intro _ _ _ | intro _ _
    | with_reducible refine pair_keeps (by with_reducible assumption) ?_ | dsimp only | split

theorem State.consume_keeps {s : State} {v : Nat} (cl : Closed 6755416620927296 P) (h0 : P s) : P (State.consume s v) := by
  unfold State.consume
  try dsimp only
  repeat' first
    | with_reducible assumption | (with_reducible apply Closed.mono cl; decide) | (with_reducible apply putWord_keeps cl)
    | (with_reducible apply State.put_keeps cl) | (with_reducible apply A.CMD_SLOT_STATE_in; decide)
    | (with_reducible apply A.CMD_CQ_CONS_in; decide) | with_reducible apply State.raise_keeps | with_reducible apply each_keeps
    | with_reducible apply State.modSlot_keeps | intro _ _ _ | intro _ _
    | with_reducible refine pair_keeps (by with_reducible assumption) ?_ | dsimp only | split

theorem State.startCommand_keeps {s : State} (cl : Closed 75557870481330944346368 P) (h0 : P s) : P (State.startCommand s) := by
  unfold State.startCommand
  try dsimp only
  repeat' first
    | with_reducible assumption | (with_reducible apply Closed.mono cl; decide) | (with_reducible apply State.put_keeps cl)
    | (with_reducible apply A.CMD_SLOT_STATE_in; decide) | with_reducible apply State.cenHerd_keeps
    | with_reducible apply State.raise_keeps | with_reducible apply State.completeLogged_keeps
    | with_reducible apply State.complete_keeps | intro _ _ _ | intro _ _
    | with_reducible refine pair_keeps (by with_reducible assumption) ?_ | dsimp only | split

theorem execCmdSubmit_keeps {val : Word} {s : State} (cl : Closed 6755416620927312 P) (h0 : P s) :
    OutIs P (execCmdSubmit val s) := by
  unfold execCmdSubmit
  try dsimp only
  repeat' first
    | with_reducible assumption | (with_reducible apply Closed.mono cl; decide) | with_reducible apply State.bar_keeps
    | with_reducible apply State.submit_keeps | with_reducible refine outIs_next ?_ | intro _ _ _ | intro _ _
    | with_reducible refine pair_keeps (by with_reducible assumption) ?_ | dsimp only | split

theorem execCmdStart_keeps {s : State} (cl : Closed 75557870481330944346368 P) (h0 : P s) : OutIs P (execCmdStart s) := by
  unfold execCmdStart
  try dsimp only
  repeat' first
    | with_reducible assumption | (with_reducible apply Closed.mono cl; decide) | with_reducible apply State.startCommand_keeps
    | with_reducible refine outIs_next ?_ | intro _ _ _ | intro _ _
    | with_reducible refine pair_keeps (by with_reducible assumption) ?_ | dsimp only | split

theorem execCmdCqConsWrite_keeps {val : Word} {s : State} (cl : Closed 6755416620927296 P) (h0 : P s) :
    OutIs P (execCmdCqConsWrite val s) := by
  unfold execCmdCqConsWrite
  try dsimp only
  repeat' first
    | with_reducible assumption | (with_reducible apply Closed.mono cl; decide) | with_reducible apply State.bar_keeps
    | with_reducible apply State.consume_keeps | with_reducible refine outIs_next ?_ | intro _ _ _ | intro _ _
    | with_reducible refine pair_keeps (by with_reducible assumption) ?_ | dsimp only | split

theorem execUnknownOpcode_keeps {slot : BitVec 6} {s : State} (cl : Closed 6755416620927232 P) (h0 : P s) :
    OutIs P (execUnknownOpcode slot s) := by
  unfold execUnknownOpcode
  try dsimp only
  repeat' first
    | with_reducible assumption | (with_reducible apply Closed.mono cl; decide) | with_reducible apply State.complete_keeps
    | with_reducible refine outIs_next ?_ | intro _ _ _ | intro _ _
    | with_reducible refine pair_keeps (by with_reducible assumption) ?_ | dsimp only | split

theorem execSessionOpen_keeps {slot : BitVec 6} {s : State} (cl : Closed 113336802344290254625168 P) (h0 : P s) :
    OutIs P (execSessionOpen slot s) := by
  unfold execSessionOpen
  try dsimp only
  repeat' first
    | with_reducible assumption | (with_reducible apply Closed.mono cl; decide) | with_reducible apply State.openSession_keeps
    | with_reducible apply State.complete_keeps | with_reducible refine outIs_next ?_ | intro _ _ _ | intro _ _
    | with_reducible refine pair_keeps (by with_reducible assumption) ?_ | dsimp only | split

theorem execSessionClose_keeps {slot : BitVec 6} {s : State} (cl : Closed 75557870481333092915584 P) (h0 : P s) :
    OutIs P (execSessionClose slot s) := by
  unfold execSessionClose
  try dsimp only
  repeat' first
    | with_reducible assumption | (with_reducible apply Closed.mono cl; decide) | with_reducible apply State.complete_keeps
    | with_reducible apply State.endSession_keeps | with_reducible refine outIs_next ?_ | intro _ _ _ | intro _ _
    | with_reducible refine pair_keeps (by with_reducible assumption) ?_ | dsimp only | split

theorem execSessionExpiry_keeps {s : State} (cl : Closed 75557865977870904498560 P) (h0 : P s) :
    OutIs P (execSessionExpiry s) := by
  unfold execSessionExpiry
  try dsimp only
  repeat' first
    | with_reducible assumption | (with_reducible apply Closed.mono cl; decide) | with_reducible apply State.endSession_keeps
    | with_reducible apply timeTo_keeps | with_reducible refine outIs_next ?_ | intro _ _ _ | intro _ _
    | with_reducible refine pair_keeps (by with_reducible assumption) ?_ | dsimp only | split

theorem State.newChallenge_keeps {s : State} (cl : Closed 75557863725948683157632 P) (h0 : P s) : P (State.newChallenge s) := by
  unfold State.newChallenge
  try dsimp only
  repeat' first
    | with_reducible assumption | (with_reducible apply Closed.mono cl; decide)
    | (with_reducible apply State.putBytes_keeps A.SEC_CHALLENGE_range cl (by decide)) | with_reducible apply State.drawn_keeps
    | with_reducible apply withSec_keeps | intro _ _ _ | intro _ _
    | with_reducible refine pair_keeps (by with_reducible assumption) ?_ | dsimp only | split

theorem execNewChal_keeps {s : State} (cl : Closed 75557863725965863026816 P) (h0 : P s) : OutIs P (execNewChal s) := by
  unfold execNewChal
  try dsimp only
  repeat' first
    | with_reducible assumption | (with_reducible apply Closed.mono cl; decide) | with_reducible apply State.bar_keeps
    | with_reducible apply State.newChallenge_keeps | with_reducible refine outIs_next ?_ | intro _ _ _ | intro _ _
    | with_reducible refine pair_keeps (by with_reducible assumption) ?_ | dsimp only | split

theorem execChallengeExpiry_keeps {s : State} (cl : Closed 75557863726051762372736 P) (h0 : P s) :
    OutIs P (execChallengeExpiry s) := by
  unfold execChallengeExpiry
  try dsimp only
  repeat' first
    | with_reducible assumption | (with_reducible apply Closed.mono cl; decide) | with_reducible apply State.voidChallenge_keeps
    | with_reducible apply timeTo_keeps | with_reducible refine outIs_next ?_ | intro _ _ _ | intro _ _
    | with_reducible refine pair_keeps (by with_reducible assumption) ?_ | dsimp only | split

theorem execLockoutEnd_keeps {s : State} (cl : Closed 75557863726051762372608 P) (h0 : P s) : OutIs P (execLockoutEnd s) := by
  unfold execLockoutEnd
  try dsimp only
  repeat' first
    | with_reducible assumption | (with_reducible apply Closed.mono cl; decide) | (with_reducible apply State.put_keeps cl)
    | (with_reducible apply A.SEC_STATE_in; decide) | with_reducible apply timeTo_keeps | with_reducible refine outIs_next ?_
    | intro _ _ _ | intro _ _ | with_reducible refine pair_keeps (by with_reducible assumption) ?_ | dsimp only | split

end Sys2Proof.Machine
end

