-- ==== Sys2Proof/Laws/Keeps/Loading.lean ====
section
/-!
SUPPORT. The updates that each operation of Machine/Loading.lean makes: one law for each.
-/
namespace Sys2Proof.Machine

variable {P : State → Prop}
theorem toneWord_g {m n p w : Nat} {rx : Bool} (h : m.testBit 58 = true) : InGroup m (toneWord n rx p w) :=
  ofGroup (A.PORT_TONE_group _ _) h
theorem toneFld_g {m n p t : Nat} {rx : Bool} (h : m.testBit 58 = true) : InGroup m (toneFld n rx p t).off :=
  toneWord_g h
theorem genFld_g {m n : Nat} {rx : Bool} (h : m.testBit 54 = true) : InGroup m (genFld n rx).off := by
  unfold genFld
  split <;> exact ofGroup (A.PORT_ILM_STATE_group _) h
theorem profFld_g {m n : Nat} {rx : Bool} (h : m.testBit 54 = true) : InGroup m (profFld n rx).off := by
  unfold profFld
  split <;> exact ofGroup (A.PORT_ILM_STATE_group _) h


theorem State.derive_keeps {s : State} {n : Nat} {rx : Bool} {p : Nat} (cl : Closed 288230376151711744 P) (h0 : P s) :
    P (State.derive s n rx p) := by
  unfold State.derive
  try dsimp only
  repeat' first
    | with_reducible assumption | (with_reducible apply Closed.mono cl; decide) | (with_reducible apply putWord_keeps cl)
    | (with_reducible apply toneWord_g <;> decide) | with_reducible apply each_keeps | intro _ _ _ | intro _ _
    | with_reducible refine pair_keeps (by with_reducible assumption) ?_ | dsimp only | split

theorem State.deriveAll_keeps {s : State} {n : Nat} {rx : Bool} (cl : Closed 288230376151711744 P) (h0 : P s) :
    P (State.deriveAll s n rx) := by
  unfold State.deriveAll
  try dsimp only
  repeat' first
    | with_reducible assumption | (with_reducible apply Closed.mono cl; decide) | with_reducible apply State.derive_keeps
    | intro _ _ _ | intro _ _ | with_reducible refine pair_keeps (by with_reducible assumption) ?_ | dsimp only | split

theorem State.setEntry_keeps {s : State} {n : Nat} {rx : Bool} {e : Nat} (cl : Closed 288230376151711744 P) (h0 : P s) :
    P (State.setEntry s n rx e) := by
  unfold State.setEntry
  try dsimp only
  repeat' first
    | with_reducible assumption | (with_reducible apply Closed.mono cl; decide) | (with_reducible apply State.put_keeps cl)
    | (with_reducible apply toneFld_g <;> decide) | intro _ _ _ | intro _ _
    | with_reducible refine pair_keeps (by with_reducible assumption) ?_ | dsimp only | split

theorem State.showLoading_keeps {s : State} {n : Nat} (cl : Closed 590313824757215133696 P) (h0 : P s) :
    P (State.showLoading s n) := by
  unfold State.showLoading
  try dsimp only
  repeat' first
    | with_reducible assumption | (with_reducible apply Closed.mono cl; decide) | (with_reducible apply State.put_keeps cl)
    | (with_reducible apply A.PORT_ILM_TONES_in; decide) | (with_reducible apply A.DRV_STATE_in; decide)
    | (with_reducible apply A.PORT_ILM_BITS_in; decide) | (with_reducible apply A.PORT_ILM_RATE_in; decide) | intro t e he ht
    | (simp only [List.mem_cons, List.not_mem_nil, or_false] at he) | (rcases he with he | he) | subst he
    | with_reducible apply each_mem | intro _ _ _ | intro _ _
    | with_reducible refine pair_keeps (by with_reducible assumption) ?_ | dsimp only | split

theorem State.showPend_keeps {s : State} {n : Nat} (cl : Closed 9444750980137799909376 P) (h0 : P s) :
    P (State.showPend s n) := by
  unfold State.showPend
  try dsimp only
  repeat' first
    | with_reducible assumption | (with_reducible apply Closed.mono cl; decide) | (with_reducible apply State.put_keeps cl)
    | (with_reducible apply A.PORT_ILM_PEND_in; decide) | (with_reducible apply A.PISTE_PORT_in; decide) | intro t e he ht
    | (simp only [List.mem_cons, List.not_mem_nil, or_false] at he) | (rcases he with he | he) | subst he
    | with_reducible apply each_mem | with_reducible refine foldl_keeps ?_ ?_ | with_reducible refine foldlFst_keeps ?_ ?_
    | intro _ _ _ | intro _ _ | with_reducible refine pair_keeps (by with_reducible assumption) ?_ | dsimp only | split

theorem State.modPend_keeps {s : State} {n : Nat} {f : List Change → List Change} (cl : Closed 9444750980137799942144 P) (h0 : P s) :
    P (State.modPend s n f) := by
  unfold State.modPend
  try dsimp only
  repeat' first
    | with_reducible assumption | (with_reducible apply Closed.mono cl; decide) | with_reducible apply State.showPend_keeps
    | with_reducible apply State.modLn_keeps | intro _ _ _ | intro _ _
    | with_reducible refine pair_keeps (by with_reducible assumption) ?_ | dsimp only | split

theorem State.dropChanges_keeps {s : State} {n : Nat} {p : Change → Bool} (cl : Closed 9444750980137799942144 P) (h0 : P s) :
    P (State.dropChanges s n p) := by
  unfold State.dropChanges
  try dsimp only
  repeat' first
    | with_reducible assumption | (with_reducible apply Closed.mono cl; decide) | with_reducible apply State.modPend_keeps
    | intro _ _ _ | intro _ _ | with_reducible refine pair_keeps (by with_reducible assumption) ?_ | dsimp only | split

theorem State.displace_keeps {s : State} {n : Nat} {losers : List Change} (cl : Closed 9444750980137799942144 P) (h0 : P s) :
    P (State.displace s n losers) := by
  unfold State.displace
  try dsimp only
  repeat' first
    | with_reducible assumption | (with_reducible apply Closed.mono cl; decide) | with_reducible apply State.dropChanges_keeps
    | with_reducible apply State.modLn_keeps | intro _ _ _ | intro _ _
    | with_reducible refine pair_keeps (by with_reducible assumption) ?_ | dsimp only | split

theorem State.announce_keeps {s : State} {n : Nat} {kind : Nat} {arg : Nat} {from_ : Nat} {dirs : List Bool} {entries : List Nat} {cap : Nat} (cl : Closed 9444750980137799942144 P) (h0 : P s) :
    P (State.announce s n kind arg from_ dirs entries cap) := by
  unfold State.announce
  try dsimp only
  repeat' first
    | with_reducible assumption | (with_reducible apply Closed.mono cl; decide) | with_reducible apply State.displace_keeps
    | with_reducible apply State.modPend_keeps | with_reducible apply each_keeps | with_reducible apply State.oweSwap_keeps
    | intro _ _ _ | intro _ _ | with_reducible refine pair_keeps (by with_reducible assumption) ?_ | dsimp only | split

theorem State.applyChange_keeps {s : State} {n : Nat} {c : Change} (cl : Closed 2970382911246604208384 P) (h0 : P s) :
    P (State.applyChange s n c) := by
  unfold State.applyChange
  try dsimp only
  repeat' first
    | with_reducible assumption | (with_reducible apply Closed.mono cl; decide) | (with_reducible apply State.put_keeps cl)
    | (with_reducible apply profFld_g <;> decide) | (with_reducible apply genFld_g <;> decide)
    | with_reducible apply State.deriveAll_keeps | with_reducible apply each_keeps | with_reducible apply State.setEntry_keeps
    | with_reducible apply State.modLn_keeps | with_reducible apply State.abandonCal_keeps
    | with_reducible apply State.derive_keeps | with_reducible apply State.cenFab_keeps
    | with_reducible apply State.showLoading_keeps | intro _ _ _ | intro _ _
    | with_reducible refine pair_keeps (by with_reducible assumption) ?_ | dsimp only | split

theorem State.revert_keeps {s : State} {n : Nat} {r : Resolve} (cl : Closed 590602055133366878208 P) (h0 : P s) :
    P (State.revert s n r) := by
  unfold State.revert
  try dsimp only
  repeat' first
    | with_reducible assumption | (with_reducible apply Closed.mono cl; decide) | (with_reducible apply State.count_keeps cl)
    | (with_reducible apply State.put_keeps cl) | (with_reducible apply A.PORT_ILM_SWAP_FAIL_in; decide)
    | (with_reducible apply genFld_g <;> decide) | (with_reducible apply profFld_g <;> decide)
    | (with_reducible apply toneFld_g <;> decide) | with_reducible apply each_keeps | with_reducible apply State.modLn_keeps
    | with_reducible apply State.showLoading_keeps | with_reducible apply State.deriveAll_keeps | intro _ _ _ | intro _ _
    | with_reducible refine pair_keeps (by with_reducible assumption) ?_ | dsimp only | split

theorem State.resolvePtag_keeps {s : State} {n : Nat} {ptag : Nat} {sf : Nat} (cl : Closed 590602055133366878208 P) (h0 : P s) :
    P (State.resolvePtag s n ptag sf) := by
  unfold State.resolvePtag
  try dsimp only
  repeat' first
    | with_reducible assumption | (with_reducible apply Closed.mono cl; decide) | with_reducible apply State.modLn_keeps
    | with_reducible apply State.revert_keeps | intro _ _ _ | intro _ _
    | with_reducible refine pair_keeps (by with_reducible assumption) ?_ | dsimp only | split

end Sys2Proof.Machine
end

