-- ==== Sys2Proof/Laws/Keeps/Paddock.lean ====
section
/-!
SUPPORT. The updates that each operation of Machine/Paddock.lean makes: one law for each.
-/
namespace Sys2Proof.Machine

variable {P : State → Prop}

theorem State.showPad_keeps {s : State} {n : Nat} (cl : Closed 36028797018963968 P) (h0 : P s) : P (State.showPad s n) := by
  unfold State.showPad
  try dsimp only
  repeat' first
    | with_reducible assumption | (with_reducible apply Closed.mono cl; decide) | (with_reducible apply State.put_keeps cl)
    | (with_reducible apply A.PORT_PAD_CAP_in; decide) | (with_reducible apply A.PORT_PAD_STATE_in; decide)
    | (with_reducible apply A.PORT_PAD_LIMIT_in; decide) | intro _ _ _ | intro _ _
    | with_reducible refine pair_keeps (by with_reducible assumption) ?_ | dsimp only | split

theorem State.showFree_keeps {s : State} (cl : Closed 36893488147419103232 P) (h0 : P s) : P (State.showFree s) := by
  unfold State.showFree
  try dsimp only
  repeat' first
    | with_reducible assumption | (with_reducible apply Closed.mono cl; decide) | (with_reducible apply State.put_keeps cl)
    | (with_reducible apply A.FAB_PAD_FREE_in; decide) | (with_reducible apply A.FAB_PAD_TOTAL_in; decide) | intro _ _ _
    | intro _ _ | with_reducible refine pair_keeps (by with_reducible assumption) ?_ | dsimp only | split

theorem State.dropGrains_keeps {s : State} {n : Nat} (cl : Closed 65536 P) (h0 : P s) : P (State.dropGrains s n) := by
  unfold State.dropGrains
  try dsimp only
  repeat' first
    | with_reducible assumption | (with_reducible apply Closed.mono cl; decide) | with_reducible apply State.modPd_keeps
    | intro _ _ _ | intro _ _ | with_reducible refine pair_keeps (by with_reducible assumption) ?_ | dsimp only | split

theorem State.dropPaddocks_keeps {s : State} {n : Nat} (cl : Closed 65536 P) (h0 : P s) : P (State.dropPaddocks s n) := by
  unfold State.dropPaddocks
  try dsimp only
  repeat' first
    | with_reducible assumption | (with_reducible apply Closed.mono cl; decide) | with_reducible apply State.modPd_keeps
    | intro _ _ _ | intro _ _ | with_reducible refine pair_keeps (by with_reducible assumption) ?_ | dsimp only | split

theorem State.place_keeps {s : State} {ports : List Nat} (cl : Closed 36929516944438132736 P) (h0 : P s) :
    P (State.place s ports).1 := by
  unfold State.place
  try dsimp only
  repeat' first
    | with_reducible assumption | (with_reducible apply Closed.mono cl; decide) | with_reducible apply each_keeps
    | with_reducible apply State.dropGrains_keeps | with_reducible apply State.modPd_keeps
    | with_reducible apply State.dropPaddocks_keeps | with_reducible apply State.showFree_keeps
    | with_reducible apply State.showPad_keeps | with_reducible refine foldl_keeps ?_ ?_
    | with_reducible refine foldlFst_keeps ?_ ?_ | intro _ _ _ | intro _ _
    | with_reducible refine pair_keeps (by with_reducible assumption) ?_ | dsimp only | split

theorem State.sendPadParams_keeps {s : State} {n : Nat} (cl : Closed 34816 P) (h0 : P s) : P (State.sendPadParams s n) := by
  unfold State.sendPadParams
  try dsimp only
  repeat' first
    | with_reducible assumption | (with_reducible apply Closed.mono cl; decide) | with_reducible apply State.sendEoc_keeps
    | intro _ _ _ | intro _ _ | with_reducible refine pair_keeps (by with_reducible assumption) ?_ | dsimp only | split

theorem State.laneHold_keeps {s : State} {m : Nat} {xoff : Bool} (cl : Closed 17179871232 P) (h0 : P s) :
    P (State.laneHold s m xoff) := by
  unfold State.laneHold
  try dsimp only
  repeat' first
    | with_reducible assumption | (with_reducible apply Closed.mono cl; decide) | with_reducible apply State.cenLane_keeps
    | with_reducible apply State.emit_keeps | intro _ _ _ | intro _ _
    | with_reducible refine pair_keeps (by with_reducible assumption) ?_ | dsimp only | split

theorem State.flowFrame_keeps {s : State} {n : Nat} {xoff : Bool} (cl : Closed 17179871232 P) (h0 : P s) :
    P (State.flowFrame s n xoff) := by
  unfold State.flowFrame
  try dsimp only
  repeat' first
    | with_reducible assumption | (with_reducible apply Closed.mono cl; decide) | with_reducible apply State.laneHold_keeps
    | intro _ _ _ | intro _ _ | with_reducible refine pair_keeps (by with_reducible assumption) ?_ | dsimp only | split

theorem State.xoff_keeps {s : State} {n : Nat} (cl : Closed 38280614012586240 P) (h0 : P s) : P (State.xoff s n) := by
  unfold State.xoff
  try dsimp only
  repeat' first
    | with_reducible assumption | (with_reducible apply Closed.mono cl; decide) | (with_reducible apply State.count_keeps cl)
    | (with_reducible apply State.put_keeps cl) | (with_reducible apply A.PORT_PAD_XOFF_in; decide)
    | (with_reducible apply A.PORT_PAD_STATE_in; decide) | with_reducible apply State.raise_keeps
    | with_reducible apply State.cenPort_keeps | with_reducible apply State.flowFrame_keeps
    | with_reducible apply State.modPd_keeps | intro _ _ _ | intro _ _
    | with_reducible refine pair_keeps (by with_reducible assumption) ?_ | dsimp only | split

theorem State.xon_keeps {s : State} {n : Nat} (cl : Closed 36028814198835200 P) (h0 : P s) : P (State.xon s n) := by
  unfold State.xon
  try dsimp only
  repeat' first
    | with_reducible assumption | (with_reducible apply Closed.mono cl; decide) | (with_reducible apply State.put_keeps cl)
    | (with_reducible apply A.PORT_PAD_STATE_in; decide) | with_reducible apply State.flowFrame_keeps | intro _ _ _ | intro _ _
    | with_reducible refine pair_keeps (by with_reducible assumption) ?_ | dsimp only | split

theorem State.fillCheck_keeps {s : State} {n : Nat} (cl : Closed 38280614012586240 P) (h0 : P s) : P (State.fillCheck s n) := by
  unfold State.fillCheck
  try dsimp only
  repeat' first
    | with_reducible assumption | (with_reducible apply Closed.mono cl; decide) | (with_reducible apply State.put_keeps cl)
    | (with_reducible apply A.PORT_PAD_FILL_in; decide) | (with_reducible apply A.PORT_PAD_PEAK_in; decide)
    | with_reducible apply State.xoff_keeps | with_reducible apply State.xon_keeps | intro _ _ _ | intro _ _
    | with_reducible refine pair_keeps (by with_reducible assumption) ?_ | dsimp only | split

theorem State.dropped_keeps {s : State} {n : Nat} {f : Fld} {k m : Nat} (cl : Closed m P) (hm : 2251816993556736 &&& m = 2251816993556736)
    (hg : InGroup m f.off) (h0 : P s) : P (State.dropped s n f k) := by
  unfold State.dropped
  split
  · exact h0
  · have c : Closed 2251816993556736 P := cl.mono hm
    exact State.cenPort_keeps (c.mono (by decide)) (State.raise_keeps (c.mono (by decide)) (State.count_keeps cl hg h0))

theorem State.nameVoid_keeps {s : State} {n : Nat} {seqs : List Nat} (cl : Closed 100352 P) (h0 : P s) :
    P (State.nameVoid s n seqs) := by
  unfold State.nameVoid
  try dsimp only
  repeat' first
    | with_reducible assumption | (with_reducible apply Closed.mono cl; decide) | with_reducible apply State.modPd_keeps
    | with_reducible apply each_keeps | with_reducible apply State.sendEoc_keeps | intro _ _ _ | intro _ _
    | with_reducible refine pair_keeps (by with_reducible assumption) ?_ | dsimp only | split

theorem State.voidTx_keeps {s : State} {n : Nat} {seqs : List Nat} (cl : Closed 36028797019064320 P) (h0 : P s) :
    P (State.voidTx s n seqs) := by
  unfold State.voidTx
  try dsimp only
  repeat' first
    | with_reducible assumption | (with_reducible apply Closed.mono cl; decide) | (with_reducible apply State.count_keeps cl)
    | (with_reducible apply A.PORT_PAD_VOID_TX_in; decide) | with_reducible apply State.modPd_keeps
    | with_reducible apply State.nameVoid_keeps | intro _ _ _ | intro _ _
    | with_reducible refine pair_keeps (by with_reducible assumption) ?_ | dsimp only | split

theorem State.askFor_keeps {s : State} {n : Nat} {first : Nat} {len : Nat} (cl : Closed 36028797019062272 P) (h0 : P s) :
    P (State.askFor s n first len) := by
  unfold State.askFor
  try dsimp only
  repeat' first
    | with_reducible assumption | (with_reducible apply Closed.mono cl; decide) | with_reducible apply State.oweNak_keeps
    | with_reducible apply State.modPd_keeps | intro _ _ _ | intro _ _
    | with_reducible refine pair_keeps (by with_reducible assumption) ?_ | dsimp only | split

theorem State.relist_keeps {s : State} {n : Nat} (cl : Closed 38280614012619008 P) (h0 : P s) : P (State.relist s n) := by
  unfold State.relist
  try dsimp only
  repeat' first
    | with_reducible assumption | (with_reducible apply Closed.mono cl; decide)
    | (with_reducible apply State.dropped_keeps cl (by decide)) | (with_reducible apply A.PORT_PAD_DROP_TX_in; decide)
    | with_reducible apply State.modPd_keeps | with_reducible apply State.voidTx_keeps | with_reducible apply each_keeps
    | with_reducible apply State.askFor_keeps | with_reducible apply State.showPad_keeps
    | with_reducible apply State.sendPadParams_keeps | with_reducible apply State.fillCheck_keeps
    | with_reducible refine id_keeps ?_ | with_reducible refine foldl_keeps ?_ ?_ | with_reducible refine foldlFst_keeps ?_ ?_
    | intro _ _ _ | intro _ _ | with_reducible refine pair_keeps (by with_reducible assumption) ?_ | dsimp only | split

theorem State.freeze_keeps {s : State} {pc : Nat} {cause : Nat} {q : MemReq} {col : Bool} (cl : Closed 40202559765042478287104 P) (h0 : P s) :
    P (State.freeze s pc cause q col) := by
  unfold State.freeze
  try dsimp only
  repeat' first
    | with_reducible assumption | (with_reducible apply Closed.mono cl; decide) | with_reducible apply State.markPc_keeps
    | with_reducible apply State.abandonCal_keeps | with_reducible apply State.freezePc_keeps
    | with_reducible apply State.showFree_keeps | with_reducible apply each_keeps | with_reducible apply State.relist_keeps
    | intro _ _ _ | intro _ _ | with_reducible refine pair_keeps (by with_reducible assumption) ?_ | dsimp only | split

theorem State.unitGet_keeps {s : State} {q : MemReq} {pc : Nat} {page : Nat} {hint : Bool} (cl : Closed 40203712686581445421312 P) (h0 : P s) :
    P (State.unitGet s q pc page hint).1 := by
  unfold State.unitGet
  try dsimp only
  repeat' first
    | with_reducible assumption | (with_reducible apply Closed.mono cl; decide) | with_reducible apply State.answerFenced_keeps
    | with_reducible apply State.readUnit_keeps | with_reducible apply State.freeze_keeps | intro _ _ _ | intro _ _
    | with_reducible refine pair_keeps (by with_reducible assumption) ?_ | dsimp only | split

theorem State.stackGet_keeps {s : State} {req : Nat} {k : Nat} {a : Nat} {len : Nat} (cl : Closed 40203712686581445421312 P) (h0 : P s) :
    P (State.stackGet s req k a len).1 := by
  unfold State.stackGet
  try dsimp only
  repeat' first
    | with_reducible assumption | (with_reducible apply Closed.mono cl; decide) | with_reducible apply State.unitGet_keeps
    | with_reducible refine foldl_keeps ?_ ?_ | with_reducible refine foldlFst_keeps ?_ ?_ | intro _ _ _ | intro _ _
    | with_reducible refine pair_keeps (by with_reducible assumption) ?_ | dsimp only | split

theorem State.lotGet_keeps {s : State} {req : Nat} {p : Place} (cl : Closed 40203712686581445421312 P) (h0 : P s) :
    P (State.lotGet s req p).1 := by
  unfold State.lotGet
  try dsimp only
  repeat' first
    | with_reducible assumption | (with_reducible apply Closed.mono cl; decide) | with_reducible apply State.stackGet_keeps
    | with_reducible refine foldl_keeps ?_ ?_ | with_reducible refine foldlFst_keeps ?_ ?_ | intro _ _ _ | intro _ _
    | with_reducible refine pair_keeps (by with_reducible assumption) ?_ | dsimp only | split

theorem State.lotPut_keeps {s : State} {req : Nat} {p : Place} {bs : Bytes} (cl : Closed 3458764566971312128 P) (h0 : P s) :
    P (State.lotPut s req p bs) := by
  unfold State.lotPut
  try dsimp only
  repeat' first
    | with_reducible assumption | (with_reducible apply Closed.mono cl; decide) | with_reducible apply State.stackPut_keeps
    | with_reducible refine foldl_keeps ?_ ?_ | with_reducible refine foldlFst_keeps ?_ ?_ | intro _ _ _ | intro _ _
    | with_reducible refine pair_keeps (by with_reducible assumption) ?_ | dsimp only | split

theorem State.bufPut_keeps {s : State} {n : Nat} {req : Nat} {f : Frame} (cl : Closed 3458764566971377664 P) (h0 : P s) :
    P (State.bufPut s n req f).1 := by
  unfold State.bufPut
  try dsimp only
  repeat' first
    | with_reducible assumption | (with_reducible apply Closed.mono cl; decide) | with_reducible apply State.modPd_keeps
    | with_reducible apply State.stackPut_keeps | with_reducible refine foldl_keeps ?_ ?_
    | with_reducible refine foldlFst_keeps ?_ ?_ | intro _ _ _ | intro _ _
    | with_reducible refine pair_keeps (by with_reducible assumption) ?_ | dsimp only | split

theorem State.bufGet_keeps {s : State} {n : Nat} {req : Nat} {f : Frame} (cl : Closed 40203712686581445421312 P) (h0 : P s) :
    P (State.bufGet s n req f).1 := by
  unfold State.bufGet
  try dsimp only
  repeat' first
    | with_reducible assumption | (with_reducible apply Closed.mono cl; decide) | with_reducible apply State.stackGet_keeps
    | with_reducible refine foldl_keeps ?_ ?_ | with_reducible refine foldlFst_keeps ?_ ?_ | intro _ _ _ | intro _ _
    | with_reducible refine pair_keeps (by with_reducible assumption) ?_ | dsimp only | split

theorem State.bufTake_keeps {s : State} {n : Nat} {rx : Bool} {fs : List Frame} (cl : Closed 40203712686581445421312 P) (h0 : P s) :
    P (State.bufTake s n rx fs).1 := by
  unfold State.bufTake
  try dsimp only
  repeat' first
    | with_reducible assumption | (with_reducible apply Closed.mono cl; decide)
    | (with_reducible apply State.dropped_keeps cl (by decide)) | (with_reducible apply A.PORT_PAD_DROP_RX_in; decide)
    | (with_reducible apply A.PORT_PAD_DROP_TX_in; decide) | with_reducible apply State.bufGet_keeps
    | with_reducible refine foldl_keeps ?_ ?_ | with_reducible refine foldlFst_keeps ?_ ?_ | intro _ _ _ | intro _ _
    | with_reducible refine pair_keeps (by with_reducible assumption) ?_ | dsimp only | split

theorem State.toHost_keeps {s : State} {n : Nat} {bytes : Bytes} {errored : Bool} (cl : Closed 37856179855618784917760 P) (h0 : P s) :
    P (State.toHost s n bytes errored) := by
  unfold State.toHost
  try dsimp only
  repeat' first
    | with_reducible assumption | (with_reducible apply Closed.mono cl; decide) | (with_reducible apply State.count_keeps cl)
    | (with_reducible apply A.HL_TX_ERRORED_in; decide) | with_reducible apply State.cenLane_keeps
    | with_reducible apply State.cenPort_keeps | with_reducible apply State.emit_keeps | with_reducible apply when_keeps
    | with_reducible apply State.mirror_keeps | intro _ _ _ | intro _ _
    | with_reducible refine pair_keeps (by with_reducible assumption) ?_ | dsimp only | split

theorem State.passRest_keeps {s : State} {n : Nat} {bs : Bytes} (cl : Closed 38280614012586240 P) (h0 : P s) :
    P (State.passRest s n bs) := by
  unfold State.passRest
  try dsimp only
  repeat' first
    | with_reducible assumption | (with_reducible apply Closed.mono cl; decide)
    | (with_reducible apply State.dropped_keeps cl (by decide)) | (with_reducible apply A.PORT_PAD_DROP_RX_in; decide)
    | with_reducible apply State.modPd_keeps | intro _ _ _ | intro _ _
    | with_reducible refine pair_keeps (by with_reducible assumption) ?_ | dsimp only | split

theorem State.deliverBy_keeps {s : State} {n : Nat} {bs : Bytes} {fptr : Nat} {paused : Bool} {give : State → Bytes → Bool → State} (cl : Closed 56295012522068224 P) (hgive : ∀ t a1 a2, P t → P (give t a1 a2)) (h0 : P s) :
    P (State.deliverBy s n bs fptr paused give) := by
  unfold State.deliverBy
  try dsimp only
  repeat' first
    | with_reducible assumption | (with_reducible apply Closed.mono cl; decide) | with_reducible refine hgive _ _ _ ?_
    | (with_reducible apply State.count_keeps cl) | (with_reducible apply A.PORT_ILM_HDR_ERR_in; decide)
    | with_reducible apply State.passRest_keeps | with_reducible apply State.modPd_keeps | with_reducible apply each_keeps
    | intro _ _ _ | intro _ _ | with_reducible refine pair_keeps (by with_reducible assumption) ?_ | dsimp only | split

theorem State.deliverLot_keeps {s : State} {n : Nat} {bs : Bytes} {fptr : Nat} (cl : Closed 37856233898814313429248 P) (h0 : P s) :
    P (State.deliverLot s n bs fptr) := by
  unfold State.deliverLot
  try dsimp only
  repeat' first
    | with_reducible assumption | (with_reducible apply Closed.mono cl; decide) | with_reducible apply State.deliverBy_keeps
    | with_reducible apply State.toHost_keeps | intro _ _ _ | intro _ _
    | with_reducible refine pair_keeps (by with_reducible assumption) ?_ | dsimp only | split

theorem State.loseLot_keeps {s : State} {n : Nat} (cl : Closed 38280614012586240 P) (h0 : P s) : P (State.loseLot s n) := by
  unfold State.loseLot
  try dsimp only
  repeat' first
    | with_reducible assumption | (with_reducible apply Closed.mono cl; decide)
    | (with_reducible apply State.dropped_keeps cl (by decide)) | (with_reducible apply A.PORT_PAD_DROP_RX_in; decide)
    | with_reducible apply State.modPd_keeps | intro _ _ _ | intro _ _
    | with_reducible refine pair_keeps (by with_reducible assumption) ?_ | dsimp only | split

theorem State.release_keeps {s : State} {n : Nat} {q : Nat} (cl : Closed 36028797019062272 P) (h0 : P s) :
    P (State.release s n q) := by
  unfold State.release
  try dsimp only
  repeat' first
    | with_reducible assumption | (with_reducible apply Closed.mono cl; decide) | (with_reducible apply State.put_keeps cl)
    | (with_reducible apply A.PORT_PAD_RXSEQ_in; decide) | with_reducible apply State.modLn_keeps
    | with_reducible apply State.modPd_keeps | intro _ _ _ | intro _ _
    | with_reducible refine pair_keeps (by with_reducible assumption) ?_ | dsimp only | split

theorem State.deliver_keeps {s : State} {n : Nat} {x0 : Nat} (cl : Closed 40277517677276403726592 P) (h0 : P s) :
    P (State.deliver s n x0) := by
  induction x0 generalizing s with
  | zero => exact h0
  | succ _ ih =>
    unfold State.deliver
    try dsimp only
    repeat' first
      | with_reducible assumption | (with_reducible apply Closed.mono cl; decide) | with_reducible refine ih ?_
      | with_reducible apply State.askFor_keeps | with_reducible apply State.deliverLot_keeps
      | with_reducible apply State.loseLot_keeps | with_reducible apply State.lotGet_keeps
      | with_reducible apply State.modPd_keeps | with_reducible apply State.place_keeps
      | with_reducible apply State.release_keeps | intro _ _ _ | intro _ _
      | with_reducible refine pair_keeps (by with_reducible assumption) ?_ | dsimp only | split

theorem State.lameSwap_keeps {s : State} {n : Nat} (cl : Closed 36893488147419168768 P) (h0 : P s) : P (State.lameSwap s n) := by
  unfold State.lameSwap
  try dsimp only
  repeat' first
    | with_reducible assumption | (with_reducible apply Closed.mono cl; decide) | with_reducible apply State.showFree_keeps
    | with_reducible apply State.modPd_keeps | with_reducible refine foldl_keeps ?_ ?_
    | with_reducible refine foldlFst_keeps ?_ ?_ | intro _ _ _ | intro _ _
    | with_reducible refine pair_keeps (by with_reducible assumption) ?_ | dsimp only | split

theorem State.deliverAll_keeps {s : State} {n : Nat} (cl : Closed 40277517677276403726592 P) (h0 : P s) :
    P (State.deliverAll s n) := by
  unfold State.deliverAll
  try dsimp only
  repeat' first
    | with_reducible assumption | (with_reducible apply Closed.mono cl; decide) | with_reducible apply State.fillCheck_keeps
    | with_reducible apply State.lameSwap_keeps | with_reducible apply State.deliver_keeps | intro _ _ _ | intro _ _
    | with_reducible refine pair_keeps (by with_reducible assumption) ?_ | dsimp only | split

theorem State.passToHost_keeps {s : State} {n : Nat} (cl : Closed 40277499662877894244608 P) (h0 : P s) :
    P (State.passToHost s n) := by
  unfold State.passToHost
  try dsimp only
  repeat' first
    | with_reducible assumption | (with_reducible apply Closed.mono cl; decide) | with_reducible apply State.fillCheck_keeps
    | with_reducible apply State.bufTake_keeps | with_reducible apply each_keeps | with_reducible apply State.modPd_keeps
    | with_reducible apply State.toHost_keeps | intro _ _ _ | intro _ _
    | with_reducible refine pair_keeps (by with_reducible assumption) ?_ | dsimp only | split

theorem State.fromLine_keeps {s : State} {n : Nat} {bytes : Bytes} {errored : Bool} (cl : Closed 40277499662877894244608 P) (h0 : P s) :
    P (State.fromLine s n bytes errored) := by
  unfold State.fromLine
  try dsimp only
  repeat' first
    | with_reducible assumption | (with_reducible apply Closed.mono cl; decide)
    | (with_reducible apply State.dropped_keeps cl (by decide)) | (with_reducible apply A.PORT_PAD_RX_OVF_in; decide)
    | with_reducible apply State.toHost_keeps | with_reducible apply State.bufPut_keeps
    | with_reducible apply State.passToHost_keeps | with_reducible apply State.modPd_keeps | with_reducible refine id_keeps ?_
    | intro _ _ _ | intro _ _ | with_reducible refine pair_keeps (by with_reducible assumption) ?_ | dsimp only | split

theorem State.flushPad_keeps {s : State} {n : Nat} (cl : Closed 38280614012586240 P) (h0 : P s) : P (State.flushPad s n) := by
  unfold State.flushPad
  try dsimp only
  repeat' first
    | with_reducible assumption | (with_reducible apply Closed.mono cl; decide) | (with_reducible apply State.put_keeps cl)
    | (with_reducible apply State.dropped_keeps cl (by decide)) | (with_reducible apply A.PORT_PAD_STATE_in; decide)
    | (with_reducible apply A.PORT_PAD_RXSEQ_in; decide) | (with_reducible apply A.PORT_PAD_TXSEQ_in; decide)
    | (with_reducible apply A.PORT_PAD_DROP_RX_in; decide) | (with_reducible apply A.PORT_PAD_DROP_TX_in; decide)
    | with_reducible apply State.modPd_keeps | with_reducible apply State.fillCheck_keeps | intro _ _ _ | intro _ _
    | with_reducible refine pair_keeps (by with_reducible assumption) ?_ | dsimp only | split

end Sys2Proof.Machine
end

