-- ==== Sys2Proof/Laws/Keeps/PadRows.lean ====
section
/-!
SUPPORT. The updates that each operation of Machine/PadRows.lean makes: one law for each.
-/
namespace Sys2Proof.Machine

variable {P : State → Prop}

theorem State.lpiWake_keeps {s : State} {n : Nat} (cl : Closed 34816 P) (h0 : P s) : P (State.lpiWake s n) := by
  unfold State.lpiWake
  try dsimp only
  repeat' first
    | with_reducible assumption | (with_reducible apply Closed.mono cl; decide) | with_reducible apply State.modLn_keeps
    | with_reducible apply State.sendEoc_keeps | intro _ _ _ | intro _ _
    | with_reducible refine pair_keeps (by with_reducible assumption) ?_ | dsimp only | split

theorem State.admitFrame_keeps {s : State} {n : Nat} {f : Frame} (cl : Closed 3497045163804027136 P) (h0 : P s) :
    P (State.admitFrame s n f) := by
  unfold State.admitFrame
  try dsimp only
  repeat' first
    | with_reducible assumption | (with_reducible apply Closed.mono cl; decide)
    | (with_reducible apply State.dropped_keeps cl (by decide)) | (with_reducible apply A.PORT_PAD_HOST_OVF_in; decide)
    | with_reducible apply State.modPd_keeps | with_reducible apply State.bufPut_keeps | intro _ _ _ | intro _ _
    | with_reducible refine pair_keeps (by with_reducible assumption) ?_ | dsimp only | split

theorem State.admitStaged_keeps {s : State} {n : Nat} (cl : Closed 3497045163804027136 P) (h0 : P s) :
    P (State.admitStaged s n) := by
  unfold State.admitStaged
  try dsimp only
  repeat' first
    | with_reducible assumption | (with_reducible apply Closed.mono cl; decide) | with_reducible apply each_keeps
    | with_reducible apply State.modPd_keeps | with_reducible apply State.admitFrame_keeps | intro _ _ _ | intro _ _
    | with_reducible refine pair_keeps (by with_reducible assumption) ?_ | dsimp only | split

theorem State.acceptFrame_keeps {s : State} {n : Nat} {bytes : Bytes} {aborted : Bool} {stalled : Bool} (cl : Closed 3497045163804027136 P) (h0 : P s) :
    P (State.acceptFrame s n bytes aborted stalled) := by
  unfold State.acceptFrame
  try dsimp only
  repeat' first
    | with_reducible assumption | (with_reducible apply Closed.mono cl; decide)
    | (with_reducible apply State.dropped_keeps cl (by decide)) | (with_reducible apply A.PORT_PAD_HOST_OVF_in; decide)
    | with_reducible apply State.modPd_keeps | with_reducible apply State.fillCheck_keeps
    | with_reducible apply State.admitFrame_keeps | with_reducible apply State.admitStaged_keeps
    | with_reducible refine id_keeps ?_ | intro _ _ _ | intro _ _
    | with_reducible refine pair_keeps (by with_reducible assumption) ?_ | dsimp only | split

theorem State.lineOut_keeps {s : State} {n : Nat} {k : Nat} (cl : Closed 40203712686581445421312 P) (h0 : P s) :
    P (State.lineOut s n k) := by
  unfold State.lineOut
  try dsimp only
  repeat' first
    | with_reducible assumption | (with_reducible apply Closed.mono cl; decide) | with_reducible apply State.bufTake_keeps
    | with_reducible apply State.fillCheck_keeps | with_reducible apply each_keeps | with_reducible apply State.modPd_keeps
    | with_reducible apply State.emit_keeps | intro _ _ _ | intro _ _
    | with_reducible refine pair_keeps (by with_reducible assumption) ?_ | dsimp only | split

theorem State.hostFrame_keeps {s : State} {m : Nat} {bytes : Bytes} {errored : Bool} {stalled : Bool} (cl : Closed 77293028657897007360 P) (h0 : P s) :
    P (State.hostFrame s m bytes errored stalled) := by
  unfold State.hostFrame
  try dsimp only
  repeat' first
    | with_reducible assumption | (with_reducible apply Closed.mono cl; decide) | (with_reducible apply State.count_keeps cl)
    | (with_reducible apply State.put_keeps cl) | (with_reducible apply A.HL_LONG_in; decide)
    | (with_reducible apply A.HL_RX_ABORT_in; decide) | (with_reducible apply A.PORT_LINK_STATUS_in; decide)
    | (with_reducible apply A.PORT_DOWN_DISCARD_in; decide) | with_reducible apply State.cenPort_keeps
    | with_reducible apply State.cenLane_keeps | with_reducible apply when_keeps | with_reducible apply State.acceptFrame_keeps
    | with_reducible apply State.lpiWake_keeps | intro _ _ _ | intro _ _
    | with_reducible refine pair_keeps (by with_reducible assumption) ?_ | dsimp only | split

theorem execHostFrameReceived_keeps {lane : BitVec 4} {bytes : Bytes} {errored : Bool} {stalled : Bool} {took : Nat} {s : State} (cl : Closed 40277508670077148981504 P) (h0 : P s) :
    OutIs P (execHostFrameReceived lane bytes errored stalled took s) := by
  unfold execHostFrameReceived
  try dsimp only
  repeat' first
    | with_reducible assumption | (with_reducible apply Closed.mono cl; decide) | with_reducible apply State.hostFrame_keeps
    | with_reducible apply State.lineOut_keeps | with_reducible refine outIs_next ?_ | intro _ _ _ | intro _ _
    | with_reducible refine pair_keeps (by with_reducible assumption) ?_ | dsimp only | split

theorem State.unpause_keeps {s : State} {n : Nat} (cl : Closed 40277517677276403726592 P) (h0 : P s) : P (State.unpause s n) := by
  unfold State.unpause
  try dsimp only
  repeat' first
    | with_reducible assumption | (with_reducible apply Closed.mono cl; decide) | (with_reducible apply State.put_keeps cl)
    | (with_reducible apply A.PORT_PAD_STATE_in; decide) | with_reducible apply State.modPd_keeps
    | with_reducible apply State.deliverAll_keeps | with_reducible apply State.passToHost_keeps | intro _ _ _ | intro _ _
    | with_reducible refine pair_keeps (by with_reducible assumption) ?_ | dsimp only | split

theorem State.hostPause_keeps {s : State} {m : Nat} {pfc : Bool} {enables : Nat} {quanta : Nat} (cl : Closed 40277517677276403726592 P) (h0 : P s) :
    P (State.hostPause s m pfc enables quanta) := by
  unfold State.hostPause
  try dsimp only
  repeat' first
    | with_reducible assumption | (with_reducible apply Closed.mono cl; decide) | (with_reducible apply State.count_keeps cl)
    | (with_reducible apply State.put_keeps cl) | (with_reducible apply A.HL_MACCTL_RX_in; decide)
    | (with_reducible apply A.PORT_PAD_STATE_in; decide) | with_reducible apply State.cenLane_keeps
    | with_reducible apply State.unpause_keeps | with_reducible apply State.modPd_keeps | intro _ _ _ | intro _ _
    | with_reducible refine pair_keeps (by with_reducible assumption) ?_ | dsimp only | split

theorem execHostPauseFrame_keeps {lane : BitVec 4} {pfc : Bool} {enables : BitVec 8} {quanta : BitVec 16} {s : State} (cl : Closed 40277517677276403726592 P) (h0 : P s) :
    OutIs P (execHostPauseFrame lane pfc enables quanta s) := by
  unfold execHostPauseFrame
  try dsimp only
  repeat' first
    | with_reducible assumption | (with_reducible apply Closed.mono cl; decide) | with_reducible apply State.hostPause_keeps
    | with_reducible refine outIs_next ?_ | intro _ _ _ | intro _ _
    | with_reducible refine pair_keeps (by with_reducible assumption) ?_ | dsimp only | split

theorem execHostPauseExpiry_keeps {port : BitVec 4} {s : State} (cl : Closed 40277517677413842680064 P) (h0 : P s) :
    OutIs P (execHostPauseExpiry port s) := by
  unfold execHostPauseExpiry
  try dsimp only
  repeat' first
    | with_reducible assumption | (with_reducible apply Closed.mono cl; decide) | with_reducible apply State.unpause_keeps
    | with_reducible apply timeTo_keeps | with_reducible refine outIs_next ?_ | intro _ _ _ | intro _ _
    | with_reducible refine pair_keeps (by with_reducible assumption) ?_ | dsimp only | split

theorem execXoffRefresh_keeps {port : BitVec 4} {s : State} (cl : Closed 154618890240 P) (h0 : P s) :
    OutIs P (execXoffRefresh port s) := by
  unfold execXoffRefresh
  try dsimp only
  repeat' first
    | with_reducible assumption | (with_reducible apply Closed.mono cl; decide) | with_reducible apply timeTo_keeps
    | with_reducible apply State.modPd_keeps | with_reducible apply State.flowFrame_keeps | with_reducible refine outIs_next ?_
    | intro _ _ _ | intro _ _ | with_reducible refine pair_keeps (by with_reducible assumption) ?_ | dsimp only | split

theorem State.sendLot_keeps {s : State} {n : Nat} {seq : Nat} {flags : Nat} {fptr : Nat} {payload : Bytes} (cl : Closed 17179901952 P) (h0 : P s) :
    P (State.sendLot s n seq flags fptr payload) := by
  unfold State.sendLot
  try dsimp only
  repeat' first
    | with_reducible assumption | (with_reducible apply Closed.mono cl; decide) | with_reducible apply State.emit_keeps
    | with_reducible apply State.modLn_keeps | intro _ _ _ | intro _ _
    | with_reducible refine pair_keeps (by with_reducible assumption) ?_ | dsimp only | split

theorem State.sendIdle_keeps {s : State} {n : Nat} (cl : Closed 17179901952 P) (h0 : P s) : P (State.sendIdle s n) := by
  unfold State.sendIdle
  try dsimp only
  repeat' first
    | with_reducible assumption | (with_reducible apply Closed.mono cl; decide) | with_reducible apply State.sendLot_keeps
    | intro _ _ _ | intro _ _ | with_reducible refine pair_keeps (by with_reducible assumption) ?_ | dsimp only | split

theorem State.resendOne_keeps {s : State} {n : Nat} {x0 : Nat} (cl : Closed 40203712686581445421312 P) (h0 : P s) :
    P (State.resendOne s n x0).1 := by
  induction x0 generalizing s with
  | zero => exact h0
  | succ _ ih =>
    unfold State.resendOne
    try dsimp only
    repeat' first
      | with_reducible assumption | (with_reducible apply Closed.mono cl; decide) | with_reducible refine ih ?_
      | (with_reducible apply State.count_keeps cl) | (with_reducible apply A.PORT_PAD_RETX_in; decide)
      | with_reducible apply State.cenPort_keeps | with_reducible apply State.lotGet_keeps
      | with_reducible apply State.modPd_keeps | with_reducible apply State.place_keeps
      | with_reducible apply State.sendLot_keeps | with_reducible apply State.voidTx_keeps | intro _ _ _ | intro _ _
      | with_reducible refine pair_keeps (by with_reducible assumption) ?_ | dsimp only | split

theorem State.loadStaged_keeps {s : State} {n : Nat} (cl : Closed 40203712686581445421312 P) (h0 : P s) :
    P (State.loadStaged s n) := by
  unfold State.loadStaged
  try dsimp only
  repeat' first
    | with_reducible assumption | (with_reducible apply Closed.mono cl; decide) | with_reducible apply State.bufTake_keeps
    | with_reducible apply State.modPd_keeps | intro _ _ _ | intro _ _
    | with_reducible refine pair_keeps (by with_reducible assumption) ?_ | dsimp only | split

theorem State.sendNew_keeps {s : State} {n : Nat} {place : Option Place} (cl : Closed 40203712686583056034048 P) (h0 : P s) :
    P (State.sendNew s n place) := by
  unfold State.sendNew
  try dsimp only
  repeat' first
    | with_reducible assumption | (with_reducible apply Closed.mono cl; decide) | (with_reducible apply State.put_keeps cl)
    | (with_reducible apply A.PORT_PAD_TXSEQ_in; decide) | with_reducible apply State.loadStaged_keeps
    | with_reducible apply State.modPd_keeps | with_reducible apply State.lotPut_keeps | with_reducible apply State.sendLot_keeps
    | with_reducible apply State.modLn_keeps | intro _ _ _ | intro _ _
    | with_reducible refine pair_keeps (by with_reducible assumption) ?_ | dsimp only | split

theorem execCodewordSlot_keeps {port : BitVec 4} {ready : Bool} {s : State} (cl : Closed 40203712686583056034048 P) (h0 : P s) :
    OutIs P (execCodewordSlot port ready s) := by
  unfold execCodewordSlot
  try dsimp only
  repeat' first
    | with_reducible assumption | (with_reducible apply Closed.mono cl; decide) | with_reducible apply State.sendIdle_keeps
    | with_reducible apply State.admitStaged_keeps | with_reducible apply State.resendOne_keeps
    | with_reducible apply State.fillCheck_keeps | with_reducible apply State.sendNew_keeps | with_reducible refine outIs_next ?_
    | intro _ _ _ | intro _ _ | with_reducible refine pair_keeps (by with_reducible assumption) ?_ | dsimp only | split

theorem State.lotLost_keeps {s : State} {n : Nat} (cl : Closed 56295012522100992 P) (h0 : P s) : P (State.lotLost s n) := by
  unfold State.lotLost
  try dsimp only
  repeat' first
    | with_reducible assumption | (with_reducible apply Closed.mono cl; decide) | (with_reducible apply State.count_keeps cl)
    | (with_reducible apply A.PORT_ILM_LOTS_LOST_in; decide) | with_reducible apply State.modLn_keeps
    | with_reducible apply State.cenPort_keeps | with_reducible apply State.loseLot_keeps | intro _ _ _ | intro _ _
    | with_reducible refine pair_keeps (by with_reducible assumption) ?_ | dsimp only | split

theorem State.storeLot_keeps {s : State} {n : Nat} {seq : Nat} {fptr : Nat} {payload : Bytes} (cl : Closed 40277517677276403726592 P) (h0 : P s) :
    P (State.storeLot s n seq fptr payload) := by
  unfold State.storeLot
  try dsimp only
  repeat' first
    | with_reducible assumption | (with_reducible apply Closed.mono cl; decide) | (with_reducible apply State.count_keeps cl)
    | (with_reducible apply A.PORT_PAD_DUP_in; decide) | with_reducible apply State.lotPut_keeps
    | with_reducible apply State.modPd_keeps | with_reducible apply State.askFor_keeps
    | with_reducible apply State.deliverAll_keeps | intro _ _ _ | intro _ _
    | with_reducible refine pair_keeps (by with_reducible assumption) ?_ | dsimp only | split

theorem State.takeLot_keeps {s : State} {n : Nat} {seq : Nat} {fptr : Nat} {payload : Bytes} (cl : Closed 40277517677276403726592 P) (h0 : P s) :
    P (State.takeLot s n seq fptr payload) := by
  unfold State.takeLot
  try dsimp only
  repeat' first
    | with_reducible assumption | (with_reducible apply Closed.mono cl; decide) | with_reducible apply State.storeLot_keeps
    | with_reducible apply State.deliverBy_keeps | with_reducible apply State.modPd_keeps
    | with_reducible apply State.fromLine_keeps | intro _ _ _ | intro _ _
    | with_reducible refine pair_keeps (by with_reducible assumption) ?_ | dsimp only | split

theorem State.takeStaged_keeps {s : State} {n : Nat} (cl : Closed 40277517677276403726592 P) (h0 : P s) :
    P (State.takeStaged s n) := by
  unfold State.takeStaged
  try dsimp only
  repeat' first
    | with_reducible assumption | (with_reducible apply Closed.mono cl; decide) | with_reducible apply each_keeps
    | with_reducible apply State.modPd_keeps | with_reducible apply State.takeLot_keeps | intro _ _ _ | intro _ _
    | with_reducible refine pair_keeps (by with_reducible assumption) ?_ | dsimp only | split

theorem State.lotIn_keeps {s : State} {n : Nat} {bs : Bytes} {stalled : Bool} (cl : Closed 40277517677276403726592 P) (h0 : P s) :
    P (State.lotIn s n bs stalled) := by
  unfold State.lotIn
  try dsimp only
  repeat' first
    | with_reducible assumption | (with_reducible apply Closed.mono cl; decide) | (with_reducible apply State.count_keeps cl)
    | (with_reducible apply A.PORT_PAD_STAGE_DROP_in; decide) | with_reducible apply State.askFor_keeps
    | with_reducible apply State.modLn_keeps | with_reducible apply State.modPd_keeps | with_reducible apply State.takeLot_keeps
    | intro _ _ _ | intro _ _ | with_reducible refine pair_keeps (by with_reducible assumption) ?_ | dsimp only | split

theorem execLotReceived_keeps {port : BitVec 4} {word : BitVec 17280} {mag : List (BitVec 8)} {stalled : Bool} {s : State} (cl : Closed 40868101718011261090048 P) (h0 : P s) :
    OutIs P (execLotReceived port word mag stalled s) := by
  unfold execLotReceived
  try dsimp only
  repeat' first
    | with_reducible assumption | (with_reducible apply Closed.mono cl; decide) | (with_reducible apply State.count_keeps cl)
    | (with_reducible apply A.PORT_ILM_LOTS_OK_in; decide) | with_reducible apply State.modLn_keeps
    | with_reducible apply State.takeStaged_keeps | with_reducible apply State.lotLost_keeps
    | with_reducible apply State.lotIn_keeps | with_reducible apply State.resolvePtag_keeps
    | with_reducible apply State.cenPort_keeps | with_reducible refine outIs_next ?_ | intro _ _ _ | intro _ _
    | with_reducible refine pair_keeps (by with_reducible assumption) ?_ | dsimp only | split

theorem State.shrinkPad_keeps {s : State} {n : Nat} (cl : Closed 36929516944438132736 P) (h0 : P s) :
    P (State.shrinkPad s n) := by
  unfold State.shrinkPad
  try dsimp only
  repeat' first
    | with_reducible assumption | (with_reducible apply Closed.mono cl; decide) | with_reducible apply State.showFree_keeps
    | with_reducible apply State.showPad_keeps | with_reducible apply State.modPd_keeps | intro _ _ _ | intro _ _
    | with_reducible refine pair_keeps (by with_reducible assumption) ?_ | dsimp only | split

theorem execAckWord_keeps {port : BitVec 4} {cum : BitVec 24} {s : State} (cl : Closed 36931768761431689472 P) (h0 : P s) :
    OutIs P (execAckWord port cum s) := by
  unfold execAckWord
  try dsimp only
  repeat' first
    | with_reducible assumption | (with_reducible apply Closed.mono cl; decide) | (with_reducible apply State.count_keeps cl)
    | (with_reducible apply A.PORT_PAD_BAD_WORD_in; decide) | with_reducible apply State.modPd_keeps
    | with_reducible apply State.fillCheck_keeps | with_reducible apply State.shrinkPad_keeps
    | with_reducible apply State.lameSwap_keeps | with_reducible refine outIs_next ?_ | intro _ _ _ | intro _ _
    | with_reducible refine pair_keeps (by with_reducible assumption) ?_ | dsimp only | split

theorem execNakWord_keeps {port : BitVec 4} {payload : BitVec 24} {s : State} (cl : Closed 36028797019029504 P) (h0 : P s) :
    OutIs P (execNakWord port payload s) := by
  unfold execNakWord
  try dsimp only
  repeat' first
    | with_reducible assumption | (with_reducible apply Closed.mono cl; decide) | (with_reducible apply State.count_keeps cl)
    | (with_reducible apply A.PORT_PAD_NAK_RX_in; decide) | (with_reducible apply A.PORT_PAD_BAD_WORD_in; decide)
    | with_reducible apply State.modPd_keeps | with_reducible refine outIs_next ?_ | intro _ _ _ | intro _ _
    | with_reducible refine pair_keeps (by with_reducible assumption) ?_ | dsimp only | split

theorem execNakWaitExpiry_keeps {port : BitVec 4} {s : State} (cl : Closed 36028934458015744 P) (h0 : P s) :
    OutIs P (execNakWaitExpiry port s) := by
  unfold execNakWaitExpiry
  try dsimp only
  repeat' first
    | with_reducible assumption | (with_reducible apply Closed.mono cl; decide) | with_reducible apply timeTo_keeps
    | with_reducible apply State.oweNak_keeps | with_reducible apply State.modPd_keeps | with_reducible refine foldl_keeps ?_ ?_
    | with_reducible refine foldlFst_keeps ?_ ?_ | with_reducible refine outIs_next ?_ | intro _ _ _ | intro _ _
    | with_reducible refine pair_keeps (by with_reducible assumption) ?_ | dsimp only | split

theorem execPadParams_keeps {port : BitVec 4} {seq : BitVec 8} {rxLots : BitVec 16} {txLots : BitVec 16} {_boosted : Bool} {s : State} (cl : Closed 36028797019064320 P) (h0 : P s) :
    OutIs P (execPadParams port seq rxLots txLots _boosted s) := by
  unfold execPadParams
  try dsimp only
  repeat' first
    | with_reducible assumption | (with_reducible apply Closed.mono cl; decide) | with_reducible apply State.eocDo_keeps
    | with_reducible apply State.showPad_keeps | with_reducible apply State.modLn_keeps | with_reducible apply State.modPd_keeps
    | with_reducible refine outIs_next ?_ | intro _ _ _ | intro _ _
    | with_reducible refine pair_keeps (by with_reducible assumption) ?_ | dsimp only | split

theorem execPadResume_keeps {port : BitVec 4} {seq : BitVec 8} {cum : BitVec 24} {high : BitVec 24} {kept : Bool} {s : State} (cl : Closed 100352 P) (h0 : P s) :
    OutIs P (execPadResume port seq cum high kept s) := by
  unfold execPadResume
  try dsimp only
  repeat' first
    | with_reducible assumption | (with_reducible apply Closed.mono cl; decide) | with_reducible apply State.eocDo_keeps
    | with_reducible apply State.modPd_keeps | with_reducible refine outIs_next ?_ | intro _ _ _ | intro _ _
    | with_reducible refine pair_keeps (by with_reducible assumption) ?_ | dsimp only | split

theorem execPadVoid_keeps {port : BitVec 4} {seq : BitVec 8} {ranges : List (BitVec 24 × BitVec 24)} {s : State} (cl : Closed 40277517677276403726592 P) (h0 : P s) :
    OutIs P (execPadVoid port seq ranges s) := by
  unfold execPadVoid
  try dsimp only
  repeat' first
    | with_reducible assumption | (with_reducible apply Closed.mono cl; decide) | (with_reducible apply State.count_keeps cl)
    | (with_reducible apply A.PORT_PAD_VOID_RX_in; decide) | with_reducible apply State.eocDo_keeps
    | with_reducible apply State.modPd_keeps | with_reducible apply State.deliverAll_keeps | with_reducible refine outIs_next ?_
    | intro _ _ _ | intro _ _ | with_reducible refine pair_keeps (by with_reducible assumption) ?_ | dsimp only | split

end Sys2Proof.Machine
end

