-- ==== Sys2Proof/Laws/Keeps/Slices.lean ====
section
/-!
SUPPORT. The updates that each operation of Machine/Slices.lean makes: one law for each.
-/
namespace Sys2Proof.Machine

variable {P : State → Prop}

theorem State.putMap_keeps {s : State} {n : Nat} {l : List Nat} (cl : Closed 576460752303423488 P) (h0 : P s) :
    P (State.putMap s n l) := by
  unfold State.putMap
  try dsimp only
  repeat' first
    | with_reducible assumption | (with_reducible apply Closed.mono cl; decide) | (with_reducible apply putWord_keeps cl)
    | (with_reducible apply A.SLICE_MAP_W1_in; decide) | (with_reducible apply A.SLICE_MAP_in; decide) | intro _ _ _ | intro _ _
    | with_reducible refine pair_keeps (by with_reducible assumption) ?_ | dsimp only | split

theorem State.showSpares_keeps {s : State} (cl : Closed 151115729703645640395008 P) (h0 : P s) : P (State.showSpares s) := by
  unfold State.showSpares
  try dsimp only
  repeat' first
    | with_reducible assumption | (with_reducible apply Closed.mono cl; decide) | (with_reducible apply State.put_keeps cl)
    | (with_reducible apply A.TST_ROT_STATE_in; decide) | with_reducible apply State.raiseSparesOut_keeps | intro _ _ _
    | intro _ _ | with_reducible refine pair_keeps (by with_reducible assumption) ?_ | dsimp only | split

theorem State.endSliceTest_keeps {s : State} (cl : Closed 151115727451828646838272 P) (h0 : P s) : P (State.endSliceTest s) := by
  unfold State.endSliceTest
  try dsimp only
  repeat' first
    | with_reducible assumption | (with_reducible apply Closed.mono cl; decide) | (with_reducible apply State.put_keeps cl)
    | (with_reducible apply A.TST_ROT_STATE_in; decide) | intro _ _ _ | intro _ _
    | with_reducible refine pair_keeps (by with_reducible assumption) ?_ | dsimp only | split

theorem State.assign_keeps {s : State} {x : Nat} {n : Nat} (cl : Closed 151115727451828646838272 P) (h0 : P s) :
    P (State.assign s x n) := by
  unfold State.assign
  try dsimp only
  repeat' first
    | with_reducible assumption | (with_reducible apply Closed.mono cl; decide) | (with_reducible apply State.put_keeps cl)
    | (with_reducible apply A.TST_SLICE_STATE_in; decide) | intro _ _ _ | intro _ _
    | with_reducible refine pair_keeps (by with_reducible assumption) ?_ | dsimp only | split

theorem State.unassign_keeps {s : State} {x : Nat} {st : Nat} (cl : Closed 151115727451828646838272 P) (h0 : P s) :
    P (State.unassign s x st) := by
  unfold State.unassign
  try dsimp only
  repeat' first
    | with_reducible assumption | (with_reducible apply Closed.mono cl; decide) | (with_reducible apply State.put_keeps cl)
    | (with_reducible apply A.TST_SLICE_STATE_in; decide) | intro _ _ _ | intro _ _
    | with_reducible refine pair_keeps (by with_reducible assumption) ?_ | dsimp only | split

theorem State.takeSlice_keeps {s : State} {n : Nat} (cl : Closed 151115727451828646838272 P) (h0 : P s) :
    P (State.takeSlice s n).1 := by
  unfold State.takeSlice
  try dsimp only
  repeat' first
    | with_reducible assumption | (with_reducible apply Closed.mono cl; decide) | (with_reducible apply State.count_keeps cl)
    | (with_reducible apply A.TST_ABORTS_in; decide) | with_reducible apply State.assign_keeps
    | with_reducible apply State.endSliceTest_keeps | intro _ _ _ | intro _ _
    | with_reducible refine pair_keeps (by with_reducible assumption) ?_ | dsimp only | split

theorem State.takeSlices_keeps {s : State} {n : Nat} (cl : Closed 151116306164397943851264 P) (h0 : P s) :
    P (State.takeSlices s n) := by
  unfold State.takeSlices
  try dsimp only
  repeat' first
    | with_reducible assumption | (with_reducible apply Closed.mono cl; decide) | with_reducible apply State.takeSlice_keeps
    | with_reducible apply State.showSpares_keeps | with_reducible apply State.modLn_keeps
    | with_reducible apply State.putMap_keeps | with_reducible refine foldl_keeps ?_ ?_
    | with_reducible refine foldlFst_keeps ?_ ?_ | intro _ _ _ | intro _ _
    | with_reducible refine pair_keeps (by with_reducible assumption) ?_ | dsimp only | split

theorem State.freeSlices_keeps {s : State} {n : Nat} (cl : Closed 151116306164397943851264 P) (h0 : P s) :
    P (State.freeSlices s n) := by
  unfold State.freeSlices
  try dsimp only
  repeat' first
    | with_reducible assumption | (with_reducible apply Closed.mono cl; decide) | with_reducible apply each_keeps
    | with_reducible apply State.unassign_keeps | with_reducible apply State.showSpares_keeps
    | with_reducible apply State.modLn_keeps | with_reducible apply State.putMap_keeps | intro _ _ _ | intro _ _
    | with_reducible refine pair_keeps (by with_reducible assumption) ?_ | dsimp only | split

theorem State.sendCap_keeps {s : State} {n : Nat} {a : Nat} (cl : Closed 34816 P) (h0 : P s) : P (State.sendCap s n a) := by
  unfold State.sendCap
  try dsimp only
  repeat' first
    | with_reducible assumption | (with_reducible apply Closed.mono cl; decide) | with_reducible apply State.modLn_keeps
    | with_reducible apply State.sendEoc_keeps | intro _ _ _ | intro _ _
    | with_reducible refine pair_keeps (by with_reducible assumption) ?_ | dsimp only | split

end Sys2Proof.Machine
end

