-- ==== Sys2Proof/Laws/Keeps/Symbol.lean ====
section
/-!
SUPPORT. The updates that each operation of Machine/Symbol.lean makes: one law for each.
-/
namespace Sys2Proof.Machine

variable {P : State → Prop}

theorem State.showFlock_keeps {s : State} {k : Nat} (cl : Closed 576460752336977920 P) (h0 : P s) : P (State.showFlock s k) := by
  unfold State.showFlock
  try dsimp only
  repeat' first
    | with_reducible assumption | (with_reducible apply Closed.mono cl; decide) | (with_reducible apply State.put_keeps cl)
    | (with_reducible apply A.FLOCK_VEC_STATE_in; decide) | intro t e he ht
    | (simp only [List.mem_cons, List.not_mem_nil, or_false] at he) | (rcases he with he | he) | subst he
    | with_reducible apply withClk_keeps | with_reducible apply each_mem | intro _ _ _ | intro _ _
    | with_reducible refine pair_keeps (by with_reducible assumption) ?_ | dsimp only | split

theorem State.setVec_keeps {s : State} {n : Nat} {st : Nat} (cl : Closed 596726967840049408 P) (h0 : P s) :
    P (State.setVec s n st) := by
  unfold State.setVec
  try dsimp only
  repeat' first
    | with_reducible assumption | (with_reducible apply Closed.mono cl; decide) | (with_reducible apply State.put_keeps cl)
    | (with_reducible apply A.PORT_ILM_STATE_in; decide) | with_reducible apply State.modLn_keeps
    | with_reducible apply State.showFlock_keeps | with_reducible apply each_keeps | with_reducible apply State.raise_keeps
    | intro _ _ _ | intro _ _ | with_reducible refine pair_keeps (by with_reducible assumption) ?_ | dsimp only | split

theorem State.leaveGroup_keeps {s : State} {n : Nat} (cl : Closed 596726967840049408 P) (h0 : P s) :
    P (State.leaveGroup s n) := by
  unfold State.leaveGroup
  try dsimp only
  repeat' first
    | with_reducible assumption | (with_reducible apply Closed.mono cl; decide) | with_reducible apply State.modLn_keeps
    | with_reducible apply State.setVec_keeps | intro _ _ _ | intro _ _
    | with_reducible refine pair_keeps (by with_reducible assumption) ?_ | dsimp only | split

theorem State.leaveNow_keeps {s : State} {k : Nat} (cl : Closed 596726967840049408 P) (h0 : P s) : P (State.leaveNow s k) := by
  unfold State.leaveNow
  try dsimp only
  repeat' first
    | with_reducible assumption | (with_reducible apply Closed.mono cl; decide) | with_reducible apply each_keeps
    | with_reducible apply State.setVec_keeps | intro _ _ _ | intro _ _
    | with_reducible refine pair_keeps (by with_reducible assumption) ?_ | dsimp only | split

end Sys2Proof.Machine
end

