-- ==== Sys2Proof/Laws/Keeps/SwapRows.lean ====
section
/-!
SUPPORT. The updates that each operation of Machine/SwapRows.lean makes: one law for each.
-/
namespace Sys2Proof.Machine

variable {P : State → Prop}

theorem State.leadCheck_keeps {s : State} {n : Nat} (cl : Closed 9444750980137799909376 P) (h0 : P s) :
    P (State.leadCheck s n) := by
  unfold State.leadCheck
  try dsimp only
  repeat' first
    | with_reducible assumption | (with_reducible apply Closed.mono cl; decide) | (with_reducible apply State.put_keeps cl)
    | (with_reducible apply A.PORT_ILM_STATE_in; decide) | (with_reducible apply A.PISTE_PORT_in; decide) | intro _ _ _
    | intro _ _ | with_reducible refine pair_keeps (by with_reducible assumption) ?_ | dsimp only | split

theorem State.sendLead_keeps {s : State} {n : Nat} (cl : Closed 34816 P) (h0 : P s) : P (State.sendLead s n) := by
  unfold State.sendLead
  try dsimp only
  repeat' first
    | with_reducible assumption | (with_reducible apply Closed.mono cl; decide) | with_reducible apply State.sendEoc_keeps
    | intro _ _ _ | intro _ _ | with_reducible refine pair_keeps (by with_reducible assumption) ?_ | dsimp only | split

theorem State.bandFlags_keeps {s : State} {n : Nat} {k : Nat} (cl : Closed 4194304 P) (h0 : P s) : P (State.bandFlags s n k) := by
  unfold State.bandFlags
  try dsimp only
  repeat' first
    | with_reducible assumption | (with_reducible apply Closed.mono cl; decide) | with_reducible apply withPiste_keeps
    | intro _ _ _ | intro _ _ | with_reducible refine pair_keeps (by with_reducible assumption) ?_ | dsimp only | split

theorem State.eraseSym_keeps {s : State} {n : Nat} (cl : Closed 20266215503071488 P) (h0 : P s) : P (State.eraseSym s n) := by
  unfold State.eraseSym
  try dsimp only
  repeat' first
    | with_reducible assumption | (with_reducible apply Closed.mono cl; decide) | (with_reducible apply State.count_keeps cl)
    | (with_reducible apply A.PORT_ILM_ERASED_in; decide) | with_reducible apply State.modLn_keeps
    | with_reducible apply State.cenPort_keeps | with_reducible apply State.raise_keeps | intro _ _ _ | intro _ _
    | with_reducible refine pair_keeps (by with_reducible assumption) ?_ | dsimp only | split

theorem State.cleanSym_keeps {s : State} {n : Nat} {err : List (BitVec 8)} (cl : Closed 32768 P) (h0 : P s) :
    P (State.cleanSym s n err) := by
  unfold State.cleanSym
  try dsimp only
  repeat' first
    | with_reducible assumption | (with_reducible apply Closed.mono cl; decide) | with_reducible apply State.modLn_keeps
    | intro _ _ _ | intro _ _ | with_reducible refine pair_keeps (by with_reducible assumption) ?_ | dsimp only | split

theorem State.takeWord_keeps {s : State} {n : Nat} {word : BitVec 32} (cl : Closed 27021597764255744 P) (h0 : P s) :
    P (State.takeWord s n word) := by
  unfold State.takeWord
  try dsimp only
  repeat' first
    | with_reducible assumption | (with_reducible apply Closed.mono cl; decide) | (with_reducible apply State.count_keeps cl)
    | (with_reducible apply A.PORT_ILM_ACKW_ERR_in; decide) | with_reducible apply State.eocBytesIn_keeps | intro _ _ _
    | intro _ _ | with_reducible refine pair_keeps (by with_reducible assumption) ?_ | dsimp only | split

theorem State.takeBits_keeps {s : State} {n : Nat} {erased : Bool} {bands : List Nat} (cl : Closed 32768 P) (h0 : P s) :
    P (State.takeBits s n erased bands) := by
  unfold State.takeBits
  try dsimp only
  repeat' first
    | with_reducible assumption | (with_reducible apply Closed.mono cl; decide) | with_reducible apply State.modLn_keeps
    | intro _ _ _ | intro _ _ | with_reducible refine pair_keeps (by with_reducible assumption) ?_ | dsimp only | split

theorem State.fillStream_keeps {s : State} {n : Nat} {k : Nat} {x0 : Nat} (cl : Closed 17179901952 P) (h0 : P s) :
    P (State.fillStream s n k x0) := by
  induction x0 generalizing s with
  | zero => exact h0
  | succ _ ih =>
    unfold State.fillStream
    try dsimp only
    repeat' first
      | with_reducible assumption | (with_reducible apply Closed.mono cl; decide) | with_reducible refine ih ?_
      | with_reducible apply State.sendIdle_keeps | intro _ _ _ | intro _ _
      | with_reducible refine pair_keeps (by with_reducible assumption) ?_ | dsimp only | split

theorem State.sendSymbol_keeps {s : State} {n : Nat} (cl : Closed 17179904000 P) (h0 : P s) : P (State.sendSymbol s n) := by
  unfold State.sendSymbol
  try dsimp only
  repeat' first
    | with_reducible assumption | (with_reducible apply Closed.mono cl; decide) | with_reducible apply State.nextWord_keeps
    | with_reducible apply State.emit_keeps | with_reducible apply State.fillStream_keeps
    | with_reducible apply State.modLn_keeps | intro _ _ _ | intro _ _
    | with_reducible refine pair_keeps (by with_reducible assumption) ?_ | dsimp only | split

theorem execSymbolReceived_keeps {port : BitVec 4} {err : List (BitVec 8)} {word : BitVec 32} {s : State} (cl : Closed 29273414762006784 P) (h0 : P s) :
    OutIs P (execSymbolReceived port err word s) := by
  unfold execSymbolReceived
  try dsimp only
  repeat' first
    | with_reducible assumption | (with_reducible apply Closed.mono cl; decide) | with_reducible apply State.modLn_keeps
    | with_reducible apply State.takeBits_keeps | with_reducible apply State.bandFlags_keeps
    | with_reducible apply State.eraseSym_keeps | with_reducible apply State.takeWord_keeps
    | with_reducible apply State.cleanSym_keeps | with_reducible apply State.sendSymbol_keeps
    | with_reducible refine outIs_next ?_ | intro _ _ _ | intro _ _
    | with_reducible refine pair_keeps (by with_reducible assumption) ?_ | dsimp only | split

theorem execErasureEventEnd_keeps {port : BitVec 4} {s : State} (cl : Closed 32768 P) (h0 : P s) :
    OutIs P (execErasureEventEnd port s) := by
  unfold execErasureEventEnd
  try dsimp only
  repeat' first
    | with_reducible assumption | (with_reducible apply Closed.mono cl; decide) | with_reducible apply State.modLn_keeps
    | with_reducible refine outIs_next ?_ | intro _ _ _ | intro _ _
    | with_reducible refine pair_keeps (by with_reducible assumption) ?_ | dsimp only | split

theorem State.monitor_keeps {s : State} {n : Nat} {erased : Bool} {m : Mon} (cl : Closed 315251973915967488 P) (h0 : P s) :
    P (State.monitor s n erased m) := by
  unfold State.monitor
  try dsimp only
  repeat' first
    | with_reducible assumption | (with_reducible apply Closed.mono cl; decide) | (with_reducible apply State.put_keeps cl)
    | (with_reducible apply A.PORT_SNR_in; decide) | (with_reducible apply A.PORT_ILM_ECHO_in; decide)
    | (with_reducible apply A.PORT_MON_MARGIN_in; decide) | with_reducible apply each_keeps
    | with_reducible apply State.modLn_keeps | with_reducible refine foldl_keeps ?_ ?_
    | with_reducible refine foldlFst_keeps ?_ ?_ | intro _ _ _ | intro _ _
    | with_reducible refine pair_keeps (by with_reducible assumption) ?_ | dsimp only | split

theorem State.announceAgain_keeps {s : State} {n : Nat} {x : Change} (cl : Closed 9444750980137799942144 P) (h0 : P s) :
    P (State.announceAgain s n x) := by
  unfold State.announceAgain
  try dsimp only
  repeat' first
    | with_reducible assumption | (with_reducible apply Closed.mono cl; decide) | with_reducible apply State.announce_keeps
    | with_reducible apply State.modLn_keeps | intro _ _ _ | intro _ _
    | with_reducible refine pair_keeps (by with_reducible assumption) ?_ | dsimp only | split

theorem State.superWords_keeps {s : State} {n : Nat} (cl : Closed 9444750980137799944192 P) (h0 : P s) :
    P (State.superWords s n) := by
  unfold State.superWords
  try dsimp only
  repeat' first
    | with_reducible assumption | (with_reducible apply Closed.mono cl; decide) | with_reducible apply each_keeps
    | with_reducible apply State.oweSwap_keeps | with_reducible apply State.modLn_keeps
    | with_reducible apply State.announceAgain_keeps | with_reducible apply State.sendLead_keeps | intro _ _ _ | intro _ _
    | with_reducible refine pair_keeps (by with_reducible assumption) ?_ | dsimp only | split

theorem State.lpiStep_keeps {s : State} {n : Nat} (cl : Closed 9007199254773760 P) (h0 : P s) : P (State.lpiStep s n) := by
  unfold State.lpiStep
  try dsimp only
  repeat' first
    | with_reducible assumption | (with_reducible apply Closed.mono cl; decide) | (with_reducible apply State.put_keeps cl)
    | (with_reducible apply State.count_keeps cl) | (with_reducible apply A.PORT_LINK_STATUS_in; decide)
    | (with_reducible apply A.PORT_LPI_ENTRIES_in; decide) | with_reducible apply State.modLn_keeps | intro _ _ _ | intro _ _
    | with_reducible refine pair_keeps (by with_reducible assumption) ?_ | dsimp only | split

theorem State.sendSync_keeps {s : State} {n : Nat} (cl : Closed 17179869184 P) (h0 : P s) : P (State.sendSync s n) := by
  unfold State.sendSync
  try dsimp only
  repeat' first
    | with_reducible assumption | (with_reducible apply Closed.mono cl; decide) | with_reducible apply State.emit_keeps
    | intro _ _ _ | intro _ _ | with_reducible refine pair_keeps (by with_reducible assumption) ?_ | dsimp only | split

theorem State.hearSlave_keeps {s : State} {n : Nat} {erased : Bool} (cl : Closed 32768 P) (h0 : P s) :
    P (State.hearSlave s n erased) := by
  unfold State.hearSlave
  try dsimp only
  repeat' first
    | with_reducible assumption | (with_reducible apply Closed.mono cl; decide) | with_reducible apply State.modLn_keeps
    | intro _ _ _ | intro _ _ | with_reducible refine pair_keeps (by with_reducible assumption) ?_ | dsimp only | split

theorem State.tellCount_keeps {s : State} {n : Nat} (cl : Closed 34816 P) (h0 : P s) : P (State.tellCount s n) := by
  unfold State.tellCount
  try dsimp only
  repeat' first
    | with_reducible assumption | (with_reducible apply Closed.mono cl; decide) | with_reducible apply State.sendEoc_keeps
    | intro _ _ _ | intro _ _ | with_reducible refine pair_keeps (by with_reducible assumption) ?_ | dsimp only | split

theorem State.superTick_keeps {s : State} {n : Nat} {erased : Bool} (cl : Closed 590602055150546749440 P) (h0 : P s) :
    P (State.superTick s n erased) := by
  unfold State.superTick
  try dsimp only
  repeat' first
    | with_reducible assumption | (with_reducible apply Closed.mono cl; decide) | (with_reducible apply State.put_keeps cl)
    | (with_reducible apply A.PORT_ILM_SFC_in; decide) | with_reducible apply State.modLn_keeps
    | with_reducible apply State.cenPort_keeps | with_reducible apply State.tellCount_keeps
    | with_reducible apply State.hearSlave_keeps | with_reducible apply State.sendSync_keeps
    | with_reducible apply State.revert_keeps | intro _ _ _ | intro _ _
    | with_reducible refine pair_keeps (by with_reducible assumption) ?_ | dsimp only | split

theorem State.vecStep_keeps {s : State} {n : Nat} {mon : Mon} (cl : Closed 576460752303458304 P) (h0 : P s) :
    P (State.vecStep s n mon) := by
  unfold State.vecStep
  try dsimp only
  repeat' first
    | with_reducible assumption | (with_reducible apply Closed.mono cl; decide) | (with_reducible apply State.count_keeps cl)
    | (with_reducible apply A.FLOCK_VEC_SWEEPS_in; decide) | with_reducible apply State.modLn_keeps
    | with_reducible apply State.sendEoc_keeps | intro _ _ _ | intro _ _
    | with_reducible refine pair_keeps (by with_reducible assumption) ?_ | dsimp only | split

theorem State.statusStep_keeps {s : State} {n : Nat} (cl : Closed 34816 P) (h0 : P s) : P (State.statusStep s n) := by
  unfold State.statusStep
  try dsimp only
  repeat' first
    | with_reducible assumption | (with_reducible apply Closed.mono cl; decide) | with_reducible apply State.modLn_keeps
    | with_reducible apply State.sendEoc_keeps | intro _ _ _ | intro _ _
    | with_reducible refine pair_keeps (by with_reducible assumption) ?_ | dsimp only | split

theorem execSuperframeBoundary_keeps {port : BitVec 4} {erased : Bool} {mon : Mon} {s : State} (cl : Closed 10035922740641242581248 P) (h0 : P s) :
    OutIs P (execSuperframeBoundary port erased mon s) := by
  unfold execSuperframeBoundary
  try dsimp only
  repeat' first
    | with_reducible assumption | (with_reducible apply Closed.mono cl; decide) | with_reducible apply State.leaveNow_keeps
    | with_reducible apply State.statusStep_keeps | with_reducible apply State.lpiStep_keeps
    | with_reducible apply State.superWords_keeps | with_reducible apply State.monitor_keeps
    | with_reducible apply State.vecStep_keeps | with_reducible apply State.superTick_keeps | with_reducible refine outIs_next ?_
    | intro _ _ _ | intro _ _ | with_reducible refine pair_keeps (by with_reducible assumption) ?_ | dsimp only | split

theorem State.cancelChange_keeps {s : State} {n : Nat} {x : Change} (cl : Closed 9444750980137799942144 P) (h0 : P s) :
    P (State.cancelChange s n x) := by
  unfold State.cancelChange
  try dsimp only
  repeat' first
    | with_reducible assumption | (with_reducible apply Closed.mono cl; decide) | with_reducible apply State.dropChanges_keeps
    | with_reducible apply State.modLn_keeps | intro _ _ _ | intro _ _
    | with_reducible refine pair_keeps (by with_reducible assumption) ?_ | dsimp only | split

theorem execSwapAnnounce_keeps {port : BitVec 4} {dir : Bool} {kind : BitVec 2} {arg : BitVec 2} {sf : BitVec 16} {s : State} (cl : Closed 9444750980137799942144 P) (h0 : P s) :
    OutIs P (execSwapAnnounce port dir kind arg sf s) := by
  unfold execSwapAnnounce
  try dsimp only
  repeat' first
    | with_reducible assumption | (with_reducible apply Closed.mono cl; decide) | with_reducible apply State.oweSwap_keeps
    | with_reducible apply State.leadCheck_keeps | with_reducible apply State.modLn_keeps | with_reducible apply each_keeps
    | with_reducible apply State.cancelChange_keeps | with_reducible apply State.displace_keeps
    | with_reducible apply State.modPend_keeps | with_reducible refine outIs_next ?_ | intro _ _ _ | intro _ _
    | with_reducible refine pair_keeps (by with_reducible assumption) ?_ | dsimp only | split

theorem execSwapConfirm_keeps {port : BitVec 4} {dir : Bool} {kind : BitVec 2} {_arg : BitVec 2} {sf : BitVec 16} {s : State} (cl : Closed 9444750980137799942144 P) (h0 : P s) :
    OutIs P (execSwapConfirm port dir kind _arg sf s) := by
  unfold execSwapConfirm
  try dsimp only
  repeat' first
    | with_reducible assumption | (with_reducible apply Closed.mono cl; decide) | with_reducible apply State.modPend_keeps
    | with_reducible refine outIs_next ?_ | intro _ _ _ | intro _ _
    | with_reducible refine pair_keeps (by with_reducible assumption) ?_ | dsimp only | split

theorem execSwapReject_keeps {port : BitVec 4} {dir : Bool} {kind : BitVec 2} {_arg : BitVec 2} {sf : BitVec 16} {s : State} (cl : Closed 9444750980137799942144 P) (h0 : P s) :
    OutIs P (execSwapReject port dir kind _arg sf s) := by
  unfold execSwapReject
  try dsimp only
  repeat' first
    | with_reducible assumption | (with_reducible apply Closed.mono cl; decide) | with_reducible apply State.dropChanges_keeps
    | with_reducible refine outIs_next ?_ | intro _ _ _ | intro _ _
    | with_reducible refine pair_keeps (by with_reducible assumption) ?_ | dsimp only | split

theorem execSwapCancel_keeps {port : BitVec 4} {dir : Bool} {kind : BitVec 2} {_arg : BitVec 2} {sf : BitVec 16} {s : State} (cl : Closed 9444750980137799942144 P) (h0 : P s) :
    OutIs P (execSwapCancel port dir kind _arg sf s) := by
  unfold execSwapCancel
  try dsimp only
  repeat' first
    | with_reducible assumption | (with_reducible apply Closed.mono cl; decide) | (with_reducible apply State.count_keeps cl)
    | (with_reducible apply A.PORT_ILM_SWAP_FAIL_in; decide) | with_reducible apply State.dropChanges_keeps
    | with_reducible apply State.modLn_keeps | with_reducible refine outIs_next ?_ | intro _ _ _ | intro _ _
    | with_reducible refine pair_keeps (by with_reducible assumption) ?_ | dsimp only | split

theorem execSwapConfirmDeadline_keeps {port : BitVec 4} {s : State} (cl : Closed 9444753231954793498880 P) (h0 : P s) :
    OutIs P (execSwapConfirmDeadline port s) := by
  unfold execSwapConfirmDeadline
  try dsimp only
  repeat' first
    | with_reducible assumption | (with_reducible apply Closed.mono cl; decide) | (with_reducible apply State.count_keeps cl)
    | (with_reducible apply A.PORT_ILM_SWAP_FAIL_in; decide) | with_reducible apply each_keeps
    | with_reducible apply State.cancelChange_keeps | with_reducible apply State.raise_keeps
    | with_reducible refine outIs_next ?_ | intro _ _ _ | intro _ _
    | with_reducible refine pair_keeps (by with_reducible assumption) ?_ | dsimp only | split

theorem execLoadingChangeAtS_keeps {port : BitVec 4} {erased : Bool} {pts : List (BitVec 16 × BitVec 16)} {s : State} (cl : Closed 12415115876985894635776 P) (h0 : P s) :
    OutIs P (execLoadingChangeAtS port erased pts s) := by
  unfold execLoadingChangeAtS
  try dsimp only
  repeat' first
    | with_reducible assumption | (with_reducible apply Closed.mono cl; decide) | (with_reducible apply State.count_keeps cl)
    | (with_reducible apply A.PORT_ILM_SWAP_FAIL_in; decide) | with_reducible apply each_keeps
    | with_reducible apply State.applyChange_keeps | with_reducible apply State.modLn_keeps
    | with_reducible apply State.raise_keeps | with_reducible apply State.modPend_keeps | with_reducible refine outIs_next ?_
    | intro _ _ _ | intro _ _ | with_reducible refine pair_keeps (by with_reducible assumption) ?_ | dsimp only | split

theorem execBitSwapRequest_keeps {port : BitVec 4} {tones : List (BitVec 12)} {s : State} (cl : Closed 34816 P) (h0 : P s) :
    OutIs P (execBitSwapRequest port tones s) := by
  unfold execBitSwapRequest
  try dsimp only
  repeat' first
    | with_reducible assumption | (with_reducible apply Closed.mono cl; decide) | with_reducible apply State.cenHerd_keeps
    | with_reducible apply State.modLn_keeps | with_reducible apply State.sendEoc_keeps | with_reducible refine id_keeps ?_
    | with_reducible refine outIs_next ?_ | intro _ _ _ | intro _ _
    | with_reducible refine pair_keeps (by with_reducible assumption) ?_ | dsimp only | split

theorem execProfileSwapAnnounce_keeps {port : BitVec 4} {s : State} (cl : Closed 9444750980137799942144 P) (h0 : P s) :
    OutIs P (execProfileSwapAnnounce port s) := by
  unfold execProfileSwapAnnounce
  try dsimp only
  repeat' first
    | with_reducible assumption | (with_reducible apply Closed.mono cl; decide) | with_reducible apply State.announce_keeps
    | with_reducible refine outIs_next ?_ | intro _ _ _ | intro _ _
    | with_reducible refine pair_keeps (by with_reducible assumption) ?_ | dsimp only | split

theorem execToneCapAnnounce_keeps {port : BitVec 4} {s : State} (cl : Closed 9444750980137799942144 P) (h0 : P s) :
    OutIs P (execToneCapAnnounce port s) := by
  unfold execToneCapAnnounce
  try dsimp only
  repeat' first
    | with_reducible assumption | (with_reducible apply Closed.mono cl; decide) | with_reducible apply State.modLn_keeps
    | with_reducible apply State.announce_keeps | with_reducible refine outIs_next ?_ | intro _ _ _ | intro _ _
    | with_reducible refine pair_keeps (by with_reducible assumption) ?_ | dsimp only | split

theorem execStatus_keeps {port : BitVec 4} {rxMin : BitVec 8} {rxAvg : BitVec 8} {_lost : BitVec 32} {s : State} (cl : Closed 9007199254740992 P) (h0 : P s) :
    OutIs P (execStatus port rxMin rxAvg _lost s) := by
  unfold execStatus
  try dsimp only
  repeat' first
    | with_reducible assumption | (with_reducible apply Closed.mono cl; decide) | (with_reducible apply State.put_keeps cl)
    | (with_reducible apply A.PORT_MON_MARGIN_in; decide) | with_reducible refine outIs_next ?_ | intro _ _ _ | intro _ _
    | with_reducible refine pair_keeps (by with_reducible assumption) ?_ | dsimp only | split

theorem execLpiEnter_keeps {port : BitVec 4} {seq : BitVec 8} {sf : BitVec 32} {s : State} (cl : Closed 34816 P) (h0 : P s) :
    OutIs P (execLpiEnter port seq sf s) := by
  unfold execLpiEnter
  try dsimp only
  repeat' first
    | with_reducible assumption | (with_reducible apply Closed.mono cl; decide) | with_reducible apply State.eocDo_keeps
    | with_reducible apply State.modLn_keeps | with_reducible refine outIs_next ?_ | intro _ _ _ | intro _ _
    | with_reducible refine pair_keeps (by with_reducible assumption) ?_ | dsimp only | split

theorem execLpiWake_keeps {port : BitVec 4} {s : State} (cl : Closed 32768 P) (h0 : P s) : OutIs P (execLpiWake port s) := by
  unfold execLpiWake
  try dsimp only
  repeat' first
    | with_reducible assumption | (with_reducible apply Closed.mono cl; decide) | with_reducible apply State.modLn_keeps
    | with_reducible refine outIs_next ?_ | intro _ _ _ | intro _ _
    | with_reducible refine pair_keeps (by with_reducible assumption) ?_ | dsimp only | split

theorem execLpiIdleTimeout_keeps {port : BitVec 4} {s : State} (cl : Closed 34816 P) (h0 : P s) :
    OutIs P (execLpiIdleTimeout port s) := by
  unfold execLpiIdleTimeout
  try dsimp only
  repeat' first
    | with_reducible assumption | (with_reducible apply Closed.mono cl; decide) | with_reducible apply State.modLn_keeps
    | with_reducible apply State.sendEoc_keeps | with_reducible refine outIs_next ?_ | intro _ _ _ | intro _ _
    | with_reducible refine pair_keeps (by with_reducible assumption) ?_ | dsimp only | split

theorem execLegacyLpiIdle_keeps {port : BitVec 4} {s : State} (cl : Closed 9007199254740992 P) (h0 : P s) :
    OutIs P (execLegacyLpiIdle port s) := by
  unfold execLegacyLpiIdle
  try dsimp only
  repeat' first
    | with_reducible assumption | (with_reducible apply Closed.mono cl; decide) | (with_reducible apply State.count_keeps cl)
    | (with_reducible apply State.put_keeps cl) | (with_reducible apply A.PORT_LPI_ENTRIES_in; decide)
    | (with_reducible apply A.PORT_LINK_STATUS_in; decide) | with_reducible refine outIs_next ?_ | intro _ _ _ | intro _ _
    | with_reducible refine pair_keeps (by with_reducible assumption) ?_ | dsimp only | split

theorem execRateCap_keeps {port : BitVec 4} {seq : BitVec 8} {cap : BitVec 16} {s : State} (cl : Closed 34816 P) (h0 : P s) :
    OutIs P (execRateCap port seq cap s) := by
  unfold execRateCap
  try dsimp only
  repeat' first
    | with_reducible assumption | (with_reducible apply Closed.mono cl; decide) | with_reducible apply State.eocDo_keeps
    | with_reducible apply State.modLn_keeps | with_reducible refine outIs_next ?_ | intro _ _ _ | intro _ _
    | with_reducible refine pair_keeps (by with_reducible assumption) ?_ | dsimp only | split

theorem execLoadingUpdate_keeps {port : BitVec 4} {seq : BitVec 8} {id : BitVec 8} {entries : List (BitVec 32)} {s : State} (cl : Closed 9445039210513951655936 P) (h0 : P s) :
    OutIs P (execLoadingUpdate port seq id entries s) := by
  unfold execLoadingUpdate
  try dsimp only
  repeat' first
    | with_reducible assumption | (with_reducible apply Closed.mono cl; decide) | with_reducible apply State.eocDo_keeps
    | with_reducible apply State.announce_keeps | with_reducible apply State.modLn_keeps | with_reducible apply each_keeps
    | with_reducible apply State.setEntry_keeps | with_reducible refine id_keeps ?_ | with_reducible refine outIs_next ?_
    | intro _ _ _ | intro _ _ | with_reducible refine pair_keeps (by with_reducible assumption) ?_ | dsimp only | split

theorem execCapUpdate_keeps {port : BitVec 4} {seq : BitVec 8} {count : BitVec 16} {s : State} (cl : Closed 34816 P) (h0 : P s) :
    OutIs P (execCapUpdate port seq count s) := by
  unfold execCapUpdate
  try dsimp only
  repeat' first
    | with_reducible assumption | (with_reducible apply Closed.mono cl; decide) | with_reducible apply State.eocDo_keeps
    | with_reducible apply State.modLn_keeps | with_reducible refine outIs_next ?_ | intro _ _ _ | intro _ _
    | with_reducible refine pair_keeps (by with_reducible assumption) ?_ | dsimp only | split

theorem execCustomDef_keeps {port : BitVec 4} {seq : BitVec 8} {which : Bool} {bands : List (BitVec 32)} {s : State} (cl : Closed 34816 P) (h0 : P s) :
    OutIs P (execCustomDef port seq which bands s) := by
  unfold execCustomDef
  try dsimp only
  repeat' first
    | with_reducible assumption | (with_reducible apply Closed.mono cl; decide) | with_reducible apply State.eocDo_keeps
    | with_reducible apply State.modLn_keeps | with_reducible refine outIs_next ?_ | intro _ _ _ | intro _ _
    | with_reducible refine pair_keeps (by with_reducible assumption) ?_ | dsimp only | split

theorem State.fextReport_keeps {s : State} {n : Nat} {sf : Nat} (cl : Closed 32768 P) (h0 : P s) :
    P (State.fextReport s n sf) := by
  unfold State.fextReport
  try dsimp only
  repeat' first
    | with_reducible assumption | (with_reducible apply Closed.mono cl; decide) | with_reducible apply State.modLn_keeps
    | intro _ _ _ | intro _ _ | with_reducible refine pair_keeps (by with_reducible assumption) ?_ | dsimp only | split

theorem execVecError_keeps {port : BitVec 4} {sf : BitVec 16} {_errors : Bytes} {s : State} (cl : Closed 34816 P) (h0 : P s) :
    OutIs P (execVecError port sf _errors s) := by
  unfold execVecError
  try dsimp only
  repeat' first
    | with_reducible assumption | (with_reducible apply Closed.mono cl; decide) | with_reducible apply State.eocDo_keeps
    | with_reducible apply State.fextReport_keeps | with_reducible refine outIs_next ?_ | intro _ _ _ | intro _ _
    | with_reducible refine pair_keeps (by with_reducible assumption) ?_ | dsimp only | split

theorem execPisteLead_keeps {port : BitVec 4} {claim : Bool} {_fixValid : Bool} {_stopped : Bool} {_route : BitVec 32} {_pos : BitVec 40} {_speed : BitVec 16} {s : State} (cl : Closed 9444753231954793498880 P) (h0 : P s) :
    OutIs P (execPisteLead port claim _fixValid _stopped _route _pos _speed s) := by
  unfold execPisteLead
  try dsimp only
  repeat' first
    | with_reducible assumption | (with_reducible apply Closed.mono cl; decide) | (with_reducible apply State.put_keeps cl)
    | (with_reducible apply A.PISTE_PORT_in; decide) | with_reducible apply State.leadCheck_keeps
    | with_reducible apply State.modLn_keeps | with_reducible apply State.raise_keeps | with_reducible refine outIs_next ?_
    | intro _ _ _ | intro _ _ | with_reducible refine pair_keeps (by with_reducible assumption) ?_ | dsimp only | split

theorem execMarginLowTimeout_keeps {port : BitVec 4} {s : State} (cl : Closed 2251954432510208 P) (h0 : P s) :
    OutIs P (execMarginLowTimeout port s) := by
  unfold execMarginLowTimeout
  try dsimp only
  repeat' first
    | with_reducible assumption | (with_reducible apply Closed.mono cl; decide) | with_reducible apply State.raise_keeps
    | with_reducible apply timeTo_keeps | with_reducible refine outIs_next ?_ | intro _ _ _ | intro _ _
    | with_reducible refine pair_keeps (by with_reducible assumption) ?_ | dsimp only | split

theorem execEchoLowTimeout_keeps {port : BitVec 4} {s : State} (cl : Closed 2251954432510208 P) (h0 : P s) :
    OutIs P (execEchoLowTimeout port s) := by
  unfold execEchoLowTimeout
  try dsimp only
  repeat' first
    | with_reducible assumption | (with_reducible apply Closed.mono cl; decide) | with_reducible apply State.raise_keeps
    | with_reducible apply timeTo_keeps | with_reducible refine outIs_next ?_ | intro _ _ _ | intro _ _
    | with_reducible refine pair_keeps (by with_reducible assumption) ?_ | dsimp only | split

theorem execMsgAck_keeps {port : BitVec 4} {acked : BitVec 8} {typ : BitVec 8} {s : State} (cl : Closed 100352 P) (h0 : P s) :
    OutIs P (execMsgAck port acked typ s) := by
  unfold execMsgAck
  try dsimp only
  repeat' first
    | with_reducible assumption | (with_reducible apply Closed.mono cl; decide) | with_reducible apply State.modLn_keeps
    | with_reducible apply State.modPd_keeps | with_reducible apply State.sendWaiting_keeps | with_reducible refine outIs_next ?_
    | intro _ _ _ | intro _ _ | with_reducible refine pair_keeps (by with_reducible assumption) ?_ | dsimp only | split

theorem execEocReservedMsg_keeps {port : BitVec 4} {typ : BitVec 8} {seq : BitVec 8} {noack : Bool} {s : State} (cl : Closed 34816 P) (h0 : P s) :
    OutIs P (execEocReservedMsg port typ seq noack s) := by
  unfold execEocReservedMsg
  try dsimp only
  repeat' first
    | with_reducible assumption | (with_reducible apply Closed.mono cl; decide) | with_reducible apply State.eocIn_keeps
    | with_reducible refine outIs_next ?_ | intro _ _ _ | intro _ _
    | with_reducible refine pair_keeps (by with_reducible assumption) ?_ | dsimp only | split

end Sys2Proof.Machine
end

