-- ==== Sys2Proof/Laws/Keeps/Link.lean ====
section
/-!
SUPPORT. The updates that each operation of Machine/Link.lean makes: one law for each.
-/
namespace Sys2Proof.Machine

variable {P : State → Prop}

theorem State.laneFault_keeps {s : State} {n : Nat} {on : Bool} (cl : Closed 73786976294838337536 P) (h0 : P s) :
    P (State.laneFault s n on) := by
  unfold State.laneFault
  try dsimp only
  repeat' first
    | with_reducible assumption | (with_reducible apply Closed.mono cl; decide) | (with_reducible apply State.put_keeps cl)
    | (with_reducible apply A.HL_STATUS_in; decide) | with_reducible apply State.modHl_keeps | intro _ _ _ | intro _ _
    | with_reducible refine pair_keeps (by with_reducible assumption) ?_ | dsimp only | split

theorem State.noteTried_keeps {s : State} {n : Nat} (cl : Closed 1048576 P) (h0 : P s) : P (State.noteTried s n) := by
  unfold State.noteTried
  try dsimp only
  repeat' first
    | with_reducible assumption | (with_reducible apply Closed.mono cl; decide) | with_reducible apply withApply_keeps
    | intro _ _ _ | intro _ _ | with_reducible refine pair_keeps (by with_reducible assumption) ?_ | dsimp only | split

theorem State.dropStored_keeps {s : State} {n : Nat} (cl : Closed 32768 P) (h0 : P s) : P (State.dropStored s n) := by
  unfold State.dropStored
  try dsimp only
  repeat' first
    | with_reducible assumption | (with_reducible apply Closed.mono cl; decide) | with_reducible apply State.modLn_keeps
    | intro _ _ _ | intro _ _ | with_reducible refine pair_keeps (by with_reducible assumption) ?_ | dsimp only | split

theorem State.sendPages_keeps {s : State} {n : Nat} (cl : Closed 17179869184 P) (h0 : P s) : P (State.sendPages s n) := by
  unfold State.sendPages
  try dsimp only
  repeat' first
    | with_reducible assumption | (with_reducible apply Closed.mono cl; decide) | with_reducible apply State.emit_keeps
    | intro _ _ _ | intro _ _ | with_reducible refine pair_keeps (by with_reducible assumption) ?_ | dsimp only | split

theorem State.drawSeed_keeps {s : State} {n : Nat} (cl : Closed 51539640320 P) (h0 : P s) : P (State.drawSeed s n) := by
  unfold State.drawSeed
  try dsimp only
  repeat' first
    | with_reducible assumption | (with_reducible apply Closed.mono cl; decide) | with_reducible apply each_keeps
    | with_reducible apply State.drawn_keeps | with_reducible apply State.modLn_keeps
    | with_reducible apply State.sendPages_keeps | intro _ _ _ | intro _ _
    | with_reducible refine pair_keeps (by with_reducible assumption) ?_ | dsimp only | split

theorem State.startAn_keeps {s : State} {n : Nat} (cl : Closed 9007250794381312 P) (h0 : P s) : P (State.startAn s n) := by
  unfold State.startAn
  try dsimp only
  repeat' first
    | with_reducible assumption | (with_reducible apply Closed.mono cl; decide) | (with_reducible apply State.put_keeps cl)
    | (with_reducible apply A.PORT_LINK_STATUS_in; decide) | (with_reducible apply A.PORT_AN_STATUS_in; decide)
    | with_reducible apply State.modLn_keeps | with_reducible apply State.drawSeed_keeps
    | with_reducible apply State.sendPages_keeps | intro _ _ _ | intro _ _
    | with_reducible refine pair_keeps (by with_reducible assumption) ?_ | dsimp only | split

theorem State.flushKept_keeps {s : State} {n : Nat} (cl : Closed 38280614012586240 P) (h0 : P s) : P (State.flushKept s n) := by
  unfold State.flushKept
  try dsimp only
  repeat' first
    | with_reducible assumption | (with_reducible apply Closed.mono cl; decide) | with_reducible apply State.flushPad_keeps
    | intro _ _ _ | intro _ _ | with_reducible refine pair_keeps (by with_reducible assumption) ?_ | dsimp only | split

theorem State.fallToAn_keeps {s : State} {n : Nat} (cl : Closed 47287847627098368 P) (h0 : P s) : P (State.fallToAn s n) := by
  unfold State.fallToAn
  try dsimp only
  repeat' first
    | with_reducible assumption | (with_reducible apply Closed.mono cl; decide) | with_reducible apply State.fillCheck_keeps
    | with_reducible apply State.startAn_keeps | with_reducible apply State.flushKept_keeps | intro _ _ _ | intro _ _
    | with_reducible refine pair_keeps (by with_reducible assumption) ?_ | dsimp only | split

theorem State.stopTraining_keeps {s : State} {n : Nat} (cl : Closed 151116333185995741628672 P) (h0 : P s) :
    P (State.stopTraining s n) := by
  unfold State.stopTraining
  try dsimp only
  repeat' first
    | with_reducible assumption | (with_reducible apply Closed.mono cl; decide) | (with_reducible apply State.put_keeps cl)
    | (with_reducible apply A.PORT_LINK_STATUS_in; decide) | with_reducible apply State.modLn_keeps
    | with_reducible apply State.freeSlices_keeps | with_reducible apply State.leaveGroup_keeps | intro _ _ _ | intro _ _
    | with_reducible refine pair_keeps (by with_reducible assumption) ?_ | dsimp only | split

theorem State.trainFail_keeps {s : State} {n : Nat} {code : Nat} (cl : Closed 151116333186030102415616 P) (h0 : P s) :
    P (State.trainFail s n code) := by
  unfold State.trainFail
  try dsimp only
  repeat' first
    | with_reducible assumption | (with_reducible apply Closed.mono cl; decide) | (with_reducible apply State.count_keeps cl)
    | (with_reducible apply State.put_keeps cl) | (with_reducible apply A.PORT_TRAIN_FAILS_in; decide)
    | (with_reducible apply A.PORT_AN_STATUS_in; decide) | with_reducible apply State.stopTraining_keeps
    | with_reducible apply State.noteTried_keeps | with_reducible apply State.modLn_keeps
    | with_reducible apply State.startAn_keeps | intro _ _ _ | intro _ _
    | with_reducible refine pair_keeps (by with_reducible assumption) ?_ | dsimp only | split

theorem State.abortTraining_keeps {s : State} {n : Nat} (cl : Closed 151116369214792760658176 P) (h0 : P s) :
    P (State.abortTraining s n) := by
  unfold State.abortTraining
  try dsimp only
  repeat' first
    | with_reducible assumption | (with_reducible apply Closed.mono cl; decide) | (with_reducible apply State.put_keeps cl)
    | (with_reducible apply A.PORT_AN_STATUS_in; decide) | with_reducible apply State.fillCheck_keeps
    | with_reducible apply State.stopTraining_keeps | intro _ _ _ | intro _ _
    | with_reducible refine pair_keeps (by with_reducible assumption) ?_ | dsimp only | split

theorem State.sayDown_keeps {s : State} {n : Nat} {cause : Nat} {warm : Bool} (cl : Closed 17179869184 P) (h0 : P s) :
    P (State.sayDown s n cause warm) := by
  unfold State.sayDown
  try dsimp only
  repeat' first
    | with_reducible assumption | (with_reducible apply Closed.mono cl; decide) | with_reducible apply State.emit_keeps
    | intro _ _ _ | intro _ _ | with_reducible refine pair_keeps (by with_reducible assumption) ?_ | dsimp only | split

theorem State.offerIlm_keeps {s : State} {n : Nat} (cl : Closed 9007199254773760 P) (h0 : P s) : P (State.offerIlm s n) := by
  unfold State.offerIlm
  try dsimp only
  repeat' first
    | with_reducible assumption | (with_reducible apply Closed.mono cl; decide) | (with_reducible apply State.put_keeps cl)
    | (with_reducible apply A.PORT_AN_STATUS_in; decide) | with_reducible apply State.modLn_keeps | intro _ _ _ | intro _ _
    | with_reducible refine pair_keeps (by with_reducible assumption) ?_ | dsimp only | split

theorem State.storeLink_keeps {s : State} {n : Nat} (cl : Closed 32768 P) (h0 : P s) : P (State.storeLink s n) := by
  unfold State.storeLink
  try dsimp only
  repeat' first
    | with_reducible assumption | (with_reducible apply Closed.mono cl; decide) | with_reducible apply State.modLn_keeps
    | intro _ _ _ | intro _ _ | with_reducible refine pair_keeps (by with_reducible assumption) ?_ | dsimp only | split

theorem State.quietLine_keeps {s : State} {n : Nat} {idleLane : Bool} (cl : Closed 160635177387203007514880 P) (h0 : P s) :
    P (State.quietLine s n idleLane) := by
  unfold State.quietLine
  try dsimp only
  repeat' first
    | with_reducible assumption | (with_reducible apply Closed.mono cl; decide)
    | (with_reducible apply State.dropWords_keeps A.PORT_SNR_range cl (by decide)) | (with_reducible apply State.put_keeps cl)
    | (with_reducible apply A.PORT_LINK_STATUS_in; decide) | (with_reducible apply A.PORT_PAD_STATE_in; decide) | intro t e he ht
    | (simp only [List.mem_cons, List.not_mem_nil, or_false] at he) | (rcases he with he | he) | subst he
    | with_reducible apply State.modPend_keeps | with_reducible apply State.modLn_keeps | with_reducible apply each_mem
    | with_reducible apply State.freeSlices_keeps | with_reducible apply State.leadCheck_keeps
    | with_reducible apply State.laneFault_keeps | intro _ _ _ | intro _ _
    | with_reducible refine pair_keeps (by with_reducible assumption) ?_ | dsimp only | split

theorem State.downPad_keeps {s : State} {n : Nat} {cause : Nat} {padWas : Bool} {keptOk : Bool} {trv : Bool} (cl : Closed 110338208050546944 P) (h0 : P s) :
    P (State.downPad s n cause padWas keptOk trv) := by
  unfold State.downPad
  try dsimp only
  repeat' first
    | with_reducible assumption | (with_reducible apply Closed.mono cl; decide) | (with_reducible apply State.put_keeps cl)
    | (with_reducible apply State.count_keeps cl) | (with_reducible apply State.dropped_keeps cl (by decide))
    | (with_reducible apply A.PORT_PAD_STATE_in; decide) | (with_reducible apply A.PORT_TRV_DROP_TX_in; decide)
    | (with_reducible apply A.PORT_PAD_DROP_TX_in; decide) | with_reducible apply State.flushPad_keeps
    | with_reducible apply State.fillCheck_keeps | with_reducible apply State.modPd_keeps
    | with_reducible apply State.modLn_keeps | with_reducible refine id_keeps ?_ | intro _ _ _ | intro _ _
    | with_reducible refine pair_keeps (by with_reducible assumption) ?_ | dsimp only | split

theorem State.comeBack_keeps {s : State} {n : Nat} (cl : Closed 65302246136580352 P) (h0 : P s) : P (State.comeBack s n) := by
  unfold State.comeBack
  try dsimp only
  repeat' first
    | with_reducible assumption | (with_reducible apply Closed.mono cl; decide) | (with_reducible apply State.put_keeps cl)
    | (with_reducible apply A.PORT_ILM_SFC_in; decide) | (with_reducible apply A.PORT_AN_STATUS_in; decide)
    | with_reducible apply State.modLn_keeps | with_reducible apply State.fallToAn_keeps | intro _ _ _ | intro _ _
    | with_reducible refine pair_keeps (by with_reducible assumption) ?_ | dsimp only | split

theorem State.afterDown_keeps {s : State} {n : Nat} {cause : Nat} (cl : Closed 65302246136580352 P) (h0 : P s) :
    P (State.afterDown s n cause) := by
  unfold State.afterDown
  try dsimp only
  repeat' first
    | with_reducible assumption | (with_reducible apply Closed.mono cl; decide) | (with_reducible apply State.put_keeps cl)
    | (with_reducible apply A.PORT_AN_STATUS_in; decide) | with_reducible apply State.modLn_keeps
    | with_reducible apply State.comeBack_keeps | intro _ _ _ | intro _ _
    | with_reducible refine pair_keeps (by with_reducible assumption) ?_ | dsimp only | split

theorem State.linkDown_keeps {s : State} {n : Nat} {cause : Nat} (cl : Closed 160635249444831439063296 P) (h0 : P s) :
    P (State.linkDown s n cause) := by
  unfold State.linkDown
  try dsimp only
  repeat' first
    | with_reducible assumption | (with_reducible apply Closed.mono cl; decide) | (with_reducible apply State.count_keeps cl)
    | (with_reducible apply State.put_keeps cl) | (with_reducible apply A.PORT_LINK_DOWNS_in; decide)
    | (with_reducible apply A.PORT_LINK_STATUS_in; decide) | (with_reducible apply A.PORT_TRV_STATE_in; decide) | intro t e he ht
    | (simp only [List.mem_cons, List.not_mem_nil, or_false] at he) | (rcases he with he | he) | subst he
    | with_reducible apply State.storeLink_keeps | with_reducible apply State.dropStored_keeps
    | with_reducible apply State.raise_keeps | with_reducible apply State.leaveGroup_keeps
    | with_reducible apply State.cenPort_keeps | with_reducible apply State.downPad_keeps
    | with_reducible apply State.quietLine_keeps | with_reducible apply each_mem | with_reducible apply withTrv_keeps
    | with_reducible apply State.offerIlm_keeps | with_reducible apply State.afterDown_keeps | intro _ _ _ | intro _ _
    | with_reducible refine pair_keeps (by with_reducible assumption) ?_ | dsimp only | split

theorem State.padDown_keeps {s : State} {n : Nat} (cl : Closed 36902495346673844224 P) (h0 : P s) : P (State.padDown s n) := by
  unfold State.padDown
  try dsimp only
  repeat' first
    | with_reducible assumption | (with_reducible apply Closed.mono cl; decide) | (with_reducible apply State.put_keeps cl)
    | (with_reducible apply A.PORT_AN_STATUS_in; decide) | (with_reducible apply A.FAB_PAD_DOWN_in; decide)
    | (with_reducible apply A.PORT_LINK_STATUS_in; decide) | intro _ _ _ | intro _ _
    | with_reducible refine pair_keeps (by with_reducible assumption) ?_ | dsimp only | split

theorem State.placePort_keeps {s : State} {n : Nat} (cl : Closed 110725500490070851584 P) (h0 : P s) :
    P (State.placePort s n) := by
  unfold State.placePort
  try dsimp only
  repeat' first
    | with_reducible assumption | (with_reducible apply Closed.mono cl; decide) | with_reducible apply State.place_keeps
    | with_reducible apply State.modLn_keeps | with_reducible apply State.laneFault_keeps
    | with_reducible apply State.startAn_keeps | with_reducible apply State.padDown_keeps | intro _ _ _ | intro _ _
    | with_reducible refine pair_keeps (by with_reducible assumption) ?_ | dsimp only | split

theorem State.drainEnds_keeps {s : State} {n : Nat} {gone : Bool} {lost : Nat × Nat} (cl : Closed 160672147436582781552896 P) (h0 : P s) :
    P (State.drainEnds s n gone lost) := by
  unfold State.drainEnds
  repeat' first
    | with_reducible assumption
    | (extract_lets +onlyGivenNames s1; refine have_state (P := P) (t := s1) ?_ ?_; dsimp -zeta only [s1]; clear s1; rotate_left; clear_value s1; revert s1; intro _ _)
    | (extract_lets +onlyGivenNames s1; refine have_pair (P := P) (p := s1) ?_ ?_; dsimp -zeta only [s1]; clear s1; rotate_left; clear_value s1; revert s1; intro _ _)
    | (extract_lets +onlyGivenNames s1; clear_value s1; revert s1; intro _) | (with_reducible apply Closed.mono cl; decide)
    | (with_reducible apply State.count_keeps cl) | (with_reducible apply State.put_keeps cl)
    | (with_reducible apply A.PORT_PAD_DRAIN_DISC_in; decide) | (with_reducible apply A.PORT_PAD_STATE_in; decide)
    | (with_reducible apply A.PORT_AN_STATUS_in; decide) | (with_reducible apply A.PORT_MODE_in; decide)
    | with_reducible apply when_keeps | with_reducible apply State.flushPad_keeps | with_reducible apply each_keeps
    | with_reducible apply State.sendTrv_keeps | with_reducible apply State.sayDown_keeps
    | with_reducible apply State.modPd_keeps | with_reducible apply State.linkDown_keeps | with_reducible apply State.xon_keeps
    | with_reducible apply State.dropStored_keeps | with_reducible apply withApply_keeps | with_reducible apply withPwr_keeps
    | with_reducible apply State.complete_keeps | with_reducible apply State.placePort_keeps | intro _ _ _ | intro _ _
    | with_reducible refine pair_keeps (by with_reducible assumption) ?_ | dsimp -zeta only | split | dsimp only

theorem State.endDrain_keeps {s : State} {n : Nat} (cl : Closed 160672147436582781552896 P) (h0 : P s) :
    P (State.endDrain s n) := by
  unfold State.endDrain
  try dsimp only
  repeat' first
    | with_reducible assumption | (with_reducible apply Closed.mono cl; decide) | with_reducible apply State.drainEnds_keeps
    | intro _ _ _ | intro _ _ | with_reducible refine pair_keeps (by with_reducible assumption) ?_ | dsimp only | split

theorem State.dropLink_keeps {s : State} {n : Nat} {cause : Nat} (cl : Closed 160672147436582781552896 P) (h0 : P s) :
    P (State.dropLink s n cause) := by
  unfold State.dropLink
  try dsimp only
  repeat' first
    | with_reducible assumption | (with_reducible apply Closed.mono cl; decide) | with_reducible apply State.drainEnds_keeps
    | with_reducible apply State.linkDown_keeps | intro _ _ _ | intro _ _
    | with_reducible refine pair_keeps (by with_reducible assumption) ?_ | dsimp only | split

theorem State.beginDrain_keeps {s : State} {n : Nat} {limit : Nat} {cause : Nat} {slot : Nat} (cl : Closed 200838923850768808143104 P) (h0 : P s) :
    P (State.beginDrain s n limit cause slot) := by
  unfold State.beginDrain
  try dsimp only
  repeat' first
    | with_reducible assumption | (with_reducible apply Closed.mono cl; decide) | (with_reducible apply State.put_keeps cl)
    | (with_reducible apply A.PORT_PAD_STATE_in; decide) | with_reducible apply State.xoff_keeps
    | with_reducible apply State.modPd_keeps | with_reducible apply State.abandonCal_keeps
    | with_reducible apply State.lineOut_keeps | with_reducible apply State.endDrain_keeps | intro _ _ _ | intro _ _
    | with_reducible refine pair_keeps (by with_reducible assumption) ?_ | dsimp only | split

theorem State.trvClear_keeps {s : State} {n : Nat} (cl : Closed 72057594038190080 P) (h0 : P s) : P (State.trvClear s n) := by
  unfold State.trvClear
  try dsimp only
  repeat' first
    | with_reducible assumption | (with_reducible apply Closed.mono cl; decide) | (with_reducible apply State.put_keeps cl)
    | (with_reducible apply A.PORT_TRV_STATE_in; decide) | intro t e he ht
    | (simp only [List.mem_cons, List.not_mem_nil, or_false] at he) | (rcases he with he | he) | subst he
    | with_reducible apply each_mem | with_reducible apply withTrv_keeps | intro _ _ _ | intro _ _
    | with_reducible refine pair_keeps (by with_reducible assumption) ?_ | dsimp only | split

theorem State.trvDown_keeps {s : State} {n : Nat} {cause : Nat} (cl : Closed 160672147436582781552896 P) (h0 : P s) :
    P (State.trvDown s n cause) := by
  unfold State.trvDown
  try dsimp only
  repeat' first
    | with_reducible assumption | (with_reducible apply Closed.mono cl; decide) | (with_reducible apply State.count_keeps cl)
    | (with_reducible apply State.put_keeps cl) | (with_reducible apply A.PORT_LINK_DOWNS_in; decide)
    | (with_reducible apply A.PORT_LINK_STATUS_in; decide) | with_reducible apply State.dropLink_keeps
    | with_reducible apply State.raise_keeps | with_reducible apply State.afterDown_keeps
    | with_reducible apply State.trvClear_keeps | with_reducible apply State.cenPort_keeps | intro _ _ _ | intro _ _
    | with_reducible refine pair_keeps (by with_reducible assumption) ?_ | dsimp only | split

theorem State.trvEnd_keeps {s : State} {n : Nat} {cause : Nat} (cl : Closed 160672147436582781552896 P) (h0 : P s) :
    P (State.trvEnd s n cause) := by
  unfold State.trvEnd
  try dsimp only
  repeat' first
    | with_reducible assumption | (with_reducible apply Closed.mono cl; decide) | with_reducible apply State.trvDown_keeps
    | with_reducible apply each_keeps | with_reducible apply State.sendTrv_keeps | intro _ _ _ | intro _ _
    | with_reducible refine pair_keeps (by with_reducible assumption) ?_ | dsimp only | split

theorem State.stopDown_keeps {s : State} {n : Nat} {cause : Nat} {warm : Bool} (cl : Closed 163051921537279397955840 P) (h0 : P s) :
    P (State.stopDown s n cause warm) := by
  unfold State.stopDown
  try dsimp only
  repeat' first
    | with_reducible assumption | (with_reducible apply Closed.mono cl; decide) | (with_reducible apply State.put_keeps cl)
    | (with_reducible apply A.PORT_AN_STATUS_in; decide) | with_reducible apply State.abandonCal_keeps
    | with_reducible apply State.trvEnd_keeps | with_reducible apply State.sayDown_keeps
    | with_reducible apply State.trvClear_keeps | with_reducible apply State.flushKept_keeps
    | with_reducible apply State.abortTraining_keeps | intro _ _ _ | intro _ _
    | with_reducible refine pair_keeps (by with_reducible assumption) ?_ | dsimp only | split

theorem State.disableDown_keeps {s : State} {n : Nat} (cl : Closed 163051921537279397955840 P) (h0 : P s) :
    P (State.disableDown s n) := by
  unfold State.disableDown
  try dsimp only
  repeat' first
    | with_reducible assumption | (with_reducible apply Closed.mono cl; decide) | with_reducible apply State.modLn_keeps
    | with_reducible apply State.dropStored_keeps | with_reducible apply State.stopDown_keeps | intro _ _ _ | intro _ _
    | with_reducible refine pair_keeps (by with_reducible assumption) ?_ | dsimp only | split

theorem State.disablePort_keeps {s : State} {n : Nat} (cl : Closed 200838923850768808143104 P) (h0 : P s) :
    P (State.disablePort s n) := by
  unfold State.disablePort
  try dsimp only
  repeat' first
    | with_reducible assumption | (with_reducible apply Closed.mono cl; decide) | (with_reducible apply State.put_keeps cl)
    | (with_reducible apply A.PORT_MODE_in; decide) | with_reducible apply State.modPd_keeps
    | with_reducible apply State.beginDrain_keeps | with_reducible apply State.disableDown_keeps | intro _ _ _ | intro _ _
    | with_reducible refine pair_keeps (by with_reducible assumption) ?_ | dsimp only | split

theorem State.enablePort_keeps {s : State} {n : Nat} (cl : Closed 110725500490070851584 P) (h0 : P s) :
    P (State.enablePort s n) := by
  unfold State.enablePort
  try dsimp only
  repeat' first
    | with_reducible assumption | (with_reducible apply Closed.mono cl; decide) | (with_reducible apply State.put_keeps cl)
    | (with_reducible apply A.PORT_MODE_in; decide) | with_reducible apply State.modPd_keeps
    | with_reducible apply State.placePort_keeps | intro _ _ _ | intro _ _
    | with_reducible refine pair_keeps (by with_reducible assumption) ?_ | dsimp only | split

theorem State.restartPort_keeps {s : State} {n : Nat} (cl : Closed 163051921537279397955840 P) (h0 : P s) :
    P (State.restartPort s n) := by
  unfold State.restartPort
  try dsimp only
  repeat' first
    | with_reducible assumption | (with_reducible apply Closed.mono cl; decide) | with_reducible apply State.offerIlm_keeps
    | with_reducible apply State.trvEnd_keeps | with_reducible apply State.linkDown_keeps
    | with_reducible apply State.sayDown_keeps | with_reducible apply State.disableDown_keeps
    | with_reducible apply State.startAn_keeps | intro _ _ _ | intro _ _
    | with_reducible refine pair_keeps (by with_reducible assumption) ?_ | dsimp only | split

theorem State.notePartner_keeps {s : State} {n : Nat} (cl : Closed 11259016248297728 P) (h0 : P s) :
    P (State.notePartner s n) := by
  unfold State.notePartner
  try dsimp only
  repeat' first
    | with_reducible assumption | (with_reducible apply Closed.mono cl; decide) | (with_reducible apply State.put_keeps cl)
    | (with_reducible apply State.putWide_keeps cl) | (with_reducible apply A.PORT_PARTNER_INFO_in; decide)
    | (with_reducible apply A.PORT_PARTNER_SN_in; decide) | (with_reducible apply A.PORT_PARTNER_SN_in4; decide)
    | (with_reducible apply A.PORT_PARTNER_PREV_in; decide) | (with_reducible apply A.PORT_PARTNER_PREV_in4; decide)
    | with_reducible apply State.raise_keeps | intro _ _ _ | intro _ _
    | with_reducible refine pair_keeps (by with_reducible assumption) ?_ | dsimp only | split

theorem State.trainTime_keeps {s : State} {n : Nat} {t0 : Nat} (cl : Closed 9007199254740992 P) (h0 : P s) :
    P (State.trainTime s n t0) := by
  unfold State.trainTime
  try dsimp only
  repeat' first
    | with_reducible assumption | (with_reducible apply Closed.mono cl; decide) | (with_reducible apply State.put_keeps cl)
    | (with_reducible apply A.PORT_LINK_STATUS_in; decide) | intro _ _ _ | intro _ _
    | with_reducible refine pair_keeps (by with_reducible assumption) ?_ | dsimp only | split

theorem State.linkUp_keeps {s : State} {n : Nat} {mode : Nat} (cl : Closed 151190138176689055959296 P) (h0 : P s) :
    P (State.linkUp s n mode) := by
  unfold State.linkUp
  try dsimp only
  repeat' first
    | with_reducible assumption | (with_reducible apply Closed.mono cl; decide) | (with_reducible apply putWord_keeps cl)
    | (with_reducible apply State.put_keeps cl) | (with_reducible apply A.PORT_MON_MARGIN_in; decide)
    | (with_reducible apply A.PORT_AN_STATUS_in; decide) | (with_reducible apply A.PORT_LINK_STATUS_in; decide)
    | with_reducible apply State.modLn_keeps | with_reducible apply State.modPd_keeps
    | with_reducible apply State.fillCheck_keeps | with_reducible apply State.laneFault_keeps
    | with_reducible apply State.notePartner_keeps | with_reducible apply State.takeSlices_keeps | intro _ _ _ | intro _ _
    | with_reducible refine pair_keeps (by with_reducible assumption) ?_ | dsimp only | split

theorem State.sendCustom_keeps {s : State} {n : Nat} {b : Bool} (cl : Closed 34816 P) (h0 : P s) :
    P (State.sendCustom s n b) := by
  unfold State.sendCustom
  try dsimp only
  repeat' first
    | with_reducible assumption | (with_reducible apply Closed.mono cl; decide) | with_reducible apply State.sendEoc_keeps
    | intro _ _ _ | intro _ _ | with_reducible refine pair_keeps (by with_reducible assumption) ?_ | dsimp only | split

theorem State.coldService_keeps {s : State} {n : Nat} (cl : Closed 151190156191087565441280 P) (h0 : P s) :
    P (State.coldService s n) := by
  unfold State.coldService
  try dsimp only
  repeat' first
    | with_reducible assumption | (with_reducible apply Closed.mono cl; decide) | (with_reducible apply State.put_keeps cl)
    | (with_reducible apply A.PORT_ILM_STATE_in; decide) | (with_reducible apply A.PORT_PAD_STATE_in; decide) | intro t e he ht
    | (simp only [List.mem_cons, List.not_mem_nil, or_false] at he) | (rcases he with he | he) | subst he
    | with_reducible apply State.flushPad_keeps | with_reducible apply each_mem | with_reducible apply State.modLn_keeps
    | with_reducible apply State.linkUp_keeps | with_reducible apply State.trainTime_keeps | intro _ _ _ | intro _ _
    | with_reducible refine pair_keeps (by with_reducible assumption) ?_ | dsimp only | split

theorem State.resumePad_keeps {s : State} {n : Nat} (cl : Closed 38280614012619008 P) (h0 : P s) : P (State.resumePad s n) := by
  unfold State.resumePad
  try dsimp only
  repeat' first
    | with_reducible assumption | (with_reducible apply Closed.mono cl; decide) | (with_reducible apply State.put_keeps cl)
    | (with_reducible apply A.PORT_PAD_STATE_in; decide) | with_reducible apply State.modPd_keeps
    | with_reducible apply State.nameVoid_keeps | with_reducible apply State.modLn_keeps
    | with_reducible apply State.flushPad_keeps | intro _ _ _ | intro _ _
    | with_reducible refine pair_keeps (by with_reducible assumption) ?_ | dsimp only | split

theorem State.warmService_keeps {s : State} {n : Nat} (cl : Closed 151190156191087598995712 P) (h0 : P s) :
    P (State.warmService s n) := by
  unfold State.warmService
  try dsimp only
  repeat' first
    | with_reducible assumption | (with_reducible apply Closed.mono cl; decide) | (with_reducible apply State.put_keeps cl)
    | (with_reducible apply State.count_keeps cl) | (with_reducible apply A.PORT_PAD_STATE_in; decide)
    | (with_reducible apply A.PORT_WARM_OK_in; decide) | with_reducible apply State.resumePad_keeps
    | with_reducible apply State.modLn_keeps | with_reducible apply State.setVec_keeps | with_reducible apply State.linkUp_keeps
    | with_reducible apply State.trainTime_keeps | with_reducible apply State.sendCustom_keeps | intro _ _ _ | intro _ _
    | with_reducible refine pair_keeps (by with_reducible assumption) ?_ | dsimp only | split

theorem State.warmFail_keeps {s : State} {n : Nat} (cl : Closed 151116369214827120396544 P) (h0 : P s) :
    P (State.warmFail s n) := by
  unfold State.warmFail
  try dsimp only
  repeat' first
    | with_reducible assumption | (with_reducible apply Closed.mono cl; decide) | (with_reducible apply State.count_keeps cl)
    | (with_reducible apply A.PORT_WARM_FAIL_in; decide) | with_reducible apply State.stopTraining_keeps
    | with_reducible apply State.fallToAn_keeps | with_reducible apply State.flushPad_keeps
    | with_reducible apply State.dropStored_keeps | intro _ _ _ | intro _ _
    | with_reducible refine pair_keeps (by with_reducible assumption) ?_ | dsimp only | split

theorem State.idSign_keeps {s : State} {msg : Bytes} (cl : Closed 34359738368 P) (h0 : P s) : P (State.idSign s msg).1 := by
  unfold State.idSign
  try dsimp only
  repeat' first
    | with_reducible assumption | (with_reducible apply Closed.mono cl; decide) | with_reducible apply State.drawn_keeps
    | intro _ _ _ | intro _ _ | with_reducible refine pair_keeps (by with_reducible assumption) ?_ | dsimp only | split

theorem State.showPartner_keeps {s : State} {n : Nat} {body : Bytes} (cl : Closed 9007199254740992 P) (h0 : P s) :
    P (State.showPartner s n body) := by
  unfold State.showPartner
  try dsimp only
  repeat' first
    | with_reducible assumption | (with_reducible apply Closed.mono cl; decide) | (with_reducible apply State.put_keeps cl)
    | (with_reducible apply A.PORT_PARTNER_INFO_in; decide) | intro t e he ht
    | (simp only [List.mem_cons, List.not_mem_nil, or_false] at he) | (rcases he with he | he) | subst he
    | with_reducible apply each_mem | intro _ _ _ | intro _ _
    | with_reducible refine pair_keeps (by with_reducible assumption) ?_ | dsimp only | split

theorem State.showAuth_keeps {s : State} {n : Nat} {ok : Bool} (cl : Closed 11259016248297728 P) (h0 : P s) :
    P (State.showAuth s n ok) := by
  unfold State.showAuth
  try dsimp only
  repeat' first
    | with_reducible assumption | (with_reducible apply Closed.mono cl; decide) | (with_reducible apply State.put_keeps cl)
    | (with_reducible apply A.PORT_PARTNER_INFO_in; decide) | with_reducible apply State.raise_keeps | intro _ _ _ | intro _ _
    | with_reducible refine pair_keeps (by with_reducible assumption) ?_ | dsimp only | split

theorem State.startTraining_keeps {s : State} {n : Nat} (cl : Closed 153496400020668103559424 P) (h0 : P s) :
    P (State.startTraining s n) := by
  unfold State.startTraining
  try dsimp only
  repeat' first
    | with_reducible assumption | (with_reducible apply Closed.mono cl; decide)
    | (with_reducible apply State.dropWords_keeps A.PORT_TONE_range cl (by decide)) | (with_reducible apply State.put_keeps cl)
    | (with_reducible apply A.PORT_ILM_STATE_in; decide) | (with_reducible apply A.PORT_LINK_STATUS_in; decide)
    | (with_reducible apply A.PORT_AN_STATUS_in; decide) | (with_reducible apply A.PORT_PARTNER_INFO_in; decide)
    | intro t e he ht | (simp only [List.mem_cons, List.not_mem_nil, or_false] at he) | (rcases he with he | he) | subst he
    | with_reducible apply State.cenHerd_keeps | with_reducible apply State.eocRestart_keeps
    | with_reducible apply State.abandonCal_keeps | with_reducible apply each_mem | with_reducible apply State.takeSlices_keeps
    | with_reducible apply State.modLn_keeps | intro _ _ _ | intro _ _
    | with_reducible refine pair_keeps (by with_reducible assumption) ?_ | dsimp only | split

theorem State.startWarm_keeps {s : State} {n : Nat} (cl : Closed 153496147819088970877184 P) (h0 : P s) :
    P (State.startWarm s n) := by
  unfold State.startWarm
  try dsimp only
  repeat' first
    | with_reducible assumption | (with_reducible apply Closed.mono cl; decide) | (with_reducible apply State.put_keeps cl)
    | (with_reducible apply A.PORT_AN_STATUS_in; decide) | (with_reducible apply A.PORT_ILM_SFC_in; decide)
    | (with_reducible apply A.PORT_ILM_STATE_in; decide) | intro t e he ht
    | (simp only [List.mem_cons, List.not_mem_nil, or_false] at he) | (rcases he with he | he) | subst he
    | with_reducible apply State.cenHerd_keeps | with_reducible apply State.takeSlices_keeps
    | with_reducible apply State.eocRestart_keeps | with_reducible apply State.abandonCal_keeps | with_reducible apply each_mem
    | with_reducible apply State.modLn_keeps | with_reducible apply State.xoff_keeps | with_reducible apply State.sendEoc_keeps
    | intro _ _ _ | intro _ _ | with_reducible refine pair_keeps (by with_reducible assumption) ?_ | dsimp only | split

end Sys2Proof.Machine
end

