-- ==== Sys2Proof/Laws/Keeps/MemRows.lean ====
section
/-!
SUPPORT. The updates that each operation of Machine/MemRows.lean makes: one law for each.
-/
namespace Sys2Proof.Machine

variable {P : State → Prop}

theorem State.serveReq_keeps {s : State} {pc : Nat} {q : MemReq} (cl : Closed 40203712686583056034048 P) (h0 : P s) :
    P (State.serveReq s pc q) := by
  unfold State.serveReq
  try dsimp only
  repeat' first
    | with_reducible assumption | (with_reducible apply Closed.mono cl; decide) | with_reducible apply State.answerFenced_keeps
    | with_reducible apply State.emit_keeps | with_reducible apply State.writeUnit_keeps
    | with_reducible apply State.unitGet_keeps | intro _ _ _ | intro _ _
    | with_reducible refine pair_keeps (by with_reducible assumption) ?_ | dsimp only | split

theorem State.showQueue_keeps {s : State} {pc : Nat} (cl : Closed 1152921504606846976 P) (h0 : P s) :
    P (State.showQueue s pc) := by
  unfold State.showQueue
  try dsimp only
  repeat' first
    | with_reducible assumption | (with_reducible apply Closed.mono cl; decide) | (with_reducible apply State.put_keeps cl)
    | (with_reducible apply A.MEM_PC_STATE_in; decide) | intro _ _ _ | intro _ _
    | with_reducible refine pair_keeps (by with_reducible assumption) ?_ | dsimp only | split

theorem State.serveQueue_keeps {s : State} {pc : Nat} (cl : Closed 40203712686583056034048 P) (h0 : P s) :
    P (State.serveQueue s pc) := by
  unfold State.serveQueue
  try dsimp only
  repeat' first
    | with_reducible assumption | (with_reducible apply Closed.mono cl; decide) | with_reducible apply State.serveReq_keeps
    | with_reducible apply State.modPc_keeps | with_reducible apply State.showQueue_keeps
    | with_reducible refine foldl_keeps ?_ ?_ | with_reducible refine foldlFst_keeps ?_ ?_ | intro _ _ _ | intro _ _
    | with_reducible refine pair_keeps (by with_reducible assumption) ?_ | dsimp only | split

theorem State.serveQueues_keeps {s : State} (cl : Closed 40203712686583056034048 P) (h0 : P s) : P (State.serveQueues s) := by
  unfold State.serveQueues
  try dsimp only
  repeat' first
    | with_reducible assumption | (with_reducible apply Closed.mono cl; decide) | with_reducible apply each_keeps
    | with_reducible apply State.serveQueue_keeps | intro _ _ _ | intro _ _
    | with_reducible refine pair_keeps (by with_reducible assumption) ?_ | dsimp only | split

theorem execMemRequest_keeps {req : BitVec 6} {part : BitVec 4} {addr : BitVec 40} {en : BitVec 64} {wr : Bool} {data : Bytes} {hint : Bool} {capped : Bool} {full : Bool} {upsets : List (BitVec 10 × BitVec 13)} {s : State} (cl : Closed 40203712686583056034048 P) (h0 : P s) :
    OutIs P (execMemRequest req part addr en wr data hint capped full upsets s) := by
  unfold execMemRequest
  try dsimp only
  repeat' first
    | with_reducible assumption | (with_reducible apply Closed.mono cl; decide) | (with_reducible apply State.count_keeps cl)
    | (with_reducible apply A.MEM_QFULL_in; decide) | (with_reducible apply A.MEM_CAPPED_in; decide)
    | with_reducible apply when_keeps | with_reducible apply State.cenPc_keeps | with_reducible apply State.showQueue_keeps
    | with_reducible apply State.modPc_keeps | with_reducible apply State.upset_keeps | with_reducible apply State.serveReq_keeps
    | with_reducible refine outIs_next ?_ | intro _ _ _ | intro _ _
    | with_reducible refine pair_keeps (by with_reducible assumption) ?_ | dsimp only | split

theorem execMemCmdParityError_keeps {pc : BitVec 5} {req : BitVec 6} {bank : BitVec 4} {row : BitVec 15} {unit : Option (BitVec 4)} {s : State} (cl : Closed 40202559765042478295296 P) (h0 : P s) :
    OutIs P (execMemCmdParityError pc req bank row unit s) := by
  unfold execMemCmdParityError
  try dsimp only
  repeat' first
    | with_reducible assumption | (with_reducible apply Closed.mono cl; decide) | with_reducible apply State.freeze_keeps
    | with_reducible apply State.issue_keeps | with_reducible refine outIs_next ?_ | intro _ _ _ | intro _ _
    | with_reducible refine pair_keeps (by with_reducible assumption) ?_ | dsimp only | split

theorem State.refreshBank_keeps {s : State} {pc : Nat} {b : Nat} (cl : Closed 1152921504606873600 P) (h0 : P s) :
    P (State.refreshBank s pc b) := by
  unfold State.refreshBank
  try dsimp only
  repeat' first
    | with_reducible assumption | (with_reducible apply Closed.mono cl; decide) | (with_reducible apply State.put_keeps cl)
    | (with_reducible apply A.MEM_CH_STATE_in; decide) | with_reducible apply State.closeRow_keeps
    | with_reducible apply State.neighbourRefresh_keeps | with_reducible apply State.wakePc_keeps
    | with_reducible apply State.cenPc_keeps | with_reducible apply State.issue_keeps | with_reducible apply State.modBk_keeps
    | with_reducible apply each_keeps | intro _ _ _ | intro _ _
    | with_reducible refine pair_keeps (by with_reducible assumption) ?_ | dsimp only | split

theorem execRefreshDue_keeps {pc : BitVec 5} {bank : BitVec 4} {how : BitVec 2} {s : State} (cl : Closed 1152921504606873600 P) (h0 : P s) :
    OutIs P (execRefreshDue pc bank how s) := by
  unfold execRefreshDue
  try dsimp only
  repeat' first
    | with_reducible assumption | (with_reducible apply Closed.mono cl; decide) | (with_reducible apply State.count_keeps cl)
    | (with_reducible apply A.MEM_REF_LIMIT_in; decide) | with_reducible apply State.refreshBank_keeps
    | with_reducible apply State.modBk_keeps | with_reducible refine outIs_next ?_ | intro _ _ _ | intro _ _
    | with_reducible refine pair_keeps (by with_reducible assumption) ?_ | dsimp only | split

theorem execTallyPeriodEnd_keeps {ch : BitVec 4} {s : State} (cl : Closed 16384 P) (h0 : P s) :
    OutIs P (execTallyPeriodEnd ch s) := by
  unfold execTallyPeriodEnd
  try dsimp only
  repeat' first
    | with_reducible assumption | (with_reducible apply Closed.mono cl; decide) | with_reducible apply each_keeps
    | with_reducible apply State.modBk_keeps | with_reducible refine outIs_next ?_ | intro _ _ _ | intro _ _
    | with_reducible refine pair_keeps (by with_reducible assumption) ?_ | dsimp only | split

theorem execPageIdleExpiry_keeps {pc : BitVec 5} {bank : BitVec 4} {s : State} (cl : Closed 24576 P) (h0 : P s) :
    OutIs P (execPageIdleExpiry pc bank s) := by
  unfold execPageIdleExpiry
  try dsimp only
  repeat' first
    | with_reducible assumption | (with_reducible apply Closed.mono cl; decide) | with_reducible apply State.closeRow_keeps
    | with_reducible refine outIs_next ?_ | intro _ _ _ | intro _ _
    | with_reducible refine pair_keeps (by with_reducible assumption) ?_ | dsimp only | split

theorem execDrowsePowerDown_keeps {pc : BitVec 5} {s : State} (cl : Closed 1152921504606871552 P) (h0 : P s) :
    OutIs P (execDrowsePowerDown pc s) := by
  unfold execDrowsePowerDown
  try dsimp only
  repeat' first
    | with_reducible assumption | (with_reducible apply Closed.mono cl; decide) | (with_reducible apply State.put_keeps cl)
    | (with_reducible apply A.MEM_CH_STATE_in; decide) | with_reducible apply each_keeps
    | with_reducible apply State.closeRow_keeps | with_reducible apply State.modPc_keeps | with_reducible apply State.issue_keeps
    | with_reducible refine outIs_next ?_ | intro _ _ _ | intro _ _
    | with_reducible refine pair_keeps (by with_reducible assumption) ?_ | dsimp only | split

theorem State.judgeLame_keeps {s : State} {m2 : Nat} {pc : Nat} {mean : Nat} (cl : Closed 1155173321600403712 P) (h0 : P s) :
    P (State.judgeLame s m2 pc mean) := by
  unfold State.judgeLame
  try dsimp only
  repeat' first
    | with_reducible assumption | (with_reducible apply Closed.mono cl; decide) | (with_reducible apply State.put_keeps cl)
    | (with_reducible apply State.count_keeps cl) | (with_reducible apply A.MEM_PC_STATE_in; decide)
    | (with_reducible apply A.MEM_LAME_MARKS_in; decide) | with_reducible apply State.raise_keeps | intro _ _ _ | intro _ _
    | with_reducible refine pair_keeps (by with_reducible assumption) ?_ | dsimp only | split

theorem execLameWindow_keeps {stats : List (BitVec 16 × BitVec 16)} {s : State} (cl : Closed 38048661469019572480 P) (h0 : P s) :
    OutIs P (execLameWindow stats s) := by
  unfold execLameWindow
  try dsimp only
  repeat' first
    | with_reducible assumption | (with_reducible apply Closed.mono cl; decide) | (with_reducible apply State.put_keeps cl)
    | (with_reducible apply A.MEM_PC_STATE_in; decide) | (with_reducible apply A.FAB_LAT_MEDIAN_in; decide)
    | with_reducible apply each_keeps | with_reducible apply State.judgeLame_keeps | with_reducible apply State.lameSwap_keeps
    | with_reducible refine outIs_next ?_ | intro _ _ _ | intro _ _
    | with_reducible refine pair_keeps (by with_reducible assumption) ?_ | dsimp only | split

theorem State.logUe_keeps {s : State} {pc : Nat} {b : Nat} {r : Nat} {u : Nat} (cl : Closed 2305843009213693952 P) (h0 : P s) :
    P (State.logUe s pc b r u) := by
  unfold State.logUe
  try dsimp only
  repeat' first
    | with_reducible assumption | (with_reducible apply Closed.mono cl; decide) | (with_reducible apply putWord_keeps cl)
    | (with_reducible apply A.MEM_UE_LOG_in; decide) | with_reducible apply each_keeps | intro _ _ _ | intro _ _
    | with_reducible refine pair_keeps (by with_reducible assumption) ?_ | dsimp only | split

theorem State.poisonUnit_keeps {s : State} {pc : Nat} {b : Nat} {r : Nat} {u : Nat} {l : List (Nat × ByteRead)} (cl : Closed 37782392879323946707200 P) (h0 : P s) :
    P (State.poisonUnit s pc b r u l) := by
  unfold State.poisonUnit
  try dsimp only
  repeat' first
    | with_reducible assumption | (with_reducible apply Closed.mono cl; decide) | (with_reducible apply State.count_keeps cl)
    | (with_reducible apply A.MEM_UE_SCRUB_in; decide) | with_reducible apply State.writeUnit_keeps
    | with_reducible apply each_keeps | with_reducible apply State.storePoison_keeps | with_reducible apply State.modPc_keeps
    | with_reducible apply State.markPc_keeps | with_reducible apply State.logUe_keeps | with_reducible apply State.raise_keeps
    | intro _ _ _ | intro _ _ | with_reducible refine pair_keeps (by with_reducible assumption) ?_ | dsimp only | split

theorem State.gleanUnit_keeps {s : State} {pc : Nat} {b : Nat} {r : Nat} {u : Nat} (cl : Closed 37782392879323946707200 P) (h0 : P s) :
    P (State.gleanUnit s pc b r u) := by
  unfold State.gleanUnit
  try dsimp only
  repeat' first
    | with_reducible assumption | (with_reducible apply Closed.mono cl; decide) | with_reducible apply State.readUnit_keeps
    | with_reducible apply State.modPc_keeps | with_reducible apply State.poisonUnit_keeps
    | with_reducible apply State.writeUnit_keeps | with_reducible refine foldl_keeps ?_ ?_
    | with_reducible refine foldlFst_keeps ?_ ?_ | intro _ _ _ | intro _ _
    | with_reducible refine pair_keeps (by with_reducible assumption) ?_ | dsimp only | split

theorem State.fillRow_keeps {s : State} {pc : Nat} {b : Nat} {r : Nat} (cl : Closed 2305843009213710336 P) (h0 : P s) :
    P (State.fillRow s pc b r) := by
  unfold State.fillRow
  try dsimp only
  repeat' first
    | with_reducible assumption | (with_reducible apply Closed.mono cl; decide) | with_reducible apply State.setFillDone_keeps
    | with_reducible apply State.modBk_keeps | intro _ _ _ | intro _ _
    | with_reducible refine pair_keeps (by with_reducible assumption) ?_ | dsimp only | split

theorem State.endLap_keeps {s : State} {pc : Nat} (cl : Closed 2305843009213702144 P) (h0 : P s) : P (State.endLap s pc) := by
  unfold State.endLap
  try dsimp only
  repeat' first
    | with_reducible assumption | (with_reducible apply Closed.mono cl; decide) | (with_reducible apply State.put_keeps cl)
    | (with_reducible apply A.MEM_INTEG_STATE_in; decide) | (with_reducible apply A.MEM_GLEAN_LAP_in; decide)
    | with_reducible apply State.modPc_keeps | intro _ _ _ | intro _ _
    | with_reducible refine pair_keeps (by with_reducible assumption) ?_ | dsimp only | split

theorem execGleanerRow_keeps {pc : BitVec 5} {upsets : List (BitVec 10 × BitVec 13)} {s : State} (cl : Closed 37782392879461385660672 P) (h0 : P s) :
    OutIs P (execGleanerRow pc upsets s) := by
  unfold execGleanerRow
  try dsimp only
  repeat' first
    | with_reducible assumption | (with_reducible apply Closed.mono cl; decide) | (with_reducible apply State.put_keeps cl)
    | (with_reducible apply A.MEM_INTEG_STATE_in; decide) | with_reducible apply timeTo_keeps
    | with_reducible apply State.modPc_keeps | with_reducible apply State.cenFab_keeps | with_reducible apply State.fillRow_keeps
    | with_reducible apply State.upset_keeps | with_reducible apply State.closeRow_keeps | with_reducible apply each_keeps
    | with_reducible apply State.gleanUnit_keeps | with_reducible apply State.endLap_keeps | with_reducible refine outIs_next ?_
    | intro _ _ _ | intro _ _ | with_reducible refine pair_keeps (by with_reducible assumption) ?_ | dsimp only | split

theorem execLapAlarm_keeps {pc : BitVec 5} {s : State} (cl : Closed 2251954432518400 P) (h0 : P s) :
    OutIs P (execLapAlarm pc s) := by
  unfold execLapAlarm
  try dsimp only
  repeat' first
    | with_reducible assumption | (with_reducible apply Closed.mono cl; decide) | with_reducible apply State.raise_keeps
    | with_reducible apply State.modPc_keeps | with_reducible apply timeTo_keeps | with_reducible refine outIs_next ?_
    | intro _ _ _ | intro _ _ | with_reducible refine pair_keeps (by with_reducible assumption) ?_ | dsimp only | split

theorem execAutoRepair_keeps {pc : BitVec 5} {nvFail : Bool} {s : State} (cl : Closed 2305843010824331272 P) (h0 : P s) :
    OutIs P (execAutoRepair pc nvFail s) := by
  unfold execAutoRepair
  try dsimp only
  repeat' first
    | with_reducible assumption | (with_reducible apply Closed.mono cl; decide) | with_reducible apply State.modPc_keeps
    | with_reducible apply State.spareRow_keeps | with_reducible apply State.steerTsv_keeps | with_reducible refine outIs_next ?_
    | intro _ _ _ | intro _ _ | with_reducible refine pair_keeps (by with_reducible assumption) ?_ | dsimp only | split

end Sys2Proof.Machine
end

