-- ==== Sys2Proof/Laws/Keeps/Layout.lean ====
section
/-!
SUPPORT. The updates that each operation of Machine/Layout.lean makes: one law for each.
-/
namespace Sys2Proof.Machine

variable {P : State → Prop}

theorem State.setParts_keeps {s : State} {l : List PartE} (cl : Closed 36893488147419103232 P) (h0 : P s) : P (State.setParts s l) := by
  have h1 : ∀ k : Nat, ∀ a ∈ [A.FAB_PART k, A.FAB_PART_BASE k, A.FAB_PART_SIZE k, A.FAB_PART_MIN k],
      InGroup 36893488147419103232 a := by
    intro k
    simp only [List.forall_mem_cons]
    exact ⟨A.FAB_PART_in (by decide), A.FAB_PART_BASE_in (by decide), A.FAB_PART_SIZE_in (by decide),
      A.FAB_PART_MIN_in (by decide), fun _ h => nomatch h⟩
  have h2 : ∀ p : PartE, ∀ e ∈ [(F.FAB_PART_VALID p.idx, 1), (F.FAB_PART_PAGE p.idx, p.page), (F.FAB_PART_MAP p.idx, p.map),
      (F.FAB_PART_TYPE p.idx, p.ty), (F.FAB_PART_BASE_BASE_MIB p.idx, p.base), (F.FAB_PART_SIZE_SIZE_MIB p.idx, p.size),
      (F.FAB_PART_MIN_MIN_MIB p.idx, p.min)], InGroup 36893488147419103232 e.1.off := by
    intro p
    simp only [List.forall_mem_cons]
    exact ⟨A.FAB_PART_in (by decide), A.FAB_PART_in (by decide), A.FAB_PART_in (by decide), A.FAB_PART_in (by decide),
      A.FAB_PART_BASE_in (by decide), A.FAB_PART_SIZE_in (by decide), A.FAB_PART_MIN_in (by decide), fun _ h => nomatch h⟩
  exact each_keeps (fun t p ht => each_mem (fun u e he hu => State.put_keeps cl (h2 p e he) hu) ht)
    (each_keeps (fun t k ht => each_mem (fun u a ha hu => putWord_keeps cl (h1 k a ha) hu) ht) h0)


theorem State.setList_keeps {s : State} {pcs : List Nat} {res : List Nat} (cl : Closed 38046409652025950208 P) (h0 : P s) :
    P (State.setList s pcs res) := by
  unfold State.setList
  try dsimp only
  repeat' first
    | with_reducible assumption | (with_reducible apply Closed.mono cl; decide) | (with_reducible apply State.put_keeps cl)
    | (with_reducible apply A.FAB_STACK_in; decide) | (with_reducible apply A.FAB_PCMAP_in; decide)
    | (with_reducible apply A.MEM_CH_STATE_in; decide) | with_reducible apply each_keeps | intro _ _ _ | intro _ _
    | with_reducible refine pair_keeps (by with_reducible assumption) ?_ | dsimp only | split

theorem State.showCensus_keeps {s : State} (cl : Closed 18889465931478580854784 P) (h0 : P s) : P (State.showCensus s) := by
  unfold State.showCensus
  try dsimp only
  repeat' first
    | with_reducible assumption | (with_reducible apply Closed.mono cl; decide) | (with_reducible apply State.put_keeps cl)
    | (with_reducible apply A.CEN_STATUS_in; decide) | (with_reducible apply A.CEN_SLOTS_in; decide) | intro _ _ _ | intro _ _
    | with_reducible refine pair_keeps (by with_reducible assumption) ?_ | dsimp only | split

theorem State.keepLayout_keeps {s : State} {mm : Bytes} (cl : Closed 16 P) (h0 : P s) : P (State.keepLayout s mm) := by
  unfold State.keepLayout
  try dsimp only
  repeat' first
    | with_reducible assumption | (with_reducible apply Closed.mono cl; decide)
    | with_reducible refine withAo_keeps (cl.mono (by decide)) rfl ?_ | intro _ _ _ | intro _ _
    | with_reducible refine pair_keeps (by with_reducible assumption) ?_ | dsimp only | split

theorem State.reLay_keeps {s : State} {mm : Bytes} {pm : Bytes} {oldList : List Nat} {oldParts : List PartE} {relay : Bool} (cl : Closed 56708752298915586406664 P) (h0 : P s) :
    P (State.reLay s mm pm oldList oldParts relay) := by
  unfold State.reLay
  try dsimp only
  repeat' first
    | with_reducible assumption | (with_reducible apply Closed.mono cl; decide) | (with_reducible apply State.put_keeps cl)
    | (with_reducible apply A.FAB_PAD_DOWN_in; decide) | with_reducible apply withNv_keeps
    | with_reducible apply State.setParts_keeps | with_reducible apply State.setList_keeps | with_reducible apply each_keeps
    | with_reducible apply State.resetFill_keeps | with_reducible apply withEvid_keeps
    | with_reducible apply State.loseSegs_keeps | with_reducible apply State.markChunks_keeps
    | with_reducible apply State.showCensus_keeps | intro _ _ _ | intro _ _
    | with_reducible refine pair_keeps (by with_reducible assumption) ?_ | dsimp only | split

theorem State.endSweeps_keeps {s : State} {n : Nat} (cl : Closed 144115188092928000 P) (h0 : P s) : P (State.endSweeps s n) := by
  unfold State.endSweeps
  try dsimp only
  repeat' first
    | with_reducible assumption | (with_reducible apply Closed.mono cl; decide) | (with_reducible apply State.put_keeps cl)
    | (with_reducible apply A.PORT_DIAG_STATE_in; decide) | with_reducible apply withDiag_keeps
    | with_reducible apply State.modTv_keeps | with_reducible apply State.modLn_keeps | intro _ _ _ | intro _ _
    | with_reducible refine pair_keeps (by with_reducible assumption) ?_ | dsimp only | split

theorem State.abortDiag_keeps {s : State} {n : Nat} {active : Bool} (cl : Closed 150870604713855232 P) (h0 : P s) :
    P (State.abortDiag s n active) := by
  unfold State.abortDiag
  try dsimp only
  repeat' first
    | with_reducible assumption | (with_reducible apply Closed.mono cl; decide) | with_reducible apply State.endSweeps_keeps
    | with_reducible apply State.complete_keeps | intro _ _ _ | intro _ _
    | with_reducible refine pair_keeps (by with_reducible assumption) ?_ | dsimp only | split

theorem State.abortDiags_keeps {s : State} (cl : Closed 150870604713855232 P) (h0 : P s) : P (State.abortDiags s) := by
  unfold State.abortDiags
  try dsimp only
  repeat' first
    | with_reducible assumption | (with_reducible apply Closed.mono cl; decide) | with_reducible apply each_keeps
    | with_reducible apply State.abortDiag_keeps | intro _ _ _ | intro _ _
    | with_reducible refine pair_keeps (by with_reducible assumption) ?_ | dsimp only | split

theorem State.takePort_keeps {s : State} {n : Nat} {cause : Nat} (cl : Closed 163051921537279397955840 P) (h0 : P s) :
    P (State.takePort s n cause) := by
  unfold State.takePort
  try dsimp only
  repeat' first
    | with_reducible assumption | (with_reducible apply Closed.mono cl; decide) | with_reducible apply State.modLn_keeps
    | with_reducible apply State.stopDown_keeps | intro _ _ _ | intro _ _
    | with_reducible refine pair_keeps (by with_reducible assumption) ?_ | dsimp only | split

theorem State.takePorts_keeps {s : State} {cause : Nat} (cl : Closed 200838923850768808143104 P) (h0 : P s) :
    P (State.takePorts s cause) := by
  unfold State.takePorts
  try dsimp only
  repeat' first
    | with_reducible assumption | (with_reducible apply Closed.mono cl; decide) | with_reducible apply each_keeps
    | with_reducible apply State.modPd_keeps | with_reducible apply State.beginDrain_keeps
    | with_reducible apply State.takePort_keeps | intro _ _ _ | intro _ _
    | with_reducible refine pair_keeps (by with_reducible assumption) ?_ | dsimp only | split

theorem State.beginApply_keeps {s : State} {pm : Bytes} {hm : Bytes} {a : Apply} (cl : Closed 200838924132243801630976 P) (h0 : P s) :
    P (State.beginApply s pm hm a) := by
  unfold State.beginApply
  try dsimp only
  repeat' first
    | with_reducible assumption | (with_reducible apply Closed.mono cl; decide) | (with_reducible apply State.put_keeps cl)
    | (with_reducible apply A.DEV_FOLD_STATUS_in; decide) | with_reducible apply withApply_keeps
    | with_reducible apply each_keeps | with_reducible apply State.xoff_keeps | with_reducible apply State.modPd_keeps
    | with_reducible apply State.laneHold_keeps | with_reducible apply State.takePorts_keeps
    | with_reducible apply State.abortDiags_keeps | with_reducible apply State.abandonRuns_keeps | intro _ _ _ | intro _ _
    | with_reducible refine pair_keeps (by with_reducible assumption) ?_ | dsimp only | split

theorem State.relay_keeps {s : State} (cl : Closed 200838924132243801630976 P) (h0 : P s) : P (State.relay s) := by
  unfold State.relay
  try dsimp only
  repeat' first
    | with_reducible assumption | (with_reducible apply Closed.mono cl; decide) | with_reducible apply State.beginApply_keeps
    | with_reducible apply withApply_keeps | intro _ _ _ | intro _ _
    | with_reducible refine pair_keeps (by with_reducible assumption) ?_ | dsimp only | split

theorem State.swapIn_keeps {s : State} {c : Nat} {r : Nat} (cl : Closed 37819284115620011991056 P) (h0 : P s) :
    P (State.swapIn s c r) := by
  unfold State.swapIn
  try dsimp only
  repeat' first
    | with_reducible assumption | (with_reducible apply Closed.mono cl; decide) | (with_reducible apply State.put_keeps cl)
    | (with_reducible apply A.FAB_PCMAP_in; decide) | (with_reducible apply A.FAB_STACK_in; decide)
    | (with_reducible apply A.MEM_CH_STATE_in; decide) | with_reducible apply each_keeps
    | with_reducible apply State.markPc_keeps | with_reducible apply State.resetFill_keeps
    | with_reducible apply State.showFree_keeps | with_reducible apply State.keepLayout_keeps | intro _ _ _ | intro _ _
    | with_reducible refine pair_keeps (by with_reducible assumption) ?_ | dsimp only | split

theorem State.retire_keeps {s : State} {c : Nat} (cl : Closed 200838924132245412243736 P) (h0 : P s) : P (State.retire s c) := by
  unfold State.retire
  try dsimp only
  repeat' first
    | with_reducible assumption | (with_reducible apply Closed.mono cl; decide) | (with_reducible apply State.put_keeps cl)
    | (with_reducible apply A.MEM_CH_STATE_in; decide) | (with_reducible apply A.MEM_INTEG_STATE_in; decide)
    | (with_reducible apply A.FAB_STACK_in; decide) | intro t e he ht
    | (simp only [List.mem_cons, List.not_mem_nil, or_false] at he) | (rcases he with he | he) | subst he
    | with_reducible apply withNv_keeps | with_reducible apply each_mem | with_reducible apply dropCells_keeps
    | with_reducible apply State.markPc_keeps | with_reducible apply State.modBk_keeps
    | with_reducible apply State.showQueue_keeps | with_reducible apply State.modPc_keeps
    | with_reducible apply State.raise_keeps | with_reducible apply State.showFree_keeps
    | with_reducible apply State.relist_keeps | with_reducible apply State.swapIn_keeps | with_reducible apply State.relay_keeps
    | intro _ _ _ | intro _ _ | with_reducible refine pair_keeps (by with_reducible assumption) ?_ | dsimp only | split

end Sys2Proof.Machine
end

