-- ==== Sys2Proof/Laws/Keeps/MemCmds.lean ====
section
/-!
SUPPORT. The updates that each operation of Machine/MemCmds.lean makes: one law for each.
-/
namespace Sys2Proof.Machine

variable {P : State → Prop}

theorem State.loadBases_keeps {s : State} {pc : Nat} (cl : Closed 9223372036854775808 P) (h0 : P s) :
    P (State.loadBases s pc) := by
  unfold State.loadBases
  try dsimp only
  repeat' first
    | with_reducible assumption | (with_reducible apply Closed.mono cl; decide) | (with_reducible apply putWord_keeps cl)
    | (with_reducible apply A.MEM_TRAIN_DLY_in; decide) | with_reducible apply each_keeps | intro _ _ _ | intro _ _
    | with_reducible refine pair_keeps (by with_reducible assumption) ?_ | dsimp only | split

theorem State.sweepPc_keeps {s : State} {pc : Nat} {bases : List (BitVec 8 × BitVec 8)} (cl : Closed 27670116110572716040 P) (h0 : P s) :
    P (State.sweepPc s pc bases) := by
  unfold State.sweepPc
  try dsimp only
  repeat' first
    | with_reducible assumption | (with_reducible apply Closed.mono cl; decide) | (with_reducible apply putWord_keeps cl)
    | (with_reducible apply State.put_keeps cl) | (with_reducible apply A.MEM_TRIM_in; decide)
    | (with_reducible apply A.MEM_CAL_STATE_in; decide) | with_reducible apply each_keeps | with_reducible apply withNv_keeps
    | with_reducible apply State.loadBases_keeps | with_reducible apply withCal_keeps | intro _ _ _ | intro _ _
    | with_reducible refine pair_keeps (by with_reducible assumption) ?_ | dsimp only | split

theorem State.trainPc_keeps {s : State} {pc : Nat} {t : Train} (cl : Closed 29975959154146148360 P) (h0 : P s) :
    P (State.trainPc s pc t).1 := by
  unfold State.trainPc
  try dsimp only
  repeat' first
    | with_reducible assumption | (with_reducible apply Closed.mono cl; decide) | (with_reducible apply State.put_keeps cl)
    | (with_reducible apply A.MEM_TRAIN_STATE_in; decide) | with_reducible apply State.loadBases_keeps
    | with_reducible apply State.drawn_keeps | with_reducible apply each_keeps | with_reducible apply State.steerTsv_keeps
    | with_reducible apply State.sweepPc_keeps | intro _ _ _ | intro _ _
    | with_reducible refine pair_keeps (by with_reducible assumption) ?_ | dsimp only | split

theorem State.retrain_keeps {s : State} {pc : Nat} {t : Train} (cl : Closed 200848147504282267019544 P) (h0 : P s) :
    P (State.retrain s pc t).1 := by
  unfold State.retrain
  try dsimp only
  repeat' first
    | with_reducible assumption | (with_reducible apply Closed.mono cl; decide) | with_reducible apply each_keeps
    | with_reducible apply State.modPc_keeps | with_reducible apply State.relist_keeps | with_reducible apply State.trainPc_keeps
    | with_reducible apply State.showFree_keeps | with_reducible apply State.retire_keeps | intro _ _ _ | intro _ _
    | with_reducible refine pair_keeps (by with_reducible assumption) ?_ | dsimp only | split

theorem execMemRetrain_keeps {slot : BitVec 6} {train : Train} {s : State} (cl : Closed 200848147504282267019544 P) (h0 : P s) :
    OutIs P (execMemRetrain slot train s) := by
  unfold execMemRetrain
  try dsimp only
  repeat' first
    | with_reducible assumption | (with_reducible apply Closed.mono cl; decide) | with_reducible apply State.complete_keeps
    | with_reducible apply State.retrain_keeps | with_reducible refine outIs_next ?_ | intro _ _ _ | intro _ _
    | with_reducible refine pair_keeps (by with_reducible assumption) ?_ | dsimp only | split

theorem execMemRepairSpareRow_keeps {slot : BitVec 6} {nvFail : Bool} {s : State} (cl : Closed 75560176324341768669448 P) (h0 : P s) :
    OutIs P (execMemRepairSpareRow slot nvFail s) := by
  unfold execMemRepairSpareRow
  try dsimp only
  repeat' first
    | with_reducible assumption | (with_reducible apply Closed.mono cl; decide) | with_reducible apply State.completeLogged_keeps
    | with_reducible apply State.spareRow_keeps | with_reducible refine outIs_next ?_ | intro _ _ _ | intro _ _
    | with_reducible refine pair_keeps (by with_reducible assumption) ?_ | dsimp only | split

theorem execMemRepairSteerTsv_keeps {slot : BitVec 6} {nvFail : Bool} {s : State} (cl : Closed 75560176324340158040320 P) (h0 : P s) :
    OutIs P (execMemRepairSteerTsv slot nvFail s) := by
  unfold execMemRepairSteerTsv
  try dsimp only
  repeat' first
    | with_reducible assumption | (with_reducible apply Closed.mono cl; decide) | with_reducible apply State.completeLogged_keeps
    | with_reducible apply State.steerTsv_keeps | with_reducible refine outIs_next ?_ | intro _ _ _ | intro _ _
    | with_reducible refine pair_keeps (by with_reducible assumption) ?_ | dsimp only | split

theorem execMemRepairReturn_keeps {slot : BitVec 6} {nvFail : Bool} {s : State} (cl : Closed 75557870481330944346376 P) (h0 : P s) :
    OutIs P (execMemRepairReturn slot nvFail s) := by
  unfold execMemRepairReturn
  try dsimp only
  repeat' first
    | with_reducible assumption | (with_reducible apply Closed.mono cl; decide) | with_reducible apply State.completeLogged_keeps
    | with_reducible apply withNv_keeps | with_reducible refine outIs_next ?_ | intro _ _ _ | intro _ _
    | with_reducible refine pair_keeps (by with_reducible assumption) ?_ | dsimp only | split

theorem State.poisonUes_keeps {s : State} {pc : Nat} {b : Nat} {r : Nat} {u : Nat} (cl : Closed 1610612736 P) (h0 : P s) :
    P (State.poisonUes s pc b r u) := by
  unfold State.poisonUes
  try dsimp only
  repeat' first
    | with_reducible assumption | (with_reducible apply Closed.mono cl; decide) | with_reducible apply each_keeps
    | with_reducible apply State.storePoison_keeps | intro _ _ _ | intro _ _
    | with_reducible refine pair_keeps (by with_reducible assumption) ?_ | dsimp only | split

theorem State.releasePc_keeps {s : State} {pc : Nat} {sp : Option Nat} {nvFail : Bool} (cl : Closed 40352252662850281480 P) (h0 : P s) :
    P (State.releasePc s pc sp nvFail) := by
  unfold State.releasePc
  try dsimp only
  repeat' first
    | with_reducible assumption | (with_reducible apply Closed.mono cl; decide) | (with_reducible apply State.put_keeps cl)
    | (with_reducible apply A.MEM_INTEG_STATE_in; decide) | with_reducible apply State.showQueue_keeps
    | with_reducible apply State.modPc_keeps | with_reducible apply State.spareRow_keeps
    | with_reducible apply State.poisonUes_keeps | with_reducible apply each_keeps | with_reducible apply State.closeRow_keeps
    | with_reducible apply State.showFree_keeps | intro _ _ _ | intro _ _
    | with_reducible refine pair_keeps (by with_reducible assumption) ?_ | dsimp only | split

theorem execMemRelease_keeps {slot : BitVec 6} {nvFail : Bool} {s : State} (cl : Closed 276396787858159735662872 P) (h0 : P s) :
    OutIs P (execMemRelease slot nvFail s) := by
  unfold execMemRelease
  try dsimp only
  repeat' first
    | with_reducible assumption | (with_reducible apply Closed.mono cl; decide) | with_reducible apply State.completeLogged_keeps
    | with_reducible apply State.complete_keeps | with_reducible apply State.retire_keeps
    | with_reducible apply State.releasePc_keeps | with_reducible refine outIs_next ?_ | intro _ _ _ | intro _ _
    | with_reducible refine pair_keeps (by with_reducible assumption) ?_ | dsimp only | split

theorem execFreezeAutoRelease_keeps {pc : BitVec 5} {nvFail : Bool} {s : State} (cl : Closed 40352252800289234952 P) (h0 : P s) :
    OutIs P (execFreezeAutoRelease pc nvFail s) := by
  unfold execFreezeAutoRelease
  try dsimp only
  repeat' first
    | with_reducible assumption | (with_reducible apply Closed.mono cl; decide) | with_reducible apply timeTo_keeps
    | with_reducible apply State.releasePc_keeps | with_reducible refine outIs_next ?_ | intro _ _ _ | intro _ _
    | with_reducible refine pair_keeps (by with_reducible assumption) ?_ | dsimp only | split

end Sys2Proof.Machine
end

