-- ==== Sys2Proof/Laws/Keeps/Cal.lean ====
section
/-!
SUPPORT. The updates that each operation of Machine/Cal.lean makes: one law for each.
-/
namespace Sys2Proof.Machine

variable {P : State → Prop}
theorem stageFields_g {m u st : Nat} {f : Fld} (h : f ∈ stageFields u st) (h1 : m.testBit 57 = true) (h2 : m.testBit 64 = true) :
    InGroup m f.off := by
  unfold stageFields at h
  split at h
  split at h <;> simp only [List.mem_append, List.mem_map, List.mem_cons, List.not_mem_nil, or_false] at h
  · rcases h with (⟨k, _, rfl⟩ | ⟨k, _, rfl⟩) | ⟨k, _, rfl⟩ <;> exact ofGroup (A.PORT_TRIM_ADC_group _ _) h1
  · rcases h with rfl | rfl <;> exact ofGroup (A.PORT_TRIM_HYB_group _) h1
  · obtain ⟨k, _, rfl⟩ := h
    exact ofGroup (A.MEM_TRIM_group _ _ _) h2
  · obtain ⟨k, _, rfl⟩ := h
    exact ofGroup (A.MEM_TRIM_group _ _ _) h2


theorem State.makeDue_keeps {s : State} {u : Nat} (cl : Closed 2379774100696608014336 P) (h0 : P s) : P (State.makeDue s u) := by
  unfold State.makeDue
  try dsimp only
  repeat' first
    | with_reducible assumption | (with_reducible apply Closed.mono cl; decide) | (with_reducible apply State.put_keeps cl)
    | (with_reducible apply State.count_keeps cl) | (with_reducible apply calDue_g <;> decide)
    | (with_reducible apply A.THM_CAL_DEFERRED_in; decide) | with_reducible apply when_keeps | intro _ _ _ | intro _ _
    | with_reducible refine pair_keeps (by with_reducible assumption) ?_ | dsimp only | split

theorem State.dueCheck_keeps {s : State} {u : Nat} (cl : Closed 2379774100696608014336 P) (h0 : P s) :
    P (State.dueCheck s u) := by
  unfold State.dueCheck
  try dsimp only
  repeat' first
    | with_reducible assumption | (with_reducible apply Closed.mono cl; decide) | with_reducible apply State.makeDue_keeps
    | intro _ _ _ | intro _ _ | with_reducible refine pair_keeps (by with_reducible assumption) ?_ | dsimp only | split

theorem State.setTLast_keeps {s : State} {u : Nat} {t : Option Nat} (cl : Closed 18590859261793796096 P) (h0 : P s) :
    P (State.setTLast s u t) := by
  unfold State.setTLast
  try dsimp only
  repeat' first
    | with_reducible assumption | (with_reducible apply Closed.mono cl; decide) | (with_reducible apply State.put_keeps cl)
    | (with_reducible apply calTLast_g <;> decide) | with_reducible apply State.modCal_keeps | intro _ _ _ | intro _ _
    | with_reducible refine pair_keeps (by with_reducible assumption) ?_ | dsimp only | split

theorem execCalRun_keeps {slot : BitVec 6} {s : State} (cl : Closed 2379780856113237330240 P) (h0 : P s) :
    OutIs P (execCalRun slot s) := by
  unfold execCalRun
  try dsimp only
  repeat' first
    | with_reducible assumption | (with_reducible apply Closed.mono cl; decide) | with_reducible apply State.complete_keeps
    | with_reducible apply State.begin_keeps | with_reducible apply each_keeps | with_reducible apply State.modCal_keeps
    | with_reducible apply State.makeDue_keeps | with_reducible apply State.calRunCheck_keeps
    | with_reducible refine outIs_next ?_ | intro _ _ _ | intro _ _
    | with_reducible refine pair_keeps (by with_reducible assumption) ?_ | dsimp only | split

theorem execCalUnitStart_keeps {unit : BitVec 6} {s : State} (cl : Closed 2379780856113237330176 P) (h0 : P s) :
    OutIs P (execCalUnitStart unit s) := by
  unfold execCalUnitStart
  try dsimp only
  repeat' first
    | with_reducible assumption | (with_reducible apply Closed.mono cl; decide) | (with_reducible apply State.put_keeps cl)
    | (with_reducible apply calRunning_g <;> decide) | with_reducible apply State.calRunCheck_keeps
    | with_reducible apply State.modCal_keeps | with_reducible apply State.showRuns_keeps | with_reducible refine outIs_next ?_
    | intro _ _ _ | intro _ _ | with_reducible refine pair_keeps (by with_reducible assumption) ?_ | dsimp only | split

theorem State.calFailEvent_keeps {s : State} {u : Nat} (cl : Closed 2251816993556736 P) (h0 : P s) :
    P (State.calFailEvent s u) := by
  unfold State.calFailEvent
  try dsimp only
  repeat' first
    | with_reducible assumption | (with_reducible apply Closed.mono cl; decide) | with_reducible apply State.raise_keeps
    | intro _ _ _ | intro _ _ | with_reducible refine pair_keeps (by with_reducible assumption) ?_ | dsimp only | split

theorem State.grade_keeps {s : State} {u : Nat} {stage : Nat} {figs : List Nat} (cl : Closed 18590859261785407488 P) (h0 : P s) :
    P (State.grade s u stage figs) := by
  unfold State.grade
  try dsimp only
  repeat' first
    | with_reducible assumption | (with_reducible apply Closed.mono cl; decide) | (with_reducible apply State.put_keeps cl)
    | (with_reducible apply A.PORT_GRADE_in; decide) | (with_reducible apply A.MEM_GRADE_in; decide)
    | (with_reducible apply A.MEM_CAL_STATE_in; decide) | with_reducible apply each_keeps
    | with_reducible refine foldl_keeps ?_ ?_ | with_reducible refine foldlFst_keeps ?_ ?_ | intro _ _ _ | intro _ _
    | with_reducible refine pair_keeps (by with_reducible assumption) ?_ | dsimp only | split

theorem State.endRun_keeps {s : State} {u : Nat} {train : Train} (cl : Closed 200848147504282267019544 P) (h0 : P s) :
    P (State.endRun s u train) := by
  unfold State.endRun
  try dsimp only
  repeat' first
    | with_reducible assumption | (with_reducible apply Closed.mono cl; decide) | (with_reducible apply State.put_keeps cl)
    | (with_reducible apply State.count_keeps cl) | (with_reducible apply calFailStage_g <;> decide)
    | (with_reducible apply calFailed_g <;> decide) | (with_reducible apply calRunning_g <;> decide)
    | (with_reducible apply calDue_g <;> decide) | (with_reducible apply A.THM_CAL_RUNS_in; decide)
    | with_reducible apply State.setTLast_keeps | with_reducible apply State.modCal_keeps
    | with_reducible apply State.showRuns_keeps | with_reducible apply State.cenHerd_keeps
    | with_reducible apply State.retrain_keeps | with_reducible apply State.raise_keeps
    | with_reducible apply State.calRunCheck_keeps | intro _ _ _ | intro _ _
    | with_reducible refine pair_keeps (by with_reducible assumption) ?_ | dsimp only | split

theorem execCalStageEnd_keeps {unit : BitVec 6} {vals : List (BitVec 8)} {before : List (BitVec 16)} {after : List (BitVec 16)} {train : Train} {s : State} (cl : Closed 200848147504282267019544 P) (h0 : P s) :
    OutIs P (execCalStageEnd unit vals before after train s) := by
  unfold execCalStageEnd
  try dsimp only
  repeat' first
    | with_reducible assumption | (with_reducible apply Closed.mono cl; decide) | (with_reducible apply State.put_keeps cl)
    | (with_reducible apply State.count_keeps cl) | (with_reducible apply stageFields_g (List.of_mem_zip he).1 <;> decide)
    | (rcases List.mem_append.1 (List.of_mem_zip he).1 with h | h <;> with_reducible apply stageFields_g h <;> decide)
    | (with_reducible apply stageFields_g (by assumption) <;> decide) | (with_reducible apply A.THM_CAL_FAILS_in; decide)
    | intro t e he ht | (simp only [List.mem_cons, List.not_mem_nil, or_false] at he) | (rcases he with he | he) | subst he
    | with_reducible apply State.abandonCal_keeps | with_reducible apply each_mem | with_reducible apply State.modCal_keeps
    | with_reducible apply State.calFailEvent_keeps | with_reducible apply State.grade_keeps
    | with_reducible apply State.endRun_keeps | with_reducible refine outIs_next ?_ | intro _ _ _ | intro _ _
    | with_reducible refine pair_keeps (by with_reducible assumption) ?_ | dsimp only | split

theorem State.writeTrim_keeps {s : State} {u : Nat} {fs : List (Fld × Nat)} {v : Word} (cl : Closed 1208925819333171386255616 P) (h0 : P s) :
    P (State.writeTrim s u fs v) := by
  unfold State.writeTrim
  try dsimp only
  repeat' first
    | with_reducible assumption | (with_reducible apply Closed.mono cl; decide) | (with_reducible apply State.put_keeps cl)
    | (with_reducible apply allGroups; decide) | intro t e he ht | (simp only [List.mem_cons, List.not_mem_nil, or_false] at he)
    | (rcases he with he | he) | subst he | with_reducible apply State.raise_keeps | with_reducible apply each_mem
    | with_reducible apply State.abandonCal_keeps | with_reducible apply State.dueCheck_keeps
    | with_reducible apply State.setTLast_keeps | intro _ _ _ | intro _ _
    | with_reducible refine pair_keeps (by with_reducible assumption) ?_ | dsimp only | split

theorem State.applyRecord_keeps {s : State} {u : Nat} {r : Bytes} {bad : Bool} (cl : Closed 2379780856113237330176 P) (h0 : P s) :
    P (State.applyRecord s u r bad).1 := by
  unfold State.applyRecord
  try dsimp only
  repeat' first
    | with_reducible assumption | (with_reducible apply Closed.mono cl; decide) | (with_reducible apply State.put_keeps cl)
    | (with_reducible apply stageFields_g (List.of_mem_zip he).1 <;> decide)
    | (rcases List.mem_append.1 (List.of_mem_zip he).1 with h | h <;> with_reducible apply stageFields_g h <;> decide)
    | (with_reducible apply stageFields_g (by assumption) <;> decide) | (with_reducible apply calDue_g <;> decide)
    | intro t e he ht | (simp only [List.mem_cons, List.not_mem_nil, or_false] at he) | (rcases he with he | he) | subst he
    | with_reducible apply each_mem | with_reducible apply State.abandonCal_keeps | with_reducible apply State.setTLast_keeps
    | with_reducible apply State.dueCheck_keeps | with_reducible apply State.calFailEvent_keeps | intro _ _ _ | intro _ _
    | with_reducible refine pair_keeps (by with_reducible assumption) ?_ | dsimp only | split

theorem State.applyTrims_keeps {s : State} {bs : Bytes} {bad : Nat} (cl : Closed 2379780856113237330176 P) (h0 : P s) :
    P (State.applyTrims s bs bad).1 := by
  unfold State.applyTrims
  try dsimp only
  repeat' first
    | with_reducible assumption | (with_reducible apply Closed.mono cl; decide) | (with_reducible apply State.put_keeps cl)
    | (with_reducible apply A.THM_CAL_STATUS_in; decide) | with_reducible apply State.applyRecord_keeps
    | with_reducible refine foldl_keeps ?_ ?_ | with_reducible refine foldlFst_keeps ?_ ?_ | intro _ _ _ | intro _ _
    | with_reducible refine pair_keeps (by with_reducible assumption) ?_ | dsimp only | split

theorem State.applyTrimsSection_keeps {s : State} {bs : Bytes} {bad : Nat} (cl : Closed 2379780856113237330176 P) (h0 : P s) :
    P (State.applyTrimsSection s bs bad) := by
  unfold State.applyTrimsSection
  try dsimp only
  repeat' first
    | with_reducible assumption | (with_reducible apply Closed.mono cl; decide) | (with_reducible apply State.put_keeps cl)
    | (with_reducible apply A.THM_CAL_STATUS_in; decide) | with_reducible apply State.applyTrims_keeps | intro _ _ _ | intro _ _
    | with_reducible refine pair_keeps (by with_reducible assumption) ?_ | dsimp only | split

theorem execCalSave_keeps {slot : BitVec 6} {s : State} (cl : Closed 3465519966412368128 P) (h0 : P s) :
    OutIs P (execCalSave slot s) := by
  unfold execCalSave
  try dsimp only
  repeat' first
    | with_reducible assumption | (with_reducible apply Closed.mono cl; decide) | with_reducible apply State.complete_keeps
    | with_reducible apply State.stackPut_keeps | with_reducible refine outIs_next ?_ | intro _ _ _ | intro _ _
    | with_reducible refine pair_keeps (by with_reducible assumption) ?_ | dsimp only | split

theorem execCalRestore_keeps {slot : BitVec 6} {bad : BitVec 48} {s : State} (cl : Closed 115761576412495768840448 P) (h0 : P s) :
    OutIs P (execCalRestore slot bad s) := by
  unfold execCalRestore
  try dsimp only
  repeat' first
    | with_reducible assumption | (with_reducible apply Closed.mono cl; decide) | with_reducible apply State.completeLogged_keeps
    | with_reducible apply State.stackGet_keeps | with_reducible apply State.applyTrims_keeps
    | with_reducible refine outIs_next ?_ | intro _ _ _ | intro _ _
    | with_reducible refine pair_keeps (by with_reducible assumption) ?_ | dsimp only | split

end Sys2Proof.Machine
end

