-- ==== Sys2Proof/Laws/Keeps/Position.lean ====
section
/-!
SUPPORT. The updates that each operation of Machine/Position.lean makes: one law for each.
-/
namespace Sys2Proof.Machine

variable {P : State → Prop}
theorem pisteEntry_in4 {m n k : Nat} (hk : k < 3) (h : m.testBit 73 = true) : InGroup m (A.PISTE_ENTRY n k + 4) := by
  have e : A.PISTE_ENTRY n k + 4 = A.PISTE_ENTRY n (k + 1) := by unfold A.PISTE_ENTRY; omega
  rw [e]
  exact ofGroup (A.PISTE_ENTRY_group _ _) h


theorem State.claimPort_keeps {s : State} {n : Nat} (cl : Closed 9444753231954793498880 P) (h0 : P s) :
    P (State.claimPort s n) := by
  unfold State.claimPort
  try dsimp only
  repeat' first
    | with_reducible assumption | (with_reducible apply Closed.mono cl; decide) | (with_reducible apply State.put_keeps cl)
    | (with_reducible apply A.PISTE_PORT_in; decide) | with_reducible apply State.leadCheck_keeps
    | with_reducible apply State.modLn_keeps | with_reducible apply State.raise_keeps | intro _ _ _ | intro _ _
    | with_reducible refine pair_keeps (by with_reducible assumption) ?_ | dsimp only | split

theorem State.claims_keeps {s : State} (cl : Closed 9444753231954793498880 P) (h0 : P s) : P (State.claims s) := by
  unfold State.claims
  try dsimp only
  repeat' first
    | with_reducible assumption | (with_reducible apply Closed.mono cl; decide) | with_reducible apply each_keeps
    | with_reducible apply State.claimPort_keeps | intro _ _ _ | intro _ _
    | with_reducible refine pair_keeps (by with_reducible assumption) ?_ | dsimp only | split

theorem State.setFix_keeps {s : State} {v : Bool} (cl : Closed 4722366482869645246464 P) (h0 : P s) : P (State.setFix s v) := by
  unfold State.setFix
  try dsimp only
  repeat' first
    | with_reducible assumption | (with_reducible apply Closed.mono cl; decide) | (with_reducible apply State.put_keeps cl)
    | (with_reducible apply A.POS_STATE_in; decide) | with_reducible apply each_keeps | with_reducible apply State.modLn_keeps
    | intro _ _ _ | intro _ _ | with_reducible refine pair_keeps (by with_reducible assumption) ?_ | dsimp only | split

theorem State.putAcc_keeps {s : State} {a : Int} (cl : Closed 4722366482869647343616 P) (h0 : P s) : P (State.putAcc s a) := by
  unfold State.putAcc
  try dsimp only
  repeat' first
    | with_reducible assumption | (with_reducible apply Closed.mono cl; decide) | (with_reducible apply State.putWide_keeps cl)
    | (with_reducible apply A.POS_POSITION_in; decide) | (with_reducible apply A.POS_POSITION_in4; decide)
    | with_reducible apply withPos_keeps | with_reducible apply State.setFix_keeps | intro _ _ _ | intro _ _
    | with_reducible refine pair_keeps (by with_reducible assumption) ?_ | dsimp only | split

theorem State.routeMatch_keeps {s : State} (cl : Closed 9444732965739290427392 P) (h0 : P s) : P (State.routeMatch s) := by
  unfold State.routeMatch
  try dsimp only
  repeat' first
    | with_reducible assumption | (with_reducible apply Closed.mono cl; decide) | (with_reducible apply State.put_keeps cl)
    | (with_reducible apply A.PISTE_STATUS_in; decide) | intro _ _ _ | intro _ _
    | with_reducible refine pair_keeps (by with_reducible assumption) ?_ | dsimp only | split

theorem State.dirCheck_keeps {s : State} (cl : Closed 14167119714824440809728 P) (h0 : P s) : P (State.dirCheck s) := by
  unfold State.dirCheck
  try dsimp only
  repeat' first
    | with_reducible assumption | (with_reducible apply Closed.mono cl; decide) | (with_reducible apply State.put_keeps cl)
    | (with_reducible apply State.count_keeps cl) | (with_reducible apply A.POS_STATE_in; decide)
    | (with_reducible apply A.POS_REVERSALS_in; decide) | with_reducible apply withPos_keeps
    | with_reducible apply State.claims_keeps | with_reducible apply State.raise_keeps | intro _ _ _ | intro _ _
    | with_reducible refine pair_keeps (by with_reducible assumption) ?_ | dsimp only | split

theorem State.moveBy_keeps {s : State} {d : Int} (cl : Closed 14167119714824440809728 P) (h0 : P s) : P (State.moveBy s d) := by
  unfold State.moveBy
  try dsimp only
  repeat' first
    | with_reducible assumption | (with_reducible apply Closed.mono cl; decide) | with_reducible apply withPos_keeps
    | with_reducible apply State.dirCheck_keeps | with_reducible apply State.putAcc_keeps
    | with_reducible apply State.claims_keeps | intro _ _ _ | intro _ _
    | with_reducible refine pair_keeps (by with_reducible assumption) ?_ | dsimp only | split

theorem State.setScale_keeps {s : State} (cl : Closed 4722366482904004952064 P) (h0 : P s) : P (State.setScale s) := by
  unfold State.setScale
  try dsimp only
  repeat' first
    | with_reducible assumption | (with_reducible apply Closed.mono cl; decide) | (with_reducible apply State.put_keeps cl)
    | (with_reducible apply A.POS_SCALE_in; decide) | with_reducible apply State.drawn_keeps | intro _ _ _ | intro _ _
    | with_reducible refine pair_keeps (by with_reducible assumption) ?_ | dsimp only | split

theorem State.track_keeps {s : State} {fwd : Int} (cl : Closed 2097152 P) (h0 : P s) : P (State.track s fwd) := by
  unfold State.track
  try dsimp only
  repeat' first
    | with_reducible assumption | (with_reducible apply Closed.mono cl; decide) | with_reducible apply withPos_keeps
    | intro _ _ _ | intro _ _ | with_reducible refine pair_keeps (by with_reducible assumption) ?_ | dsimp only | split

theorem State.countEdge_keeps {s : State} {fwd : Bool} (cl : Closed 14167119714824440809728 P) (h0 : P s) :
    P (State.countEdge s fwd) := by
  unfold State.countEdge
  try dsimp only
  repeat' first
    | with_reducible assumption | (with_reducible apply Closed.mono cl; decide) | (with_reducible apply State.count_keeps cl)
    | (with_reducible apply State.put_keeps cl) | (with_reducible apply A.POS_EDGES_in; decide)
    | (with_reducible apply A.POS_STATE_in; decide) | with_reducible apply State.track_keeps
    | with_reducible apply State.cenFab_keeps | with_reducible apply withPos_keeps | with_reducible apply State.raise_keeps
    | with_reducible apply State.moveBy_keeps | intro _ _ _ | intro _ _
    | with_reducible refine pair_keeps (by with_reducible assumption) ?_ | dsimp only | split

theorem State.odoError_keeps {s : State} (cl : Closed 4722368734686640867584 P) (h0 : P s) : P (State.odoError s) := by
  unfold State.odoError
  try dsimp only
  repeat' first
    | with_reducible assumption | (with_reducible apply Closed.mono cl; decide) | (with_reducible apply State.count_keeps cl)
    | (with_reducible apply A.POS_ODO_ERR_in; decide) | with_reducible apply State.raise_keeps
    | with_reducible apply withPos_keeps | intro _ _ _ | intro _ _
    | with_reducible refine pair_keeps (by with_reducible assumption) ?_ | dsimp only | split

theorem execOdometerEdge_keeps {a : Bool} {b : Bool} {after : BitVec 32} {stands : BitVec 32} {s : State} (cl : Closed 14167119714966174730496 P) (h0 : P s) :
    OutIs P (execOdometerEdge a b after stands s) := by
  unfold execOdometerEdge
  try dsimp only
  repeat' first
    | with_reducible assumption | (with_reducible apply Closed.mono cl; decide) | with_reducible apply timeOn_keeps
    | with_reducible apply withPos_keeps | with_reducible apply State.odoError_keeps | with_reducible apply withPwr_keeps
    | with_reducible apply State.countEdge_keeps | with_reducible refine outIs_next ?_ | intro _ _ _ | intro _ _
    | with_reducible refine pair_keeps (by with_reducible assumption) ?_ | dsimp only | split

theorem State.endHold_keeps {s : State} (cl : Closed 4722366482869647310848 P) (h0 : P s) : P (State.endHold s) := by
  unfold State.endHold
  try dsimp only
  repeat' first
    | with_reducible assumption | (with_reducible apply Closed.mono cl; decide) | (with_reducible apply State.put_keeps cl)
    | (with_reducible apply A.POS_STATE_in; decide) | with_reducible apply withPos_keeps | intro _ _ _ | intro _ _
    | with_reducible refine pair_keeps (by with_reducible assumption) ?_ | dsimp only | split

theorem State.extrapolate_keeps {s : State} (cl : Closed 14167119714824440809728 P) (h0 : P s) : P (State.extrapolate s) := by
  unfold State.extrapolate
  try dsimp only
  repeat' first
    | with_reducible assumption | (with_reducible apply Closed.mono cl; decide) | with_reducible apply withPos_keeps
    | with_reducible apply State.track_keeps | with_reducible apply State.moveBy_keeps | intro _ _ _ | intro _ _
    | with_reducible refine pair_keeps (by with_reducible assumption) ?_ | dsimp only | split

theorem execPositionTick_keeps {s : State} (cl : Closed 14167119714961879763200 P) (h0 : P s) : OutIs P (execPositionTick s) := by
  unfold execPositionTick
  repeat' first
    | with_reducible assumption
    | (extract_lets +onlyGivenNames s1; refine have_state (P := P) (t := s1) ?_ ?_; dsimp -zeta only [s1]; clear s1; rotate_left; clear_value s1; revert s1; intro _ _)
    | (extract_lets +onlyGivenNames s1; refine have_pair (P := P) (p := s1) ?_ ?_; dsimp -zeta only [s1]; clear s1; rotate_left; clear_value s1; revert s1; intro _ _)
    | (extract_lets +onlyGivenNames s1; clear_value s1; revert s1; intro _) | (with_reducible apply Closed.mono cl; decide)
    | (with_reducible apply State.put_keeps cl) | (with_reducible apply State.count_keeps cl)
    | (with_reducible apply A.POS_SPEED_in; decide) | (with_reducible apply A.POS_HOLDS_in; decide)
    | (with_reducible apply A.POS_STATE_in; decide) | with_reducible apply timeTo_keeps
    | with_reducible apply State.extrapolate_keeps | with_reducible apply withPos_keeps
    | with_reducible apply State.endHold_keeps | with_reducible apply State.raise_keeps | with_reducible refine outIs_next ?_
    | intro _ _ _ | intro _ _ | with_reducible refine pair_keeps (by with_reducible assumption) ?_ | dsimp -zeta only | split
    | dsimp only

theorem execHoldTimeout_keeps {s : State} (cl : Closed 4722366483007086264320 P) (h0 : P s) : OutIs P (execHoldTimeout s) := by
  unfold execHoldTimeout
  try dsimp only
  repeat' first
    | with_reducible assumption | (with_reducible apply Closed.mono cl; decide) | (with_reducible apply State.put_keeps cl)
    | (with_reducible apply A.POS_STATE_in; decide) | with_reducible apply State.endHold_keeps
    | with_reducible apply timeTo_keeps | with_reducible refine outIs_next ?_ | intro _ _ _ | intro _ _
    | with_reducible refine pair_keeps (by with_reducible assumption) ?_ | dsimp only | split

theorem execStoppedTimeout_keeps {s : State} (cl : Closed 4722368734824079821056 P) (h0 : P s) :
    OutIs P (execStoppedTimeout s) := by
  unfold execStoppedTimeout
  try dsimp only
  repeat' first
    | with_reducible assumption | (with_reducible apply Closed.mono cl; decide) | (with_reducible apply putWord_keeps cl)
    | (with_reducible apply State.put_keeps cl) | (with_reducible apply A.POS_SPEED_in; decide)
    | (with_reducible apply A.POS_STATE_in; decide) | with_reducible apply timeTo_keeps | with_reducible apply withPos_keeps
    | with_reducible apply State.raise_keeps | with_reducible refine outIs_next ?_ | intro _ _ _ | intro _ _
    | with_reducible refine pair_keeps (by with_reducible assumption) ?_ | dsimp only | split

theorem execFixAgeExpiry_keeps {s : State} (cl : Closed 4722366483007084199936 P) (h0 : P s) : OutIs P (execFixAgeExpiry s) := by
  unfold execFixAgeExpiry
  try dsimp only
  repeat' first
    | with_reducible assumption | (with_reducible apply Closed.mono cl; decide) | with_reducible apply State.setFix_keeps
    | with_reducible apply timeTo_keeps | with_reducible refine outIs_next ?_ | intro _ _ _ | intro _ _
    | with_reducible refine pair_keeps (by with_reducible assumption) ?_ | dsimp only | split

theorem State.putEntry_keeps {s : State} {i : Nat} {w0 : Nat} {w1 : Nat} (cl : Closed 9444732965739290427392 P) (h0 : P s) :
    P (State.putEntry s i w0 w1) := by
  unfold State.putEntry
  try dsimp only
  repeat' first
    | with_reducible assumption | (with_reducible apply Closed.mono cl; decide) | (with_reducible apply State.putWide_keeps cl)
    | (with_reducible apply A.PISTE_ENTRY_in; decide) | (with_reducible apply pisteEntry_in4 (by decide); decide) | intro _ _ _
    | intro _ _ | with_reducible refine pair_keeps (by with_reducible assumption) ?_ | dsimp only | split

theorem State.showCount_keeps {s : State} (cl : Closed 9444732965739290427392 P) (h0 : P s) : P (State.showCount s) := by
  unfold State.showCount
  try dsimp only
  repeat' first
    | with_reducible assumption | (with_reducible apply Closed.mono cl; decide) | (with_reducible apply State.put_keeps cl)
    | (with_reducible apply A.PISTE_COUNT_in; decide) | intro _ _ _ | intro _ _
    | with_reducible refine pair_keeps (by with_reducible assumption) ?_ | dsimp only | split

theorem State.commitEntry_keeps {s : State} {i : Nat} {v : Word} (cl : Closed 9444735217556288178432 P) (h0 : P s) :
    P (State.commitEntry s i v) := by
  unfold State.commitEntry
  try dsimp only
  repeat' first
    | with_reducible assumption | (with_reducible apply Closed.mono cl; decide) | (with_reducible apply State.put_keeps cl)
    | (with_reducible apply A.PISTE_STATUS_in; decide) | with_reducible apply State.putEntry_keeps
    | with_reducible apply withPiste_keeps | with_reducible apply State.showCount_keeps | with_reducible apply State.raise_keeps
    | intro _ _ _ | intro _ _ | with_reducible refine pair_keeps (by with_reducible assumption) ?_ | dsimp only | split

theorem State.readEntry_keeps {s : State} {i : Nat} {k : Nat} (cl : Closed 4194304 P) (h0 : P s) :
    P (State.readEntry s i k).1 := by
  unfold State.readEntry
  try dsimp only
  repeat' first
    | with_reducible assumption | (with_reducible apply Closed.mono cl; decide) | with_reducible apply withPiste_keeps
    | intro _ _ _ | intro _ _ | with_reducible refine pair_keeps (by with_reducible assumption) ?_ | dsimp only | split

theorem State.setBoost_keeps {s : State} {n : Nat} {b : Nat} (cl : Closed 36931768761431722240 P) (h0 : P s) :
    P (State.setBoost s n b) := by
  unfold State.setBoost
  try dsimp only
  repeat' first
    | with_reducible assumption | (with_reducible apply Closed.mono cl; decide) | (with_reducible apply State.put_keeps cl)
    | (with_reducible apply A.PORT_PAD_STATE_in; decide) | with_reducible apply State.modPd_keeps
    | with_reducible apply State.sendEoc_keeps | with_reducible apply State.fillCheck_keeps
    | with_reducible apply State.shrinkPad_keeps | with_reducible apply State.showFree_keeps
    | with_reducible apply State.showPad_keeps | intro _ _ _ | intro _ _
    | with_reducible refine pair_keeps (by with_reducible assumption) ?_ | dsimp only | split

theorem State.zonePort_keeps {s : State} {n : Nat} (cl : Closed 11861443338796965923072 P) (h0 : P s) :
    P (State.zonePort s n) := by
  unfold State.zonePort
  try dsimp only
  repeat' first
    | with_reducible assumption | (with_reducible apply Closed.mono cl; decide) | (with_reducible apply State.put_keeps cl)
    | (with_reducible apply A.PISTE_PORT_in; decide) | with_reducible apply State.abandonCal_keeps
    | with_reducible apply State.lpiWake_keeps | with_reducible apply State.setBoost_keeps
    | with_reducible refine foldl_keeps ?_ ?_ | with_reducible refine foldlFst_keeps ?_ ?_ | intro _ _ _ | intro _ _
    | with_reducible refine pair_keeps (by with_reducible assumption) ?_ | dsimp only | split

theorem State.zones_keeps {s : State} (cl : Closed 11861443338796965923072 P) (h0 : P s) : P (State.zones s) := by
  unfold State.zones
  try dsimp only
  repeat' first
    | with_reducible assumption | (with_reducible apply Closed.mono cl; decide) | (with_reducible apply State.put_keeps cl)
    | (with_reducible apply A.PISTE_STATUS_in; decide) | with_reducible apply each_keeps
    | with_reducible apply State.zonePort_keeps | intro _ _ _ | intro _ _
    | with_reducible refine pair_keeps (by with_reducible assumption) ?_ | dsimp only | split

theorem State.judge_keeps {s : State} (cl : Closed 11861443338796970117376 P) (h0 : P s) : P (State.judge s) := by
  unfold State.judge
  try dsimp only
  repeat' first
    | with_reducible assumption | (with_reducible apply Closed.mono cl; decide) | (with_reducible apply State.count_keeps cl)
    | (with_reducible apply A.PISTE_ARMS_in; decide) | with_reducible apply withPiste_keeps
    | with_reducible apply State.zones_keeps | with_reducible apply State.cenFab_keeps | intro _ _ _ | intro _ _
    | with_reducible refine pair_keeps (by with_reducible assumption) ?_ | dsimp only | split

theorem State.posTriggers_keeps {s : State} (cl : Closed 37782392879323950905600 P) (h0 : P s) : P (State.posTriggers s) := by
  unfold State.posTriggers
  try dsimp only
  repeat' first
    | with_reducible assumption | (with_reducible apply Closed.mono cl; decide) | (with_reducible apply State.put_keeps cl)
    | (with_reducible apply A.EVID_TRIG_CFG_in; decide) | with_reducible apply each_keeps
    | with_reducible apply State.trigger_keeps | with_reducible apply withPiste_keeps | intro _ _ _ | intro _ _
    | with_reducible refine pair_keeps (by with_reducible assumption) ?_ | dsimp only | split

theorem execPisteEngineTick_keeps {s : State} (cl : Closed 49643851980702432753920 P) (h0 : P s) :
    OutIs P (execPisteEngineTick s) := by
  unfold execPisteEngineTick
  try dsimp only
  repeat' first
    | with_reducible assumption | (with_reducible apply Closed.mono cl; decide) | with_reducible apply State.posTriggers_keeps
    | with_reducible apply State.claims_keeps | with_reducible apply State.judge_keeps | with_reducible refine outIs_next ?_
    | intro _ _ _ | intro _ _ | with_reducible refine pair_keeps (by with_reducible assumption) ?_ | dsimp only | split

theorem State.confirm_keeps {s : State} {i : Nat} (cl : Closed 4194304 P) (h0 : P s) : P (State.confirm s i) := by
  unfold State.confirm
  try dsimp only
  repeat' first
    | with_reducible assumption | (with_reducible apply Closed.mono cl; decide) | with_reducible apply withPiste_keeps
    | intro _ _ _ | intro _ _ | with_reducible refine pair_keeps (by with_reducible assumption) ?_ | dsimp only | split

theorem State.learnNew_keeps {s : State} {n : Nat} {x : Int} (cl : Closed 9444735217556288178432 P) (h0 : P s) :
    P (State.learnNew s n x) := by
  unfold State.learnNew
  try dsimp only
  repeat' first
    | with_reducible assumption | (with_reducible apply Closed.mono cl; decide) | (with_reducible apply State.count_keeps cl)
    | (with_reducible apply State.put_keeps cl) | (with_reducible apply A.PISTE_FULL_DROPS_in; decide)
    | (with_reducible apply A.PISTE_STATUS_in; decide) | with_reducible apply State.raise_keeps
    | with_reducible apply State.cenHerd_keeps | with_reducible apply State.putEntry_keeps
    | with_reducible apply State.showCount_keeps | with_reducible apply withPiste_keeps | intro _ _ _ | intro _ _
    | with_reducible refine pair_keeps (by with_reducible assumption) ?_ | dsimp only | split

theorem State.learnInto_keeps {s : State} {n : Nat} {i : Nat} {x : Int} (cl : Closed 9444732965739294623744 P) (h0 : P s) :
    P (State.learnInto s n i x) := by
  unfold State.learnInto
  try dsimp only
  repeat' first
    | with_reducible assumption | (with_reducible apply Closed.mono cl; decide) | (with_reducible apply State.put_keeps cl)
    | (with_reducible apply A.PISTE_STATUS_in; decide) | with_reducible apply State.confirm_keeps
    | with_reducible apply State.cenHerd_keeps | with_reducible apply State.putEntry_keeps | intro _ _ _ | intro _ _
    | with_reducible refine pair_keeps (by with_reducible assumption) ?_ | dsimp only | split

theorem execLearningRecord_keeps {port : BitVec 4} {s : State} (cl : Closed 9444735217556288211200 P) (h0 : P s) :
    OutIs P (execLearningRecord port s) := by
  unfold execLearningRecord
  try dsimp only
  repeat' first
    | with_reducible assumption | (with_reducible apply Closed.mono cl; decide) | with_reducible apply State.modLn_keeps
    | with_reducible apply State.learnInto_keeps | with_reducible apply State.learnNew_keeps
    | with_reducible refine outIs_next ?_ | intro _ _ _ | intro _ _
    | with_reducible refine pair_keeps (by with_reducible assumption) ?_ | dsimp only | split

theorem execPassUpdate_keeps {s : State} (cl : Closed 9444732965739294621696 P) (h0 : P s) : OutIs P (execPassUpdate s) := by
  unfold execPassUpdate
  try dsimp only
  repeat' first
    | with_reducible assumption | (with_reducible apply Closed.mono cl; decide) | (with_reducible apply State.put_keeps cl)
    | (with_reducible apply A.PISTE_STATUS_in; decide) | with_reducible apply withPiste_keeps
    | with_reducible apply State.showCount_keeps | with_reducible apply State.putEntry_keeps
    | with_reducible refine outIs_next ?_ | intro _ _ _ | intro _ _
    | with_reducible refine pair_keeps (by with_reducible assumption) ?_ | dsimp only | split

theorem State.newTable_keeps {s : State} {route : Nat} {serial : Nat} {body : Bytes} (cl : Closed 11861443338796970117376 P) (h0 : P s) :
    P (State.newTable s route serial body) := by
  unfold State.newTable
  try dsimp only
  repeat' first
    | with_reducible assumption | (with_reducible apply Closed.mono cl; decide)
    | (with_reducible apply State.dropWords_keeps A.PISTE_ENTRY_range cl (by decide)) | (with_reducible apply State.put_keeps cl)
    | (with_reducible apply A.PISTE_STATUS_in; decide) | (with_reducible apply A.PISTE_TABLE_ROUTE_in; decide)
    | with_reducible apply each_keeps | with_reducible apply State.putEntry_keeps | with_reducible apply withPiste_keeps
    | with_reducible apply State.judge_keeps | with_reducible apply State.routeMatch_keeps
    | with_reducible apply State.showCount_keeps | intro _ _ _ | intro _ _
    | with_reducible refine pair_keeps (by with_reducible assumption) ?_ | dsimp only | split

theorem State.loadTable_keeps {s : State} {bs : Bytes} (cl : Closed 11861443338796970117376 P) (h0 : P s) :
    P (State.loadTable s bs) := by
  unfold State.loadTable
  try dsimp only
  repeat' first
    | with_reducible assumption | (with_reducible apply Closed.mono cl; decide) | with_reducible apply State.newTable_keeps
    | intro _ _ _ | intro _ _ | with_reducible refine pair_keeps (by with_reducible assumption) ?_ | dsimp only | split

theorem State.saved_keeps {s : State} (cl : Closed 9444732965739294621696 P) (h0 : P s) : P (State.saved s) := by
  unfold State.saved
  try dsimp only
  repeat' first
    | with_reducible assumption | (with_reducible apply Closed.mono cl; decide) | (with_reducible apply State.put_keeps cl)
    | (with_reducible apply A.PISTE_STATUS_in; decide) | with_reducible apply withPiste_keeps | intro _ _ _ | intro _ _
    | with_reducible refine pair_keeps (by with_reducible assumption) ?_ | dsimp only | split

theorem State.saveSlot_keeps {s : State} {k : Nat} {nvFail : Bool} (cl : Closed 9444732965739294621704 P) (h0 : P s) :
    P (State.saveSlot s k nvFail) := by
  unfold State.saveSlot
  try dsimp only
  repeat' first
    | with_reducible assumption | (with_reducible apply Closed.mono cl; decide) | with_reducible apply State.saved_keeps
    | with_reducible apply withNv_keeps | intro _ _ _ | intro _ _
    | with_reducible refine pair_keeps (by with_reducible assumption) ?_ | dsimp only | split

theorem execPisteLoad_keeps {slot : BitVec 6} {s : State} (cl : Closed 125206309378235063462144 P) (h0 : P s) :
    OutIs P (execPisteLoad slot s) := by
  unfold execPisteLoad
  try dsimp only
  repeat' first
    | with_reducible assumption | (with_reducible apply Closed.mono cl; decide) | (with_reducible apply State.put_keeps cl)
    | (with_reducible apply A.PISTE_STATUS_in; decide) | with_reducible apply State.completeLogged_keeps
    | with_reducible apply State.loadTable_keeps | with_reducible apply State.stackGet_keeps
    | with_reducible refine outIs_next ?_ | intro _ _ _ | intro _ _
    | with_reducible refine pair_keeps (by with_reducible assumption) ?_ | dsimp only | split

theorem execPisteSave_keeps {slot : BitVec 6} {nvFail : Bool} {s : State} (cl : Closed 9448198485705706989832 P) (h0 : P s) :
    OutIs P (execPisteSave slot nvFail s) := by
  unfold execPisteSave
  try dsimp only
  repeat' first
    | with_reducible assumption | (with_reducible apply Closed.mono cl; decide) | with_reducible apply State.complete_keeps
    | with_reducible apply State.saveSlot_keeps | with_reducible apply State.stackPut_keeps
    | with_reducible apply State.saved_keeps | with_reducible refine outIs_next ?_ | intro _ _ _ | intro _ _
    | with_reducible refine pair_keeps (by with_reducible assumption) ?_ | dsimp only | split

theorem execAutosave_keeps {nvFail : Bool} {s : State} (cl : Closed 9444732965739296718856 P) (h0 : P s) :
    OutIs P (execAutosave nvFail s) := by
  unfold execAutosave
  try dsimp only
  repeat' first
    | with_reducible assumption | (with_reducible apply Closed.mono cl; decide) | with_reducible apply withPos_keeps
    | with_reducible apply State.saveSlot_keeps | with_reducible refine outIs_next ?_ | intro _ _ _ | intro _ _
    | with_reducible refine pair_keeps (by with_reducible assumption) ?_ | dsimp only | split

theorem State.routeChange_keeps {s : State} {route : Nat} (cl : Closed 11861443338796970117376 P) (h0 : P s) :
    P (State.routeChange s route).1 := by
  unfold State.routeChange
  try dsimp only
  repeat' first
    | with_reducible assumption | (with_reducible apply Closed.mono cl; decide) | with_reducible apply State.raise_keeps
    | with_reducible apply State.loadTable_keeps | with_reducible apply State.newTable_keeps | intro _ _ _ | intro _ _
    | with_reducible refine pair_keeps (by with_reducible assumption) ?_ | dsimp only | split

theorem State.jumpCheck_keeps {s : State} (cl : Closed 4194304 P) (h0 : P s) : P (State.jumpCheck s) := by
  unfold State.jumpCheck
  try dsimp only
  repeat' first
    | with_reducible assumption | (with_reducible apply Closed.mono cl; decide) | with_reducible apply withPiste_keeps
    | intro _ _ _ | intro _ _ | with_reducible refine pair_keeps (by with_reducible assumption) ?_ | dsimp only | split

theorem execPosFix_keeps {slot : BitVec 6} {s : State} (cl : Closed 16583827836065126910208 P) (h0 : P s) :
    OutIs P (execPosFix slot s) := by
  unfold execPosFix
  try dsimp only
  repeat' first
    | with_reducible assumption | (with_reducible apply Closed.mono cl; decide) | (with_reducible apply State.put_keeps cl)
    | (with_reducible apply A.POS_STATE_in; decide) | (with_reducible apply A.POS_LAST_JUMP_in; decide)
    | (with_reducible apply A.POS_ROUTE_in; decide) | with_reducible apply State.complete_keeps
    | with_reducible apply State.extrapolate_keeps | with_reducible apply State.putAcc_keeps
    | with_reducible apply State.setFix_keeps | with_reducible apply withPos_keeps | with_reducible apply State.jumpCheck_keeps
    | with_reducible apply State.routeMatch_keeps | with_reducible apply State.routeChange_keeps
    | with_reducible refine outIs_next ?_ | intro _ _ _ | intro _ _
    | with_reducible refine pair_keeps (by with_reducible assumption) ?_ | dsimp only | split

end Sys2Proof.Machine
end

