-- ==== Sys2Proof/Laws/Keeps/Apply.lean ====
section
/-!
SUPPORT. The updates that each operation of Machine/Apply.lean makes: one law for each.
-/
namespace Sys2Proof.Machine

variable {P : State → Prop}

theorem State.applyPower_keeps {s : State} (cl : Closed 590295810358705651712 P) (h0 : P s) : P (State.applyPower s) := by
  unfold State.applyPower
  try dsimp only
  repeat' first
    | with_reducible assumption | (with_reducible apply Closed.mono cl; decide) | (with_reducible apply State.put_keeps cl)
    | (with_reducible apply A.DRV_BUDGET_in; decide) | intro _ _ _ | intro _ _
    | with_reducible refine pair_keeps (by with_reducible assumption) ?_ | dsimp only | split

theorem State.applyEvents_keeps {s : State} (cl : Closed 604462909807331767222528 P) (h0 : P s) : P (State.applyEvents s) := by
  unfold State.applyEvents
  try dsimp only
  repeat' first
    | with_reducible assumption | (with_reducible apply Closed.mono cl; decide) | (with_reducible apply putWord_keeps cl)
    | (with_reducible apply State.put_keeps cl) | (with_reducible apply A.EVT_ROUTE_in; decide)
    | (with_reducible apply A.EVT_MASK_in; decide) | with_reducible apply State.reroute_keeps | with_reducible apply each_keeps
    | intro _ _ _ | intro _ _ | with_reducible refine pair_keeps (by with_reducible assumption) ?_ | dsimp only | split

theorem State.applyPosition_keeps {s : State} (cl : Closed 4722366482904004952064 P) (h0 : P s) : P (State.applyPosition s) := by
  unfold State.applyPosition
  try dsimp only
  repeat' first
    | with_reducible assumption | (with_reducible apply Closed.mono cl; decide) | (with_reducible apply State.put_keeps cl)
    | (with_reducible apply A.POS_WHEEL_in; decide) | (with_reducible apply A.POS_CFG_in; decide) | intro t e he ht
    | (simp only [List.mem_cons, List.not_mem_nil, or_false] at he) | (rcases he with he | he) | subst he
    | with_reducible apply State.setScale_keeps | with_reducible apply each_mem | intro _ _ _ | intro _ _
    | with_reducible refine pair_keeps (by with_reducible assumption) ?_ | dsimp only | split

theorem State.applyPiste_keeps {s : State} (cl : Closed 9444753231954793498880 P) (h0 : P s) : P (State.applyPiste s) := by
  unfold State.applyPiste
  try dsimp only
  repeat' first
    | with_reducible assumption | (with_reducible apply Closed.mono cl; decide) | (with_reducible apply State.put_keeps cl)
    | (with_reducible apply A.PISTE_CTRL_in; decide) | (with_reducible apply A.PISTE_LEARN_in; decide)
    | (with_reducible apply A.PISTE_PORT_in; decide) | intro t e he ht
    | (simp only [List.mem_cons, List.not_mem_nil, or_false] at he) | (rcases he with he | he) | subst he
    | with_reducible apply each_mem | with_reducible apply State.claims_keeps | intro _ _ _ | intro _ _
    | with_reducible refine pair_keeps (by with_reducible assumption) ?_ | dsimp only | split

theorem State.applyLive_keeps {s : State} {bad : Nat} (cl : Closed 621600112944027589970176 P) (h0 : P s) :
    P (State.applyLive s bad) := by
  unfold State.applyLive
  try dsimp only
  repeat' first
    | with_reducible assumption | (with_reducible apply Closed.mono cl; decide) | with_reducible apply each_keeps
    | with_reducible apply State.applyTrimsSection_keeps | with_reducible apply State.applyPiste_keeps
    | with_reducible apply State.applyPosition_keeps | with_reducible apply State.applyEvents_keeps
    | with_reducible apply State.applyPower_keeps | with_reducible apply State.offerIlm_keeps | intro _ _ _ | intro _ _
    | with_reducible refine pair_keeps (by with_reducible assumption) ?_ | dsimp only | split

theorem State.holdBypass_keeps {s : State} (cl : Closed 8589934592 P) (h0 : P s) : P (State.holdBypass s) := by
  unfold State.holdBypass
  try dsimp only
  repeat' first
    | with_reducible assumption | (with_reducible apply Closed.mono cl; decide) | with_reducible apply withPins_keeps
    | intro _ _ _ | intro _ _ | with_reducible refine pair_keeps (by with_reducible assumption) ?_ | dsimp only | split

theorem State.releaseBypass_keeps {s : State} (cl : Closed 8589934592 P) (h0 : P s) : P (State.releaseBypass s) := by
  unfold State.releaseBypass
  try dsimp only
  repeat' first
    | with_reducible assumption | (with_reducible apply Closed.mono cl; decide) | with_reducible apply withPins_keeps
    | intro _ _ _ | intro _ _ | with_reducible refine pair_keeps (by with_reducible assumption) ?_ | dsimp only | split

theorem State.blindLane_keeps {s : State} {m : Nat} (cl : Closed 73786976294838337536 P) (h0 : P s) :
    P (State.blindLane s m) := by
  unfold State.blindLane
  try dsimp only
  repeat' first
    | with_reducible assumption | (with_reducible apply Closed.mono cl; decide) | (with_reducible apply State.put_keeps cl)
    | (with_reducible apply A.HL_STATUS_in; decide) | intro t e he ht
    | (simp only [List.mem_cons, List.not_mem_nil, or_false] at he) | (rcases he with he | he) | subst he
    | with_reducible apply State.modHl_keeps | with_reducible apply each_mem | intro _ _ _ | intro _ _
    | with_reducible refine pair_keeps (by with_reducible assumption) ?_ | dsimp only | split

theorem State.faultLanes_keeps {s : State} (cl : Closed 73786976294838337536 P) (h0 : P s) : P (State.faultLanes s) := by
  unfold State.faultLanes
  try dsimp only
  repeat' first
    | with_reducible assumption | (with_reducible apply Closed.mono cl; decide) | with_reducible apply each_keeps
    | with_reducible apply State.laneFault_keeps | intro _ _ _ | intro _ _
    | with_reducible refine pair_keeps (by with_reducible assumption) ?_ | dsimp only | split

theorem State.showStructure_keeps {s : State} (cl : Closed 664668254613725511680 P) (h0 : P s) : P (State.showStructure s) := by
  unfold State.showStructure
  try dsimp only
  repeat' first
    | with_reducible assumption | (with_reducible apply Closed.mono cl; decide) | (with_reducible apply State.put_keeps cl)
    | (with_reducible apply A.HL_CFG_in; decide) | (with_reducible apply A.HL_EQ_in; decide)
    | (with_reducible apply A.FLOCK_VEC_STATE_in; decide) | (with_reducible apply A.PORT_MODE_in; decide)
    | (with_reducible apply A.DRV_PORT_in; decide) | intro t e he ht
    | (simp only [List.mem_cons, List.not_mem_nil, or_false] at he) | (rcases he with he | he) | subst he
    | with_reducible apply each_mem | with_reducible apply State.showFlock_keeps | with_reducible apply State.holdBypass_keeps
    | intro _ _ _ | intro _ _ | with_reducible refine pair_keeps (by with_reducible assumption) ?_ | dsimp only | split

theorem State.runFold_keeps {s : State} {image : Bytes} {src : Nat} (cl : Closed 281474976710688 P) (h0 : P s) :
    P (State.runFold s image src) := by
  unfold State.runFold
  try dsimp only
  repeat' first
    | with_reducible assumption | (with_reducible apply Closed.mono cl; decide) | (with_reducible apply State.put_keeps cl)
    | (with_reducible apply A.DEV_FOLD_STATUS_in; decide) | (with_reducible apply A.DEV_FOLD_RUN_in4; decide)
    | (with_reducible apply A.DEV_FOLD_RUN_in; decide) | intro t e he ht
    | (simp only [List.mem_cons, List.not_mem_nil, or_false] at he) | (rcases he with he | he) | subst he
    | with_reducible apply withFold_keeps | with_reducible apply each_mem | intro _ _ _ | intro _ _
    | with_reducible refine pair_keeps (by with_reducible assumption) ?_ | dsimp only | split

theorem State.startPorts_keeps {s : State} {cold : Nat} (cl : Closed 36958790393555683584 P) (h0 : P s) :
    P (State.startPorts s cold) := by
  unfold State.startPorts
  try dsimp only
  repeat' first
    | with_reducible assumption | (with_reducible apply Closed.mono cl; decide) | with_reducible apply each_keeps
    | with_reducible apply State.dropGrains_keeps | with_reducible apply State.place_keeps
    | with_reducible apply State.showPad_keeps | with_reducible apply State.dropStored_keeps
    | with_reducible apply State.startAn_keeps | with_reducible apply State.padDown_keeps
    | with_reducible apply State.comeBack_keeps | intro _ _ _ | intro _ _
    | with_reducible refine pair_keeps (by with_reducible assumption) ?_ | dsimp only | split

theorem State.pauseRings_keeps {s : State} (cl : Closed 37778931862957161713664 P) (h0 : P s) : P (State.pauseRings s) := by
  unfold State.pauseRings
  try dsimp only
  repeat' first
    | with_reducible assumption | (with_reducible apply Closed.mono cl; decide) | (with_reducible apply State.put_keeps cl)
    | (with_reducible apply A.EVID_RING_STATE_in; decide) | with_reducible apply each_keeps
    | with_reducible apply State.modRing_keeps | intro _ _ _ | intro _ _
    | with_reducible refine pair_keeps (by with_reducible assumption) ?_ | dsimp only | split

theorem State.resumeRings_keeps {s : State} (cl : Closed 56671858810802527566080 P) (h0 : P s) : P (State.resumeRings s) := by
  unfold State.resumeRings
  try dsimp only
  repeat' first
    | with_reducible assumption | (with_reducible apply Closed.mono cl; decide) | with_reducible apply State.showCensus_keeps
    | with_reducible apply each_keeps | with_reducible apply State.startRing_keeps | intro _ _ _ | intro _ _
    | with_reducible refine pair_keeps (by with_reducible assumption) ?_ | dsimp only | split

end Sys2Proof.Machine
end

