-- ==== Sys2Proof/Laws/Keeps/EvidRows.lean ====
section
/-!
SUPPORT. The updates that each operation of Machine/EvidRows.lean makes: one law for each.
-/
namespace Sys2Proof.Machine

variable {P : State → Prop}

theorem execEvidTrigger_keeps {slot : BitVec 6} {s : State} (cl : Closed 37782397382923574081792 P) (h0 : P s) :
    OutIs P (execEvidTrigger slot s) := by
  unfold execEvidTrigger
  try dsimp only
  repeat' first
    | with_reducible assumption | (with_reducible apply Closed.mono cl; decide) | with_reducible apply State.complete_keeps
    | with_reducible apply each_keeps | with_reducible apply State.trigger_keeps | with_reducible refine outIs_next ?_
    | intro _ _ _ | intro _ _ | with_reducible refine pair_keeps (by with_reducible assumption) ?_ | dsimp only | split

theorem execEvtTrigPin_keeps {low : BitVec 16} {high : BitVec 16} {s : State} (cl : Closed 37782392879323946711296 P) (h0 : P s) :
    OutIs P (execEvtTrigPin low high s) := by
  unfold execEvtTrigPin
  try dsimp only
  repeat' first
    | with_reducible assumption | (with_reducible apply Closed.mono cl; decide) | with_reducible apply withEvid_keeps
    | with_reducible apply each_keeps | with_reducible apply State.trigger_keeps | with_reducible refine outIs_next ?_
    | intro _ _ _ | intro _ _ | with_reducible refine pair_keeps (by with_reducible assumption) ?_ | dsimp only | split

theorem execSegmentFreeze_keeps {seg : BitVec 3} {s : State} (cl : Closed 37782392879461385664768 P) (h0 : P s) :
    OutIs P (execSegmentFreeze seg s) := by
  unfold execSegmentFreeze
  try dsimp only
  repeat' first
    | with_reducible assumption | (with_reducible apply Closed.mono cl; decide) | with_reducible apply State.freezeSeg_keeps
    | with_reducible apply timeTo_keeps | with_reducible refine outIs_next ?_ | intro _ _ _ | intro _ _
    | with_reducible refine pair_keeps (by with_reducible assumption) ?_ | dsimp only | split

theorem State.exportGet_keeps {s : State} {k : Nat} {c : Nat} {off : Nat} {len : Nat} (cl : Closed 40203712686581445421312 P) (h0 : P s) :
    P (State.exportGet s k c off len).1 := by
  unfold State.exportGet
  try dsimp only
  repeat' first
    | with_reducible assumption | (with_reducible apply Closed.mono cl; decide) | with_reducible apply State.stackGet_keeps
    | with_reducible apply State.markChunk_keeps | intro _ _ _ | intro _ _
    | with_reducible refine pair_keeps (by with_reducible assumption) ?_ | dsimp only | split

theorem State.exportChunk_keeps {s : State} {k : Nat} {c : Nat} {last : Option Nat} {x0 : Nat} {x1 : Nat} {x2 : Export} (cl : Closed 40203712686581445421312 P) (h0 : P s) :
    P (State.exportChunk s k c last x0 x1 x2).1 := by
  induction x0 generalizing s x1 x2 with
  | zero => exact h0
  | succ _ ih =>
    unfold State.exportChunk
    try dsimp only
    repeat' first
      | with_reducible assumption | (with_reducible apply Closed.mono cl; decide) | with_reducible refine ih ?_
      | with_reducible apply State.exportGet_keeps | intro _ _ _ | intro _ _
      | with_reducible refine pair_keeps (by with_reducible assumption) ?_ | dsimp only | split

theorem State.releaseSeg_keeps {s : State} {k : Nat} (cl : Closed 37778931862957161713664 P) (h0 : P s) :
    P (State.releaseSeg s k) := by
  unfold State.releaseSeg
  try dsimp only
  repeat' first
    | with_reducible assumption | (with_reducible apply Closed.mono cl; decide) | (with_reducible apply State.put_keeps cl)
    | (with_reducible apply A.EVID_SEG_in; decide) | (with_reducible apply A.EVID_RING_STATE_in; decide)
    | with_reducible apply State.nextChunk_keeps | intro _ _ _ | intro _ _
    | with_reducible refine pair_keeps (by with_reducible assumption) ?_ | dsimp only | split

theorem State.exportSeg_keeps {s : State} {k : Nat} (cl : Closed 40203712686581445421312 P) (h0 : P s) :
    P (State.exportSeg s k).1 := by
  unfold State.exportSeg
  try dsimp only
  repeat' first
    | with_reducible assumption | (with_reducible apply Closed.mono cl; decide)
    | (with_reducible apply State.putBytes_keeps A.EVID_DIGEST_range cl (by decide)) | (with_reducible apply State.put_keeps cl)
    | (with_reducible apply A.EVID_SEG_in; decide) | with_reducible apply State.exportChunk_keeps
    | with_reducible refine foldl_keeps ?_ ?_ | with_reducible refine foldlFst_keeps ?_ ?_ | intro _ _ _ | intro _ _
    | with_reducible refine pair_keeps (by with_reducible assumption) ?_ | dsimp only | split

theorem execEvidExport_keeps {slot : BitVec 6} {s : State} (cl : Closed 40203712686581445425408 P) (h0 : P s) :
    OutIs P (execEvidExport slot s) := by
  unfold execEvidExport
  try dsimp only
  repeat' first
    | with_reducible assumption | (with_reducible apply Closed.mono cl; decide) | with_reducible apply State.complete_keeps
    | with_reducible apply State.exportSeg_keeps | with_reducible apply State.releaseSeg_keeps
    | with_reducible refine outIs_next ?_ | intro _ _ _ | intro _ _
    | with_reducible refine pair_keeps (by with_reducible assumption) ?_ | dsimp only | split

theorem execEvidRelease_keeps {slot : BitVec 6} {s : State} (cl : Closed 37778938618373782640896 P) (h0 : P s) :
    OutIs P (execEvidRelease slot s) := by
  unfold execEvidRelease
  try dsimp only
  repeat' first
    | with_reducible assumption | (with_reducible apply Closed.mono cl; decide) | with_reducible apply State.complete_keeps
    | with_reducible apply State.releaseSeg_keeps | with_reducible refine outIs_next ?_ | intro _ _ _ | intro _ _
    | with_reducible refine pair_keeps (by with_reducible assumption) ?_ | dsimp only | split

theorem State.cenMeasured_keeps {s : State} (cl : Closed 34359740416 P) (h0 : P s) : P (State.cenMeasured s) := by
  unfold State.cenMeasured
  try dsimp only
  repeat' first
    | with_reducible assumption | (with_reducible apply Closed.mono cl; decide) | with_reducible apply each_keeps
    | with_reducible apply State.cenLane_keeps | with_reducible apply State.cenPc_keeps | with_reducible apply State.drawn_keeps
    | with_reducible apply State.cenHerd_keeps | intro _ _ _ | intro _ _
    | with_reducible refine pair_keeps (by with_reducible assumption) ?_ | dsimp only | split

theorem State.cenMicros_keeps {s : State} (cl : Closed 2048 P) (h0 : P s) : P (State.cenMicros s) := by
  unfold State.cenMicros
  try dsimp only
  repeat' first
    | with_reducible assumption | (with_reducible apply Closed.mono cl; decide) | with_reducible apply State.cenFab_keeps
    | with_reducible apply withCen_keeps | intro _ _ _ | intro _ _
    | with_reducible refine pair_keeps (by with_reducible assumption) ?_ | dsimp only | split

theorem State.skipDump_keeps {s : State} (cl : Closed 18889468183295574411520 P) (h0 : P s) : P (State.skipDump s) := by
  unfold State.skipDump
  try dsimp only
  repeat' first
    | with_reducible assumption | (with_reducible apply Closed.mono cl; decide) | (with_reducible apply State.count_keeps cl)
    | (with_reducible apply A.CEN_SKIPPED_in; decide) | with_reducible apply State.cenFab_keeps
    | with_reducible apply withCen_keeps | with_reducible apply State.raise_keeps | intro _ _ _ | intro _ _
    | with_reducible refine pair_keeps (by with_reducible assumption) ?_ | dsimp only | split

theorem execCensusLatch_keeps {busy : Bool} {s : State} (cl : Closed 18892926947982804805888 P) (h0 : P s) :
    OutIs P (execCensusLatch busy s) := by
  unfold execCensusLatch
  try dsimp only
  repeat' first
    | with_reducible assumption | (with_reducible apply Closed.mono cl; decide) | (with_reducible apply State.putWide_keeps cl)
    | (with_reducible apply A.CEN_SEQ_in; decide) | (with_reducible apply A.CEN_SEQ_in4; decide)
    | with_reducible apply State.cenMicros_keeps | with_reducible apply State.cenMeasured_keeps
    | with_reducible apply timeTo_keeps | with_reducible apply withCen_keeps | with_reducible apply State.skipDump_keeps
    | with_reducible apply State.stackPut_keeps | with_reducible refine outIs_next ?_ | intro _ _ _ | intro _ _
    | with_reducible refine pair_keeps (by with_reducible assumption) ?_ | dsimp only | split

end Sys2Proof.Machine
end

