-- ==== Sys2Proof/Laws/Keeps/Reset.lean ====
section
/-!
SUPPORT. The updates that each operation of Machine/Reset.lean makes: one law for each.
-/
namespace Sys2Proof.Machine

variable {P : State → Prop}

theorem State.loseStack_keeps {s : State} (cl : Closed 37781237705967986040832 P) (h0 : P s) : P (State.loseStack s) := by
  unfold State.loseStack
  try dsimp only
  repeat' first
    | with_reducible assumption | (with_reducible apply Closed.mono cl; decide) | with_reducible apply State.markChunks_keeps
    | with_reducible apply withChk_nil | with_reducible apply withDram_nil | with_reducible apply each_keeps
    | with_reducible apply State.resetFill_keeps | intro _ _ _ | intro _ _
    | with_reducible refine pair_keeps (by with_reducible assumption) ?_ | dsimp only | split

theorem State.erase_keeps {s : State} {lc : Nat} (cl : Closed 113339254835744616767496 P) (h0 : P s) : P (State.erase s lc) := by
  unfold State.erase
  try dsimp only
  repeat' first
    | with_reducible assumption | (with_reducible apply Closed.mono cl; decide) | (with_reducible apply State.put_keeps cl)
    | (with_reducible apply State.putWide_keeps cl) | (with_reducible apply putWord_keeps cl)
    | (with_reducible apply A.DEV_FOLD_FLOOR_in; decide) | (with_reducible apply A.DEV_FOLD_COMMIT_in; decide)
    | (with_reducible apply A.DEV_FOLD_COMMIT_in4; decide) | (with_reducible apply A.DEV_FOLD_STATUS_in; decide)
    | (with_reducible apply A.PORT_DIAG_BASE_in; decide) | (with_reducible apply A.PORT_PARTNER_PREV_in; decide)
    | (with_reducible apply A.PORT_PARTNER_PREV_in4; decide) | (with_reducible apply A.PORT_PARTNER_SN_in; decide)
    | (with_reducible apply A.PORT_PARTNER_SN_in4; decide) | (with_reducible apply A.DEV_FW_STATUS_in; decide) | intro t e he ht
    | (simp only [List.mem_cons, List.not_mem_nil, or_false] at he) | (rcases he with he | he) | subst he
    | with_reducible apply State.showKeys_keeps | with_reducible apply withNv_keeps | with_reducible apply each_mem
    | with_reducible apply State.loseStack_keeps | intro _ _ _ | intro _ _
    | with_reducible refine pair_keeps (by with_reducible assumption) ?_ | dsimp only | split

theorem State.noteCause_keeps {s : State} {cause : Nat} (cl : Closed 281474976710656 P) (h0 : P s) :
    P (State.noteCause s cause) := by
  unfold State.noteCause
  try dsimp only
  repeat' first
    | with_reducible assumption | (with_reducible apply Closed.mono cl; decide) | (with_reducible apply State.put_keeps cl)
    | (with_reducible apply A.DEV_RESET_CAUSE_in; decide) | intro _ _ _ | intro _ _
    | with_reducible refine pair_keeps (by with_reducible assumption) ?_ | dsimp only | split

theorem State.showRoles_keeps {s : State} (cl : Closed 1152921504606846976 P) (h0 : P s) : P (State.showRoles s) := by
  unfold State.showRoles
  try dsimp only
  repeat' first
    | with_reducible assumption | (with_reducible apply Closed.mono cl; decide) | (with_reducible apply State.put_keeps cl)
    | (with_reducible apply A.MEM_CH_STATE_in; decide) | with_reducible apply each_keeps | intro _ _ _ | intro _ _
    | with_reducible refine pair_keeps (by with_reducible assumption) ?_ | dsimp only | split

theorem State.cutLoad_keeps {s : State} (cl : Closed 8 P) (h0 : P s) : P (State.cutLoad s) := by
  unfold State.cutLoad
  try dsimp only
  repeat' first
    | with_reducible assumption | (with_reducible apply Closed.mono cl; decide) | with_reducible apply withNv_keeps | intro _ _ _
    | intro _ _ | with_reducible refine pair_keeps (by with_reducible assumption) ?_ | dsimp only | split

theorem State.markUnfilled_keeps {s : State} (cl : Closed 37778931862957161709568 P) (h0 : P s) : P (State.markUnfilled s) := by
  unfold State.markUnfilled
  try dsimp only
  repeat' first
    | with_reducible assumption | (with_reducible apply Closed.mono cl; decide) | with_reducible apply State.markChunks_keeps
    | intro _ _ _ | intro _ _ | with_reducible refine pair_keeps (by with_reducible assumption) ?_ | dsimp only | split

theorem State.resetCore_keeps {s : State} {cause : Nat} {keep : Bool} (cl : Closed 264455984339382028992508 P) (h0 : P s) :
    P (State.resetCore s cause keep) := by
  unfold State.resetCore
  try dsimp only
  repeat' first
    | with_reducible assumption | (with_reducible apply Closed.mono cl; decide) | (with_reducible apply putWord_keeps cl)
    | (with_reducible apply State.put_keeps cl) | (with_reducible apply A.DEV_RESET_CAUSE_in; decide)
    | (with_reducible apply A.MEM_INTEG_STATE_in; decide) | (with_reducible apply A.TST_SLICE_STATE_in; decide)
    | with_reducible apply State.cutLoad_keeps | with_reducible apply withPci_keeps | with_reducible apply State.endSession_keeps
    | with_reducible apply State.markUnfilled_keeps | with_reducible apply each_keeps | with_reducible apply State.stopRing_keeps
    | with_reducible apply State.clearEvidence_keeps | with_reducible apply State.noteCause_keeps
    | with_reducible apply resetRegs_keeps | with_reducible apply withEvid_keeps | with_reducible apply withCen_keeps
    | with_reducible apply withEvt_keeps | with_reducible apply withSec_keeps | with_reducible apply withBox_keeps
    | with_reducible apply withFold_keeps | with_reducible apply withLatch_keeps | with_reducible apply withMdio_keeps
    | with_reducible apply withTrv_keeps | with_reducible apply withLane_keeps | with_reducible apply withPad_keeps
    | with_reducible apply withLine_keeps | with_reducible apply withPch_keeps | with_reducible apply withClk_keeps
    | with_reducible apply withDiag_keeps | with_reducible apply withCal_keeps | with_reducible apply withPiste_keeps
    | with_reducible apply withApply_keeps | with_reducible apply withDrv_keeps | with_reducible apply withPwr_keeps
    | with_reducible apply withHerder_keeps | with_reducible apply withThm_keeps | with_reducible apply withTst_keeps
    | with_reducible apply withPos_keeps | with_reducible apply withNv_keeps
    | with_reducible refine withAo_keeps (cl.mono (by decide)) rfl ?_
    | with_reducible refine withAo_powerOn (cl.mono (by decide)) ?_ | with_reducible apply State.showRoles_keeps
    | with_reducible apply withPins_keeps | with_reducible apply withBank_keeps | with_reducible apply State.setFillDone_keeps
    | with_reducible apply State.restartFill_keeps | with_reducible apply withChk_nil | with_reducible apply withDram_nil
    | with_reducible apply State.showDebug_keeps | with_reducible apply State.enterSelfRefresh_keeps
    | with_reducible apply State.showKeys_keeps | intro _ _ _ | intro _ _
    | with_reducible refine pair_keeps (by with_reducible assumption) ?_ | dsimp only | split

theorem State.resetCore_warm {s : State} {cause : Nat} {keep : Bool} (cl : Closed 264455984339107151085564 P) (hn : cause ≠ 1) (h0 : P s) :
    P (State.resetCore s cause keep) := by
  unfold State.resetCore
  try dsimp only
  repeat' first
    | with_reducible assumption | (with_reducible apply Closed.mono cl; decide) | (with_reducible apply putWord_keeps cl)
    | (with_reducible apply State.put_keeps cl) | (with_reducible apply A.DEV_RESET_CAUSE_in; decide)
    | (with_reducible apply A.MEM_INTEG_STATE_in; decide) | (with_reducible apply A.TST_SLICE_STATE_in; decide)
    | with_reducible apply State.cutLoad_keeps | with_reducible apply withPci_keeps | with_reducible apply State.endSession_keeps
    | with_reducible apply State.markUnfilled_keeps | with_reducible apply each_keeps | with_reducible apply State.stopRing_keeps
    | with_reducible apply State.clearEvidence_keeps | with_reducible apply State.noteCause_keeps
    | with_reducible apply resetRegs_keeps | with_reducible apply withEvid_keeps | with_reducible apply withCen_keeps
    | with_reducible apply withEvt_keeps | with_reducible apply withSec_keeps | with_reducible apply withBox_keeps
    | with_reducible apply withFold_keeps | with_reducible apply withLatch_keeps | with_reducible apply withMdio_keeps
    | with_reducible apply withTrv_keeps | with_reducible apply withLane_keeps | with_reducible apply withPad_keeps
    | with_reducible apply withLine_keeps | with_reducible apply withPch_keeps | with_reducible apply withClk_keeps
    | with_reducible apply withDiag_keeps | with_reducible apply withCal_keeps | with_reducible apply withPiste_keeps
    | with_reducible apply withApply_keeps | with_reducible apply withDrv_keeps | with_reducible apply withPwr_keeps
    | with_reducible apply withHerder_keeps | with_reducible apply withThm_keeps | with_reducible apply withTst_keeps
    | with_reducible apply withPos_keeps | with_reducible apply withNv_keeps
    | with_reducible refine withAo_keeps (cl.mono (by decide)) rfl ?_ | exact absurd (of_decide_eq_true (by assumption)) hn
    | with_reducible apply State.showRoles_keeps | with_reducible apply withPins_keeps | with_reducible apply withBank_keeps
    | with_reducible apply State.setFillDone_keeps | with_reducible apply State.restartFill_keeps
    | with_reducible apply withChk_nil | with_reducible apply withDram_nil | with_reducible apply State.showDebug_keeps
    | with_reducible apply State.enterSelfRefresh_keeps | with_reducible apply State.showKeys_keeps | intro _ _ _ | intro _ _
    | with_reducible refine pair_keeps (by with_reducible assumption) ?_ | dsimp only | split

theorem State.startFirmware_keeps {s : State} (cl : Closed 2533294117751040 P) (h0 : P s) : P (State.startFirmware s) := by
  unfold State.startFirmware
  try dsimp only
  repeat' first
    | with_reducible assumption | (with_reducible apply Closed.mono cl; decide) | (with_reducible apply State.put_keeps cl)
    | (with_reducible apply A.DEV_FW_STATUS_in; decide) | (with_reducible apply A.DEV_FW_VER_in; decide)
    | with_reducible apply withHerder_keeps | with_reducible apply State.raiseFwFallback_keeps
    | with_reducible apply State.raiseNoFw_keeps | intro _ _ _ | intro _ _
    | with_reducible refine pair_keeps (by with_reducible assumption) ?_ | dsimp only | split

theorem State.trainStack_keeps {s : State} {b : Boot} (cl : Closed 31131132475746576648 P) (h0 : P s) :
    P (State.trainStack s b) := by
  unfold State.trainStack
  try dsimp only
  repeat' first
    | with_reducible assumption | (with_reducible apply Closed.mono cl; decide) | (with_reducible apply State.put_keeps cl)
    | (with_reducible apply A.MEM_CH_STATE_in; decide) | with_reducible apply State.leaveSelfRefresh_keeps
    | with_reducible apply each_keeps | with_reducible apply State.trainPc_keeps | with_reducible apply State.raise_keeps
    | with_reducible apply withNv_keeps | intro _ _ _ | intro _ _
    | with_reducible refine pair_keeps (by with_reducible assumption) ?_ | dsimp only | split

theorem State.bootLayout_keeps {s : State} (cl : Closed 56708752298915586406680 P) (h0 : P s) : P (State.bootLayout s) := by
  unfold State.bootLayout
  try dsimp only
  repeat' first
    | with_reducible assumption | (with_reducible apply Closed.mono cl; decide) | with_reducible apply State.showCensus_keeps
    | with_reducible apply State.setParts_keeps | with_reducible apply State.setList_keeps
    | with_reducible apply State.reLay_keeps | with_reducible apply withNv_keeps | with_reducible apply State.keepLayout_keeps
    | intro _ _ _ | intro _ _ | with_reducible refine pair_keeps (by with_reducible assumption) ?_ | dsimp only | split

theorem State.setLevel_keeps {s : State} {l : Nat} (cl : Closed 590295810367295586304 P) (h0 : P s) : P (State.setLevel s l) := by
  unfold State.setLevel
  try dsimp only
  repeat' first
    | with_reducible assumption | (with_reducible apply Closed.mono cl; decide) | (with_reducible apply State.put_keeps cl)
    | (with_reducible apply A.DRV_STATE_in; decide) | with_reducible apply withPins_keeps | intro _ _ _ | intro _ _
    | with_reducible refine pair_keeps (by with_reducible assumption) ?_ | dsimp only | split

theorem State.countHold_keeps {s : State} (cl : Closed 147573952589709967360 P) (h0 : P s) : P (State.countHold s) := by
  unfold State.countHold
  try dsimp only
  repeat' first
    | with_reducible assumption | (with_reducible apply Closed.mono cl; decide) | (with_reducible apply State.count_keeps cl)
    | (with_reducible apply A.CLK_HOLD_TIME_in; decide) | with_reducible apply withClk_keeps | intro _ _ _ | intro _ _
    | with_reducible refine pair_keeps (by with_reducible assumption) ?_ | dsimp only | split

theorem State.bootFold_keeps {s : State} (cl : Closed 2533291970267424 P) (h0 : P s) : P (State.bootFold s) := by
  unfold State.bootFold
  try dsimp only
  repeat' first
    | with_reducible assumption | (with_reducible apply Closed.mono cl; decide) | (with_reducible apply State.put_keeps cl)
    | (with_reducible apply A.DEV_FOLD_STATUS_in; decide) | intro t e he ht
    | (simp only [List.mem_cons, List.not_mem_nil, or_false] at he) | (rcases he with he | he) | subst he
    | with_reducible apply each_mem | with_reducible apply State.runFold_keeps
    | with_reducible apply State.raiseFoldFallback_keeps | with_reducible apply State.raiseNoFold_keeps | intro _ _ _ | intro _ _
    | with_reducible refine pair_keeps (by with_reducible assumption) ?_ | dsimp only | split

theorem State.finishStart_keeps {s : State} (cl : Closed 678530836691047915714872 P) (h0 : P s) : P (State.finishStart s) := by
  unfold State.finishStart
  try dsimp only
  repeat' first
    | with_reducible assumption | (with_reducible apply Closed.mono cl; decide) | (with_reducible apply State.put_keeps cl)
    | (with_reducible apply A.CLK_STATUS_in; decide) | intro t e he ht
    | (simp only [List.mem_cons, List.not_mem_nil, or_false] at he) | (rcases he with he | he) | subst he
    | with_reducible apply withClk_keeps | with_reducible apply withPwr_keeps | with_reducible apply State.bootFold_keeps
    | with_reducible apply each_mem | with_reducible apply State.showStructure_keeps
    | with_reducible apply State.bootLayout_keeps | with_reducible apply State.faultLanes_keeps
    | with_reducible apply State.startPorts_keeps | with_reducible apply State.resumeRings_keeps
    | with_reducible apply State.applyLive_keeps | with_reducible apply State.raise_keeps
    | with_reducible apply State.setLevel_keeps | intro _ _ _ | intro _ _
    | with_reducible refine pair_keeps (by with_reducible assumption) ?_ | dsimp only | split

theorem State.coldStart_keeps {s : State} {b : Boot} {powerOn : Bool} (cl : Closed 905213651240967394294584 P) (h0 : P s) :
    P (State.coldStart s b powerOn) := by
  unfold State.coldStart
  try dsimp only
  repeat' first
    | with_reducible assumption | (with_reducible apply Closed.mono cl; decide) | (with_reducible apply State.put_keeps cl)
    | (with_reducible apply A.CLK_STATUS_in; decide) | (with_reducible apply A.TST_BIST_RESULT_in; decide)
    | (with_reducible apply A.SEC_STATE_in; decide) | intro t e he ht
    | (simp only [List.mem_cons, List.not_mem_nil, or_false] at he) | (rcases he with he | he) | subst he
    | with_reducible apply timeOn_keeps | with_reducible apply withStart_keeps | with_reducible apply each_mem
    | with_reducible apply withPins_keeps | with_reducible apply withPci_keeps | with_reducible apply withPwr_keeps
    | with_reducible apply State.drawn_keeps | with_reducible apply State.erase_keeps
    | with_reducible apply State.startFirmware_keeps | with_reducible apply State.trainStack_keeps
    | with_reducible apply State.finishStart_keeps | with_reducible apply State.setLevel_keeps
    | with_reducible apply withClk_keeps | intro _ _ _ | intro _ _
    | with_reducible refine pair_keeps (by with_reducible assumption) ?_ | dsimp only | split

theorem State.resetDevice_keeps {s : State} {cause : Nat} {b : Boot} (cl : Closed 905213651241792455049212 P) (h0 : P s) :
    P (State.resetDevice s cause b) := by
  unfold State.resetDevice
  try dsimp only
  repeat' first
    | with_reducible assumption | (with_reducible apply Closed.mono cl; decide) | with_reducible apply State.coldStart_keeps
    | with_reducible apply State.resetCore_keeps | intro _ _ _ | intro _ _
    | with_reducible refine pair_keeps (by with_reducible assumption) ?_ | dsimp only | split

theorem State.resetDevice_warm {s : State} {cause : Nat} {b : Boot} (cl : Closed 905213651241517577142268 P) (hn : cause ≠ 1) (h0 : P s) :
    P (State.resetDevice s cause b) := by
  unfold State.resetDevice
  try dsimp only
  repeat' first
    | with_reducible assumption | (with_reducible apply Closed.mono cl; decide) | with_reducible apply State.coldStart_keeps
    | with_reducible refine State.resetCore_warm (cl.mono (by decide)) hn ?_ | intro _ _ _ | intro _ _
    | with_reducible refine pair_keeps (by with_reducible assumption) ?_ | dsimp only | split

theorem execPowerOnReset_keeps {boot : Boot} {s : State} (cl : Closed 905213651241792455049212 P) (h0 : P s) :
    OutIs P (execPowerOnReset boot s) := by
  unfold execPowerOnReset
  try dsimp only
  repeat' first
    | with_reducible assumption | (with_reducible apply Closed.mono cl; decide) | with_reducible apply State.resetDevice_keeps
    | with_reducible refine outIs_next ?_ | intro _ _ _ | intro _ _
    | with_reducible refine pair_keeps (by with_reducible assumption) ?_ | dsimp only | split

theorem execSupplyFault_keeps {stack : Bool} {boot : Boot} {s : State} (cl : Closed 905213651241517577142268 P) (h0 : P s) :
    OutIs P (execSupplyFault stack boot s) := by
  unfold execSupplyFault
  try dsimp only
  repeat' first
    | with_reducible assumption | (with_reducible apply Closed.mono cl; decide) | with_reducible apply State.coldStart_keeps
    | with_reducible refine State.resetCore_warm (cl.mono (by decide)) (by decide) ?_
    | with_reducible refine State.resetDevice_warm (cl.mono (by decide)) (by decide) ?_ | with_reducible refine outIs_next ?_
    | intro _ _ _ | intro _ _ | with_reducible refine pair_keeps (by with_reducible assumption) ?_ | dsimp only | split

theorem execResetPin_keeps {us : BitVec 16} {boot : Boot} {s : State} (cl : Closed 905213651241517577142268 P) (h0 : P s) :
    OutIs P (execResetPin us boot s) := by
  unfold execResetPin
  try dsimp only
  repeat' first
    | with_reducible assumption | (with_reducible apply Closed.mono cl; decide)
    | with_reducible refine State.resetDevice_warm (cl.mono (by decide)) (by decide) ?_ | with_reducible refine outIs_next ?_
    | intro _ _ _ | intro _ _ | with_reducible refine pair_keeps (by with_reducible assumption) ?_ | dsimp only | split

theorem State.softReset_keeps {s : State} {v : Word} {boot : Boot} (cl : Closed 905213651241517577142268 P) (h0 : P s) :
    P (State.softReset s v boot) := by
  unfold State.softReset
  try dsimp only
  repeat' first
    | with_reducible assumption | (with_reducible apply Closed.mono cl; decide)
    | with_reducible refine State.resetDevice_warm (cl.mono (by decide)) (by decide) ?_ | with_reducible apply State.audit_keeps
    | with_reducible apply State.raise_keeps | intro _ _ _ | intro _ _
    | with_reducible refine pair_keeps (by with_reducible assumption) ?_ | dsimp only | split

theorem execSoftReset_keeps {val : Word} {boot : Boot} {s : State} (cl : Closed 905213651241517577142268 P) (h0 : P s) :
    OutIs P (execSoftReset val boot s) := by
  unfold execSoftReset
  try dsimp only
  repeat' first
    | with_reducible assumption | (with_reducible apply Closed.mono cl; decide) | with_reducible apply State.bar_keeps
    | with_reducible apply State.softReset_keeps | with_reducible refine outIs_next ?_ | intro _ _ _ | intro _ _
    | with_reducible refine pair_keeps (by with_reducible assumption) ?_ | dsimp only | split

theorem execDebugReset_keeps {boot : Boot} {s : State} (cl : Closed 905213651241517577142268 P) (h0 : P s) :
    OutIs P (execDebugReset boot s) := by
  unfold execDebugReset
  try dsimp only
  repeat' first
    | with_reducible assumption | (with_reducible apply Closed.mono cl; decide)
    | with_reducible refine State.resetDevice_warm (cl.mono (by decide)) (by decide) ?_ | with_reducible refine outIs_next ?_
    | intro _ _ _ | intro _ _ | with_reducible refine pair_keeps (by with_reducible assumption) ?_ | dsimp only | split

theorem execLifecycleReset_keeps {boot : Boot} {s : State} (cl : Closed 905213651241517577142268 P) (h0 : P s) :
    OutIs P (execLifecycleReset boot s) := by
  unfold execLifecycleReset
  try dsimp only
  repeat' first
    | with_reducible assumption | (with_reducible apply Closed.mono cl; decide)
    | with_reducible refine State.resetDevice_warm (cl.mono (by decide)) (by decide) ?_ | with_reducible apply timeOn_keeps
    | with_reducible refine outIs_next ?_ | intro _ _ _ | intro _ _
    | with_reducible refine pair_keeps (by with_reducible assumption) ?_ | dsimp only | split

end Sys2Proof.Machine
end

