-- ==== Sys2Proof/Laws/Keeps/Keys.lean ====
section
/-!
SUPPORT. The updates that each operation of Machine/Keys.lean makes: one law for each.
-/
namespace Sys2Proof.Machine

variable {P : State → Prop}
theorem fwValidFld_g {m u : Nat} (h : m.testBit 48 = true) : InGroup m (fwValidFld u).off := by
  unfold fwValidFld
  split <;> exact ofGroup A.DEV_FW_STATUS_group h


theorem State.setKey_keeps {s : State} {cls : Nat} {slot : Nat} {key : Bytes} (cl : Closed 75557863725914323419144 P) (h0 : P s) :
    P (State.setKey s cls slot key) := by
  unfold State.setKey
  try dsimp only
  repeat' first
    | with_reducible assumption | (with_reducible apply Closed.mono cl; decide) | with_reducible apply State.showKeys_keeps
    | with_reducible apply withNv_keeps | intro _ _ _ | intro _ _
    | with_reducible refine pair_keeps (by with_reducible assumption) ?_ | dsimp only | split

theorem State.changeKey_keeps {s : State} {kind : Nat} {cls : Nat} {slot : Nat} {res : Nat} {key : Bytes} (cl : Closed 75557865977733465545096 P) (h0 : P s) :
    P (State.changeKey s kind cls slot res key) := by
  unfold State.changeKey
  try dsimp only
  repeat' first
    | with_reducible assumption | (with_reducible apply Closed.mono cl; decide) | (with_reducible apply State.put_keeps cl)
    | (with_reducible apply A.SEC_KEY_CTRL_in; decide) | with_reducible apply State.audit_keeps
    | with_reducible apply State.setKey_keeps | with_reducible apply State.raise_keeps
    | with_reducible apply State.endSession_keeps | intro _ _ _ | intro _ _
    | with_reducible refine pair_keeps (by with_reducible assumption) ?_ | dsimp only | split

theorem State.keyCtrl_keeps {s : State} {val : Word} {nvFail : Bool} (cl : Closed 75557865977733465545096 P) (h0 : P s) :
    P (State.keyCtrl s val nvFail) := by
  unfold State.keyCtrl
  try dsimp only
  repeat' first
    | with_reducible assumption | (with_reducible apply Closed.mono cl; decide)
    | (with_reducible apply State.putBytes_keeps A.SEC_KEY_STAGE_range cl (by decide))
    | (with_reducible apply State.put_keeps cl) | (with_reducible apply A.SEC_KEY_CTRL_in; decide)
    | with_reducible apply State.changeKey_keeps | intro _ _ _ | intro _ _
    | with_reducible refine pair_keeps (by with_reducible assumption) ?_ | dsimp only | split

theorem State.keyRow_keeps {s : State} {ops : List Nat} {val : Word} {nvFail : Bool} (cl : Closed 75557865977733465545096 P) (h0 : P s) :
    P (State.keyRow s ops val nvFail) := by
  unfold State.keyRow
  try dsimp only
  repeat' first
    | with_reducible assumption | (with_reducible apply Closed.mono cl; decide) | with_reducible apply State.bar_keeps
    | with_reducible apply State.keyCtrl_keeps | intro _ _ _ | intro _ _
    | with_reducible refine pair_keeps (by with_reducible assumption) ?_ | dsimp only | split

theorem execKeyRead_keeps {val : Word} {s : State} (cl : Closed 75557865977733465545096 P) (h0 : P s) :
    OutIs P (execKeyRead val s) := by
  unfold execKeyRead
  try dsimp only
  repeat' first
    | with_reducible assumption | (with_reducible apply Closed.mono cl; decide) | with_reducible apply State.keyRow_keeps
    | with_reducible refine outIs_next ?_ | intro _ _ _ | intro _ _
    | with_reducible refine pair_keeps (by with_reducible assumption) ?_ | dsimp only | split

theorem execKeyEnrol_keeps {val : Word} {nvFail : Bool} {s : State} (cl : Closed 75557865977733465545096 P) (h0 : P s) :
    OutIs P (execKeyEnrol val nvFail s) := by
  unfold execKeyEnrol
  try dsimp only
  repeat' first
    | with_reducible assumption | (with_reducible apply Closed.mono cl; decide) | with_reducible apply State.keyRow_keeps
    | with_reducible refine outIs_next ?_ | intro _ _ _ | intro _ _
    | with_reducible refine pair_keeps (by with_reducible assumption) ?_ | dsimp only | split

theorem execKeyRevoke_keeps {val : Word} {nvFail : Bool} {s : State} (cl : Closed 75557865977733465545096 P) (h0 : P s) :
    OutIs P (execKeyRevoke val nvFail s) := by
  unfold execKeyRevoke
  try dsimp only
  repeat' first
    | with_reducible assumption | (with_reducible apply Closed.mono cl; decide) | with_reducible apply State.keyRow_keeps
    | with_reducible refine outIs_next ?_ | intro _ _ _ | intro _ _
    | with_reducible refine pair_keeps (by with_reducible assumption) ?_ | dsimp only | split

theorem State.idCtrl_keeps {s : State} {val : Word} (cl : Closed 75557863725948683157504 P) (h0 : P s) :
    P (State.idCtrl s val) := by
  unfold State.idCtrl
  try dsimp only
  repeat' first
    | with_reducible assumption | (with_reducible apply Closed.mono cl; decide)
    | (with_reducible apply State.putBytes_keeps A.SEC_ID_SIG_range cl (by decide)) | (with_reducible apply State.put_keeps cl)
    | (with_reducible apply A.SEC_ID_CTRL_in; decide) | with_reducible apply State.drawn_keeps | intro _ _ _ | intro _ _
    | with_reducible refine pair_keeps (by with_reducible assumption) ?_ | dsimp only | split

theorem execIdentityChallenge_keeps {val : Word} {s : State} (cl : Closed 75557863725965863026688 P) (h0 : P s) :
    OutIs P (execIdentityChallenge val s) := by
  unfold execIdentityChallenge
  try dsimp only
  repeat' first
    | with_reducible assumption | (with_reducible apply Closed.mono cl; decide) | with_reducible apply State.bar_keeps
    | with_reducible apply State.idCtrl_keeps | with_reducible refine outIs_next ?_ | intro _ _ _ | intro _ _
    | with_reducible refine pair_keeps (by with_reducible assumption) ?_ | dsimp only | split

theorem State.toLc_keeps {s : State} {target : Nat} {pending : Bool} (cl : Closed 113339257087563758893448 P) (h0 : P s) :
    P (State.toLc s target pending) := by
  unfold State.toLc
  try dsimp only
  repeat' first
    | with_reducible assumption | (with_reducible apply Closed.mono cl; decide) | (with_reducible apply State.put_keeps cl)
    | (with_reducible apply A.SEC_STATE_in; decide) | with_reducible apply State.endSession_keeps
    | with_reducible apply State.erase_keeps | with_reducible apply State.showDebug_keeps | intro _ _ _ | intro _ _
    | with_reducible refine pair_keeps (by with_reducible assumption) ?_ | dsimp only | split

theorem execLcAdvance_keeps {slot : BitVec 6} {nvFail : Option Bool} {s : State} (cl : Closed 113339261591163386263944 P) (h0 : P s) :
    OutIs P (execLcAdvance slot nvFail s) := by
  unfold execLcAdvance
  try dsimp only
  repeat' first
    | with_reducible assumption | (with_reducible apply Closed.mono cl; decide) | with_reducible apply State.complete_keeps
    | with_reducible apply State.raise_keeps | with_reducible apply State.completeLogged_keeps
    | with_reducible apply State.toLc_keeps | with_reducible apply withSec_keeps | with_reducible refine outIs_next ?_
    | intro _ _ _ | intro _ _ | with_reducible refine pair_keeps (by with_reducible assumption) ?_ | dsimp only | split

theorem execFwStage_keeps {slot : BitVec 6} {nvFail : Bool} {s : State} (cl : Closed 75557870762805921057032 P) (h0 : P s) :
    OutIs P (execFwStage slot nvFail s) := by
  unfold execFwStage
  try dsimp only
  repeat' first
    | with_reducible assumption | (with_reducible apply Closed.mono cl; decide) | (with_reducible apply State.put_keeps cl)
    | (with_reducible apply fwValidFld_g <;> decide) | with_reducible apply State.completeLogged_keeps
    | with_reducible apply State.raise_keeps | with_reducible apply withNv_keeps | with_reducible refine outIs_next ?_
    | intro _ _ _ | intro _ _ | with_reducible refine pair_keeps (by with_reducible assumption) ?_ | dsimp only | split

theorem execFwCommit_keeps {slot : BitVec 6} {nvFail : Bool} {s : State} (cl : Closed 75557870762805921057032 P) (h0 : P s) :
    OutIs P (execFwCommit slot nvFail s) := by
  unfold execFwCommit
  try dsimp only
  repeat' first
    | with_reducible assumption | (with_reducible apply Closed.mono cl; decide) | (with_reducible apply State.put_keeps cl)
    | (with_reducible apply A.DEV_FW_STATUS_in; decide) | (with_reducible apply A.DEV_FW_FLOOR_in; decide)
    | with_reducible apply State.completeLogged_keeps | with_reducible apply State.raise_keeps
    | with_reducible apply withNv_keeps | with_reducible refine outIs_next ?_ | intro _ _ _ | intro _ _
    | with_reducible refine pair_keeps (by with_reducible assumption) ?_ | dsimp only | split

end Sys2Proof.Machine
end

