-- ==== Sys2Proof/Laws/Keeps/LinkRows.lean ====
section
/-!
SUPPORT. The updates that each operation of Machine/LinkRows.lean makes: one law for each.
-/
namespace Sys2Proof.Machine

variable {P : State → Prop}
theorem lostField_g {k m d : Nat} {f : Fld} (h : f ∈ F.HL_STATUS_LOCKED m :: laneDetectors m d) (hk : k.testBit 66 = true) :
    InGroup k f.off := by
  have h : f ∈ F.HL_STATUS_LOCKED m ::
      [F.HL_STATUS_SIGNAL m, F.HL_STATUS_CDR_LOCK m, F.HL_STATUS_BLOCK_LOCK m, F.HL_STATUS_FEC_LOCK m] := by
    rcases List.mem_cons.1 h with h | h
    · exact h ▸ List.mem_cons_self ..
    · exact List.mem_cons_of_mem _ (List.mem_of_mem_drop h)
  simp only [List.mem_cons, List.not_mem_nil, or_false] at h
  rcases h with rfl | rfl | rfl | rfl | rfl <;> exact ofGroup (A.HL_STATUS_group _) hk


theorem execAnComplete_keeps {port : BitVec 4} {ability : Option (BitVec 32)} {tech : BitVec 5} {master : Bool} {s : State} (cl : Closed 36902495398214533120 P) (h0 : P s) :
    OutIs P (execAnComplete port ability tech master s) := by
  unfold execAnComplete
  try dsimp only
  repeat' first
    | with_reducible assumption | (with_reducible apply Closed.mono cl; decide) | (with_reducible apply State.put_keeps cl)
    | (with_reducible apply A.PORT_AN_STATUS_in; decide) | intro t e he ht
    | (simp only [List.mem_cons, List.not_mem_nil, or_false] at he) | (rcases he with he | he) | subst he
    | with_reducible apply each_mem | with_reducible apply State.modLn_keeps | with_reducible apply State.startAn_keeps
    | with_reducible apply State.noteTried_keeps | with_reducible apply State.drawSeed_keeps
    | with_reducible apply State.padDown_keeps | with_reducible refine outIs_next ?_ | intro _ _ _ | intro _ _
    | with_reducible refine pair_keeps (by with_reducible assumption) ?_ | dsimp only | split

theorem execPartnerWaitTimeout_keeps {port : BitVec 4} {s : State} (cl : Closed 151116369214964560398592 P) (h0 : P s) :
    OutIs P (execPartnerWaitTimeout port s) := by
  unfold execPartnerWaitTimeout
  try dsimp only
  repeat' first
    | with_reducible assumption | (with_reducible apply Closed.mono cl; decide) | (with_reducible apply State.put_keeps cl)
    | (with_reducible apply A.PORT_AN_STATUS_in; decide) | with_reducible apply State.stopTraining_keeps
    | with_reducible apply State.noteTried_keeps | with_reducible apply timeTo_keeps | with_reducible apply State.fallToAn_keeps
    | with_reducible refine outIs_next ?_ | intro _ _ _ | intro _ _
    | with_reducible refine pair_keeps (by with_reducible assumption) ?_ | dsimp only | split

theorem execIlmSuppressExpiry_keeps {port : BitVec 4} {s : State} (cl : Closed 9007336693727232 P) (h0 : P s) :
    OutIs P (execIlmSuppressExpiry port s) := by
  unfold execIlmSuppressExpiry
  try dsimp only
  repeat' first
    | with_reducible assumption | (with_reducible apply Closed.mono cl; decide) | with_reducible apply State.offerIlm_keeps
    | with_reducible apply timeTo_keeps | with_reducible refine outIs_next ?_ | intro _ _ _ | intro _ _
    | with_reducible refine pair_keeps (by with_reducible assumption) ?_ | dsimp only | split

theorem State.sendNormal_keeps {s : State} {n : Nat} {es : List Nat} (cl : Closed 34816 P) (h0 : P s) :
    P (State.sendNormal s n es) := by
  unfold State.sendNormal
  try dsimp only
  repeat' first
    | with_reducible assumption | (with_reducible apply Closed.mono cl; decide) | with_reducible apply each_keeps
    | with_reducible apply State.sendEoc_keeps | intro _ _ _ | intro _ _
    | with_reducible refine pair_keeps (by with_reducible assumption) ?_ | dsimp only | split

theorem State.sendProof_keeps {s : State} {n : Nat} (cl : Closed 34359773184 P) (h0 : P s) : P (State.sendProof s n) := by
  unfold State.sendProof
  try dsimp only
  repeat' first
    | with_reducible assumption | (with_reducible apply Closed.mono cl; decide) | with_reducible apply State.idSign_keeps
    | with_reducible apply State.sendEoc_keeps | intro _ _ _ | intro _ _
    | with_reducible refine pair_keeps (by with_reducible assumption) ?_ | dsimp only | split

theorem State.beginIdentity_keeps {s : State} {n : Nat} {span : Nat} (cl : Closed 9007233614514176 P) (h0 : P s) :
    P (State.beginIdentity s n span) := by
  unfold State.beginIdentity
  try dsimp only
  repeat' first
    | with_reducible assumption | (with_reducible apply Closed.mono cl; decide) | (with_reducible apply State.put_keeps cl)
    | (with_reducible apply A.PORT_LINK_STATUS_in; decide) | with_reducible apply State.modLn_keeps
    | with_reducible apply State.drawn_keeps | with_reducible apply State.sendEoc_keeps
    | with_reducible apply State.sendProof_keeps | intro _ _ _ | intro _ _
    | with_reducible refine pair_keeps (by with_reducible assumption) ?_ | dsimp only | split

theorem State.endIdentity_keeps {s : State} {n : Nat} (cl : Closed 151116333186030102415616 P) (h0 : P s) :
    P (State.endIdentity s n) := by
  unfold State.endIdentity
  try dsimp only
  repeat' first
    | with_reducible assumption | (with_reducible apply Closed.mono cl; decide) | (with_reducible apply State.put_keeps cl)
    | (with_reducible apply A.PORT_ILM_STATE_in; decide) | (with_reducible apply A.PORT_AN_STATUS_in; decide)
    | (with_reducible apply A.PORT_LINK_STATUS_in; decide) | with_reducible apply State.trainFail_keeps
    | with_reducible apply State.modLn_keeps | with_reducible apply State.setVec_keeps | intro _ _ _ | intro _ _
    | with_reducible refine pair_keeps (by with_reducible assumption) ?_ | dsimp only | split

theorem State.beginLoading_keeps {s : State} {n : Nat} {tones : List (BitVec 12 × BitVec 8)} (cl : Closed 151116621416406254127360 P) (h0 : P s) :
    P (State.beginLoading s n tones) := by
  unfold State.beginLoading
  try dsimp only
  repeat' first
    | with_reducible assumption | (with_reducible apply Closed.mono cl; decide) | (with_reducible apply State.put_keeps cl)
    | (with_reducible apply A.PORT_LINK_STATUS_in; decide) | with_reducible apply State.sendNormal_keeps
    | with_reducible apply each_keeps | with_reducible apply State.setEntry_keeps | with_reducible apply State.sendCustom_keeps
    | with_reducible apply State.trainFail_keeps | with_reducible apply State.sendPadParams_keeps | intro _ _ _ | intro _ _
    | with_reducible refine pair_keeps (by with_reducible assumption) ?_ | dsimp only | split

theorem execTrainingPhaseEnd_keeps {port : BitVec 4} {span : BitVec 16} {tones : List (BitVec 12 × BitVec 8)} {service : BitVec 32} {s : State} (cl : Closed 151116621416406254127360 P) (h0 : P s) :
    OutIs P (execTrainingPhaseEnd port span tones service s) := by
  unfold execTrainingPhaseEnd
  try dsimp only
  repeat' first
    | with_reducible assumption | (with_reducible apply Closed.mono cl; decide) | (with_reducible apply State.put_keeps cl)
    | (with_reducible apply A.PORT_LINK_STATUS_in; decide) | with_reducible apply State.beginIdentity_keeps
    | with_reducible apply State.endIdentity_keeps | with_reducible apply State.beginLoading_keeps
    | with_reducible apply State.trainFail_keeps | with_reducible apply State.deriveAll_keeps
    | with_reducible apply State.modLn_keeps | with_reducible apply State.drawn_keeps | with_reducible apply State.sendEoc_keeps
    | with_reducible refine outIs_next ?_ | intro _ _ _ | intro _ _
    | with_reducible refine pair_keeps (by with_reducible assumption) ?_ | dsimp only | split

theorem execTrainingPhaseLate_keeps {port : BitVec 4} {s : State} (cl : Closed 151116333186167541369088 P) (h0 : P s) :
    OutIs P (execTrainingPhaseLate port s) := by
  unfold execTrainingPhaseLate
  try dsimp only
  repeat' first
    | with_reducible assumption | (with_reducible apply Closed.mono cl; decide) | with_reducible apply State.trainFail_keeps
    | with_reducible apply timeTo_keeps | with_reducible refine outIs_next ?_ | intro _ _ _ | intro _ _
    | with_reducible refine pair_keeps (by with_reducible assumption) ?_ | dsimp only | split

theorem execVectorJoinEnd_keeps {port : BitVec 4} {s : State} (cl : Closed 596726967840049408 P) (h0 : P s) :
    OutIs P (execVectorJoinEnd port s) := by
  unfold execVectorJoinEnd
  try dsimp only
  repeat' first
    | with_reducible assumption | (with_reducible apply Closed.mono cl; decide) | with_reducible apply State.setVec_keeps
    | with_reducible refine outIs_next ?_ | intro _ _ _ | intro _ _
    | with_reducible refine pair_keeps (by with_reducible assumption) ?_ | dsimp only | split

theorem execTrainSync_keeps {port : BitVec 4} {count : BitVec 32} {s : State} (cl : Closed 18014398509514752 P) (h0 : P s) :
    OutIs P (execTrainSync port count s) := by
  unfold execTrainSync
  try dsimp only
  repeat' first
    | with_reducible assumption | (with_reducible apply Closed.mono cl; decide) | (with_reducible apply State.put_keeps cl)
    | (with_reducible apply A.PORT_ILM_SFC_in; decide) | with_reducible apply State.modLn_keeps
    | with_reducible refine outIs_next ?_ | intro _ _ _ | intro _ _
    | with_reducible refine pair_keeps (by with_reducible assumption) ?_ | dsimp only | split

theorem execTrainStart_keeps {port : BitVec 4} {seq : BitVec 8} {sf : BitVec 32} {tag : BitVec 32} {s : State} (cl : Closed 34816 P) (h0 : P s) :
    OutIs P (execTrainStart port seq sf tag s) := by
  unfold execTrainStart
  try dsimp only
  repeat' first
    | with_reducible assumption | (with_reducible apply Closed.mono cl; decide) | with_reducible apply State.eocDo_keeps
    | with_reducible apply State.modLn_keeps | with_reducible refine outIs_next ?_ | intro _ _ _ | intro _ _
    | with_reducible refine pair_keeps (by with_reducible assumption) ?_ | dsimp only | split

theorem execServiceStart_keeps {port : BitVec 4} {s : State} (cl : Closed 161225184967185595074816 P) (h0 : P s) :
    OutIs P (execServiceStart port s) := by
  unfold execServiceStart
  try dsimp only
  repeat' first
    | with_reducible assumption | (with_reducible apply Closed.mono cl; decide) | with_reducible apply State.showLoading_keeps
    | with_reducible apply State.leadCheck_keeps | with_reducible apply State.modLn_keeps
    | with_reducible apply State.coldService_keeps | with_reducible apply State.warmService_keeps
    | with_reducible refine outIs_next ?_ | intro _ _ _ | intro _ _
    | with_reducible refine pair_keeps (by with_reducible assumption) ?_ | dsimp only | split

theorem execIdent_keeps {port : BitVec 4} {seq : BitVec 8} {part : BitVec 16} {step : BitVec 8} {pport : BitVec 8} {serial : BitVec 64} {key : BitVec 512} {nonce : BitVec 128} {span : BitVec 16} {s : State} (cl : Closed 151116333186030102415616 P) (h0 : P s) :
    OutIs P (execIdent port seq part step pport serial key nonce span s) := by
  unfold execIdent
  try dsimp only
  repeat' first
    | with_reducible assumption | (with_reducible apply Closed.mono cl; decide) | with_reducible apply State.eocDo_keeps
    | with_reducible apply State.showPartner_keeps | with_reducible apply State.modLn_keeps
    | with_reducible apply State.trainFail_keeps | with_reducible apply State.sendProof_keeps
    | with_reducible refine outIs_next ?_ | intro _ _ _ | intro _ _
    | with_reducible refine pair_keeps (by with_reducible assumption) ?_ | dsimp only | split

theorem execIdentProof_keeps {port : BitVec 4} {seq : BitVec 8} {sig : BitVec 512} {s : State} (cl : Closed 151116333186030102415616 P) (h0 : P s) :
    OutIs P (execIdentProof port seq sig s) := by
  unfold execIdentProof
  try dsimp only
  repeat' first
    | with_reducible assumption | (with_reducible apply Closed.mono cl; decide) | with_reducible apply State.eocDo_keeps
    | with_reducible apply State.showAuth_keeps | with_reducible apply State.modLn_keeps
    | with_reducible apply State.trainFail_keeps | with_reducible refine outIs_next ?_ | intro _ _ _ | intro _ _
    | with_reducible refine pair_keeps (by with_reducible assumption) ?_ | dsimp only | split

theorem execPartnerSignalDetected_keeps {port : BitVec 4} {s : State} (cl : Closed 153496147819088970877184 P) (h0 : P s) :
    OutIs P (execPartnerSignalDetected port s) := by
  unfold execPartnerSignalDetected
  try dsimp only
  repeat' first
    | with_reducible assumption | (with_reducible apply Closed.mono cl; decide) | (with_reducible apply State.put_keeps cl)
    | (with_reducible apply A.PORT_AN_STATUS_in; decide) | with_reducible apply State.startWarm_keeps
    | with_reducible apply State.xoff_keeps | with_reducible apply State.modLn_keeps | with_reducible refine outIs_next ?_
    | intro _ _ _ | intro _ _ | with_reducible refine pair_keeps (by with_reducible assumption) ?_ | dsimp only | split

theorem execWarmCheck_keeps {port : BitVec 4} {seq : BitVec 8} {tag : BitVec 32} {own : BitVec 64} {partner : BitVec 64} {gen : BitVec 8} {crcs : BitVec 128} {vec : BitVec 8} {prof : BitVec 8} {sf : BitVec 32} {s : State} (cl : Closed 160561102180566410823936 P) (h0 : P s) :
    OutIs P (execWarmCheck port seq tag own partner gen crcs vec prof sf s) := by
  unfold execWarmCheck
  try dsimp only
  repeat' first
    | with_reducible assumption | (with_reducible apply Closed.mono cl; decide) | (with_reducible apply State.put_keeps cl)
    | (with_reducible apply A.PORT_ILM_STATE_in; decide) | with_reducible apply State.eocDo_keeps
    | with_reducible apply State.warmFail_keeps | with_reducible apply State.modLn_keeps
    | with_reducible apply State.leadCheck_keeps | with_reducible refine outIs_next ?_ | intro _ _ _ | intro _ _
    | with_reducible refine pair_keeps (by with_reducible assumption) ?_ | dsimp only | split

theorem execWarmCheckTimeout_keeps {port : BitVec 4} {s : State} (cl : Closed 151116369214964559350016 P) (h0 : P s) :
    OutIs P (execWarmCheckTimeout port s) := by
  unfold execWarmCheckTimeout
  try dsimp only
  repeat' first
    | with_reducible assumption | (with_reducible apply Closed.mono cl; decide) | with_reducible apply State.warmFail_keeps
    | with_reducible apply timeTo_keeps | with_reducible refine outIs_next ?_ | intro _ _ _ | intro _ _
    | with_reducible refine pair_keeps (by with_reducible assumption) ?_ | dsimp only | split

theorem execWarmHoldExpiry_keeps {port : BitVec 4} {s : State} (cl : Closed 47287985066051840 P) (h0 : P s) :
    OutIs P (execWarmHoldExpiry port s) := by
  unfold execWarmHoldExpiry
  try dsimp only
  repeat' first
    | with_reducible assumption | (with_reducible apply Closed.mono cl; decide) | with_reducible apply State.fallToAn_keeps
    | with_reducible apply timeTo_keeps | with_reducible refine outIs_next ?_ | intro _ _ _ | intro _ _
    | with_reducible refine pair_keeps (by with_reducible assumption) ?_ | dsimp only | split

theorem execLinkDown_keeps {port : BitVec 4} {_cause : BitVec 8} {warm : Bool} {s : State} (cl : Closed 160672147436582781552896 P) (h0 : P s) :
    OutIs P (execLinkDown port _cause warm s) := by
  unfold execLinkDown
  try dsimp only
  repeat' first
    | with_reducible assumption | (with_reducible apply Closed.mono cl; decide) | (with_reducible apply State.put_keeps cl)
    | (with_reducible apply A.PORT_MODE_in; decide) | with_reducible apply State.dropLink_keeps
    | with_reducible apply State.dropStored_keeps | with_reducible apply State.stopTraining_keeps
    | with_reducible apply State.comeBack_keeps | with_reducible apply State.fallToAn_keeps | with_reducible refine outIs_next ?_
    | intro _ _ _ | intro _ _ | with_reducible refine pair_keeps (by with_reducible assumption) ?_ | dsimp only | split

theorem execLossOfSync_keeps {port : BitVec 4} {s : State} (cl : Closed 160672147436720220506368 P) (h0 : P s) :
    OutIs P (execLossOfSync port s) := by
  unfold execLossOfSync
  try dsimp only
  repeat' first
    | with_reducible assumption | (with_reducible apply Closed.mono cl; decide) | with_reducible apply State.dropLink_keeps
    | with_reducible apply timeTo_keeps | with_reducible refine outIs_next ?_ | intro _ _ _ | intro _ _
    | with_reducible refine pair_keeps (by with_reducible assumption) ?_ | dsimp only | split

theorem execMarginDownTimeout_keeps {port : BitVec 4} {s : State} (cl : Closed 160672147436720220506368 P) (h0 : P s) :
    OutIs P (execMarginDownTimeout port s) := by
  unfold execMarginDownTimeout
  try dsimp only
  repeat' first
    | with_reducible assumption | (with_reducible apply Closed.mono cl; decide) | with_reducible apply State.dropLink_keeps
    | with_reducible apply timeTo_keeps | with_reducible refine outIs_next ?_ | intro _ _ _ | intro _ _
    | with_reducible refine pair_keeps (by with_reducible assumption) ?_ | dsimp only | split

theorem execLegacyLinkFail_keeps {port : BitVec 4} {s : State} (cl : Closed 160672147436582781552896 P) (h0 : P s) :
    OutIs P (execLegacyLinkFail port s) := by
  unfold execLegacyLinkFail
  try dsimp only
  repeat' first
    | with_reducible assumption | (with_reducible apply Closed.mono cl; decide) | with_reducible apply State.dropLink_keeps
    | with_reducible refine outIs_next ?_ | intro _ _ _ | intro _ _
    | with_reducible refine pair_keeps (by with_reducible assumption) ?_ | dsimp only | split

theorem execEocResendTimeout_keeps {port : BitVec 4} {s : State} (cl : Closed 160672147436720220506368 P) (h0 : P s) :
    OutIs P (execEocResendTimeout port s) := by
  unfold execEocResendTimeout
  try dsimp only
  repeat' first
    | with_reducible assumption | (with_reducible apply Closed.mono cl; decide) | (with_reducible apply State.count_keeps cl)
    | (with_reducible apply A.PORT_EOC_RETRY_in; decide) | with_reducible apply timeTo_keeps
    | with_reducible apply State.dropLink_keeps | with_reducible apply State.trainFail_keeps
    | with_reducible apply State.modLn_keeps | with_reducible apply State.cenHerd_keeps | with_reducible refine foldl_keeps ?_ ?_
    | with_reducible refine foldlFst_keeps ?_ ?_ | with_reducible refine outIs_next ?_ | intro _ _ _ | intro _ _
    | with_reducible refine pair_keeps (by with_reducible assumption) ?_ | dsimp only | split

theorem State.putPortMode_keeps {s : State} {n : Nat} {v : Word} (cl : Closed 47287813267360000 P) (h0 : P s) :
    P (State.putPortMode s n v) := by
  unfold State.putPortMode
  try dsimp only
  repeat' first
    | with_reducible assumption | (with_reducible apply Closed.mono cl; decide) | (with_reducible apply State.put_keeps cl)
    | (with_reducible apply A.PORT_MODE_in; decide) | intro t e he ht
    | (simp only [List.mem_cons, List.not_mem_nil, or_false] at he) | (rcases he with he | he) | subst he
    | with_reducible apply each_mem | with_reducible apply State.dropStored_keeps | with_reducible apply State.flushKept_keeps
    | intro _ _ _ | intro _ _ | with_reducible refine pair_keeps (by with_reducible assumption) ?_ | dsimp only | split

theorem State.writePortMode_keeps {s : State} {n : Nat} {v : Word} (cl : Closed 200838923850768808143104 P) (h0 : P s) :
    P (State.writePortMode s n v) := by
  unfold State.writePortMode
  try dsimp only
  repeat' first
    | with_reducible assumption | (with_reducible apply Closed.mono cl; decide) | with_reducible apply State.putPortMode_keeps
    | with_reducible apply State.fallToAn_keeps | with_reducible apply State.stopTraining_keeps
    | with_reducible apply State.sayDown_keeps | with_reducible apply State.enablePort_keeps
    | with_reducible apply State.disablePort_keeps | with_reducible apply State.restartPort_keeps | intro _ _ _ | intro _ _
    | with_reducible refine pair_keeps (by with_reducible assumption) ?_ | dsimp only | split

theorem execPortEnable_keeps {port : BitVec 4} {val : Word} {s : State} (cl : Closed 200838923850768808143104 P) (h0 : P s) :
    OutIs P (execPortEnable port val s) := by
  unfold execPortEnable
  try dsimp only
  repeat' first
    | with_reducible assumption | (with_reducible apply Closed.mono cl; decide) | with_reducible apply State.bar_keeps
    | with_reducible apply State.writePortMode_keeps | with_reducible refine outIs_next ?_ | intro _ _ _ | intro _ _
    | with_reducible refine pair_keeps (by with_reducible assumption) ?_ | dsimp only | split

theorem execPortModeDisable_keeps {port : BitVec 4} {val : Word} {s : State} (cl : Closed 200838923850768808143104 P) (h0 : P s) :
    OutIs P (execPortModeDisable port val s) := by
  unfold execPortModeDisable
  try dsimp only
  repeat' first
    | with_reducible assumption | (with_reducible apply Closed.mono cl; decide) | with_reducible apply State.bar_keeps
    | with_reducible apply State.writePortMode_keeps | with_reducible refine outIs_next ?_ | intro _ _ _ | intro _ _
    | with_reducible refine pair_keeps (by with_reducible assumption) ?_ | dsimp only | split

theorem execPortModeRestart_keeps {port : BitVec 4} {val : Word} {s : State} (cl : Closed 200838923850768808143104 P) (h0 : P s) :
    OutIs P (execPortModeRestart port val s) := by
  unfold execPortModeRestart
  try dsimp only
  repeat' first
    | with_reducible assumption | (with_reducible apply Closed.mono cl; decide) | with_reducible apply State.bar_keeps
    | with_reducible apply State.writePortMode_keeps | with_reducible refine outIs_next ?_ | intro _ _ _ | intro _ _
    | with_reducible refine pair_keeps (by with_reducible assumption) ?_ | dsimp only | split

theorem State.writeCustom_keeps {s : State} {n : Nat} {b : Bool} {k : Nat} {v : Word} (cl : Closed 18014398509516800 P) (h0 : P s) :
    P (State.writeCustom s n b k v) := by
  unfold State.writeCustom
  try dsimp only
  repeat' first
    | with_reducible assumption | (with_reducible apply Closed.mono cl; decide) | (with_reducible apply putWord_keeps cl)
    | (with_reducible apply iteGroup) | (with_reducible apply A.PORT_CUSTOM_A_in; decide)
    | (with_reducible apply A.PORT_CUSTOM_B_in; decide) | with_reducible apply State.sendCustom_keeps | intro _ _ _ | intro _ _
    | with_reducible refine pair_keeps (by with_reducible assumption) ?_ | dsimp only | split

theorem execPortDisable_keeps {slot : BitVec 6} {s : State} (cl : Closed 200838923850768808143168 P) (h0 : P s) :
    OutIs P (execPortDisable slot s) := by
  unfold execPortDisable
  try dsimp only
  repeat' first
    | with_reducible assumption | (with_reducible apply Closed.mono cl; decide) | (with_reducible apply State.put_keeps cl)
    | (with_reducible apply A.PORT_MODE_in; decide) | with_reducible apply State.complete_keeps
    | with_reducible apply State.beginDrain_keeps | with_reducible apply State.begin_keeps
    | with_reducible apply State.disableDown_keeps | with_reducible refine outIs_next ?_ | intro _ _ _ | intro _ _
    | with_reducible refine pair_keeps (by with_reducible assumption) ?_ | dsimp only | split

theorem execDrainEnd_keeps {port : BitVec 4} {s : State} (cl : Closed 160672147436720220506368 P) (h0 : P s) :
    OutIs P (execDrainEnd port s) := by
  unfold execDrainEnd
  try dsimp only
  repeat' first
    | with_reducible assumption | (with_reducible apply Closed.mono cl; decide) | with_reducible apply State.endDrain_keeps
    | with_reducible apply timeTo_keeps | with_reducible refine outIs_next ?_ | intro _ _ _ | intro _ _
    | with_reducible refine pair_keeps (by with_reducible assumption) ?_ | dsimp only | split

theorem execLegacyLinkUp_keeps {port : BitVec 4} {forced : Option (BitVec 3 × Bool)} {needs : Bool} {s : State} (cl : Closed 151190156191087565441280 P) (h0 : P s) :
    OutIs P (execLegacyLinkUp port forced needs s) := by
  unfold execLegacyLinkUp
  try dsimp only
  repeat' first
    | with_reducible assumption | (with_reducible apply Closed.mono cl; decide) | (with_reducible apply State.put_keeps cl)
    | (with_reducible apply A.PORT_PARTNER_INFO_in; decide) | (with_reducible apply A.PORT_ILM_STATE_in; decide)
    | intro t e he ht | (simp only [List.mem_cons, List.not_mem_nil, or_false] at he) | (rcases he with he | he) | subst he
    | with_reducible apply State.modLn_keeps | with_reducible apply each_mem | with_reducible apply State.linkUp_keeps
    | with_reducible refine outIs_next ?_ | intro _ _ _ | intro _ _
    | with_reducible refine pair_keeps (by with_reducible assumption) ?_ | dsimp only | split

theorem execLegacyFrameReceived_keeps {port : BitVec 4} {bytes : Bytes} {errored : Bool} {s : State} (cl : Closed 40277499662877894244608 P) (h0 : P s) :
    OutIs P (execLegacyFrameReceived port bytes errored s) := by
  unfold execLegacyFrameReceived
  try dsimp only
  repeat' first
    | with_reducible assumption | (with_reducible apply Closed.mono cl; decide) | with_reducible apply State.fromLine_keeps
    | with_reducible refine outIs_next ?_ | intro _ _ _ | intro _ _
    | with_reducible refine pair_keeps (by with_reducible assumption) ?_ | dsimp only | split

theorem State.loseLane_keeps {s : State} {m : Nat} {d : Nat} {partialFrame : Option Bytes} (cl : Closed 77284021458642364672 P) (h0 : P s) :
    P (State.loseLane s m d partialFrame) := by
  unfold State.loseLane
  try dsimp only
  repeat' first
    | with_reducible assumption | (with_reducible apply Closed.mono cl; decide) | (with_reducible apply State.count_keeps cl)
    | (with_reducible apply State.put_keeps cl) | (with_reducible apply lostField_g (by assumption); decide)
    | (with_reducible apply A.HL_RX_ABORT_in; decide) | (with_reducible apply A.HL_STATUS_in; decide)
    | (with_reducible apply A.HL_LOSS_EVENTS_in; decide) | intro t e he ht | with_reducible apply State.acceptFrame_keeps
    | with_reducible apply each_mem | with_reducible apply State.raiseHlLoss_keeps | with_reducible apply State.modHl_keeps
    | with_reducible apply State.cenLane_keeps | intro _ _ _ | intro _ _
    | with_reducible refine pair_keeps (by with_reducible assumption) ?_ | dsimp only | split

theorem execLaneLoss_keeps {lane : BitVec 4} {det : BitVec 2} {mv : BitVec 16} {frame : Option Bytes} {s : State} (cl : Closed 77284021458642364672 P) (h0 : P s) :
    OutIs P (execLaneLoss lane det mv frame s) := by
  unfold execLaneLoss
  try dsimp only
  repeat' first
    | with_reducible assumption | (with_reducible apply Closed.mono cl; decide) | with_reducible apply State.loseLane_keeps
    | with_reducible refine outIs_next ?_ | intro _ _ _ | intro _ _
    | with_reducible refine pair_keeps (by with_reducible assumption) ?_ | dsimp only | split

theorem execLaneRelock_keeps {lane : BitVec 4} {mv : BitVec 16} {midFrame : Bool} {ppm : BitVec 8} {s : State} (cl : Closed 73786976294838337536 P) (h0 : P s) :
    OutIs P (execLaneRelock lane mv midFrame ppm s) := by
  unfold execLaneRelock
  try dsimp only
  repeat' first
    | with_reducible assumption | (with_reducible apply Closed.mono cl; decide) | (with_reducible apply State.put_keeps cl)
    | (with_reducible apply State.count_keeps cl) | (with_reducible apply A.HL_STATUS_in; decide)
    | (with_reducible apply A.HL_CFG_in; decide) | (with_reducible apply A.HL_RX_RESUME_DISC_in; decide) | intro t e he ht
    | (simp only [List.mem_cons, List.not_mem_nil, or_false] at he) | (rcases he with he | he) | subst he
    | with_reducible apply each_mem | with_reducible apply State.modHl_keeps | with_reducible apply when_keeps
    | with_reducible refine outIs_next ?_ | intro _ _ _ | intro _ _
    | with_reducible refine pair_keeps (by with_reducible assumption) ?_ | dsimp only | split

end Sys2Proof.Machine
end

