-- ==== Sys2Proof/Laws/Keeps/SelfTest.lean ====
section
/-!
SUPPORT. The updates that each operation of Machine/SelfTest.lean makes: one law for each.
-/
namespace Sys2Proof.Machine

variable {P : State → Prop}

theorem State.showFailed_keeps {s : State} (cl : Closed 151115727451828646838272 P) (h0 : P s) : P (State.showFailed s) := by
  unfold State.showFailed
  try dsimp only
  repeat' first
    | with_reducible assumption | (with_reducible apply Closed.mono cl; decide) | (with_reducible apply State.put_keeps cl)
    | (with_reducible apply A.TST_ROT_STATE_in; decide) | intro _ _ _ | intro _ _
    | with_reducible refine pair_keeps (by with_reducible assumption) ?_ | dsimp only | split

theorem State.beginSliceTest_keeps {s : State} {x : Nat} (cl : Closed 151115729703645640395008 P) (h0 : P s) :
    P (State.beginSliceTest s x) := by
  unfold State.beginSliceTest
  try dsimp only
  repeat' first
    | with_reducible assumption | (with_reducible apply Closed.mono cl; decide) | (with_reducible apply State.put_keeps cl)
    | (with_reducible apply A.TST_ROT_STATE_in; decide) | with_reducible apply State.showSpares_keeps
    | with_reducible apply State.unassign_keeps | intro _ _ _ | intro _ _
    | with_reducible refine pair_keeps (by with_reducible assumption) ?_ | dsimp only | split

theorem State.failSlice_keeps {s : State} {x : Nat} (cl : Closed 151115729703645640395008 P) (h0 : P s) :
    P (State.failSlice s x) := by
  unfold State.failSlice
  try dsimp only
  repeat' first
    | with_reducible assumption | (with_reducible apply Closed.mono cl; decide) | (with_reducible apply State.count_keeps cl)
    | (with_reducible apply A.TST_FAULTS_in; decide) | with_reducible apply State.showSpares_keeps
    | with_reducible apply State.showFailed_keeps | with_reducible apply State.raiseTstFault_keeps
    | with_reducible apply State.unassign_keeps | intro _ _ _ | intro _ _
    | with_reducible refine pair_keeps (by with_reducible assumption) ?_ | dsimp only | split

theorem State.handOver_keeps {s : State} {x : Nat} {n : Nat} (cl : Closed 151116303912580950296576 P) (h0 : P s) :
    P (State.handOver s x n).1 := by
  unfold State.handOver
  try dsimp only
  repeat' first
    | with_reducible assumption | (with_reducible apply Closed.mono cl; decide) | with_reducible apply State.takeSlice_keeps
    | with_reducible apply State.putMap_keeps | with_reducible apply State.sendCap_keeps | intro _ _ _ | intro _ _
    | with_reducible refine pair_keeps (by with_reducible assumption) ?_ | dsimp only | split

theorem execRotationSwap_keeps {slice : BitVec 7} {s : State} (cl : Closed 151116306164397943818496 P) (h0 : P s) :
    OutIs P (execRotationSwap slice s) := by
  unfold execRotationSwap
  try dsimp only
  repeat' first
    | with_reducible assumption | (with_reducible apply Closed.mono cl; decide) | (with_reducible apply State.put_keeps cl)
    | (with_reducible apply A.TST_ROT_STATE_in; decide) | (with_reducible apply A.TST_SLICE_STATE_in; decide)
    | with_reducible apply State.beginSliceTest_keeps | with_reducible apply State.putMap_keeps
    | with_reducible apply State.assign_keeps | with_reducible refine outIs_next ?_ | intro _ _ _ | intro _ _
    | with_reducible refine pair_keeps (by with_reducible assumption) ?_ | dsimp only | split

theorem execSliceTestEnd_keeps {pass : Bool} {s : State} (cl : Closed 151116306164398078068992 P) (h0 : P s) :
    OutIs P (execSliceTestEnd pass s) := by
  unfold execSliceTestEnd
  try dsimp only
  repeat' first
    | with_reducible assumption | (with_reducible apply Closed.mono cl; decide) | (with_reducible apply State.count_keeps cl)
    | (with_reducible apply A.TST_PASSES_in; decide) | with_reducible apply State.endSliceTest_keeps
    | with_reducible apply State.assign_keeps | with_reducible apply State.unassign_keeps | with_reducible apply withTst_keeps
    | with_reducible apply State.showSpares_keeps | with_reducible apply State.handOver_keeps
    | with_reducible apply State.failSlice_keeps | with_reducible refine outIs_next ?_ | intro _ _ _ | intro _ _
    | with_reducible refine pair_keeps (by with_reducible assumption) ?_ | dsimp only | split

theorem State.failBlock_keeps {s : State} {b : Nat} (cl : Closed 151115729703645774612736 P) (h0 : P s) :
    P (State.failBlock s b) := by
  unfold State.failBlock
  try dsimp only
  repeat' first
    | with_reducible assumption | (with_reducible apply Closed.mono cl; decide) | (with_reducible apply State.put_keeps cl)
    | (with_reducible apply State.count_keeps cl) | (with_reducible apply A.TST_BLOCK_STATE_in; decide)
    | (with_reducible apply A.TST_FAULTS_in; decide) | with_reducible apply withTst_keeps
    | with_reducible apply State.showFailed_keeps | with_reducible apply State.raiseTstFault_keeps | intro _ _ _ | intro _ _
    | with_reducible refine pair_keeps (by with_reducible assumption) ?_ | dsimp only | split

theorem State.endBlockTest_keeps {s : State} {b : Nat} {pass : Bool} (cl : Closed 151115729703645774612736 P) (h0 : P s) :
    P (State.endBlockTest s b pass) := by
  unfold State.endBlockTest
  try dsimp only
  repeat' first
    | with_reducible assumption | (with_reducible apply Closed.mono cl; decide) | (with_reducible apply State.put_keeps cl)
    | (with_reducible apply State.count_keeps cl) | (with_reducible apply A.TST_ROT_STATE_in; decide)
    | (with_reducible apply A.TST_PASSES_in; decide) | (with_reducible apply A.TST_BLOCK_STATE_in; decide)
    | with_reducible apply withTst_keeps | with_reducible apply State.failBlock_keeps | intro _ _ _ | intro _ _
    | with_reducible refine pair_keeps (by with_reducible assumption) ?_ | dsimp only | split

theorem execSrSegment_keeps {block : BitVec 7} {served : Bool} {crc : Bool} {pass : Bool} {s : State} (cl : Closed 151115729703783213566208 P) (h0 : P s) :
    OutIs P (execSrSegment block served crc pass s) := by
  unfold execSrSegment
  try dsimp only
  repeat' first
    | with_reducible assumption | (with_reducible apply Closed.mono cl; decide) | (with_reducible apply State.put_keeps cl)
    | (with_reducible apply State.count_keeps cl) | (with_reducible apply A.TST_BLOCK_STATE_in; decide)
    | (with_reducible apply A.TST_ROT_STATE_in; decide) | (with_reducible apply A.TST_FAULTS_in; decide)
    | with_reducible apply timeTo_keeps | with_reducible apply withTst_keeps | with_reducible apply State.endBlockTest_keeps
    | with_reducible refine outIs_next ?_ | intro _ _ _ | intro _ _
    | with_reducible refine pair_keeps (by with_reducible assumption) ?_ | dsimp only | split

theorem execSliceCheckerFired_keeps {slice : BitVec 7} {s : State} (cl : Closed 151116306164397943851264 P) (h0 : P s) :
    OutIs P (execSliceCheckerFired slice s) := by
  unfold execSliceCheckerFired
  try dsimp only
  repeat' first
    | with_reducible assumption | (with_reducible apply Closed.mono cl; decide) | (with_reducible apply State.count_keeps cl)
    | (with_reducible apply A.TST_HANDOVERS_in; decide) | with_reducible apply State.handOver_keeps
    | with_reducible apply State.failSlice_keeps | with_reducible refine outIs_next ?_ | intro _ _ _ | intro _ _
    | with_reducible refine pair_keeps (by with_reducible assumption) ?_ | dsimp only | split

theorem execRotationOverdue_keeps {slice : BitVec 7} {s : State} (cl : Closed 151115729703783213566208 P) (h0 : P s) :
    OutIs P (execRotationOverdue slice s) := by
  unfold execRotationOverdue
  try dsimp only
  repeat' first
    | with_reducible assumption | (with_reducible apply Closed.mono cl; decide) | (with_reducible apply State.count_keeps cl)
    | (with_reducible apply A.TST_OVERDUE_in; decide) | with_reducible apply timeTo_keeps
    | with_reducible apply State.raiseTstOverdue_keeps | with_reducible apply withTst_keeps | with_reducible refine outIs_next ?_
    | intro _ _ _ | intro _ _ | with_reducible refine pair_keeps (by with_reducible assumption) ?_ | dsimp only | split

theorem State.manualBist_keeps {s : State} {sig : Word} {pass : Bool} (cl : Closed 151115729703645774612736 P) (h0 : P s) :
    P (State.manualBist s sig pass) := by
  unfold State.manualBist
  try dsimp only
  repeat' first
    | with_reducible assumption | (with_reducible apply Closed.mono cl; decide) | (with_reducible apply State.put_keeps cl)
    | (with_reducible apply putWord_keeps cl) | (with_reducible apply A.TST_MAN_CTRL_in; decide)
    | (with_reducible apply A.TST_MAN_SIG_in; decide) | with_reducible apply State.failSlice_keeps
    | with_reducible apply State.failBlock_keeps | intro _ _ _ | intro _ _
    | with_reducible refine pair_keeps (by with_reducible assumption) ?_ | dsimp only | split

end Sys2Proof.Machine
end

