-- ==== Sys2Proof/Laws/Keeps/Power.lean ====
section
/-!
SUPPORT. The updates that each operation of Machine/Power.lean makes: one law for each.
-/
namespace Sys2Proof.Machine

variable {P : State → Prop}

theorem State.noteRefusal_keeps {s : State} {code : Nat} {aborted : Bool} (cl : Closed 295150156996346382592 P) (h0 : P s) :
    P (State.noteRefusal s code aborted) := by
  unfold State.noteRefusal
  try dsimp only
  repeat' first
    | with_reducible assumption | (with_reducible apply Closed.mono cl; decide) | (with_reducible apply State.put_keeps cl)
    | (with_reducible apply State.count_keeps cl) | (with_reducible apply A.PWR_LAST_in; decide)
    | (with_reducible apply A.PWR_REFUSE_CNT_in; decide) | with_reducible apply State.raise_keeps | intro _ _ _ | intro _ _
    | with_reducible refine pair_keeps (by with_reducible assumption) ?_ | dsimp only | split

theorem State.noteWake_keeps {s : State} {src : Nat} {port : Nat} {frm : Nat} {replayed : Bool} (cl : Closed 295150156996346382592 P) (h0 : P s) :
    P (State.noteWake s src port frm replayed) := by
  unfold State.noteWake
  try dsimp only
  repeat' first
    | with_reducible assumption | (with_reducible apply Closed.mono cl; decide) | (with_reducible apply State.put_keeps cl)
    | (with_reducible apply State.count_keeps cl) | (with_reducible apply putWord_keeps cl)
    | (with_reducible apply A.PWR_LAST_in; decide) | (with_reducible apply A.PWR_WAKES_in; decide)
    | (with_reducible apply A.PWR_WAKE_HIST_W1_in; decide) | (with_reducible apply A.PWR_WAKE_HIST_in; decide) | intro t e he ht
    | (simp only [List.mem_cons, List.not_mem_nil, or_false] at he) | (rcases he with he | he) | subst he
    | with_reducible apply each_mem | with_reducible apply State.raise_keeps | intro _ _ _ | intro _ _
    | with_reducible refine pair_keeps (by with_reducible assumption) ?_ | dsimp only | split

theorem State.beginStep_keeps {s : State} {k : Nat} (cl : Closed 4294967296 P) (h0 : P s) : P (State.beginStep s k) := by
  unfold State.beginStep
  try dsimp only
  repeat' first
    | with_reducible assumption | (with_reducible apply Closed.mono cl; decide) | with_reducible apply withPwr_keeps
    | intro _ _ _ | intro _ _ | with_reducible refine pair_keeps (by with_reducible assumption) ?_ | dsimp only | split

theorem State.runLevel_keeps {s : State} (cl : Closed 590295810367295586304 P) (h0 : P s) : P (State.runLevel s) := by
  unfold State.runLevel
  try dsimp only
  repeat' first
    | with_reducible assumption | (with_reducible apply Closed.mono cl; decide) | with_reducible apply State.setLevel_keeps
    | intro _ _ _ | intro _ _ | with_reducible refine pair_keeps (by with_reducible assumption) ?_ | dsimp only | split

theorem State.leaveDrowse_keeps {s : State} (cl : Closed 885443715550943379456 P) (h0 : P s) : P (State.leaveDrowse s) := by
  unfold State.leaveDrowse
  try dsimp only
  repeat' first
    | with_reducible assumption | (with_reducible apply Closed.mono cl; decide) | (with_reducible apply State.put_keeps cl)
    | (with_reducible apply A.PWR_MODE_in; decide) | with_reducible apply State.runLevel_keeps
    | with_reducible apply withPwr_keeps | intro _ _ _ | intro _ _
    | with_reducible refine pair_keeps (by with_reducible assumption) ?_ | dsimp only | split

theorem State.wakeNow_keeps {s : State} {src : Nat} {port : Nat} {replayed : Bool} {boot : Boot} (cl : Closed 905508799146696929968124 P) (h0 : P s) :
    P (State.wakeNow s src port replayed boot) := by
  unfold State.wakeNow
  try dsimp only
  repeat' first
    | with_reducible assumption | (with_reducible apply Closed.mono cl; decide) | with_reducible apply State.noteWake_keeps
    | with_reducible apply State.leaveDrowse_keeps | with_reducible apply State.beginStep_keeps
    | with_reducible apply withPins_keeps | with_reducible apply withPwr_keeps
    | with_reducible refine State.resetDevice_warm (cl.mono (by decide)) (by decide) ?_ | intro _ _ _ | intro _ _
    | with_reducible refine pair_keeps (by with_reducible assumption) ?_ | dsimp only | split

theorem State.wake_keeps {s : State} {src : Nat} {port : Nat} {boot : Boot} (cl : Closed 905508799146696929968124 P) (h0 : P s) :
    P (State.wake s src port boot) := by
  unfold State.wake
  try dsimp only
  repeat' first
    | with_reducible assumption | (with_reducible apply Closed.mono cl; decide) | (with_reducible apply State.put_keeps cl)
    | (with_reducible apply A.PWR_MODE_in; decide) | with_reducible apply withPwr_keeps | with_reducible apply withClk_keeps
    | with_reducible apply State.wakeNow_keeps | intro _ _ _ | intro _ _
    | with_reducible refine pair_keeps (by with_reducible assumption) ?_ | dsimp only | split

theorem State.restartPorts_keeps {s : State} (cl : Closed 65302246136580352 P) (h0 : P s) : P (State.restartPorts s) := by
  unfold State.restartPorts
  try dsimp only
  repeat' first
    | with_reducible assumption | (with_reducible apply Closed.mono cl; decide) | with_reducible apply each_keeps
    | with_reducible apply State.comeBack_keeps | intro _ _ _ | intro _ _
    | with_reducible refine pair_keeps (by with_reducible assumption) ?_ | dsimp only | split

theorem State.clearCensus_keeps {s : State} (cl : Closed 2048 P) (h0 : P s) : P (State.clearCensus s) := by
  unfold State.clearCensus
  try dsimp only
  repeat' first
    | with_reducible assumption | (with_reducible apply Closed.mono cl; decide) | with_reducible apply withCen_keeps
    | intro _ _ _ | intro _ _ | with_reducible refine pair_keeps (by with_reducible assumption) ?_ | dsimp only | split

theorem State.undoEntry_keeps {s : State} {status : Nat} {detail : Nat} {note : State → State} (cl : Closed 905513771120685546995708 P) (hnote : ∀ t, P t → P (note t)) (h0 : P s) :
    P (State.undoEntry s status detail note) := by
  unfold State.undoEntry
  try dsimp only
  repeat' first
    | with_reducible assumption | (with_reducible apply Closed.mono cl; decide) | with_reducible refine hnote _ ?_
    | (with_reducible apply State.put_keeps cl) | (with_reducible apply A.PWR_MODE_in; decide) | with_reducible apply each_keeps
    | with_reducible apply State.endDrain_keeps | with_reducible apply when_keeps | with_reducible apply State.serveQueues_keeps
    | with_reducible apply State.leaveSelfRefresh_keeps | with_reducible apply withClk_keeps | with_reducible apply withPwr_keeps
    | with_reducible apply State.resumeRings_keeps | with_reducible apply State.holdBypass_keeps
    | with_reducible apply State.restartPorts_keeps | with_reducible apply State.complete_keeps
    | with_reducible apply State.wakeNow_keeps | intro _ _ _ | intro _ _
    | with_reducible refine pair_keeps (by with_reducible assumption) ?_ | dsimp only | split

theorem State.refuseEntry_keeps {s : State} {code : Nat} (cl : Closed 905513771120685546995708 P) (h0 : P s) :
    P (State.refuseEntry s code) := by
  unfold State.refuseEntry
  try dsimp only
  repeat' first
    | with_reducible assumption | (with_reducible apply Closed.mono cl; decide) | with_reducible apply State.undoEntry_keeps
    | with_reducible apply State.noteRefusal_keeps | intro _ _ _ | intro _ _
    | with_reducible refine pair_keeps (by with_reducible assumption) ?_ | dsimp only | split

theorem State.entryQuiet_keeps {s : State} (cl : Closed 56671858810815412467968 P) (h0 : P s) : P (State.entryQuiet s) := by
  unfold State.entryQuiet
  try dsimp only
  repeat' first
    | with_reducible assumption | (with_reducible apply Closed.mono cl; decide) | (with_reducible apply State.put_keeps cl)
    | (with_reducible apply A.CEN_STATUS_in; decide) | with_reducible apply each_keeps
    | with_reducible apply State.releaseBypass_keeps | with_reducible apply State.stopRing_keeps
    | with_reducible apply withPwr_keeps | intro _ _ _ | intro _ _
    | with_reducible refine pair_keeps (by with_reducible assumption) ?_ | dsimp only | split

theorem State.powerState_keeps {s : State} {k : Nat} (cl : Closed 220613833497795664804176 P) (h0 : P s) :
    P (State.powerState s k) := by
  unfold State.powerState
  try dsimp only
  repeat' first
    | with_reducible assumption | (with_reducible apply Closed.mono cl; decide) | (with_reducible apply State.put_keeps cl)
    | (with_reducible apply A.PWR_TIMER_in; decide) | (with_reducible apply A.PWR_MODE_in; decide)
    | with_reducible refine withAo_keeps (cl.mono (by decide)) rfl ?_ | with_reducible apply State.complete_keeps
    | with_reducible apply State.leaveDrowse_keeps | with_reducible apply State.noteRefusal_keeps
    | with_reducible apply State.abortDiags_keeps | with_reducible apply State.abandonRuns_keeps
    | with_reducible apply withPwr_keeps | with_reducible apply State.begin_keeps | with_reducible apply State.entryQuiet_keeps
    | with_reducible apply State.takePorts_keeps | intro _ _ _ | intro _ _
    | with_reducible refine pair_keeps (by with_reducible assumption) ?_ | dsimp only | split

theorem execPwrState_keeps {slot : BitVec 6} {s : State} (cl : Closed 220613833497795664804176 P) (h0 : P s) :
    OutIs P (execPwrState slot s) := by
  unfold execPwrState
  try dsimp only
  repeat' first
    | with_reducible assumption | (with_reducible apply Closed.mono cl; decide) | with_reducible apply State.powerState_keeps
    | with_reducible refine outIs_next ?_ | intro _ _ _ | intro _ _
    | with_reducible refine pair_keeps (by with_reducible assumption) ?_ | dsimp only | split

theorem State.closeGate_keeps {s : State} {block : Nat} (cl : Closed 40203712686587384555776 P) (h0 : P s) :
    P (State.closeGate s block) := by
  unfold State.closeGate
  try dsimp only
  repeat' first
    | with_reducible assumption | (with_reducible apply Closed.mono cl; decide) | with_reducible apply withClk_keeps
    | with_reducible apply withPwr_keeps | with_reducible apply State.enterSelfRefresh_keeps | with_reducible apply each_keeps
    | with_reducible apply State.serveQueues_keeps | with_reducible apply State.quietPc_keeps
    | with_reducible apply State.complete_keeps | intro _ _ _ | intro _ _
    | with_reducible refine pair_keeps (by with_reducible assumption) ?_ | dsimp only | split

theorem execClockGateRequest_keeps {block : BitVec 4} {ack : Bool} {demand : Bool} {s : State} (cl : Closed 59093178618074555349248 P) (h0 : P s) :
    OutIs P (execClockGateRequest block ack demand s) := by
  unfold execClockGateRequest
  try dsimp only
  repeat' first
    | with_reducible assumption | (with_reducible apply Closed.mono cl; decide) | with_reducible apply State.entryQuiet_keeps
    | with_reducible apply State.closeGate_keeps | with_reducible apply withPwr_keeps | with_reducible apply withClk_keeps
    | with_reducible refine outIs_next ?_ | intro _ _ _ | intro _ _
    | with_reducible refine pair_keeps (by with_reducible assumption) ?_ | dsimp only | split

theorem State.gateRefused_keeps {s : State} (cl : Closed 147573952589676414976 P) (h0 : P s) : P (State.gateRefused s) := by
  unfold State.gateRefused
  try dsimp only
  repeat' first
    | with_reducible assumption | (with_reducible apply Closed.mono cl; decide) | (with_reducible apply State.count_keeps cl)
    | (with_reducible apply A.CLK_GATE_REFUSE_in; decide) | with_reducible apply State.cenFab_keeps | intro _ _ _ | intro _ _
    | with_reducible refine pair_keeps (by with_reducible assumption) ?_ | dsimp only | split

theorem execGateAckTimeout_keeps {why : BitVec 4} {s : State} (cl : Closed 905513771120685546995708 P) (h0 : P s) :
    OutIs P (execGateAckTimeout why s) := by
  unfold execGateAckTimeout
  try dsimp only
  repeat' first
    | with_reducible assumption | (with_reducible apply Closed.mono cl; decide) | with_reducible apply timeOn_keeps
    | with_reducible apply State.refuseEntry_keeps | with_reducible apply State.gateRefused_keeps
    | with_reducible apply withPwr_keeps | with_reducible refine outIs_next ?_ | intro _ _ _ | intro _ _
    | with_reducible refine pair_keeps (by with_reducible assumption) ?_ | dsimp only | split

theorem State.toWinter_keeps {s : State} (cl : Closed 75557865977746350447488 P) (h0 : P s) : P (State.toWinter s) := by
  unfold State.toWinter
  try dsimp only
  repeat' first
    | with_reducible assumption | (with_reducible apply Closed.mono cl; decide) | with_reducible apply State.endSession_keeps
    | with_reducible apply withPci_keeps | with_reducible apply withPins_keeps | with_reducible apply withPwr_keeps | intro _ _ _
    | intro _ _ | with_reducible refine pair_keeps (by with_reducible assumption) ?_ | dsimp only | split

theorem execPenEntryWait_keeps {s : State} (cl : Closed 75853013883063142226816 P) (h0 : P s) : OutIs P (execPenEntryWait s) := by
  unfold execPenEntryWait
  try dsimp only
  repeat' first
    | with_reducible assumption | (with_reducible apply Closed.mono cl; decide) | (with_reducible apply State.put_keeps cl)
    | (with_reducible apply A.PWR_MODE_in; decide) | with_reducible apply timeTo_keeps
    | with_reducible apply State.clearCensus_keeps | with_reducible apply withHerder_keeps | with_reducible apply withPci_keeps
    | with_reducible apply withPins_keeps | with_reducible apply withPwr_keeps | with_reducible apply State.toWinter_keeps
    | with_reducible refine outIs_next ?_ | intro _ _ _ | intro _ _
    | with_reducible refine pair_keeps (by with_reducible assumption) ?_ | dsimp only | split

theorem execWinterAfterExpiry_keeps {s : State} (cl : Closed 75557865977883789400960 P) (h0 : P s) :
    OutIs P (execWinterAfterExpiry s) := by
  unfold execWinterAfterExpiry
  try dsimp only
  repeat' first
    | with_reducible assumption | (with_reducible apply Closed.mono cl; decide) | with_reducible apply State.toWinter_keeps
    | with_reducible apply timeTo_keeps | with_reducible refine outIs_next ?_ | intro _ _ _ | intro _ _
    | with_reducible refine pair_keeps (by with_reducible assumption) ?_ | dsimp only | split

theorem execCoreOffTimeEnd_keeps {boot : Boot} {s : State} (cl : Closed 905508799146696929968124 P) (h0 : P s) :
    OutIs P (execCoreOffTimeEnd boot s) := by
  unfold execCoreOffTimeEnd
  try dsimp only
  repeat' first
    | with_reducible assumption | (with_reducible apply Closed.mono cl; decide) | (with_reducible apply State.put_keeps cl)
    | (with_reducible apply A.PWR_MODE_in; decide) | with_reducible apply withPwr_keeps | with_reducible apply timeTo_keeps
    | with_reducible apply State.wakeNow_keeps | with_reducible refine outIs_next ?_ | intro _ _ _ | intro _ _
    | with_reducible refine pair_keeps (by with_reducible assumption) ?_ | dsimp only | split

theorem execWakeN_keeps {us : BitVec 16} {boot : Boot} {s : State} (cl : Closed 905508799146696929968124 P) (h0 : P s) :
    OutIs P (execWakeN us boot s) := by
  unfold execWakeN
  try dsimp only
  repeat' first
    | with_reducible assumption | (with_reducible apply Closed.mono cl; decide) | with_reducible apply State.wake_keeps
    | with_reducible refine outIs_next ?_ | intro _ _ _ | intro _ _
    | with_reducible refine pair_keeps (by with_reducible assumption) ?_ | dsimp only | split

theorem execLinkEnergy_keeps {port : BitVec 4} {us : BitVec 16} {boot : Boot} {s : State} (cl : Closed 905508799146696929968124 P) (h0 : P s) :
    OutIs P (execLinkEnergy port us boot s) := by
  unfold execLinkEnergy
  try dsimp only
  repeat' first
    | with_reducible assumption | (with_reducible apply Closed.mono cl; decide) | with_reducible apply State.wake_keeps
    | with_reducible refine outIs_next ?_ | intro _ _ _ | intro _ _
    | with_reducible refine pair_keeps (by with_reducible assumption) ?_ | dsimp only | split

theorem execPcieWake_keeps {boot : Boot} {s : State} (cl : Closed 905508799146696929968124 P) (h0 : P s) :
    OutIs P (execPcieWake boot s) := by
  unfold execPcieWake
  try dsimp only
  repeat' first
    | with_reducible assumption | (with_reducible apply Closed.mono cl; decide) | with_reducible apply State.wake_keeps
    | with_reducible refine outIs_next ?_ | intro _ _ _ | intro _ _
    | with_reducible refine pair_keeps (by with_reducible assumption) ?_ | dsimp only | split

theorem execOdometerWake_keeps {boot : Boot} {s : State} (cl : Closed 905508799146696929968124 P) (h0 : P s) :
    OutIs P (execOdometerWake boot s) := by
  unfold execOdometerWake
  try dsimp only
  repeat' first
    | with_reducible assumption | (with_reducible apply Closed.mono cl; decide) | with_reducible apply State.wake_keeps
    | with_reducible refine outIs_next ?_ | intro _ _ _ | intro _ _
    | with_reducible refine pair_keeps (by with_reducible assumption) ?_ | dsimp only | split

theorem execPwrTimerExpiry_keeps {boot : Boot} {s : State} (cl : Closed 905508799146696929968124 P) (h0 : P s) :
    OutIs P (execPwrTimerExpiry boot s) := by
  unfold execPwrTimerExpiry
  try dsimp only
  repeat' first
    | with_reducible assumption | (with_reducible apply Closed.mono cl; decide) | (with_reducible apply State.put_keeps cl)
    | (with_reducible apply A.PWR_TIMER_in; decide) | with_reducible apply State.wake_keeps | with_reducible apply timeTo_keeps
    | with_reducible refine outIs_next ?_ | intro _ _ _ | intro _ _
    | with_reducible refine pair_keeps (by with_reducible assumption) ?_ | dsimp only | split

theorem State.makeSuspect_keeps {s : State} {pc : Nat} {b : Nat} (cl : Closed 37818133445932398700800 P) (h0 : P s) :
    P (State.makeSuspect s pc b) := by
  unfold State.makeSuspect
  try dsimp only
  repeat' first
    | with_reducible assumption | (with_reducible apply Closed.mono cl; decide) | (with_reducible apply State.put_keeps cl)
    | (with_reducible apply A.MEM_INTEG_STATE_in; decide) | with_reducible apply State.resetFill_keeps
    | with_reducible apply State.markPc_keeps | with_reducible apply State.raise_keeps
    | with_reducible apply State.showFree_keeps | intro _ _ _ | intro _ _
    | with_reducible refine pair_keeps (by with_reducible assumption) ?_ | dsimp only | split

theorem State.checkCanaries_keeps {s : State} {ups : List (Nat × Nat × Nat × Nat)} (cl : Closed 37818133445936693668096 P) (h0 : P s) :
    P (State.checkCanaries s ups) := by
  unfold State.checkCanaries
  try dsimp only
  repeat' first
    | with_reducible assumption | (with_reducible apply Closed.mono cl; decide) | with_reducible apply each_keeps
    | with_reducible apply State.makeSuspect_keeps | with_reducible apply withPwr_keeps | intro _ _ _ | intro _ _
    | with_reducible refine pair_keeps (by with_reducible assumption) ?_ | dsimp only | split

theorem State.nextSteps_keeps {s : State} (cl : Closed 65302259021482240 P) (h0 : P s) : P (State.nextSteps s) := by
  unfold State.nextSteps
  try dsimp only
  repeat' first
    | with_reducible assumption | (with_reducible apply Closed.mono cl; decide) | with_reducible apply each_keeps
    | with_reducible apply State.beginStep_keeps | with_reducible apply State.restartPorts_keeps
    | with_reducible apply State.holdBypass_keeps | intro _ _ _ | intro _ _
    | with_reducible refine pair_keeps (by with_reducible assumption) ?_ | dsimp only | split

theorem State.stepDone_keeps {s : State} {k : Nat} {ups : List (Nat × Nat × Nat × Nat)} (cl : Closed 135757846988413600528768 P) (h0 : P s) :
    P (State.stepDone s k ups) := by
  unfold State.stepDone
  try dsimp only
  repeat' first
    | with_reducible assumption | (with_reducible apply Closed.mono cl; decide) | (with_reducible apply State.put_keeps cl)
    | (with_reducible apply A.CLK_STATUS_in; decide) | (with_reducible apply A.PWR_MODE_in; decide) | intro t e he ht
    | (simp only [List.mem_cons, List.not_mem_nil, or_false] at he) | (rcases he with he | he) | subst he
    | with_reducible apply withClk_keeps | with_reducible apply withPwr_keeps | with_reducible apply State.clearCensus_keeps
    | with_reducible apply each_mem | with_reducible apply State.setLevel_keeps | with_reducible apply State.runLevel_keeps
    | with_reducible apply withHerder_keeps | with_reducible apply State.endSession_keeps
    | with_reducible apply State.checkCanaries_keeps | with_reducible apply State.serveQueues_keeps
    | with_reducible apply State.leaveSelfRefresh_keeps | with_reducible apply State.resumeRings_keeps
    | with_reducible apply State.faultLanes_keeps | with_reducible apply State.blindLane_keeps | intro _ _ _ | intro _ _
    | with_reducible refine pair_keeps (by with_reducible assumption) ?_ | dsimp only | split

theorem execPenReturnStep_keeps {step : BitVec 3} {ups : List (BitVec 5 × BitVec 4 × BitVec 10 × BitVec 13)} {s : State} (cl : Closed 135757874010148803705216 P) (h0 : P s) :
    OutIs P (execPenReturnStep step ups s) := by
  unfold execPenReturnStep
  try dsimp only
  repeat' first
    | with_reducible assumption | (with_reducible apply Closed.mono cl; decide) | with_reducible apply timeTo_keeps
    | with_reducible apply withPwr_keeps | with_reducible apply State.stepDone_keeps | with_reducible apply State.nextSteps_keeps
    | with_reducible refine outIs_next ?_ | intro _ _ _ | intro _ _
    | with_reducible refine pair_keeps (by with_reducible assumption) ?_ | dsimp only | split

end Sys2Proof.Machine
end

