-- ==== Sys2Proof/Laws/Keeps/Traverse.lean ====
section
/-!
SUPPORT. The updates that each operation of Machine/Traverse.lean makes: one law for each.
-/
namespace Sys2Proof.Machine

variable {P : State → Prop}

theorem State.trvLower_keeps {s : State} {n : Nat} (cl : Closed 262144 P) (h0 : P s) : P (State.trvLower s n) := by
  unfold State.trvLower
  try dsimp only
  repeat' first
    | with_reducible assumption | (with_reducible apply Closed.mono cl; decide) | with_reducible apply State.modTv_keeps
    | intro _ _ _ | intro _ _ | with_reducible refine pair_keeps (by with_reducible assumption) ?_ | dsimp only | split

theorem State.trvRequest_keeps {s : State} {n : Nat} {payload : Bool} (cl : Closed 262144 P) (h0 : P s) :
    P (State.trvRequest s n payload) := by
  unfold State.trvRequest
  try dsimp only
  repeat' first
    | with_reducible assumption | (with_reducible apply Closed.mono cl; decide) | with_reducible apply State.modTv_keeps
    | intro _ _ _ | intro _ _ | with_reducible refine pair_keeps (by with_reducible assumption) ?_ | dsimp only | split

theorem State.trvMargin_keeps {s : State} {n : Nat} (cl : Closed 160672147436582781552896 P) (h0 : P s) :
    P (State.trvMargin s n) := by
  unfold State.trvMargin
  try dsimp only
  repeat' first
    | with_reducible assumption | (with_reducible apply Closed.mono cl; decide) | with_reducible apply State.trvEnd_keeps
    | intro _ _ _ | intro _ _ | with_reducible refine pair_keeps (by with_reducible assumption) ?_ | dsimp only | split

theorem State.sendLinkReq_keeps {s : State} {n : Nat} (cl : Closed 72057645577799680 P) (h0 : P s) :
    P (State.sendLinkReq s n) := by
  unfold State.sendLinkReq
  try dsimp only
  repeat' first
    | with_reducible assumption | (with_reducible apply Closed.mono cl; decide) | with_reducible apply State.drawn_keeps
    | with_reducible apply State.modTv_keeps | with_reducible apply State.sendTrv_keeps | intro _ _ _ | intro _ _
    | with_reducible refine pair_keeps (by with_reducible assumption) ?_ | dsimp only | split

theorem State.startSearch_keeps {s : State} {n : Nat} (cl : Closed 81064844832573440 P) (h0 : P s) :
    P (State.startSearch s n) := by
  unfold State.startSearch
  try dsimp only
  repeat' first
    | with_reducible assumption | (with_reducible apply Closed.mono cl; decide) | (with_reducible apply State.put_keeps cl)
    | (with_reducible apply A.PORT_AN_STATUS_in; decide) | (with_reducible apply A.PORT_TRV_STATE_in; decide)
    | with_reducible apply State.trvClear_keeps | with_reducible apply State.modLn_keeps | with_reducible apply State.modTv_keeps
    | with_reducible apply State.sendLinkReq_keeps | intro _ _ _ | intro _ _
    | with_reducible refine pair_keeps (by with_reducible assumption) ?_ | dsimp only | split

theorem State.awaitSearch_keeps {s : State} {n : Nat} (cl : Closed 9007199254773760 P) (h0 : P s) :
    P (State.awaitSearch s n) := by
  unfold State.awaitSearch
  try dsimp only
  repeat' first
    | with_reducible assumption | (with_reducible apply Closed.mono cl; decide) | (with_reducible apply State.put_keeps cl)
    | (with_reducible apply A.PORT_AN_STATUS_in; decide) | with_reducible apply State.modLn_keeps | intro _ _ _ | intro _ _
    | with_reducible refine pair_keeps (by with_reducible assumption) ?_ | dsimp only | split

theorem State.noteStart_keeps {s : State} (cl : Closed 524288 P) (h0 : P s) : P (State.noteStart s) := by
  unfold State.noteStart
  try dsimp only
  repeat' first
    | with_reducible assumption | (with_reducible apply Closed.mono cl; decide) | with_reducible apply withDrv_keeps
    | intro _ _ _ | intro _ _ | with_reducible refine pair_keeps (by with_reducible assumption) ?_ | dsimp only | split

theorem State.trvHeard_keeps {s : State} {n : Nat} {h : TrvHdr} {acq : Bool} (cl : Closed 72057594038190080 P) (h0 : P s) :
    P (State.trvHeard s n h acq) := by
  unfold State.trvHeard
  try dsimp only
  repeat' first
    | with_reducible assumption | (with_reducible apply Closed.mono cl; decide) | (with_reducible apply State.put_keeps cl)
    | (with_reducible apply A.PORT_TRV_SPAN_in; decide) | (with_reducible apply A.PORT_TRV_STATE_in; decide)
    | with_reducible apply State.modTv_keeps | intro _ _ _ | intro _ _
    | with_reducible refine pair_keeps (by with_reducible assumption) ?_ | dsimp only | split

theorem State.trvPass_keeps {s : State} {n : Nat} {h : TrvHdr} (cl : Closed 72057594038190080 P) (h0 : P s) :
    P (State.trvPass s n h) := by
  unfold State.trvPass
  try dsimp only
  repeat' first
    | with_reducible assumption | (with_reducible apply Closed.mono cl; decide) | (with_reducible apply State.put_keeps cl)
    | (with_reducible apply A.PORT_TRV_STATE_in; decide) | with_reducible apply State.modTv_keeps | intro _ _ _ | intro _ _
    | with_reducible refine pair_keeps (by with_reducible assumption) ?_ | dsimp only | split

theorem State.trvEstablish_keeps {s : State} {n : Nat} {master : Bool} (cl : Closed 81064793292963840 P) (h0 : P s) :
    P (State.trvEstablish s n master) := by
  unfold State.trvEstablish
  try dsimp only
  repeat' first
    | with_reducible assumption | (with_reducible apply Closed.mono cl; decide) | (with_reducible apply State.put_keeps cl)
    | (with_reducible apply A.PORT_TRV_STATE_in; decide) | (with_reducible apply A.PORT_PARTNER_INFO_in; decide)
    | intro t e he ht | (simp only [List.mem_cons, List.not_mem_nil, or_false] at he) | (rcases he with he | he) | subst he
    | with_reducible apply State.modTv_keeps | with_reducible apply State.modLn_keeps | with_reducible apply each_mem
    | intro _ _ _ | intro _ _ | with_reducible refine pair_keeps (by with_reducible assumption) ?_ | dsimp only | split

theorem State.trvRelease_keeps {s : State} {n : Nat} (cl : Closed 262144 P) (h0 : P s) : P (State.trvRelease s n) := by
  unfold State.trvRelease
  try dsimp only
  repeat' first
    | with_reducible assumption | (with_reducible apply Closed.mono cl; decide) | with_reducible apply State.modTv_keeps
    | intro _ _ _ | intro _ _ | with_reducible refine pair_keeps (by with_reducible assumption) ?_ | dsimp only | split

theorem State.trvDiscard_keeps {s : State} {n : Nat} (cl : Closed 72057594038190080 P) (h0 : P s) : P (State.trvDiscard s n) := by
  unfold State.trvDiscard
  try dsimp only
  repeat' first
    | with_reducible assumption | (with_reducible apply Closed.mono cl; decide) | (with_reducible apply State.count_keeps cl)
    | (with_reducible apply A.PORT_TRV_HDR_ERR_in; decide) | with_reducible apply State.trvRelease_keeps | intro _ _ _
    | intro _ _ | with_reducible refine pair_keeps (by with_reducible assumption) ?_ | dsimp only | split

theorem State.answerLinkReq_keeps {s : State} {n : Nat} {h : TrvHdr} (cl : Closed 72057611218061312 P) (h0 : P s) :
    P (State.answerLinkReq s n h) := by
  unfold State.answerLinkReq
  try dsimp only
  repeat' first
    | with_reducible assumption | (with_reducible apply Closed.mono cl; decide) | (with_reducible apply State.put_keeps cl)
    | (with_reducible apply A.PORT_TRV_STATE_in; decide) | with_reducible apply State.modTv_keeps
    | with_reducible apply State.sendTrv_keeps | with_reducible apply State.burstOk_keeps | intro _ _ _ | intro _ _
    | with_reducible refine pair_keeps (by with_reducible assumption) ?_ | dsimp only | split

theorem execLinkreq_keeps {port : BitVec 4} {hdr : TrvHdr} {s : State} (cl : Closed 81064810473359360 P) (h0 : P s) :
    OutIs P (execLinkreq port hdr s) := by
  unfold execLinkreq
  try dsimp only
  repeat' first
    | with_reducible assumption | (with_reducible apply Closed.mono cl; decide) | (with_reducible apply State.put_keeps cl)
    | (with_reducible apply A.PORT_AN_STATUS_in; decide) | (with_reducible apply A.PORT_TRV_STATE_in; decide)
    | with_reducible apply State.trvDiscard_keeps | with_reducible apply State.trvRelease_keeps
    | with_reducible apply State.answerLinkReq_keeps | with_reducible apply State.noteStart_keeps
    | with_reducible apply State.modTv_keeps | with_reducible apply State.modLn_keeps
    | with_reducible apply State.awaitSearch_keeps | with_reducible refine outIs_next ?_ | intro _ _ _ | intro _ _
    | with_reducible refine pair_keeps (by with_reducible assumption) ?_ | dsimp only | split

theorem execLinkacc_keeps {port : BitVec 4} {hdr : TrvHdr} {s : State} (cl : Closed 160672147436582781552896 P) (h0 : P s) :
    OutIs P (execLinkacc port hdr s) := by
  unfold execLinkacc
  try dsimp only
  repeat' first
    | with_reducible assumption | (with_reducible apply Closed.mono cl; decide) | with_reducible apply State.trvDiscard_keeps
    | with_reducible apply State.burstOk_keeps | with_reducible apply State.trvHeard_keeps
    | with_reducible apply State.trvEstablish_keeps | with_reducible apply State.modTv_keeps
    | with_reducible apply State.trvMargin_keeps | with_reducible apply State.sendTrv_keeps | with_reducible refine outIs_next ?_
    | intro _ _ _ | intro _ _ | with_reducible refine pair_keeps (by with_reducible assumption) ?_ | dsimp only | split

theorem State.trvIdent_keeps {s : State} {n : Nat} (cl : Closed 34360000512 P) (h0 : P s) : P (State.trvIdent s n) := by
  unfold State.trvIdent
  try dsimp only
  repeat' first
    | with_reducible assumption | (with_reducible apply Closed.mono cl; decide) | with_reducible apply State.drawn_keeps
    | with_reducible apply State.modTv_keeps | intro _ _ _ | intro _ _
    | with_reducible refine pair_keeps (by with_reducible assumption) ?_ | dsimp only | split

theorem State.trvQueue_keeps {s : State} {n : Nat} {typ : Nat} {payload : Bytes} {frames : List Nat} (cl : Closed 262144 P) (h0 : P s) :
    P (State.trvQueue s n typ payload frames) := by
  unfold State.trvQueue
  try dsimp only
  repeat' first
    | with_reducible assumption | (with_reducible apply Closed.mono cl; decide) | with_reducible apply State.modTv_keeps
    | intro _ _ _ | intro _ _ | with_reducible refine pair_keeps (by with_reducible assumption) ?_ | dsimp only | split

theorem execLinkcfm_keeps {port : BitVec 4} {hdr : TrvHdr} {s : State} (cl : Closed 160672147436582781552896 P) (h0 : P s) :
    OutIs P (execLinkcfm port hdr s) := by
  unfold execLinkcfm
  try dsimp only
  repeat' first
    | with_reducible assumption | (with_reducible apply Closed.mono cl; decide) | with_reducible apply State.trvDiscard_keeps
    | with_reducible apply State.burstOk_keeps | with_reducible apply State.trvHeard_keeps
    | with_reducible apply State.trvIdent_keeps | with_reducible apply State.trvEstablish_keeps
    | with_reducible apply State.modTv_keeps | with_reducible apply State.trvQueue_keeps
    | with_reducible apply State.trvMargin_keeps | with_reducible apply State.trvRequest_keeps
    | with_reducible refine outIs_next ?_ | intro _ _ _ | intro _ _
    | with_reducible refine pair_keeps (by with_reducible assumption) ?_ | dsimp only | split

theorem State.trvUpCheck_keeps {s : State} {n : Nat} (cl : Closed 151190210234283093887232 P) (h0 : P s) :
    P (State.trvUpCheck s n) := by
  unfold State.trvUpCheck
  try dsimp only
  repeat' first
    | with_reducible assumption | (with_reducible apply Closed.mono cl; decide) | (with_reducible apply State.put_keeps cl)
    | (with_reducible apply A.PORT_TRV_STATE_in; decide) | with_reducible apply State.linkUp_keeps | intro _ _ _ | intro _ _
    | with_reducible refine pair_keeps (by with_reducible assumption) ?_ | dsimp only | split

theorem State.trvJudge_keeps {s : State} {n : Nat} {sig : Bytes} (cl : Closed 160672147436582781552896 P) (h0 : P s) :
    P (State.trvJudge s n sig) := by
  unfold State.trvJudge
  try dsimp only
  repeat' first
    | with_reducible assumption | (with_reducible apply Closed.mono cl; decide) | with_reducible apply State.showAuth_keeps
    | with_reducible apply State.modTv_keeps | with_reducible apply State.trvEnd_keeps | with_reducible refine id_keeps ?_
    | intro _ _ _ | intro _ _ | with_reducible refine pair_keeps (by with_reducible assumption) ?_ | dsimp only | split

theorem State.trvTakeIdent_keeps {s : State} {n : Nat} {p : Bytes} (cl : Closed 160672147436582781552896 P) (h0 : P s) :
    P (State.trvTakeIdent s n p) := by
  unfold State.trvTakeIdent
  try dsimp only
  repeat' first
    | with_reducible assumption | (with_reducible apply Closed.mono cl; decide) | with_reducible apply State.showPartner_keeps
    | with_reducible apply State.modLn_keeps | with_reducible apply State.trvIdent_keeps
    | with_reducible apply State.idSign_keeps | with_reducible apply State.trvQueue_keeps
    | with_reducible apply State.trvJudge_keeps | intro _ _ _ | intro _ _
    | with_reducible refine pair_keeps (by with_reducible assumption) ?_ | dsimp only | split

theorem State.trvDeliver_keeps {s : State} {n : Nat} {p : Bytes} (cl : Closed 40277517677276403988736 P) (h0 : P s) :
    P (State.trvDeliver s n p) := by
  unfold State.trvDeliver
  try dsimp only
  repeat' first
    | with_reducible assumption | (with_reducible apply Closed.mono cl; decide) | (with_reducible apply State.count_keeps cl)
    | (with_reducible apply A.PORT_ILM_HDR_ERR_in; decide) | with_reducible apply State.modTv_keeps
    | with_reducible apply each_keeps | with_reducible apply State.fromLine_keeps | intro _ _ _ | intro _ _
    | with_reducible refine pair_keeps (by with_reducible assumption) ?_ | dsimp only | split

theorem State.trvInOrder_keeps {s : State} {n : Nat} {x0 : Nat} (cl : Closed 40277517677276403988736 P) (h0 : P s) :
    P (State.trvInOrder s n x0) := by
  induction x0 generalizing s with
  | zero => exact h0
  | succ _ ih =>
    unfold State.trvInOrder
    try dsimp only
    repeat' first
      | with_reducible assumption | (with_reducible apply Closed.mono cl; decide) | with_reducible refine ih ?_
      | with_reducible apply State.modTv_keeps | with_reducible apply State.trvDeliver_keeps | intro _ _ _ | intro _ _
      | with_reducible refine pair_keeps (by with_reducible assumption) ?_ | dsimp only | split

theorem State.trvGaps_keeps {s : State} {n : Nat} {base : Nat} {x0 : Nat} (cl : Closed 40277589734870441916672 P) (h0 : P s) :
    P (State.trvGaps s n base x0) := by
  induction x0 generalizing s base with
  | zero => exact h0
  | succ _ ih =>
    unfold State.trvGaps
    try dsimp only
    repeat' first
      | with_reducible assumption | (with_reducible apply Closed.mono cl; decide) | with_reducible refine ih ?_
      | (with_reducible apply State.count_keeps cl) | (with_reducible apply A.PORT_TRV_DROP_RX_in; decide)
      | with_reducible apply State.drawn_keeps | with_reducible apply State.modTv_keeps
      | with_reducible apply State.trvInOrder_keeps | intro _ _ _ | intro _ _
      | with_reducible refine pair_keeps (by with_reducible assumption) ?_ | dsimp only | split

theorem State.trvWhole_keeps {s : State} {n : Nat} {h : TrvHdr} {good : Option Bool} {use : State → State} (cl : Closed 200838923850770418759936 P) (huse : ∀ t, P t → P (use t)) (h0 : P s) :
    P (State.trvWhole s n h good use) := by
  unfold State.trvWhole
  try dsimp only
  repeat' first
    | with_reducible assumption | (with_reducible apply Closed.mono cl; decide) | with_reducible refine huse _ ?_
    | (with_reducible apply State.count_keeps cl) | (with_reducible apply State.put_keeps cl)
    | (with_reducible apply A.PORT_TRV_PAY_ERR_in; decide) | (with_reducible apply A.PORT_TRV_STATE_in; decide)
    | with_reducible apply State.trvRelease_keeps | with_reducible apply State.trvDiscard_keeps
    | with_reducible apply State.trvGaps_keeps | with_reducible apply State.trvHeard_keeps
    | with_reducible apply State.trvLower_keeps | with_reducible apply State.trvRequest_keeps
    | with_reducible apply State.burstOk_keeps | with_reducible apply State.trvMargin_keeps
    | with_reducible apply State.trvUpCheck_keeps | with_reducible apply State.trvPass_keeps | intro _ _ _ | intro _ _
    | with_reducible refine pair_keeps (by with_reducible assumption) ?_ | dsimp only | split

theorem State.trvNew_keeps {s : State} {n : Nat} {h : TrvHdr} {data : Bytes} {use : State → State} (cl : Closed 40277517677276403988736 P) (huse : ∀ t, P t → P (use t)) (h0 : P s) :
    P (State.trvNew s n h data use) := by
  unfold State.trvNew
  try dsimp only
  repeat' first
    | with_reducible assumption | (with_reducible apply Closed.mono cl; decide) | with_reducible refine huse _ ?_
    | with_reducible apply State.trvInOrder_keeps | with_reducible apply State.modTv_keeps | intro _ _ _ | intro _ _
    | with_reducible refine pair_keeps (by with_reducible assumption) ?_ | dsimp only | split

theorem State.trvTruncated_keeps {s : State} {n : Nat} (cl : Closed 72057594038190080 P) (h0 : P s) :
    P (State.trvTruncated s n) := by
  unfold State.trvTruncated
  try dsimp only
  repeat' first
    | with_reducible assumption | (with_reducible apply Closed.mono cl; decide) | (with_reducible apply State.count_keeps cl)
    | (with_reducible apply A.PORT_TRV_TRUNC_in; decide) | with_reducible apply State.trvLower_keeps
    | with_reducible apply State.trvRelease_keeps | intro _ _ _ | intro _ _
    | with_reducible refine pair_keeps (by with_reducible assumption) ?_ | dsimp only | split

theorem State.trvPayload_keeps {s : State} {n : Nat} {h : TrvHdr} {coded : Bytes} {missing : List (BitVec 14)} {use : Bytes → State → State} (cl : Closed 200838923850770418759936 P) (huse : ∀ a0 t, P t → P (use a0 t)) (h0 : P s) :
    P (State.trvPayload s n h coded missing use) := by
  unfold State.trvPayload
  try dsimp only
  repeat' first
    | with_reducible assumption | (with_reducible apply Closed.mono cl; decide) | with_reducible refine huse _ _ ?_
    | with_reducible apply State.trvTruncated_keeps | with_reducible apply State.trvWhole_keeps | intro _ _ _ | intro _ _
    | with_reducible refine pair_keeps (by with_reducible assumption) ?_ | dsimp only | split

theorem execDataBurst_keeps {port : BitVec 4} {hdr : TrvHdr} {coded : Bytes} {missing : List (BitVec 14)} {s : State} (cl : Closed 200838923850770418759936 P) (h0 : P s) :
    OutIs P (execDataBurst port hdr coded missing s) := by
  unfold execDataBurst
  try dsimp only
  repeat' first
    | with_reducible assumption | (with_reducible apply Closed.mono cl; decide) | with_reducible apply State.trvPayload_keeps
    | with_reducible apply State.trvNew_keeps | with_reducible refine id_keeps ?_ | with_reducible refine outIs_next ?_
    | intro _ _ _ | intro _ _ | with_reducible refine pair_keeps (by with_reducible assumption) ?_ | dsimp only | split

theorem execTokenBurst_keeps {port : BitVec 4} {hdr : TrvHdr} {s : State} (cl : Closed 200838923850770418759936 P) (h0 : P s) :
    OutIs P (execTokenBurst port hdr s) := by
  unfold execTokenBurst
  try dsimp only
  repeat' first
    | with_reducible assumption | (with_reducible apply Closed.mono cl; decide) | with_reducible apply State.trvWhole_keeps
    | with_reducible refine id_keeps ?_ | with_reducible refine outIs_next ?_ | intro _ _ _ | intro _ _
    | with_reducible refine pair_keeps (by with_reducible assumption) ?_ | dsimp only | split

theorem execIdentBurst_keeps {port : BitVec 4} {hdr : TrvHdr} {coded : Bytes} {missing : List (BitVec 14)} {s : State} (cl : Closed 200838923850770418759936 P) (h0 : P s) :
    OutIs P (execIdentBurst port hdr coded missing s) := by
  unfold execIdentBurst
  try dsimp only
  repeat' first
    | with_reducible assumption | (with_reducible apply Closed.mono cl; decide) | with_reducible apply State.trvPayload_keeps
    | with_reducible apply State.trvNew_keeps | with_reducible apply State.trvTakeIdent_keeps
    | with_reducible refine outIs_next ?_ | intro _ _ _ | intro _ _
    | with_reducible refine pair_keeps (by with_reducible assumption) ?_ | dsimp only | split

theorem execProofBurst_keeps {port : BitVec 4} {hdr : TrvHdr} {coded : Bytes} {missing : List (BitVec 14)} {s : State} (cl : Closed 200838923850770418759936 P) (h0 : P s) :
    OutIs P (execProofBurst port hdr coded missing s) := by
  unfold execProofBurst
  try dsimp only
  repeat' first
    | with_reducible assumption | (with_reducible apply Closed.mono cl; decide) | with_reducible apply State.trvPayload_keeps
    | with_reducible apply State.trvNew_keeps | with_reducible apply State.trvJudge_keeps | with_reducible refine outIs_next ?_
    | intro _ _ _ | intro _ _ | with_reducible refine pair_keeps (by with_reducible assumption) ?_ | dsimp only | split

theorem execLeave_keeps {port : BitVec 4} {hdr : TrvHdr} {s : State} (cl : Closed 160672147436582781552896 P) (h0 : P s) :
    OutIs P (execLeave port hdr s) := by
  unfold execLeave
  try dsimp only
  repeat' first
    | with_reducible assumption | (with_reducible apply Closed.mono cl; decide) | with_reducible apply State.trvRelease_keeps
    | with_reducible apply State.trvDiscard_keeps | with_reducible apply State.trvDown_keeps
    | with_reducible apply State.burstOk_keeps | with_reducible apply State.trvHeard_keeps | with_reducible refine outIs_next ?_
    | intro _ _ _ | intro _ _ | with_reducible refine pair_keeps (by with_reducible assumption) ?_ | dsimp only | split

theorem State.trvDetect_keeps {s : State} {n : Nat} {len : Nat} {snr : Nat} {gain : Nat} {delay : Nat} {first : Bool} (cl : Closed 72057594038190080 P) (h0 : P s) :
    P (State.trvDetect s n len snr gain delay first) := by
  unfold State.trvDetect
  try dsimp only
  repeat' first
    | with_reducible assumption | (with_reducible apply Closed.mono cl; decide) | (with_reducible apply State.put_keeps cl)
    | (with_reducible apply A.PORT_TRV_STATE_in; decide) | with_reducible apply State.modTv_keeps | intro _ _ _ | intro _ _
    | with_reducible refine pair_keeps (by with_reducible assumption) ?_ | dsimp only | split

theorem execPreambleDetected_keeps {port : BitVec 4} {len : BitVec 2} {snr : BitVec 8} {gain : BitVec 8} {delay : BitVec 32} {s : State} (cl : Closed 72057594038190080 P) (h0 : P s) :
    OutIs P (execPreambleDetected port len snr gain delay s) := by
  unfold execPreambleDetected
  try dsimp only
  repeat' first
    | with_reducible assumption | (with_reducible apply Closed.mono cl; decide) | with_reducible apply State.trvDetect_keeps
    | with_reducible refine outIs_next ?_ | intro _ _ _ | intro _ _
    | with_reducible refine pair_keeps (by with_reducible assumption) ?_ | dsimp only | split

theorem execFalseDetection_keeps {port : BitVec 4} {sync : Option (BitVec 48)} {s : State} (cl : Closed 72057594038190080 P) (h0 : P s) :
    OutIs P (execFalseDetection port sync s) := by
  unfold execFalseDetection
  try dsimp only
  repeat' first
    | with_reducible assumption | (with_reducible apply Closed.mono cl; decide) | (with_reducible apply State.count_keeps cl)
    | (with_reducible apply A.PORT_TRV_FALSE_SYNC_in; decide) | with_reducible apply State.modTv_keeps
    | with_reducible refine outIs_next ?_ | intro _ _ _ | intro _ _
    | with_reducible refine pair_keeps (by with_reducible assumption) ?_ | dsimp only | split

theorem execShadowRestart_keeps {port : BitVec 4} {periods : BitVec 8} {len : BitVec 2} {snr : BitVec 8} {gain : BitVec 8} {delay : BitVec 32} {s : State} (cl : Closed 72057594038190080 P) (h0 : P s) :
    OutIs P (execShadowRestart port periods len snr gain delay s) := by
  unfold execShadowRestart
  try dsimp only
  repeat' first
    | with_reducible assumption | (with_reducible apply Closed.mono cl; decide) | (with_reducible apply State.count_keeps cl)
    | (with_reducible apply A.PORT_TRV_SHADOW_LATE_in; decide) | (with_reducible apply A.PORT_TRV_SHADOW_in; decide)
    | with_reducible apply State.trvDetect_keeps | with_reducible refine outIs_next ?_ | intro _ _ _ | intro _ _
    | with_reducible refine pair_keeps (by with_reducible assumption) ?_ | dsimp only | split

theorem execBurstTruncated_keeps {port : BitVec 4} {s : State} (cl : Closed 72057594038190080 P) (h0 : P s) :
    OutIs P (execBurstTruncated port s) := by
  unfold execBurstTruncated
  try dsimp only
  repeat' first
    | with_reducible assumption | (with_reducible apply Closed.mono cl; decide) | with_reducible apply State.trvTruncated_keeps
    | with_reducible refine outIs_next ?_ | intro _ _ _ | intro _ _
    | with_reducible refine pair_keeps (by with_reducible assumption) ?_ | dsimp only | split

theorem execTrvHeaderDiscard_keeps {port : BitVec 4} {hdr : BitVec 128} {s : State} (cl : Closed 72057594038190080 P) (h0 : P s) :
    OutIs P (execTrvHeaderDiscard port hdr s) := by
  unfold execTrvHeaderDiscard
  try dsimp only
  repeat' first
    | with_reducible assumption | (with_reducible apply Closed.mono cl; decide) | with_reducible apply State.trvRelease_keeps
    | with_reducible apply State.trvDiscard_keeps | with_reducible refine outIs_next ?_ | intro _ _ _ | intro _ _
    | with_reducible refine pair_keeps (by with_reducible assumption) ?_ | dsimp only | split

theorem State.turnHeld_keeps {s : State} {n : Nat} {code : Nat} {x0 : List Burst} {x1 : Turn} (cl : Closed 72057594038190080 P) (h0 : P s) :
    P (State.turnHeld s n code x0 x1).1 := by
  induction x0 generalizing s x1 with
  | nil => exact h0
  | cons _ _ ih =>
    unfold State.turnHeld
    try dsimp only
    repeat' first
      | with_reducible assumption | (with_reducible apply Closed.mono cl; decide) | with_reducible refine ih ?_
      | (with_reducible apply State.count_keeps cl) | (with_reducible apply A.PORT_TRV_RESEND_in; decide)
      | with_reducible apply State.modTv_keeps | intro _ _ _ | intro _ _
      | with_reducible refine pair_keeps (by with_reducible assumption) ?_ | dsimp only | split

theorem State.turnData_keeps {s : State} {n : Nat} {code : Nat} {x0 : Nat} {x1 : Turn} (cl : Closed 327680 P) (h0 : P s) :
    P (State.turnData s n code x0 x1).1 := by
  induction x0 generalizing s x1 with
  | zero => exact h0
  | succ _ ih =>
    unfold State.turnData
    try dsimp only
    repeat' first
      | with_reducible assumption | (with_reducible apply Closed.mono cl; decide) | with_reducible refine ih ?_
      | with_reducible apply State.modPd_keeps | with_reducible apply State.modTv_keeps
      | with_reducible apply State.trvQueue_keeps | intro _ _ _ | intro _ _
      | with_reducible refine pair_keeps (by with_reducible assumption) ?_ | dsimp only | split

theorem State.trvAbandon_keeps {s : State} {n : Nat} (cl : Closed 110338208050776320 P) (h0 : P s) :
    P (State.trvAbandon s n).1 := by
  unfold State.trvAbandon
  try dsimp only
  repeat' first
    | with_reducible assumption | (with_reducible apply Closed.mono cl; decide) | (with_reducible apply State.count_keeps cl)
    | (with_reducible apply A.PORT_TRV_ABANDON_in; decide) | (with_reducible apply A.PORT_TRV_DROP_TX_in; decide)
    | with_reducible apply State.modTv_keeps | with_reducible apply State.modPd_keeps
    | with_reducible apply State.fillCheck_keeps | with_reducible refine id_keeps ?_ | intro _ _ _ | intro _ _
    | with_reducible refine pair_keeps (by with_reducible assumption) ?_ | dsimp only | split

theorem State.turnOut_keeps {s : State} {n : Nat} {code : Nat} {x0 : List (Nat × Nat × Bytes)} (cl : Closed 72057611217799168 P) (h0 : P s) :
    P (State.turnOut s n code x0) := by
  induction x0 generalizing s with
  | nil => exact h0
  | cons _ _ ih =>
    unfold State.turnOut
    try dsimp only
    repeat' first
      | with_reducible assumption | (with_reducible apply Closed.mono cl; decide) | with_reducible refine ih ?_
      | (with_reducible apply State.count_keeps cl) | (with_reducible apply A.PORT_TRV_BURST_TX_in; decide)
      | with_reducible apply State.cenPort_keeps | with_reducible apply State.emit_keeps | intro _ _ _ | intro _ _
      | with_reducible refine pair_keeps (by with_reducible assumption) ?_ | dsimp only | split

theorem State.sendBell_keeps {s : State} {n : Nat} (cl : Closed 72057611218059264 P) (h0 : P s) : P (State.sendBell s n) := by
  unfold State.sendBell
  try dsimp only
  repeat' first
    | with_reducible assumption | (with_reducible apply Closed.mono cl; decide) | (with_reducible apply State.put_keeps cl)
    | (with_reducible apply State.count_keeps cl) | (with_reducible apply A.PORT_BELL_STATE_in; decide)
    | (with_reducible apply A.PORT_BELL_SENT_in; decide) | with_reducible apply State.emit_keeps
    | with_reducible apply State.modTv_keeps | intro _ _ _ | intro _ _
    | with_reducible refine pair_keeps (by with_reducible assumption) ?_ | dsimp only | split

theorem State.takeTurn_keeps {s : State} {n : Nat} (cl : Closed 160672147436582781552896 P) (h0 : P s) :
    P (State.takeTurn s n) := by
  unfold State.takeTurn
  try dsimp only
  repeat' first
    | with_reducible assumption | (with_reducible apply Closed.mono cl; decide) | (with_reducible apply State.put_keeps cl)
    | (with_reducible apply A.PORT_TRV_STATE_in; decide) | with_reducible apply State.trvAbandon_keeps
    | with_reducible apply State.trvEnd_keeps | with_reducible apply State.sendBell_keeps
    | with_reducible apply State.turnHeld_keeps | with_reducible apply State.turnData_keeps
    | with_reducible apply State.turnOut_keeps | with_reducible apply State.fillCheck_keeps
    | with_reducible apply State.modTv_keeps | intro _ _ _ | intro _ _
    | with_reducible refine pair_keeps (by with_reducible assumption) ?_ | dsimp only | split

theorem execTurnStart_keeps {port : BitVec 4} {s : State} (cl : Closed 160672147436720220506368 P) (h0 : P s) :
    OutIs P (execTurnStart port s) := by
  unfold execTurnStart
  try dsimp only
  repeat' first
    | with_reducible assumption | (with_reducible apply Closed.mono cl; decide) | with_reducible apply State.takeTurn_keeps
    | with_reducible apply timeTo_keeps | with_reducible refine outIs_next ?_ | intro _ _ _ | intro _ _
    | with_reducible refine pair_keeps (by with_reducible assumption) ?_ | dsimp only | split

theorem execTokenReclaim_keeps {port : BitVec 4} {s : State} (cl : Closed 160672147436720220506368 P) (h0 : P s) :
    OutIs P (execTokenReclaim port s) := by
  unfold execTokenReclaim
  try dsimp only
  repeat' first
    | with_reducible assumption | (with_reducible apply Closed.mono cl; decide) | (with_reducible apply State.count_keeps cl)
    | (with_reducible apply A.PORT_TRV_TOKEN_RECLAIM_in; decide) | with_reducible apply timeTo_keeps
    | with_reducible apply State.takeTurn_keeps | with_reducible refine outIs_next ?_ | intro _ _ _ | intro _ _
    | with_reducible refine pair_keeps (by with_reducible assumption) ?_ | dsimp only | split

theorem execLinkreqRetry_keeps {port : BitVec 4} {s : State} (cl : Closed 72057783016753152 P) (h0 : P s) :
    OutIs P (execLinkreqRetry port s) := by
  unfold execLinkreqRetry
  try dsimp only
  repeat' first
    | with_reducible assumption | (with_reducible apply Closed.mono cl; decide) | with_reducible apply State.sendLinkReq_keeps
    | with_reducible apply timeTo_keeps | with_reducible refine outIs_next ?_ | intro _ _ _ | intro _ _
    | with_reducible refine pair_keeps (by with_reducible assumption) ?_ | dsimp only | split

theorem execAcquisitionTimeout_keeps {port : BitVec 4} {s : State} (cl : Closed 72057731477143552 P) (h0 : P s) :
    OutIs P (execAcquisitionTimeout port s) := by
  unfold execAcquisitionTimeout
  try dsimp only
  repeat' first
    | with_reducible assumption | (with_reducible apply Closed.mono cl; decide) | (with_reducible apply State.put_keeps cl)
    | (with_reducible apply A.PORT_TRV_STATE_in; decide) | with_reducible apply timeTo_keeps
    | with_reducible apply State.modTv_keeps | with_reducible refine outIs_next ?_ | intro _ _ _ | intro _ _
    | with_reducible refine pair_keeps (by with_reducible assumption) ?_ | dsimp only | split

theorem execTrvLossTimeout_keeps {port : BitVec 4} {s : State} (cl : Closed 160672147436720220506368 P) (h0 : P s) :
    OutIs P (execTrvLossTimeout port s) := by
  unfold execTrvLossTimeout
  try dsimp only
  repeat' first
    | with_reducible assumption | (with_reducible apply Closed.mono cl; decide) | with_reducible apply State.trvDown_keeps
    | with_reducible apply timeTo_keeps | with_reducible refine outIs_next ?_ | intro _ _ _ | intro _ _
    | with_reducible refine pair_keeps (by with_reducible assumption) ?_ | dsimp only | split

theorem execSearchExpiry_keeps {port : BitVec 4} {s : State} (cl : Closed 81064982272573440 P) (h0 : P s) :
    OutIs P (execSearchExpiry port s) := by
  unfold execSearchExpiry
  try dsimp only
  repeat' first
    | with_reducible assumption | (with_reducible apply Closed.mono cl; decide) | with_reducible apply timeTo_keeps
    | with_reducible apply State.startAn_keeps | with_reducible apply State.trvClear_keeps
    | with_reducible apply State.noteTried_keeps | with_reducible apply State.modLn_keeps | with_reducible refine outIs_next ?_
    | intro _ _ _ | intro _ _ | with_reducible refine pair_keeps (by with_reducible assumption) ?_ | dsimp only | split

theorem execTrvAfterExpiry_keeps {port : BitVec 4} {s : State} (cl : Closed 9007336693727232 P) (h0 : P s) :
    OutIs P (execTrvAfterExpiry port s) := by
  unfold execTrvAfterExpiry
  try dsimp only
  repeat' first
    | with_reducible assumption | (with_reducible apply Closed.mono cl; decide) | with_reducible apply State.awaitSearch_keeps
    | with_reducible apply timeTo_keeps | with_reducible refine outIs_next ?_ | intro _ _ _ | intro _ _
    | with_reducible refine pair_keeps (by with_reducible assumption) ?_ | dsimp only | split

theorem State.bellWrite_keeps {s : State} {n : Nat} {val : Word} (cl : Closed 72057594038190080 P) (h0 : P s) :
    P (State.bellWrite s n val) := by
  unfold State.bellWrite
  try dsimp only
  repeat' first
    | with_reducible assumption | (with_reducible apply Closed.mono cl; decide) | (with_reducible apply State.put_keeps cl)
    | (with_reducible apply A.PORT_BELL_STATE_in; decide) | (with_reducible apply A.PORT_BELL_CMD_in; decide)
    | with_reducible apply State.modTv_keeps | intro _ _ _ | intro _ _
    | with_reducible refine pair_keeps (by with_reducible assumption) ?_ | dsimp only | split

theorem execBellSend_keeps {port : BitVec 4} {s : State} (cl : Closed 72057748657012736 P) (h0 : P s) :
    OutIs P (execBellSend port s) := by
  unfold execBellSend
  try dsimp only
  repeat' first
    | with_reducible assumption | (with_reducible apply Closed.mono cl; decide) | with_reducible apply State.sendBell_keeps
    | with_reducible apply timeTo_keeps | with_reducible refine outIs_next ?_ | intro _ _ _ | intro _ _
    | with_reducible refine pair_keeps (by with_reducible assumption) ?_ | dsimp only | split

theorem execBellAccepted_keeps {port : BitVec 4} {chirps : BitVec 4} {code : BitVec 16} {boot : Boot} {s : State} (cl : Closed 905508871204290967896060 P) (h0 : P s) :
    OutIs P (execBellAccepted port chirps code boot s) := by
  unfold execBellAccepted
  try dsimp only
  repeat' first
    | with_reducible assumption | (with_reducible apply Closed.mono cl; decide) | (with_reducible apply State.put_keeps cl)
    | (with_reducible apply State.count_keeps cl) | (with_reducible apply A.PORT_BELL_STATE_in; decide)
    | (with_reducible apply A.PORT_BELL_HEARD_in; decide) | with_reducible apply State.raise_keeps
    | with_reducible apply State.wake_keeps | with_reducible refine outIs_next ?_ | intro _ _ _ | intro _ _
    | with_reducible refine pair_keeps (by with_reducible assumption) ?_ | dsimp only | split

end Sys2Proof.Machine
end

