-- ==== Sys2Proof/Laws/Keeps/Bar0.lean ====
section
/-!
SUPPORT. The updates that each operation of Machine/Bar0.lean makes: one law for each.
-/
namespace Sys2Proof.Machine

variable {P : State → Prop}

theorem State.clearRc_keeps {s : State} {r : RegRow} {w : Nat} {off : Nat} {added : Word} (cl : Closed 1208925819333154197995520 P) (h0 : P s) :
    P (State.clearRc s r w off added) := by
  unfold State.clearRc
  try dsimp only
  repeat' first
    | with_reducible assumption | (with_reducible apply Closed.mono cl; decide) | (with_reducible apply putWord_keeps cl)
    | (with_reducible apply allGroups; decide) | with_reducible refine foldl_keeps ?_ ?_
    | with_reducible refine foldlFst_keeps ?_ ?_ | intro _ _ _ | intro _ _
    | with_reducible refine pair_keeps (by with_reducible assumption) ?_ | dsimp only | split

theorem State.recordRead_keeps {s : State} {off : Nat} (cl : Closed 2305843009213693952 P) (h0 : P s) :
    P (State.recordRead s off) := by
  unfold State.recordRead
  try dsimp only
  repeat' first
    | with_reducible assumption | (with_reducible apply Closed.mono cl; decide) | (with_reducible apply State.put_keeps cl)
    | (with_reducible apply A.MEM_INTEG_STATE_in; decide) | intro _ _ _ | intro _ _
    | with_reducible refine pair_keeps (by with_reducible assumption) ?_ | dsimp only | split

theorem State.readMapped_keeps {s : State} {r : RegRow} {w : Nat} {off : Nat} {added : Word} (cl : Closed 1208925819333188561928196 P) (h0 : P s) :
    P (State.readMapped s r w off added).1 := by
  unfold State.readMapped
  try dsimp only
  repeat' first
    | with_reducible assumption | (with_reducible apply Closed.mono cl; decide) | with_reducible apply State.readEntry_keeps
    | with_reducible apply withLatch_keeps | with_reducible apply State.drawn_keeps | with_reducible apply State.recordRead_keeps
    | with_reducible apply State.clearRc_keeps | intro _ _ _ | intro _ _
    | with_reducible refine pair_keeps (by with_reducible assumption) ?_ | dsimp only | split

theorem State.barReadWord_keeps {s : State} {off : Nat} {added : Word} (cl : Closed 1208925819333205775354116 P) (h0 : P s) :
    P (State.barReadWord s off added).1 := by
  unfold State.barReadWord
  try dsimp only
  repeat' first
    | with_reducible assumption | (with_reducible apply Closed.mono cl; decide) | with_reducible apply State.raise_keeps
    | with_reducible apply State.readMapped_keeps | with_reducible apply State.countHold_keeps | intro _ _ _ | intro _ _
    | with_reducible refine pair_keeps (by with_reducible assumption) ?_ | dsimp only | split

theorem State.barRead_keeps {s : State} {off : Nat} {len : Nat} {added : Word} (cl : Closed 1208925819333205775354116 P) (h0 : P s) :
    P (State.barRead s off len added) := by
  unfold State.barRead
  try dsimp only
  repeat' first
    | with_reducible assumption | (with_reducible apply Closed.mono cl; decide) | with_reducible apply State.barReadWord_keeps
    | with_reducible apply State.emit_keeps | with_reducible apply State.emits_keeps | with_reducible apply State.raise_keeps
    | intro _ _ _ | intro _ _ | with_reducible refine pair_keeps (by with_reducible assumption) ?_ | dsimp only | split

theorem State.noteFirst_keeps {s : State} {r : RegRow} {w : Nat} {off : Nat} (cl : Closed 75557863725914323419264 P) (h0 : P s) :
    P (State.noteFirst s r w off) := by
  unfold State.noteFirst
  try dsimp only
  repeat' first
    | with_reducible assumption | (with_reducible apply Closed.mono cl; decide) | with_reducible apply State.audit_keeps
    | with_reducible apply withSec_keeps | intro _ _ _ | intro _ _
    | with_reducible refine pair_keeps (by with_reducible assumption) ?_ | dsimp only | split

theorem State.plainWrite_keeps {s : State} {r : RegRow} {w : Nat} {off : Nat} {v : Word} (cl : Closed 1208925819333171377867136 P) (h0 : P s) :
    P (State.plainWrite s r w off v) := by
  unfold State.plainWrite
  try dsimp only
  repeat' first
    | with_reducible assumption | (with_reducible apply Closed.mono cl; decide) | (with_reducible apply putWord_keeps cl)
    | (with_reducible apply allGroups; decide) | with_reducible apply State.noteFirst_keeps
    | with_reducible apply State.raise_keeps | intro _ _ _ | intro _ _
    | with_reducible refine pair_keeps (by with_reducible assumption) ?_ | dsimp only | split

theorem State.guarded_keeps {s : State} {r : RegRow} {w : Nat} {off : Nat} {v : Word} {act : State → State} (cl : Closed 75557865977731316976000 P) (hact : ∀ t, P t → P (act t)) (h0 : P s) :
    P (State.guarded s r w off v act) := by
  unfold State.guarded
  try dsimp only
  repeat' first
    | with_reducible assumption | (with_reducible apply Closed.mono cl; decide) | with_reducible refine hact _ ?_
    | with_reducible apply State.noteFirst_keeps | with_reducible apply State.raise_keeps | intro _ _ _ | intro _ _
    | with_reducible refine pair_keeps (by with_reducible assumption) ?_ | dsimp only | split

theorem State.clearStatus_keeps {s : State} {w : Nat} {v : Word} (cl : Closed 2251799813685248 P) (h0 : P s) :
    P (State.clearStatus s w v) := by
  unfold State.clearStatus
  try dsimp only
  repeat' first
    | with_reducible assumption | (with_reducible apply Closed.mono cl; decide) | (with_reducible apply State.put_keeps cl)
    | (with_reducible apply A.EVT_CAUSE_in; decide) | (with_reducible apply srcBit_g <;> decide)
    | (with_reducible apply A.EVT_STATUS_in; decide) | with_reducible apply each_keeps | intro _ _ _ | intro _ _
    | with_reducible refine pair_keeps (by with_reducible assumption) ?_ | dsimp only | split

theorem State.forceWord_keeps {s : State} {w : Nat} {v : Word} (cl : Closed 2251816993556736 P) (h0 : P s) :
    P (State.forceWord s w v) := by
  unfold State.forceWord
  try dsimp only
  repeat' first
    | with_reducible assumption | (with_reducible apply Closed.mono cl; decide) | with_reducible apply each_keeps
    | with_reducible apply State.raiseCause_keeps | with_reducible apply State.raise_keeps | intro _ _ _ | intro _ _
    | with_reducible refine pair_keeps (by with_reducible assumption) ?_ | dsimp only | split

theorem State.writeEntry_keeps {s : State} {i : Nat} {k : Nat} {v : Word} (cl : Closed 9444735217556288178432 P) (h0 : P s) :
    P (State.writeEntry s i k v) := by
  unfold State.writeEntry
  try dsimp only
  repeat' first
    | with_reducible assumption | (with_reducible apply Closed.mono cl; decide) | with_reducible apply State.commitEntry_keeps
    | with_reducible apply withPiste_keeps | intro _ _ _ | intro _ _
    | with_reducible refine pair_keeps (by with_reducible assumption) ?_ | dsimp only | split

theorem State.writeCenSel_keeps {s : State} {k : Nat} {v : Word} (cl : Closed 18889465931478580856832 P) (h0 : P s) :
    P (State.writeCenSel s k v) := by
  unfold State.writeCenSel
  try dsimp only
  repeat' first
    | with_reducible assumption | (with_reducible apply Closed.mono cl; decide) | (with_reducible apply State.put_keeps cl)
    | (with_reducible apply A.CEN_SEL_in; decide) | with_reducible apply State.cenMicros_keeps
    | with_reducible apply withCen_keeps | intro _ _ _ | intro _ _
    | with_reducible refine pair_keeps (by with_reducible assumption) ?_ | dsimp only | split

theorem State.ringFollows_keeps {s : State} {r : Nat} {moved : Bool} (cl : Closed 37782392879323946711296 P) (h0 : P s) :
    P (State.ringFollows s r moved) := by
  unfold State.ringFollows
  try dsimp only
  repeat' first
    | with_reducible assumption | (with_reducible apply Closed.mono cl; decide) | with_reducible apply State.stopRing_keeps
    | with_reducible apply State.startRing_keeps | intro _ _ _ | intro _ _
    | with_reducible refine pair_keeps (by with_reducible assumption) ?_ | dsimp only | split

theorem State.writeRingCfg_keeps {s : State} {r : Nat} {word : Nat} {row : RegRow} {w : Nat} {off : Nat} {v : Word} (cl : Closed 1208925819333207348771200 P) (h0 : P s) :
    P (State.writeRingCfg s r word row w off v) := by
  unfold State.writeRingCfg
  try dsimp only
  repeat' first
    | with_reducible assumption | (with_reducible apply Closed.mono cl; decide) | (with_reducible apply putWord_keeps cl)
    | (with_reducible apply allGroups; decide) | with_reducible apply State.guarded_keeps
    | with_reducible apply State.raise_keeps | with_reducible apply State.ringFollows_keeps | intro _ _ _ | intro _ _
    | with_reducible refine pair_keeps (by with_reducible assumption) ?_ | dsimp only | split

theorem State.writeManual_keeps {s : State} {r : RegRow} {w : Nat} {off : Nat} {v : Word} {sig : Word} {pass : Bool} (cl : Closed 1208925819333171512084864 P) (h0 : P s) :
    P (State.writeManual s r w off v sig pass) := by
  unfold State.writeManual
  try dsimp only
  repeat' first
    | with_reducible assumption | (with_reducible apply Closed.mono cl; decide) | with_reducible apply State.plainWrite_keeps
    | with_reducible apply State.manualBist_keeps | intro _ _ _ | intro _ _
    | with_reducible refine pair_keeps (by with_reducible assumption) ?_ | dsimp only | split

theorem State.afterWrite_keeps {s : State} {off : Nat} (cl : Closed 33130372622632217512208 P) (h0 : P s) :
    P (State.afterWrite s off) := by
  unfold State.afterWrite
  try dsimp only
  repeat' first
    | with_reducible assumption | (with_reducible apply Closed.mono cl; decide) | (with_reducible apply State.put_keeps cl)
    | (with_reducible apply A.HL_STATUS_in; decide) | with_reducible apply State.setScale_keeps
    | with_reducible refine withAo_keeps (cl.mono (by decide)) rfl ?_ | with_reducible apply State.showCensus_keeps
    | with_reducible apply withCen_keeps | with_reducible apply State.sendAllOwed_keeps
    | with_reducible apply State.leadCheck_keeps | with_reducible apply State.claimPort_keeps | intro _ _ _ | intro _ _
    | with_reducible refine pair_keeps (by with_reducible assumption) ?_ | dsimp only | split

theorem State.writeMapped_keeps {s : State} {r : RegRow} {w : Nat} {off : Nat} {v : Word} (cl : Closed 1208925819333910112239612 P) (h0 : P s) :
    P (State.writeMapped s r w off v) := by
  unfold State.writeMapped
  try dsimp only
  repeat' first
    | with_reducible assumption | (with_reducible apply Closed.mono cl; decide) | with_reducible apply State.softReset_keeps
    | with_reducible apply State.afterWrite_keeps | with_reducible apply State.plainWrite_keeps
    | with_reducible apply State.clearStatus_keeps | with_reducible apply State.forceWord_keeps
    | with_reducible apply State.reroute_keeps | with_reducible apply State.submit_keeps
    | with_reducible apply State.consume_keeps | with_reducible apply State.guarded_keeps
    | with_reducible apply State.writeEntry_keeps | with_reducible apply State.writeCenSel_keeps
    | with_reducible apply State.writeRingCfg_keeps | with_reducible apply State.newChallenge_keeps
    | with_reducible apply State.keyCtrl_keeps | with_reducible apply State.idCtrl_keeps | with_reducible apply State.raise_keeps
    | with_reducible apply State.writeManual_keeps | with_reducible apply State.drawn_keeps
    | with_reducible apply State.writePortMode_keeps | with_reducible apply State.writeCustom_keeps
    | with_reducible apply State.bellWrite_keeps | with_reducible apply State.writeTrim_keeps | intro _ _ _ | intro _ _
    | with_reducible refine pair_keeps (by with_reducible assumption) ?_ | dsimp only | split

theorem State.barWriteWord_keeps {s : State} {off : Nat} {v : Word} (cl : Closed 1208925819333910112239612 P) (h0 : P s) :
    P (State.barWriteWord s off v) := by
  unfold State.barWriteWord
  try dsimp only
  repeat' first
    | with_reducible assumption | (with_reducible apply Closed.mono cl; decide) | with_reducible apply State.raise_keeps
    | with_reducible apply State.writeMapped_keeps | intro _ _ _ | intro _ _
    | with_reducible refine pair_keeps (by with_reducible assumption) ?_ | dsimp only | split

theorem State.barWrite_keeps {s : State} {off : Nat} {len : Nat} {v : BitVec 64} (cl : Closed 1208925819333910112239612 P) (h0 : P s) :
    P (State.barWrite s off len v) := by
  unfold State.barWrite
  try dsimp only
  repeat' first
    | with_reducible assumption | (with_reducible apply Closed.mono cl; decide) | with_reducible apply State.barWriteWord_keeps
    | with_reducible apply State.raise_keeps | intro _ _ _ | intro _ _
    | with_reducible refine pair_keeps (by with_reducible assumption) ?_ | dsimp only | split

theorem execRegisterWrite_keeps {off : BitVec 24} {len : Nat} {val : BitVec 64} {s : State} (cl : Closed 1208925819333910112239612 P) (h0 : P s) :
    OutIs P (execRegisterWrite off len val s) := by
  unfold execRegisterWrite
  try dsimp only
  repeat' first
    | with_reducible assumption | (with_reducible apply Closed.mono cl; decide) | with_reducible apply State.bar_keeps
    | with_reducible apply State.barWrite_keeps | with_reducible refine outIs_next ?_ | with_reducible exact outIs_fault _
    | intro _ _ _ | intro _ _ | with_reducible refine pair_keeps (by with_reducible assumption) ?_ | dsimp only | split

theorem execReadClear_keeps {off : BitVec 24} {len : Nat} {added : Word} {s : State} (cl : Closed 1208925819333205775354116 P) (h0 : P s) :
    OutIs P (execReadClear off len added s) := by
  unfold execReadClear
  try dsimp only
  repeat' first
    | with_reducible assumption | (with_reducible apply Closed.mono cl; decide) | with_reducible apply State.bar_keeps
    | with_reducible apply State.barRead_keeps | with_reducible refine outIs_next ?_ | with_reducible exact outIs_fault _
    | intro _ _ _ | intro _ _ | with_reducible refine pair_keeps (by with_reducible assumption) ?_ | dsimp only | split

theorem execWideLowWordRead_keeps {off : BitVec 24} {s : State} (cl : Closed 1208925819333205775354116 P) (h0 : P s) :
    OutIs P (execWideLowWordRead off s) := by
  unfold execWideLowWordRead
  try dsimp only
  repeat' first
    | with_reducible assumption | (with_reducible apply Closed.mono cl; decide) | with_reducible apply State.bar_keeps
    | with_reducible apply State.barRead_keeps | with_reducible refine outIs_next ?_ | intro _ _ _ | intro _ _
    | with_reducible refine pair_keeps (by with_reducible assumption) ?_ | dsimp only | split

theorem execPortCustomWrite_keeps {port : BitVec 4} {b : Bool} {k : BitVec 3} {val : Word} {s : State} (cl : Closed 1208925819333910112239612 P) (h0 : P s) :
    OutIs P (execPortCustomWrite port b k val s) := by
  unfold execPortCustomWrite
  try dsimp only
  repeat' first
    | with_reducible assumption | (with_reducible apply Closed.mono cl; decide) | with_reducible apply State.bar_keeps
    | with_reducible apply State.barWriteWord_keeps | with_reducible refine outIs_next ?_ | intro _ _ _ | intro _ _
    | with_reducible refine pair_keeps (by with_reducible assumption) ?_ | dsimp only | split

theorem execTrimWrite_keeps {off : BitVec 24} {val : Word} {s : State} (cl : Closed 1208925819333910112239612 P) (h0 : P s) :
    OutIs P (execTrimWrite off val s) := by
  unfold execTrimWrite
  try dsimp only
  repeat' first
    | with_reducible assumption | (with_reducible apply Closed.mono cl; decide) | with_reducible apply State.bar_keeps
    | with_reducible apply State.barWriteWord_keeps | with_reducible refine outIs_next ?_ | intro _ _ _ | intro _ _
    | with_reducible refine pair_keeps (by with_reducible assumption) ?_ | dsimp only | split

theorem execPisteEntryCommit_keeps {idx : BitVec 15} {val : Word} {s : State} (cl : Closed 1208925819333910112239612 P) (h0 : P s) :
    OutIs P (execPisteEntryCommit idx val s) := by
  unfold execPisteEntryCommit
  try dsimp only
  repeat' first
    | with_reducible assumption | (with_reducible apply Closed.mono cl; decide) | with_reducible apply State.bar_keeps
    | with_reducible apply State.barWriteWord_keeps | with_reducible refine outIs_next ?_ | intro _ _ _ | intro _ _
    | with_reducible refine pair_keeps (by with_reducible assumption) ?_ | dsimp only | split

theorem execPisteEntryRead_keeps {idx : BitVec 15} {s : State} (cl : Closed 1208925819333205775354116 P) (h0 : P s) :
    OutIs P (execPisteEntryRead idx s) := by
  unfold execPisteEntryRead
  try dsimp only
  repeat' first
    | with_reducible assumption | (with_reducible apply Closed.mono cl; decide) | with_reducible apply State.bar_keeps
    | with_reducible apply State.barRead_keeps | with_reducible refine outIs_next ?_ | intro _ _ _ | intro _ _
    | with_reducible refine pair_keeps (by with_reducible assumption) ?_ | dsimp only | split

theorem execPortBellGo_keeps {port : BitVec 4} {val : Word} {s : State} (cl : Closed 1208925819333910112239612 P) (h0 : P s) :
    OutIs P (execPortBellGo port val s) := by
  unfold execPortBellGo
  try dsimp only
  repeat' first
    | with_reducible assumption | (with_reducible apply Closed.mono cl; decide) | with_reducible apply State.bar_keeps
    | with_reducible apply State.barWriteWord_keeps | with_reducible refine outIs_next ?_ | intro _ _ _ | intro _ _
    | with_reducible refine pair_keeps (by with_reducible assumption) ?_ | dsimp only | split

theorem execMemFlipArm_keeps {pc : BitVec 5} {val : Word} {s : State} (cl : Closed 1208925819333910112239612 P) (h0 : P s) :
    OutIs P (execMemFlipArm pc val s) := by
  unfold execMemFlipArm
  try dsimp only
  repeat' first
    | with_reducible assumption | (with_reducible apply Closed.mono cl; decide) | with_reducible apply State.bar_keeps
    | with_reducible apply State.barWriteWord_keeps | with_reducible refine outIs_next ?_ | intro _ _ _ | intro _ _
    | with_reducible refine pair_keeps (by with_reducible assumption) ?_ | dsimp only | split

theorem execTstManGo_keeps {val : Word} {sig : Word} {pass : Bool} {s : State} (cl : Closed 1208925819333171512084864 P) (h0 : P s) :
    OutIs P (execTstManGo val sig pass s) := by
  unfold execTstManGo
  try dsimp only
  repeat' first
    | with_reducible assumption | (with_reducible apply Closed.mono cl; decide) | with_reducible apply State.bar_keeps
    | with_reducible apply State.writeManual_keeps | with_reducible refine outIs_next ?_ | intro _ _ _ | intro _ _
    | with_reducible refine pair_keeps (by with_reducible assumption) ?_ | dsimp only | split

theorem execEvidRingCfgWrite_keeps {ring : BitVec 2} {word : BitVec 2} {val : Word} {s : State} (cl : Closed 1208925819333910112239612 P) (h0 : P s) :
    OutIs P (execEvidRingCfgWrite ring word val s) := by
  unfold execEvidRingCfgWrite
  try dsimp only
  repeat' first
    | with_reducible assumption | (with_reducible apply Closed.mono cl; decide) | with_reducible apply State.bar_keeps
    | with_reducible apply State.barWriteWord_keeps | with_reducible refine outIs_next ?_ | intro _ _ _ | intro _ _
    | with_reducible refine pair_keeps (by with_reducible assumption) ?_ | dsimp only | split

theorem execCenSelWrite_keeps {k : BitVec 9} {val : Word} {s : State} (cl : Closed 1208925819333910112239612 P) (h0 : P s) :
    OutIs P (execCenSelWrite k val s) := by
  unfold execCenSelWrite
  try dsimp only
  repeat' first
    | with_reducible assumption | (with_reducible apply Closed.mono cl; decide) | with_reducible apply State.bar_keeps
    | with_reducible apply State.barWriteWord_keeps | with_reducible refine outIs_next ?_ | intro _ _ _ | intro _ _
    | with_reducible refine pair_keeps (by with_reducible assumption) ?_ | dsimp only | split

theorem execEvtForce_keeps {w : BitVec 4} {val : Word} {s : State} (cl : Closed 1208925819333910112239612 P) (h0 : P s) :
    OutIs P (execEvtForce w val s) := by
  unfold execEvtForce
  try dsimp only
  repeat' first
    | with_reducible assumption | (with_reducible apply Closed.mono cl; decide) | with_reducible apply State.bar_keeps
    | with_reducible apply State.barWriteWord_keeps | with_reducible refine outIs_next ?_ | intro _ _ _ | intro _ _
    | with_reducible refine pair_keeps (by with_reducible assumption) ?_ | dsimp only | split

theorem execFreezeRecordRead_keeps {pc : BitVec 5} {s : State} (cl : Closed 1208925819333205775354116 P) (h0 : P s) :
    OutIs P (execFreezeRecordRead pc s) := by
  unfold execFreezeRecordRead
  try dsimp only
  repeat' first
    | with_reducible assumption | (with_reducible apply Closed.mono cl; decide) | with_reducible apply State.bar_keeps
    | with_reducible apply State.barRead_keeps | with_reducible refine outIs_next ?_ | intro _ _ _ | intro _ _
    | with_reducible refine pair_keeps (by with_reducible assumption) ?_ | dsimp only | split

end Sys2Proof.Machine
end

