-- ==== Sys2Proof/Laws/Keeps/Fold.lean ====
section
/-!
SUPPORT. The updates that each operation of Machine/Fold.lean makes: one law for each.
-/
namespace Sys2Proof.Machine

variable {P : State → Prop}
theorem slotValid_g {m u : Nat} (h : m.testBit 48 = true) : InGroup m (slotValid u).off := by
  unfold slotValid
  split <;> exact ofGroup A.DEV_FOLD_STATUS_group h


theorem State.writeFoldSlot_keeps {s : State} {u : Nat} {b : Bytes} {nvFail : Bool} (cl : Closed 281474976710664 P) (h0 : P s) :
    P (State.writeFoldSlot s u b nvFail) := by
  unfold State.writeFoldSlot
  try dsimp only
  repeat' first
    | with_reducible assumption | (with_reducible apply Closed.mono cl; decide) | (with_reducible apply State.put_keeps cl)
    | (with_reducible apply A.DEV_FOLD_STATUS_in; decide) | (with_reducible apply slotValid_g <;> decide)
    | with_reducible apply withNv_keeps | intro _ _ _ | intro _ _
    | with_reducible refine pair_keeps (by with_reducible assumption) ?_ | dsimp only | split

theorem execFoldLoad_keeps {slot : BitVec 6} {nvFail : Bool} {bad : BitVec 48} {s : State} (cl : Closed 886172359958701063268712 P) (h0 : P s) :
    OutIs P (execFoldLoad slot nvFail bad s) := by
  unfold execFoldLoad
  try dsimp only
  repeat' first
    | with_reducible assumption | (with_reducible apply Closed.mono cl; decide) | (with_reducible apply State.put_keeps cl)
    | (with_reducible apply A.DEV_FOLD_STATUS_in; decide) | with_reducible apply State.completeLogged_keeps
    | with_reducible apply State.writeFoldSlot_keeps | with_reducible apply State.applyLive_keeps
    | with_reducible apply State.runFold_keeps | with_reducible apply State.beginApply_keeps
    | with_reducible apply State.begin_keeps | with_reducible refine id_keeps ?_ | with_reducible refine outIs_next ?_
    | intro _ _ _ | intro _ _ | with_reducible refine pair_keeps (by with_reducible assumption) ?_ | dsimp only | split

theorem State.stageDrained_keeps {s : State} (cl : Closed 160672147436591371487488 P) (h0 : P s) : P (State.stageDrained s) := by
  unfold State.stageDrained
  try dsimp only
  repeat' first
    | with_reducible assumption | (with_reducible apply Closed.mono cl; decide) | with_reducible apply each_keeps
    | with_reducible apply State.endDrain_keeps | with_reducible apply withPins_keeps | intro _ _ _ | intro _ _
    | with_reducible refine pair_keeps (by with_reducible assumption) ?_ | dsimp only | split

theorem State.stageQuiesced_keeps {s : State} (cl : Closed 56668397794435742568448 P) (h0 : P s) : P (State.stageQuiesced s) := by
  unfold State.stageQuiesced
  try dsimp only
  repeat' first
    | with_reducible assumption | (with_reducible apply Closed.mono cl; decide) | (with_reducible apply State.put_keeps cl)
    | (with_reducible apply A.CEN_STATUS_in; decide) | with_reducible apply State.pauseRings_keeps | intro _ _ _ | intro _ _
    | with_reducible refine pair_keeps (by with_reducible assumption) ?_ | dsimp only | split

theorem State.stageLaid_keeps {s : State} (cl : Closed 56708752298915586406664 P) (h0 : P s) : P (State.stageLaid s) := by
  unfold State.stageLaid
  try dsimp only
  repeat' first
    | with_reducible assumption | (with_reducible apply Closed.mono cl; decide) | (with_reducible apply State.put_keeps cl)
    | (with_reducible apply A.CEN_STATUS_in; decide) | with_reducible apply State.reLay_keeps | intro _ _ _ | intro _ _
    | with_reducible refine pair_keeps (by with_reducible assumption) ?_ | dsimp only | split

theorem State.stageMapped_keeps {s : State} (cl : Closed 664668536088702222368 P) (h0 : P s) : P (State.stageMapped s) := by
  unfold State.stageMapped
  try dsimp only
  repeat' first
    | with_reducible assumption | (with_reducible apply Closed.mono cl; decide) | with_reducible apply State.holdBypass_keeps
    | with_reducible apply State.showStructure_keeps | with_reducible apply State.runFold_keeps | intro _ _ _ | intro _ _
    | with_reducible refine pair_keeps (by with_reducible assumption) ?_ | dsimp only | split

theorem State.endApply_keeps {s : State} (cl : Closed 200838924132243801630976 P) (h0 : P s) : P (State.endApply s) := by
  unfold State.endApply
  try dsimp only
  repeat' first
    | with_reducible assumption | (with_reducible apply Closed.mono cl; decide) | (with_reducible apply State.put_keeps cl)
    | (with_reducible apply A.DEV_FOLD_STATUS_in; decide) | with_reducible apply each_keeps
    | with_reducible apply State.laneHold_keeps | with_reducible apply State.faultLanes_keeps
    | with_reducible apply withApply_keeps | with_reducible apply State.modPd_keeps | with_reducible apply State.xon_keeps
    | with_reducible apply State.relay_keeps | intro _ _ _ | intro _ _
    | with_reducible refine pair_keeps (by with_reducible assumption) ?_ | dsimp only | split

theorem State.stageStarted_keeps {s : State} {bad : Nat} (cl : Closed 829503962164266931321104 P) (h0 : P s) :
    P (State.stageStarted s bad) := by
  unfold State.stageStarted
  try dsimp only
  repeat' first
    | with_reducible assumption | (with_reducible apply Closed.mono cl; decide) | with_reducible apply withApply_keeps
    | with_reducible apply each_keeps | with_reducible apply State.blindLane_keeps | with_reducible apply State.keepLayout_keeps
    | with_reducible apply State.resumeRings_keeps | with_reducible apply State.serveQueues_keeps
    | with_reducible apply State.startPorts_keeps | with_reducible apply State.applyLive_keeps
    | with_reducible apply State.endApply_keeps | intro _ _ _ | intro _ _
    | with_reducible refine pair_keeps (by with_reducible assumption) ?_ | dsimp only | split

theorem State.endStage_keeps {s : State} {bad : Nat} (cl : Closed 829503962164275521255736 P) (h0 : P s) :
    P (State.endStage s bad) := by
  unfold State.endStage
  try dsimp only
  repeat' first
    | with_reducible assumption | (with_reducible apply Closed.mono cl; decide) | with_reducible apply State.stageDrained_keeps
    | with_reducible apply State.stageQuiesced_keeps | with_reducible apply State.stageLaid_keeps
    | with_reducible apply State.stageMapped_keeps | with_reducible apply State.stageStarted_keeps | intro _ _ _ | intro _ _
    | with_reducible refine pair_keeps (by with_reducible assumption) ?_ | dsimp only | split

theorem execStructuralApplyStage_keeps {bad : BitVec 48} {s : State} (cl : Closed 829503962164412960209208 P) (h0 : P s) :
    OutIs P (execStructuralApplyStage bad s) := by
  unfold execStructuralApplyStage
  try dsimp only
  repeat' first
    | with_reducible assumption | (with_reducible apply Closed.mono cl; decide) | (with_reducible apply State.put_keeps cl)
    | (with_reducible apply A.DEV_FOLD_STATUS_in; decide) | with_reducible apply State.endStage_keeps
    | with_reducible apply timeTo_keeps | with_reducible apply withApply_keeps | with_reducible refine outIs_next ?_
    | intro _ _ _ | intro _ _ | with_reducible refine pair_keeps (by with_reducible assumption) ?_ | dsimp only | split

theorem execFoldLoadCompletion_keeps {alone : BitVec 16} {s : State} (cl : Closed 276396787858295564003584 P) (h0 : P s) :
    OutIs P (execFoldLoadCompletion alone s) := by
  unfold execFoldLoadCompletion
  try dsimp only
  repeat' first
    | with_reducible assumption | (with_reducible apply Closed.mono cl; decide) | with_reducible apply timeTo_keeps
    | with_reducible apply State.completeLogged_keeps | with_reducible apply State.endApply_keeps
    | with_reducible refine outIs_next ?_ | intro _ _ _ | intro _ _
    | with_reducible refine pair_keeps (by with_reducible assumption) ?_ | dsimp only | split

theorem State.abandonApply_keeps {s : State} (cl : Closed 75557870762805922105600 P) (h0 : P s) : P (State.abandonApply s) := by
  unfold State.abandonApply
  try dsimp only
  repeat' first
    | with_reducible assumption | (with_reducible apply Closed.mono cl; decide) | (with_reducible apply State.put_keeps cl)
    | (with_reducible apply A.DEV_FOLD_STATUS_in; decide) | with_reducible apply State.completeLogged_keeps
    | with_reducible apply withApply_keeps | intro _ _ _ | intro _ _
    | with_reducible refine pair_keeps (by with_reducible assumption) ?_ | dsimp only | split

theorem execFoldCommit_keeps {slot : BitVec 6} {nvFail : Bool} {s : State} (cl : Closed 75557870762805921057024 P) (h0 : P s) :
    OutIs P (execFoldCommit slot nvFail s) := by
  unfold execFoldCommit
  try dsimp only
  repeat' first
    | with_reducible assumption | (with_reducible apply Closed.mono cl; decide) | (with_reducible apply State.put_keeps cl)
    | (with_reducible apply State.putWide_keeps cl) | (with_reducible apply slotValid_g <;> decide)
    | (with_reducible apply A.DEV_FOLD_COMMIT_in; decide) | (with_reducible apply A.DEV_FOLD_COMMIT_in4; decide)
    | (with_reducible apply A.DEV_FOLD_STATUS_in; decide) | (with_reducible apply A.DEV_FOLD_FLOOR_in; decide) | intro t e he ht
    | (simp only [List.mem_cons, List.not_mem_nil, or_false] at he) | (rcases he with he | he) | subst he
    | with_reducible apply State.completeLogged_keeps | with_reducible apply each_mem | with_reducible refine outIs_next ?_
    | intro _ _ _ | intro _ _ | with_reducible refine pair_keeps (by with_reducible assumption) ?_ | dsimp only | split

end Sys2Proof.Machine
end

