-- ==== Sys2Proof/Laws/Keeps/Heat.lean ====
section
/-!
SUPPORT. The updates that each operation of Machine/Heat.lean makes: one law for each.
-/
namespace Sys2Proof.Machine

variable {P : State → Prop}

theorem State.startOwed_keeps {s : State} (cl : Closed 65302246136580352 P) (h0 : P s) : P (State.startOwed s) := by
  unfold State.startOwed
  try dsimp only
  repeat' first
    | with_reducible assumption | (with_reducible apply Closed.mono cl; decide) | with_reducible apply each_keeps
    | with_reducible apply State.comeBack_keeps | intro _ _ _ | intro _ _
    | with_reducible refine pair_keeps (by with_reducible assumption) ?_ | dsimp only | split

theorem execHerderWatchdogExpiry_keeps {s : State} (cl : Closed 2379781137590361524480 P) (h0 : P s) :
    OutIs P (execHerderWatchdogExpiry s) := by
  unfold execHerderWatchdogExpiry
  try dsimp only
  repeat' first
    | with_reducible assumption | (with_reducible apply Closed.mono cl; decide) | (with_reducible apply State.put_keeps cl)
    | (with_reducible apply A.DEV_FW_STATUS_in; decide) | with_reducible apply State.startFirmware_keeps
    | with_reducible apply State.abandonRuns_keeps | with_reducible apply State.cenHerd_keeps
    | with_reducible apply withHerder_keeps | with_reducible apply State.raise_keeps | with_reducible refine outIs_next ?_
    | intro _ _ _ | intro _ _ | with_reducible refine pair_keeps (by with_reducible assumption) ?_ | dsimp only | split

theorem State.abortCommand_keeps {s : State} {k : Nat} (cl : Closed 276396787858158125050112 P) (h0 : P s) :
    P (State.abortCommand s k) := by
  unfold State.abortCommand
  try dsimp only
  repeat' first
    | with_reducible assumption | (with_reducible apply Closed.mono cl; decide) | with_reducible apply each_keeps
    | with_reducible apply State.modPd_keeps | with_reducible apply State.modCal_keeps
    | with_reducible apply State.completeLogged_keeps | with_reducible apply State.endApply_keeps
    | with_reducible apply withApply_keeps | with_reducible apply State.complete_keeps | intro _ _ _ | intro _ _
    | with_reducible refine pair_keeps (by with_reducible assumption) ?_ | dsimp only | split

theorem execHerderRunningAgain_keeps {s : State} (cl : Closed 905513771120685546995708 P) (h0 : P s) :
    OutIs P (execHerderRunningAgain s) := by
  unfold execHerderRunningAgain
  try dsimp only
  repeat' first
    | with_reducible assumption | (with_reducible apply Closed.mono cl; decide) | with_reducible apply State.abortDiags_keeps
    | with_reducible apply withHerder_keeps | with_reducible apply State.undoEntry_keeps | with_reducible apply each_keeps
    | with_reducible apply State.abortCommand_keeps | with_reducible apply State.startOwed_keeps
    | with_reducible refine id_keeps ?_ | with_reducible refine outIs_next ?_ | intro _ _ _ | intro _ _
    | with_reducible refine pair_keeps (by with_reducible assumption) ?_ | dsimp only | split

theorem State.capCounted_keeps {s : State} (cl : Closed 590295810358705653760 P) (h0 : P s) : P (State.capCounted s) := by
  unfold State.capCounted
  try dsimp only
  repeat' first
    | with_reducible assumption | (with_reducible apply Closed.mono cl; decide) | (with_reducible apply State.count_keeps cl)
    | (with_reducible apply A.DRV_CAPS_in; decide) | with_reducible apply State.cenFab_keeps | intro _ _ _ | intro _ _
    | with_reducible refine pair_keeps (by with_reducible assumption) ?_ | dsimp only | split

theorem State.carryOut_keeps {s : State} {p : Plan} (cl : Closed 590295810358706210816 P) (h0 : P s) :
    P (State.carryOut s p) := by
  unfold State.carryOut
  try dsimp only
  repeat' first
    | with_reducible assumption | (with_reducible apply Closed.mono cl; decide) | with_reducible apply each_keeps
    | with_reducible apply State.capCounted_keeps | with_reducible apply State.sendCap_keeps | with_reducible apply withDrv_keeps
    | intro _ _ _ | intro _ _ | with_reducible refine pair_keeps (by with_reducible assumption) ?_ | dsimp only | split

theorem State.switchLevel_keeps {s : State} {l : Nat} (cl : Closed 590313824765805070336 P) (h0 : P s) :
    P (State.switchLevel s l) := by
  unfold State.switchLevel
  try dsimp only
  repeat' first
    | with_reducible assumption | (with_reducible apply Closed.mono cl; decide) | (with_reducible apply State.count_keeps cl)
    | (with_reducible apply A.DRV_PL_CHANGES_in; decide) | with_reducible apply State.cenFab_keeps
    | with_reducible apply State.setLevel_keeps | with_reducible apply each_keeps | with_reducible apply State.showLoading_keeps
    | intro _ _ _ | intro _ _ | with_reducible refine pair_keeps (by with_reducible assumption) ?_ | dsimp only | split

theorem State.lowerLevel_keeps {s : State} (cl : Closed 590313824765805594624 P) (h0 : P s) : P (State.lowerLevel s) := by
  unfold State.lowerLevel
  try dsimp only
  repeat' first
    | with_reducible assumption | (with_reducible apply Closed.mono cl; decide) | with_reducible apply withDrv_keeps
    | with_reducible apply State.switchLevel_keeps | intro _ _ _ | intro _ _
    | with_reducible refine pair_keeps (by with_reducible assumption) ?_ | dsimp only | split

theorem State.reverseStep_keeps {s : State} {x0 : Option (Nat × Nat)} (cl : Closed 590295810371591112704 P) (h0 : P s) :
    P (State.reverseStep s x0) := by
  unfold State.reverseStep
  try dsimp only
  repeat' first
    | with_reducible assumption | (with_reducible apply Closed.mono cl; decide) | with_reducible apply withPwr_keeps
    | with_reducible apply withPins_keeps | with_reducible apply withDrv_keeps | with_reducible apply State.capCounted_keeps
    | with_reducible apply State.sendCap_keeps | intro _ _ _ | intro _ _
    | with_reducible refine pair_keeps (by with_reducible assumption) ?_ | dsimp only | split

theorem State.reverseCheck_keeps {s : State} (cl : Closed 590295810371591112704 P) (h0 : P s) : P (State.reverseCheck s) := by
  unfold State.reverseCheck
  try dsimp only
  repeat' first
    | with_reducible assumption | (with_reducible apply Closed.mono cl; decide) | with_reducible apply withDrv_keeps
    | with_reducible apply State.reverseStep_keeps | intro _ _ _ | intro _ _
    | with_reducible refine pair_keeps (by with_reducible assumption) ?_ | dsimp only | split

theorem State.grant_keeps {s : State} {x0 : List Nat} (cl : Closed 154086803917452226693376 P) (h0 : P s) :
    P (State.grant s x0) := by
  induction x0 generalizing s with
  | nil => exact h0
  | cons _ _ ih =>
    unfold State.grant
    try dsimp only
    repeat' first
      | with_reducible assumption | (with_reducible apply Closed.mono cl; decide) | with_reducible refine ih ?_
      | with_reducible apply State.carryOut_keeps | with_reducible apply State.noteStart_keeps
      | with_reducible apply State.startSearch_keeps | with_reducible apply State.startTraining_keeps
      | with_reducible apply State.startWarm_keeps | intro _ _ _ | intro _ _
      | with_reducible refine pair_keeps (by with_reducible assumption) ?_ | dsimp only | split

theorem State.thermalCap_keeps {s : State} (cl : Closed 590298062175699208448 P) (h0 : P s) : P (State.thermalCap s) := by
  unfold State.thermalCap
  try dsimp only
  repeat' first
    | with_reducible assumption | (with_reducible apply Closed.mono cl; decide) | (with_reducible apply State.put_keeps cl)
    | (with_reducible apply A.DRV_STATE_in; decide) | (with_reducible apply A.DRV_EFFECTIVE_in; decide)
    | with_reducible apply State.raise_keeps | intro _ _ _ | intro _ _
    | with_reducible refine pair_keeps (by with_reducible assumption) ?_ | dsimp only | split

theorem State.showDrover_keeps {s : State} (cl : Closed 590295810358705651712 P) (h0 : P s) : P (State.showDrover s) := by
  unfold State.showDrover
  try dsimp only
  repeat' first
    | with_reducible assumption | (with_reducible apply Closed.mono cl; decide) | (with_reducible apply State.put_keeps cl)
    | (with_reducible apply A.DRV_STATE_in; decide) | (with_reducible apply A.DRV_PORT_in; decide) | intro t e he ht
    | (simp only [List.mem_cons, List.not_mem_nil, or_false] at he) | (rcases he with he | he) | subst he
    | with_reducible apply each_mem | intro _ _ _ | intro _ _
    | with_reducible refine pair_keeps (by with_reducible assumption) ?_ | dsimp only | split

theorem State.keepSteps_keeps {s : State} (cl : Closed 524288 P) (h0 : P s) : P (State.keepSteps s) := by
  unfold State.keepSteps
  try dsimp only
  repeat' first
    | with_reducible assumption | (with_reducible apply Closed.mono cl; decide) | with_reducible apply withDrv_keeps
    | intro _ _ _ | intro _ _ | with_reducible refine pair_keeps (by with_reducible assumption) ?_ | dsimp only | split

theorem State.shed_keeps {s : State} (cl : Closed 590298062175699765504 P) (h0 : P s) : P (State.shed s) := by
  unfold State.shed
  try dsimp only
  repeat' first
    | with_reducible assumption | (with_reducible apply Closed.mono cl; decide) | (with_reducible apply State.put_keeps cl)
    | (with_reducible apply A.DRV_STATE_in; decide) | with_reducible apply State.carryOut_keeps
    | with_reducible apply State.raise_keeps | intro _ _ _ | intro _ _
    | with_reducible refine pair_keeps (by with_reducible assumption) ?_ | dsimp only | split

theorem execDroverPeriod_keeps {s : State} (cl : Closed 154086803917465111595264 P) (h0 : P s) :
    OutIs P (execDroverPeriod s) := by
  unfold execDroverPeriod
  try dsimp only
  repeat' first
    | with_reducible assumption | (with_reducible apply Closed.mono cl; decide) | (with_reducible apply State.put_keeps cl)
    | (with_reducible apply A.DRV_SUM_in; decide) | with_reducible apply State.thermalCap_keeps
    | with_reducible apply State.keepSteps_keeps | with_reducible apply State.startOwed_keeps
    | with_reducible apply State.reverseCheck_keeps | with_reducible apply State.lowerLevel_keeps
    | with_reducible apply State.shed_keeps | with_reducible apply State.grant_keeps | with_reducible apply State.cenFab_keeps
    | with_reducible apply State.calRunCheck_keeps | with_reducible apply State.showDrover_keeps
    | with_reducible apply withDrv_keeps | with_reducible refine outIs_next ?_ | intro _ _ _ | intro _ _
    | with_reducible refine pair_keeps (by with_reducible assumption) ?_ | dsimp only | split

theorem execPlRaiseSettle_keeps {s : State} (cl : Closed 590313824907538991104 P) (h0 : P s) : OutIs P (execPlRaiseSettle s) := by
  unfold execPlRaiseSettle
  try dsimp only
  repeat' first
    | with_reducible assumption | (with_reducible apply Closed.mono cl; decide) | with_reducible apply withPwr_keeps
    | with_reducible apply timeOn_keeps | with_reducible apply withPins_keeps | with_reducible apply State.switchLevel_keeps
    | with_reducible refine outIs_next ?_ | intro _ _ _ | intro _ _
    | with_reducible refine pair_keeps (by with_reducible assumption) ?_ | dsimp only | split

theorem State.readSensor_keeps {s : State} {base : Bool} {k : Nat} {v : Option Nat} (cl : Closed 1180593872534404860160 P) (h0 : P s) :
    P (State.readSensor s base k v) := by
  unfold State.readSensor
  try dsimp only
  repeat' first
    | with_reducible assumption | (with_reducible apply Closed.mono cl; decide) | (with_reducible apply State.put_keeps cl)
    | (with_reducible apply iteGroup) | (with_reducible apply A.THM_BASE_in; decide)
    | (with_reducible apply A.THM_CORE_in; decide) | with_reducible apply State.raise_keeps | intro _ _ _ | intro _ _
    | with_reducible refine pair_keeps (by with_reducible assumption) ?_ | dsimp only | split

theorem State.baseOutliers_keeps {s : State} (cl : Closed 1180593872534404860160 P) (h0 : P s) : P (State.baseOutliers s) := by
  unfold State.baseOutliers
  try dsimp only
  repeat' first
    | with_reducible assumption | (with_reducible apply Closed.mono cl; decide) | (with_reducible apply State.put_keeps cl)
    | (with_reducible apply A.THM_BASE_in; decide) | with_reducible apply each_keeps | with_reducible apply State.raise_keeps
    | intro _ _ _ | intro _ _ | with_reducible refine pair_keeps (by with_reducible assumption) ?_ | dsimp only | split

theorem State.corePairs_keeps {s : State} (cl : Closed 1180593872534404860160 P) (h0 : P s) : P (State.corePairs s) := by
  unfold State.corePairs
  try dsimp only
  repeat' first
    | with_reducible assumption | (with_reducible apply Closed.mono cl; decide) | (with_reducible apply State.put_keeps cl)
    | (with_reducible apply A.THM_CORE_in; decide) | with_reducible apply each_keeps | with_reducible apply State.raise_keeps
    | intro _ _ _ | intro _ _ | with_reducible refine pair_keeps (by with_reducible assumption) ?_ | dsimp only | split

theorem State.hotChannels_keeps {s : State} (cl : Closed 1152921504606863360 P) (h0 : P s) : P (State.hotChannels s) := by
  unfold State.hotChannels
  try dsimp only
  repeat' first
    | with_reducible assumption | (with_reducible apply Closed.mono cl; decide) | (with_reducible apply State.put_keeps cl)
    | (with_reducible apply A.MEM_CH_STATE_in; decide) | with_reducible apply each_keeps | with_reducible apply State.modBk_keeps
    | intro _ _ _ | intro _ _ | with_reducible refine pair_keeps (by with_reducible assumption) ?_ | dsimp only | split

theorem State.limits_keeps {s : State} (cl : Closed 590298062175967643904 P) (h0 : P s) : P (State.limits s) := by
  unfold State.limits
  try dsimp only
  repeat' first
    | with_reducible assumption | (with_reducible apply Closed.mono cl; decide) | (with_reducible apply State.put_keeps cl)
    | (with_reducible apply A.DRV_STATE_in; decide) | with_reducible apply withThm_keeps
    | with_reducible apply State.raiseCoreLimit_keeps | with_reducible apply State.raiseBaseLimit_keeps | intro _ _ _ | intro _ _
    | with_reducible refine pair_keeps (by with_reducible assumption) ?_ | dsimp only | split

theorem State.tripTimers_keeps {s : State} (cl : Closed 268435456 P) (h0 : P s) : P (State.tripTimers s) := by
  unfold State.tripTimers
  try dsimp only
  repeat' first
    | with_reducible assumption | (with_reducible apply Closed.mono cl; decide) | with_reducible apply withThm_keeps
    | intro _ _ _ | intro _ _ | with_reducible refine pair_keeps (by with_reducible assumption) ?_ | dsimp only | split

theorem State.unitTemps_keeps {s : State} (cl : Closed 2379774100696608014336 P) (h0 : P s) : P (State.unitTemps s) := by
  unfold State.unitTemps
  try dsimp only
  repeat' first
    | with_reducible assumption | (with_reducible apply Closed.mono cl; decide) | (with_reducible apply State.put_keeps cl)
    | (with_reducible apply A.PORT_CAL_STATE_in; decide) | (with_reducible apply A.MEM_CAL_STATE_in; decide)
    | with_reducible apply each_keeps | with_reducible apply State.dueCheck_keeps | intro _ _ _ | intro _ _
    | with_reducible refine pair_keeps (by with_reducible assumption) ?_ | dsimp only | split

theorem execSensorRead_keeps {base : List (BitVec 5 × Option (BitVec 16))} {core : List (BitVec 5 × Option (BitVec 16))} {boot : Boot} {s : State} (cl : Closed 906394242862234988445692 P) (h0 : P s) :
    OutIs P (execSensorRead base core boot s) := by
  unfold execSensorRead
  try dsimp only
  repeat' first
    | with_reducible assumption | (with_reducible apply Closed.mono cl; decide) | with_reducible apply each_keeps
    | with_reducible apply State.readSensor_keeps | with_reducible apply State.corePairs_keeps
    | with_reducible apply State.baseOutliers_keeps
    | with_reducible refine State.resetDevice_warm (cl.mono (by decide)) (by decide) ?_
    | with_reducible apply State.unitTemps_keeps | with_reducible apply State.thermalCap_keeps
    | with_reducible apply State.tripTimers_keeps | with_reducible apply State.limits_keeps
    | with_reducible apply State.hotChannels_keeps | with_reducible refine outIs_next ?_ | intro _ _ _ | intro _ _
    | with_reducible refine pair_keeps (by with_reducible assumption) ?_ | dsimp only | split

theorem execThermalTrip_keeps {s : State} (cl : Closed 1181744542372375576576 P) (h0 : P s) : OutIs P (execThermalTrip s) := by
  unfold execThermalTrip
  try dsimp only
  repeat' first
    | with_reducible assumption | (with_reducible apply Closed.mono cl; decide) | (with_reducible apply State.count_keeps cl)
    | (with_reducible apply A.THM_TRIPS_in; decide) | with_reducible apply timeTo_keeps | with_reducible apply withClk_keeps
    | with_reducible apply State.enterSelfRefresh_keeps | with_reducible apply State.releaseBypass_keeps
    | with_reducible apply withPwr_keeps | with_reducible refine foldl_keeps ?_ ?_ | with_reducible refine foldlFst_keeps ?_ ?_
    | with_reducible refine outIs_next ?_ | intro _ _ _ | intro _ _
    | with_reducible refine pair_keeps (by with_reducible assumption) ?_ | dsimp only | split

end Sys2Proof.Machine
end

