-- ==== Sys2Proof/Laws/Keeps/Clocks.lean ====
section
/-!
SUPPORT. The updates that each operation of Machine/Clocks.lean makes: one law for each.
-/
namespace Sys2Proof.Machine

variable {P : State → Prop}

theorem State.stopIro_keeps {s : State} (cl : Closed 147573952589676412928 P) (h0 : P s) : P (State.stopIro s) := by
  unfold State.stopIro
  try dsimp only
  repeat' first
    | with_reducible assumption | (with_reducible apply Closed.mono cl; decide) | (with_reducible apply State.put_keeps cl)
    | (with_reducible apply A.CLK_STATUS_in; decide) | intro _ _ _ | intro _ _
    | with_reducible refine pair_keeps (by with_reducible assumption) ?_ | dsimp only | split

theorem State.enableIro_keeps {s : State} (cl : Closed 147573952589709967360 P) (h0 : P s) : P (State.enableIro s) := by
  unfold State.enableIro
  try dsimp only
  repeat' first
    | with_reducible assumption | (with_reducible apply Closed.mono cl; decide) | (with_reducible apply State.put_keeps cl)
    | (with_reducible apply A.CLK_STATUS_in; decide) | with_reducible apply withClk_keeps | intro _ _ _ | intro _ _
    | with_reducible refine pair_keeps (by with_reducible assumption) ?_ | dsimp only | split

theorem State.clockLoss_keeps {s : State} (cl : Closed 264603558291696827498492 P) (h0 : P s) : P (State.clockLoss s) := by
  unfold State.clockLoss
  try dsimp only
  repeat' first
    | with_reducible assumption | (with_reducible apply Closed.mono cl; decide) | (with_reducible apply State.put_keeps cl)
    | (with_reducible apply A.CLK_STATUS_in; decide)
    | with_reducible refine State.resetCore_warm (cl.mono (by decide)) (by decide) ?_ | with_reducible apply withPwr_keeps
    | intro _ _ _ | intro _ _ | with_reducible refine pair_keeps (by with_reducible assumption) ?_ | dsimp only | split

theorem State.meetHold_keeps {s : State} (cl : Closed 905513771120685546995708 P) (h0 : P s) : P (State.meetHold s) := by
  unfold State.meetHold
  try dsimp only
  repeat' first
    | with_reducible assumption | (with_reducible apply Closed.mono cl; decide) | with_reducible apply State.refuseEntry_keeps
    | with_reducible apply withClk_keeps | with_reducible apply State.abandonApply_keeps | with_reducible apply each_keeps
    | with_reducible apply State.abortDiags_keeps | with_reducible apply State.abandonRuns_keeps
    | with_reducible apply State.modLn_keeps | with_reducible apply State.abortTraining_keeps | intro _ _ _ | intro _ _
    | with_reducible refine pair_keeps (by with_reducible assumption) ?_ | dsimp only | split

theorem execLrefclkTrip_keeps {s : State} (cl : Closed 905513771120685546995708 P) (h0 : P s) : OutIs P (execLrefclkTrip s) := by
  unfold execLrefclkTrip
  try dsimp only
  repeat' first
    | with_reducible assumption | (with_reducible apply Closed.mono cl; decide) | (with_reducible apply State.count_keeps cl)
    | (with_reducible apply State.put_keeps cl) | (with_reducible apply A.CLK_LREF_TRIPS_in; decide)
    | (with_reducible apply A.CLK_STATUS_in; decide) | intro t e he ht
    | (simp only [List.mem_cons, List.not_mem_nil, or_false] at he) | (rcases he with he | he) | subst he
    | with_reducible apply State.clockLoss_keeps | with_reducible apply State.enableIro_keeps
    | with_reducible apply State.meetHold_keeps | with_reducible apply each_mem | with_reducible apply withClk_keeps
    | with_reducible refine outIs_next ?_ | intro _ _ _ | intro _ _
    | with_reducible refine pair_keeps (by with_reducible assumption) ?_ | dsimp only | split

theorem State.coastEnd_keeps {s : State} (cl : Closed 56669550716086411874304 P) (h0 : P s) : P (State.coastEnd s) := by
  unfold State.coastEnd
  try dsimp only
  repeat' first
    | with_reducible assumption | (with_reducible apply Closed.mono cl; decide) | (with_reducible apply State.put_keeps cl)
    | (with_reducible apply A.CEN_STATUS_in; decide) | with_reducible apply timeTo_keeps
    | with_reducible apply State.releaseBypass_keeps | with_reducible apply State.enterSelfRefresh_keeps
    | with_reducible apply State.pauseRings_keeps | with_reducible apply withClk_keeps | intro _ _ _ | intro _ _
    | with_reducible refine pair_keeps (by with_reducible assumption) ?_ | dsimp only | split

theorem execClockHoldCoastEnd_keeps {s : State} (cl : Closed 56669550716086411874304 P) (h0 : P s) :
    OutIs P (execClockHoldCoastEnd s) := by
  unfold execClockHoldCoastEnd
  try dsimp only
  repeat' first
    | with_reducible assumption | (with_reducible apply Closed.mono cl; decide) | with_reducible apply State.coastEnd_keeps
    | with_reducible refine outIs_next ?_ | intro _ _ _ | intro _ _
    | with_reducible refine pair_keeps (by with_reducible assumption) ?_ | dsimp only | split

theorem State.clockDown_keeps {s : State} (cl : Closed 160672147436582781552896 P) (h0 : P s) : P (State.clockDown s) := by
  unfold State.clockDown
  try dsimp only
  repeat' first
    | with_reducible assumption | (with_reducible apply Closed.mono cl; decide) | (with_reducible apply State.put_keeps cl)
    | (with_reducible apply A.PORT_AN_STATUS_in; decide) | with_reducible apply each_keeps
    | with_reducible apply State.dropLink_keeps | with_reducible apply State.trvDown_keeps
    | with_reducible apply State.modLn_keeps | with_reducible apply State.trvClear_keeps | intro _ _ _ | intro _ _
    | with_reducible refine pair_keeps (by with_reducible assumption) ?_ | dsimp only | split

theorem State.holdOnIro_keeps {s : State} (cl : Closed 161410017199539753552128 P) (h0 : P s) : P (State.holdOnIro s) := by
  unfold State.holdOnIro
  try dsimp only
  repeat' first
    | with_reducible assumption | (with_reducible apply Closed.mono cl; decide) | (with_reducible apply State.put_keeps cl)
    | (with_reducible apply A.CLK_STATUS_in; decide) | with_reducible apply State.setLevel_keeps
    | with_reducible apply State.raise_keeps | with_reducible apply State.clockDown_keeps | with_reducible apply withPwr_keeps
    | with_reducible apply withClk_keeps | intro _ _ _ | intro _ _
    | with_reducible refine pair_keeps (by with_reducible assumption) ?_ | dsimp only | split

theorem State.restoreFold_keeps {s : State} (cl : Closed 678383262738453943679288 P) (h0 : P s) : P (State.restoreFold s) := by
  unfold State.restoreFold
  try dsimp only
  repeat' first
    | with_reducible assumption | (with_reducible apply Closed.mono cl; decide) | with_reducible apply State.runFold_keeps
    | with_reducible apply State.showStructure_keeps | with_reducible apply State.bootLayout_keeps
    | with_reducible apply each_keeps | with_reducible apply State.modPd_keeps | with_reducible apply State.flushKept_keeps
    | with_reducible apply State.dropStored_keeps | with_reducible apply State.applyLive_keeps
    | with_reducible apply State.startPorts_keeps | with_reducible apply State.fillCheck_keeps | intro _ _ _ | intro _ _
    | with_reducible refine pair_keeps (by with_reducible assumption) ?_ | dsimp only | split

theorem State.loseHref_keeps {s : State} (cl : Closed 224857974048352332032 P) (h0 : P s) : P (State.loseHref s) := by
  unfold State.loseHref
  try dsimp only
  repeat' first
    | with_reducible assumption | (with_reducible apply Closed.mono cl; decide) | (with_reducible apply State.count_keeps cl)
    | (with_reducible apply State.put_keeps cl) | (with_reducible apply A.CLK_HREF_TRIPS_in; decide)
    | (with_reducible apply A.CLK_STATUS_in; decide) | with_reducible apply State.enableIro_keeps
    | with_reducible apply State.raise_keeps | with_reducible apply each_keeps | with_reducible apply State.loseLane_keeps
    | intro _ _ _ | intro _ _ | with_reducible refine pair_keeps (by with_reducible assumption) ?_ | dsimp only | split

theorem State.clockReturn_keeps {s : State} (cl : Closed 905513410832715357356028 P) (h0 : P s) : P (State.clockReturn s) := by
  unfold State.clockReturn
  try dsimp only
  repeat' first
    | with_reducible assumption | (with_reducible apply Closed.mono cl; decide) | with_reducible apply State.serveQueues_keeps
    | with_reducible apply State.leaveSelfRefresh_keeps | with_reducible apply State.setLevel_keeps
    | with_reducible apply State.faultLanes_keeps | with_reducible apply State.restoreFold_keeps
    | with_reducible apply withClk_keeps | with_reducible apply State.startOwed_keeps
    | with_reducible apply State.restartPorts_keeps | with_reducible apply State.holdBypass_keeps
    | with_reducible apply State.stopIro_keeps | with_reducible apply State.raise_keeps
    | with_reducible apply State.resumeRings_keeps | with_reducible apply State.loseHref_keeps
    | with_reducible apply State.wakeNow_keeps | intro _ _ _ | intro _ _
    | with_reducible refine pair_keeps (by with_reducible assumption) ?_ | dsimp only | split

theorem State.lrefBack_keeps {s : State} {boot : Boot} (cl : Closed 905513410832715357356028 P) (h0 : P s) :
    P (State.lrefBack s boot) := by
  unfold State.lrefBack
  try dsimp only
  repeat' first
    | with_reducible assumption | (with_reducible apply Closed.mono cl; decide) | (with_reducible apply State.put_keeps cl)
    | (with_reducible apply A.CLK_STATUS_in; decide) | intro t e he ht
    | (simp only [List.mem_cons, List.not_mem_nil, or_false] at he) | (rcases he with he | he) | subst he
    | with_reducible apply State.coldStart_keeps | with_reducible apply withPwr_keeps
    | with_reducible apply State.finishStart_keeps | with_reducible apply State.countHold_keeps
    | with_reducible apply timeOn_keeps | with_reducible apply each_mem | with_reducible apply State.clockReturn_keeps
    | intro _ _ _ | intro _ _ | with_reducible refine pair_keeps (by with_reducible assumption) ?_ | dsimp only | split

theorem State.hrefBack_keeps {s : State} (cl : Closed 221360928884548304896 P) (h0 : P s) : P (State.hrefBack s) := by
  unfold State.hrefBack
  try dsimp only
  repeat' first
    | with_reducible assumption | (with_reducible apply Closed.mono cl; decide) | (with_reducible apply State.put_keeps cl)
    | (with_reducible apply A.CLK_STATUS_in; decide) | with_reducible apply State.stopIro_keeps
    | with_reducible apply withClk_keeps | with_reducible apply State.faultLanes_keeps | with_reducible apply each_keeps
    | with_reducible apply State.blindLane_keeps | intro _ _ _ | intro _ _
    | with_reducible refine pair_keeps (by with_reducible assumption) ?_ | dsimp only | split

theorem execOscillatorJudged_keeps {which : BitVec 2} {counts : List (BitVec 16)} {boot : Boot} {s : State} (cl : Closed 905513771120685546995708 P) (h0 : P s) :
    OutIs P (execOscillatorJudged which counts boot s) := by
  unfold execOscillatorJudged
  try dsimp only
  repeat' first
    | with_reducible assumption | (with_reducible apply Closed.mono cl; decide) | (with_reducible apply State.put_keeps cl)
    | (with_reducible apply A.CLK_STATUS_in; decide) | with_reducible apply State.holdOnIro_keeps
    | with_reducible apply State.coastEnd_keeps | with_reducible apply State.lrefBack_keeps
    | with_reducible apply State.hrefBack_keeps | with_reducible refine outIs_next ?_ | intro _ _ _ | intro _ _
    | with_reducible refine pair_keeps (by with_reducible assumption) ?_ | dsimp only | split

theorem execIroJudgeDeadline_keeps {s : State} (cl : Closed 264603558291834266451964 P) (h0 : P s) :
    OutIs P (execIroJudgeDeadline s) := by
  unfold execIroJudgeDeadline
  try dsimp only
  repeat' first
    | with_reducible assumption | (with_reducible apply Closed.mono cl; decide) | with_reducible apply State.clockLoss_keeps
    | with_reducible apply timeTo_keeps | with_reducible refine outIs_next ?_ | intro _ _ _ | intro _ _
    | with_reducible refine pair_keeps (by with_reducible assumption) ?_ | dsimp only | split

theorem execHrefclkTrip_keeps {s : State} (cl : Closed 224857974048352332032 P) (h0 : P s) : OutIs P (execHrefclkTrip s) := by
  unfold execHrefclkTrip
  try dsimp only
  repeat' first
    | with_reducible assumption | (with_reducible apply Closed.mono cl; decide) | with_reducible apply State.loseHref_keeps
    | with_reducible apply withClk_keeps | with_reducible refine outIs_next ?_ | intro _ _ _ | intro _ _
    | with_reducible refine pair_keeps (by with_reducible assumption) ?_ | dsimp only | split

theorem execXo32Accepted_keeps {counts : List (BitVec 16)} {s : State} (cl : Closed 147573952589676412928 P) (h0 : P s) :
    OutIs P (execXo32Accepted counts s) := by
  unfold execXo32Accepted
  try dsimp only
  repeat' first
    | with_reducible assumption | (with_reducible apply Closed.mono cl; decide) | (with_reducible apply State.put_keeps cl)
    | (with_reducible apply A.CLK_STATUS_in; decide) | with_reducible refine outIs_next ?_ | intro _ _ _ | intro _ _
    | with_reducible refine pair_keeps (by with_reducible assumption) ?_ | dsimp only | split

theorem execXo32Dropped_keeps {count : BitVec 16} {s : State} (cl : Closed 147573952589676412928 P) (h0 : P s) :
    OutIs P (execXo32Dropped count s) := by
  unfold execXo32Dropped
  try dsimp only
  repeat' first
    | with_reducible assumption | (with_reducible apply Closed.mono cl; decide) | (with_reducible apply State.put_keeps cl)
    | (with_reducible apply A.CLK_STATUS_in; decide) | with_reducible refine outIs_next ?_ | intro _ _ _ | intro _ _
    | with_reducible refine pair_keeps (by with_reducible assumption) ?_ | dsimp only | split

theorem execDebuggerAttach_keeps {s : State} (cl : Closed 905513771120685546995708 P) (h0 : P s) :
    OutIs P (execDebuggerAttach s) := by
  unfold execDebuggerAttach
  try dsimp only
  repeat' first
    | with_reducible assumption | (with_reducible apply Closed.mono cl; decide) | with_reducible apply State.showDebug_keeps
    | with_reducible apply withHerder_keeps | with_reducible apply State.refuseEntry_keeps | with_reducible refine outIs_next ?_
    | intro _ _ _ | intro _ _ | with_reducible refine pair_keeps (by with_reducible assumption) ?_ | dsimp only | split

theorem State.unhalt_keeps {s : State} (cl : Closed 65302248285112576 P) (h0 : P s) : P (State.unhalt s) := by
  unfold State.unhalt
  try dsimp only
  repeat' first
    | with_reducible assumption | (with_reducible apply Closed.mono cl; decide) | with_reducible apply State.startOwed_keeps
    | with_reducible apply State.haltEnds_keeps | intro _ _ _ | intro _ _
    | with_reducible refine pair_keeps (by with_reducible assumption) ?_ | dsimp only | split

theorem execDebuggerDetach_keeps {s : State} (cl : Closed 75557929028162608531712 P) (h0 : P s) :
    OutIs P (execDebuggerDetach s) := by
  unfold execDebuggerDetach
  try dsimp only
  repeat' first
    | with_reducible assumption | (with_reducible apply Closed.mono cl; decide) | with_reducible apply State.unhalt_keeps
    | with_reducible apply State.showDebug_keeps | with_reducible apply withHerder_keeps | with_reducible refine outIs_next ?_
    | intro _ _ _ | intro _ _ | with_reducible refine pair_keeps (by with_reducible assumption) ?_ | dsimp only | split

theorem execDebugHalt_keeps {s : State} (cl : Closed 77937644582029709281536 P) (h0 : P s) : OutIs P (execDebugHalt s) := by
  unfold execDebugHalt
  try dsimp only
  repeat' first
    | with_reducible assumption | (with_reducible apply Closed.mono cl; decide) | with_reducible apply State.showDebug_keeps
    | with_reducible apply withApply_keeps | with_reducible apply withHerder_keeps | with_reducible apply State.abandonRuns_keeps
    | with_reducible refine outIs_next ?_ | intro _ _ _ | intro _ _
    | with_reducible refine pair_keeps (by with_reducible assumption) ?_ | dsimp only | split

theorem execDebugResume_keeps {s : State} (cl : Closed 75557929028162608531712 P) (h0 : P s) : OutIs P (execDebugResume s) := by
  unfold execDebugResume
  try dsimp only
  repeat' first
    | with_reducible assumption | (with_reducible apply Closed.mono cl; decide) | with_reducible apply State.showDebug_keeps
    | with_reducible apply State.unhalt_keeps | with_reducible refine outIs_next ?_ | intro _ _ _ | intro _ _
    | with_reducible refine pair_keeps (by with_reducible assumption) ?_ | dsimp only | split

theorem execBoundaryScanEnter_keeps {byp : Byte} {s : State} (cl : Closed 905513771120685546995708 P) (h0 : P s) :
    OutIs P (execBoundaryScanEnter byp s) := by
  unfold execBoundaryScanEnter
  try dsimp only
  repeat' first
    | with_reducible assumption | (with_reducible apply Closed.mono cl; decide) | (with_reducible apply State.put_keeps cl)
    | (with_reducible apply A.CEN_STATUS_in; decide) | with_reducible apply withPins_keeps
    | with_reducible apply State.meetHold_keeps | with_reducible apply State.enterSelfRefresh_keeps
    | with_reducible apply State.pauseRings_keeps | with_reducible apply State.clockDown_keeps
    | with_reducible apply withClk_keeps | with_reducible refine outIs_next ?_ | intro _ _ _ | intro _ _
    | with_reducible refine pair_keeps (by with_reducible assumption) ?_ | dsimp only | split

theorem execBoundaryScanExit_keeps {s : State} (cl : Closed 905513410832715357356028 P) (h0 : P s) :
    OutIs P (execBoundaryScanExit s) := by
  unfold execBoundaryScanExit
  try dsimp only
  repeat' first
    | with_reducible assumption | (with_reducible apply Closed.mono cl; decide) | with_reducible apply State.releaseBypass_keeps
    | with_reducible apply withClk_keeps | with_reducible apply State.clockReturn_keeps | with_reducible refine outIs_next ?_
    | intro _ _ _ | intro _ _ | with_reducible refine pair_keeps (by with_reducible assumption) ?_ | dsimp only | split

end Sys2Proof.Machine
end

