-- ==== Sys2Proof/Laws/Keeps/Ctl.lean ====
section
/-!
SUPPORT. The updates that each operation of Machine/Ctl.lean makes: one law for each.
-/
namespace Sys2Proof.Machine

variable {P : State → Prop}

theorem State.bar2Get_keeps {s : State} {off : Nat} {len : Nat} (cl : Closed 40203712686581445421312 P) (h0 : P s) :
    P (State.bar2Get s off len) := by
  unfold State.bar2Get
  try dsimp only
  repeat' first
    | with_reducible assumption | (with_reducible apply Closed.mono cl; decide) | with_reducible apply State.emit_keeps
    | with_reducible apply State.raise_keeps | with_reducible apply State.stackGet_keeps | intro _ _ _ | intro _ _
    | with_reducible refine pair_keeps (by with_reducible assumption) ?_ | dsimp only | split

theorem State.bar2Put_keeps {s : State} {off : Nat} {d : List (Option Byte)} (cl : Closed 3461016366784997632 P) (h0 : P s) :
    P (State.bar2Put s off d) := by
  unfold State.bar2Put
  try dsimp only
  repeat' first
    | with_reducible assumption | (with_reducible apply Closed.mono cl; decide) | (with_reducible apply State.count_keeps cl)
    | (with_reducible apply A.MEM_FENCED_REQ_in; decide) | with_reducible apply State.raise_keeps
    | with_reducible apply each_keeps | with_reducible apply State.answerFenced_keeps
    | with_reducible apply State.writeUnit_keeps | intro _ _ _ | intro _ _
    | with_reducible refine pair_keeps (by with_reducible assumption) ?_ | dsimp only | split

theorem execBar2Read_keeps {off : BitVec 26} {len : Nat} {s : State} (cl : Closed 40203712686581445421312 P) (h0 : P s) :
    OutIs P (execBar2Read off len s) := by
  unfold execBar2Read
  try dsimp only
  repeat' first
    | with_reducible assumption | (with_reducible apply Closed.mono cl; decide) | with_reducible apply State.bar_keeps
    | with_reducible apply State.bar2Get_keeps | with_reducible refine outIs_next ?_ | with_reducible exact outIs_fault _
    | intro _ _ _ | intro _ _ | with_reducible refine pair_keeps (by with_reducible assumption) ?_ | dsimp only | split

theorem execBar2Write_keeps {off : BitVec 26} {data : List (Option (BitVec 8))} {s : State} (cl : Closed 3461016366784997632 P) (h0 : P s) :
    OutIs P (execBar2Write off data s) := by
  unfold execBar2Write
  try dsimp only
  repeat' first
    | with_reducible assumption | (with_reducible apply Closed.mono cl; decide) | with_reducible apply State.bar_keeps
    | with_reducible apply State.bar2Put_keeps | with_reducible refine outIs_next ?_ | with_reducible exact outIs_fault _
    | intro _ _ _ | intro _ _ | with_reducible refine pair_keeps (by with_reducible assumption) ?_ | dsimp only | split

theorem State.perst_keeps {s : State} (cl : Closed 75557866822158395677568 P) (h0 : P s) : P (State.perst s) := by
  unfold State.perst
  try dsimp only
  repeat' first
    | with_reducible assumption | (with_reducible apply Closed.mono cl; decide)
    | (with_reducible apply State.dropWords_keeps A.MSIX_TABLE_range cl (by decide))
    | (with_reducible apply State.putWide_keeps cl) | (with_reducible apply A.DEV_BAR2_WIN_in; decide)
    | (with_reducible apply A.DEV_BAR2_WIN_in4; decide) | with_reducible apply withPci_keeps
    | with_reducible apply State.endSession_keeps | with_reducible apply State.voidChallenge_keeps | intro _ _ _ | intro _ _
    | with_reducible refine pair_keeps (by with_reducible assumption) ?_ | dsimp only | split

theorem execPerstN_keeps {low : Bool} {s : State} (cl : Closed 75557866822158395677568 P) (h0 : P s) :
    OutIs P (execPerstN low s) := by
  unfold execPerstN
  try dsimp only
  repeat' first
    | with_reducible assumption | (with_reducible apply Closed.mono cl; decide) | with_reducible apply State.perst_keeps
    | with_reducible apply withPci_keeps | with_reducible refine outIs_next ?_ | intro _ _ _ | intro _ _
    | with_reducible refine pair_keeps (by with_reducible assumption) ?_ | dsimp only | split

theorem execConfigurationWrite_keeps {d3hot : Bool} {msixEn : Bool} {funcMask : Bool} {s : State} (cl : Closed 17179869952 P) (h0 : P s) :
    OutIs P (execConfigurationWrite d3hot msixEn funcMask s) := by
  unfold execConfigurationWrite
  try dsimp only
  repeat' first
    | with_reducible assumption | (with_reducible apply Closed.mono cl; decide) | with_reducible apply State.sendAllOwed_keeps
    | with_reducible apply withPci_keeps | with_reducible refine outIs_next ?_ | intro _ _ _ | intro _ _
    | with_reducible refine pair_keeps (by with_reducible assumption) ?_ | dsimp only | split

theorem execControlPortLinkUp_keeps {s : State} (cl : Closed 17179869952 P) (h0 : P s) : OutIs P (execControlPortLinkUp s) := by
  unfold execControlPortLinkUp
  try dsimp only
  repeat' first
    | with_reducible assumption | (with_reducible apply Closed.mono cl; decide) | with_reducible apply State.sendAllOwed_keeps
    | with_reducible apply withPci_keeps | with_reducible refine outIs_next ?_ | intro _ _ _ | intro _ _
    | with_reducible refine pair_keeps (by with_reducible assumption) ?_ | dsimp only | split

theorem State.ieeeGet_keeps {s : State} {n : Nat} {mmd : Nat} {reg : Nat} (cl : Closed 34359738368 P) (h0 : P s) :
    P (State.ieeeGet s n mmd reg).1 := by
  unfold State.ieeeGet
  try dsimp only
  repeat' first
    | with_reducible assumption | (with_reducible apply Closed.mono cl; decide) | with_reducible apply State.drawn_keeps
    | intro _ _ _ | intro _ _ | with_reducible refine pair_keeps (by with_reducible assumption) ?_ | dsimp only | split

theorem State.mdioGet_keeps {s : State} {n : Nat} {mmd : Nat} {reg : Nat} (cl : Closed 34359739392 P) (h0 : P s) :
    P (State.mdioGet s n mmd reg).1 := by
  unfold State.mdioGet
  try dsimp only
  repeat' first
    | with_reducible assumption | (with_reducible apply Closed.mono cl; decide) | with_reducible apply withMdio_keeps
    | with_reducible apply State.ieeeGet_keeps | with_reducible apply State.drawn_keeps | intro _ _ _ | intro _ _
    | with_reducible refine pair_keeps (by with_reducible assumption) ?_ | dsimp only | split

theorem execMdioRead_keeps {port : BitVec 5} {mmd : BitVec 5} {reg : BitVec 16} {s : State} (cl : Closed 51539608576 P) (h0 : P s) :
    OutIs P (execMdioRead port mmd reg s) := by
  unfold execMdioRead
  try dsimp only
  repeat' first
    | with_reducible assumption | (with_reducible apply Closed.mono cl; decide) | with_reducible apply State.mdioGet_keeps
    | with_reducible apply State.emit_keeps | with_reducible refine outIs_next ?_ | intro _ _ _ | intro _ _
    | with_reducible refine pair_keeps (by with_reducible assumption) ?_ | dsimp only | split

theorem State.mdioPort_keeps {s : State} {n : Nat} {v : BitVec 16} (cl : Closed 200838923850768808143104 P) (h0 : P s) :
    P (State.mdioPort s n v) := by
  unfold State.mdioPort
  try dsimp only
  repeat' first
    | with_reducible assumption | (with_reducible apply Closed.mono cl; decide) | with_reducible apply State.writePortMode_keeps
    | intro _ _ _ | intro _ _ | with_reducible refine pair_keeps (by with_reducible assumption) ?_ | dsimp only | split

theorem State.ieeePut_keeps {s : State} {n : Nat} {mmd : Nat} {reg : Nat} {v : BitVec 16} (cl : Closed 200838923850768808144128 P) (h0 : P s) :
    P (State.ieeePut s n mmd reg v) := by
  unfold State.ieeePut
  try dsimp only
  repeat' first
    | with_reducible assumption | (with_reducible apply Closed.mono cl; decide) | with_reducible apply withMdio_keeps
    | with_reducible apply State.writePortMode_keeps | intro _ _ _ | intro _ _
    | with_reducible refine pair_keeps (by with_reducible assumption) ?_ | dsimp only | split

theorem execMdioWrite_keeps {port : BitVec 5} {mmd : BitVec 5} {reg : BitVec 16} {val : BitVec 16} {s : State} (cl : Closed 200838924132243784854784 P) (h0 : P s) :
    OutIs P (execMdioWrite port mmd reg val s) := by
  unfold execMdioWrite
  try dsimp only
  repeat' first
    | with_reducible assumption | (with_reducible apply Closed.mono cl; decide) | (with_reducible apply State.count_keeps cl)
    | (with_reducible apply A.DEV_MDIO_DENIED_in; decide) | with_reducible apply State.raise_keeps
    | with_reducible apply State.mdioPort_keeps | with_reducible apply State.ieeePut_keeps | with_reducible refine outIs_next ?_
    | intro _ _ _ | intro _ _ | with_reducible refine pair_keeps (by with_reducible assumption) ?_ | dsimp only | split

end Sys2Proof.Machine
end

