-- ==== Sys2Proof/Laws/Keeps/Diag.lean ====
section
/-!
SUPPORT. The updates that each operation of Machine/Diag.lean makes: one law for each.
-/
namespace Sys2Proof.Machine

variable {P : State → Prop}

theorem State.diagResult_keeps {s : State} {n : Nat} {kind : Nat} {reduced : Bool} {base : Bool} {thresh : Nat} {evs : List (Nat × Bool × Nat)} (cl : Closed 146367005069412616 P) (h0 : P s) :
    P (State.diagResult s n kind reduced base thresh evs) := by
  unfold State.diagResult
  try dsimp only
  repeat' first
    | with_reducible assumption | (with_reducible apply Closed.mono cl; decide) | (with_reducible apply putWord_keeps cl)
    | (with_reducible apply State.put_keeps cl) | (with_reducible apply A.PORT_DIAG_EVT_in; decide)
    | (with_reducible apply A.PORT_DIAG_BASE_in; decide) | (with_reducible apply A.PORT_DIAG_STATE_in; decide) | intro t e he ht
    | (simp only [List.mem_cons, List.not_mem_nil, or_false] at he) | (rcases he with he | he) | subst he
    | with_reducible apply each_mem | with_reducible apply withNv_keeps | with_reducible apply State.raise_keeps | intro _ _ _
    | intro _ _ | with_reducible refine pair_keeps (by with_reducible assumption) ?_ | dsimp only | split

theorem State.diagEnd_keeps {s : State} {k : Nat} {n : Nat} {kind : Nat} {cover : Nat} {reduced : Bool} {nvFail : Bool} {echo : Echo} (cl : Closed 3609635154488224008 P) (h0 : P s) :
    P (State.diagEnd s k n kind cover reduced nvFail echo) := by
  unfold State.diagEnd
  try dsimp only
  repeat' first
    | with_reducible assumption | (with_reducible apply Closed.mono cl; decide) | with_reducible apply State.diagResult_keeps
    | with_reducible apply State.stackPut_keeps | with_reducible apply State.complete_keeps | intro _ _ _ | intro _ _
    | with_reducible refine pair_keeps (by with_reducible assumption) ?_ | dsimp only | split

theorem State.sweepRuns_keeps {s : State} {n : Nat} {d : Diag} {quiet : Nat} {echo : Echo} {nvFail : Bool} (cl : Closed 3609635154505296136 P) (h0 : P s) :
    P (State.sweepRuns s n d quiet echo nvFail) := by
  unfold State.sweepRuns
  try dsimp only
  repeat' first
    | with_reducible assumption | (with_reducible apply Closed.mono cl; decide) | with_reducible apply State.emit_keeps
    | with_reducible apply State.diagEnd_keeps | with_reducible apply State.endSweeps_keeps
    | with_reducible apply State.abortDiag_keeps | with_reducible apply withDiag_keeps | with_reducible apply State.drawn_keeps
    | intro _ _ _ | intro _ _ | with_reducible refine pair_keeps (by with_reducible assumption) ?_ | dsimp only | split

theorem execDiagReflect_keeps {slot : BitVec 6} {quiet : BitVec 5} {echo : Echo} {nvFail : Bool} {s : State} (cl : Closed 2383239620663045843272 P) (h0 : P s) :
    OutIs P (execDiagReflect slot quiet echo nvFail s) := by
  unfold execDiagReflect
  try dsimp only
  repeat' first
    | with_reducible assumption | (with_reducible apply Closed.mono cl; decide) | (with_reducible apply State.put_keeps cl)
    | (with_reducible apply A.PORT_DIAG_STATE_in; decide) | with_reducible apply State.complete_keeps
    | with_reducible apply withDiag_keeps | with_reducible apply State.abandonCal_keeps | with_reducible apply State.begin_keeps
    | with_reducible apply State.sweepRuns_keeps | with_reducible refine outIs_next ?_ | intro _ _ _ | intro _ _
    | with_reducible refine pair_keeps (by with_reducible assumption) ?_ | dsimp only | split

theorem execSweepListenRetry_keeps {port : BitVec 4} {quiet : BitVec 5} {echo : Echo} {nvFail : Bool} {s : State} (cl : Closed 3609635291944249608 P) (h0 : P s) :
    OutIs P (execSweepListenRetry port quiet echo nvFail s) := by
  unfold execSweepListenRetry
  try dsimp only
  repeat' first
    | with_reducible assumption | (with_reducible apply Closed.mono cl; decide) | with_reducible apply State.sweepRuns_keeps
    | with_reducible apply timeTo_keeps | with_reducible refine outIs_next ?_ | intro _ _ _ | intro _ _
    | with_reducible refine pair_keeps (by with_reducible assumption) ?_ | dsimp only | split

theorem execDiagPassive_keeps {slot : BitVec 6} {echo : Echo} {nvFail : Bool} {s : State} (cl : Closed 2383239620663028771080 P) (h0 : P s) :
    OutIs P (execDiagPassive slot echo nvFail s) := by
  unfold execDiagPassive
  try dsimp only
  repeat' first
    | with_reducible assumption | (with_reducible apply Closed.mono cl; decide) | with_reducible apply State.complete_keeps
    | with_reducible apply State.diagEnd_keeps | with_reducible apply State.abandonCal_keeps
    | with_reducible refine outIs_next ?_ | intro _ _ _ | intro _ _
    | with_reducible refine pair_keeps (by with_reducible assumption) ?_ | dsimp only | split

theorem execCableCheckPeriod_keeps {port : BitVec 4} {echo : Echo} {s : State} (cl : Closed 2379780856113237330184 P) (h0 : P s) :
    OutIs P (execCableCheckPeriod port echo s) := by
  unfold execCableCheckPeriod
  try dsimp only
  repeat' first
    | with_reducible assumption | (with_reducible apply Closed.mono cl; decide) | with_reducible apply State.diagResult_keeps
    | with_reducible apply State.abandonCal_keeps | with_reducible refine outIs_next ?_ | intro _ _ _ | intro _ _
    | with_reducible refine pair_keeps (by with_reducible assumption) ?_ | dsimp only | split

end Sys2Proof.Machine
end

