-- ==== Sys2Proof/Laws/Keeps/Exec.lean ====
section
/-!
SUPPORT. The updates that commands make: every command, all but the power-on reset, and what arrives on pairs and lanes.
-/
namespace Sys2Proof.Machine

variable {P : State → Prop} {s : State}

/-- A property that every kind of update keeps is kept by every command. -/
theorem exec_keeps (i : Instr) (cl : Closed 1208925819334184990146556 P) (h0 : P s) : OutIs P (exec i s) := by
  cases i with
  | registerWrite => exact execRegisterWrite_keeps (cl.mono (by decide)) h0
  | readClear => exact execReadClear_keeps (cl.mono (by decide)) h0
  | wideLowWordRead => exact execWideLowWordRead_keeps (cl.mono (by decide)) h0
  | cmdSubmit => exact execCmdSubmit_keeps (cl.mono (by decide)) h0
  | cmdStart => exact execCmdStart_keeps (cl.mono (by decide)) h0
  | cmdCqConsWrite => exact execCmdCqConsWrite_keeps (cl.mono (by decide)) h0
  | unknownOpcode => exact execUnknownOpcode_keeps (cl.mono (by decide)) h0
  | foldLoad => exact execFoldLoad_keeps (cl.mono (by decide)) h0
  | structuralApplyStage => exact execStructuralApplyStage_keeps (cl.mono (by decide)) h0
  | foldLoadCompletion => exact execFoldLoadCompletion_keeps (cl.mono (by decide)) h0
  | foldCommit => exact execFoldCommit_keeps (cl.mono (by decide)) h0
  | pisteLoad => exact execPisteLoad_keeps (cl.mono (by decide)) h0
  | pisteSave => exact execPisteSave_keeps (cl.mono (by decide)) h0
  | posFix => exact execPosFix_keeps (cl.mono (by decide)) h0
  | calRun => exact execCalRun_keeps (cl.mono (by decide)) h0
  | calSave => exact execCalSave_keeps (cl.mono (by decide)) h0
  | calRestore => exact execCalRestore_keeps (cl.mono (by decide)) h0
  | diagReflect => exact execDiagReflect_keeps (cl.mono (by decide)) h0
  | diagPassive => exact execDiagPassive_keeps (cl.mono (by decide)) h0
  | memRepairSpareRow => exact execMemRepairSpareRow_keeps (cl.mono (by decide)) h0
  | memRepairSteerTsv => exact execMemRepairSteerTsv_keeps (cl.mono (by decide)) h0
  | memRepairReturn => exact execMemRepairReturn_keeps (cl.mono (by decide)) h0
  | memRetrain => exact execMemRetrain_keeps (cl.mono (by decide)) h0
  | memRelease => exact execMemRelease_keeps (cl.mono (by decide)) h0
  | evidTrigger => exact execEvidTrigger_keeps (cl.mono (by decide)) h0
  | evidExport => exact execEvidExport_keeps (cl.mono (by decide)) h0
  | evidRelease => exact execEvidRelease_keeps (cl.mono (by decide)) h0
  | pwrState => exact execPwrState_keeps (cl.mono (by decide)) h0
  | portDisable => exact execPortDisable_keeps (cl.mono (by decide)) h0
  | sessionOpen => exact execSessionOpen_keeps (cl.mono (by decide)) h0
  | sessionClose => exact execSessionClose_keeps (cl.mono (by decide)) h0
  | lcAdvance => exact execLcAdvance_keeps (cl.mono (by decide)) h0
  | fwStage => exact execFwStage_keeps (cl.mono (by decide)) h0
  | fwCommit => exact execFwCommit_keeps (cl.mono (by decide)) h0
  | lifecycleReset => exact execLifecycleReset_keeps (cl.mono (by decide)) h0
  | portEnable => exact execPortEnable_keeps (cl.mono (by decide)) h0
  | portModeDisable => exact execPortModeDisable_keeps (cl.mono (by decide)) h0
  | portModeRestart => exact execPortModeRestart_keeps (cl.mono (by decide)) h0
  | portCustomWrite => exact execPortCustomWrite_keeps (cl.mono (by decide)) h0
  | trimWrite => exact execTrimWrite_keeps (cl.mono (by decide)) h0
  | pisteEntryCommit => exact execPisteEntryCommit_keeps (cl.mono (by decide)) h0
  | pisteEntryRead => exact execPisteEntryRead_keeps (cl.mono (by decide)) h0
  | portBellGo => exact execPortBellGo_keeps (cl.mono (by decide)) h0
  | bellSend => exact execBellSend_keeps (cl.mono (by decide)) h0
  | memFlipArm => exact execMemFlipArm_keeps (cl.mono (by decide)) h0
  | tstManGo => exact execTstManGo_keeps (cl.mono (by decide)) h0
  | evidRingCfgWrite => exact execEvidRingCfgWrite_keeps (cl.mono (by decide)) h0
  | cenSelWrite => exact execCenSelWrite_keeps (cl.mono (by decide)) h0
  | evtForce => exact execEvtForce_keeps (cl.mono (by decide)) h0
  | newChal => exact execNewChal_keeps (cl.mono (by decide)) h0
  | keyRead => exact execKeyRead_keeps (cl.mono (by decide)) h0
  | keyEnrol => exact execKeyEnrol_keeps (cl.mono (by decide)) h0
  | keyRevoke => exact execKeyRevoke_keeps (cl.mono (by decide)) h0
  | identityChallenge => exact execIdentityChallenge_keeps (cl.mono (by decide)) h0
  | softReset => exact execSoftReset_keeps (cl.mono (by decide)) h0
  | bar2Read => exact execBar2Read_keeps (cl.mono (by decide)) h0
  | bar2Write => exact execBar2Write_keeps (cl.mono (by decide)) h0
  | mdioRead => exact execMdioRead_keeps (cl.mono (by decide)) h0
  | mdioWrite => exact execMdioWrite_keeps (cl.mono (by decide)) h0
  | perstN => exact execPerstN_keeps (cl.mono (by decide)) h0
  | hostFrameReceived => exact execHostFrameReceived_keeps (cl.mono (by decide)) h0
  | hostPauseFrame => exact execHostPauseFrame_keeps (cl.mono (by decide)) h0
  | hostPauseExpiry => exact execHostPauseExpiry_keeps (cl.mono (by decide)) h0
  | xoffRefresh => exact execXoffRefresh_keeps (cl.mono (by decide)) h0
  | laneLoss => exact execLaneLoss_keeps (cl.mono (by decide)) h0
  | laneRelock => exact execLaneRelock_keeps (cl.mono (by decide)) h0
  | symbolReceived => exact execSymbolReceived_keeps (cl.mono (by decide)) h0
  | erasureEventEnd => exact execErasureEventEnd_keeps (cl.mono (by decide)) h0
  | superframeBoundary => exact execSuperframeBoundary_keeps (cl.mono (by decide)) h0
  | serviceStart => exact execServiceStart_keeps (cl.mono (by decide)) h0
  | codewordSlot => exact execCodewordSlot_keeps (cl.mono (by decide)) h0
  | lotReceived => exact execLotReceived_keeps (cl.mono (by decide)) h0
  | ackWord => exact execAckWord_keeps (cl.mono (by decide)) h0
  | nakWord => exact execNakWord_keeps (cl.mono (by decide)) h0
  | nakWaitExpiry => exact execNakWaitExpiry_keeps (cl.mono (by decide)) h0
  | swapAnnounce => exact execSwapAnnounce_keeps (cl.mono (by decide)) h0
  | swapConfirm port dir kind arg sf => exact execSwapConfirm_keeps (_arg := arg) (cl.mono (by decide)) h0
  | swapReject port dir kind arg sf => exact execSwapReject_keeps (_arg := arg) (cl.mono (by decide)) h0
  | swapCancel port dir kind arg sf => exact execSwapCancel_keeps (_arg := arg) (cl.mono (by decide)) h0
  | swapConfirmDeadline => exact execSwapConfirmDeadline_keeps (cl.mono (by decide)) h0
  | loadingChangeAtS => exact execLoadingChangeAtS_keeps (cl.mono (by decide)) h0
  | bitSwapRequest => exact execBitSwapRequest_keeps (cl.mono (by decide)) h0
  | profileSwapAnnounce => exact execProfileSwapAnnounce_keeps (cl.mono (by decide)) h0
  | toneCapAnnounce => exact execToneCapAnnounce_keeps (cl.mono (by decide)) h0
  | vectorJoinEnd => exact execVectorJoinEnd_keeps (cl.mono (by decide)) h0
  | msgAck => exact execMsgAck_keeps (cl.mono (by decide)) h0
  | eocResendTimeout => exact execEocResendTimeout_keeps (cl.mono (by decide)) h0
  | eocReservedMsg => exact execEocReservedMsg_keeps (cl.mono (by decide)) h0
  | trainSync => exact execTrainSync_keeps (cl.mono (by decide)) h0
  | trainStart => exact execTrainStart_keeps (cl.mono (by decide)) h0
  | warmCheck => exact execWarmCheck_keeps (cl.mono (by decide)) h0
  | linkDown port cause warm => exact execLinkDown_keeps (_cause := cause) (cl.mono (by decide)) h0
  | status port rxMin rxAvg lost => exact execStatus_keeps (_lost := lost) (cl.mono (by decide)) h0
  | lpiEnter => exact execLpiEnter_keeps (cl.mono (by decide)) h0
  | lpiWake => exact execLpiWake_keeps (cl.mono (by decide)) h0
  | rateCap => exact execRateCap_keeps (cl.mono (by decide)) h0
  | loadingUpdate => exact execLoadingUpdate_keeps (cl.mono (by decide)) h0
  | capUpdate => exact execCapUpdate_keeps (cl.mono (by decide)) h0
  | customDef => exact execCustomDef_keeps (cl.mono (by decide)) h0
  | vecError port sf errors => exact execVecError_keeps (_errors := errors) (cl.mono (by decide)) h0
  | ident => exact execIdent_keeps (cl.mono (by decide)) h0
  | identProof => exact execIdentProof_keeps (cl.mono (by decide)) h0
  | padParams port seq rxLots txLots boosted => exact execPadParams_keeps (_boosted := boosted) (cl.mono (by decide)) h0
  | padResume => exact execPadResume_keeps (cl.mono (by decide)) h0
  | padVoid => exact execPadVoid_keeps (cl.mono (by decide)) h0
  | pisteLead port claim fixValid stopped route pos speed => exact execPisteLead_keeps (_fixValid := fixValid) (_stopped := stopped) (_route := route) (_pos := pos) (_speed := speed) (cl.mono (by decide)) h0
  | anComplete => exact execAnComplete_keeps (cl.mono (by decide)) h0
  | trainingPhaseEnd => exact execTrainingPhaseEnd_keeps (cl.mono (by decide)) h0
  | trainingPhaseLate => exact execTrainingPhaseLate_keeps (cl.mono (by decide)) h0
  | partnerWaitTimeout => exact execPartnerWaitTimeout_keeps (cl.mono (by decide)) h0
  | partnerSignalDetected => exact execPartnerSignalDetected_keeps (cl.mono (by decide)) h0
  | warmCheckTimeout => exact execWarmCheckTimeout_keeps (cl.mono (by decide)) h0
  | warmHoldExpiry => exact execWarmHoldExpiry_keeps (cl.mono (by decide)) h0
  | lossOfSync => exact execLossOfSync_keeps (cl.mono (by decide)) h0
  | marginDownTimeout => exact execMarginDownTimeout_keeps (cl.mono (by decide)) h0
  | marginLowTimeout => exact execMarginLowTimeout_keeps (cl.mono (by decide)) h0
  | echoLowTimeout => exact execEchoLowTimeout_keeps (cl.mono (by decide)) h0
  | legacyLinkFail => exact execLegacyLinkFail_keeps (cl.mono (by decide)) h0
  | ilmSuppressExpiry => exact execIlmSuppressExpiry_keeps (cl.mono (by decide)) h0
  | lpiIdleTimeout => exact execLpiIdleTimeout_keeps (cl.mono (by decide)) h0
  | legacyLpiIdle => exact execLegacyLpiIdle_keeps (cl.mono (by decide)) h0
  | linkreq => exact execLinkreq_keeps (cl.mono (by decide)) h0
  | linkacc => exact execLinkacc_keeps (cl.mono (by decide)) h0
  | linkcfm => exact execLinkcfm_keeps (cl.mono (by decide)) h0
  | dataBurst => exact execDataBurst_keeps (cl.mono (by decide)) h0
  | tokenBurst => exact execTokenBurst_keeps (cl.mono (by decide)) h0
  | identBurst => exact execIdentBurst_keeps (cl.mono (by decide)) h0
  | proofBurst => exact execProofBurst_keeps (cl.mono (by decide)) h0
  | leave => exact execLeave_keeps (cl.mono (by decide)) h0
  | preambleDetected => exact execPreambleDetected_keeps (cl.mono (by decide)) h0
  | falseDetection => exact execFalseDetection_keeps (cl.mono (by decide)) h0
  | shadowRestart => exact execShadowRestart_keeps (cl.mono (by decide)) h0
  | burstTruncated => exact execBurstTruncated_keeps (cl.mono (by decide)) h0
  | turnStart => exact execTurnStart_keeps (cl.mono (by decide)) h0
  | tokenReclaim => exact execTokenReclaim_keeps (cl.mono (by decide)) h0
  | linkreqRetry => exact execLinkreqRetry_keeps (cl.mono (by decide)) h0
  | acquisitionTimeout => exact execAcquisitionTimeout_keeps (cl.mono (by decide)) h0
  | trvLossTimeout => exact execTrvLossTimeout_keeps (cl.mono (by decide)) h0
  | searchExpiry => exact execSearchExpiry_keeps (cl.mono (by decide)) h0
  | trvAfterExpiry => exact execTrvAfterExpiry_keeps (cl.mono (by decide)) h0
  | bellAccepted => exact execBellAccepted_keeps (cl.mono (by decide)) h0
  | odometerEdge => exact execOdometerEdge_keeps (cl.mono (by decide)) h0
  | positionTick => exact execPositionTick_keeps (cl.mono (by decide)) h0
  | holdTimeout => exact execHoldTimeout_keeps (cl.mono (by decide)) h0
  | stoppedTimeout => exact execStoppedTimeout_keeps (cl.mono (by decide)) h0
  | fixAgeExpiry => exact execFixAgeExpiry_keeps (cl.mono (by decide)) h0
  | pisteEngineTick => exact execPisteEngineTick_keeps (cl.mono (by decide)) h0
  | learningRecord => exact execLearningRecord_keeps (cl.mono (by decide)) h0
  | passUpdate => exact execPassUpdate_keeps (cl.mono (by decide)) h0
  | autosave => exact execAutosave_keeps (cl.mono (by decide)) h0
  | sweepListenRetry => exact execSweepListenRetry_keeps (cl.mono (by decide)) h0
  | cableCheckPeriod => exact execCableCheckPeriod_keeps (cl.mono (by decide)) h0
  | calUnitStart => exact execCalUnitStart_keeps (cl.mono (by decide)) h0
  | calStageEnd => exact execCalStageEnd_keeps (cl.mono (by decide)) h0
  | memRequest => exact execMemRequest_keeps (cl.mono (by decide)) h0
  | memCmdParityError => exact execMemCmdParityError_keeps (cl.mono (by decide)) h0
  | refreshDue => exact execRefreshDue_keeps (cl.mono (by decide)) h0
  | tallyPeriodEnd => exact execTallyPeriodEnd_keeps (cl.mono (by decide)) h0
  | pageIdleExpiry => exact execPageIdleExpiry_keeps (cl.mono (by decide)) h0
  | lameWindow => exact execLameWindow_keeps (cl.mono (by decide)) h0
  | gleanerRow => exact execGleanerRow_keeps (cl.mono (by decide)) h0
  | lapAlarm => exact execLapAlarm_keeps (cl.mono (by decide)) h0
  | autoRepair => exact execAutoRepair_keeps (cl.mono (by decide)) h0
  | freezeAutoRelease => exact execFreezeAutoRelease_keeps (cl.mono (by decide)) h0
  | drowsePowerDown => exact execDrowsePowerDown_keeps (cl.mono (by decide)) h0
  | droverPeriod => exact execDroverPeriod_keeps (cl.mono (by decide)) h0
  | plRaiseSettle => exact execPlRaiseSettle_keeps (cl.mono (by decide)) h0
  | sensorRead => exact execSensorRead_keeps (cl.mono (by decide)) h0
  | thermalTrip => exact execThermalTrip_keeps (cl.mono (by decide)) h0
  | herderWatchdogExpiry => exact execHerderWatchdogExpiry_keeps (cl.mono (by decide)) h0
  | penEntryWait => exact execPenEntryWait_keeps (cl.mono (by decide)) h0
  | winterAfterExpiry => exact execWinterAfterExpiry_keeps (cl.mono (by decide)) h0
  | wakeN => exact execWakeN_keeps (cl.mono (by decide)) h0
  | linkEnergy => exact execLinkEnergy_keeps (cl.mono (by decide)) h0
  | pcieWake => exact execPcieWake_keeps (cl.mono (by decide)) h0
  | odometerWake => exact execOdometerWake_keeps (cl.mono (by decide)) h0
  | pwrTimerExpiry => exact execPwrTimerExpiry_keeps (cl.mono (by decide)) h0
  | coreOffTimeEnd => exact execCoreOffTimeEnd_keeps (cl.mono (by decide)) h0
  | penReturnStep => exact execPenReturnStep_keeps (cl.mono (by decide)) h0
  | clockGateRequest => exact execClockGateRequest_keeps (cl.mono (by decide)) h0
  | gateAckTimeout => exact execGateAckTimeout_keeps (cl.mono (by decide)) h0
  | lrefclkTrip => exact execLrefclkTrip_keeps (cl.mono (by decide)) h0
  | clockHoldCoastEnd => exact execClockHoldCoastEnd_keeps (cl.mono (by decide)) h0
  | hrefclkTrip => exact execHrefclkTrip_keeps (cl.mono (by decide)) h0
  | oscillatorJudged => exact execOscillatorJudged_keeps (cl.mono (by decide)) h0
  | iroJudgeDeadline => exact execIroJudgeDeadline_keeps (cl.mono (by decide)) h0
  | xo32Accepted => exact execXo32Accepted_keeps (cl.mono (by decide)) h0
  | xo32Dropped => exact execXo32Dropped_keeps (cl.mono (by decide)) h0
  | powerOnReset => exact execPowerOnReset_keeps (cl.mono (by decide)) h0
  | supplyFault => exact execSupplyFault_keeps (cl.mono (by decide)) h0
  | resetPin => exact execResetPin_keeps (cl.mono (by decide)) h0
  | debugReset => exact execDebugReset_keeps (cl.mono (by decide)) h0
  | debugHalt => exact execDebugHalt_keeps (cl.mono (by decide)) h0
  | debugResume => exact execDebugResume_keeps (cl.mono (by decide)) h0
  | boundaryScanEnter => exact execBoundaryScanEnter_keeps (cl.mono (by decide)) h0
  | boundaryScanExit => exact execBoundaryScanExit_keeps (cl.mono (by decide)) h0
  | sessionExpiry => exact execSessionExpiry_keeps (cl.mono (by decide)) h0
  | challengeExpiry => exact execChallengeExpiry_keeps (cl.mono (by decide)) h0
  | lockoutEnd => exact execLockoutEnd_keeps (cl.mono (by decide)) h0
  | rotationSwap => exact execRotationSwap_keeps (cl.mono (by decide)) h0
  | sliceTestEnd => exact execSliceTestEnd_keeps (cl.mono (by decide)) h0
  | srSegment => exact execSrSegment_keeps (cl.mono (by decide)) h0
  | sliceCheckerFired => exact execSliceCheckerFired_keeps (cl.mono (by decide)) h0
  | rotationOverdue => exact execRotationOverdue_keeps (cl.mono (by decide)) h0
  | drainEnd => exact execDrainEnd_keeps (cl.mono (by decide)) h0
  | evtTrigPin => exact execEvtTrigPin_keeps (cl.mono (by decide)) h0
  | segmentFreeze => exact execSegmentFreeze_keeps (cl.mono (by decide)) h0
  | censusLatch => exact execCensusLatch_keeps (cl.mono (by decide)) h0
  | legacyLinkUp => exact execLegacyLinkUp_keeps (cl.mono (by decide)) h0
  | legacyFrameReceived => exact execLegacyFrameReceived_keeps (cl.mono (by decide)) h0
  | herderRunningAgain => exact execHerderRunningAgain_keeps (cl.mono (by decide)) h0
  | freezeRecordRead => exact execFreezeRecordRead_keeps (cl.mono (by decide)) h0
  | configurationWrite => exact execConfigurationWrite_keeps (cl.mono (by decide)) h0
  | controlPortLinkUp => exact execControlPortLinkUp_keeps (cl.mono (by decide)) h0
  | debuggerAttach => exact execDebuggerAttach_keeps (cl.mono (by decide)) h0
  | debuggerDetach => exact execDebuggerDetach_keeps (cl.mono (by decide)) h0
  | trvHeaderDiscard => exact execTrvHeaderDiscard_keeps (cl.mono (by decide)) h0

/-- A property that every kind of update but the clearing of the always-on domain keeps is kept by every command but the power-on reset. -/
theorem exec_warm {i : Instr} (hi : ∀ b, i ≠ .powerOnReset b) (cl : Closed 1208925819333910112239612 P) (h0 : P s) : OutIs P (exec i s) := by
  cases i with
  | registerWrite => exact execRegisterWrite_keeps (cl.mono (by decide)) h0
  | readClear => exact execReadClear_keeps (cl.mono (by decide)) h0
  | wideLowWordRead => exact execWideLowWordRead_keeps (cl.mono (by decide)) h0
  | cmdSubmit => exact execCmdSubmit_keeps (cl.mono (by decide)) h0
  | cmdStart => exact execCmdStart_keeps (cl.mono (by decide)) h0
  | cmdCqConsWrite => exact execCmdCqConsWrite_keeps (cl.mono (by decide)) h0
  | unknownOpcode => exact execUnknownOpcode_keeps (cl.mono (by decide)) h0
  | foldLoad => exact execFoldLoad_keeps (cl.mono (by decide)) h0
  | structuralApplyStage => exact execStructuralApplyStage_keeps (cl.mono (by decide)) h0
  | foldLoadCompletion => exact execFoldLoadCompletion_keeps (cl.mono (by decide)) h0
  | foldCommit => exact execFoldCommit_keeps (cl.mono (by decide)) h0
  | pisteLoad => exact execPisteLoad_keeps (cl.mono (by decide)) h0
  | pisteSave => exact execPisteSave_keeps (cl.mono (by decide)) h0
  | posFix => exact execPosFix_keeps (cl.mono (by decide)) h0
  | calRun => exact execCalRun_keeps (cl.mono (by decide)) h0
  | calSave => exact execCalSave_keeps (cl.mono (by decide)) h0
  | calRestore => exact execCalRestore_keeps (cl.mono (by decide)) h0
  | diagReflect => exact execDiagReflect_keeps (cl.mono (by decide)) h0
  | diagPassive => exact execDiagPassive_keeps (cl.mono (by decide)) h0
  | memRepairSpareRow => exact execMemRepairSpareRow_keeps (cl.mono (by decide)) h0
  | memRepairSteerTsv => exact execMemRepairSteerTsv_keeps (cl.mono (by decide)) h0
  | memRepairReturn => exact execMemRepairReturn_keeps (cl.mono (by decide)) h0
  | memRetrain => exact execMemRetrain_keeps (cl.mono (by decide)) h0
  | memRelease => exact execMemRelease_keeps (cl.mono (by decide)) h0
  | evidTrigger => exact execEvidTrigger_keeps (cl.mono (by decide)) h0
  | evidExport => exact execEvidExport_keeps (cl.mono (by decide)) h0
  | evidRelease => exact execEvidRelease_keeps (cl.mono (by decide)) h0
  | pwrState => exact execPwrState_keeps (cl.mono (by decide)) h0
  | portDisable => exact execPortDisable_keeps (cl.mono (by decide)) h0
  | sessionOpen => exact execSessionOpen_keeps (cl.mono (by decide)) h0
  | sessionClose => exact execSessionClose_keeps (cl.mono (by decide)) h0
  | lcAdvance => exact execLcAdvance_keeps (cl.mono (by decide)) h0
  | fwStage => exact execFwStage_keeps (cl.mono (by decide)) h0
  | fwCommit => exact execFwCommit_keeps (cl.mono (by decide)) h0
  | lifecycleReset => exact execLifecycleReset_keeps (cl.mono (by decide)) h0
  | portEnable => exact execPortEnable_keeps (cl.mono (by decide)) h0
  | portModeDisable => exact execPortModeDisable_keeps (cl.mono (by decide)) h0
  | portModeRestart => exact execPortModeRestart_keeps (cl.mono (by decide)) h0
  | portCustomWrite => exact execPortCustomWrite_keeps (cl.mono (by decide)) h0
  | trimWrite => exact execTrimWrite_keeps (cl.mono (by decide)) h0
  | pisteEntryCommit => exact execPisteEntryCommit_keeps (cl.mono (by decide)) h0
  | pisteEntryRead => exact execPisteEntryRead_keeps (cl.mono (by decide)) h0
  | portBellGo => exact execPortBellGo_keeps (cl.mono (by decide)) h0
  | bellSend => exact execBellSend_keeps (cl.mono (by decide)) h0
  | memFlipArm => exact execMemFlipArm_keeps (cl.mono (by decide)) h0
  | tstManGo => exact execTstManGo_keeps (cl.mono (by decide)) h0
  | evidRingCfgWrite => exact execEvidRingCfgWrite_keeps (cl.mono (by decide)) h0
  | cenSelWrite => exact execCenSelWrite_keeps (cl.mono (by decide)) h0
  | evtForce => exact execEvtForce_keeps (cl.mono (by decide)) h0
  | newChal => exact execNewChal_keeps (cl.mono (by decide)) h0
  | keyRead => exact execKeyRead_keeps (cl.mono (by decide)) h0
  | keyEnrol => exact execKeyEnrol_keeps (cl.mono (by decide)) h0
  | keyRevoke => exact execKeyRevoke_keeps (cl.mono (by decide)) h0
  | identityChallenge => exact execIdentityChallenge_keeps (cl.mono (by decide)) h0
  | softReset => exact execSoftReset_keeps (cl.mono (by decide)) h0
  | bar2Read => exact execBar2Read_keeps (cl.mono (by decide)) h0
  | bar2Write => exact execBar2Write_keeps (cl.mono (by decide)) h0
  | mdioRead => exact execMdioRead_keeps (cl.mono (by decide)) h0
  | mdioWrite => exact execMdioWrite_keeps (cl.mono (by decide)) h0
  | perstN => exact execPerstN_keeps (cl.mono (by decide)) h0
  | hostFrameReceived => exact execHostFrameReceived_keeps (cl.mono (by decide)) h0
  | hostPauseFrame => exact execHostPauseFrame_keeps (cl.mono (by decide)) h0
  | hostPauseExpiry => exact execHostPauseExpiry_keeps (cl.mono (by decide)) h0
  | xoffRefresh => exact execXoffRefresh_keeps (cl.mono (by decide)) h0
  | laneLoss => exact execLaneLoss_keeps (cl.mono (by decide)) h0
  | laneRelock => exact execLaneRelock_keeps (cl.mono (by decide)) h0
  | symbolReceived => exact execSymbolReceived_keeps (cl.mono (by decide)) h0
  | erasureEventEnd => exact execErasureEventEnd_keeps (cl.mono (by decide)) h0
  | superframeBoundary => exact execSuperframeBoundary_keeps (cl.mono (by decide)) h0
  | serviceStart => exact execServiceStart_keeps (cl.mono (by decide)) h0
  | codewordSlot => exact execCodewordSlot_keeps (cl.mono (by decide)) h0
  | lotReceived => exact execLotReceived_keeps (cl.mono (by decide)) h0
  | ackWord => exact execAckWord_keeps (cl.mono (by decide)) h0
  | nakWord => exact execNakWord_keeps (cl.mono (by decide)) h0
  | nakWaitExpiry => exact execNakWaitExpiry_keeps (cl.mono (by decide)) h0
  | swapAnnounce => exact execSwapAnnounce_keeps (cl.mono (by decide)) h0
  | swapConfirm port dir kind arg sf => exact execSwapConfirm_keeps (_arg := arg) (cl.mono (by decide)) h0
  | swapReject port dir kind arg sf => exact execSwapReject_keeps (_arg := arg) (cl.mono (by decide)) h0
  | swapCancel port dir kind arg sf => exact execSwapCancel_keeps (_arg := arg) (cl.mono (by decide)) h0
  | swapConfirmDeadline => exact execSwapConfirmDeadline_keeps (cl.mono (by decide)) h0
  | loadingChangeAtS => exact execLoadingChangeAtS_keeps (cl.mono (by decide)) h0
  | bitSwapRequest => exact execBitSwapRequest_keeps (cl.mono (by decide)) h0
  | profileSwapAnnounce => exact execProfileSwapAnnounce_keeps (cl.mono (by decide)) h0
  | toneCapAnnounce => exact execToneCapAnnounce_keeps (cl.mono (by decide)) h0
  | vectorJoinEnd => exact execVectorJoinEnd_keeps (cl.mono (by decide)) h0
  | msgAck => exact execMsgAck_keeps (cl.mono (by decide)) h0
  | eocResendTimeout => exact execEocResendTimeout_keeps (cl.mono (by decide)) h0
  | eocReservedMsg => exact execEocReservedMsg_keeps (cl.mono (by decide)) h0
  | trainSync => exact execTrainSync_keeps (cl.mono (by decide)) h0
  | trainStart => exact execTrainStart_keeps (cl.mono (by decide)) h0
  | warmCheck => exact execWarmCheck_keeps (cl.mono (by decide)) h0
  | linkDown port cause warm => exact execLinkDown_keeps (_cause := cause) (cl.mono (by decide)) h0
  | status port rxMin rxAvg lost => exact execStatus_keeps (_lost := lost) (cl.mono (by decide)) h0
  | lpiEnter => exact execLpiEnter_keeps (cl.mono (by decide)) h0
  | lpiWake => exact execLpiWake_keeps (cl.mono (by decide)) h0
  | rateCap => exact execRateCap_keeps (cl.mono (by decide)) h0
  | loadingUpdate => exact execLoadingUpdate_keeps (cl.mono (by decide)) h0
  | capUpdate => exact execCapUpdate_keeps (cl.mono (by decide)) h0
  | customDef => exact execCustomDef_keeps (cl.mono (by decide)) h0
  | vecError port sf errors => exact execVecError_keeps (_errors := errors) (cl.mono (by decide)) h0
  | ident => exact execIdent_keeps (cl.mono (by decide)) h0
  | identProof => exact execIdentProof_keeps (cl.mono (by decide)) h0
  | padParams port seq rxLots txLots boosted => exact execPadParams_keeps (_boosted := boosted) (cl.mono (by decide)) h0
  | padResume => exact execPadResume_keeps (cl.mono (by decide)) h0
  | padVoid => exact execPadVoid_keeps (cl.mono (by decide)) h0
  | pisteLead port claim fixValid stopped route pos speed => exact execPisteLead_keeps (_fixValid := fixValid) (_stopped := stopped) (_route := route) (_pos := pos) (_speed := speed) (cl.mono (by decide)) h0
  | anComplete => exact execAnComplete_keeps (cl.mono (by decide)) h0
  | trainingPhaseEnd => exact execTrainingPhaseEnd_keeps (cl.mono (by decide)) h0
  | trainingPhaseLate => exact execTrainingPhaseLate_keeps (cl.mono (by decide)) h0
  | partnerWaitTimeout => exact execPartnerWaitTimeout_keeps (cl.mono (by decide)) h0
  | partnerSignalDetected => exact execPartnerSignalDetected_keeps (cl.mono (by decide)) h0
  | warmCheckTimeout => exact execWarmCheckTimeout_keeps (cl.mono (by decide)) h0
  | warmHoldExpiry => exact execWarmHoldExpiry_keeps (cl.mono (by decide)) h0
  | lossOfSync => exact execLossOfSync_keeps (cl.mono (by decide)) h0
  | marginDownTimeout => exact execMarginDownTimeout_keeps (cl.mono (by decide)) h0
  | marginLowTimeout => exact execMarginLowTimeout_keeps (cl.mono (by decide)) h0
  | echoLowTimeout => exact execEchoLowTimeout_keeps (cl.mono (by decide)) h0
  | legacyLinkFail => exact execLegacyLinkFail_keeps (cl.mono (by decide)) h0
  | ilmSuppressExpiry => exact execIlmSuppressExpiry_keeps (cl.mono (by decide)) h0
  | lpiIdleTimeout => exact execLpiIdleTimeout_keeps (cl.mono (by decide)) h0
  | legacyLpiIdle => exact execLegacyLpiIdle_keeps (cl.mono (by decide)) h0
  | linkreq => exact execLinkreq_keeps (cl.mono (by decide)) h0
  | linkacc => exact execLinkacc_keeps (cl.mono (by decide)) h0
  | linkcfm => exact execLinkcfm_keeps (cl.mono (by decide)) h0
  | dataBurst => exact execDataBurst_keeps (cl.mono (by decide)) h0
  | tokenBurst => exact execTokenBurst_keeps (cl.mono (by decide)) h0
  | identBurst => exact execIdentBurst_keeps (cl.mono (by decide)) h0
  | proofBurst => exact execProofBurst_keeps (cl.mono (by decide)) h0
  | leave => exact execLeave_keeps (cl.mono (by decide)) h0
  | preambleDetected => exact execPreambleDetected_keeps (cl.mono (by decide)) h0
  | falseDetection => exact execFalseDetection_keeps (cl.mono (by decide)) h0
  | shadowRestart => exact execShadowRestart_keeps (cl.mono (by decide)) h0
  | burstTruncated => exact execBurstTruncated_keeps (cl.mono (by decide)) h0
  | turnStart => exact execTurnStart_keeps (cl.mono (by decide)) h0
  | tokenReclaim => exact execTokenReclaim_keeps (cl.mono (by decide)) h0
  | linkreqRetry => exact execLinkreqRetry_keeps (cl.mono (by decide)) h0
  | acquisitionTimeout => exact execAcquisitionTimeout_keeps (cl.mono (by decide)) h0
  | trvLossTimeout => exact execTrvLossTimeout_keeps (cl.mono (by decide)) h0
  | searchExpiry => exact execSearchExpiry_keeps (cl.mono (by decide)) h0
  | trvAfterExpiry => exact execTrvAfterExpiry_keeps (cl.mono (by decide)) h0
  | bellAccepted => exact execBellAccepted_keeps (cl.mono (by decide)) h0
  | odometerEdge => exact execOdometerEdge_keeps (cl.mono (by decide)) h0
  | positionTick => exact execPositionTick_keeps (cl.mono (by decide)) h0
  | holdTimeout => exact execHoldTimeout_keeps (cl.mono (by decide)) h0
  | stoppedTimeout => exact execStoppedTimeout_keeps (cl.mono (by decide)) h0
  | fixAgeExpiry => exact execFixAgeExpiry_keeps (cl.mono (by decide)) h0
  | pisteEngineTick => exact execPisteEngineTick_keeps (cl.mono (by decide)) h0
  | learningRecord => exact execLearningRecord_keeps (cl.mono (by decide)) h0
  | passUpdate => exact execPassUpdate_keeps (cl.mono (by decide)) h0
  | autosave => exact execAutosave_keeps (cl.mono (by decide)) h0
  | sweepListenRetry => exact execSweepListenRetry_keeps (cl.mono (by decide)) h0
  | cableCheckPeriod => exact execCableCheckPeriod_keeps (cl.mono (by decide)) h0
  | calUnitStart => exact execCalUnitStart_keeps (cl.mono (by decide)) h0
  | calStageEnd => exact execCalStageEnd_keeps (cl.mono (by decide)) h0
  | memRequest => exact execMemRequest_keeps (cl.mono (by decide)) h0
  | memCmdParityError => exact execMemCmdParityError_keeps (cl.mono (by decide)) h0
  | refreshDue => exact execRefreshDue_keeps (cl.mono (by decide)) h0
  | tallyPeriodEnd => exact execTallyPeriodEnd_keeps (cl.mono (by decide)) h0
  | pageIdleExpiry => exact execPageIdleExpiry_keeps (cl.mono (by decide)) h0
  | lameWindow => exact execLameWindow_keeps (cl.mono (by decide)) h0
  | gleanerRow => exact execGleanerRow_keeps (cl.mono (by decide)) h0
  | lapAlarm => exact execLapAlarm_keeps (cl.mono (by decide)) h0
  | autoRepair => exact execAutoRepair_keeps (cl.mono (by decide)) h0
  | freezeAutoRelease => exact execFreezeAutoRelease_keeps (cl.mono (by decide)) h0
  | drowsePowerDown => exact execDrowsePowerDown_keeps (cl.mono (by decide)) h0
  | droverPeriod => exact execDroverPeriod_keeps (cl.mono (by decide)) h0
  | plRaiseSettle => exact execPlRaiseSettle_keeps (cl.mono (by decide)) h0
  | sensorRead => exact execSensorRead_keeps (cl.mono (by decide)) h0
  | thermalTrip => exact execThermalTrip_keeps (cl.mono (by decide)) h0
  | herderWatchdogExpiry => exact execHerderWatchdogExpiry_keeps (cl.mono (by decide)) h0
  | penEntryWait => exact execPenEntryWait_keeps (cl.mono (by decide)) h0
  | winterAfterExpiry => exact execWinterAfterExpiry_keeps (cl.mono (by decide)) h0
  | wakeN => exact execWakeN_keeps (cl.mono (by decide)) h0
  | linkEnergy => exact execLinkEnergy_keeps (cl.mono (by decide)) h0
  | pcieWake => exact execPcieWake_keeps (cl.mono (by decide)) h0
  | odometerWake => exact execOdometerWake_keeps (cl.mono (by decide)) h0
  | pwrTimerExpiry => exact execPwrTimerExpiry_keeps (cl.mono (by decide)) h0
  | coreOffTimeEnd => exact execCoreOffTimeEnd_keeps (cl.mono (by decide)) h0
  | penReturnStep => exact execPenReturnStep_keeps (cl.mono (by decide)) h0
  | clockGateRequest => exact execClockGateRequest_keeps (cl.mono (by decide)) h0
  | gateAckTimeout => exact execGateAckTimeout_keeps (cl.mono (by decide)) h0
  | lrefclkTrip => exact execLrefclkTrip_keeps (cl.mono (by decide)) h0
  | clockHoldCoastEnd => exact execClockHoldCoastEnd_keeps (cl.mono (by decide)) h0
  | hrefclkTrip => exact execHrefclkTrip_keeps (cl.mono (by decide)) h0
  | oscillatorJudged => exact execOscillatorJudged_keeps (cl.mono (by decide)) h0
  | iroJudgeDeadline => exact execIroJudgeDeadline_keeps (cl.mono (by decide)) h0
  | xo32Accepted => exact execXo32Accepted_keeps (cl.mono (by decide)) h0
  | xo32Dropped => exact execXo32Dropped_keeps (cl.mono (by decide)) h0
  | powerOnReset b => exact absurd rfl (hi b)
  | supplyFault => exact execSupplyFault_keeps (cl.mono (by decide)) h0
  | resetPin => exact execResetPin_keeps (cl.mono (by decide)) h0
  | debugReset => exact execDebugReset_keeps (cl.mono (by decide)) h0
  | debugHalt => exact execDebugHalt_keeps (cl.mono (by decide)) h0
  | debugResume => exact execDebugResume_keeps (cl.mono (by decide)) h0
  | boundaryScanEnter => exact execBoundaryScanEnter_keeps (cl.mono (by decide)) h0
  | boundaryScanExit => exact execBoundaryScanExit_keeps (cl.mono (by decide)) h0
  | sessionExpiry => exact execSessionExpiry_keeps (cl.mono (by decide)) h0
  | challengeExpiry => exact execChallengeExpiry_keeps (cl.mono (by decide)) h0
  | lockoutEnd => exact execLockoutEnd_keeps (cl.mono (by decide)) h0
  | rotationSwap => exact execRotationSwap_keeps (cl.mono (by decide)) h0
  | sliceTestEnd => exact execSliceTestEnd_keeps (cl.mono (by decide)) h0
  | srSegment => exact execSrSegment_keeps (cl.mono (by decide)) h0
  | sliceCheckerFired => exact execSliceCheckerFired_keeps (cl.mono (by decide)) h0
  | rotationOverdue => exact execRotationOverdue_keeps (cl.mono (by decide)) h0
  | drainEnd => exact execDrainEnd_keeps (cl.mono (by decide)) h0
  | evtTrigPin => exact execEvtTrigPin_keeps (cl.mono (by decide)) h0
  | segmentFreeze => exact execSegmentFreeze_keeps (cl.mono (by decide)) h0
  | censusLatch => exact execCensusLatch_keeps (cl.mono (by decide)) h0
  | legacyLinkUp => exact execLegacyLinkUp_keeps (cl.mono (by decide)) h0
  | legacyFrameReceived => exact execLegacyFrameReceived_keeps (cl.mono (by decide)) h0
  | herderRunningAgain => exact execHerderRunningAgain_keeps (cl.mono (by decide)) h0
  | freezeRecordRead => exact execFreezeRecordRead_keeps (cl.mono (by decide)) h0
  | configurationWrite => exact execConfigurationWrite_keeps (cl.mono (by decide)) h0
  | controlPortLinkUp => exact execControlPortLinkUp_keeps (cl.mono (by decide)) h0
  | debuggerAttach => exact execDebuggerAttach_keeps (cl.mono (by decide)) h0
  | debuggerDetach => exact execDebuggerDetach_keeps (cl.mono (by decide)) h0
  | trvHeaderDiscard => exact execTrvHeaderDiscard_keeps (cl.mono (by decide)) h0

/-- The same of what arrives on the pairs and the host lanes, which make fewer kinds of update. -/
theorem exec_link {i : Instr} (hi : linkEvent i = true) (cl : Closed 201429219661266567559424 P) (h0 : P s) : OutIs P (exec i s) := by
  cases i with
  | registerWrite _ _ _ => exact Bool.noConfusion hi
  | readClear _ _ _ => exact Bool.noConfusion hi
  | wideLowWordRead _ => exact Bool.noConfusion hi
  | cmdSubmit _ => exact Bool.noConfusion hi
  | cmdStart  => exact Bool.noConfusion hi
  | cmdCqConsWrite _ => exact Bool.noConfusion hi
  | unknownOpcode _ => exact Bool.noConfusion hi
  | foldLoad _ _ _ => exact Bool.noConfusion hi
  | structuralApplyStage _ => exact Bool.noConfusion hi
  | foldLoadCompletion _ => exact Bool.noConfusion hi
  | foldCommit _ _ => exact Bool.noConfusion hi
  | pisteLoad _ => exact Bool.noConfusion hi
  | pisteSave _ _ => exact Bool.noConfusion hi
  | posFix _ => exact Bool.noConfusion hi
  | calRun _ => exact Bool.noConfusion hi
  | calSave _ => exact Bool.noConfusion hi
  | calRestore _ _ => exact Bool.noConfusion hi
  | diagReflect _ _ _ _ => exact Bool.noConfusion hi
  | diagPassive _ _ _ => exact Bool.noConfusion hi
  | memRepairSpareRow _ _ => exact Bool.noConfusion hi
  | memRepairSteerTsv _ _ => exact Bool.noConfusion hi
  | memRepairReturn _ _ => exact Bool.noConfusion hi
  | memRetrain _ _ => exact Bool.noConfusion hi
  | memRelease _ _ => exact Bool.noConfusion hi
  | evidTrigger _ => exact Bool.noConfusion hi
  | evidExport _ => exact Bool.noConfusion hi
  | evidRelease _ => exact Bool.noConfusion hi
  | pwrState _ => exact Bool.noConfusion hi
  | portDisable _ => exact Bool.noConfusion hi
  | sessionOpen _ => exact Bool.noConfusion hi
  | sessionClose _ => exact Bool.noConfusion hi
  | lcAdvance _ _ => exact Bool.noConfusion hi
  | fwStage _ _ => exact Bool.noConfusion hi
  | fwCommit _ _ => exact Bool.noConfusion hi
  | lifecycleReset _ => exact Bool.noConfusion hi
  | portEnable _ _ => exact Bool.noConfusion hi
  | portModeDisable _ _ => exact Bool.noConfusion hi
  | portModeRestart _ _ => exact Bool.noConfusion hi
  | portCustomWrite _ _ _ _ => exact Bool.noConfusion hi
  | trimWrite _ _ => exact Bool.noConfusion hi
  | pisteEntryCommit _ _ => exact Bool.noConfusion hi
  | pisteEntryRead _ => exact Bool.noConfusion hi
  | portBellGo _ _ => exact Bool.noConfusion hi
  | bellSend _ => exact Bool.noConfusion hi
  | memFlipArm _ _ => exact Bool.noConfusion hi
  | tstManGo _ _ _ => exact Bool.noConfusion hi
  | evidRingCfgWrite _ _ _ => exact Bool.noConfusion hi
  | cenSelWrite _ _ => exact Bool.noConfusion hi
  | evtForce _ _ => exact Bool.noConfusion hi
  | newChal  => exact Bool.noConfusion hi
  | keyRead _ => exact Bool.noConfusion hi
  | keyEnrol _ _ => exact Bool.noConfusion hi
  | keyRevoke _ _ => exact Bool.noConfusion hi
  | identityChallenge _ => exact Bool.noConfusion hi
  | softReset _ _ => exact Bool.noConfusion hi
  | bar2Read _ _ => exact Bool.noConfusion hi
  | bar2Write _ _ => exact Bool.noConfusion hi
  | mdioRead _ _ _ => exact Bool.noConfusion hi
  | mdioWrite _ _ _ _ => exact Bool.noConfusion hi
  | perstN _ => exact Bool.noConfusion hi
  | hostFrameReceived => exact execHostFrameReceived_keeps (cl.mono (by decide)) h0
  | hostPauseFrame => exact execHostPauseFrame_keeps (cl.mono (by decide)) h0
  | hostPauseExpiry => exact execHostPauseExpiry_keeps (cl.mono (by decide)) h0
  | xoffRefresh => exact execXoffRefresh_keeps (cl.mono (by decide)) h0
  | laneLoss => exact execLaneLoss_keeps (cl.mono (by decide)) h0
  | laneRelock => exact execLaneRelock_keeps (cl.mono (by decide)) h0
  | symbolReceived => exact execSymbolReceived_keeps (cl.mono (by decide)) h0
  | erasureEventEnd => exact execErasureEventEnd_keeps (cl.mono (by decide)) h0
  | superframeBoundary => exact execSuperframeBoundary_keeps (cl.mono (by decide)) h0
  | serviceStart => exact execServiceStart_keeps (cl.mono (by decide)) h0
  | codewordSlot => exact execCodewordSlot_keeps (cl.mono (by decide)) h0
  | lotReceived => exact execLotReceived_keeps (cl.mono (by decide)) h0
  | ackWord => exact execAckWord_keeps (cl.mono (by decide)) h0
  | nakWord => exact execNakWord_keeps (cl.mono (by decide)) h0
  | nakWaitExpiry => exact execNakWaitExpiry_keeps (cl.mono (by decide)) h0
  | swapAnnounce => exact execSwapAnnounce_keeps (cl.mono (by decide)) h0
  | swapConfirm port dir kind arg sf => exact execSwapConfirm_keeps (_arg := arg) (cl.mono (by decide)) h0
  | swapReject port dir kind arg sf => exact execSwapReject_keeps (_arg := arg) (cl.mono (by decide)) h0
  | swapCancel port dir kind arg sf => exact execSwapCancel_keeps (_arg := arg) (cl.mono (by decide)) h0
  | swapConfirmDeadline => exact execSwapConfirmDeadline_keeps (cl.mono (by decide)) h0
  | loadingChangeAtS => exact execLoadingChangeAtS_keeps (cl.mono (by decide)) h0
  | bitSwapRequest => exact execBitSwapRequest_keeps (cl.mono (by decide)) h0
  | profileSwapAnnounce => exact execProfileSwapAnnounce_keeps (cl.mono (by decide)) h0
  | toneCapAnnounce => exact execToneCapAnnounce_keeps (cl.mono (by decide)) h0
  | vectorJoinEnd => exact execVectorJoinEnd_keeps (cl.mono (by decide)) h0
  | msgAck => exact execMsgAck_keeps (cl.mono (by decide)) h0
  | eocResendTimeout => exact execEocResendTimeout_keeps (cl.mono (by decide)) h0
  | eocReservedMsg => exact execEocReservedMsg_keeps (cl.mono (by decide)) h0
  | trainSync => exact execTrainSync_keeps (cl.mono (by decide)) h0
  | trainStart => exact execTrainStart_keeps (cl.mono (by decide)) h0
  | warmCheck => exact execWarmCheck_keeps (cl.mono (by decide)) h0
  | linkDown port cause warm => exact execLinkDown_keeps (_cause := cause) (cl.mono (by decide)) h0
  | status port rxMin rxAvg lost => exact execStatus_keeps (_lost := lost) (cl.mono (by decide)) h0
  | lpiEnter => exact execLpiEnter_keeps (cl.mono (by decide)) h0
  | lpiWake => exact execLpiWake_keeps (cl.mono (by decide)) h0
  | rateCap => exact execRateCap_keeps (cl.mono (by decide)) h0
  | loadingUpdate => exact execLoadingUpdate_keeps (cl.mono (by decide)) h0
  | capUpdate => exact execCapUpdate_keeps (cl.mono (by decide)) h0
  | customDef => exact execCustomDef_keeps (cl.mono (by decide)) h0
  | vecError port sf errors => exact execVecError_keeps (_errors := errors) (cl.mono (by decide)) h0
  | ident => exact execIdent_keeps (cl.mono (by decide)) h0
  | identProof => exact execIdentProof_keeps (cl.mono (by decide)) h0
  | padParams port seq rxLots txLots boosted => exact execPadParams_keeps (_boosted := boosted) (cl.mono (by decide)) h0
  | padResume => exact execPadResume_keeps (cl.mono (by decide)) h0
  | padVoid => exact execPadVoid_keeps (cl.mono (by decide)) h0
  | pisteLead port claim fixValid stopped route pos speed => exact execPisteLead_keeps (_fixValid := fixValid) (_stopped := stopped) (_route := route) (_pos := pos) (_speed := speed) (cl.mono (by decide)) h0
  | anComplete => exact execAnComplete_keeps (cl.mono (by decide)) h0
  | trainingPhaseEnd => exact execTrainingPhaseEnd_keeps (cl.mono (by decide)) h0
  | trainingPhaseLate => exact execTrainingPhaseLate_keeps (cl.mono (by decide)) h0
  | partnerWaitTimeout => exact execPartnerWaitTimeout_keeps (cl.mono (by decide)) h0
  | partnerSignalDetected => exact execPartnerSignalDetected_keeps (cl.mono (by decide)) h0
  | warmCheckTimeout => exact execWarmCheckTimeout_keeps (cl.mono (by decide)) h0
  | warmHoldExpiry => exact execWarmHoldExpiry_keeps (cl.mono (by decide)) h0
  | lossOfSync => exact execLossOfSync_keeps (cl.mono (by decide)) h0
  | marginDownTimeout => exact execMarginDownTimeout_keeps (cl.mono (by decide)) h0
  | marginLowTimeout => exact execMarginLowTimeout_keeps (cl.mono (by decide)) h0
  | echoLowTimeout => exact execEchoLowTimeout_keeps (cl.mono (by decide)) h0
  | legacyLinkFail => exact execLegacyLinkFail_keeps (cl.mono (by decide)) h0
  | ilmSuppressExpiry => exact execIlmSuppressExpiry_keeps (cl.mono (by decide)) h0
  | lpiIdleTimeout => exact execLpiIdleTimeout_keeps (cl.mono (by decide)) h0
  | legacyLpiIdle => exact execLegacyLpiIdle_keeps (cl.mono (by decide)) h0
  | linkreq => exact execLinkreq_keeps (cl.mono (by decide)) h0
  | linkacc => exact execLinkacc_keeps (cl.mono (by decide)) h0
  | linkcfm => exact execLinkcfm_keeps (cl.mono (by decide)) h0
  | dataBurst => exact execDataBurst_keeps (cl.mono (by decide)) h0
  | tokenBurst => exact execTokenBurst_keeps (cl.mono (by decide)) h0
  | identBurst => exact execIdentBurst_keeps (cl.mono (by decide)) h0
  | proofBurst => exact execProofBurst_keeps (cl.mono (by decide)) h0
  | leave => exact execLeave_keeps (cl.mono (by decide)) h0
  | preambleDetected => exact execPreambleDetected_keeps (cl.mono (by decide)) h0
  | falseDetection => exact execFalseDetection_keeps (cl.mono (by decide)) h0
  | shadowRestart => exact execShadowRestart_keeps (cl.mono (by decide)) h0
  | burstTruncated => exact execBurstTruncated_keeps (cl.mono (by decide)) h0
  | turnStart => exact execTurnStart_keeps (cl.mono (by decide)) h0
  | tokenReclaim => exact execTokenReclaim_keeps (cl.mono (by decide)) h0
  | linkreqRetry => exact execLinkreqRetry_keeps (cl.mono (by decide)) h0
  | acquisitionTimeout => exact execAcquisitionTimeout_keeps (cl.mono (by decide)) h0
  | trvLossTimeout => exact execTrvLossTimeout_keeps (cl.mono (by decide)) h0
  | searchExpiry => exact execSearchExpiry_keeps (cl.mono (by decide)) h0
  | trvAfterExpiry => exact execTrvAfterExpiry_keeps (cl.mono (by decide)) h0
  | bellAccepted _ _ _ _ => exact Bool.noConfusion hi
  | odometerEdge _ _ _ _ => exact Bool.noConfusion hi
  | positionTick  => exact Bool.noConfusion hi
  | holdTimeout  => exact Bool.noConfusion hi
  | stoppedTimeout  => exact Bool.noConfusion hi
  | fixAgeExpiry  => exact Bool.noConfusion hi
  | pisteEngineTick  => exact Bool.noConfusion hi
  | learningRecord _ => exact Bool.noConfusion hi
  | passUpdate  => exact Bool.noConfusion hi
  | autosave _ => exact Bool.noConfusion hi
  | sweepListenRetry _ _ _ _ => exact Bool.noConfusion hi
  | cableCheckPeriod _ _ => exact Bool.noConfusion hi
  | calUnitStart _ => exact Bool.noConfusion hi
  | calStageEnd _ _ _ _ _ => exact Bool.noConfusion hi
  | memRequest _ _ _ _ _ _ _ _ _ _ => exact Bool.noConfusion hi
  | memCmdParityError _ _ _ _ _ => exact Bool.noConfusion hi
  | refreshDue _ _ _ => exact Bool.noConfusion hi
  | tallyPeriodEnd _ => exact Bool.noConfusion hi
  | pageIdleExpiry _ _ => exact Bool.noConfusion hi
  | lameWindow _ => exact Bool.noConfusion hi
  | gleanerRow _ _ => exact Bool.noConfusion hi
  | lapAlarm _ => exact Bool.noConfusion hi
  | autoRepair _ _ => exact Bool.noConfusion hi
  | freezeAutoRelease _ _ => exact Bool.noConfusion hi
  | drowsePowerDown _ => exact Bool.noConfusion hi
  | droverPeriod  => exact Bool.noConfusion hi
  | plRaiseSettle  => exact Bool.noConfusion hi
  | sensorRead _ _ _ => exact Bool.noConfusion hi
  | thermalTrip  => exact Bool.noConfusion hi
  | herderWatchdogExpiry  => exact Bool.noConfusion hi
  | penEntryWait  => exact Bool.noConfusion hi
  | winterAfterExpiry  => exact Bool.noConfusion hi
  | wakeN _ _ => exact Bool.noConfusion hi
  | linkEnergy _ _ _ => exact Bool.noConfusion hi
  | pcieWake _ => exact Bool.noConfusion hi
  | odometerWake _ => exact Bool.noConfusion hi
  | pwrTimerExpiry _ => exact Bool.noConfusion hi
  | coreOffTimeEnd _ => exact Bool.noConfusion hi
  | penReturnStep _ _ => exact Bool.noConfusion hi
  | clockGateRequest _ _ _ => exact Bool.noConfusion hi
  | gateAckTimeout _ => exact Bool.noConfusion hi
  | lrefclkTrip  => exact Bool.noConfusion hi
  | clockHoldCoastEnd  => exact Bool.noConfusion hi
  | hrefclkTrip  => exact Bool.noConfusion hi
  | oscillatorJudged _ _ _ => exact Bool.noConfusion hi
  | iroJudgeDeadline  => exact Bool.noConfusion hi
  | xo32Accepted _ => exact Bool.noConfusion hi
  | xo32Dropped _ => exact Bool.noConfusion hi
  | powerOnReset _ => exact Bool.noConfusion hi
  | supplyFault _ _ => exact Bool.noConfusion hi
  | resetPin _ _ => exact Bool.noConfusion hi
  | debugReset _ => exact Bool.noConfusion hi
  | debugHalt  => exact Bool.noConfusion hi
  | debugResume  => exact Bool.noConfusion hi
  | boundaryScanEnter _ => exact Bool.noConfusion hi
  | boundaryScanExit  => exact Bool.noConfusion hi
  | sessionExpiry  => exact Bool.noConfusion hi
  | challengeExpiry  => exact Bool.noConfusion hi
  | lockoutEnd  => exact Bool.noConfusion hi
  | rotationSwap _ => exact Bool.noConfusion hi
  | sliceTestEnd _ => exact Bool.noConfusion hi
  | srSegment _ _ _ _ => exact Bool.noConfusion hi
  | sliceCheckerFired _ => exact Bool.noConfusion hi
  | rotationOverdue _ => exact Bool.noConfusion hi
  | drainEnd => exact execDrainEnd_keeps (cl.mono (by decide)) h0
  | evtTrigPin _ _ => exact Bool.noConfusion hi
  | segmentFreeze _ => exact Bool.noConfusion hi
  | censusLatch _ => exact Bool.noConfusion hi
  | legacyLinkUp => exact execLegacyLinkUp_keeps (cl.mono (by decide)) h0
  | legacyFrameReceived => exact execLegacyFrameReceived_keeps (cl.mono (by decide)) h0
  | herderRunningAgain  => exact Bool.noConfusion hi
  | freezeRecordRead _ => exact Bool.noConfusion hi
  | configurationWrite _ _ _ => exact Bool.noConfusion hi
  | controlPortLinkUp  => exact Bool.noConfusion hi
  | debuggerAttach  => exact Bool.noConfusion hi
  | debuggerDetach  => exact Bool.noConfusion hi
  | trvHeaderDiscard => exact execTrvHeaderDiscard_keeps (cl.mono (by decide)) h0

end Sys2Proof.Machine
end

