-- ==== Sys2Proof/Laws/Mailbox.lean ====
section
/-!
SUPPORT. What the end of a command leaves: its record, its slot, the producer's count and the event.
-/
namespace Sys2Proof.Machine

/-- An operation that makes no update of a group's kind leaves the group's words. -/
theorem word_kept {m : Nat} {s t : State} {a : Nat} (hk : ∀ P : State → Prop, Closed m P → P s → P t)
    (h1 : m.testBit 39 = false) (h2 : m.testBit (regGroup a).kind = false) : t.word a = s.word a :=
  (hk (Agree m s) (agree_closed m s) (Agree.refl m s)).words h1 a h2

theorem raise_word {s : State} {i a : Nat} (h : regGroup a ≠ .evt) : (s.raise i).word a = s.word a := by
  refine word_kept (fun P c h => State.raise_keeps c h) (by decide) ?_
  revert h
  cases regGroup a <;> decide

theorem cenHerd_word {s : State} {ev n a : Nat} : (s.cenHerd ev n).word a = s.word a := by
  refine word_kept (fun P c h => State.cenHerd_keeps c h) (by decide) ?_
  cases regGroup a <;> decide

theorem owe_word {s : State} {v a : Nat} : (s.owe v).word a = s.word a := by
  refine word_kept (fun P c h => State.owe_keeps c h) (by decide) ?_
  cases regGroup a <;> decide

/-- A raise of a source that no group holds sets its status bit. -/
theorem raise_pending {s : State} {i : Nat} (hg : groupOf i = none) (hp : s.srcPresent i = true) (hc : s.coreOn = true) :
    (s.raise i).isPending i = true := by
  have hw : (s.raise i).word (srcBit (A.EVT_STATUS 0) i).off = (s.put (srcBit (A.EVT_STATUS 0) i) 1).word (srcBit (A.EVT_STATUS 0) i).off := by
    unfold State.raise State.becomePending
    simp only [hp, hc, Bool.true_or, Bool.and_true, if_true]
    rw [word_kept (fun P c h => State.cenFab_keeps c h) (by decide) (by cases regGroup (srcBit (A.EVT_STATUS 0) i).off <;> decide)]
    rw [word_kept (fun P c h => State.herderSees_keeps c h) (by decide) (by cases regGroup (srcBit (A.EVT_STATUS 0) i).off <;> decide)]
    split
    · rw [owe_word]
    · rfl
  have hf : (s.raise i).get (srcBit (A.EVT_STATUS 0) i) = 1 := by
    have e : (s.raise i).get (srcBit (A.EVT_STATUS 0) i) = (s.put (srcBit (A.EVT_STATUS 0) i) 1).get (srcBit (A.EVT_STATUS 0) i) := by
      unfold State.get
      rw [hw]
    rw [e, get_put_self]
    · rfl
    · show i % 32 + 1 ≤ 32
      omega
  unfold State.isPending
  rw [hg]
  simp [State.flag, hf]

/-- The status bits of two sources are the same or lie apart. -/
theorem srcBit_apart {i j : Nat} (hi : i < 320) (hj : j < 320) (h : i ≠ j) :
    (srcBit (A.EVT_STATUS 0) j).off ≠ (srcBit (A.EVT_STATUS 0) i).off ∨
      (srcBit (A.EVT_STATUS 0) j).lo + (srcBit (A.EVT_STATUS 0) j).len ≤ (srcBit (A.EVT_STATUS 0) i).lo ∨
      (srcBit (A.EVT_STATUS 0) i).lo + (srcBit (A.EVT_STATUS 0) i).len ≤ (srcBit (A.EVT_STATUS 0) j).lo := by
  unfold srcBit
  dsimp only
  omega

theorem isPending_congr {s t : State} {j : Nat} (hg : groupOf j = none)
    (h : t.word (srcBit (A.EVT_STATUS 0) j).off = s.word (srcBit (A.EVT_STATUS 0) j).off) : t.isPending j = s.isPending j := by
  unfold State.isPending
  rw [hg]
  unfold State.flag State.get
  rw [h]

theorem coreOn_congr {s t : State} (h : t.pwr = s.pwr) : t.coreOn = s.coreOn := by
  unfold State.coreOn
  rw [h]

theorem raise_coreOn {s : State} {i : Nat} : (s.raise i).coreOn = s.coreOn :=
  coreOn_congr ((State.raise_keeps (agree_closed _ s) (Agree.refl _ s)).pwr (by decide))

/-- A raise leaves what is pending pending. -/
theorem raise_pending_mono {s : State} {i j : Nat} (hi : i < 320) (hj : j < 320) (hg : groupOf j = none)
    (h : s.isPending j = true) : (s.raise i).isPending j = true := by
  have hw : (s.raise i).word (srcBit (A.EVT_STATUS 0) j).off = s.word (srcBit (A.EVT_STATUS 0) j).off ∨
      (s.raise i).word (srcBit (A.EVT_STATUS 0) j).off = (s.put (srcBit (A.EVT_STATUS 0) i) 1).word (srcBit (A.EVT_STATUS 0) j).off := by
    unfold State.raise State.becomePending
    split
    · refine .inr ?_
      rw [word_kept (fun P c h => State.cenFab_keeps c h) (by decide) (by cases regGroup (srcBit (A.EVT_STATUS 0) j).off <;> decide)]
      rw [word_kept (fun P c h => State.herderSees_keeps c h) (by decide) (by cases regGroup (srcBit (A.EVT_STATUS 0) j).off <;> decide)]
      split
      · rw [owe_word]
      · rfl
    · exact .inl rfl
  rcases hw with hw | hw
  · rw [isPending_congr hg hw, h]
  · rw [isPending_congr hg hw]
    unfold State.isPending at h ⊢
    rw [hg] at h ⊢
    unfold State.flag at h ⊢
    by_cases e : i = j
    · subst e
      rw [get_put_self _ _ _ (by show i % 32 + 1 ≤ 32; omega)]
      rfl
    · rw [get_put_bits _ _ (srcBit_apart hi hj e)]
      exact h

/-- Writing the words of a list of distinct offsets. -/
theorem each_putWord {l : List Nat} {s : State} {g : Nat → Nat} {v : Nat → Word} {a : Nat} (h : ∀ j ∈ l, g j ≠ a) :
    (s.each l fun t i => t.putWord (g i) (v i)).word a = s.word a := by
  unfold State.each
  induction l generalizing s with
  | nil => rfl
  | cons x l ih =>
    refine (ih (fun j hj => h j (List.mem_cons_of_mem _ hj))).trans (word_putWord_ne s _ ?_)
    exact fun e => h x (List.mem_cons_self ..) e.symm

theorem each_putWord_at {n : Nat} {s : State} {g : Nat → Nat} {v : Nat → Word} {i : Nat} (hi : i < n)
    (h : ∀ j, j < n → j ≠ i → g j ≠ g i) : (s.each (List.range n) fun t i => t.putWord (g i) (v i)).word (g i) = v i := by
  induction n generalizing s with
  | zero => omega
  | succ n ih =>
    rw [List.range_succ]
    unfold State.each
    rw [List.foldl_append]
    show ((s.each (List.range n) fun t i => t.putWord (g i) (v i)).putWord (g n) (v n)).word (g i) = v i
    by_cases e : i = n
    · subst e
      simp
    · rw [word_putWord_ne _ _ (fun e' => h n (by omega) (fun x => e x.symm) e'.symm)]
      exact ih (by omega) (fun j hj => h j (by omega))

/-- The end of a command leaves what is pending pending. -/
theorem complete_pending_mono {s : State} {k st d j : Nat} {res : List Nat} (hj : j < 320) (hg : groupOf j = none)
    (h : s.isPending j = true) : (s.complete k st d res).isPending j = true := by
  unfold State.complete
  split
  · exact h
  · rw [isPending_congr (s := State.raise _ _) hg cenHerd_word]
    refine raise_pending_mono (by decide) hj hg ?_
    rw [isPending_congr (s := s) hg]
    · exact h
    · rw [word_put_ne _ _ ?_, word_put_ne _ _ ?_, each_putWord (g := fun i => A.CMD_CQ (s.get F.CMD_CQ_PROD_COUNT % 64) i)]
      · intro i _
        show A.CMD_CQ _ i ≠ _
        unfold A.CMD_CQ srcBit A.EVT_STATUS
        dsimp only
        omega
      · show _ ≠ A.CMD_SLOT_STATE k
        unfold A.CMD_SLOT_STATE srcBit A.EVT_STATUS
        dsimp only
        omega
      · show _ ≠ A.CMD_CQ_PROD
        unfold A.CMD_CQ_PROD srcBit A.EVT_STATUS
        dsimp only
        omega

/-- The end of a running command. `s` may be an earlier state whose mailbox registers are the same. -/
theorem complete_completed {s u : State} {k st d : Nat} {res : List Nat} (hs : s.slotState k = 2)
    (hw : ∀ a, regGroup a = .cmd → u.word a = s.word a) : Completed k st d res s (u.complete k st d res) := by
  have hg : ∀ f : Fld, regGroup f.off = .cmd → u.get f = s.get f := fun f hf => by unfold State.get; rw [hw _ hf]
  have hu : u.slotState k = 2 := (hg _ (by simp)).trans hs
  unfold State.complete
  rw [if_neg (by simp [hu])]
  rw [hg F.CMD_CQ_PROD_COUNT (by simp), hg (F.CMD_SLOT_STATE_HANDLE k) (by simp)]
  generalize hp : s.get F.CMD_CQ_PROD_COUNT = p
  have hcq : ∀ i, A.CMD_CQ (p % 64) i = A.CMD_CQ p i := fun i => by unfold A.CMD_CQ; omega
  simp only [hcq]
  have hfin : ∀ (t : State) (a : Nat), regGroup a ≠ .evt → ((t.raise Ev.cmdDone).cenHerd 2 1).word a = t.word a :=
    fun t a h => cenHerd_word.trans (raise_word h)
  have hrec : ∀ (t : State) (v : Nat → Word) (i : Nat), i < 8 →
      ((((t.each (List.range 8) fun t i => t.putWord (A.CMD_CQ p i) (v i)).put (F.CMD_SLOT_STATE_STATE k) 3).put F.CMD_CQ_PROD_COUNT
        (p + 1)).word (A.CMD_CQ p i)) = v i := by
    intro t v i hi
    rw [word_put_ne _ _ (by show A.CMD_CQ p i ≠ A.CMD_CQ_PROD; unfold A.CMD_CQ A.CMD_CQ_PROD; omega),
      word_put_ne _ _ (by show A.CMD_CQ p i ≠ A.CMD_SLOT_STATE k; unfold A.CMD_CQ A.CMD_SLOT_STATE; omega)]
    exact each_putWord_at (g := fun i => A.CMD_CQ p i) hi (fun j hj hji => by
      show A.CMD_CQ p j ≠ A.CMD_CQ p i
      unfold A.CMD_CQ
      omega)
  constructor
  · show getBits _ 30 2 = 3
    rw [hfin _ _ (by simp)]
    rw [word_put_ne _ _ (by show A.CMD_SLOT_STATE k ≠ A.CMD_CQ_PROD; unfold A.CMD_SLOT_STATE A.CMD_CQ_PROD; omega)]
    exact get_put_self _ (F.CMD_SLOT_STATE_STATE k) 3 (by show 30 + 2 ≤ 32; decide)
  · show getBits _ 0 32 = _
    rw [hfin _ _ (by simp), hp]
    exact get_put_self _ F.CMD_CQ_PROD_COUNT (p + 1) (by decide)
  · rw [hp, hfin _ _ (by simp)]
    exact hrec _ (fun i => BitVec.ofNat 32 (if i = 0 then _ else res.getD (i - 1) 0)) 0 (by decide)
  · intro i hi
    rw [hp, hfin _ _ (by simp)]
    exact hrec _ (fun i => BitVec.ofNat 32 (if i = 0 then _ else res.getD (i - 1) 0)) (i + 1) (by omega)
  · intro hc
    have hraise : ∀ t : State, ((t.raise Ev.cmdDone).cenHerd 2 1).coreOn = t.coreOn := by
      intro t
      have h1 := (State.cenHerd_keeps (n := 1) (ev := 2) (agree_closed _ (t.raise Ev.cmdDone)) (Agree.refl _ _)).pwr (by decide)
      have h2 := (State.raise_keeps (i := Ev.cmdDone) (agree_closed _ t) (Agree.refl _ t)).pwr (by decide)
      unfold State.coreOn
      rw [h1, h2]
    rw [hraise] at hc
    have := raise_pending (i := Ev.cmdDone) (by decide) (by unfold State.srcPresent; split <;> decide) hc
    unfold State.isPending at this ⊢
    have hn : groupOf Ev.cmdDone = none := by decide
    rw [hn] at this ⊢
    unfold State.flag State.get at this ⊢
    rw [cenHerd_word]
    exact this

end Sys2Proof.Machine
end

