-- ==== Sys2Proof/WellFormed.lean ====
section
/-!
DEFINITION. The operands that the outside can bring: the lengths of the lists and the sizes of the host's requests
(Table 11-3). A command whose operands break these names no step of the hardware.
-/
namespace Sys2Proof

/-- The operands of a command lie within what the hardware's formats admit. -/
def Instr.wf : Instr → Bool
  | .registerWrite _ len _ => decide (len ≤ 256)
  | .readClear _ len _ => decide (len ≤ 4096)
  | .wideLowWordRead .. => true
  | .cmdSubmit .. => true
  | .cmdStart .. => true
  | .cmdCqConsWrite .. => true
  | .unknownOpcode .. => true
  | .foldLoad .. => true
  | .structuralApplyStage .. => true
  | .foldLoadCompletion .. => true
  | .foldCommit .. => true
  | .pisteLoad .. => true
  | .pisteSave .. => true
  | .posFix .. => true
  | .calRun .. => true
  | .calSave .. => true
  | .calRestore .. => true
  | .diagReflect .. => true
  | .diagPassive .. => true
  | .memRepairSpareRow .. => true
  | .memRepairSteerTsv .. => true
  | .memRepairReturn .. => true
  | .memRetrain .. => true
  | .memRelease .. => true
  | .evidTrigger .. => true
  | .evidExport .. => true
  | .evidRelease .. => true
  | .pwrState .. => true
  | .portDisable .. => true
  | .sessionOpen .. => true
  | .sessionClose .. => true
  | .lcAdvance .. => true
  | .fwStage .. => true
  | .fwCommit .. => true
  | .lifecycleReset .. => true
  | .portEnable .. => true
  | .portModeDisable .. => true
  | .portModeRestart .. => true
  | .portCustomWrite .. => true
  | .trimWrite .. => true
  | .pisteEntryCommit .. => true
  | .pisteEntryRead .. => true
  | .portBellGo .. => true
  | .bellSend .. => true
  | .memFlipArm .. => true
  | .tstManGo .. => true
  | .evidRingCfgWrite .. => true
  | .cenSelWrite .. => true
  | .evtForce .. => true
  | .newChal .. => true
  | .keyRead .. => true
  | .keyEnrol .. => true
  | .keyRevoke .. => true
  | .identityChallenge .. => true
  | .softReset .. => true
  | .bar2Read _ len => decide (len ≤ 4096)
  | .bar2Write _ data => decide (data.length ≤ 256)
  | .mdioRead .. => true
  | .mdioWrite .. => true
  | .perstN .. => true
  | .hostFrameReceived .. => true
  | .hostPauseFrame .. => true
  | .hostPauseExpiry .. => true
  | .xoffRefresh .. => true
  | .laneLoss .. => true
  | .laneRelock .. => true
  | .symbolReceived _ err _ => decide (err.length = 16)
  | .erasureEventEnd .. => true
  | .superframeBoundary .. => true
  | .serviceStart .. => true
  | .codewordSlot .. => true
  | .lotReceived _ _ mag _ => decide (mag.length ≤ 17280)
  | .ackWord .. => true
  | .nakWord .. => true
  | .nakWaitExpiry .. => true
  | .swapAnnounce .. => true
  | .swapConfirm .. => true
  | .swapReject .. => true
  | .swapCancel .. => true
  | .swapConfirmDeadline .. => true
  | .loadingChangeAtS _ _ pts => decide (pts.length ≤ 20)
  | .bitSwapRequest .. => true
  | .profileSwapAnnounce .. => true
  | .toneCapAnnounce .. => true
  | .vectorJoinEnd .. => true
  | .msgAck .. => true
  | .eocResendTimeout .. => true
  | .eocReservedMsg .. => true
  | .trainSync .. => true
  | .trainStart .. => true
  | .warmCheck .. => true
  | .linkDown .. => true
  | .status .. => true
  | .lpiEnter .. => true
  | .lpiWake .. => true
  | .rateCap .. => true
  | .loadingUpdate .. => true
  | .capUpdate .. => true
  | .customDef _ _ _ bands => decide (bands.length = 8)
  | .vecError .. => true
  | .ident .. => true
  | .identProof .. => true
  | .padParams .. => true
  | .padResume .. => true
  | .padVoid .. => true
  | .pisteLead .. => true
  | .anComplete .. => true
  | .trainingPhaseEnd _ _ tones _ => decide (tones.length ≤ 4096)
  | .trainingPhaseLate .. => true
  | .partnerWaitTimeout .. => true
  | .partnerSignalDetected .. => true
  | .warmCheckTimeout .. => true
  | .warmHoldExpiry .. => true
  | .lossOfSync .. => true
  | .marginDownTimeout .. => true
  | .marginLowTimeout .. => true
  | .echoLowTimeout .. => true
  | .legacyLinkFail .. => true
  | .ilmSuppressExpiry .. => true
  | .lpiIdleTimeout .. => true
  | .legacyLpiIdle .. => true
  | .linkreq .. => true
  | .linkacc .. => true
  | .linkcfm .. => true
  | .dataBurst .. => true
  | .tokenBurst .. => true
  | .identBurst .. => true
  | .proofBurst .. => true
  | .leave .. => true
  | .preambleDetected .. => true
  | .falseDetection .. => true
  | .shadowRestart .. => true
  | .burstTruncated .. => true
  | .turnStart .. => true
  | .tokenReclaim .. => true
  | .linkreqRetry .. => true
  | .acquisitionTimeout .. => true
  | .trvLossTimeout .. => true
  | .searchExpiry .. => true
  | .trvAfterExpiry .. => true
  | .bellAccepted .. => true
  | .odometerEdge .. => true
  | .positionTick .. => true
  | .holdTimeout .. => true
  | .stoppedTimeout .. => true
  | .fixAgeExpiry .. => true
  | .pisteEngineTick .. => true
  | .learningRecord .. => true
  | .passUpdate .. => true
  | .autosave .. => true
  | .sweepListenRetry .. => true
  | .cableCheckPeriod .. => true
  | .calUnitStart .. => true
  | .calStageEnd .. => true
  | .memRequest _ _ _ _ wr data _ _ _ _ => decide (data.length = if wr then 64 else 0)
  | .memCmdParityError .. => true
  | .refreshDue .. => true
  | .tallyPeriodEnd .. => true
  | .pageIdleExpiry .. => true
  | .lameWindow stats => decide (stats.length ≤ 32)
  | .gleanerRow .. => true
  | .lapAlarm .. => true
  | .autoRepair .. => true
  | .freezeAutoRelease .. => true
  | .drowsePowerDown .. => true
  | .droverPeriod .. => true
  | .plRaiseSettle .. => true
  | .sensorRead .. => true
  | .thermalTrip .. => true
  | .herderWatchdogExpiry .. => true
  | .penEntryWait .. => true
  | .winterAfterExpiry .. => true
  | .wakeN .. => true
  | .linkEnergy .. => true
  | .pcieWake .. => true
  | .odometerWake .. => true
  | .pwrTimerExpiry .. => true
  | .coreOffTimeEnd .. => true
  | .penReturnStep .. => true
  | .clockGateRequest .. => true
  | .gateAckTimeout .. => true
  | .lrefclkTrip .. => true
  | .clockHoldCoastEnd .. => true
  | .hrefclkTrip .. => true
  | .oscillatorJudged .. => true
  | .iroJudgeDeadline .. => true
  | .xo32Accepted .. => true
  | .xo32Dropped .. => true
  | .powerOnReset .. => true
  | .supplyFault .. => true
  | .resetPin .. => true
  | .debugReset .. => true
  | .debugHalt .. => true
  | .debugResume .. => true
  | .boundaryScanEnter .. => true
  | .boundaryScanExit .. => true
  | .sessionExpiry .. => true
  | .challengeExpiry .. => true
  | .lockoutEnd .. => true
  | .rotationSwap .. => true
  | .sliceTestEnd .. => true
  | .srSegment .. => true
  | .sliceCheckerFired .. => true
  | .rotationOverdue .. => true
  | .drainEnd .. => true
  | .evtTrigPin .. => true
  | .segmentFreeze .. => true
  | .censusLatch .. => true
  | .legacyLinkUp .. => true
  | .legacyFrameReceived .. => true
  | .herderRunningAgain .. => true
  | .freezeRecordRead .. => true
  | .configurationWrite .. => true
  | .controlPortLinkUp .. => true
  | .debuggerAttach .. => true
  | .debuggerDetach .. => true
  | .trvHeaderDiscard .. => true

end Sys2Proof
end

