-- ==== Sys2Proof/Tests/Slice0.lean ====
section
/-!
SUPPORT. Small tests: for the statements with hypotheses a state that meets them and what the step then does, and what
WellFormed refuses. Expected values come from the rules named.
-/
open Sys2Proof Sys2Proof.Machine

set_option Elab.async false

/-- A step answers a next state with a property. -/
def after (o : Host.Outcome State Fault Refusal) (p : State → Bool) : Bool :=
  match o with
  | .next t => p t
  | _ => false

/-- A fold whose PORTS section allows every mode and four slices on every port. -/
def tPorts : Bytes := (List.range 0x130).map fun i =>
  if 256 ≤ i then 0 else if i % 16 = 0 then 0xFF else if i % 16 = 1 then 0x01 else if i % 16 = 2 then 4 else 0

/-- The reset state without the identity words, the lanes, the channels and the events, which few tests look at. -/
def tSmall : State := (State.reset.withRegs (State.reset.regs.filter fun e => e.1 < 1000 || (11000000 < e.1 && e.1 < 14680100))).withBank []

/-- The reset state with that fold running and port 2 enabled. -/
def tBase : State := (tSmall.withFold { State.reset.fold with sections := [(1, tPorts)] }).put (F.PORT_MODE_ENABLE 2) 1 |>.put F.DRV_BUDGET_MW 60000

/-- Several fields written. -/
def State.puts (s : State) (l : List (Fld × Nat)) : State := l.foldl (fun t e => t.put e.1 e.2) s

/-- Port 2 up in ILM v3. -/
def tIlm : State := (State.puts tBase [(F.PORT_LINK_STATUS_UP 2, 1), (F.PORT_LINK_STATUS_MODE 2, 7), (F.PORT_AN_STATUS_STATE 2, 6)]).modLn 2
  fun l => { l with tag := 5 }

/-- Port 2 in a state of negotiation and a phase. -/
def tAn (an phase : Nat) (f : Line → Line) : State :=
  (State.puts tBase [(F.PORT_AN_STATUS_STATE 2, an), (F.PORT_LINK_STATUS_PHASE 2, phase)]).modLn 2 f

/-- An installer session, with its first writes to every block already in the audit log. -/
def tInst : State := State.puts tBase [(F.SEC_SESSION_ROLE, 2), (F.SEC_STATE_LC, 2)]

/-- The same without a session. -/
def tNone : State := tBase.put F.SEC_STATE_LC 2

/-! ## Links (chapter 4) -/

theorem witness_LinksGoDown :
    (tIlm.upIlm 2 && tIlm.coreOn && tIlm.starts && tIlm.flag (F.PORT_MODE_WARM_EN 2) &&
      decide (tIlm.get (F.PORT_LINK_CFG_WARM_HOLD 2) ≠ 0) && !tIlm.flag (F.PORT_PAD_STATE_DRAINING 2) &&
      after (exec (.linkDown 2 0 true) tIlm) (fun t => !t.up 2 && t.an 2 = 4 && t.get (F.PORT_LINK_STATUS_DOWN_CAUSE 2) = 5 &&
        t.isPending (Ev.portLinkDown 2) && (t.ln 2).stored.isSome) &&
      after (exec (.linkDown 2 0 false) tIlm) (fun t => !t.up 2 && t.an 2 = 1 && (t.ln 2).stored = none && t.flag (F.PORT_MODE_WARM_EN 2)) &&
      after (exec (.lossOfSync 2) tIlm) (fun t => !t.up 2 && t.get (F.PORT_LINK_STATUS_DOWN_CAUSE 2) = 2 && t.time = tIlm.time)) = true := by
  decide +kernel

theorem witness_marginDown :
    after (exec (.marginDownTimeout 2) (tIlm.modLn 2 fun l => { l with downAt := some 70000000 })) (fun t =>
      !t.up 2 && t.get (F.PORT_LINK_STATUS_DOWN_CAUSE 2) = 4 && t.time = 2070000000 && t.get (F.PORT_LINK_DOWNS_COUNT 2) = 1) = true := by
  decide +kernel

/-- Port 2 with its buffer placed, in a legacy start-up. -/
def tLegacy (an : Nat) : State :=
  (tAn an 0 fun l => { l with target := 3 }).modPd 2 fun p => { p with bufGrains := List.range 16 }

theorem witness_legacy :
    after (exec (.legacyLinkUp 2 none false) (tLegacy 3)) (fun t => t.upLegacy 2 && t.mode 2 = 3 && t.an 2 = 6 &&
      after (exec (.legacyLinkUp 2 none true) (tLegacy 3)) (fun v => v = tLegacy 3) && (tLegacy 3).placed 2 false &&
      after (exec (.legacyLinkFail 2) t) (fun u => !u.up 2 && u.get (F.PORT_LINK_STATUS_DOWN_CAUSE 2) = 10)) = true := by
  decide +kernel

theorem witness_legacy_forced : after (exec (.legacyLinkUp 2 (some (2, true)) false) (tLegacy 7)) (fun t => t.upLegacy 2) = true := by decide +kernel

theorem witness_legacyFrame :
    (let s := State.puts tBase [(F.PORT_LINK_STATUS_UP 2, 1), (F.PORT_LINK_STATUS_MODE 2, 1)]
     s.upLegacy 2 && decide (1048576 < s.bufFill 2 + (List.replicate 1048577 (0 : Byte)).length)) = true := by
  rw [List.length_replicate]; decide +kernel

theorem witness_phaseLate (p : Fin 7) :
    after (exec (.trainingPhaseLate 2) (tAn 3 (p.val + 1) fun l => { l with fails := 1, locked := true })) (fun t => t.an 2 = 1 &&
      t.get (F.PORT_AN_STATUS_LAST_FAIL 2) = [3, 7, 3, 4, 4, 3, 6].getD p.val 0 && t.flag (F.PORT_AN_STATUS_ILM_SUPPRESSED 2) &&
      t.get (F.PORT_TRAIN_FAILS_COUNT 2) = 1) = true := by
  revert p; decide +kernel

theorem witness_bringUpTimes :
    (after (exec (.partnerWaitTimeout 2) (tAn 2 0 fun l => { l with target := 7, anDone := 60000000 })) (fun t => t.an 2 = 1 &&
      t.get (F.PORT_AN_STATUS_LAST_FAIL 2) = 8 && t.time = 560000000) &&
    after (exec (.partnerWaitTimeout 2) (tAn 3 1 fun l => { l with target := 6 })) (fun t => t.an 2 = 1) &&
    after (exec (.warmCheckTimeout 2) (tAn 5 0 id)) (fun t => t.an 2 = 1 && t.get (F.PORT_WARM_FAIL_COUNT 2) = 1) &&
    after (exec (.warmHoldExpiry 2) (tAn 4 0 fun l => { l with holdEnd := some 90000000 })) (fun t => t.an 2 = 1 && t.time = 90000000) &&
    after (exec (.ilmSuppressExpiry 2) (tBase.put (F.PORT_AN_STATUS_ILM_SUPPRESSED 2) 1)) (fun t =>
      !t.flag (F.PORT_AN_STATUS_ILM_SUPPRESSED 2) && t.time = 60000000000)) = true := by
  decide +kernel

/-- An ability word: ILM v3, role master. -/
def tAbility : BitVec 32 := 0x30100005

theorem witness_negotiation :
    (let s := (tAn 1 0 fun l => { l with seed := 3 }).modPd 2 fun p => { p with bufGrains := List.range 16 }
     (s.offered 2).testBit 6 && s.ownRole 2 = 0 && s.placed 2 false &&
     after (exec (.anComplete 2 (some tAbility) 0 false) s) (fun t => t.an 2 = 2 && (t.ln 2).target = 7 && (t.ln 2).slave) &&
     after (exec (.anComplete 2 (some 0x30000005) 0 false) s) (fun t => t.an 2 = 2 && (t.ln 2).slave) &&
     after (exec (.anComplete 2 (some 0x30200005) 0 false) s) (fun t => t.an 2 = 2 && !(t.ln 2).slave) &&
     after (exec (.anComplete 2 none 0x0B true) s) (fun t => t.an 2 = 3 && (t.ln 2).target = 4 && !(t.ln 2).slave) &&
     after (exec (.anComplete 2 none 0 true) s) (fun t => t.an 2 = 1 && t.get (F.PORT_AN_STATUS_LAST_FAIL 2) = 2)) = true := by
  decide +kernel

theorem witness_training :
    (after (exec (.trainingPhaseEnd 2 300 [] 0) (tAn 3 1 fun l => { l with locked := true })) (fun t => t.get (F.PORT_LINK_STATUS_PHASE 2) = 2 &&
      (t.ln 2).identOwn.length = 94 && t.freeCtr = 4) &&
    after (exec (.trainingPhaseEnd 2 0 [] 0) (tAn 3 4 id)) (fun t => t.get (F.PORT_LINK_STATUS_PHASE 2) = 5) &&
    after (exec (.trainingPhaseEnd 2 0 [] 0) (tAn 3 5 id)) (fun t => t.get (F.PORT_LINK_STATUS_PHASE 2) = 6) &&
    after (exec (.trainingPhaseEnd 2 0 [] 0) (tAn 3 3 id)) (fun t => t.get (F.PORT_LINK_STATUS_PHASE 2) = 3) &&
    after (exec (.trainingPhaseEnd 2 0 [] 0) ((tAn 3 3 id).put (F.PORT_ILM_STATE_VEC_STATE 2) 2)) (fun t =>
      t.get (F.PORT_LINK_STATUS_PHASE 2) = 4) &&
    after (exec (.trainSync 2 0xFFFFFFFF) (tAn 3 1 fun l => { l with slave := true })) (fun t => t.sfc 2 = 0xFFFFFFFF) &&
    after (exec (.trainStart 2 255 7 9) (tAn 3 7 fun l => { l with slave := true, eocExp := 255 })) (fun t =>
      (t.ln 2).service = some 7 && (t.ln 2).tag = 9 && (t.ln 2).eocExp = 0 && (t.ln 2).eocQ = ackBytes 0x11 255) &&
    after (exec (.vectorJoinEnd 2) (State.puts (tAn 3 3 fun l => { l with joinAt := some 0 }) [(F.PORT_ILM_STATE_VEC_STATE 2, 1), (F.PORT_ILM_SFC_COUNT 2, 256)])) (fun t =>
      t.get (F.PORT_ILM_STATE_VEC_STATE 2) = 2 && t.get (F.FLOCK_VEC_STATE_ACTIVE 0) = 4 && t.isPending (Ev.portVecChange 2))) = true := by
  decide +kernel

/-- Stored state of a link on port 2. -/
def tStored : Stored := { slave := true, tag := 5, serial := 9, mode := 7, count := 1000, at_ := 60000000 }

theorem witness_service :
    (let cold := tAn 3 8 fun l => { l with service := some 0, target := 7, paddock := true }
     let warm := tAn 5 0 fun l => { l with service := some 0, target := 8, warmChecked := true }
     let held := tAn 4 0 fun l => { l with stored := some tStored }
     (cold.ln 2).service = some (cold.sfc 2) && cold.an 2 = 3 && cold.get (F.PORT_LINK_STATUS_PHASE 2) = 8 &&
     (warm.ln 2).service = some (warm.sfc 2) && warm.an 2 = 5 && (warm.ln 2).warmChecked &&
     held.starts && held.flag (F.PORT_MODE_WARM_EN 2) && held.an 2 = 4 && (held.ln 2).stored = some tStored &&
     held.tokenFits 2 (held.startDemand 2 (held.get F.DRV_STATE_PL)) &&
     !(held.put F.DRV_STATE_SHORT 1).tokenFits 2 (held.startDemand 2 (held.get F.DRV_STATE_PL)) &&
     after (exec (.partnerSignalDetected 2) (held.put F.DRV_STATE_SHORT 1)) (fun t => t.an 2 = 2 && (t.ln 2).tokenAt = some 60000000)) = true := by
  decide +kernel

theorem witness_warmCheck :
    (let s := tAn 5 0 fun l => { l with stored := some tStored, eocExp := 3 }
     after (exec (.warmCheck 2 3 6 0 0 0 0 0 0 0) s) (fun t => t.an 2 = 1 && (t.ln 2).stored = none && t.get (F.PORT_WARM_FAIL_COUNT 2) = 1)) = true := by
  decide +kernel

/-! ## Ports by the host, drains, identities, host lanes -/

/-- A running command in slot 3 with an opcode and parameter words. -/
def tCmd (op : Nat) (ps : List Word) (s : State) : State :=
  (State.puts s [(F.CMD_SLOT_STATE_STATE 3, 2), (F.CMD_SLOT_STATE_OPCODE 3, op), (F.CMD_SLOT_STATE_HANDLE 3, 3073)]).modSlot 3
    fun x => { x with params := ps, order := 1 }

/-- The record of slot 3's completion. -/
def doneWith (st : Nat) (t : State) : Bool :=
  t.slotState 3 = 3 && t.word (A.CMD_CQ 0 0) = BitVec.ofNat 32 (3073 * 65536 + st * 256) && t.isPending Ev.cmdDone

theorem witness_portMode :
    (tBase.portOpen 4 && tBase.portOpen 2 && tBase.coreOn && !tBase.pci.perst && !tBase.pci.d3hot && !tBase.flag (F.PORT_MODE_ENABLE 4) &&
      after (exec (.portEnable 4 0x40000000) tBase) (fun t => t.flag (F.PORT_MODE_ENABLE 4) && t.flag (F.PORT_MODE_AN_EN 4) &&
        (t.an 4 = 1 || t.get (F.PORT_LINK_STATUS_DOWN_CAUSE 4) = 8)) &&
      after (exec (.portModeDisable 2 0) tBase) (fun t => !t.flag (F.PORT_MODE_ENABLE 2) && t.an 2 = 0) &&
      after (exec (.portModeDisable 2 0) (tIlm.modPd 2 fun p => { p with staged := [{ id := 1, bytes := [1] }] })) (fun t =>
        t.up 2 && t.flag (F.PORT_PAD_STATE_DRAINING 2) && (t.pd 2).drainEnd = some (60000000 + 1000000 * t.get (F.PORT_PAD_CFG_DRAIN_MS 2))) &&
      after (exec (.portModeRestart 2 0xC0000000) tIlm) (fun t => !t.up 2 && t.an 2 = 1 && t.get (F.PORT_LINK_STATUS_DOWN_CAUSE 2) = 1)) = true := by
  decide +kernel

theorem witness_portDisable :
    (after (exec (.portDisable 3) (tCmd 0x51 [2, 0xFFFF] tBase)) (fun t => doneWith 0 t && !t.flag (F.PORT_MODE_ENABLE 2)) &&
    after (exec (.portDisable 3) (tCmd 0x51 [15, 0] { tBase with part := .xs708 })) (fun t => doneWith 2 t) &&
    after (exec (.portDisable 3) (tCmd 0x51 [2, 0] (tBase.put (F.PORT_PAD_STATE_DRAINING 2) 1))) (fun t => doneWith 1 t) &&
    after (exec (.portDisable 3) (tCmd 0x51 [2, 2000] (tIlm.modPd 2 fun p => { p with staged := [{ id := 1, bytes := [1] }] }))) (fun t =>
      t.slotState 3 = 2 && (t.slot 3).begun && (t.pd 2).drainEnd = some 1060000000 &&
      after (exec (.drainEnd 2) t) (fun u => !u.up 2 && u.time = 1060000000 && doneWith 0 u))) = true := by
  decide +kernel

theorem witness_ident :
    (let s := tAn 3 2 fun l => { l with eocExp := 9, ident := [1], unacked := [{ msg := { typ := 0x17, seq := 9 }, sentAt := 70000000 }] }
     after (exec (.ident 2 9 0x0708 0xA0 0x15 77 0 0 0) s) (fun t => t.get (F.PORT_PARTNER_INFO_PART 2) = 0x0708 &&
       t.get (F.PORT_PARTNER_INFO_PPORT 2) = 5 && t.get (F.PORT_PARTNER_INFO_STEP 2) = 0xA0 && (t.ln 2).eocExp = 10) &&
     after (exec (.ident 2 9 0x0708 0xA0 0x15 77 0 0 0) (State.puts s [(F.PORT_ILM_STATE_VERSION 2, 2), (F.PORT_LINK_CFG_REQUIRE_AUTH 2, 1)]))
       (fun t => t.an 2 = 1 && t.get (F.PORT_AN_STATUS_LAST_FAIL 2) = 7) &&
     after (exec (.identProof 2 9 5) s) (fun t => t.get (F.PORT_PARTNER_INFO_AUTH 2) = 2 && t.isPending (Ev.portPartnerAuthFail 2)) &&
     after (exec (.identProof 2 9 5) (s.put (F.PORT_LINK_CFG_REQUIRE_AUTH 2) 1)) (fun t => t.an 2 = 1 &&
       t.get (F.PORT_AN_STATUS_LAST_FAIL 2) = 7) &&
     after (exec (.msgAck 2 9 0x17) s) (fun t => (t.ln 2).unacked = []) &&
     after (exec (.eocResendTimeout 2) s) (fun t => t.time = 71000000 && t.get (F.PORT_EOC_RETRY_COUNT 2) = 1) &&
     after (exec (.eocResendTimeout 2) (tIlm.modLn 2 fun l => { l with unacked := [{ resends := 7 }] })) (fun t =>
       t.get (F.PORT_LINK_STATUS_DOWN_CAUSE 2) = 3) &&
     after (exec (.eocReservedMsg 2 0x77 9 false) s) (fun t => (t.ln 2).eocQ = ackBytes 0x77 9 && (t.ln 2).eocExp = 10)) = true := by
  decide +kernel

theorem witness_lanes :
    (let s := State.puts tBase [(F.HL_CFG_RATE 1, 2), (F.HL_STATUS_LOCKED 1, 1), (F.HL_STATUS_SIGNAL 1, 1), (F.HL_STATUS_CDR_LOCK 1, 1)]
     after (exec (.laneLoss 1 0 69 none) s) (fun t => !t.flag (F.HL_STATUS_LOCKED 1) && !t.flag (F.HL_STATUS_SIGNAL 1) &&
       t.isPending 319 && t.get (F.EVT_CAUSE_CAUSE 5) = 2) &&
     after (exec (.laneLoss 1 1 500 none) s) (fun t => !t.flag (F.HL_STATUS_LOCKED 1) && t.flag (F.HL_STATUS_SIGNAL 1)) &&
     after (exec (.laneRelock 1 151 true 3) (State.puts s [(F.HL_STATUS_LOCKED 1, 0), (F.CLK_STATUS_HREF_GOOD, 1)])) (fun t =>
       t.flag (F.HL_STATUS_LOCKED 1) && t.get (F.HL_RX_RESUME_DISC_COUNT 1) = 1 && t.get (F.HL_STATUS_PPM 1) = 3)) = true := by
  decide +kernel

/-- Commands waiting in slots 3 and 5; slot 5 came first. -/
def tWait (op : Nat) : State := let s := State.puts tBase [(F.CMD_SLOT_STATE_STATE 3, 1), (F.CMD_SLOT_STATE_STATE 5, 1), (F.CMD_SLOT_STATE_OPCODE 5, op),
    (F.CMD_SLOT_STATE_HANDLE 5, 5121)]
  (s.modSlot 3 fun x => { x with order := 9 }).modSlot 5 fun x => { x with order := 4 }

theorem witness_cmdSubmit :
    (let s := State.puts tBase [(F.CMD_SLOT_STATE_STATE 0, 1), (F.CMD_SLOT_STATE_STATE 1, 3)]
     let full := (List.range 64).foldl (fun (t : State) k => t.put (F.CMD_SLOT_STATE_STATE k) 3) tBase
     decide (s.coreOn ∧ s.pci.perst = false ∧ s.pci.d3hot = false ∧ s.lc ≠ 4) && full.slotState 63 == 3 &&
     after (exec (.cmdSubmit 0x50) (s.putWord (A.CMD_PARAM 1) 77)) (fun t => t.slotState 2 == 1 && t.slotOp 2 == 0x50 &&
       t.get F.CMD_ACCEPT_HANDLE == 2049 && t.get F.CMD_ACCEPT_RESULT == 0 && t.param 2 1 == 77) &&
     after (exec (.cmdSubmit 0x50) full) (fun t => t.get F.CMD_ACCEPT_RESULT == 1 && t.get F.CMD_ACCEPT_HANDLE == 0)) = true := by
  decide +kernel

theorem witness_cmdStart :
    (let locked := (tWait 0x10).put F.SEC_STATE_LC 2
     after (exec .cmdStart (tWait 0x50)) (fun t => t.slotState 5 == 2 && t.slotState 3 == 1) &&
     after (exec .cmdStart locked) (fun t => t.slotState 5 == 3 && t.isPending Ev.secDenied && t.word (A.CMD_CQ 0 0) == BitVec.ofNat 32 (5121 * 65536 + stDenied * 256)) &&
     after (exec .cmdStart ((tWait 0x50).withHerder { running := false })) (fun t => t.slotState 5 == 1)) = true := by
  decide +kernel

theorem witness_cqCons :
    (let s := (State.puts tBase [(F.CMD_CQ_PROD_COUNT, 2), (F.CMD_SLOT_STATE_STATE 3, 3)]).putWord (A.CMD_CQ 0 0) (BitVec.ofNat 32 (3073 * 65536))
     after (exec (.cmdCqConsWrite 1) s) (fun t => t.slotState 3 == 0 && t.get F.CMD_CQ_CONS_COUNT == 1) &&
     after (exec (.cmdCqConsWrite 3) s) (fun t => t.slotState 3 == 3 && t.isPending Ev.devBadAccess && t.get F.CMD_CQ_CONS_COUNT == 0)) = true := by
  decide +kernel

theorem witness_unknownOpcode :
    ((tCmd 0x99 [] tBase).slotState 3 == 2 && !opcodes.contains 0x99 && after (exec (.unknownOpcode 3) (tCmd 0x99 [] tBase)) (doneWith stUnknown)) = true := by
  decide +kernel

/-- SESSION_OPEN as the maker, whose private key in the reset state is 1, signed over a challenge. -/
def tOpen (life : Nat) : State := let s := (tCmd 0x60 [3, BitVec.ofNat 32 life] tNone).withSec { tNone.sec with chal := true }
  let sig := ecdsaSign 1 12345 (s.sessionMessage 3 0 0 60)
  (List.range 16).foldl (fun (t : State) i => t.putWord (A.SEC_RESP i) (BitVec.ofNat 32 (uLe sig (4 * i) 4))) s

theorem witness_sessionOpen :
    ((tOpen 60).taken 3 0x60 && after (exec (.sessionOpen 3) (tOpen 60)) (fun t => doneWith stOk t && t.role == 3 && !t.sec.chal &&
       t.sec.sessEnd == tNone.time + 60 * 60000000000 && t.word (A.CMD_CQ 0 3) == 60)) = true := by
  decide +kernel

theorem witness_sessionDenied :
    (let bad (fails : Nat) := (tOpen 61).put F.SEC_STATE_FAILS fails
     after (exec (.sessionOpen 3) (bad 0)) (fun t => doneWith stDenied t && t.role == 0 && t.word (A.CMD_CQ 0 2) == 3 && t.get F.SEC_STATE_FAILS == 1) &&
     after (exec (.sessionOpen 3) ((bad 7).withSec {})) (fun t => t.word (A.CMD_CQ 0 2) == 1 && t.lockedOut && t.isPending Ev.secAuthFail) &&
     after (exec (.sessionOpen 3) ((bad 8).put F.SEC_STATE_LOCKOUT 1)) (fun t => t.word (A.CMD_CQ 0 2) == 5 && t.get F.SEC_STATE_FAILS == 8)) = true := by
  decide +kernel

theorem witness_sessionsEnd :
    (let s := tInst.withSec { tInst.sec with sessEnd := tInst.time + 7, chal := true, chalTime := tInst.time }
     let l := (tInst.put F.SEC_STATE_LOCKOUT 1).withAo { tInst.ao with lockEnd := tInst.time + 5 }
     after (exec (.sessionClose 3) (tCmd 0x61 [] s)) (fun t => doneWith stOk t && t.role == 0 && t.isPending Ev.secSessionEnd) &&
     after (exec .sessionExpiry s) (fun t => t.role == 0 && t.time == s.time + 7 && t.isPending Ev.secSessionEnd) &&
     after (exec .challengeExpiry s) (fun t => !t.sec.chal && t.time == s.time + 60000000000 && t.word (A.SEC_CHALLENGE 0) == 0) &&
     l.lockedOut && after (exec .lockoutEnd l) (fun t => !t.lockedOut && t.time == l.time + 5)) = true := by
  decide +kernel

theorem witness_newChal : decide (tInst.coreOn ∧ tInst.pci.perst = false ∧ tInst.pci.d3hot = false ∧ tInst.lc ≠ 4) = true := by
  decide +kernel

/-! ## The running line -/

/-- Port 2 up in ILM v3 with a partner that takes part in swaps, and a line changed. -/
def tUp (f : Line → Line) : State := tIlm.modLn 2 fun l => f { l with ability := 0x00400000 }

theorem witness_partnersMessages :
    (let s := tUp fun l => { l with eocExp := 4 }
     after (exec (.status 2 0xF0 0x12 0) s) (fun t => t.get (F.PORT_MON_MARGIN_FE_MIN 2) = 0xF0 && t.get (F.PORT_MON_MARGIN_FE_AVG 2) = 0x12) &&
     after (exec (.rateCap 2 4 25) s) (fun t => (t.ln 2).rateCap = 25 && (t.ln 2).eocQ = ackBytes 0x17 4) &&
     after (exec (.capUpdate 2 4 5000) s) (fun t => (t.ln 2).capRcvd = some 4084) &&
     after (exec (.customDef 2 4 true [1, 2, 3, 4, 5, 6, 7, 8]) s) (fun t => (t.ln 2).custPart = List.replicate 8 0 ++ [1, 2, 3, 4, 5, 6, 7, 8]) &&
     s.takesPart 2 &&
     after (exec (.pisteLead 2 true false false 0 0 0) s) (fun t => !t.leads 2 && t.flag (F.PISTE_PORT_PARTNER_CLAIM 2)) &&
     after (exec (.pisteLead 2 true false false 0 0 0) (s.put (F.PISTE_PORT_CLAIM 2) 1)) (fun t => t.leads 2 &&
       t.isPending (Ev.portLeadConflict 2))) = true := by
  decide +kernel

theorem witness_loadingUpdate :
    (let s := (tAn 3 7 fun l => { l with eocExp := 4 })
     after (exec (.loadingUpdate 2 4 0xF0 [0x00033008, 0x0001200B]) s) (fun t => t.get (toneFld 2 false 0 8) = 0x33 &&
       t.get (toneFld 2 false 0 11) = 0x12 && t.get (toneFld 2 false 0 9) = 0)) = true := by
  decide +kernel

theorem witness_loadingUpdate_service :
    (let s := tUp fun l => { l with eocExp := 4 }
     s.upIlm 2 && s.bitSwapOk 2 && decide ((s.pendDir 2 false).length < 4) && !s.loadingOk 2 [0x1000] &&
       after (exec (.loadingUpdate 2 4 5 [0x1000]) s) (fun t => (t.ln 2).pend = [] && (t.ln 2).eocExp = 5)) = true := by
  decide +kernel

theorem witness_swapWords :
    (let c : Change := { kind := 2, sf := 40, rxDir := true }
     let m : Change := { kind := 2, sf := 40, rxDir := false, mine := true }
     let s := tUp fun l => { l with capRcvd := some 2000, updSent := some (5, []) }
     sfOf (s.sfc 2) 40 = some 40 && sfAfter 40 1 &&
     after (exec (.swapAnnounce 2 false 2 0 40) s) (fun t => (t.ln 2).pend.length = 1 && (t.ln 2).swapQ = [swapPayload 1 true 2 0 40]) &&
     after (exec (.swapAnnounce 2 false 1 1 40) ((s.put (F.PORT_ILM_STATE_LEADING 2) 0))) (fun t =>
       (t.ln 2).swapQ = [swapPayload 1 true 1 1 40]) &&
     after (exec (.swapAnnounce 2 false 1 1 40) tIlm) (fun t => (t.ln 2).pend = [] && (t.ln 2).swapQ = [swapPayload 2 true 1 1 40]) &&
     after (exec (.swapConfirm 2 true 2 0 40) (tUp fun l => { l with pend := [m] })) (fun t => (t.ln 2).pend = [{ m with confirmed := true }]) &&
     after (exec (.swapReject 2 true 2 0 40) (tUp fun l => { l with pend := [m, c] })) (fun t => (t.ln 2).pend = [c]) &&
     after (exec (.swapCancel 2 false 2 0 40) (tUp fun l => { l with pend := [m, c] })) (fun t => (t.ln 2).pend = [m] &&
       t.get (F.PORT_ILM_SWAP_FAIL_COUNT 2) = 1) &&
     after (exec (.swapConfirmDeadline 2) ((tUp fun l => { l with pend := [m, c] }).put (F.PORT_ILM_SFC_COUNT 2) 39)) (fun t =>
       (t.ln 2).pend = [c] && t.isPending (Ev.portSwapFail 2))) = true := by
  decide +kernel

theorem witness_changeAtS :
    (let s := fun c : Change => tUp fun l => { l with pend := [c] }
     let c : Change := { kind := 1, arg := 1, rxDir := true }
     (s c).upIlm 2 && c.sf = (s c).sfc 2 &&
     !syncFlagged (List.replicate 20 (-100, -100)) && syncFlagged (List.replicate 20 (100, 100)) &&
     after (exec (.loadingChangeAtS 2 false (List.replicate 20 (100, 100))) (s c)) (fun t => t.prof 2 true = 1) &&
     after (exec (.loadingChangeAtS 2 true []) (s { c with confirmed := true })) (fun t => t.prof 2 true = 1 && (t.ln 2).resolve.isSome) &&
     after (exec (.loadingChangeAtS 2 false (List.replicate 20 (-100, -100))) (s c)) (fun t => (t.ln 2).pend = [] && t.prof 2 true = 0 && t.isPending (Ev.portSwapFail 2)) &&
     (s { c with rxDir := false, confirmed := true }).flags 2 0) = true := by
  decide +kernel

theorem witness_ownChanges :
    (let s := State.puts (tUp id) [(F.PORT_ILM_CTRL_BITSWAP_EN 2, 1), (F.PORT_ILM_STATE_LEADING 2, 1), (F.PISTE_PORT_ZONE_PROF 2, 1)]
     let few := (s.modLn 2 fun l => { l with toneCapRx := 4 }).put ⟨A.PORT_SNR 2 2, 8, 8⟩ 160
     few.herderRuns && few.bitSwapOk 2 &&
     after (exec (.bitSwapRequest 2 [9]) few) (fun t => ((t.ln 2).updSent.map fun u => u.2.map (· % 4096)) = some [9] && (t.ln 2).unacked.length = 1) &&
     s.leads 2 && s.upIlm 2 &&
     after (exec (.profileSwapAnnounce 2) s) (fun t => (t.ln 2).pend.length = 2 &&
       (t.ln 2).swapQ = [swapPayload 0 false 1 1 4, swapPayload 0 true 1 1 4]) &&
     after (exec (.toneCapAnnounce 2) (s.modLn 2 fun l => { l with capSent := some (1000, true) })) (fun t =>
       (t.ln 2).capSent = none && (t.ln 2).swapQ = [swapPayload 0 false 2 0 4, swapPayload 0 true 2 0 4])) = true := by
  decide +kernel

theorem witness_lpi :
    (let s := tUp fun l => { l with lpi := true, idle := 5000, eocExp := 6 }
     after (exec (.lpiEnter 2 6 90) s) (fun t => (t.ln 2).lpiAt = some 90 && (t.ln 2).eocExp = 7) &&
     after (exec (.lpiWake 2) (s.put (F.PORT_LINK_STATUS_LPI 2) 1)) (fun t => (t.ln 2).lpiOut) &&
     after (exec (.lpiIdleTimeout 2) s) (fun t => (t.ln 2).lpiAt = some 4 && (t.ln 2).unacked.length = 1) &&
     after (exec (.legacyLpiIdle 2) (tIlm.put (F.PORT_LINK_STATUS_MODE 2) 2)) (fun t => t.flag (F.PORT_LINK_STATUS_LPI 2)) &&
     (s.withPiste { s.piste with armed := [{ idx := 0, w0 := 0, w1 := 4 }] }).zoneArmed 2) = true := by
  decide +kernel

theorem witness_symbols :
    (let s := tUp fun l => { l with nakQ := [7], avg := List.replicate 16 10 }
     s.symErased 2 (List.replicate 16 255) && !s.symErased 2 [] && !revOk 1 &&
     after (exec (.symbolReceived 2 (List.replicate 16 255) 0) s) (fun t => t.get (F.PORT_ILM_ERASED_COUNT 2) = 1 &&
       t.isPending (Ev.portErasure 2) && t.out.contains (Output.reverse 2 (revWord 1 7)) && (t.ln 2).sym = 1) &&
     after (exec (.symbolReceived 2 [] 1) (tUp fun l => { l with swapQ := [9] })) (fun t => t.out.contains (Output.reverse 2 (revWord 2 9)) &&
       t.get (F.PORT_ILM_ACKW_ERR_COUNT 2) = 1) &&
     after (exec (.erasureEventEnd 2) (tUp fun l => { l with event := some (1, 2, 3, true), eventLen := 8 })) (fun t =>
       (t.ln 2).records = [(1, 2, 8, 3, true)]) &&
     after (exec (.superframeBoundary 2 false { erle := 6999 }) (s.put (F.PORT_ILM_SFC_COUNT 2) 0xFFFFFFFF)) (fun t =>
       t.sfc 2 = 0 && (t.ln 2).echoAt = some 60000000) &&
     after (exec (.marginLowTimeout 2) (tUp fun l => { l with lowAt := some 0 })) (fun t => t.isPending (Ev.portMarginLow 2) && t.time = 1000000000) &&
     after (exec (.echoLowTimeout 2) (tUp fun l => { l with echoAt := some 0 })) (fun t => t.isPending (Ev.portEchoLow 2))) = true := by
  decide +kernel

/-! ## Frames and paddocks -/

/-- Port 2 up in ILM v3 with its codeword stream, served by lane 1. -/
def tPad (pad : Nat) (f : Pad → Pad) : State :=
  (State.puts (tUp fun l => { l with streaming := true, eocExp := 9 }) [(F.HL_CFG_RATE 1, 2), (F.HL_CFG_PORT 1, 2), (F.HL_CFG_MAX_FRAME 1, 1500),
    (F.HL_STATUS_LOCKED 1, 1), (F.PORT_PAD_STATE_ACTIVE 2, pad), (F.PORT_PAD_TXSEQ_NEXT 2, 7), (F.PORT_PAD_LIMIT_LIMIT 2, 3)]).modPd 2 f

theorem witness_hostFrames :
    (let s := tPad 0 id
     s.bufFill 2 = 0 &&
     after (exec (.hostFrameReceived 1 [1, 2, 3] true false 0) (s.put (F.PORT_LINK_STATUS_UP 2) 0)) (fun t =>
       t.get (F.PORT_DOWN_DISCARD_COUNT 2) = 1 && (t.pd 2).staged = []) &&
     after (exec (.hostFrameReceived 1 [1, 2, 3] false false 0) s) (fun t => (t.pd 2).staged = [{ id := 0, bytes := [1, 2, 3] }]) &&
     after (exec (.hostFrameReceived 1 [1, 2, 3] false true 0) s) (fun t => (t.pd 2).staged = [] && (t.pd 2).hostStage.length = 1 &&
       after (exec (.hostFrameReceived 1 [4] false false 0) t) (fun u => (u.pd 2).staged.map (·.bytes) = [[1, 2, 3], [4]])) &&
     after (exec (.hostFrameReceived 1 [1, 2, 3] false true 0) (s.modPd 2 fun p => { p with hostStage := List.replicate 64 { id := 7, bytes := List.replicate 1536 0 } })) (fun t =>
       (t.pd 2).hostStage.length = 64 && t.isPending (Ev.portPadDrop 2)) &&
     after (exec (.hostPauseFrame 1 true 1 100) s) (fun t => t.flag (F.PORT_PAD_STATE_HOST_PAUSED 2) && (t.pd 2).pauseEnd = some 60002048 &&
       after (exec (.hostPauseExpiry 2) t) (fun u => !u.flag (F.PORT_PAD_STATE_HOST_PAUSED 2) && u.time = 60002048)) &&
     after (exec (.hostPauseFrame 1 true 2 100) s) (fun t => !t.flag (F.PORT_PAD_STATE_HOST_PAUSED 2)) &&
     after (exec (.hostPauseFrame 1 false 0 0) s) (fun t => (t.pd 2).pauseEnd = none) &&
     after (exec (.xoffRefresh 2) ((s.put (F.PORT_PAD_STATE_XOFF 2) 1).modPd 2 fun p => { p with xoffAt := 60000000 })) (fun t =>
       t.time = 60400000 && t.out.head? = some (.flowFrame 1 true 0 0xFFFF))) = true := by
  decide +kernel

/-- A sound idle lot with SEQ 5. -/
def tIdle : BitVec 17280 := codeword (leVal (lotHeader 5 1 0xFFFF 0))

theorem witness_lots :
    (let s := tPad 1 fun p => { p with high := 3, txGrains := [0] }
     after (exec (.codewordSlot 2 false) s) (fun t => t.out.length = s.out.length + 1 && t.get (F.PORT_PAD_TXSEQ_NEXT 2) = 7) &&
     after (exec (.codewordSlot 2 true) s) (fun t => t.get (F.PORT_PAD_TXSEQ_NEXT 2) = 7) &&
     after (exec (.codewordSlot 2 true) (tPad 0 fun p => { p with staged := [{ id := 1, bytes := [1, 2, 3] }] })) (fun t =>
       t.get (F.PORT_PAD_TXSEQ_NEXT 2) = 8 && (t.pd 2).staged = []) &&
     after (exec (.codewordSlot 2 true) (s.modPd 2 fun p => { p with staged := [{ id := 1, bytes := [1, 2, 3] }] })) (fun t =>
       t.get (F.PORT_PAD_TXSEQ_NEXT 2) = 8 && (t.pd 2).tx.length = 1)) = true := by
  decide +kernel

/-- A sound lot with SEQ 5 and frame bytes. -/
def tLot : BitVec 17280 := codeword (leVal (lotHeader 5 0 0xFFFF 0))

theorem witness_lotReceived :
    (let s (k : Nat) := (tPad 1 fun p => { p with high := 3, txGrains := [0] }).modLn 2 fun l => { l with
       rxRuns := [(0, 200, false), (0, k, true), (0, 17080 - k, false)] }
     let full := (s 0).modPd 2 fun p => { p with rxStage := List.replicate 16 (0, 0, []) }
     after (exec (.lotReceived 2 tIdle [] false) (s 1080)) (fun t => (t.ln 2).nakQ = [4 * 256 + 1] && t.get (F.PORT_ILM_LOTS_OK_COUNT 2) = 1) &&
     after (exec (.lotReceived 2 tLot [] true) (s 0)) (fun t => (t.pd 2).rxStage.length = 1 && (t.pd 2).rx = []) &&
     after (exec (.lotReceived 2 tLot [] true) full) (fun t => t.get (F.PORT_PAD_STAGE_DROP_COUNT 2) = 1) &&
     after (exec (.lotReceived 2 tIdle [] false) (s 1081)) (fun t => t.get (F.PORT_ILM_LOTS_LOST_COUNT 2) = 1)) = true := by
  decide +kernel

theorem witness_nakWait :
    after (exec (.nakWaitExpiry 2) (tPad 1 fun p => { p with asked := [(5, 60000000)] })) (fun t =>
      t.time = 60000000 + 1000 * max 16 (tBase.get (F.PORT_PAD_CFG_NAK_WAIT 2)) && (t.ln 2).nakQ = [5 * 256]) = true := by decide +kernel

theorem witness_acks :
    (let lot (q : Nat) : TxLot := { seq := q, place := ⟨0, 0, 0⟩, frames := [], ends := [] }
     let s := tPad 1 fun p => { p with tx := [lot 4, lot 5, lot 6], resend := [5] }
     after (exec (.ackWord 2 4) s) (fun t => ((t.pd 2).tx.map (·.seq)) = [5, 6]) &&
     after (exec (.ackWord 2 7) s) (fun t => t.get (F.PORT_PAD_BAD_WORD_COUNT 2) = 1) &&
     after (exec (.ackWord 2 3) s) (fun t => t = s) &&
     after (exec (.nakWord 2 0x000600) s) (fun t => (t.pd 2).resend = [5, 6]) &&
     after (exec (.nakWord 2 0x000480) s) (fun t => (t.pd 2).resend = [4, 5, 6]) &&
     after (exec (.nakWord 2 0x000601) s) (fun t => (t.pd 2).resend = [5] && t.get (F.PORT_PAD_BAD_WORD_COUNT 2) = 1) &&
     after (exec (.padParams 2 9 5 6 false) s) (fun t => t.get (F.PORT_PAD_LIMIT_LIMIT 2) = 0 && (t.pd 2).partnerRx = 5) &&
     after (exec (.padResume 2 9 1 2 true) s) (fun t => (t.pd 2).resume = some (1, 2, true)) &&
     after (exec (.padVoid 2 9 [(2, 1)]) (s.modPd 2 fun p => { p with asked := [(2, 0)] })) (fun t =>
       t.get (F.PORT_PAD_VOID_RX_COUNT 2) = 1 && (t.pd 2).asked = [])) = true := by
  decide +kernel

/-! ## Traverse -/

/-- Port 2 in Traverse in a state of PORT_TRV_STATE. -/
def tTrv (st : Nat) (f : Trv → Trv) : State :=
  (State.puts (tAn 8 0 fun l => { l with tag := 1 }) [(F.PORT_TRV_STATE_STATE 2, st), (F.PORT_TRV_STATE_Q0_RX 2, 60)]).modTv 2
    fun t => f { t with tag := 77, ownEnd := 70000000, wholeAt := 60000000 }

/-- A header under that tag. -/
def tHdr : TrvHdr := { tag := 77, base := 0, seq := 0, pass := true, q0 := 40 }

theorem witness_trvSearch :
    (let s := tTrv 1 id
     s.allowsTrv 2 && s.clocked && s.trvState 2 = 1 && (tTrv 3 id).trvStands 2 &&
     after (exec (.linkreq 2 { tag := 5 }) s) (fun t => t.trvState 2 = 2 && (t.tv 2).tag = 5) &&
     after (exec (.linkreq 2 { tag := 5 }) (tTrv 3 id)) (fun t => t.trvState 2 = 3 && t.get (F.PORT_TRV_HDR_ERR_COUNT 2) = 1) &&
     after (exec (.linkacc 2 tHdr) (tTrv 1 fun t => { t with awaits := 1 })) (fun t => t.trvState 2 = 3 && t.trvMaster 2 &&
       !t.flag (F.PORT_TRV_STATE_TOKEN 2) && t.out.length = 1) &&
     after (exec (.linkacc 2 { tag := 5 }) (tTrv 1 fun t => { t with awaits := 1 })) (fun t => t.trvState 2 = 1) &&
     after (exec (.linkcfm 2 tHdr) (tTrv 2 fun t => { t with awaits := 2 })) (fun t => t.trvState 2 = 3 && !t.trvMaster 2 &&
       t.flag (F.PORT_TRV_STATE_TOKEN 2) && (t.tv 2).held.length = 1) &&
     after (exec (.acquisitionTimeout 2) (tTrv 2 fun t => { t with awaits := 2 })) (fun t => t.trvState 2 = 1 && t.time = 71000000) &&
     after (exec (.searchExpiry 2) s) (fun t => t.trvState 2 = 0 && t.an 2 = 1)) = true := by
  decide +kernel

theorem witness_trvSearch_times :
    (let s := (tAn 1 0 fun l => { l with anSince := some 60000000 }).put (F.PORT_TRV_CFG_TRV_AFTER 2) 2
     s.allowsTrv 2 && s.starts &&
     after (exec (.trvAfterExpiry 2) s) (fun t => t.an 2 = 2 && (t.ln 2).tokenAt = some 1060000000) &&
     after (exec (.linkreqRetry 2) (tTrv 1 fun t => { t with retryAt := 90000000 })) (fun t => t.freeCtr = 2 && t.time = 90000000)) = true := by
  decide +kernel

set_option maxRecDepth 20000 in
theorem witness_trvBursts :
    (let s := (tTrv 3 id).put (F.PORT_TRV_STATE_REQUESTER 2) 1
     let known := (s.modLn 2 fun l => { l with ident := [1] })
     s.trvStands 2 && !s.up 2 && 20 ≤ s.get (F.PORT_TRV_STATE_Q0_RX 2) && (s.tv 2).got = [] &&
     after (exec (.tokenBurst 2 tHdr) s) (fun t => t.flag (F.PORT_TRV_STATE_TOKEN 2) && t.get (F.PORT_TRV_BURST_OK_COUNT 2) = 1) &&
     after (exec (.dataBurst 2 tHdr [] []) s) (fun t => (t.tv 2).ackSeq = 255 && t.get (F.PORT_TRV_PAY_ERR_COUNT 2) = 1) &&
     after (exec (.dataBurst 2 tHdr (trvCode [0x01, 0x18, 9]) []) s) (fun t => (t.tv 2).ackSeq = 0) &&
     after (exec (.dataBurst 2 tHdr (trvCode [0x01, 0x18, 9]) [3, 4, 5, 6]) s) (fun t => t.get (F.PORT_TRV_TRUNC_COUNT 2) = 1 && t.get (F.PORT_TRV_BURST_OK_COUNT 2) = 0) &&
     after (exec (.identBurst 2 tHdr (trvCode (0x16#8 :: 0x07 :: List.replicate 92 1)) []) s) (fun t => t.get (F.PORT_PARTNER_INFO_PART 2) = 0x0716 &&
       (t.tv 2).held.length = 1) &&
     after (exec (.proofBurst 2 tHdr (trvCode [1]) []) known) (fun t => t.get (F.PORT_PARTNER_INFO_AUTH 2) = 2 && (t.tv 2).judged) &&
     after (exec (.proofBurst 2 tHdr (trvCode [1]) []) (known.put (F.PORT_LINK_CFG_REQUIRE_AUTH 2) 1)) (fun t => t.trvState 2 = 0 &&
       t.get (F.PORT_LINK_STATUS_DOWN_CAUSE 2) = 11) &&
     after (exec (.leave 2 tHdr) s) (fun t => t.trvState 2 = 0 && t.get (F.PORT_LINK_STATUS_DOWN_CAUSE 2) = 5)) = true := by
  decide +kernel

theorem witness_trvReceptions :
    (let s := tTrv 1 id
     let r := tTrv 1 fun t => { t with rcpt := some { len := 0, peak := 20 }, reqRx := 2 }
     let h := leBytes 9 14
     after (exec (.preambleDetected 2 1 30 20 500) s) (fun t => t.get (F.PORT_TRV_STATE_Q0_RX 2) = 42 && (t.tv 2).rcpt = some { len := 1, peak := 30, gain := 20 }) &&
     after (exec (.falseDetection 2 none) r) (fun t => (t.tv 2).rcpt = none && t.get (F.PORT_TRV_FALSE_SYNC_COUNT 2) = 1) &&
     after (exec (.shadowRestart 2 24 0 60 20 0) r) (fun t => t.get (F.PORT_TRV_SHADOW_COUNT 2) = 1 && t.get (F.PORT_TRV_STATE_Q0_RX 2) = 60) &&
     after (exec (.shadowRestart 2 25 0 60 20 0) r) (fun t => t.get (F.PORT_TRV_SHADOW_LATE_COUNT 2) = 1) &&
     after (exec (.burstTruncated 2) r) (fun t => (t.tv 2).rcpt = none && (t.tv 2).reqRx = 1) &&
     after (exec (.trvHeaderDiscard 2 0) r) (fun t => (t.tv 2).rcpt = none && t.get (F.PORT_TRV_HDR_ERR_COUNT 2) = 0) &&
     after (exec (.trvHeaderDiscard 2 (BitVec.ofNat 128 (9 + 2 ^ 112 * crc16 h))) r) (fun t => t.get (F.PORT_TRV_HDR_ERR_COUNT 2) = 1)) = true := by
  decide +kernel

theorem witness_turns :
    (let s := (tTrv 3 fun t => { t with turnAt := 80000000 }).put (F.PORT_TRV_STATE_TOKEN 2) 1
     let m := (tTrv 3 id).put (F.PORT_TRV_STATE_REQUESTER 2) 1
     let b := State.puts tBase [(F.PORT_BELL_STATE_SENDING 2, 1), (F.PORT_BELL_STATE_LEFT 2, 2), (F.PORT_BELL_CFG_LISTEN 2, 1), (F.PORT_BELL_CFG_GROUP 2, 9)]
     after (exec (.turnStart 2) s) (fun t => !t.flag (F.PORT_TRV_STATE_TOKEN 2) && t.time = 80000000 && t.get (F.PORT_TRV_BURST_TX_COUNT 2) = 1) &&
     after (exec (.tokenReclaim 2) m) (fun t => t.get (F.PORT_TRV_TOKEN_RECLAIM_COUNT 2) = 1) &&
     after (exec (.trvLossTimeout 2) m) (fun t => t.trvState 2 = 0 && t.isPending (Ev.portLinkDown 2)) &&
     after (exec (.bellSend 2) b) (fun t => t.flag (F.PORT_BELL_STATE_SENDING 2) && t.get (F.PORT_BELL_STATE_LEFT 2) = 1) &&
     after (exec (.bellAccepted 2 6 9 {}) b) (fun t => t.get (F.PORT_BELL_HEARD_COUNT 2) = 1 && t.isPending (Ev.portBellRx 2)) &&
     after (exec (.bellAccepted 2 5 9 {}) b) (fun t => t = b)) = true := by
  decide +kernel

/-! ## The stack -/

/-- A GENERAL partition 3 of 2 MiB, linear, on one pseudo-channel 5, whose bank 0 is filled. -/
def tMem : State := (State.puts tBase [(F.FAB_PART_VALID 3, 1), (F.FAB_PART_TYPE 3, 4), (F.FAB_PART_SIZE_SIZE_MIB 3, 2), (F.FAB_PART_MAP 3, 0),
  (F.FAB_PCMAP_VALID 0, 1), (F.FAB_PCMAP_PC 0, 5)] |>.modBk 5 0 fun b => { b with filled := true, spares := [(9, 2)] })

/-- Bytes 0xA5, 0xA6, … -/
def tData : Bytes := (List.range 64).map fun i => BitVec.ofNat 8 (0xA5 + i)

/-- One cell of the row 0 of that bank. -/
def tCell (s : State) (col : Nat) : Nat × Nat := s.cell (cellAddr 5 0 0 col)

theorem witness_stackWrite :
    (let w := exec (.memRequest 0x22 3 0x40 0x103 true tData false false false []) tMem
     tMem.coreOn && tMem.partValid 3 && tMem.reaches 0x22 4 true && !tMem.fenced 5 && !tMem.stackHeld 5 &&
     (tMem.unitReq 0x22 3 0x40 0x103 true tData).2 = 5 &&
     after w (fun t => tCell t 64 = (0xA5, checkBits 0xA5) && tCell t 65 = (0xA6, checkBits 0xA6) && tCell t 66 = (0, 0) &&
       tCell t 72 = (0xAD, checkBits 0xAD) && t.out = [.memAnswer 0x22 0 []]) &&
     after (exec (.memRequest 0x22 3 0x40 0x103 true tData false false false []) (State.puts tMem
         [(F.MEM_FLIP_CTRL_ARM 2 1, 1), (F.MEM_FLIP_CTRL_FLIP_REQ 2 1, 0x22), (F.MEM_FLIP_CTRL_BEATS 2 1, 1), (F.MEM_FLIPMASK_MASK 2 1 0, 2),
          (F.MEM_FLIPMASK_MASK 2 1 2, 1)]))
       (fun t => tCell t 64 = (0xA7, checkBits 0xA5 ^^^ 1) && tCell t 65 = (0xA6, checkBits 0xA6) && tCell t 72 = (0xAD, checkBits 0xAD) &&
         !t.flag (F.MEM_FLIP_CTRL_ARM 2 1)) &&
     after (exec (.memRequest 0x22 3 0x200000 1 true tData false false false []) tMem) (fun t => t = tMem) &&
     after (exec (.memRequest 0x22 3 0x40 1 true tData false false false []) (tMem.put (F.MEM_INTEG_STATE_FROZEN 2 1) 1)) (fun t =>
       t.out = [.memAnswer 0x22 5 []] && t.get (F.MEM_FENCED_REQ_COUNT 2 1) = 1 && t.dram = []) &&
     after (exec (.memRequest 0x22 3 0x40 1 true tData false false false []) (tMem.put (F.MEM_CH_STATE_SELF_REFRESH 2) 1)) (fun t =>
       (t.pc 5).queue.length = 1 && t.out = [])) = true := by decide +kernel

theorem witness_stackRead :
    (let rd (s : State) := exec (.memRequest 0x22 3 0x40 3 false [] false false false []) s
     let s := (tMem.storeByte (cellAddr 5 0 0 64) 0xA5).storeByte (cellAddr 5 0 0 65) 0x11
     after (rd s) (fun t => t.out = [.memAnswer 0x22 0 ([0xA5, 0x11] ++ List.replicate 62 0)] && t.dram = s.dram) &&
     after (rd (s.putCell (cellAddr 5 0 0 64) 0xA4 (checkBits 0xA5))) (fun t =>
       t.out = [.memAnswer 0x22 1 ([0xA5, 0x11] ++ List.replicate 62 0)] && t.get (F.MEM_CE_COUNT 2 1) = 1) &&
     after (rd (s.storePoison (cellAddr 5 0 0 65))) (fun t => t.out = [.memAnswer 0x22 3 ([0xA5, 0] ++ List.replicate 62 0)]) &&
     decide (decodeByte 0xA6 (checkBits 0xA5) = .ue) && !s.frozen 5 &&
     after (rd (s.modBk 5 0 fun b => { b with filled := false })) (fun t => t.out = [.memAnswer 0x22 4 (List.replicate 64 0)]) &&
     after (rd (s.put (F.MEM_INTEG_STATE_FROZEN 2 1) 1)) (fun t => t.out = [.memAnswer 0x22 5 (List.replicate 64 0)]) && s.coreOn && !s.fenced 5 && !s.selfRefresh 2) = true := by decide +kernel

theorem witness_refresh :
    (let s := tMem.modBk 5 0 fun b => { b with openRow := some 4, refNext := 8191 }
     s.refreshes 5 &&
     after (exec (.refreshDue 5 0 0) s) (fun t => (t.bk 5 0).refNext = 0 && (t.bk 5 0).openRow = none) &&
     after (exec (.refreshDue 5 0 1) s) (fun t => (t.bk 5 0).refNext = 8191 && (t.bk 5 0).postpone = 1) &&
     after (exec (.refreshDue 5 0 1) (s.modBk 5 0 fun b => { b with postpone := 4 })) (fun t => (t.bk 5 0).refNext = 0 &&
       t.get (F.MEM_REF_LIMIT_COUNT 2 1) = 1) &&
     after (exec (.refreshDue 5 0 2) s) (fun t => (t.bk 5 0).refNext = 0 && (t.bk 5 0).pulled = 1) &&
     after (exec (.refreshDue 5 0 2) (s.modBk 5 0 fun b => { b with pulled := 4 })) (fun t => (t.bk 5 0).refNext = 8191) &&
     after (exec (.refreshDue 5 0 2) (s.modBk 5 0 fun b => { b with postpone := 2 })) (fun t => (t.bk 5 0).postpone = 1) &&
     after (exec (.refreshDue 5 0 0) (s.modBk 5 0 fun b => { b with pulled := 2 })) (fun t => (t.bk 5 0).pulled = 1 && (t.bk 5 0).refNext = 8191) &&
     after (exec (.tallyPeriodEnd 2) (s.modBk 5 0 fun b => { b with tally := [(1, 2, 0)] })) (fun t => (t.bk 5 0).tally = []) &&
     after (exec (.pageIdleExpiry 5 0) s) (fun t => (t.bk 5 0).openRow = none) &&
     after (exec (.drowsePowerDown 5) (s.withPwr { s.pwr with mode := 1 })) (fun t => (t.pc 5).powerDown && (t.bk 5 0).openRow = none)) = true := by
  decide +kernel

theorem witness_gleaner :
    (let s := tMem.modPc 5 fun p => { p with fillLap := false }
     tMem.gleans 5 &&
     after (exec (.gleanerRow 5 []) (tMem.modPc 5 fun p => { p with gleanPos := 33 })) (fun t => (t.pc 5).gleanPos = 34) &&
     after (exec (.gleanerRow 5 []) ((tMem.modPc 5 fun p => { p with gleanPos := 33 }).modBk 5 1 fun b => { b with water := 2 })) (fun t =>
       (t.bk 5 1).water = 3 && t.dram = []) &&
     after (exec (.lapAlarm 5) ((s.put (F.MEM_INTEG_STATE_GLEAN_ACTIVE 2 1) 1))) (fun t => (t.pc 5).lapAlarm && t.isPending Ev.fabLapAlarm) &&
     after (exec (.autoRepair 5 false) (s.modPc 5 fun p => { p with tsvDue := [77] })) (fun t =>
       t.flag (F.MEM_TSV_SPARE_S0_VALID 2 1) && t.get (F.MEM_TSV_SPARE_S0_TSV 2 1) = 77)) = true := by decide +kernel

theorem witness_gleanerRepairs :
    (let s := (((tMem.modPc 5 fun p => { p with fillLap := false }).putCell (cellAddr 5 0 0 64) 0xA4 (checkBits 0xA5)).putCell
       (cellAddr 5 0 0 700) 0xA6 (checkBits 0xA5))
     after (exec (.gleanerRow 5 []) s) (fun t => tCell t 64 = (0xA5, checkBits 0xA5) && tCell t 700 = (0, 31) && tCell t 701 = (0, 0) &&
       (t.pc 5).gleanPos = 1 && (t.bk 5 0).openRow = none && t.isPending (Ev.memScrubUe 2))) = true := by decide +kernel

theorem witness_autoRepair :
    (let s := (tMem.putCell (cellAddr 5 0 3 64) 0xA4 (checkBits 0xA5)).modPc 5 fun p => { p with spareDue := [3] }
     (s.bk 5 0).freeSpare = some 0 && s.flag F.FAB_INTEG_CFG_AUTO_REPAIR && s.herderRuns && s.gleans 5 &&
     decide ((s.pc 5).spareDue = [3])) = true := by decide +kernel

theorem witness_lame :
    (let l := [(BitVec.ofNat 16 256, BitVec.ofNat 16 100)]
     let s := State.puts tBase ((List.range 9).flatMap fun i => [(F.FAB_PCMAP_VALID i, 1), (F.FAB_PCMAP_PC i, i)])
     let s := State.puts s [(F.FAB_SCHED_CFG_LAME_EN, 1), (F.MEM_PC_STATE_LAME_RUN 4 0, 9), (F.MEM_PC_STATE_LAME_RUN 0 1, 3)]
     s.inService = List.range 9 &&
     after (exec (.lameWindow (List.replicate 8 (256, 100) ++ [(300, 201)])) s) (fun t => t.get F.FAB_LAT_MEDIAN_QUALIFIED = 9 &&
       t.get F.FAB_LAT_MEDIAN_NS = 100 && t.flag (F.MEM_PC_STATE_LAME 4 0) && t.isPending (Ev.memLame 4) &&
       t.get (F.MEM_PC_STATE_LAME_RUN 0 1) = 0) &&
     after (exec (.lameWindow l) s) (fun t => t.get F.FAB_LAT_MEDIAN_QUALIFIED = 1 && t.get (F.MEM_PC_STATE_LAME_RUN 4 0) = 9)) = true := by
  decide +kernel

theorem witness_repairs :
    (let w0 (op : Nat) := BitVec.ofNat 32 (5 + op * 65536)
     (tMem.bk 5 0).freeSpare = some 0 &&
     (tCmd 0x30 [w0 0, 4] tMem).taken 3 0x30 && tMem.repairable 5 && bits (w0 0).toNat 16 2 = 0 &&
     after (exec (.memRepairSpareRow 3 true) (tCmd 0x30 [w0 0 ||| 16, 4] { tMem with part := .xs708 })) (doneWith 2) &&
     after (exec (.memRepairSteerTsv 3 false) (tCmd 0x30 [w0 1, 103] tMem)) (fun t => doneWith 0 t && t.freeTsvs 5 = 1 &&
       t.get (F.MEM_TSV_SPARE_S0_TSV 2 1) = 103) &&
     after (exec (.memRepairSteerTsv 3 false) (tCmd 0x30 [w0 1, 103] (State.puts tMem [(F.MEM_TSV_SPARE_S0_VALID 2 1, 1),
       (F.MEM_TSV_SPARE_S1_VALID 2 1, 1)]))) (doneWith 3) &&
     after (exec (.memRepairReturn 3 false) (tCmd 0x30 [w0 2] (tMem.withNv { tMem.nv with retired := 4 }))) (fun t => doneWith 0 t &&
       t.nv.returning = 4)) = true := by decide +kernel

theorem witness_retrain :
    (after (exec (.memRetrain 3 {}) (tCmd 0x31 [5] (tMem.put (F.MEM_INTEG_STATE_FROZEN 2 1) 1))) (doneWith 2) &&
     (tCmd 0x31 [5] tMem).taken 3 0x31 && tMem.chRole 2 ≠ 2 && !tMem.frozen 5 && !(tMem.pc 5).retrain && 5 < tMem.nPcs &&
     tMem.freeTsvs 5 = 2) = true := by decide +kernel

theorem witness_release :
    (let fz (r : Nat) := State.puts tMem [(F.MEM_INTEG_STATE_FROZEN 2 1, 1), (F.MEM_INTEG_STATE_CAUSE 2 1, 2), (F.MEM_INTEG_STATE_REC_READ 2 1, r)]
     let w (act : Nat) := [BitVec.ofNat 32 (5 + 256 * act)]
     after (exec (.memRelease 3 false) (tCmd 0x32 (w 0) tMem)) (fun t => doneWith 0 t && t.word (A.CMD_CQ 0 2) = 0xFFFFFFFF) &&
     after (exec (.memRelease 3 false) (tCmd 0x32 (w 1) (fz 0))) (doneWith 2) &&
     after (exec (.memRelease 3 false) (tCmd 0x32 (w 0) (fz 1))) (fun t => doneWith 0 t && !t.frozen 5) &&
     after (exec (.freezeAutoRelease 5 false) ((fz 1).put F.FAB_INTEG_CFG_AUTO_REL 3)) (fun t => !t.frozen 5 && t.time = 300000000)) = true := by
  decide +kernel

theorem witness_releaseSpares :
    (let fz := State.puts tMem [(F.MEM_INTEG_STATE_FROZEN 2 1, 1), (F.MEM_INTEG_STATE_CAUSE 2 1, 2), (F.MEM_INTEG_STATE_REC_READ 2 1, 1)]
     let s := tCmd 0x32 [0x105] fz
     s.taken 3 0x32 && s.frozen 5 && bits (s.param 3 0) 8 2 = 1 && (s.bk 5 (s.frozenUnit 5).1).freeSpare = some 0) = true := by
  decide +kernel

theorem witness_releaseRetires :
    (let fz := State.puts tMem [(F.MEM_INTEG_STATE_FROZEN 2 1, 1), (F.MEM_INTEG_STATE_CAUSE 2 1, 2), (F.MEM_INTEG_STATE_REC_READ 2 1, 1)]
     let s := tCmd 0x32 [0x205] fz
     s.taken 3 0x32 && s.frozen 5 && bits (s.param 3 0) 8 2 = 2 && s.chRole 2 ≠ 2) = true := by
  decide +kernel

/-! ## Evidence and census -/

/-- An EVIDENCE partition 1 and a CENSUS partition 2 on pseudo-channel 5, and ring 1 recording in chunks 2 to 5. -/
def tEvid : State := (State.puts tMem [(F.FAB_PART_VALID 1, 1), (F.FAB_PART_TYPE 1, 2), (F.FAB_PART_SIZE_SIZE_MIB 1, 8),
  (F.EVID_RING_CFG_ENABLE 1, 1), (F.EVID_RING_CFG1_BASE_MIB 1, 2), (F.EVID_RING_CFG1_SIZE_MIB 1, 4), (F.EVID_TRIG_CFG_CMD_EN 1, 1),
  (F.EVID_RING_STATE_STATE 1, 1), (F.EVID_RING_STATE_CUR_MIB 1, 2)]).modRing 1 fun r => { r with on := true }

theorem witness_evid :
    (after (exec (.evidTrigger 3) (tCmd 0x40 [2] (tEvid.put (F.EVID_RING_STATE_STATE 1) 3))) (fun t => doneWith 0 t &&
       t.get F.EVID_TRIG_REFUSED_COUNT = 1) &&
     (tCmd 0x40 [2] tEvid).taken 3 0x40 && tEvid.recording 1 && (tEvid.ring 1).pos = 0 && tEvid.postSeg 1 = none &&
     after (exec (.evtTrigPin 5 20) (State.puts tBase ([0, 1, 2, 3].map fun r => (F.EVID_TRIG_CFG_PIN_EN r, b2n (r < 2))))) (fun t =>
       !t.evid.pinReady && t.get F.EVID_TRIG_REFUSED_COUNT = 2 && after (exec (.evtTrigPin 9 20) t) (fun u => !u.evid.pinReady)) &&
     after (exec (.evidExport 3) (tCmd 0x41 [1] (tEvid.put (F.EVID_SEG_STATE 1) 1))) (doneWith 1) &&
     after (exec (.evidExport 3) (tCmd 0x41 [1] tEvid)) (doneWith 2) &&
     after (exec (.evidExport 3) (tCmd 0x41 [0x301] (tEvid.put (F.EVID_SEG_STATE 1) 2))) (doneWith 2) &&
     after (exec (.evidRelease 3) (tCmd 0x41 [0x101] (tEvid.put (F.EVID_SEG_STATE 1) 2))) (fun t => doneWith 0 t && t.get (F.EVID_SEG_STATE 1) = 0) &&
     after (exec (.evidRelease 3) (tCmd 0x41 [0x101] (tEvid.put (F.EVID_SEG_STATE 1) 1))) (doneWith 1)) = true := by decide +kernel

theorem witness_segmentFreeze :
    (let s := (State.puts tEvid [(F.EVID_SEG_STATE 3, 1), (F.EVID_SEG_RING 3, 1)]).withEvid { tEvid.evid with postTime := [(3, 70000000)] }
     s.get (F.EVID_SEG_STATE 3) = 1 && s.recording (s.get (F.EVID_SEG_RING 3)) && !s.postMoved 3) = true := by decide +kernel

theorem witness_export :
    (let s := tCmd 0x41 [0x203] (State.puts (tEvid.put (F.EVID_SEG_STATE 3) 2) [(F.EVID_SEG_RING 3, 1), (F.EVID_SEG_FIRST_MIB 3, 4), (F.EVID_SEG_W1_LAST_MIB 3, 3)])
     s.taken 3 0x41 && s.herderRuns && s.stackOpen && decide (s.segRanges 3 = ((4, 2), some (2, 2)))) = true := by
  decide +kernel

theorem witness_census :
    (let s := State.puts tMem [(F.FAB_PART_VALID 2, 1), (F.FAB_PART_TYPE 2, 3), (F.FAB_PART_SIZE_SIZE_MIB 2, 1), (F.CEN_CFG_ENABLE, 1),
       (F.CEN_CFG_PERIOD_US, 1000), (F.CEN_STATUS_RUNNING, 1)]
     decide (s.partOf 3 = some 2) && s.clocked && s.stackOpen && (unitsOf 0 8192).length = 128 && !s.fenced 5) = true := by decide +kernel

/-! ## Position and the piste map -/

/-- An odometer of 100 pulses per turn, with a scale of 2 mm per edge, moving forward. -/
def tPos : State := (State.puts tBase [(F.POS_CFG_ODO_EN, 1), (F.POS_WHEEL_PPR, 100), (F.POS_SCALE_MM_PER_EDGE, 33554432), (F.POS_STATE_ORIENT, 1),
  (F.POS_STATE_DIR, 1), (F.POS_STATE_STOPPED, 1)]).withPos { tBase.pos with moved := true }

theorem witness_edges :
    (after (exec (.odometerEdge true false 1000 300000) tPos) (fun t => t.posMm.natAbs = 2 && t.get F.POS_EDGES_COUNT = 1 &&
       t.time = 60001000 && !t.flag F.POS_STATE_STOPPED && t.isPending Ev.posMotion && t.pos.odo.natAbs = 33554432 &&
       after (exec (.odometerEdge true true 1000 300000) t) (fun u => u.posMm = 2 * t.posMm) &&
       after (exec (.odometerEdge false false 1000 300000) t) (fun u => u.posMm = 0)) &&
     after (exec (.odometerEdge true true 1000 300000) tPos) (fun t => t.posMm = 0 && t.get F.POS_ODO_ERR_COUNT = 1) &&
     after (exec (.odometerEdge true false 1000 300000) (tPos.put F.POS_STATE_HOLD 1)) (fun t => t.posMm = 0 && t.get F.POS_EDGES_COUNT = 0) &&
     after (exec (.odometerEdge true false 1000 300000) tBase) (fun t => t.pos.a && t.get F.POS_EDGES_COUNT = 0) &&
     after (exec (.odometerEdge true false 1000 0) tPos) (fun t => !t.pos.a && t.posMm = 0 && t.get F.POS_EDGES_COUNT = 0)) = true := by decide +kernel

theorem witness_ticks :
    (let s := tPos.put F.POS_STATE_STOPPED 0
     after (exec .positionTick (s.withPos { s.pos with edges := [59900000, 57400000] })) (fun t => t.get F.POS_SPEED_SPEED = 800 && !t.flag F.POS_STATE_HOLD) &&
     after (exec .positionTick (s.withPos { s.pos with speeds := [9], edges := [60000000, 59966667] })) (fun t => t.flag F.POS_STATE_HOLD && t.pos.heldMms = 9 &&
       t.isPending Ev.posHold && t.get F.POS_SPEED_ACCEL = 32767) &&
     after (exec .positionTick ((s.put F.POS_STATE_HOLD 1).withPos { s.pos with heldMms := 5000, tickAt := 59000000, exAt := 59000000 })) (fun t => t.posMm.natAbs = 5) &&
     after (exec .holdTimeout (s.put F.POS_STATE_HOLD 1)) (fun t => !t.flag F.POS_STATE_HOLD && t.flag F.POS_STATE_DEGRADED && t.time = 10000000000) &&
     after (exec .stoppedTimeout (s.withPos { s.pos with edgeAt := 60000000 })) (fun t => t.flag F.POS_STATE_STOPPED && t.time = 2060000000 &&
       t.isPending Ev.posMotion) &&
     after (exec .fixAgeExpiry (State.puts tBase [(F.POS_CFG_ODO_EN, 0), (F.POS_STATE_FIX_VALID, 1)])) (fun t => !t.flag F.POS_STATE_FIX_VALID)) = true := by
  decide +kernel

/-- A route table of route 7 with one entry of 100 m from 1 km, valid in both directions. -/
def tTable : Bytes :=
  let body := leBytes (1000000 + 2 ^ 40 * 100000) 8 ++ leBytes (2 ^ 61 + 196608) 8
  let head := leBytes 0x45545350 4 ++ leBytes 1 2 ++ leBytes 64 2 ++ leBytes 7 4 ++ leBytes 1 4 ++ leBytes 9 4 ++ leBytes 0 8 ++
    leBytes (crc32 body) 4 ++ List.replicate 28 0
  head ++ leBytes (crc32 head) 4 ++ body

theorem witness_tables :
    (let s := tPos.withNv { tPos.nv with piste := [(0, tTable)] }
     tableFault tTable = none &&
     after (exec (.pisteLoad 3) (tCmd 0x10 [3] s)) (fun t => doneWith 2 t && t.word (A.CMD_CQ 0 2) = 0xFFFFFFFF) &&
     after (exec (.pisteLoad 3) (tCmd 0x10 [2] s)) (fun t => doneWith 2 t) &&
     after (exec (.pisteSave 3 true) (tCmd 0x11 [1] s)) (fun t => doneWith 4 t && t.nv = s.nv) &&
     after (exec (.pisteSave 3 false) (tCmd 0x11 [2] (s.put F.PISTE_STATUS_DIRTY 1))) (fun t => doneWith 0 t && !t.flag F.PISTE_STATUS_DIRTY &&
       (Tbl.get t.nv.piste [] 1).length = 64) &&
     after (exec (.pisteSave 3 true) (tCmd 0x11 [3] s)) (doneWith 2) &&
     after (exec (.autosave false) ((State.puts (s.withFold { s.fold with sections := [(7, List.replicate 20 0 ++ [5, 0, 0, 0])] })
         [(F.PISTE_TABLE_ROUTE_ROUTE, 5), (F.PISTE_CTRL_AUTOSAVE, 1), (F.PISTE_STATUS_DIRTY, 1)]).withPos { s.pos with saveDue := true }))
       (fun t => !t.pos.saveDue && !t.flag F.PISTE_STATUS_DIRTY && (Tbl.get t.nv.piste [] 1).length = 64)) = true := by decide +kernel

theorem witness_fix :
    (let w (r at_ : Nat) : List Word := [BitVec.ofNat 32 r, 0xFFFFFFFF, 0x1FF, BitVec.ofNat 32 at_, 0]
     after (exec (.posFix 3) (tCmd 0x12 (w 0 60000000) tPos)) (doneWith 2) &&
     after (exec (.posFix 3) (tCmd 0x12 (w 7 60000001) tPos)) (doneWith 2) &&
     after (exec (.posFix 3) (tCmd 0x12 (w 7 60000000) (tPos.put F.PISTE_TABLE_ROUTE_ROUTE 7))) (fun t => doneWith 0 t && t.posMm = -1 &&
       t.flag F.POS_STATE_FIX_VALID && t.get F.POS_ROUTE_ROUTE = 7 && t.word (A.CMD_CQ 0 2) = 0xFFFFFFFF)) = true := by decide +kernel

theorem witness_engine :
    (let s := ((State.puts tPos [(F.POS_STATE_FIX_VALID, 1), (F.PISTE_STATUS_ROUTE_MATCH, 1), (F.PISTE_CTRL_ARM_EN, 1), (F.PISTE_CTRL_LEARN_EN, 1),
       (F.POS_STATE_STOPPED, 0)]).putEntry 4 (0 + 2 ^ 40 * 100000) (2 ^ 61 + 196608)).putWide A.POS_POSITION 50000
     s.clocked && decide (s.validEntries = [4]) && (s.armsNow 4).isSome &&
     after (exec .pisteEngineTick s) (fun t => decide (t.piste.armed.map (·.idx) = [4]) && t.get F.PISTE_STATUS_ARMED = 1 &&
       t.piste.prev = some 50000)) = true := by decide +kernel

theorem witness_learning :
    (let s := ((State.puts tPos [(F.PISTE_CTRL_LEARN_EN, 1), (F.POS_STATE_STOPPED, 0)]).putEntry 4 (0 + 2 ^ 40 * 100000) (2 ^ 61 + 2 ^ 60 + 196608 + 2 ^ 29)).modLn 2
       fun l => { l with tag := 5, records := [(0, 0, 0, 50000, true)] }
     after (exec (.learningRecord 2) s) (fun t => ePorts (t.entry 4).2 = 4 && (t.ln 2).records = []) &&
     after (exec (.passUpdate) (s.withPiste { s.piste with passes := [(4, true)] })) (fun t => eConf (t.entry 4).2 = 3 && eHits (t.entry 4).2 = 1 &&
       t.flag F.PISTE_STATUS_DIRTY) &&
     after (exec (.passUpdate) ((s.put F.PISTE_LEARN_AGE_LIMIT 1).withPiste { s.piste with passes := [(4, false)] })) (fun t => t.entry 4 = (0, 0))) = true := by
  decide +kernel

theorem witness_learnNew :
    (let s := ((State.puts tPos [(F.PISTE_CTRL_LEARN_EN, 1), (F.POS_STATE_STOPPED, 0)]).modLn 2
       fun l => { l with tag := 5, records := [(0, 0, 0, 50000, true)] })
     after (exec (.learningRecord 2) s) (fun t => eLearned (t.entry 0).2 && eConf (t.entry 0).2 = 1 && ePorts (t.entry 0).2 = 4 &&
       t.piste.wait = [0])) = true := by decide +kernel

/-! ## Calibration and diagnostics -/

/-- A unit in a stage of its run, with the trims it had. -/
def tCal (u st : Nat) (s : State) : State :=
  s.withCal (Tbl.set s.cal {} u { Tbl.get s.cal {} u with stage := st, old := (trimRegs u).map fun a => s.word a, valid := true })

theorem witness_calRun :
    (let s := (tBase.put (F.PORT_CAL_STATE_DUE 2) 1)
     !s.calHeld 2 && s.hasUnit 2 && s.calHeld 3 &&
     after (exec (.calRun 3) (tCmd 0x20 [4, 0] s)) (fun t => t.slotState 3 = 2 && (t.slot 3).begun && t.flag (F.PORT_CAL_STATE_DUE 2) &&
       (t.calOf 2).asked) &&
     after (exec (.calRun 3) (tCmd 0x20 [8, 0] s)) (fun t => t.slotState 3 = 3 && t.word (A.CMD_CQ 0 4) = 8) &&
     after (exec (.calRun 3) ((State.puts (tCmd 0x20 [8, 0] s) [(F.CMD_SLOT_STATE_STATE 9, 2), (F.CMD_SLOT_STATE_OPCODE 9, 0x20)]).modSlot 9
       fun x => { x with begun := true })) (doneWith 1) &&
     after (exec (.calUnitStart 2) (s.put F.THM_CAL_CFG_AUTO_EN 1)) (fun t => (t.calOf 2).stage = 1 && t.flag (F.PORT_CAL_STATE_RUNNING 2) &&
       decide ((t.calOf 2).old.length = 9))) = true := by decide +kernel

theorem witness_calStage :
    (let z : List (BitVec 8) := (List.range 24).map fun i => BitVec.ofNat 8 i
     let s := tCal 2 1 tIlm
     !s.calHeld 2 && s.upIlm 2 &&
     after (exec (.calStageEnd 2 (z.take 16 ++ [0, 0, 0, 0, 0, 0, 0, 0xF0]) [100] [94] {}) s) (fun t => t.get (F.PORT_TRIM_ADC_OFFSET 2 3) = 3 &&
       t.get (F.PORT_TRIM_ADC_SKEW 2 7) = 0xF0 && (t.calOf 2).stage = 2) &&
     after (exec (.calStageEnd 2 z [100] [94] {}) s) (fun t => t.get (F.PORT_TRIM_ADC_OFFSET 2 3) = 0 && t.isPending (Ev.portCalFail 2) &&
       t.get F.THM_CAL_FAILS_COUNT = 1 && (t.calOf 2).stage = 2) &&
     after (exec (.calStageEnd 2 [8, 0] [100] [1] {}) (tCal 2 2 tIlm)) (fun t => t.get (F.PORT_TRIM_HYB_HYB_RES 2) = 8 && (t.calOf 2).stage = 0 &&
       t.get F.THM_CAL_RUNS_COUNT = 1) &&
     after (exec (.calStageEnd 2 [8, 0] [100] [1] {}) (tCal 2 2 tBase)) (fun t => t.get (F.PORT_TRIM_HYB_HYB_RES 2) = 0 && (t.calOf 2).stage = 0) &&
     after (exec (.calStageEnd 21 (List.replicate 13 0xFF) [100] [100] {}) (tCal 21 3 tBase)) (fun t => t.get (F.MEM_TRIM_RD 2 1 12) = 63 &&
       (t.calOf 21).stage = 4)) = true := by decide +kernel

theorem witness_trims :
    (after (exec (.calSave 3) (tCmd 0x21 [1, 0] tMem)) (doneWith 2) &&
     after (exec (.calRestore 3 0) (tCmd 0x22 [1, 0] tMem)) (doneWith 2) &&
     decide ((tCmd 0x22 [64, 0, 1552] tMem).generalAt 3 0 = some (3, 64, 2097088)) && tMem.trimsLen = 1552 &&
     tMem.herderRuns && tMem.stackOpen) = true := by decide +kernel

theorem witness_diag :
    (let e : Echo := { peaks := [(40, true, 20), (16, false, 70)] }
     let s := tBase
     !(tCmd 0x23 [2] s).diagInvalid 3 2 && !s.diagStopped &&
     after (exec (.diagReflect 3 0 {} false) (tCmd 0x23 [2 + 65536, 0, 0, 0] (s.put F.SEC_STATE_LC 2))) (doneWith 2) &&
     after (exec (.diagReflect 3 0 {} false) (tCmd 0x23 [2] tIlm)) (doneWith 1) &&
     after (exec (.diagReflect 3 0 {} false) (tCmd 0x23 [2] (s.put F.CLK_STATUS_STATE 2))) (fun t => t.slotState 3 = 3) &&
     after (exec (.diagReflect 3 0 {} false) (tCmd 0x23 [2] s)) (fun t => t.flag (F.PORT_DIAG_STATE_RUNNING 2) && (Tbl.get t.diag {} 2).fails = 1 &&
       after (exec (.sweepListenRetry 2 0 {} false) t) (fun u => (Tbl.get u.diag {} 2).fails = 2) &&
       after (exec (.sweepListenRetry 2 0 {} false) (t.withDiag [(2, { slot := 4, fails := 15, left := 64 })])) (fun u => u.slotState 3 = 3 && decide (u.diag = []))) &&
     after (exec (.diagReflect 3 16 e false) (tCmd 0x23 [2, 0, 0, 100] s)) (fun t => t.get (F.PORT_DIAG_STATE_COUNT 2) = 2 &&
       t.word (A.PORT_DIAG_EVT 2 0) = BitVec.ofNat 32 (eventWord (16, false, 70)) && t.word (A.PORT_DIAG_EVT 2 2) = 0 && t.slotState 3 = 3) &&
     after (exec (.diagPassive 3 e false) (tCmd 0x24 [2] s)) (doneWith 2) &&
     after (exec (.diagPassive 3 e false) (tCmd 0x24 [2 + 65536] tIlm)) (fun t => t.get (F.PORT_DIAG_STATE_COUNT 2) = 2 &&
       t.word (A.PORT_DIAG_BASE 2 9) = BitVec.ofNat 32 (eventWord (40, true, 20)) && Tbl.get t.nv.thresh 0 5 = 80) &&
     after (exec (.cableCheckPeriod 2 e) ((tIlm.put F.THM_CAL_CFG_CABLE_PERIOD 1).withNv { tIlm.nv with thresh := [(5, 80)] })) (fun t =>
       t.get (F.PORT_DIAG_STATE_COUNT 2) = 2 && t.isPending (Ev.portCableChange 2))) = true := by decide +kernel

/-! ## Fold commands -/

/-- An image of role 0 with no port used, and one paddock partition of 1 MiB. -/
def tImage : Bytes :=
  let z := List.replicate (α := Byte)
  let b1 := z 320 0
  let b2 := (List.range 16).flatMap fun _ => (255 : Byte) :: z 7 0
  let b3 := [(0 : Byte), 1] ++ z 6 0 ++ [1] ++ z 7 0 ++ leBytes 1 4 ++ leBytes 0 4
  let b4 := leBytes 60000 4 ++ z 4 0 ++ returnDefaults.flatMap (leBytes · 4) ++ z 12 0
  let dir := [(1, 128, b1), (2, 448, b2), (3, 576, b3), (4, 600, b4)].flatMap fun e =>
    leBytes e.1 1 ++ [0] ++ leBytes 1 2 ++ leBytes e.2.1 4 ++ leBytes e.2.2.length 4 ++ leBytes (crc32 e.2.2) 4
  let head := leBytes 0x444C4F46 4 ++ [0, 2] ++ leBytes 64 2 ++ leBytes 712 4 ++ leBytes State.reset.partCode 2 ++ [255, 4] ++ z 8 0 ++
    leBytes 0 4 ++ leBytes 5 4 ++ z 28 0
  head ++ leBytes (crc32 head) 4 ++ dir ++ b1 ++ b2 ++ b3 ++ b4 ++ z 64 0

set_option maxRecDepth 100000 in
theorem witness_image : (tImage.length = 712 && (State.reset.imageErr tImage 712).isNone) = true := by
  decide +kernel

set_option maxRecDepth 100000 in
theorem witness_foldLoad :
    (let s := tCmd 0x01 [712, 0] (tBase.putBytes (A.DEV_FOLD_STAGE 0) 178 tImage)
     decide (s.staged 712 = tImage) && s.loadSlot = 0 && s.herderRuns && s.stackOpen && !s.foldBusy &&
     after (exec (.foldLoad 3 false 0) (tCmd 0x01 [100, 0] tBase)) (fun t => t.get F.DEV_FOLD_STATUS_LAST_ERR = 1 &&
       t.word (A.CMD_CQ 0 0) = BitVec.ofNat 32 (3073 * 65536 + 0x201)) &&
     after (exec (.foldLoad 3 false 0) (tCmd 0x01 [712, 0] (tBase.withApply { tBase.apply with stage := 5 }))) (doneWith 1)) = true := by
  decide +kernel

theorem witness_apply :
    (let s := (tBase.withApply { tBase.apply with stage := 3, slot := 4, start := 60000000, image := tImage })
     after (exec (.structuralApplyStage 0) s) (fun t => t.apply.stage = 4 && t.time = 65000000 && t.get F.DEV_FOLD_STATUS_APPLY_STATE = 4) &&
     after (exec (.foldLoadCompletion 0) ((tCmd 0x01 [] (s.withApply { s.apply with stage := 8 })).put (F.PORT_MODE_ENABLE 2) 0)) (fun t => doneWith 0 t && t.apply = {})) = true := by
  decide +kernel

theorem witness_applyRuns :
    (let s := ((State.puts tBase [(F.PORT_MODE_ENABLE 2, 0)]).withApply { tBase.apply with stage := 6, slot := 4, start := 60000000, image := tImage })
     s.herderRuns && s.stackOpen && decide (tImage ≠ []) && !s.apply.relay &&
     after (exec (.structuralApplyStage 0) s) (fun t => t.apply.stage = 7 && decide (Tbl.get t.fold.sections [] 1 = List.replicate 320 0))) = true := by
  decide +kernel

set_option maxRecDepth 100000 in
theorem witness_foldCommit :
    (let s := tBase.withNv { tBase.nv with foldSlots := [(1, tImage)] }
     after (exec (.foldCommit 3 false) (tCmd 0x02 [1] s)) (fun t => doneWith 0 t && t.commitOk && t.commitWord % 2 = 1 &&
       t.get F.DEV_FOLD_FLOOR_FLOOR = s.get F.DEV_FOLD_FLOOR_FLOOR) &&
     after (exec (.foldCommit 3 false) (tCmd 0x02 [0] s)) (fun t => t.word (A.CMD_CQ 0 0) = BitVec.ofNat 32 (3073 * 65536 + 0x201)) &&
     after (exec (.foldCommit 3 false) (tCmd 0x02 [1] (State.puts s [(F.DEV_FOLD_STATUS_COMMIT_VALID, 1), (F.DEV_FOLD_STATUS_COMMITTED_SLOT, 1)]))) (doneWith 0) &&
     after (exec (.foldCommit 3 false) (tCmd 0x02 [1] (s.withApply { s.apply with stage := 5 }))) (doneWith 1)) = true := by
  decide +kernel

/-! ## Life cycle, firmware, keys -/

theorem witness_lifeCycle :
    (let w (op target : Nat) : List Word := [BitVec.ofNat 32 (op + 16 * target), 0, 0, 0, 0]
     let s := State.reset
     s.word A.SEC_ID_SERIAL = 0 && s.lcReady 1 &&
     after (exec (.lcAdvance 3 none) (tCmd 0x62 (w 7 1) s)) (doneWith 2) &&
     after (exec (.lcAdvance 3 none) (tCmd 0x62 (w 0 2) s)) (fun t => doneWith 2 t && t.lc = 0) &&
     after (exec (.lcAdvance 3 none) (tCmd 0x62 (w 0 1) s)) (fun t => doneWith 0 t && t.lc = 1 && t.sec.lcReset) &&
     after (exec (.lcAdvance 3 (some false)) (tCmd 0x62 (w 0 1) s)) (fun t => doneWith 4 t && t.lc = 0) &&
     after (exec (.lcAdvance 3 none) (tCmd 0x62 (w 0 3) (s.put F.SEC_STATE_LC 2))) (fun t => doneWith 5 t && t.isPending Ev.secDenied)) = true := by
  decide +kernel

theorem witness_lifeCycleErases :
    (let s := (tCmd 0x62 [0x30, 0, 0, 0, 0] ((tBase.put F.SEC_STATE_LC 2).withNv { tBase.nv with keys := [(8, [1])] })).modSlot 3 fun x => { x with role := 3 }
     s.taken 3 0x62 && s.lcStatus 3 3 = 0 && s.stackOpen && s.herderRuns) = true := by
  decide +kernel

theorem witness_firmware :
    (let s := tBase.withNv { tBase.nv with fwVer := [(1, some 0x2000000)] }
     s.fwStageSlot = 1 &&
     after (exec (.fwStage 3 false) (tCmd 0x62 [1, 0, 8, 0] (s.putWord (A.DEV_FOLD_STAGE 1) 0x11223344))) (fun t => doneWith 0 t &&
       !t.flag F.DEV_FW_STATUS_SLOT_B_VALID && decide (Tbl.get t.nv.fwSlots [] 1 = [0, 0, 0, 0, 0x44, 0x33, 0x22, 0x11]) &&
       decide (Tbl.get t.nv.fwVer none 1 = none)) &&
     after (exec (.fwStage 3 false) (tCmd 0x62 [1, 7, 8, 0] s)) (doneWith 2) &&
     after (exec (.fwStage 3 false) (tCmd 0x62 [1, 0, 8, 0] (s.put F.SEC_STATE_LC 2))) (fun t => doneWith 5 t && t.isPending Ev.secDenied) &&
     after (exec (.fwCommit 3 false) (tCmd 0x62 [0x302] s)) (fun t => doneWith 0 t && t.get F.DEV_FW_STATUS_COMMITTED_SLOT = 1 &&
       t.get F.DEV_FW_FLOOR_FLOOR = 0x2000000) &&
     after (exec (.fwCommit 3 true) (tCmd 0x62 [0x302] s)) (doneWith 4) &&
     after (exec (.fwCommit 3 false) (tCmd 0x62 [0x002] (s.withNv { s.nv with fwVer := [] }))) (doneWith 2) &&
     after (exec (.fwCommit 3 false) (tCmd 0x62 [0x302] (s.put F.SEC_STATE_LC 2))) (doneWith 5)) = true := by decide +kernel

theorem witness_keys :
    (let pt := leBytes curveG.1 32 ++ leBytes curveG.2 32
     let s := tBase.putBytes (A.SEC_KEY_STAGE 0) 16 pt
     onCurve pt &&
     after (exec (.keyEnrol 0x9B000000 false) s) (fun t => t.get F.SEC_KEY_CTRL_RESULT = 0 && Tbl.get t.nv.keys [] 11 = pt &&
       after (exec (.keyRead 0x8B000000) (t.putBytes (A.SEC_KEY_STAGE 0) 16 [])) (fun u => u.wordBytes (A.SEC_KEY_STAGE 0) 16 = pt) &&
       after (exec (.keyRevoke 0xAB000000 false) t) (fun u => u.get F.SEC_KEY_CTRL_RESULT = 0 && decide (Tbl.get u.nv.keys [] 11 = [])) &&
       after (exec (.keyRevoke 0xAB000000 false) (t.put F.SEC_STATE_LC 2)) (fun u => u.get F.SEC_KEY_CTRL_RESULT = 1 && u.isPending Ev.secDenied)) &&
     after (exec (.keyEnrol 0x9B000000 false) tBase) (fun t => t.get F.SEC_KEY_CTRL_RESULT = 2) &&
     after (exec (.keyRevoke 0xA3000000 false) ((tBase.put F.SEC_SESSION_ROLE 1).put F.SEC_SESSION_SLOT 3)) (fun u => u.role = 0 &&
       u.isPending Ev.secSessionEnd)) = true := by decide +kernel

theorem witness_identity : (tBase.coreOn && !tBase.pci.perst && !tBase.pci.d3hot && (0x80000000 : Word).getLsbD 31) = true := by decide +kernel

/-- What a failed BIST leaves: held, pin low, cause noted, mailbox empty. -/
def tHeld (cause : Nat) (t : State) : Bool :=
  decide (t.pwr.held = 1) && t.pins.bistFail && t.get F.DEV_RESET_CAUSE_CAUSE == cause && t.slotState 3 == 0 && t.role == 0 && decide (t.box = {})

/-- The fold with port 2 up and a command running, in Pen. -/
def tPen : State := let s := tCmd 0x50 [0] tBase
  (s.withPwr { s.pwr with mode := 2 }).withDram [(5, 1)]

set_option maxRecDepth 100000 in
theorem witness_powerOnReset : (tPen.slotState 3 == 2 &&
    after (exec (.powerOnReset { bist := 1 }) tPen) fun t => tHeld 1 t && t.ao.time10 == 600000000 && t.nv.epoch == tPen.nv.epoch + 1 &&
      decide (t.dram = []) && decide (t.pwr.mode = 0)) = true := by
  decide +kernel

theorem witness_supplyFault : (after (exec (.supplyFault false {}) tPen) fun t => decide (t.pwr.mode = 2 ∧ t.dram = [(5, 1)])) = true := by
  decide +kernel

theorem witness_resetPin : (after (exec (.resetPin 9 {}) tPen) fun t => t.slotState 3 == 2 && decide (t.pwr.mode = 2)) = true := by
  decide +kernel

theorem witness_softReset :
    (decide (tBase.coreOn ∧ tBase.pci.perst = false ∧ tBase.pci.d3hot = false ∧ tBase.lc ≠ 4) && tBase.may 2 &&
    after (exec (.softReset 0 {}) tBase) (fun t => decide (t.pwr.held = 0)) &&
    !tNone.may 2 && decide (tNone.coreOn ∧ tNone.pci.perst = false ∧ tNone.pci.d3hot = false ∧ tNone.lc ≠ 4) &&
    after (exec (.softReset 1 {}) tNone) fun t => t.isPending Ev.secDenied) = true := by
  decide +kernel

theorem witness_debugAndLifecycleReset : (let s := tBase.withSec { tBase.sec with lcReset := true }
    tBase.unlocked && !tNone.unlocked && after (exec (.debugReset {}) tNone) (fun t => decide (t.pwr.held = 0)) &&
    s.sec.lcReset && decide (s.pwr.mode ≠ 3) && !tBase.sec.lcReset && after (exec (.lifecycleReset {}) tBase) fun t => decide (t.pwr.held = 0)) = true := by
  decide +kernel

/-- The base state with word 0, 1 and 2 of a PWR_STATE in slot 3, and power fields. -/
def tPwr (w0 w1 w2 : Nat) (f : Pwr → Pwr) : State := let s := tCmd 0x50 [w0, w1, w2] tBase
  s.withPwr (f s.pwr)

/-- The same over port 2 up in ILM. -/
def tPwrUp (w0 : Nat) : State := tCmd 0x50 [w0, 7, 60] tIlm

/-- A record of slot 3. -/
def tRec (t : State) : Nat × Nat × Nat := let w := (t.word (A.CMD_CQ 0 0)).toNat
  (w / 256 % 256, w % 256, t.slotState 3)

theorem witness_pwrState :
    (let r (s : State) (p : State → Bool) := s.taken 3 0x50 && s.herderRuns && s.coreOn && after (exec (.pwrState 3) s) p
     r (tPwr 1 0 0 fun p => { p with entry := 6 }) (fun t => tRec t == (stBusy, 0, 3)) &&
     r (tPwr 1 0 0 fun p => { p with begun := [(7, 0)] }) (fun t => tRec t == (stBusy, 0, 3)) &&
     r (tPwr 0 0 0 id) (fun t => tRec t == (stOk, 0, 3)) &&
     r (tPwr 0 0 0 fun p => { p with mode := 1 }) (fun t => tRec t == (stOk, 0, 3) && t.pwr.mode == 0) &&
     r ((tPwr 2 0 0 id).withHerder { tBase.herder with attached := true }) (fun t => tRec t == (stRefused, 1, 3) &&
       t.get F.PWR_LAST_REFUSER == 1 && t.get (F.PWR_REFUSE_CNT_COUNT 1) == 1 && t.isPending Ev.pwrRefused) &&
     r (tPwr 1 0 60 id) (fun t => tRec t == (stOk, 0, 3) && t.pwr.mode == 1 && t.get F.PWR_TIMER_SECONDS == 60)) = true := by
  decide +kernel

theorem witness_pwrEntry :
    ((tPwrUp 2).taken 3 0x50 && (tPwrUp 2).refuser 3 2 == none && (tPwrUp 2).up 2 &&
     after (exec (.pwrState 3) (tPwrUp 2)) (fun t => t.pwr.target == 2 && t.pwr.winterAfter == 7 && t.flag F.PWR_MODE_ENTERING &&
       (t.slot 3).begun && !t.up 2 && t.get (F.PORT_LINK_STATUS_DOWN_CAUSE 2) == 7 && t.pwr.entry == 4)) = true := by
  decide +kernel

theorem witness_clockGateRequest :
    (let e (n c : Nat) : State := tPwr 2 0 0 fun p => { p with entry := n, closed := c, target := 2, slot := 3 }
     after (exec (.clockGateRequest 3 true false) tBase) (fun t => t.clk.gates == tBase.clk.gates) &&
     tBase.clocked && after (exec (.clockGateRequest 9 true false) tBase) (fun t => t.clk.gates.testBit 9) &&
     after (exec (.clockGateRequest 9 true true) tBase) (fun t => !t.clk.gates.testBit 9) &&
     after (exec (.clockGateRequest 9 false true) tBase) (fun t => t.pwr.gate == some 9) &&
     after (exec (.clockGateRequest 9 true false) (e 2 0)) (fun t => t.pwr.closed == 1 && t.pwr.entry == 4 && t.pwr.penCount == 1) &&
     (State.puts (e 2 0) [(F.PORT_PAD_STATE_DRAINING 2, 1)]).clocked &&
     after (exec (.clockGateRequest 9 true false) (State.puts (e 2 0) [(F.PORT_PAD_STATE_DRAINING 2, 1)])) (fun t => t.pwr.entry == 2) &&
     after (exec (.clockGateRequest 10 true false) (e 4 0)) (fun t => t.pwr.closed == 0) &&
     after (exec (.clockGateRequest 9 true false) (e 4 0)) (fun t => t.pwr.closed == 1 && t.clk.gates.testBit 9) &&
     after (exec (.clockGateRequest 9 false false) (e 4 0)) (fun t => t.pwr.gate == some 9) &&
     after (exec (.clockGateRequest 9 true false) (e 6 5)) (fun t => t.pwr.closed == 5)) = true := by
  decide +kernel

theorem witness_stackGate :
    (let s (c : Nat) := tPwr 2 0 0 fun p => { p with entry := 4, closed := c, target := 2, slot := 3, drained := 2 }
     gateOrder[(s 4).pwr.closed]? == some 13 && (s 4).clocked && (s 4).chRole 0 == 0 &&
     after (exec (.clockGateRequest 12 true false) (s 3)) fun t => t.pwr.closed == 4 && t.clk.gates.testBit 12 && t.pwr.entry == 4) = true := by
  decide +kernel

theorem witness_gateAckTimeout :
    (let s (n : Nat) := tPwr 2 0 0 fun p => { p with entry := n, target := 2, slot := 3, gate := some 10, drained := 2 }
     after (exec (.gateAckTimeout 0) tBase) (fun t => t.time == tBase.time) &&
     after (exec (.gateAckTimeout 0) (s 0)) (fun t => t.get F.CLK_GATE_REFUSE_COUNT == 1 && t.ao.time10 == tBase.ao.time10 + 20000) &&
     after (exec (.gateAckTimeout 0) (s 4)) (fun t => tRec t == (stRefused, 10, 3) && t.pwr.entry == 0 && t.get F.PWR_LAST_REFUSER == 10 &&
       t.flag F.PWR_LAST_ABORTED && t.isPending Ev.pwrRefused) &&
     after (exec (.gateAckTimeout 15) (s 4)) (fun t => tRec t == (stRefused, 15, 3))) = true := by
  decide +kernel

theorem witness_penEntryWait :
    (let s (n g : Nat) := tPwr 2 0 0 fun p => { p with entry := n, target := g, since := 5 }
     after (exec .penEntryWait (s 4 2)) (fun t => t.pwr.mode == 0) &&
     after (exec .penEntryWait (s 6 2)) (fun t => t.pwr.mode == 2 && !t.pins.enCore && t.pins.enStack && t.pwr.offHold && !t.herder.running) &&
     after (exec .penEntryWait (s 6 3)) (fun t => t.pwr.mode == 3 && !t.pins.enStack && t.get F.PWR_MODE_TARGET == 3)) = true := by
  decide +kernel

theorem witness_winterAfterExpiry :
    (let s := tPwr 2 0 0 fun p => { p with mode := 2, winterAfter := 3, since := 7, canaries := [5] }
     after (exec .winterAfterExpiry tBase) (fun t => t.pwr.mode == 0) &&
     after (exec .winterAfterExpiry s) fun t => t.pwr.mode == 3 && !t.pins.enStack && t.ao.time10 == max s.ao.time10 1800000000070) = true := by
  decide +kernel

/-- Wakes enabled, in a power state. -/
def tAsleep (f : Pwr → Pwr) : State := let s := tBase.put F.PWR_WAKE_EN_ENABLE 0x3F
  s.withPwr (f { s.pwr with edges := 9 })

theorem witness_wakes :
    (let drowse := tAsleep fun p => { p with mode := 1 }
     let pen := tAsleep fun p => { p with mode := 2 }
     let late := tAsleep fun p => { p with mode := 2, offHold := true }
     after (exec (.wakeN 9 {}) pen) (fun t => t.pwr.begun == []) &&
     after (exec (.wakeN 10 {}) (pen.put F.PWR_WAKE_EN_ENABLE 0)) (fun t => t.pwr.begun == []) &&
     after (exec (.wakeN 10 {}) pen) (fun t => t.pins.enCore && t.pwr.begun == [(1, pen.time)] && t.get F.PWR_LAST_WAKE_SRC == 4 &&
       t.get F.PWR_LAST_WAKE_FROM == 2 && t.get F.PWR_WAKES_COUNT == 1 && t.isPending Ev.pwrWake && t.get (F.PWR_WAKE_HIST_W1_SRC 0) == 4) &&
     after (exec (.wakeN 10 {}) drowse) (fun t => t.pwr.mode == 0 && t.get F.PWR_LAST_WAKE_FROM == 1) &&
     after (exec (.wakeN 10 {}) (drowse.put F.CLK_STATUS_STATE 2)) (fun t => t.pwr.mode == 1 && t.clk.wake == some (4, 0)) &&
     after (exec (.wakeN 10 {}) late) (fun t => t.pwr.latched == some (4, 0) && t.flag F.PWR_MODE_WAKE_LATCHED) &&
     after (exec (.wakeN 10 {}) (tAsleep id)) (fun t => t.get F.PWR_WAKES_COUNT == 0) &&
     after (exec (.linkEnergy 2 100 {}) pen) (fun t => t.get F.PWR_LAST_WAKE_SRC == 2 && t.get F.PWR_LAST_WAKE_PORT == 2) &&
     after (exec (.linkEnergy 2 99 {}) pen) (fun t => t.pwr.begun == []) &&
     after (exec (.pcieWake {}) pen) (fun t => t.get F.PWR_LAST_WAKE_SRC == 3) && after (exec (.pcieWake {}) drowse) (fun t => t.pwr.mode == 1) &&
     after (exec (.odometerWake {}) (drowse.put F.PWR_WAKE_EN_ODO_WAKE_EDGES 9)) (fun t => t.get F.PWR_LAST_WAKE_SRC == 5) &&
     after (exec (.odometerWake {}) (drowse.put F.PWR_WAKE_EN_ODO_WAKE_EDGES 10)) (fun t => t.pwr.mode == 1)) = true := by
  decide +kernel

theorem witness_winterWake :
    (let s := tAsleep fun p => { p with mode := 3 }
     (s.get F.PWR_WAKE_EN_ENABLE).testBit 3 && s.pwr.held == 0 && s.pwr.entry == 0 && s.pwr.begun == [] && !s.pwr.offHold) = true := by
  decide +kernel

theorem witness_pwrTimerExpiry :
    (let s := (tAsleep fun p => { p with mode := 1 }).put F.PWR_TIMER_SECONDS 2
     after (exec (.pwrTimerExpiry {}) tBase) (fun t => t.time == tBase.time) &&
     after (exec (.pwrTimerExpiry {}) s) fun t => t.get F.PWR_LAST_WAKE_SRC == 6 && t.get F.PWR_TIMER_SECONDS == 0 && t.ao.time10 == 20000000000) = true := by
  decide +kernel

theorem witness_coreOffTimeEnd :
    (let s (l : Option (Nat × Nat)) := tAsleep fun p => { p with mode := 2, offHold := true, latched := l, since := tBase.time }
     after (exec (.coreOffTimeEnd {}) tBase) (fun t => t.time == tBase.time) &&
     after (exec (.coreOffTimeEnd {}) (s none)) (fun t => !t.pwr.offHold && t.pwr.begun == [] && t.time == tBase.time + 50000) &&
     after (exec (.coreOffTimeEnd {}) (s (some (1, 4)))) (fun t => t.flag F.PWR_LAST_REPLAYED && t.get F.PWR_LAST_WAKE_PORT == 4 &&
       t.pwr.begun == [(1, tBase.time + 50000)]) && (s (some (1, 4))).pwr.mode == 2) = true := by
  decide +kernel

/-- In a return from Pen: steps begun and ended. -/
def tBack (b : List Nat) (e : List Nat) : State := tAsleep fun p => { p with mode := 2, begun := b.map fun k => (k, 0), ended := e, canaries := [5] }

theorem witness_penReturnStep :
    (let has (t : State) (k : Nat) := t.pwr.begun.any fun e => e.1 == k
     after (exec (.penReturnStep 2 []) (tBack [1] [])) (fun t => t.pwr.ended == []) &&
     after (exec (.penReturnStep 1 []) (tBack [1] [])) (fun t => has t 2 && !has t 3 && t.pwr.ended == [1]) &&
     after (exec (.penReturnStep 2 []) (tBack [1, 2] [1])) (fun t => t.pwr.mode == 0 && t.get F.CLK_STATUS_STATE == 3 && has t 3) &&
     after (exec (.penReturnStep 3 []) (tBack [1, 2, 3] [1, 2])) (fun t => t.get F.CLK_STATUS_STATE == 0 && has t 4 && has t 5) &&
     after (exec (.penReturnStep 4 []) (tBack [4, 5] [1, 2, 3])) (fun t => t.herder.running && !has t 6) &&
     after (exec (.penReturnStep 7 []) (tBack [7] [6])) fun t => t.pwr.begun == []) = true := by
  decide +kernel

theorem witness_canaries : (let s := tBack [5] [4]
    s.pwr.canaries == [5] && s.canaryFails 5 1 [(7, 3)] && !s.canaryFails 5 2 [] && s.pwr.held == 0 && s.chRole 0 == 0) = true := by
  decide +kernel

/-- The base state with heat fields. -/
def tHot (f : Thm → Thm) : State := tBase.withThm (f tBase.thm)

theorem witness_droverPeriod :
    (let s := tBase.put F.CLK_STATUS_STATE 1
     let n2 := (tAn 2 0 fun l => { l with target := 7, tokenAt := some 0 })
     !s.clocked && after (exec .droverPeriod s) (fun t => t.get F.DRV_EFFECTIVE_MW == s.get F.DRV_EFFECTIVE_MW) &&
     tBase.clocked && after (exec .droverPeriod tBase) (fun t => t.get F.DRV_EFFECTIVE_MW == 60000 && !t.flag F.DRV_STATE_SHORT) &&
     (List.range 16).all (fun n => !(n2.ln n).owed && !n2.upIlm n && !n2.capInFlight n) && n2.waiting == [2] && n2.starts &&
     decide (n2.demandAt 0 + n2.waitDemand 2 ≤ n2.effective + n2.portDemandAt 2 0) && n2.get F.DRV_STATE_PL == 0 &&
     after (exec .droverPeriod n2) (fun t => t.an 2 == 3) &&
     after (exec .droverPeriod (n2.put F.DRV_BUDGET_MW 9000)) (fun t => t.flag F.DRV_STATE_SHORT && t.an 2 == 2 && t.isPending Ev.drvShort)) = true := by
  decide +kernel

theorem witness_droverLimit :
    (let s := State.puts tBase [(F.DRV_STATE_LIMIT, 1), (F.THM_BASE_VALID 3, 1), (F.THM_BASE_TEMP 3, 440)]
     s.reduction == 40 && after (exec .droverPeriod s) fun t => (t.drv.lower == some 3 || t.get F.DRV_STATE_PL == 3) &&
       t.get F.DRV_EFFECTIVE_MW == 30000 && t.flag F.DRV_STATE_THERMAL && t.isPending Ev.thmCap) = true := by
  decide +kernel

theorem witness_plRaiseSettle :
    (let s := (State.puts tBase [(F.DRV_STATE_PL, 2)]).withPwr { tBase.pwr with raise := some 1 }
     after (exec .plRaiseSettle tBase) (fun t => t.time == tBase.time) &&
     after (exec .plRaiseSettle s) (fun t => t.get F.DRV_STATE_PL == 1 && t.pins.vid == 1 && t.get F.DRV_PL_CHANGES_COUNT == 1 &&
       t.time == s.time + 50000) &&
     after (exec .plRaiseSettle (s.put F.DRV_STATE_LIMIT 1)) (fun t => t.get F.DRV_STATE_PL == 2 && t.pins.vid == 2)) = true := by
  decide +kernel

theorem witness_sensorRead :
    (after (exec (.sensorRead [(3, some 421), (3, none), (4, some 390)] [(0, some 341), (1, some 270), (5, some 381)] {}) tBase) fun t =>
       t.get (F.THM_BASE_TEMP 3) == 421 && t.flag (F.THM_BASE_FAILED 3) && t.isPending Ev.thmSensorFail &&
       t.flag (F.THM_CORE_DISAGREE 0) && t.flag (F.MEM_CH_STATE_HOT 0) && t.flag (F.MEM_CH_STATE_HOT 1) && t.thm.coreLim && !t.thm.baseLim &&
       t.flag F.DRV_STATE_LIMIT && t.flag F.DRV_STATE_THERMAL && (t.get (F.EVT_CAUSE_CAUSE 2)).testBit 0) = true := by
  decide +kernel

theorem witness_sensorReadHeld :
    (let s := tBase.withPwr { tBase.pwr with held := 3 }
     let off := tBase.withPwr { tBase.pwr with held := 1 }
     after (exec (.sensorRead [(3, some 400)] [] {}) off) (fun t => t.get (F.THM_BASE_TEMP 3) == 0) &&
     after (exec (.sensorRead [(3, some 400)] [] {}) s) (fun t => t.pwr.held == 3 && t.get (F.THM_BASE_TEMP 3) == 400)) = true := by
  decide +kernel

set_option maxRecDepth 100000 in
theorem witness_thermalTrip :
    (let s := (tHot fun h => { h with hot := [(33, 500), (2, 90)] })
     after (exec .thermalTrip tBase) (fun t => t.pwr.held == 0) && s.coreOn && s.chRole 0 == 0 &&
     after (exec .thermalTrip s) fun t => t.pwr.held == 3 && t.get F.THM_TRIPS_COUNT == 1 && t.selfRefresh 0 && t.pins.byp == 0 &&
       t.clk.gates == 65535) = true := by
  decide +kernel

theorem witness_herder :
    (let gone := tBase.withHerder { running := false, restart := true }
     let run := (tCmd 0x99 [0] tBase).withHerder { running := false, restart := true }
     after (exec .herderWatchdogExpiry gone) (fun t => t.get F.DEV_FW_STATUS_RESTARTS == 0) &&
     after (exec .herderWatchdogExpiry tBase) (fun t => !t.herder.running && t.herder.restart && t.get F.DEV_FW_STATUS_RESTARTS == 1 &&
       t.isPending Ev.devHerderRestart) &&
     after (exec .herderRunningAgain tBase) (fun t => t.herder.running) && run.slotState 3 == 2 && run.diag == [] && run.apply.stage == 0 &&
     after (exec .herderRunningAgain run) (fun t => t.herder.running && tRec t == (stAborted, 0, 3) && t.get F.CMD_CQ_PROD_COUNT == 1)) = true := by
  decide +kernel

/-- Eight windows of one count. -/
def tEight (n : Nat) : List (BitVec 16) := List.replicate 8 (BitVec.ofNat 16 n)

/-- In clock hold: the gated phase (1) or on the IRO (2). -/
def tHold (st : Nat) : State := let s := State.puts tIlm [(F.CLK_STATUS_STATE, st), (F.CLK_STATUS_IRO_RUN, 1), (F.CLK_STATUS_IRO_GOOD, st / 2),
    (F.CLK_STATUS_LREF_GOOD, 0)]
  s.withClk { s.clk with tripAt := s.time }

theorem witness_lrefclkTrip :
    (after (exec .lrefclkTrip (tHold 2)) (fun t => t.get F.CLK_LREF_TRIPS_COUNT == 0) &&
     after (exec .lrefclkTrip tIlm) (fun t => t.get F.CLK_STATUS_STATE == 1 && t.clk.coasting && t.get F.CLK_LREF_TRIPS_COUNT == 1 &&
       !t.flag F.CLK_STATUS_LREF_GOOD && t.flag F.CLK_STATUS_IRO_RUN && t.up 2) &&
     after (exec .lrefclkTrip (tPwr 2 0 0 fun p => { p with entry := 4, target := 2, slot := 3 })) (fun t => t.pwr.entry == 0 &&
       t.get F.PWR_LAST_REFUSER == 7 && t.get F.CLK_STATUS_STATE == 1)) = true := by
  decide +kernel

theorem witness_clockLoss :
    (let s := tBase.put F.CLK_STATUS_IRO_FAILED 1
     s.coreOn && s.get F.CLK_STATUS_STATE == 0 && s.flag F.CLK_STATUS_IRO_FAILED && s.pwr.held == 0 &&
     (tHold 1).coreOn && !(tHold 1).flag F.CLK_STATUS_IRO_GOOD &&
     after (exec .iroJudgeDeadline tBase) (fun t => t.get F.CLK_STATUS_STATE == 0)) = true := by
  decide +kernel

theorem witness_coastEnd :
    (let s := (tHold 1).withClk { (tHold 1).clk with coasting := true }
     after (exec .clockHoldCoastEnd (tHold 1)) (fun t => t.clk.gates == (tHold 1).clk.gates) && s.clk.coasting && s.chRole 0 == 0 &&
     s.clk.tripAt == s.time) = true := by
  decide +kernel

theorem witness_hrefclkTrip :
    (let s := State.puts tBase [(F.CLK_STATUS_HREF_GOOD, 1), (F.HL_CFG_RATE 2, 1), (F.HL_STATUS_LOCKED 2, 1)]
     after (exec .hrefclkTrip (tBase.put F.CLK_STATUS_HREF_GOOD 0)) (fun t => t.get F.CLK_HREF_TRIPS_COUNT == 0) &&
     after (exec .hrefclkTrip s) (fun t => !t.flag F.CLK_STATUS_HREF_GOOD && t.isPending Ev.clkHrefLoss && !t.flag (F.HL_STATUS_LOCKED 2) &&
       t.flag F.CLK_STATUS_IRO_RUN && t.get F.CLK_HREF_TRIPS_COUNT == 1) &&
     after (exec .hrefclkTrip (s.put F.CLK_STATUS_STATE 2)) (fun t => t.clk.hrefDue && t.flag F.CLK_STATUS_HREF_GOOD)) = true := by
  decide +kernel

theorem witness_iroJudged :
    (let s := State.puts tBase [(F.CLK_STATUS_IRO_RUN, 1), (F.CLK_STATUS_IRO_GOOD, 0)]
     after (exec (.oscillatorJudged 3 [] {}) tBase) (fun t => t.time == tBase.time) &&
     after (exec (.oscillatorJudged 0 (tEight 2576) {}) s) (fun t => !t.flag F.CLK_STATUS_IRO_GOOD) &&
     after (exec (.oscillatorJudged 0 (tEight 2575) {}) s) (fun t => t.flag F.CLK_STATUS_IRO_GOOD) &&
     after (exec (.oscillatorJudged 0 (tEight 2425) {}) (tHold 1)) (fun t => t.get F.CLK_STATUS_STATE == 2 && t.get F.DRV_STATE_PL == 3 &&
       t.isPending Ev.clkHold && !t.up 2 && t.get (F.PORT_LINK_STATUS_DOWN_CAUSE 2) == 9)) = true := by
  decide +kernel

theorem witness_lrefJudged :
    (let s := tHold 2
     s.refJudged (tEight 3125) && s.flag F.CLK_STATUS_IRO_GOOD && s.pwr.held == 0 && s.coreOn && !s.clk.restore && s.chRole 0 == 0 &&
     after (exec (.oscillatorJudged 1 (tEight 3000) {}) s) (fun t => t.get F.CLK_STATUS_STATE == 2) &&
     (let h := s.withPwr { s.pwr with held := 2 }
      h.refJudged (tEight 3000) && !h.coreOn) && (s.withPwr { s.pwr with held := 4 }).coreOn) = true := by
  decide +kernel

theorem witness_hrefJudged :
    (let s := State.puts tBase [(F.CLK_STATUS_HREF_GOOD, 0), (F.CLK_STATUS_IRO_RUN, 1)]
     after (exec (.oscillatorJudged 2 (tEight 3000) {}) s) (fun t => !t.flag F.CLK_STATUS_HREF_GOOD) &&
     after (exec (.oscillatorJudged 2 (tEight 3140) {}) s) (fun t => t.flag F.CLK_STATUS_HREF_GOOD && !t.flag F.CLK_STATUS_IRO_RUN)) = true := by
  decide +kernel

theorem witness_xo32 :
    (after (exec (.xo32Accepted (tEight 2000)) tBase) (fun t => t.flag F.CLK_STATUS_XO32_OK) &&
     after (exec (.xo32Accepted (tEight 2012)) tBase) (fun t => !t.flag F.CLK_STATUS_XO32_OK) &&
     after (exec (.xo32Dropped 2012) (tBase.put F.CLK_STATUS_XO32_OK 1)) (fun t => !t.flag F.CLK_STATUS_XO32_OK) &&
     after (exec (.xo32Dropped 1953) (tBase.put F.CLK_STATUS_XO32_OK 1)) (fun t => t.flag F.CLK_STATUS_XO32_OK)) = true := by
  decide +kernel

theorem witness_debugger :
    (let a := tBase.withHerder { tBase.herder with attached := true }
     let h := a.withHerder { a.herder with halted := true }
     let e := tPwr 2 0 0 fun p => { p with entry := 4, target := 2, slot := 3 }
     !tNone.unlocked && after (exec .debuggerAttach tNone) (fun t => !t.herder.attached) &&
     after (exec .debuggerAttach tBase) (fun t => t.herder.attached && t.get F.SEC_STATE_DEBUG == 2) &&
     after (exec .debuggerAttach e) (fun t => t.herder.attached && tRec t == (stRefused, 1, 3) && t.get F.PWR_LAST_REFUSER == 1) &&
     after (exec .debugHalt tBase) (fun t => !t.herder.halted) &&
     after (exec .debugHalt a) (fun t => t.herder.halted && t.get F.SEC_STATE_DEBUG == 3) &&
     after (exec .debugResume a) (fun t => t.time == a.time) && after (exec .debugResume h) (fun t => !t.herder.halted && t.herder.attached) &&
     after (exec .debuggerDetach tBase) (fun t => !t.herder.attached) &&
     after (exec .debuggerDetach h) (fun t => !t.herder.halted && !t.herder.attached && t.get F.SEC_STATE_DEBUG == 1)) = true := by
  decide +kernel

theorem witness_boundaryScan :
    (let off := tBase.withPwr { tBase.pwr with held := 1 }
     let on := tBase.withClk { tBase.clk with scan := true }
     after (exec (.boundaryScanEnter 0x5A) off) (fun t => t.clk.scan && t.pins.byp == 0x5A) &&
     after (exec (.boundaryScanEnter 0x5A) on) (fun t => t.clk.scan && t.pins.byp == 0x5A) && tBase.coreOn && !tBase.clk.scan &&
     after (exec (.boundaryScanEnter 0x5A) (tBase.withPwr { tBase.pwr with mode := 2 })) (fun t => !t.clk.scan && t.pins.byp == tBase.pins.byp) &&
     after (exec .boundaryScanExit tBase) (fun t => t.pins.byp == tBase.pins.byp) && on.coreOn && on.get F.CLK_STATUS_STATE == 0 &&
     after (exec .boundaryScanExit (off.withClk { off.clk with scan := true })) (fun t => !t.clk.scan && t.pins.byp == 0)) = true := by
  decide +kernel

/-- The rotation runs; port 2 has slices 8 and 9 serving, and slice 5 is the lowest that is idle. -/
def tRot : State := let s := State.puts tIlm ((F.TST_ROT_CFG_ENABLE, 1) :: [0, 1, 2, 3, 4, 8, 9, 20].map fun x => (F.TST_SLICE_STATE_STATE x, 1))
  s.putMap 2 [8, 9]

/-- No slice is idle. -/
def tBusy : State := tRot.withRegs ((List.range 68).foldl (fun l x => Tbl.set l 0#32 (A.TST_SLICE_STATE x) 0x20000000#32) tRot.regs)

/-- A slice under test. -/
def tTest (x : Nat) (s : State) : State := State.puts s [(F.TST_ROT_STATE_SLICE_BUSY, 1), (F.TST_ROT_STATE_SLICE, x), (F.TST_SLICE_STATE_STATE x, 2)]

theorem witness_rotationSwap :
    (tRot.rotates && tRot.tested == none && tRot.portOfSlice 8 == some 2 && !tRot.swapWaits 2 && tRot.portOfSlice 20 == none &&
     after (exec (.rotationSwap 5) tRot) (fun t => t.tested == some 5 && t.sliceState 5 == 2) &&
     after (exec (.rotationSwap 20) tRot) (fun t => t.tested == none) &&
     after (exec (.rotationSwap 5) (tRot.put F.TST_ROT_CFG_ENABLE 0)) (fun t => t.tested == none) &&
     after (exec (.rotationSwap 8) tRot) (fun t => t.tested == some 8 && t.sliceState 8 == 2 && t.sliceState 5 == 1 && t.servedBy 2 == [5, 9]) &&
     tBusy.sliceState 5 == 1 && after (exec (.rotationSwap 8) tBusy) (fun t => t.tested == none)) = true := by
  decide +kernel

theorem witness_rotationInPlace :
    (let p := tPorts.set 38 2
     let s := tRot.withFold { tRot.fold with sections := [(1, p)] }
     (s.pFlags 2).testBit 1 && after (exec (.rotationSwap 8) s) (fun t => t.tested == none) &&
     after (exec (.rotationSwap 8) (s.put (F.PORT_LINK_STATUS_LPI 2) 1)) fun t => t.tested == some 8 && t.servedBy 2 == [8, 9]) = true := by
  decide +kernel

theorem witness_sliceTestEnd :
    (after (exec (.sliceTestEnd true) tRot) (fun t => t.get F.TST_PASSES_COUNT == 0) &&
     after (exec (.sliceTestEnd true) (tTest 20 tRot)) (fun t => t.tested == none && t.sliceState 20 == 0 && t.get F.TST_PASSES_COUNT == 1) &&
     after (exec (.sliceTestEnd true) (tTest 8 tRot)) (fun t => t.sliceState 8 == 1 && Tbl.get t.tst.passAt 0 8 == tRot.time + 1) &&
     after (exec (.sliceTestEnd false) (tTest 8 tRot)) (fun t => t.sliceState 8 == 3 && t.servedBy 2 == [5, 9] && t.get F.TST_FAULTS_COUNT == 1 &&
       (t.get (F.EVT_CAUSE_CAUSE 3)).testBit 0)) = true := by
  decide +kernel

theorem witness_srSegment :
    (let s (n : Nat) (f : List Nat) := (State.puts tRot [(F.TST_ROT_STATE_SR_BUSY, 1), (F.TST_ROT_STATE_BLOCK, 33), (F.TST_BLOCK_STATE_STATE 33, 1)]).withTst
       { tRot.tst with segs := n, segAt := tRot.time, failing := f }
     after (exec (.srSegment 33 false true true) tRot) (fun t => t.flag F.TST_ROT_STATE_SR_BUSY && t.get F.TST_ROT_STATE_BLOCK == 33 && t.tst.segs == 1) &&
     after (exec (.srSegment 0x7F false true true) tRot) (fun t => !t.flag F.TST_ROT_STATE_SR_BUSY) &&
     after (exec (.srSegment 0 true false true) (s 7 [])) (fun t => t.tst.segs == 7 && t.get F.TST_FAULTS_COUNT == 1 && t.time == tRot.time + tRot.segGap) &&
     after (exec (.srSegment 0 false true true) (s 1023 [33])) (fun t => t.get (F.TST_BLOCK_STATE_STATE 33) == 0 && t.tst.failing == [] &&
       t.get F.TST_PASSES_COUNT == 1) &&
     after (exec (.srSegment 0 false true false) (s 1023 [])) (fun t => t.get (F.TST_BLOCK_STATE_STATE 33) == 2 && t.tst.failing == [33]) &&
     after (exec (.srSegment 0 false true false) (s 1023 [33])) (fun t => t.get (F.TST_BLOCK_STATE_STATE 33) == 3 && t.tst.segs == 0)) = true := by
  decide +kernel

theorem witness_sliceCheckerFired :
    (after (exec (.sliceCheckerFired 20) tRot) (fun t => t.sliceState 20 == 1) &&
     after (exec (.sliceCheckerFired 9) tRot) (fun t => t.sliceState 9 == 3 && t.servedBy 2 == [8, 5] && t.get F.TST_HANDOVERS_COUNT == 1 &&
       t.get F.TST_FAULTS_COUNT == 1 && t.sliceState 5 == 1) &&
     (tBusy.takeSlice 2).2 == none && after (exec (.sliceCheckerFired 9) tBusy) (fun t => t.servedBy 2 == [8] &&
       t.get F.TST_HANDOVERS_COUNT == 0)) = true := by
  decide +kernel

theorem witness_rotationOverdue :
    (let s := tRot.withTst { tRot.tst with passAt := [(9, 8)], overdue := [(10, 5)] }
     after (exec (.rotationOverdue 5) (tRot.put F.TST_ROT_CFG_ENABLE 0)) (fun t => t.get F.TST_OVERDUE_COUNT == 0) &&
     after (exec (.rotationOverdue 5) s) (fun t => t.get F.TST_OVERDUE_COUNT == 1 && (t.get (F.EVT_CAUSE_CAUSE 3)).testBit 2 &&
       decide (s.tst.since + 2 * s.slicePeriod ≤ t.time)) &&
     after (exec (.rotationOverdue 9) s) (fun t => decide (7 + 2 * s.slicePeriod ≤ t.time)) &&
     after (exec (.rotationOverdue 10) s) (fun t => decide (4 + s.slicePeriod ≤ t.time))) = true := by
  decide +kernel

/-! ## BAR0 -/

/-- The offset as an operand. -/
def o24 (o : Nat) : BitVec 24 := BitVec.ofNat 24 o

theorem witness_writes :
    (tInst.may 2 && !tNone.may 2 && !tBase.holdCloses 0x400600 && endTakes A.CMD_SUBMIT &&
     after (exec (.registerWrite (o24 (A.PORT_PAD_CFG 2)) 4 0x09877ABC) tInst) (fun t => t.word (A.PORT_PAD_CFG 2) = 0x09877000) &&
     after (exec (.registerWrite (o24 (A.PORT_PAD_CFG 2)) 4 0x09877ABC) tNone) (fun t => t.word (A.PORT_PAD_CFG 2) = 0x05877000 &&
       t.isPending Ev.secDenied) &&
     after (exec (.registerWrite (o24 (A.PORT_PAD_HOST_OVF 2)) 4 0xFFFFFFFF) tInst) (fun t => t.word (A.PORT_PAD_HOST_OVF 2) = 0) &&
     after (exec (.registerWrite (o24 (A.DEV_FOLD_STAGE 8)) 8 0x1122334455667788) tInst) (fun t => t.word (A.DEV_FOLD_STAGE 8) = 0x55667788 &&
       t.word (A.DEV_FOLD_STAGE 9) = 0x11223344) &&
     after (exec (.registerWrite (o24 (A.EVT_STATUS 9)) 4 0x3) ((State.puts tBase [(srcBit (A.EVT_STATUS 0) 288, 1), (srcBit (A.EVT_STATUS 0) 289, 1),
         (srcBit (A.EVT_STATUS 0) 292, 1)]))) (fun t => !t.isPending 288 && !t.isPending 289 && t.isPending 292) &&
     after (exec (.registerWrite 0x400601 4 0) tInst) (fun t => t.isPending Ev.devBadAccess) &&
     after (exec (.registerWrite 0x400600 16 0) tInst) (fun t => t.isPending Ev.devBadAccess) &&
     after (exec (.registerWrite 0x0FFFF0 4 0) tInst) (fun t => t.isPending Ev.devBadAccess) &&
     after (exec (.registerWrite 0x400600 4 0) (tInst.withPci { tInst.pci with d3hot := true })) (fun t => t.out = [.unsupportedRequest]) &&
     after (exec (.registerWrite 0x400600 4 0) (tInst.withPci { tInst.pci with perst := true })) (fun t => t.regs = tInst.regs)) = true := by
  decide +kernel

theorem witness_writeIllFormed : exec (.registerWrite 0 257 0) State.reset = .fault .illFormed := rfl

theorem witness_reads :
    (after (exec (.readClear (o24 (A.PORT_PAD_HOST_OVF 2)) 4 2) (tBase.put (F.PORT_PAD_HOST_OVF_COUNT 2) 7)) (fun t =>
       t.out = [.barRead (A.PORT_PAD_HOST_OVF 2) 7] && t.word (A.PORT_PAD_HOST_OVF 2) = 2) &&
     after (exec (.readClear (o24 (A.PORT_LINK_STATUS 2)) 4 0) tIlm) (fun t => t.out = [.barRead (A.PORT_LINK_STATUS 2) (tIlm.word (A.PORT_LINK_STATUS 2))]) &&
     after (exec (.readClear 0x0FFFF0 4 0) tBase) (fun t => t.out.head? = some (.barRead 0x0FFFF0 0) && t.isPending Ev.devBadAccess) &&
     after (exec (.readClear (o24 (A.PORT_LINK_STATUS 2)) 4 0) (tIlm.put F.CLK_STATUS_STATE 1)) (fun t =>
       t.out = [.barRead (A.PORT_LINK_STATUS 2) 0xFFFFFFFF]) &&
     after (exec (.wideLowWordRead (o24 A.DEV_TIME)) (tBase.timeTo 0x123456789A)) (fun t => t.out = [.barRead A.DEV_TIME 0x3456789A] &&
       after (exec (.wideLowWordRead (o24 (A.DEV_TIME + 4))) (t.timeTo 0x999999999999)) (fun u => u.out.head? = some (.barRead (A.DEV_TIME + 4) 0x12))) &&
     after (exec (.freezeRecordRead 5) tMem) (fun t => t.flag (F.MEM_INTEG_STATE_REC_READ 2 1) && t.out = [.barRead (A.MEM_FREEZE_REC 2 1 159) 0]) &&
     after (exec (.pisteEntryRead 77) (tBase.putWord (A.PISTE_ENTRY 77 2) 9)) (fun t => t.piste.latch = some (77, [0, 0, 9, 0]) &&
       t.out = [.barRead (A.PISTE_ENTRY 77 0) 0])) = true := by decide +kernel

theorem witness_readIllFormed : exec (.readClear 0 4097 0) State.reset = .fault .illFormed := rfl

theorem witness_doMore :
    (after (exec (.portCustomWrite 2 true 3 0x8C123456) tInst) (fun t => t.word (A.PORT_CUSTOM_B 2 3) = 0x8C123456) &&
     after (exec (.portCustomWrite 2 true 3 0x8C123456) tNone) (fun t => t.isPending Ev.secDenied) &&
     after (exec (.trimWrite (o24 (A.PORT_TRIM_HYB 2)) 0x0A0B) tInst) (fun t => t.get (F.PORT_TRIM_HYB_HYB_RES 2) = 11 && t.get (F.PORT_TRIM_HYB_HYB_CAP 2) = 10) &&
     after (exec (.trimWrite (o24 (A.MEM_TRIM 2 1 7)) 0x2020) tInst) (fun t => t.word (A.MEM_TRIM 2 1 7) = 0 && t.isPending Ev.devBadAccess) &&
     after (exec (.pisteEntryCommit 77 0x40000000) (tInst.withPiste { tInst.piste with shadow := [0, 0, 4] })) (fun t =>
       t.isPending Ev.devBadAccess || t.flag F.PISTE_STATUS_DIRTY) &&
     after (exec (.portBellGo 2 0x80030055) tBase) (fun t => t.flag (F.PORT_BELL_STATE_SENDING 2) && t.get (F.PORT_BELL_STATE_LEFT 2) = 3) &&
     after (exec (.portBellGo 2 0x80030055) tIlm) (fun t => t.flag (F.PORT_BELL_STATE_REFUSED 2)) &&
     after (exec (.memFlipArm 5 0x80002201) tInst) (fun t => t.word (A.MEM_FLIP_CTRL 2 1) = 0x80002201) &&
     after (exec (.memFlipArm 5 0x80002201) tNone) (fun t => t.isPending Ev.secDenied) &&
     after (exec (.cenSelWrite 3 0x80000107) (tInst.withCen { tInst.cen with ctr := [(3, 9)] })) (fun t => t.get (F.CEN_SEL_EVENT 3) = 0x107 &&
       t.get (F.CEN_SEL_CHAIN 3) = 0 && t.cen.ctr = []) &&
     after (exec (.evtForce 9 3) tBase) (fun t => t.isPending 288 && t.isPending 289) &&
     after (exec (.evtForce 9 4) tBase) (fun t => t.isPending 290)) = true := by decide +kernel

theorem witness_rings :
    (after (exec (.evidRingCfgWrite 1 1 8) tInst) (fun t => t.isPending Ev.devBadAccess && t.word (A.EVID_RING_CFG 1 + 4) = 0) &&
     after (exec (.evidRingCfgWrite 1 1 0x00300040) tInst) (fun t => t.ringRange 1 = (48, 64)) &&
     after (exec (.evidRingCfgWrite 1 0 0x80000005) tInst) (fun t => t.flag (F.EVID_RING_CFG_ENABLE 1) && t.get (F.EVID_RING_CFG_PORTS 1) = 5)) = true := by
  decide +kernel

theorem witness_manual :
    (let s := (tBase.put F.SEC_SESSION_ROLE 3).put F.SEC_STATE_LC 0
     s.may 3 && s.mayTst A.TST_MAN_CTRL &&
     (if s.manualFree 3 5 then after (exec (.tstManGo 0x98500000 77 true) s) (fun t => t.get F.TST_MAN_CTRL_RESULT = 1 && t.word A.TST_MAN_SIG = 77)
      else true) &&
     after (exec (.tstManGo 0x90200000 77 true) s) (fun t => t.get F.TST_MAN_CTRL_RESULT = 3 || t.get F.TST_MAN_CTRL_RESULT = 1)) = true := by
  decide +kernel

theorem witness_plainWord :
    (let o := A.POS_CFG
     let s8 : State := { tInst with part := .xs708 }
     plainOffset o && quietOffset o && plainRead o && !tInst.absentBlock o && (regAt o).isSome &&
     (match regAt o with | some (r, w) => w == 0 && tInst.present r.kind (r.firstIndex o) && r.fields != [] | none => false) &&
     after (exec (.registerWrite (o24 o) 4 0xFFFFFFFF) tInst) (fun t => t.flag F.POS_CFG_ODO_EN) &&
     after (exec (.registerWrite (o24 (A.EVT_MASK 0)) 4 0xFFFFFFFF) tInst) (fun t => (List.range 32).all fun b =>
       (t.word (A.EVT_MASK 0)).getLsbD b == tInst.srcPresent b) &&
     s8.absentBlock (A.PORT_PAD_CFG 8) &&
     after (exec (.registerWrite (o24 (A.PORT_PAD_CFG 8)) 4 1) s8) (fun t => t.regs == s8.regs && t.out == []) &&
     after (exec (.readClear (o24 (A.PORT_PAD_CFG 8)) 4 0) s8) (fun t => t.out == [.barRead (A.PORT_PAD_CFG 8) 0])) = true := by
  decide +kernel

theorem witness_plainReads :
    (let o := A.PORT_PARTNER_SN 2
     plainRead o && (match regAt o with | some (r, w) => r.wide && w == 0 && r.fields.all (·.acc != .rc) | none => false) &&
     after (exec (.wideLowWordRead (o24 o)) tIlm) (fun t => t.out == [.barRead o (tIlm.shown o)] && Tbl.get t.latch none (o + 4) == some (tIlm.shown (o + 4)) &&
       after (exec (.wideLowWordRead (o24 (o + 4))) t) (fun u => u.latch == [])) &&
     after (exec (.readClear (o24 A.POS_CFG) 4 7) tInst) (fun t => t.out == [.barRead A.POS_CFG (tInst.word A.POS_CFG)])) = true := by
  decide +kernel

/-! ## BAR2, the control port, MDIO -/

/-- The window on partition 3 for an installer. -/
def tWin : State := State.puts tMem [(F.DEV_BAR2_WIN_ENABLE, 1), (F.DEV_BAR2_WIN_PART, 3), (F.SEC_STATE_LC, 2), (F.SEC_SESSION_ROLE, 2)]

theorem witness_bar2 :
    (let s := (tWin.storeByte (cellAddr 5 0 0 64) 0xA5).storePoison (cellAddr 5 0 0 66)
     s.coreOn && !s.pci.perst && !s.pci.d3hot && decide (s.bar2At 64 2 false = .at_ 3 64) &&
     after (exec (.bar2Read 64 2) s) (fun t => t.out = [.bar2Read [0xA5, 0] false]) &&
     after (exec (.bar2Read 65 2) s) (fun t => t.out = [.bar2Read [0, 0] true]) &&
     after (exec (.bar2Read 0x200000 4) s) (fun t => t.out.head? = some (.bar2Read [0, 0, 0, 0] false) && t.isPending Ev.devBadAccess) &&
     after (exec (.bar2Read 64 1) (s.put F.SEC_SESSION_ROLE 0)) (fun t => t.isPending Ev.secDenied) &&
     after (exec (.bar2Read 64 1) (s.put F.SEC_STATE_LC 4)) (fun t => t.out = [.bar2Read [0] false]) &&
     after (exec (.bar2Read 64 1) (s.put (F.MEM_CH_STATE_SELF_REFRESH 2) 1)) (fun t => t.out = [.bar2Read [0] true]) &&
     after (exec (.bar2Write 127 [some 0x11, none, some 0x22]) s) (fun t => tCell t 127 = (0x11, checkBits 0x11) && tCell t 128 = (0, 0) &&
       tCell t 129 = (0x22, checkBits 0x22) && tCell t 64 = (0xA5, checkBits 0xA5)) &&
     after (exec (.bar2Write 64 [some 1]) (s.put F.SEC_SESSION_ROLE 0)) (fun t => t.isPending Ev.secDenied && t.dram = s.dram) &&
     after (exec (.bar2Write 0x3FFFFFF [some 1]) s) (fun t => t.isPending Ev.devBadAccess) &&
     after (exec (.bar2Write 64 [some 1]) (s.put (F.MEM_CH_STATE_SELF_REFRESH 2) 1)) (fun t => t.dram = s.dram) &&
     after (exec (.bar2Write 64 [some 1]) (s.put F.SEC_STATE_LC 4)) (fun t => t.dram = s.dram)) = true := by decide +kernel

theorem witness_bar2IllFormed :
    (match exec (.bar2Read 0 4097) State.reset, exec (.bar2Write 0 (List.replicate 257 none)) State.reset with
     | .fault .illFormed, .fault .illFormed => true
     | _, _ => false) = true := by decide +kernel

theorem witness_control :
    (let s := (State.puts tWin [(F.MSIX_TABLE_WORD 3 1, 9)]).withSec { tWin.sec with chal := true }
     after (exec (.perstN true) s) (fun t => t.pci.perst && !t.pci.link && t.word (A.MSIX_TABLE 3 1) = 0 && t.wide A.DEV_BAR2_WIN = 0 &&
       t.role = 0 && t.isPending Ev.secSessionEnd && !t.sec.chal && after (exec .controlPortLinkUp t) (fun u => !u.pci.link) &&
       after (exec (.perstN false) t) (fun u => !u.pci.perst && after (exec .controlPortLinkUp u) (fun w => w.pci.link))) &&
     after (exec (.configurationWrite true true false) s) (fun t => t.pci.d3hot && t.pci.msixEn) &&
     after (exec (.mdioRead 2 30 0) tIlm) (fun t => t.out = [.mdioRead ((tIlm.word (A.PORT_LINK_STATUS 2)).setWidth 16)] &&
       after (exec (.mdioRead 2 30 1) t) (fun u => u.out.head? = some (.mdioRead ((tIlm.word (A.PORT_LINK_STATUS 2) >>> 16).setWidth 16)))) &&
     after (exec (.mdioRead 2 31 11) s) (fun t => t.out = [.mdioRead 2]) &&
     after (exec (.mdioWrite 2 30 16 0) s) (fun t => t.isPending Ev.secDenied && t.get F.DEV_MDIO_DENIED_COUNT = 1) &&
     after (exec (.mdioWrite 4 1 0 0xA040) (s.withFold { s.fold with sections := [(9, List.replicate 32 7)] })) (fun t =>
       Tbl.get t.mdio.regs none (mdioKey 4 1 0) = some 0x2040) &&
     after (exec (.mdioWrite 4 30 16 0) (s.withFold { s.fold with sections := [(9, List.replicate 32 7)] })) (fun t =>
       !t.flag (F.PORT_MODE_ENABLE 4) && !t.isPending Ev.secDenied)) = true := by decide +kernel

theorem witness_generic :
    (let s := tBase.withPending [.lossOfSync 2]
     after (step s) (fun t => t.pending == []) && linkEvent (.lossOfSync 2) && s.canon && State.reset.canon &&
     after (step tBase) (fun t => t.ao.time10 == tBase.ao.time10 + 64) &&
     after (exec (.lossOfSync 2) tIlm) (fun t => !t.up 2)) = true := by
  decide +kernel

theorem test_wellFormed :
    (!(Instr.registerWrite 0 257 0).wf && (Instr.registerWrite 0 256 0).wf && !(Instr.readClear 0 4097 0).wf &&
     !(Instr.bar2Read 0 4097).wf && !(Instr.bar2Write 0 (List.replicate 257 none)).wf &&
     !(Instr.symbolReceived 0 (List.replicate 15 0) 0).wf && (Instr.symbolReceived 0 (List.replicate 16 0) 0).wf && !(Instr.lotReceived 0 0 (List.replicate 17281 1) false).wf &&
     !(Instr.loadingChangeAtS 0 false (List.replicate 21 (0, 0))).wf &&
     !(Instr.customDef 0 0 true []).wf && !(Instr.trainingPhaseEnd 0 0 (List.replicate 4097 (0, 0)) 0).wf &&
     !(Instr.memRequest 0 0 0 0 true [] false false false []).wf && !(Instr.memRequest 0 0 0 0 false [0] false false false []).wf &&
     !(Instr.lameWindow (List.replicate 33 (0, 0))).wf) = true := by
  decide +kernel
end

section
/-!
SUPPORT. The algebra of frames: `Kept` composes and widens, and the frame of an operation is read off its law of updates.
-/
namespace Sys2Proof.Machine

variable {fs fs' : List Field} {gs gs' : List RegGroup} {s t u : State}

theorem Field.same_trans {f : Field} (h : f.same s t) (h' : f.same t u) : f.same s u := by
  cases f
  case ao => exact h'.trans (by rw [show t.ao = _ from h])
  all_goals exact Eq.trans h' h

theorem Kept.refl (fs : List Field) (gs : List RegGroup) (s : State) : Kept fs gs s s :=
  ⟨rfl, rfl, fun f _ => by cases f <;> rfl, fun _ _ => rfl⟩

theorem Kept.trans (h : Kept fs gs s t) (h' : Kept fs gs t u) : Kept fs gs s u := by
  obtain ⟨hpart, hpend, hfields, hwords⟩ := h
  obtain ⟨hpart', hpend', hfields', hwords'⟩ := h'
  exact ⟨hpart'.trans hpart, hpend'.trans hpend, fun f hf => Field.same_trans (hfields f hf) (hfields' f hf),
    fun a ha => (hwords' a ha).trans (hwords a ha)⟩

theorem Kept.mono (h : Kept fs gs s t) (hf : fs ⊆ fs') (hg : gs ⊆ gs') : Kept fs' gs' s t := by
  obtain ⟨hpart, hpend, hfields, hwords⟩ := h
  exact ⟨hpart, hpend, fun f h => hfields f fun h' => h (hf h'), fun a h => hwords a fun h' => h (hg h')⟩

theorem Kept.word (h : Kept fs gs s t) {a : Nat} (ha : regGroup a ∉ gs) : t.word a = s.word a := h.2.2.2 a ha

theorem Kept.field (h : Kept fs gs s t) {f : Field} (hf : f ∉ fs) : f.same s t := h.2.2.1 f hf

/-- The frame of an operation whose updates are known. -/
theorem kept_of_keeps {m : Nat} (hk : ∀ P : State → Prop, Closed m P → P s → P t) (hl : leaves m fs gs = true) : Kept fs gs s t :=
  Agree.kept (hk (Agree m s) (agree_closed m s) (Agree.refl m s)) hl

theorem putWord_kept (s : State) (off : Nat) (w : Word) : Kept [] [regGroup off] s (s.putWord off w) :=
  ⟨rfl, rfl, fun f _ => by cases f <;> rfl, fun a ha => word_putWord_ne s w fun e => ha (by simp [e])⟩

theorem withOut_kept (s : State) (l : List Output) : Kept [.out] [] s (s.withOut l) :=
  kept_of_keeps (fun _ c h => withOut_keeps c h) (by decide)

theorem withLatch_kept (s : State) (l : Tbl (Option Word)) : Kept [.latch] [] s (s.withLatch l) :=
  kept_of_keeps (fun _ c h => withLatch_keeps c h) (by decide)

theorem raise_kept (s : State) (i : Nat) : Kept [.evt, .cen, .out] [.evt] s (s.raise i) :=
  kept_of_keeps (fun _ c h => State.raise_keeps c h) (by decide)

theorem noteFirst_kept (s : State) (r : RegRow) (w off : Nat) : Kept [.sec] [.sec] s (s.noteFirst r w off) :=
  kept_of_keeps (fun _ c h => State.noteFirst_keeps c h) (by decide)

theorem sendAllOwed_kept (s : State) : Kept [.evt, .out] [] s s.sendAllOwed :=
  kept_of_keeps (fun _ c h => State.sendAllOwed_keeps c h) (by decide)

theorem Kept.coreOn (h : Kept fs gs s t) (hf : Field.pwr ∉ fs) : t.coreOn = s.coreOn := coreOn_congr (h.field hf)

end Sys2Proof.Machine
end

section
/-!
SUPPORT. The register map as a table: the row of an offset is a row of its block, the fields of a row lie apart, and the fields'
masks bit by bit.
-/
namespace Sys2Proof.Machine

/-! ## Rows -/

theorem findRow_mem {rs : List RegRow} {off w : Nat} {r : RegRow} (h : findRow rs off = some (r, w)) : r ∈ rs ∧ r.covers off = some w := by
  induction rs with
  | nil => exact absurd h (by simp [findRow])
  | cons x rs ih =>
    unfold findRow at h
    split at h
    · next w' e =>
      obtain ⟨rfl, rfl⟩ := Prod.mk.inj (Option.some.inj h)
      exact ⟨List.mem_cons_self .., e⟩
    · obtain ⟨hm, hc⟩ := ih h
      exact ⟨List.mem_cons_of_mem _ hm, hc⟩

theorem regAt_mem {off w : Nat} {r : RegRow} (h : regAt off = some (r, w)) : r ∈ blockRows off := (findRow_mem h).1

/-- Every row of the map. -/
def mapRows : List RegRow :=
  rowsDev ++ rowsEvt ++ rowsCmd ++ rowsPort ++ rowsSlice ++ rowsMem ++ rowsFab ++ rowsLane ++ rowsPwr ++ rowsPos ++ rowsEvid ++ rowsSec ++
    rowsTst

theorem blockRows_mapRows {off : Nat} {r : RegRow} (h : r ∈ blockRows off) : r ∈ mapRows := by
  unfold blockRows at h
  unfold mapRows
  simp only [List.mem_append]
  split at h <;> simp_all only [true_or, or_true, List.not_mem_nil]

/-- Two fields of a register share no bit. -/
abbrev FieldRow.apart (f g : FieldRow) : Prop := f.lo + f.len ≤ g.lo ∨ g.lo + g.len ≤ f.lo

/-- The fields of a row share no bit. -/
def RegRow.apart (r : RegRow) : Bool := decide (r.fields.Pairwise FieldRow.apart)

theorem mapRows_apart : mapRows.all RegRow.apart = true := by decide +kernel

theorem regAt_apart {off w : Nat} {r : RegRow} (h : regAt off = some (r, w)) : r.fields.Pairwise FieldRow.apart := by
  have := List.all_eq_true.mp mapRows_apart r (blockRows_mapRows (regAt_mem h))
  exact of_decide_eq_true this

/-- A row that a session guards: it has a field that only an installer's or the maker's session writes. -/
def RegRow.guarded (r : RegRow) : Bool := r.fields.any fun f => f.acc = .rwi || f.acc = .rwm

theorem sec_evt_unguarded : (rowsSec ++ rowsEvt).all (fun r => !r.guarded) = true := by decide

theorem block_of_sec {off : Nat} (h : regGroup off = .sec) : off / 0x100000 = 14 := by
  unfold regGroup at h
  grind

theorem block_of_evt {off : Nat} (h : regGroup off = .evt) : off / 0x100000 = 1 := by
  unfold regGroup at h
  grind

theorem guarded_group {off w : Nat} {r : RegRow} (h : regAt off = some (r, w)) (hg : r.guarded = true) :
    regGroup off ≠ .sec ∧ regGroup off ≠ .evt := by
  have hm := regAt_mem h
  have hall : r ∉ rowsSec ++ rowsEvt := fun hr => by
    have := List.all_eq_true.mp sec_evt_unguarded r hr
    simp [hg] at this
  refine ⟨fun e => hall ?_, fun e => hall ?_⟩
  · simp only [blockRows, block_of_sec e] at hm
    exact List.mem_append_left _ hm
  · simp only [blockRows, block_of_evt e] at hm
    exact List.mem_append_right _ hm

/-! ## Masks -/

theorem mask_bit (f : FieldRow) (w : Nat) {b : Nat} (hb : b < 32) :
    (f.mask w).getLsbD b = decide (f.lo ≤ 32 * w + b ∧ 32 * w + b < f.lo + f.len) := by
  unfold FieldRow.mask FieldRow.inWord
  have hp := Nat.two_pow_pos f.len
  rw [Nat.mod_eq_of_lt (by omega), BitVec.getLsbD_ofNat, Nat.testBit_shiftRight, Nat.testBit_shiftLeft, testBit_mask]
  by_cases h : f.lo ≤ 32 * w + b
  · simp only [hb, h, decide_true, Bool.true_and, true_and]
    congr 1
    exact propext (by omega)
  · simp [h]

theorem mask_disjoint {f g : FieldRow} (h : f.apart g) (w b : Nat) (hb : b < 32) (hf : (f.mask w).getLsbD b = true) :
    (g.mask w).getLsbD b = false := by
  rw [mask_bit _ _ hb] at hf ⊢
  have hf := of_decide_eq_true hf
  refine decide_eq_false ?_
  unfold FieldRow.apart at h
  omega

section
variable {F : Word → FieldRow → Word} {g : FieldRow → Bool → Bool} {w b : Nat}

/-- A fold over fields, each of which changes its own bits only, leaves a bit that no field holds. -/
theorem foldl_fields_other (hF : ∀ a f, (F a f).getLsbD b = if (f.mask w).getLsbD b then g f (a.getLsbD b) else a.getLsbD b)
    {l : List FieldRow} (hl : ∀ f, f ∈ l → (f.mask w).getLsbD b = false) (a : Word) : (l.foldl F a).getLsbD b = a.getLsbD b := by
  induction l generalizing a with
  | nil => rfl
  | cons f l ih =>
    rw [List.foldl_cons, ih (fun x hx => hl x (List.mem_cons_of_mem _ hx)), hF, hl f (List.mem_cons_self ..)]
    rfl

/-- A fold over fields that lie apart gives each bit what its own field makes of it. -/
theorem foldl_fields_own (hF : ∀ a f, (F a f).getLsbD b = if (f.mask w).getLsbD b then g f (a.getLsbD b) else a.getLsbD b)
    (hb : b < 32) {l : List FieldRow} (hl : l.Pairwise FieldRow.apart) {f : FieldRow} (hf : f ∈ l) (hm : (f.mask w).getLsbD b = true)
    (a : Word) : (l.foldl F a).getLsbD b = g f (a.getLsbD b) := by
  induction l generalizing a with
  | nil => exact absurd hf (by simp)
  | cons x l ih =>
    obtain ⟨hx, hl⟩ := List.pairwise_cons.mp hl
    rw [List.foldl_cons]
    rcases List.mem_cons.mp hf with rfl | hf
    · rw [foldl_fields_other hF (fun y hy => mask_disjoint (hx y hy) w b hb hm), hF, hm]
      rfl
    · have : (x.mask w).getLsbD b = false := Bool.eq_false_iff.mpr fun hc =>
        Bool.noConfusion ((mask_disjoint (hx f hf) w b hb hc).symm.trans hm)
      rw [ih hl hf, hF, this]
      rfl

end

/-- A word is fixed on a field's bits by its bits there. -/
theorem and_mask_eq {x y : Word} {f : FieldRow} {w : Nat} (h : ∀ b, b < 32 → (f.mask w).getLsbD b = true → x.getLsbD b = y.getLsbD b) :
    x &&& f.mask w = y &&& f.mask w := by
  refine BitVec.eq_of_getLsbD_eq fun b hb => ?_
  rw [BitVec.getLsbD_and, BitVec.getLsbD_and]
  by_cases hm : (f.mask w).getLsbD b = true
  · rw [h b hb hm]
  · simp [hm]

end Sys2Proof.Machine
end

section
/-!
SUPPORT. A host's write by access type (R9, R10): the word it leaves, bit by bit, and what else it changes.
-/
namespace Sys2Proof.Machine

variable {s : State} {r : RegRow} {w off : Nat} {v : Word}

/-! ## The word written -/

/-- A bit of a field after a write, from the bit written and the bit as it was, by the field's access type (Table 0-6). -/
def State.bitAfter (s : State) (off : Nat) (f : FieldRow) (new old : Bool) : Bool :=
  if s.mayField off f then
    match f.acc with
    | .rw => new
    | .rwi => new
    | .rwm => new
    | .w1c => old && !new
    | .w1s => old || new
    | .ro => old
    | .rc => old
    | .wo => old
  else old

/-- The word after a write to one of its fields. -/
def State.writeField (s : State) (w off : Nat) (v a : Word) (f : FieldRow) : Word :=
  if s.mayField off f then
    match f.acc with
    | .rw => (a &&& ~~~f.mask w) ||| (v &&& f.mask w)
    | .rwi => (a &&& ~~~f.mask w) ||| (v &&& f.mask w)
    | .rwm => (a &&& ~~~f.mask w) ||| (v &&& f.mask w)
    | .w1c => a &&& ~~~(v &&& f.mask w)
    | .w1s => a ||| (v &&& f.mask w)
    | .ro => a
    | .rc => a
    | .wo => a
  else a

/-- A write sets the fields of the word one after the other. -/
theorem writtenWord_eq_foldl : s.writtenWord r w off v = r.fields.foldl (s.writeField w off v) (s.word off) := by
  unfold State.writtenWord
  congr
  funext a f
  cases h : s.mayField off f <;> simp only [State.writeField, h] <;> rfl

/-- A write changes a field's own bits only, each by the field's access type. -/
theorem writeField_bit {b : Nat} (hb : b < 32) (a : Word) (f : FieldRow) : (s.writeField w off v a f).getLsbD b =
    if (f.mask w).getLsbD b then s.bitAfter off f (v.getLsbD b) (a.getLsbD b) else a.getLsbD b := by
  unfold State.writeField State.bitAfter
  cases hmay : s.mayField off f <;> cases hm : (f.mask w).getLsbD b <;> cases f.acc <;>
    simp [hb, hm, -BitVec.getLsbD_eq_getElem]

/-- A bit of a field of the word after a write. -/
theorem writtenWord_field (hr : r.fields.Pairwise FieldRow.apart) {f : FieldRow} (hf : f ∈ r.fields) {b : Nat} (hb : b < 32)
    (hm : (f.mask w).getLsbD b = true) :
    (s.writtenWord r w off v).getLsbD b = s.bitAfter off f (v.getLsbD b) ((s.word off).getLsbD b) := by
  rw [writtenWord_eq_foldl]
  exact foldl_fields_own (g := fun f => s.bitAfter off f (v.getLsbD b)) (writeField_bit hb) hb hr hf hm _

/-- A bit that no field holds is as it was after a write. -/
theorem writtenWord_other {b : Nat} (hb : b < 32) (hm : ∀ f, f ∈ r.fields → (f.mask w).getLsbD b = false) :
    (s.writtenWord r w off v).getLsbD b = (s.word off).getLsbD b := by
  rw [writtenWord_eq_foldl]
  exact foldl_fields_other (g := fun f => s.bitAfter off f (v.getLsbD b)) (writeField_bit hb) hm _

/-- A word of which the access lets no field be set is as it was after a write. -/
theorem writtenWord_locked (h : ∀ f, f ∈ r.fields → s.mayField off f = false) : s.writtenWord r w off v = s.word off := by
  rw [writtenWord_eq_foldl]
  refine List.foldlRecOn (motive := fun a => a = s.word off) r.fields _ rfl fun a ha f hf => ?_
  simp [State.writeField, h f hf, ha]

/-- A state whose word at the offset is the one written has every field set by its access type. -/
theorem fieldAfter_of_word {t : State} (hr : r.fields.Pairwise FieldRow.apart) {f : FieldRow} (hf : f ∈ r.fields)
    (ht : t.word off = s.writtenWord r w off v) : s.fieldAfter off w v f t := by
  have hbit : ∀ y : Word, (∀ b, b < 32 → y.getLsbD b =
      ((f.mask w).getLsbD b && s.bitAfter off f (v.getLsbD b) ((s.word off).getLsbD b))) → t.word off &&& f.mask w = y := by
    intro y hy
    refine BitVec.eq_of_getLsbD_eq fun b hb => ?_
    rw [hy b hb, BitVec.getLsbD_and, ht]
    cases hm : (f.mask w).getLsbD b
    · simp
    · rw [writtenWord_field hr hf hb hm]
      simp
  unfold State.fieldAfter
  dsimp only
  refine hbit _ fun b hb => ?_
  unfold State.bitAfter State.mayField
  cases hm : (f.mask w).getLsbD b <;> cases f.acc <;>
    simp [apply_ite (BitVec.getLsbD · b), hm, hb, -BitVec.getLsbD_eq_getElem]

/-! ## A plain write -/

theorem writes_guarded {a : Access} (ha : a = .rwi ∨ a = .rwm) (h : s.writes r w off a = true) : r.guarded = true := by
  obtain ⟨f, hf, hw⟩ := List.any_eq_true.mp h
  refine List.any_eq_true.mpr ⟨f, hf, ?_⟩
  rcases ha with rfl | rfl <;> simp_all

theorem deniedWord_guarded (h : s.deniedWord r w off v = true) : r.guarded = true := by
  obtain ⟨f, hf, hw⟩ := List.any_eq_true.mp h
  refine List.any_eq_true.mpr ⟨f, hf, ?_⟩
  simp_all

/-- A row that no session guards leaves no note in the audit log. -/
theorem noteFirst_unguarded (h : r.guarded = false) : s.noteFirst r w off = s := by
  have hw : ∀ a, a = .rwi ∨ a = .rwm → s.writes r w off a = false := fun a ha =>
    Bool.eq_false_iff.mpr fun hc => Bool.noConfusion ((writes_guarded ha hc).symm.trans h)
  unfold State.noteFirst
  simp [hw]

theorem deniedWord_unguarded (h : r.guarded = false) : s.deniedWord r w off v = false :=
  Bool.eq_false_iff.mpr fun hc => Bool.noConfusion ((deniedWord_guarded hc).symm.trans h)

/-- A row that no session guards takes a write and does no more. -/
theorem plainWrite_unguarded (h : r.guarded = false) : s.plainWrite r w off v = s.putWord off (s.writtenWord r w off v) := by
  unfold State.plainWrite
  simp [noteFirst_unguarded h, deniedWord_unguarded h]

/-- What a plain write does beside its own word: a note in the audit log, and the denial. -/
theorem plainWrite_kept (s : State) (r : RegRow) (w off : Nat) (v : Word) :
    Kept [.sec, .evt, .cen, .out] [.sec, .evt] (s.putWord off (s.writtenWord r w off v)) (s.plainWrite r w off v) := by
  have hn := (noteFirst_kept (s.putWord off (s.writtenWord r w off v)) r w off).mono (fs' := [.sec, .evt, .cen, .out])
    (gs' := [.sec, .evt]) (by simp) (by simp)
  unfold State.plainWrite
  dsimp only
  split
  · exact hn.trans ((raise_kept _ _).mono (by simp) (by simp))
  · exact hn

/-- The word at the offset after a plain write. -/
theorem plainWrite_word_self (hr : regAt off = some (r, w)) : (s.plainWrite r w off v).word off = s.writtenWord r w off v := by
  cases hg : r.guarded
  · rw [plainWrite_unguarded hg, word_putWord_self]
  · obtain ⟨hsec, hevt⟩ := guarded_group hr hg
    rw [(plainWrite_kept s r w off v).word (by simp [hsec, hevt]), word_putWord_self]

theorem plainWrite_word_ne {a : Nat} (ha : a ≠ off) (hsec : regGroup a ≠ .sec) (hevt : regGroup a ≠ .evt) :
    (s.plainWrite r w off v).word a = s.word a := by
  rw [(plainWrite_kept s r w off v).word (by simp [hsec, hevt]), word_putWord_ne _ _ ha]

theorem plainWrite_frame (s : State) (r : RegRow) (w off : Nat) (v : Word) :
    Kept [.sec, .evt, .cen, .out] [regGroup off, .sec, .evt] s (s.plainWrite r w off v) :=
  ((putWord_kept s off _).mono (by simp) (by simp)).trans ((plainWrite_kept s r w off v).mono (by simp) (by simp))

theorem secDenied_raised (h : s.coreOn = true) : (s.raise Ev.secDenied).isPending Ev.secDenied = true :=
  raise_pending (by decide) (by unfold State.srcPresent; split <;> decide) h

theorem devBadAccess_raised (h : s.coreOn = true) : (s.raise Ev.devBadAccess).isPending Ev.devBadAccess = true :=
  raise_pending (by decide) (by unfold State.srcPresent; split <;> decide) h

/-- A write that would change a guarded field without the session for it raises SEC_DENIED. -/
theorem plainWrite_denied (hc : s.coreOn = true) (h : s.deniedWord r w off v = true) :
    (s.plainWrite r w off v).isPending Ev.secDenied = true := by
  unfold State.plainWrite
  simp only [h, if_true]
  refine secDenied_raised ?_
  rw [(noteFirst_kept _ r w off).coreOn (by decide), (putWord_kept s off _).coreOn (by decide), hc]

theorem deniedWord_of_field {f : FieldRow} (hf : f ∈ r.fields) (hacc : f.acc = .rwi ∧ s.may 2 = false ∨ f.acc = .rwm ∧ s.may 3 = false)
    (hv : v &&& f.mask w ≠ s.word off &&& f.mask w) : s.deniedWord r w off v = true := by
  refine List.any_eq_true.mpr ⟨f, hf, ?_⟩
  unfold State.mayField
  rcases hacc with ⟨ha, hm⟩ | ⟨ha, hm⟩ <;> simp [ha, hm, hv]

end Sys2Proof.Machine
end

section
/-!
SUPPORT. How an access of the host reaches a register (R304, R305, R395), and what follows a write of a plain one.
-/
namespace Sys2Proof.Machine

variable {s : State} {r : RegRow} {w off : Nat}

/-! ## The way to a register -/

theorem bar_open (h : s.barOpen) (f : State → State) : s.bar f = f s := by
  obtain ⟨hc, hp, hd⟩ := h
  simp [State.bar, hc, hp, hd]

theorem exec_registerWrite (off : BitVec 24) {len : Nat} (hl : len ≤ 256) (val : BitVec 64) (s : State) :
    exec (.registerWrite off len val) s = .next (s.bar fun t => t.barWrite off.toNat len val) :=
  if_neg (Nat.not_lt.mpr hl)

theorem exec_readClear (off : BitVec 24) {len : Nat} (hl : len ≤ 4096) (added : Word) (s : State) :
    exec (.readClear off len added) s = .next (s.bar fun t => t.barRead off.toNat len added) :=
  if_neg (Nat.not_lt.mpr hl)

theorem barWrite_four (h : off % 4 = 0) (val : BitVec 64) : s.barWrite off 4 val = s.barWriteWord off (val.setWidth 32) := by
  simp [State.barWrite, h]

theorem barWrite_eight (h : off % 4 = 0) (val : BitVec 64) :
    s.barWrite off 8 val = (s.barWriteWord off (val.setWidth 32)).barWriteWord (off + 4) ((val >>> 32).setWidth 32) := by
  simp [State.barWrite, h]

theorem registerWrite_four {off : BitVec 24} (h : s.answers off.toNat) (ha : off.toNat % 4 = 0) (val : BitVec 64) :
    exec (.registerWrite off 4 val) s = .next (s.barWriteWord off.toNat (val.setWidth 32)) := by
  rw [exec_registerWrite off (by decide), bar_open h.1, barWrite_four ha]

/-- A word that answers, of a resource that the part has, takes the write. -/
theorem barWriteWord_mapped (h : s.answers off) (hm : s.mapped off r w) (v : Word) :
    s.barWriteWord off v = s.writeMapped r w off v := by
  obtain ⟨_, hlc, hh⟩ := h
  obtain ⟨habs, hr, hp⟩ := hm
  simp [State.barWriteWord, hlc, hh, habs, hr, hp]

/-! ## What follows a write of a plain register -/

theorem strideIdx_some {base stride n i : Nat} (h : strideIdx base stride n off = some i) :
    base ≤ off ∧ (off - base) % stride = 0 := by
  unfold strideIdx at h
  split at h
  · next hc =>
    simp only [Bool.and_eq_true, decide_eq_true_eq] at hc
    exact hc.1
  · cases h

theorem strideIdx_none {base stride n : Nat} (hs : 0 < stride) (h : off < base ∨ base + stride * n ≤ off) :
    strideIdx base stride n off = none := by
  refine if_neg ?_
  simp only [Bool.and_eq_true, decide_eq_true_eq]
  rintro ⟨⟨hb, _⟩, hn⟩
  have := (Nat.div_lt_iff_lt_mul hs).mp hn
  rw [Nat.mul_comm] at this
  omega

theorem strideIdx_at {base stride n i : Nat} (hs : 0 < stride) (hi : i < n) : strideIdx base stride n (base + stride * i) = some i := by
  simp [strideIdx, Nat.mul_div_cancel_left _ hs, hi]

theorem arrayWord_none {base n : Nat} (h : off < base ∨ base + 4 * n ≤ off) : arrayWord base n off = none := by
  refine if_neg ?_
  simp only [Bool.and_eq_true, decide_eq_true_eq]
  omega

theorem arrayWord_at {base n i : Nat} (hi : i < n) : arrayWord base n (base + 4 * i) = some i := by
  unfold arrayWord
  rw [if_pos (by simp; omega)]
  congr 1
  omega

/-- Blocks 1, 2, 14 and 15 hold no register on whose write another waits. -/
theorem afterWrite_block (h : off / 0x100000 = 1 ∨ off / 0x100000 = 2 ∨ off / 0x100000 = 14 ∨ off / 0x100000 = 15) :
    s.afterWrite off = s := by
  have hone : off ≠ A.POS_WHEEL ∧ off ≠ A.PWR_TIMER ∧ off ≠ A.CEN_CFG := by
    simp only [A.POS_WHEEL, A.PWR_TIMER, A.CEN_CFG]; omega
  have hmsix : off / 0x10000 ≠ 1 := by omega
  have hilm : strideIdx (A.PORT_ILM_CTRL 0) 0x20000 16 off = none :=
    strideIdx_none (by decide) (by simp only [A.PORT_ILM_CTRL]; omega)
  have hpiste : arrayWord (A.PISTE_PORT 0) 16 off = none := arrayWord_none (by simp only [A.PISTE_PORT]; omega)
  have hlane : strideIdx (A.HL_CFG 0) 0x1000 16 off = none := strideIdx_none (by decide) (by simp only [A.HL_CFG]; omega)
  simp [State.afterWrite, hone, hmsix, hilm, hpiste, hlane]

/-- What makes an offset plain, by name. -/
structure PlainAt (off : Nat) : Prop where
  resetCtrl : off ≠ A.DEV_RESET_CTRL
  submit : off ≠ A.CMD_SUBMIT
  cons : off ≠ A.CMD_CQ_CONS
  sessCtrl : off ≠ A.SEC_SESS_CTRL
  keyCtrl : off ≠ A.SEC_KEY_CTRL
  idCtrl : off ≠ A.SEC_ID_CTRL
  manCtrl : off ≠ A.TST_MAN_CTRL
  status : arrayWord (A.EVT_STATUS 0) 10 off = none
  mask : arrayWord (A.EVT_MASK 0) 10 off = none
  force : arrayWord (A.EVT_FORCE 0) 10 off = none
  entry : strideIdx (A.PISTE_ENTRY 0 0) 4 131072 off = none
  cenSel : strideIdx (A.CEN_SEL 0) 4 312 off = none
  ring : strideIdx (A.EVID_RING_CFG 0) 4 64 off = none
  mode : strideIdx (A.PORT_MODE 0) 0x20000 16 off = none
  bell : strideIdx (A.PORT_BELL_CMD 0) 0x20000 16 off = none
  pistePort : arrayWord (A.PISTE_PORT 0) 16 off = none
  custom : customAt off = none
  trim : trimAt off = none

theorem plainAt_of_plainOffset (h : plainOffset off = true) : PlainAt off := by
  simp only [plainOffset, Bool.not_eq_true', Bool.or_eq_false_iff, List.contains_cons, List.contains_nil, List.any_cons, List.any_nil,
    beq_eq_false_iff_ne, Option.isSome_eq_false_iff, Option.isNone_iff_eq_none, Bool.or_false] at h
  obtain ⟨⟨⟨⟨⟨⟨⟨⟨⟨h1, h2, h3, h4, h5, h6, h7⟩, h8, h9, h10⟩, h11⟩, h12⟩, h13⟩, h14, h15⟩, h16⟩, h17⟩, h18⟩ := h
  exact ⟨h1, h2, h3, h4, h5, h6, h7, h8, h9, h10, h11, h12, h13, h14, h15, h16, h17, h18⟩

/-- A plain word takes a write by its fields' access types, but for TST_ROT_CFG outside MFG and RMA (R374). -/
theorem writeMapped_plain (hp : PlainAt off) (v : Word) :
    s.writeMapped r w off v =
      if off = A.TST_ROT_CFG ∧ s.mayTst off = false then s.raise Ev.secDenied else (s.plainWrite r w off v).afterWrite off := by
  have hrot : off / 0x100000 ≠ 15 → ¬ (off = A.TST_ROT_CFG ∧ s.mayTst off = false) := fun h e => h (by rw [e.1]; rfl)
  unfold State.writeMapped
  split
  case h_1 => rw [if_neg hp.resetCtrl, if_neg (hrot (by omega))]
  case h_2 =>
    rw [afterWrite_block (by omega), if_neg (hrot (by omega))]
    simp only [hp.status, hp.force, hp.mask]
  case h_3 => rw [afterWrite_block (by omega), if_neg hp.submit, if_neg hp.cons, if_neg (hrot (by omega))]
  case h_4 =>
    rw [if_neg (hrot (by omega))]
    simp only [hp.entry]
  case h_5 =>
    rw [if_neg (hrot (by omega))]
    simp only [hp.cenSel, hp.ring]
  case h_6 =>
    rw [afterWrite_block (by omega), if_neg hp.sessCtrl, if_neg hp.keyCtrl, if_neg hp.idCtrl, if_neg (hrot (by omega))]
  case h_7 =>
    rw [afterWrite_block (by omega)]
    simp [hp.manCtrl]
  case h_8 h15 =>
    rw [if_neg (hrot h15)]
    simp only [hp.mode, hp.custom, hp.bell, hp.trim]

/-- What makes a plain offset quiet, by name. -/
structure QuietAt (off : Nat) : Prop extends PlainAt off where
  wheel : off ≠ A.POS_WHEEL
  timer : off ≠ A.PWR_TIMER
  cenCfg : off ≠ A.CEN_CFG
  ilmCtrl : strideIdx (A.PORT_ILM_CTRL 0) 0x20000 16 off = none
  laneCfg : strideIdx (A.HL_CFG 0) 0x1000 16 off = none

theorem quietAt_of_quietOffset (h : quietOffset off = true) : QuietAt off := by
  simp only [quietOffset, Bool.and_eq_true, Bool.not_eq_true', Bool.or_eq_false_iff, List.contains_cons, List.contains_nil,
    beq_eq_false_iff_ne, Option.isSome_eq_false_iff, Option.isNone_iff_eq_none] at h
  obtain ⟨hp, ⟨⟨h1, h2, h3, _⟩, h4⟩, h5⟩ := h
  exact { plainAt_of_plainOffset hp with wheel := h1, timer := h2, cenCfg := h3, ilmCtrl := h4, laneCfg := h5 }

theorem afterWrite_quiet (h : QuietAt off) : s.afterWrite off = if off / 0x10000 = 1 then s.sendAllOwed else s := by
  unfold State.afterWrite
  rw [if_neg h.wheel, if_neg h.timer, if_neg h.cenCfg]
  simp only [h.ilmCtrl, h.pistePort, h.laneCfg]

theorem afterWrite_quiet_kept (h : QuietAt off) (s : State) : Kept [.evt, .out] [] s (s.afterWrite off) := by
  rw [afterWrite_quiet h]
  split
  · exact sendAllOwed_kept s
  · exact Kept.refl _ _ s

end Sys2Proof.Machine
end

section
/-!
SUPPORT. The statement on plain words: a write sets a word's fields by their access types and, where no other register waits on it,
changes nothing else (R9, R10).
-/
namespace Sys2Proof.Machine

variable {s : State} {r : RegRow} {w off a n : Nat} {v : Word}

theorem setScale_word (h : a ≠ A.POS_SCALE) : s.setScale.word a = s.word a := by
  unfold State.setScale
  dsimp only
  split
  · exact word_put_ne s _ h
  · split
    · exact word_put_ne s _ h
    · exact word_put_ne s (f := F.POS_SCALE_MM_PER_EDGE) _ h

theorem showCensus_word (h1 : a ≠ A.CEN_SLOTS) (h2 : a ≠ A.CEN_STATUS) : s.showCensus.word a = s.word a := by
  unfold State.showCensus
  split <;> rw [word_put_ne _ _ h2, word_put_ne _ _ h2, word_put_ne _ _ h1]

theorem leadCheck_word (h1 : a ≠ A.PORT_ILM_STATE n) (h2 : a ≠ A.PISTE_PORT n) : (s.leadCheck n).word a = s.word a := by
  unfold State.leadCheck
  dsimp only
  rw [word_put_ne _ _ h1, word_put_ne _ _ h2, word_put_ne _ _ h1]

/-- What follows a write of a plain word leaves the word itself and the event words. -/
theorem afterWrite_word (hp : PlainAt off) (ha : a = off ∨ regGroup a = .evt) : (s.afterWrite off).word a = s.word a := by
  have hne : ∀ b, off ≠ b → regGroup b ≠ .evt → a ≠ b := fun b h1 h2 e => by
    rcases ha with h | h
    · exact h1 (h ▸ e)
    · exact h2 (e ▸ h)
  unfold State.afterWrite
  split
  · next e => exact setScale_word (hne _ (by rw [e]; decide) (by simp))
  split
  · rfl
  split
  · next e => exact showCensus_word (hne _ (by rw [e]; decide) (by simp)) (hne _ (by rw [e]; decide) (by simp))
  split
  · exact (sendAllOwed_kept s).word (by simp)
  cases hi : strideIdx (A.PORT_ILM_CTRL 0) 0x20000 16 off with
  | some n =>
    obtain ⟨hb, hd⟩ := strideIdx_some hi
    unfold A.PORT_ILM_CTRL at hb hd
    refine leadCheck_word (hne _ ?_ (by simp)) (hne _ ?_ (by simp))
    · unfold A.PORT_ILM_STATE
      omega
    · unfold A.PISTE_PORT
      omega
  | none =>
    cases hl : strideIdx (A.HL_CFG 0) 0x1000 16 off with
    | some m =>
      obtain ⟨hb, hd⟩ := strideIdx_some hl
      unfold A.HL_CFG at hb hd
      simp only [hp.pistePort]
      refine word_put_ne _ _ (hne _ ?_ (by simp))
      show off ≠ A.HL_STATUS m
      unfold A.HL_STATUS
      omega
    | none => simp only [hp.pistePort]

theorem srcBit_group (j : Nat) : regGroup (srcBit (A.EVT_STATUS 0) j).off = .evt := by
  have e : (srcBit (A.EVT_STATUS 0) j).off = A.EVT_STATUS (j / 32) := by simp [srcBit, A.EVT_STATUS]
  rw [e, A.EVT_STATUS_group]

theorem afterWrite_pending (hp : PlainAt off) {j : Nat} (hj : groupOf j = none) : (s.afterWrite off).isPending j = s.isPending j :=
  isPending_congr hj (afterWrite_word hp (.inr (srcBit_group j)))

/-- Outside MFG and RMA no session sets a field of TST_ROT_CFG. -/
theorem rotCfg_locked (hr : regAt A.TST_ROT_CFG = some (r, w)) (h : s.mayTst A.TST_ROT_CFG = false) :
    ∀ f, f ∈ r.fields → s.mayField A.TST_ROT_CFG f = false := by
  have hall : ∀ x, regAt A.TST_ROT_CFG = some x → x.1.fields.all (fun f => decide (f.acc = .rwm)) = true := by decide
  intro f hf
  have := List.all_eq_true.mp (hall _ hr) f hf
  simp [State.mayField, of_decide_eq_true this, h]

/-- A plain word after a write. -/
theorem writeMapped_word_self (hr : regAt off = some (r, w)) (hp : PlainAt off) :
    (s.writeMapped r w off v).word off = s.writtenWord r w off v := by
  rw [writeMapped_plain hp]
  split
  · next h =>
    obtain ⟨rfl, ht⟩ := h
    rw [writtenWord_locked (rotCfg_locked hr ht), raise_word (by decide)]
  · rw [afterWrite_word hp (.inl rfl), plainWrite_word_self hr]

theorem writeMapped_denied (hp : PlainAt off) (hc : s.coreOn = true) (h : s.deniedWord r w off v = true) :
    (s.writeMapped r w off v).isPending Ev.secDenied = true := by
  rw [writeMapped_plain hp]
  split
  · exact secDenied_raised hc
  · rw [afterWrite_pending hp (by decide), plainWrite_denied hc h]

theorem writeMapped_quiet_kept (h : QuietAt off) (s : State) (r : RegRow) (w : Nat) (v : Word) :
    Kept [.sec, .evt, .cen, .out] [regGroup off, .sec, .evt] s (s.writeMapped r w off v) := by
  rw [writeMapped_plain h.toPlainAt]
  split
  · exact (raise_kept s _).mono (by simp) (by simp)
  · exact (plainWrite_frame s r w off v).trans ((afterWrite_quiet_kept h _).mono (by simp) (by simp))

theorem writeMapped_quiet_word (h : QuietAt off) (ha : a ≠ off) (hsec : regGroup a ≠ .sec) (hevt : regGroup a ≠ .evt) :
    (s.writeMapped r w off v).word a = s.word a := by
  rw [writeMapped_plain h.toPlainAt]
  split
  · exact raise_word hevt
  · rw [(afterWrite_quiet_kept h _).word (by simp), plainWrite_word_ne ha hsec hevt]

end Sys2Proof.Machine
end

section
/-!
SUPPORT. Where the registers of these statements lie in the map.
-/
namespace Sys2Proof.Machine

variable {s : State} {r : RegRow} {w off n : Nat}

/-! ## Finding a row -/

/-- The words of a row lie below an offset. -/
def RegRow.below (r : RegRow) (off : Nat) : Bool :=
  match r.dims with
  | [] => decide (r.base + 8 ≤ off)
  | (c, st) :: _ => decide (0 < st) && decide (r.base + c * st ≤ off)

theorem covers_of_below (h : r.below off = true) : r.covers off = none := by
  unfold RegRow.covers
  split
  · rfl
  · unfold RegRow.below at h
    cases hd : r.dims with
    | nil =>
      rw [hd] at h
      have h := of_decide_eq_true h
      have h0 : off - r.base ≠ 0 := by omega
      have h4 : off - r.base ≠ 4 := by omega
      simp [dimsRest, h0, h4]
    | cons d ds =>
      obtain ⟨c, st⟩ := d
      rw [hd] at h
      simp only [Bool.and_eq_true, decide_eq_true_eq] at h
      obtain ⟨hst, h⟩ := h
      have : ¬ (off - r.base) / st < c := by
        rw [Nat.div_lt_iff_lt_mul hst]
        omega
      simp [dimsRest, this]

/-- Rows that lie below an offset are passed over. -/
theorem findRow_skip {before after : List RegRow} (h : ∀ r, r ∈ before → r.below off = true) :
    findRow (before ++ after) off = findRow after off := by
  induction before with
  | nil => rfl
  | cons x l ih =>
    rw [List.cons_append, findRow, covers_of_below (h x (List.mem_cons_self ..))]
    exact ih fun r hr => h r (List.mem_cons_of_mem _ hr)

theorem RegRow.below_mono {off' : Nat} (h : r.below off = true) (hle : off ≤ off') : r.below off' = true := by
  unfold RegRow.below at h ⊢
  split at h <;> simp_all <;> omega

/-! ## The rows -/

/-- EVT_MASK (Table 17-6). -/
def evtMaskRow : RegRow := ⟨0x100040, [(10, 0x4)], .none, false, [⟨0, 32, .rw, 0xffffffff, 0xffffffff, .ao⟩]⟩

/-- EVT_STATUS (Table 17-6). -/
def evtStatusRow : RegRow := ⟨0x100000, [(10, 0x4)], .none, false, [⟨0, 32, .w1c, 0, 0, .ao⟩]⟩

/-- DEV_FOLD_STAGE (Table 2-15). -/
def stageRow : RegRow := ⟨0x040000, [(65536, 0x4)], .none, false, [⟨0, 32, .rwi, 0, 0, .core⟩]⟩

theorem regAt_evtMask : ∀ n : Fin 10, regAt (A.EVT_MASK n) = some (evtMaskRow, 0) := by decide
theorem regAt_evtStatus : ∀ n : Fin 10, regAt (A.EVT_STATUS n) = some (evtStatusRow, 0) := by decide

/-- A register that each port has once, at an offset in the port's block. -/
def portRow (at_ : Nat) (fields : List FieldRow) : RegRow := ⟨0x400000 + at_, [(16, 0x20000)], .port, false, fields⟩

/-- DRAIN_MS of PORT_PAD_CFG. -/
def drainField : FieldRow := ⟨24, 8, .rwi, 5, 5, .core⟩

/-- NAK_WAIT of PORT_PAD_CFG. -/
def nakField : FieldRow := ⟨16, 8, .rw, 0x18, 0x18, .core⟩

/-- The fields of PORT_PAD_CFG. -/
def padCfgFields : List FieldRow := [drainField, nakField, ⟨12, 4, .rw, 4, 4, .core⟩]

/-- The field of a counter that a read clears. -/
def counterFields : List FieldRow := [⟨0, 32, .rc, 0, 0, .core⟩]

/-- The fields of PORT_LINK_STATUS. -/
def linkStatusFields : List FieldRow := [⟨31, 1, .ro, 0, 0, .core⟩, ⟨30, 1, .ro, 0, 0, .core⟩, ⟨26, 4, .ro, 0, 0, .core⟩,
  ⟨22, 4, .ro, 0, 0, .core⟩, ⟨12, 4, .ro, 0, 0, .core⟩, ⟨0, 12, .ro, 0, 0, .core⟩]

theorem regAt_padCfg : ∀ n : Fin 16, regAt (A.PORT_PAD_CFG n) = some (portRow 0x600 padCfgFields, 0) := by decide
theorem regAt_hostOvf : ∀ n : Fin 16, regAt (A.PORT_PAD_HOST_OVF n) = some (portRow 0x664 counterFields, 0) := by decide
theorem regAt_linkDowns : ∀ n : Fin 16, regAt (A.PORT_LINK_DOWNS n) = some (portRow 0x40 counterFields, 0) := by decide
theorem regAt_linkStatus : ∀ n : Fin 16, regAt (A.PORT_LINK_STATUS n) = some (portRow 0xC linkStatusFields, 0) := by decide

theorem quiet_padCfg : ∀ n : Fin 16, quietOffset (A.PORT_PAD_CFG n) = true := by decide
theorem quiet_hostOvf : ∀ n : Fin 16, quietOffset (A.PORT_PAD_HOST_OVF n) = true := by decide
theorem quiet_linkDowns : ∀ n : Fin 16, quietOffset (A.PORT_LINK_DOWNS n) = true := by decide
theorem quiet_linkStatus : ∀ n : Fin 16, quietOffset (A.PORT_LINK_STATUS n) = true := by decide

theorem nPorts_le (s : State) : s.nPorts ≤ 16 := by
  unfold State.nPorts
  split <;> decide

/-- A register in the block of a port that the part has is there. -/
theorem mapped_port {at_ : Nat} {fields : List FieldRow} (hn : n < s.nPorts) (ha : at_ < 0x20000)
    (hr : regAt (0x400000 + at_ + 0x20000 * n) = some (portRow at_ fields, 0)) :
    s.mapped (0x400000 + at_ + 0x20000 * n) (portRow at_ fields) 0 := by
  have h16 := nPorts_le s
  refine ⟨?_, hr, decide_eq_true ?_⟩
  · have hd : (0x400000 + at_ + 0x20000 * n) / 0x100000 = 4 ∨ (0x400000 + at_ + 0x20000 * n) / 0x100000 = 5 := by omega
    unfold State.absentBlock
    rcases hd with h | h <;> rw [h] <;> exact decide_eq_false (by omega)
  · show (0x400000 + at_ + 0x20000 * n - (0x400000 + at_)) / 0x20000 < s.nPorts
    omega

theorem covers_of_rest (hb : r.base ≤ off) (h : dimsRest r.dims (off - r.base) = some 0) : r.covers off = some 0 := by
  simp [RegRow.covers, Nat.not_lt.mpr hb, h]

theorem covers_stage (h : 0x40000 ≤ off ∧ off < 0x80000) (ha : off % 4 = 0) : stageRow.covers off = some 0 := by
  refine covers_of_rest h.1 ?_
  show (if (off - 0x40000) / 4 < 65536 then some ((off - 0x40000) % 4) else none) = some 0
  rw [if_pos (by omega), show (off - 0x40000) % 4 = 0 by omega]

theorem rowsDev_stage : rowsDev = rowsDev.take 14 ++ stageRow :: rowsDev.drop 15 := by decide

theorem rowsDev_below_stage : ∀ r, r ∈ rowsDev.take 14 → r.below 0x40000 = true := by decide

/-- The words of the staging buffer. -/
theorem regAt_stage {i : Nat} (hi : i < 65536) : regAt (A.DEV_FOLD_STAGE i) = some (stageRow, 0) := by
  have ho : A.DEV_FOLD_STAGE i = 0x40000 + 4 * i := by unfold A.DEV_FOLD_STAGE; omega
  have hb : A.DEV_FOLD_STAGE i / 0x100000 = 0 := by omega
  unfold regAt blockRows
  simp only [hb]
  rw [rowsDev_stage, findRow_skip fun r hr => RegRow.below_mono (rowsDev_below_stage r hr) (by omega), findRow,
    covers_stage (by omega) (by omega)]

theorem trimRegs_group {u a : Nat} (h : a ∈ trimRegs u) : regGroup a = .portCal ∨ regGroup a = .memCal := by
  have := trimRegs_g (m := 2 ^ 57 + 2 ^ 64) h (by decide) (by decide)
  unfold InGroup at this
  revert this
  cases regGroup a <;> decide

/-- No calibration unit has a trim register outside the calibration groups. -/
theorem trimAt_none (h1 : regGroup off ≠ .portCal) (h2 : regGroup off ≠ .memCal) : trimAt off = none := by
  unfold trimAt
  rw [Option.map_eq_none_iff, List.find?_eq_none]
  intro u _ hu
  rcases trimRegs_group (List.contains_iff_mem.mp hu) with h | h
  · exact h1 h
  · exact h2 h

theorem quiet_stage {i : Nat} (hi : i < 65536) : QuietAt (A.DEV_FOLD_STAGE i) := by
  have ho : A.DEV_FOLD_STAGE i = 0x40000 + 4 * i := by unfold A.DEV_FOLD_STAGE; omega
  have hlt : A.DEV_FOLD_STAGE i < 0x80000 := by omega
  have hge : 0x40000 ≤ A.DEV_FOLD_STAGE i := by omega
  have hne : ∀ a, a < 0x40000 ∨ 0x80000 ≤ a → A.DEV_FOLD_STAGE i ≠ a := fun a h => by omega
  have hst : ∀ a st n, 0 < st → 0x80000 ≤ a → strideIdx a st n (A.DEV_FOLD_STAGE i) = none := fun a st n h0 h =>
    strideIdx_none h0 (.inl (by omega))
  have har : ∀ a n, 0x80000 ≤ a → arrayWord a n (A.DEV_FOLD_STAGE i) = none := fun a n h => arrayWord_none (.inl (by omega))
  exact {
    resetCtrl := hne _ (by decide), submit := hne _ (by decide), cons := hne _ (by decide), sessCtrl := hne _ (by decide)
    keyCtrl := hne _ (by decide), idCtrl := hne _ (by decide), manCtrl := hne _ (by decide), wheel := hne _ (by decide)
    timer := hne _ (by decide), cenCfg := hne _ (by decide)
    status := har _ _ (by decide), mask := har _ _ (by decide), force := har _ _ (by decide), pistePort := har _ _ (by decide)
    entry := hst _ _ _ (by decide) (by decide), cenSel := hst _ _ _ (by decide) (by decide), ring := hst _ _ _ (by decide) (by decide)
    mode := hst _ _ _ (by decide) (by decide), bell := hst _ _ _ (by decide) (by decide)
    ilmCtrl := hst _ _ _ (by decide) (by decide), laneCfg := hst _ _ _ (by decide) (by decide)
    custom := if_pos (by simp; omega)
    trim := trimAt_none (by simp) (by simp) }

end Sys2Proof.Machine
end

section
/-!
PROOF. O56: a register write, clause by clause.
-/
namespace Sys2Proof.Machine

variable {off : BitVec 24} {s : State} {len : Nat} {val : BitVec 64}

/-! ## Accesses that change no register -/

/-- No request brings more than 256 bytes (log entry 10). -/
theorem registerWrite_illFormed (h : 256 < len) : exec (.registerWrite off len val) s = .fault .illFormed := if_pos h

theorem registerWrite_unreached (hl : len ≤ 256) (h : s.coreOn = false ∨ s.pci.perst = true) :
    exec (.registerWrite off len val) s = .next s := by
  rw [exec_registerWrite off hl]
  rcases h with h | h <;> simp [State.bar, h]

theorem registerWrite_d3hot (hl : len ≤ 256) (hc : s.coreOn = true) (hp : s.pci.perst = false) (hd : s.pci.d3hot = true) :
    exec (.registerWrite off len val) s = .next (s.withOut (.unsupportedRequest :: s.out)) := by
  rw [exec_registerWrite off hl]
  simp [State.bar, hc, hp, hd]

theorem registerWrite_inEnd (hb : s.barOpen) (hlc : s.lc = 4) (he : endTakes off.toNat = false) (ha : off.toNat % 4 = 0) :
    exec (.registerWrite off 4 val) s = .next s := by
  rw [exec_registerWrite off (by decide), bar_open hb, barWrite_four ha]
  simp [State.barWriteWord, hlc, he]

/-- An unmapped offset, an unaligned one and a length other than 4 and 8 change no register. -/
theorem registerWrite_badAccess (hl : len ≤ 256) (h : s.answers off.toNat) (hp : s.absentBlock off.toNat = false)
    (hbad : off.toNat % 4 ≠ 0 ∨ (len ≠ 4 ∧ len ≠ 8) ∨ (len = 4 ∧ regAt off.toNat = none)) :
    exec (.registerWrite off len val) s = .next (s.raise Ev.devBadAccess) := by
  obtain ⟨hb, hlc, hh⟩ := h
  rw [exec_registerWrite off hl, bar_open hb]
  by_cases ha : off.toNat % 4 = 0
  · rcases hbad with h | ⟨h4, h8⟩ | ⟨rfl, hr⟩
    · exact absurd ha h
    · simp [State.barWrite, h4, h8, hlc, hh, hp]
    · rw [barWrite_four ha]
      simp [State.barWriteWord, hlc, hh, hp, hr]
  · simp [State.barWrite, ha, hlc, hh, hp]

/-- The block of a resource that the part lacks discards writes. -/
theorem registerWrite_absent (hl : len ≤ 256) (h : s.answers off.toNat) (hp : s.absentBlock off.toNat = true)
    (hn : len ≠ 8 ∨ off.toNat % 4 ≠ 0 ∨ s.absentBlock (off.toNat + 4) = true) : exec (.registerWrite off len val) s = .next s := by
  obtain ⟨hb, hlc, _⟩ := h
  have hword : ∀ o v, s.absentBlock o = true → s.barWriteWord o v = s := fun o v ho => by simp [State.barWriteWord, ho]
  rw [exec_registerWrite off hl, bar_open hb]
  by_cases ha : off.toNat % 4 = 0
  · by_cases h4 : len = 4
    · rw [h4, barWrite_four ha, hword _ _ hp]
    · by_cases h8 : len = 8
      · have hp' : s.absentBlock (off.toNat + 4) = true := by simpa [h8, ha] using hn
        rw [h8, barWrite_eight ha, hword _ _ hp, hword _ _ hp']
      · simp [State.barWrite, h4, h8, hp]
  · simp [State.barWrite, ha, hp]

/-! ## Plain words -/

/-- A write of a plain word, as the statement has it. -/
theorem registerWrite_plain {r : RegRow} {w : Nat} (h : s.answers off.toNat) (ha : off.toNat % 4 = 0)
    (hp : plainOffset off.toNat = true) (hm : s.mapped off.toNat r w) :
    ∃ t, exec (.registerWrite off 4 val) s = .next t ∧
      (∀ f, f ∈ r.fields → s.fieldAfter off.toNat w (val.setWidth 32) f t) ∧
      (∀ b, b < 32 → (∀ f, f ∈ r.fields → (f.mask w).getLsbD b = false) →
        (t.word off.toNat).getLsbD b = (s.word off.toNat).getLsbD b) ∧
      (∀ f, f ∈ r.fields → (f.acc = .rwi ∧ s.may 2 = false ∨ f.acc = .rwm ∧ s.may 3 = false) →
        val.setWidth 32 &&& f.mask w ≠ s.word off.toNat &&& f.mask w → t.isPending Ev.secDenied = true) ∧
      (quietOffset off.toNat = true → (∀ a, a ≠ off.toNat → regGroup a ≠ .sec → regGroup a ≠ .evt → t.word a = s.word a) ∧
        Kept [.sec, .evt, .cen, .out] [regGroup off.toNat, .sec, .evt] s t) := by
  have hr := hm.2.1
  have hpl := plainAt_of_plainOffset hp
  have hself := writeMapped_word_self (s := s) (v := val.setWidth 32) hr hpl
  refine ⟨_, (registerWrite_four h ha val).trans (congrArg _ (barWriteWord_mapped h hm _)), ?_, ?_, ?_, ?_⟩
  · exact fun f hf => fieldAfter_of_word (regAt_apart hr) hf hself
  · intro b hb hb'
    rw [hself, writtenWord_other hb hb']
  · exact fun f hf hacc hv => writeMapped_denied hpl h.1.1 (deniedWord_of_field hf hacc hv)
  · intro hq
    have hq := quietAt_of_quietOffset hq
    exact ⟨fun a hne hsec hevt => writeMapped_quiet_word hq hne hsec hevt, writeMapped_quiet_kept hq s r w _⟩

/-! ## Words of one field -/

/-- A word that is one field takes the value written whole where the access lets it. -/
theorem writtenWord_whole {r : RegRow} {f : FieldRow} {o : Nat} {v : Word} (hr : r.fields = [f]) (hf : f.lo = 0 ∧ f.len = 32)
    (hacc : f.acc = .rw ∨ f.acc = .rwi ∧ s.may 2 = true) : s.writtenWord r 0 o v = v := by
  refine BitVec.eq_of_getLsbD_eq fun b hb => ?_
  have hm : (f.mask 0).getLsbD b = true := by
    rw [mask_bit _ _ hb]
    exact decide_eq_true (by omega)
  rw [writtenWord_field (by simp [hr]) (by simp [hr]) hb hm]
  rcases hacc with h | ⟨h, hmay⟩ <;> simp [State.bitAfter, State.mayField, *]

end Sys2Proof.Machine
end

section
/-!
PROOF. O56: the event masks, PORT_PAD_CFG, words that no write changes, the staging buffer and the event status.
-/
namespace Sys2Proof.Machine

variable {off : BitVec 24} {s : State} {val : BitVec 64}

/-! ## Event masks -/

theorem testBit_listMask (l : List Nat) (b : Nat) : (listMask l).testBit b = decide (b ∈ l) := by
  have hfold : ∀ m, (l.foldl (fun m i => m ||| (1 <<< i)) m).testBit b = (m.testBit b || decide (b ∈ l)) := by
    induction l with
    | nil => simp
    | cons x l ih =>
      intro m
      rw [List.foldl_cons, ih, Nat.testBit_or, Nat.one_shiftLeft, Nat.testBit_two_pow]
      by_cases h : b = x
      · simp [h]
      · simp [h, Ne.symm h]
  exact (hfold 0).trans (by simp)

theorem presentWord_bit (s : State) (w : Nat) {b : Nat} (hb : b < 32) : (s.presentWord w).getLsbD b = s.srcPresent (32 * w + b) := by
  unfold State.presentWord
  rw [BitVec.getLsbD_ofNat, testBit_listMask]
  simp [hb]

theorem owes_kept (s : State) (l : List Nat) : Kept [.evt, .out] [] s (s.each l State.owe) :=
  kept_of_keeps (fun _ c h => each_keeps (fun _ _ h => State.owe_keeps c h) h) (by decide)

theorem mapped_evt {o w : Nat} {r : RegRow} (hr : regAt o = some (r, w)) (hk : r.kind = .none) (ho : o / 0x100000 = 1) : s.mapped o r w := by
  refine ⟨?_, hr, by simp [State.present, hk]⟩
  unfold State.absentBlock
  rw [ho]
  rfl

theorem evtMask_at (w : Fin 10) : A.EVT_MASK w = A.EVT_MASK 0 + 4 * w := by unfold A.EVT_MASK; omega
theorem evtStatus_at (w : Fin 10) : A.EVT_STATUS w = A.EVT_STATUS 0 + 4 * w := by unfold A.EVT_STATUS; omega

/-- A write of a mask word takes the bits of sources that the part has, and every vector that it brings to be asserted owes a
message. -/
theorem writeMapped_evtMask (w : Fin 10) (v : Word) : s.writeMapped evtMaskRow 0 (A.EVT_MASK w) v =
    s.reroute fun t => t.putWord (A.EVT_MASK w) (v &&& t.presentWord w) := by
  have hb : A.EVT_MASK w / 0x100000 = 1 := by unfold A.EVT_MASK; omega
  have hst : arrayWord (A.EVT_STATUS 0) 10 (A.EVT_MASK w) = none := arrayWord_none (by unfold A.EVT_MASK A.EVT_STATUS; omega)
  have hfo : arrayWord (A.EVT_FORCE 0) 10 (A.EVT_MASK w) = none := arrayWord_none (by unfold A.EVT_MASK A.EVT_FORCE; omega)
  have hma : arrayWord (A.EVT_MASK 0) 10 (A.EVT_MASK w) = some w.val := by rw [evtMask_at]; exact arrayWord_at w.isLt
  unfold State.writeMapped
  simp only [hb, hst, hfo, hma]
  congr 1
  funext t
  rw [plainWrite_unguarded (by decide), writtenWord_whole (f := ⟨0, 32, .rw, 0xffffffff, 0xffffffff, .ao⟩) rfl ⟨rfl, rfl⟩ (.inl rfl)]

theorem registerWrite_evtMask (w : Fin 10) (ho : off.toNat = A.EVT_MASK w) (h : s.answers off.toNat) :
    ∃ t, exec (.registerWrite off 4 val) s = .next t ∧
      (∀ b, b < 32 → (t.word off.toNat).getLsbD b = (if s.srcPresent (32 * w + b) then (val.setWidth 32).getLsbD b else false)) ∧
      (∀ a, a ≠ off.toNat → t.word a = s.word a) ∧ Kept [.evt, .out] [regGroup off.toNat] s t := by
  have ha : off.toNat % 4 = 0 := by rw [ho]; unfold A.EVT_MASK; omega
  rw [registerWrite_four h ha]
  rw [ho] at h ⊢
  have hm : s.mapped (A.EVT_MASK w) evtMaskRow 0 := mapped_evt (regAt_evtMask w) rfl (by unfold A.EVT_MASK; omega)
  rw [barWriteWord_mapped h hm, writeMapped_evtMask]
  have hk := owes_kept (s.putWord (A.EVT_MASK w) (val.setWidth 32 &&& s.presentWord w))
  refine ⟨_, rfl, fun b hb => ?_, fun a hne => ?_, ?_⟩
  · unfold State.reroute
    rw [(hk _).word (by simp), word_putWord_self, BitVec.getLsbD_and, presentWord_bit s w hb]
    cases s.srcPresent (32 * w + b) <;> simp
  · unfold State.reroute
    rw [(hk _).word (by simp), word_putWord_ne _ _ hne]
  · exact ((putWord_kept s _ _).mono (by simp) (by simp)).trans ((hk _).mono (by simp) (by simp))

/-! ## PORT_PAD_CFG -/

theorem getBits_congr {x y : Word} {lo len : Nat} (h : ∀ b, b < 32 → lo ≤ b → b < lo + len → x.getLsbD b = y.getLsbD b) :
    getBits x lo len = getBits y lo len := by
  refine Nat.eq_of_testBit_eq fun j => ?_
  rw [testBit_getBits, testBit_getBits]
  by_cases hj : j < len
  · by_cases h32 : lo + j < 32
    · have := h (lo + j) h32 (by omega) (by omega)
      unfold BitVec.getLsbD at this
      rw [this]
    · rw [Nat.testBit_lt_two_pow (Nat.lt_of_lt_of_le x.isLt (Nat.pow_le_pow_right (by decide) (by omega))),
        Nat.testBit_lt_two_pow (Nat.lt_of_lt_of_le y.isLt (Nat.pow_le_pow_right (by decide) (by omega)))]
  · simp [hj]

/-- Words that agree on a field's mask have the same field. -/
theorem getBits_of_mask {x y : Word} {f : FieldRow} (h : x &&& f.mask 0 = y &&& f.mask 0) : getBits x f.lo f.len = getBits y f.lo f.len := by
  refine getBits_congr fun b hb h1 h2 => ?_
  have hm : (f.mask 0).getLsbD b = true := by
    rw [mask_bit _ _ hb]
    exact decide_eq_true (by omega)
  have := congrArg (BitVec.getLsbD · b) h
  simpa [BitVec.getLsbD_and, hm, -BitVec.getLsbD_eq_getElem] using this

/-- PORT_PAD_CFG has no field below bit 12. -/
theorem padCfg_low_bits {f : FieldRow} (hf : f ∈ padCfgFields) {b : Nat} (hb : b < 12) : (f.mask 0).getLsbD b = false := by
  have hlo : ∀ f, f ∈ padCfgFields → 12 ≤ f.lo := by decide
  rw [mask_bit _ _ (by omega)]
  have := hlo f hf
  exact decide_eq_false (by omega)

theorem and_low12_eq {x y : Word} (h : ∀ b, b < 12 → x.getLsbD b = y.getLsbD b) : x &&& 0xFFF = y &&& 0xFFF := by
  have hhigh : ∀ b, b < 32 → 12 ≤ b → (0xFFF : Word).getLsbD b = false := by decide
  refine BitVec.eq_of_getLsbD_eq fun b hb => ?_
  rw [BitVec.getLsbD_and, BitVec.getLsbD_and]
  by_cases h12 : b < 12
  · rw [h b h12]
  · rw [hhigh b hb (by omega), Bool.and_false, Bool.and_false]

theorem registerWrite_padCfg (n : Fin 16) (ho : off.toNat = A.PORT_PAD_CFG n) (hn : n < s.nPorts) (h : s.answers off.toNat) :
    ∃ t, exec (.registerWrite off 4 val) s = .next t ∧ t.get (F.PORT_PAD_CFG_NAK_WAIT n) = getBits (val.setWidth 32) 16 8 ∧
      t.word off.toNat &&& 0xFFF = s.word off.toNat &&& 0xFFF ∧
      t.get (F.PORT_PAD_CFG_DRAIN_MS n) = (if s.may 2 then getBits (val.setWidth 32) 24 8 else s.get (F.PORT_PAD_CFG_DRAIN_MS n)) ∧
      (s.may 2 = false → getBits (val.setWidth 32) 24 8 ≠ s.get (F.PORT_PAD_CFG_DRAIN_MS n) → t.isPending Ev.secDenied = true) ∧
      (∀ a, a ≠ off.toNat → regGroup a = .portPad → t.word a = s.word a) ∧
      Kept [.sec, .evt, .cen, .out] [.portPad, .sec, .evt] s t := by
  have hat : A.PORT_PAD_CFG n = 0x400000 + 0x600 + 0x20000 * n := by unfold A.PORT_PAD_CFG; omega
  have hm : s.mapped off.toNat (portRow 0x600 padCfgFields) 0 := by
    rw [ho, hat]
    exact mapped_port hn (by decide) (hat ▸ regAt_padCfg n)
  have hq := quiet_padCfg n
  rw [← ho] at hq
  obtain ⟨t, ht, hfield, hother, hdenied, hquiet⟩ := registerWrite_plain (val := val) h (by omega)
    (Bool.and_eq_true _ _ ▸ hq).1 hm
  obtain ⟨hwords, hkept⟩ := hquiet hq
  have hg : regGroup off.toNat = .portPad := by rw [ho, A.PORT_PAD_CFG_group]
  have hnak : t.word off.toNat &&& nakField.mask 0 = val.setWidth 32 &&& nakField.mask 0 := hfield nakField (by decide)
  have hdrain : t.word off.toNat &&& drainField.mask 0 =
      if s.may 2 then val.setWidth 32 &&& drainField.mask 0 else s.word off.toNat &&& drainField.mask 0 := hfield drainField (by decide)
  have hget : ∀ (u : State) (f : FieldRow), u.get ⟨A.PORT_PAD_CFG n, f.lo, f.len⟩ = getBits (u.word off.toNat) f.lo f.len := by
    intro u f
    rw [ho]
    rfl
  refine ⟨t, ht, ?_, and_low12_eq fun b hb => hother b (by omega) fun f hf => padCfg_low_bits hf hb, ?_, ?_, ?_, hg ▸ hkept⟩
  · exact (hget t nakField).trans (getBits_of_mask hnak)
  · refine (hget t drainField).trans ?_
    split at hdrain
    · next hmay => rw [if_pos hmay, getBits_of_mask hdrain]; rfl
    · next hmay => rw [if_neg hmay, getBits_of_mask hdrain]; exact (hget s drainField).symm
  · exact fun hmay hv => hdenied drainField (by decide) (.inl ⟨rfl, hmay⟩) fun e =>
      hv ((getBits_of_mask e).trans (hget s drainField).symm)
  · exact fun a hne hga => hwords a hne (by rw [hga]; decide) (by rw [hga]; decide)

/-! ## Words that no write changes -/

/-- A read-only or counting word of a port that the part has takes no write. -/
theorem registerWrite_portLocked {at_ n : Nat} {fields : List FieldRow} (hl : ∀ f, f ∈ fields → f.acc = .ro ∨ f.acc = .rc)
    (ho : off.toNat = 0x400000 + at_ + 0x20000 * n) (hn : n < s.nPorts) (hat : at_ < 0x20000 ∧ at_ % 4 = 0)
    (hr : regAt off.toNat = some (portRow at_ fields, 0)) (hq : quietOffset off.toNat = true) (h : s.answers off.toNat) :
    ∃ t, exec (.registerWrite off 4 val) s = .next t ∧ Kept [] [] s t := by
  have hm : s.mapped off.toNat (portRow at_ fields) 0 := by
    rw [ho] at hr ⊢
    exact mapped_port hn hat.1 hr
  have hgd : (portRow at_ fields).guarded = false := by
    refine List.any_eq_false.mpr fun f hf => ?_
    rcases hl f hf with e | e <;> simp [e]
  have hlock : s.writtenWord (portRow at_ fields) 0 off.toNat (val.setWidth 32) = s.word off.toNat := by
    refine writtenWord_locked fun f hf => ?_
    rcases hl f hf with e | e <;> simp [State.mayField, e]
  have hrot : off.toNat ≠ A.TST_ROT_CFG := by
    have := nPorts_le s
    unfold A.TST_ROT_CFG
    omega
  have hq := quietAt_of_quietOffset hq
  refine ⟨_, (registerWrite_four h (by omega) val).trans (congrArg _ (barWriteWord_mapped h hm _)), ?_⟩
  rw [writeMapped_plain hq.toPlainAt, if_neg fun e => hrot e.1, afterWrite_quiet hq, if_neg (by omega),
    plainWrite_unguarded hgd, hlock]
  exact ⟨rfl, rfl, fun f _ => by cases f <;> rfl, fun a _ => by
    by_cases e : a = off.toNat
    · rw [e, word_putWord_self]
    · rw [word_putWord_ne _ _ e]⟩

theorem registerWrite_portCounters (n : Fin 16)
    (ho : off.toNat = A.PORT_PAD_HOST_OVF n ∨ off.toNat = A.PORT_LINK_DOWNS n ∨ off.toNat = A.PORT_LINK_STATUS n) (hn : n < s.nPorts)
    (h : s.answers off.toNat) : ∃ t, exec (.registerWrite off 4 val) s = .next t ∧ Kept [] [] s t := by
  rcases ho with ho | ho | ho
  · exact registerWrite_portLocked (at_ := 0x664) (n := n) (fields := counterFields) (by decide)
      (by rw [ho]; unfold A.PORT_PAD_HOST_OVF; omega) hn (by decide)
      (ho ▸ regAt_hostOvf n) (ho ▸ quiet_hostOvf n) h
  · exact registerWrite_portLocked (at_ := 0x40) (n := n) (fields := counterFields) (by decide)
      (by rw [ho]; unfold A.PORT_LINK_DOWNS; omega) hn (by decide)
      (ho ▸ regAt_linkDowns n) (ho ▸ quiet_linkDowns n) h
  · exact registerWrite_portLocked (at_ := 0xC) (n := n) (fields := linkStatusFields) (by decide)
      (by rw [ho]; unfold A.PORT_LINK_STATUS; omega) hn (by decide)
      (ho ▸ regAt_linkStatus n) (ho ▸ quiet_linkStatus n) h

/-! ## The staging buffer -/

/-- An entry in the audit log changes no word below the log. -/
theorem auditAs_word {kind role slot result object a : Nat} (h : a < A.SEC_AUDIT_HEAD) :
    (s.auditAs kind role slot result object).word a = s.word a := by
  have hne : ∀ e k, a ≠ A.SEC_AUDIT e k := fun e k => by unfold A.SEC_AUDIT_HEAD at h; unfold A.SEC_AUDIT; omega
  unfold State.auditAs
  rw [word_put_ne _ _ (Nat.ne_of_lt h)]
  simp only [word_putWord_ne _ _ (hne _ _)]

theorem noteFirst_word {r : RegRow} {w o a : Nat} (h : a < A.SEC_AUDIT_HEAD) : (s.noteFirst r w o).word a = s.word a := by
  have haudit : ∀ (u : State) sec k x y, ((u.withSec sec).audit k x y).word a = u.word a := fun u sec k x y => auditAs_word h
  unfold State.noteFirst
  dsimp only
  split
  · rfl
  · split <;> split <;> simp only [haudit]

theorem get_congr {s t : State} {f : Fld} (h : t.word f.off = s.word f.off) : t.get f = s.get f := by
  unfold State.get
  rw [h]

/-- A write of a word of the staging buffer in an installer's session. -/
def State.stageWrite (s : State) (i : Nat) (v : Word) : State :=
  (s.putWord (A.DEV_FOLD_STAGE i) v).noteFirst stageRow 0 (A.DEV_FOLD_STAGE i)

theorem stageWrite_kept (s : State) (i : Nat) (v : Word) : Kept [.sec] [.stage, .sec] s (s.stageWrite i v) :=
  ((putWord_kept s _ v).mono (by simp) (by simp)).trans ((noteFirst_kept _ _ _ _).mono (by simp) (by simp))

theorem stageWrite_word_self {i : Nat} {v : Word} : (s.stageWrite i v).word (A.DEV_FOLD_STAGE i) = v := by
  unfold State.stageWrite
  rw [noteFirst_word (by unfold A.DEV_FOLD_STAGE A.SEC_AUDIT_HEAD; omega), word_putWord_self]

theorem stageWrite_word_ne {i a : Nat} {v : Word} (hne : a ≠ A.DEV_FOLD_STAGE i) (hsec : regGroup a ≠ .sec) :
    (s.stageWrite i v).word a = s.word a := by
  unfold State.stageWrite
  rw [(noteFirst_kept _ _ _ _).word (by simp [hsec]), word_putWord_ne _ _ hne]

theorem stageWrite_word_low {i a : Nat} {v : Word} (hne : a ≠ A.DEV_FOLD_STAGE i) (h : a < A.SEC_AUDIT_HEAD) :
    (s.stageWrite i v).word a = s.word a := by
  unfold State.stageWrite
  rw [noteFirst_word h, word_putWord_ne _ _ hne]

theorem writeMapped_stage {i : Nat} (hi : i < 65536) (hmay : s.may 2 = true) (v : Word) :
    s.writeMapped stageRow 0 (A.DEV_FOLD_STAGE i) v = s.stageWrite i v := by
  have ho : A.DEV_FOLD_STAGE i = 0x40000 + 4 * i := by unfold A.DEV_FOLD_STAGE; omega
  have hq := quiet_stage hi
  have hden : s.deniedWord stageRow 0 (A.DEV_FOLD_STAGE i) v = false := by
    simp [State.deniedWord, stageRow, State.mayField, hmay]
  have hval : s.writtenWord stageRow 0 (A.DEV_FOLD_STAGE i) v = v :=
    writtenWord_whole (f := ⟨0, 32, .rwi, 0, 0, .core⟩) rfl ⟨rfl, rfl⟩ (.inr ⟨rfl, hmay⟩)
  rw [writeMapped_plain hq.toPlainAt, if_neg (by rw [ho]; simp [A.TST_ROT_CFG]; omega), afterWrite_quiet hq, if_neg (by omega)]
  simp [State.plainWrite, hden, hval, State.stageWrite]

/-- A write to the staging buffer leaves the host's way to the next word as it was. -/
theorem stageWrite_answers {i o : Nat} {v : Word} (h : s.answers o) : (s.stageWrite i v).answers o := by
  obtain ⟨⟨hc, hp, hd⟩, hlc, hh⟩ := h
  have hk := stageWrite_kept s i v
  have hpci : (s.stageWrite i v).pci = s.pci := hk.field (f := .pci) (by decide)
  have hclk : (s.stageWrite i v).word A.CLK_STATUS = s.word A.CLK_STATUS := hk.word (by decide)
  have hst : (s.stageWrite i v).word A.SEC_STATE = s.word A.SEC_STATE :=
    stageWrite_word_low (by unfold A.SEC_STATE A.DEV_FOLD_STAGE; omega) (by decide)
  refine ⟨⟨?_, ?_, ?_⟩, ?_, ?_⟩
  · rw [hk.coreOn (by decide), hc]
  · rw [hpci, hp]
  · rw [hpci, hd]
  · unfold State.lc at hlc ⊢
    rwa [get_congr (f := F.SEC_STATE_LC) hst]
  · unfold State.holdCloses at hh ⊢
    rw [get_congr (f := F.CLK_STATUS_STATE) hclk, hh]

theorem stageWrite_may {i : Nat} {v : Word} : (s.stageWrite i v).may 2 = s.may 2 := by
  have hst : (s.stageWrite i v).word A.SEC_STATE = s.word A.SEC_STATE :=
    stageWrite_word_low (by unfold A.SEC_STATE A.DEV_FOLD_STAGE; omega) (by decide)
  have hse : (s.stageWrite i v).word A.SEC_SESSION = s.word A.SEC_SESSION :=
    stageWrite_word_low (by unfold A.SEC_SESSION A.DEV_FOLD_STAGE; omega) (by decide)
  unfold State.may State.mayAs State.role State.lc
  rw [get_congr (f := F.SEC_STATE_LC) hst, get_congr (f := F.SEC_SESSION_ROLE) hse]

theorem mapped_stage {i : Nat} (hi : i < 65536) : s.mapped (A.DEV_FOLD_STAGE i) stageRow 0 := by
  have ho : A.DEV_FOLD_STAGE i / 0x100000 = 0 := by unfold A.DEV_FOLD_STAGE; omega
  refine ⟨?_, regAt_stage hi, rfl⟩
  unfold State.absentBlock
  rw [ho]
  rfl

theorem barWriteWord_stage {i : Nat} (hi : i < 65536) (h : s.answers (A.DEV_FOLD_STAGE i)) (hmay : s.may 2 = true) (v : Word) :
    s.barWriteWord (A.DEV_FOLD_STAGE i) v = s.stageWrite i v :=
  (barWriteWord_mapped h (mapped_stage hi) v).trans (writeMapped_stage hi hmay v)

/-- An 8-byte write in an installer's session writes two words of the staging buffer. -/
theorem registerWrite_stage {i : Nat} (hi : i + 1 < 65536) (ho : off.toNat = A.DEV_FOLD_STAGE i)
    (h : s.answers off.toNat) (hmay : s.may 2 = true) :
    ∃ t, exec (.registerWrite off 8 val) s = .next t ∧ t.word off.toNat = val.setWidth 32 ∧
      t.word (off.toNat + 4) = (val >>> 32).setWidth 32 ∧
      (∀ a, a ≠ off.toNat → a ≠ off.toNat + 4 → regGroup a ≠ .sec → t.word a = s.word a) ∧ Kept [.sec] [.stage, .sec] s t := by
  have ha : off.toNat % 4 = 0 := by rw [ho]; unfold A.DEV_FOLD_STAGE; omega
  have hnext : A.DEV_FOLD_STAGE i + 4 = A.DEV_FOLD_STAGE (i + 1) := by unfold A.DEV_FOLD_STAGE; omega
  have hne : A.DEV_FOLD_STAGE i ≠ A.DEV_FOLD_STAGE (i + 1) := by omega
  rw [exec_registerWrite off (by decide), bar_open h.1, barWrite_eight ha]
  rw [ho] at h ⊢
  have hh : (s.stageWrite i (val.setWidth 32)).answers (A.DEV_FOLD_STAGE (i + 1)) := by
    obtain ⟨hb, hlc, hh⟩ := stageWrite_answers (i := i) (v := val.setWidth 32) h
    refine ⟨hb, hlc, ?_⟩
    have hblk : ∀ j, holdBlock (A.DEV_FOLD_STAGE j) = true := fun j => by
      have : A.DEV_FOLD_STAGE j / 0x100000 = 0 := by unfold A.DEV_FOLD_STAGE; omega
      simp [holdBlock, this]
    simp [State.holdCloses, hblk]
  rw [barWriteWord_stage (by omega) h hmay, hnext, barWriteWord_stage hi hh (stageWrite_may.trans hmay)]
  refine ⟨_, rfl, ?_, stageWrite_word_self, fun a h1 h2 hsec => ?_, (stageWrite_kept s _ _).trans (stageWrite_kept _ _ _)⟩
  · rw [stageWrite_word_ne hne (by simp), stageWrite_word_self]
  · rw [stageWrite_word_ne h2 hsec, stageWrite_word_ne h1 hsec]

end Sys2Proof.Machine
end

section
/-!
PROOF. O56: a write of the event status clears the sources written as 1 (R411, R412); and the statement put together.
-/
namespace Sys2Proof.Machine

variable {off : BitVec 24} {s : State} {val : BitVec 64} {i j : Nat}

/-- A source's status, or every cause bit of its group, is cleared. -/
def State.clearSource (s : State) (j : Nat) : State :=
  match groupOf j with
  | some g => s.put (F.EVT_CAUSE_CAUSE g) 0
  | none => s.put (srcBit (A.EVT_STATUS 0) j) 0

theorem clearStatus_eq (s : State) (w : Nat) (v : Word) :
    s.clearStatus w v = s.each ((List.range 32).filter fun b => v.getLsbD b) fun t b => t.clearSource (32 * w + b) := rfl

theorem groupOf_some {g : Nat} (h : groupOf j = some g) : g < 6 ∧ j = groupSource g := by
  unfold groupOf at h
  grind [groupSource]

theorem flag_put_zero {f : Fld} (h : f.lo + f.len ≤ 32) : (s.put f 0).get f = 0 := by
  rw [get_put_self s f 0 h, Nat.zero_mod]

/-- Clearing a source leaves every other one. -/
theorem clearSource_pending (hi : i < 320) (hj : j < 320) :
    (s.clearSource j).isPending i = (s.isPending i && decide (i ≠ j)) := by
  have hcause : ∀ g k, (srcBit (A.EVT_STATUS 0) k).off ≠ A.EVT_CAUSE g := fun g k => by
    unfold srcBit A.EVT_STATUS A.EVT_CAUSE
    dsimp only
    omega
  unfold State.clearSource State.isPending
  cases hgj : groupOf j with
  | none =>
    cases hgi : groupOf i with
    | none =>
      dsimp only [State.flag]
      by_cases e : i = j
      · subst e
        rw [flag_put_zero (by show i % 32 + 1 ≤ 32; omega)]
        simp
      · rw [get_put_bits _ _ (srcBit_apart hj hi (Ne.symm e))]
        simp [e]
    | some g =>
      have e : i ≠ j := by rintro rfl; simp [hgi] at hgj
      dsimp only
      rw [get_put_off _ _ (Ne.symm (hcause g j))]
      simp [e]
  | some g =>
    obtain ⟨hg, hjg⟩ := groupOf_some hgj
    cases hgi : groupOf i with
    | none =>
      have e : i ≠ j := by rintro rfl; simp [hgi] at hgj
      dsimp only [State.flag]
      rw [get_put_off _ _ (hcause g i)]
      simp [e]
    | some g' =>
      obtain ⟨hg', hig⟩ := groupOf_some hgi
      dsimp only
      by_cases e : g' = g
      · subst e
        rw [flag_put_zero (by show 0 + 16 ≤ 32; decide), hjg, hig]
        simp
      · have hij : i ≠ j := by rintro rfl; rw [hgi] at hgj; exact e (Option.some.inj hgj)
        rw [get_put_off _ _ (by show A.EVT_CAUSE g' ≠ A.EVT_CAUSE g; unfold A.EVT_CAUSE; omega)]
        simp [hij]

/-- Clearing sources of one word, one after the other. -/
theorem each_clearSource_pending {w : Nat} (hi : i < 320) (hw : w < 10) {l : List Nat} (hl : ∀ b, b ∈ l → b < 32) (t : State) :
    (t.each l fun t b => t.clearSource (32 * w + b)).isPending i = (t.isPending i && !decide (∃ b, b ∈ l ∧ i = 32 * w + b)) := by
  induction l generalizing t with
  | nil => simp [State.each]
  | cons x l ih =>
    have hx := hl x (List.mem_cons_self ..)
    refine (ih (fun b hb => hl b (List.mem_cons_of_mem _ hb)) (t.clearSource (32 * w + x))).trans ?_
    rw [clearSource_pending hi (by omega), Bool.and_assoc]
    congr 1
    by_cases e : i = 32 * w + x <;> simp [e]

theorem clearStatus_pending {u w b : Nat} {v : Word} (hu : u < 10) (hw : w < 10) (hb : b < 32) :
    (s.clearStatus w v).isPending (32 * u + b) = (s.isPending (32 * u + b) && !(decide (u = w) && v.getLsbD b)) := by
  have hmem : (∃ c, c ∈ ((List.range 32).filter fun b => v.getLsbD b) ∧ 32 * u + b = 32 * w + c) ↔ u = w ∧ v.getLsbD b = true := by
    constructor
    · rintro ⟨c, hc, e⟩
      obtain ⟨hc32, hc⟩ := List.mem_filter.mp hc
      have hc32 := List.mem_range.mp hc32
      obtain rfl : b = c := by omega
      exact ⟨by omega, hc⟩
    · rintro ⟨rfl, h⟩
      exact ⟨b, List.mem_filter.mpr ⟨List.mem_range.mpr hb, h⟩, rfl⟩
  rw [clearStatus_eq, each_clearSource_pending (by omega) hw fun b hb => List.mem_range.mp (List.mem_filter.mp hb).1]
  simp only [hmem, Bool.decide_and, Bool.decide_eq_true]

theorem registerWrite_evtStatus (w : Fin 10) (ho : off.toNat = A.EVT_STATUS w) (h : s.answers off.toNat) :
    ∃ t, exec (.registerWrite off 4 val) s = .next t ∧
      (∀ b, b < 32 → t.isPending (32 * w + b) = (s.isPending (32 * w + b) && !(val.setWidth 32).getLsbD b)) ∧
      (∀ v : Fin 10, v ≠ w → ∀ b, b < 32 → groupOf (32 * v + b) = none → t.isPending (32 * v + b) = s.isPending (32 * v + b)) ∧
      Kept [] [.evt] s t := by
  have ha : off.toNat % 4 = 0 := by rw [ho]; unfold A.EVT_STATUS; omega
  have hb : A.EVT_STATUS w / 0x100000 = 1 := by unfold A.EVT_STATUS; omega
  have harr : arrayWord (A.EVT_STATUS 0) 10 (A.EVT_STATUS w) = some w.val := by rw [evtStatus_at]; exact arrayWord_at w.isLt
  rw [registerWrite_four h ha]
  rw [ho] at h ⊢
  rw [barWriteWord_mapped h (mapped_evt (regAt_evtStatus w) rfl hb)]
  have hw : s.writeMapped evtStatusRow 0 (A.EVT_STATUS w) (val.setWidth 32) = s.clearStatus w (val.setWidth 32) := by
    unfold State.writeMapped
    simp only [hb, harr]
  rw [hw]
  refine ⟨_, rfl, fun b hb => ?_, fun v hv b hb _ => ?_, kept_of_keeps (fun _ c h => State.clearStatus_keeps c h) (by decide)⟩
  · rw [clearStatus_pending w.isLt w.isLt hb]
    simp
  · have hne : v.val ≠ w.val := fun e => hv (Fin.ext e)
    rw [clearStatus_pending v.isLt w.isLt hb]
    simp [hne]

/-- Settles O56: one lemma for each kind of access and of word. -/
theorem registerWritesFollowAccessTypes : Obligations.RegisterWritesFollowAccessTypes := by
  unfold Obligations.RegisterWritesFollowAccessTypes
  intro off s
  refine ⟨fun _ _ h => registerWrite_illFormed h, fun _ _ hl h => registerWrite_unreached hl h, ?_, ?_, ?_, ?_, ?_, ?_, ?_, ?_, ?_, ?_⟩
  · exact fun _ _ hl hc hp hd => ⟨_, registerWrite_d3hot hl hc hp hd, rfl, withOut_kept s _⟩
  · exact fun _ hb hlc he ha => registerWrite_inEnd hb hlc he ha
  · exact fun _ _ hl h hp hbad => ⟨_, registerWrite_badAccess hl h hp hbad, devBadAccess_raised h.1.1, raise_kept s _⟩
  · exact fun _ _ hl h hp hn => registerWrite_absent hl h hp hn
  · exact fun r w val h ha hp hm => registerWrite_plain h ha hp hm
  · exact fun w val ho h => registerWrite_evtMask w ho h
  · exact fun n val ho hn h => registerWrite_padCfg n ho hn h
  · exact fun n val ho hn h => registerWrite_portCounters n ho hn h
  · exact fun i val _ ho h hmay => registerWrite_stage (by omega) ho h hmay
  · exact fun w val ho h => registerWrite_evtStatus w ho h

end Sys2Proof.Machine
end

section
/-!
SUPPORT. A host's read of one word (R7, R10, R305): the value it answers, what it latches and what it clears.
-/
namespace Sys2Proof.Machine

variable {s : State} {r : RegRow} {w off : Nat} {added : Word}

/-! ## The way to a word -/

theorem barRead_four (h : off % 4 = 0) : s.barRead off 4 added =
    (s.barReadWord off added).1.emit (.barRead off (s.barReadWord off added).2) := by
  have hw : wordsCovered off 4 = 1 := by unfold wordsCovered; omega
  have ha : off / 4 * 4 = off := by omega
  unfold State.barRead
  dsimp only
  rw [if_pos hw, ha]

theorem readClear_four {off : BitVec 24} (hb : s.barOpen) (ha : off.toNat % 4 = 0) : exec (.readClear off 4 added) s =
    .next ((s.barReadWord off.toNat added).1.emit (.barRead off.toNat (s.barReadWord off.toNat added).2)) := by
  rw [exec_readClear off (by decide), bar_open hb, barRead_four ha]

theorem wideLowWordRead_four {off : BitVec 24} (hb : s.barOpen) (ha : off.toNat % 4 = 0) : exec (.wideLowWordRead off) s =
    .next ((s.barReadWord off.toNat 0).1.emit (.barRead off.toNat (s.barReadWord off.toNat 0).2)) := by
  show Host.Outcome.next (s.bar fun t => t.barRead off.toNat 4 0) = _
  rw [bar_open hb, barRead_four ha]

theorem emit_kept (s : State) (o : Output) : Kept [.out] [] s (s.emit o) := withOut_kept s _

/-! ## Plain reads -/

/-- What makes an offset's read plain, by name. -/
structure PlainReadAt (off : Nat) : Prop where
  entry : strideIdx (A.PISTE_ENTRY 0 0) 4 131072 off = none
  measured : measuredReg off = false
  lane : strideIdx (A.HL_STATUS 0) 0x1000 16 off = none
  hold : off ≠ A.CLK_HOLD_TIME

theorem plainReadAt_of_plainRead (h : plainRead off = true) : PlainReadAt off := by
  simp only [plainRead, Bool.not_eq_true', Bool.or_eq_false_iff, decide_eq_false_iff_not, Option.isSome_eq_false_iff,
    Option.isNone_iff_eq_none] at h
  obtain ⟨⟨⟨h1, h2⟩, h3⟩, h4⟩ := h
  exact ⟨h1, h2, h3, h4⟩

/-- A read of the low word of a 64-bit register latches the high word (R7). -/
def State.latchHigh (s : State) (r : RegRow) (w off : Nat) : State :=
  if r.wide && w = 0 then s.withLatch (Tbl.set s.latch none (off + 4) (some (s.shown (off + 4)))) else s

theorem latchHigh_kept (s : State) (r : RegRow) (w off : Nat) : Kept [.latch] [] s (s.latchHigh r w off) := by
  unfold State.latchHigh
  split
  · exact withLatch_kept s _
  · exact Kept.refl _ _ s

theorem latchHigh_wide (hw : r.wide = true) :
    s.latchHigh r 0 off = s.withLatch (Tbl.set s.latch none (off + 4) (some (s.shown (off + 4)))) := by
  simp [State.latchHigh, hw]

theorem latchHigh_narrow (hw : r.wide = false) : s.latchHigh r w off = s := by simp [State.latchHigh, hw]

theorem barReadWord_mapped (h : s.answers off) (hm : s.mapped off r w) (hc : off ≠ A.CLK_HOLD_TIME) :
    s.barReadWord off added = s.readMapped r w off added := by
  obtain ⟨_, hlc, hh⟩ := h
  obtain ⟨habs, hr, hp⟩ := hm
  simp [State.barReadWord, hlc, hh, habs, hr, hp, hc]

theorem readMapped_plain (hp : PlainReadAt off) (hl : Tbl.get s.latch none off = none) :
    s.readMapped r w off added = (((s.latchHigh r w off).clearRc r w off added).recordRead off, s.shown off) := by
  unfold State.readMapped
  simp only [hp.entry, hp.measured, hp.lane, hl]
  rfl

/-- The read of a word whose high half is latched answers the latched value, once. -/
theorem readMapped_latched (hp : PlainReadAt off) {v : Word} (hl : Tbl.get s.latch none off = some v) :
    s.readMapped r w off added = (s.withLatch (Tbl.set s.latch none off none), v) := by
  unfold State.readMapped
  simp only [hp.entry, hl]

/-! ## Counters that a read clears (R10) -/

/-- The bits of a word that belong to its counters. -/
def RegRow.rcMask (r : RegRow) (w : Nat) : Word := r.fields.foldl (fun a f => if f.acc = .rc then a ||| f.mask w else a) 0

theorem clearRc_eq (s : State) (r : RegRow) (w off : Nat) (added : Word) : s.clearRc r w off added =
    if r.rcMask w = 0 then s else s.putWord off ((s.word off &&& ~~~r.rcMask w) ||| (added &&& r.rcMask w)) := rfl

theorem rcField_bit {b : Nat} (a : Word) (f : FieldRow) : (if f.acc = .rc then a ||| f.mask w else a).getLsbD b =
    if (f.mask w).getLsbD b then a.getLsbD b || decide (f.acc = .rc) else a.getLsbD b := by
  cases hm : (f.mask w).getLsbD b <;> by_cases hacc : f.acc = .rc <;> simp [hacc, hm]

theorem rcMask_field (hr : r.fields.Pairwise FieldRow.apart) {f : FieldRow} (hf : f ∈ r.fields) {b : Nat} (hb : b < 32)
    (hm : (f.mask w).getLsbD b = true) : (r.rcMask w).getLsbD b = decide (f.acc = .rc) := by
  refine (foldl_fields_own (g := fun f old => old || decide (f.acc = .rc)) rcField_bit hb hr hf hm 0).trans ?_
  simp

theorem rcMask_other {b : Nat} (hm : ∀ f, f ∈ r.fields → (f.mask w).getLsbD b = false) : (r.rcMask w).getLsbD b = false := by
  refine (foldl_fields_other (g := fun f old => old || decide (f.acc = .rc)) rcField_bit hm 0).trans ?_
  simp

theorem rcMask_none (h : ∀ f, f ∈ r.fields → f.acc ≠ .rc) : r.rcMask w = 0 := by
  refine List.foldlRecOn (motive := fun a => a = 0) r.fields _ rfl fun a ha f hf => ?_
  rw [if_neg (h f hf), ha]

theorem clearRc_none (h : ∀ f, f ∈ r.fields → f.acc ≠ .rc) : s.clearRc r w off added = s := by
  rw [clearRc_eq, if_pos (rcMask_none h)]

theorem clearRc_kept (s : State) (r : RegRow) (w off : Nat) (added : Word) : Kept [] [regGroup off] s (s.clearRc r w off added) := by
  rw [clearRc_eq]
  split
  · exact Kept.refl _ _ s
  · exact putWord_kept s off _

theorem clearRc_word_ne {a : Nat} (h : a ≠ off) : (s.clearRc r w off added).word a = s.word a := by
  rw [clearRc_eq]
  split
  · rfl
  · exact word_putWord_ne s _ h

theorem clearRc_bit {b : Nat} (hb : b < 32) : ((s.clearRc r w off added).word off).getLsbD b =
    if (r.rcMask w).getLsbD b then added.getLsbD b else (s.word off).getLsbD b := by
  rw [clearRc_eq]
  split
  · next h => simp [h]
  · rw [word_putWord_self]
    cases hm : (r.rcMask w).getLsbD b <;> simp [hm, hb, -BitVec.getLsbD_eq_getElem]

/-! ## The last word of a freeze record (R275) -/

theorem recordRead_kept (s : State) (off : Nat) : Kept [] [.memInteg] s (s.recordRead off) :=
  kept_of_keeps (fun _ c h => State.recordRead_keeps c h) (by decide)

theorem recordRead_block (h : off / 0x100000 ≠ 8) : s.recordRead off = s := by simp [State.recordRead, h]

theorem recordRead_word_self : (s.recordRead off).word off = s.word off := by
  unfold State.recordRead
  split
  · rfl
  · next h =>
    refine word_put_ne s _ ?_
    show off ≠ A.MEM_INTEG_STATE _ _
    unfold A.MEM_INTEG_STATE
    simp only [Bool.or_eq_true, decide_eq_true_eq, not_or] at h
    omega

/-- No 64-bit register lies among the stack's. -/
theorem wide_block (hr : regAt off = some (r, w)) (hw : r.wide = true) : off / 0x100000 ≠ 8 := by
  have hall : ∀ r, r ∈ rowsMem → r.wide = false := by decide
  intro h8
  have hm := regAt_mem hr
  simp only [blockRows, h8] at hm
  rw [hall r hm] at hw
  exact Bool.noConfusion hw

/-! ## What a plain read leaves -/

/-- The state after the read of a plain word, but for the answer. -/
def State.afterRead (s : State) (r : RegRow) (w off : Nat) (added : Word) : State :=
  ((s.latchHigh r w off).clearRc r w off added).recordRead off

theorem afterRead_kept_latch (s : State) (r : RegRow) (w off : Nat) (added : Word) :
    Kept [] [regGroup off, .memInteg] (s.latchHigh r w off) (s.afterRead r w off added) :=
  ((clearRc_kept _ r w off added).mono (by simp) (by simp)).trans ((recordRead_kept _ off).mono (by simp) (by simp))

theorem afterRead_kept (s : State) (r : RegRow) (w off : Nat) (added : Word) :
    Kept [.latch] [regGroup off, .memInteg] s (s.afterRead r w off added) :=
  ((latchHigh_kept s r w off).mono (by simp) (by simp)).trans ((afterRead_kept_latch s r w off added).mono (by simp) (by simp))

theorem afterRead_word_ne {a : Nat} (hne : a ≠ off) (hg : regGroup a ≠ .memInteg) : (s.afterRead r w off added).word a = s.word a := by
  unfold State.afterRead
  rw [(recordRead_kept _ off).word (by simpa using hg), clearRc_word_ne hne, (latchHigh_kept s r w off).word (by simp)]

theorem afterRead_bit {b : Nat} (hb : b < 32) : ((s.afterRead r w off added).word off).getLsbD b =
    if (r.rcMask w).getLsbD b then added.getLsbD b else (s.word off).getLsbD b := by
  unfold State.afterRead
  rw [recordRead_word_self, clearRc_bit hb, (latchHigh_kept s r w off).word (by simp)]

/-- A field after a read: a counter keeps what the device added in the cycle, every other field its value. -/
theorem afterRead_field (hr : r.fields.Pairwise FieldRow.apart) {f : FieldRow} (hf : f ∈ r.fields) :
    (s.afterRead r w off added).word off &&& f.mask w = (if f.acc = .rc then added else s.word off) &&& f.mask w := by
  refine and_mask_eq fun b hb hm => ?_
  rw [afterRead_bit hb, rcMask_field hr hf hb hm]
  by_cases hacc : f.acc = .rc <;> simp [hacc]

theorem barReadWord_plain (h : s.answers off) (hm : s.mapped off r w) (hp : PlainReadAt off) (hl : Tbl.get s.latch none off = none) :
    s.barReadWord off added = (s.afterRead r w off added, s.shown off) :=
  (barReadWord_mapped h hm hp.hold).trans (readMapped_plain hp hl)

theorem barReadWord_latched (h : s.answers off) (hm : s.mapped off r w) (hp : PlainReadAt off) {v : Word}
    (hl : Tbl.get s.latch none off = some v) : s.barReadWord off added = (s.withLatch (Tbl.set s.latch none off none), v) :=
  (barReadWord_mapped h hm hp.hold).trans (readMapped_latched hp hl)

end Sys2Proof.Machine
end

section
/-!
PROOF. O57: a register read, clause by clause.
-/
namespace Sys2Proof.Machine

variable {off : BitVec 24} {s : State} {added : Word}

/-! ## Reads that answer no register -/

/-- No request asks for more than 4,096 bytes (log entry 10). -/
theorem readClear_illFormed {len : Nat} (h : 4096 < len) : exec (.readClear off len added) s = .fault .illFormed := if_pos h

/-- In END a word that does not answer reads 0 (R395). -/
theorem readClear_inEnd (hb : s.barOpen) (hlc : s.lc = 4) (ha : off.toNat % 4 = 0) (he : endAnswers off.toNat = false) :
    exec (.readClear off 4 added) s = .next (s.emit (.barRead off.toNat 0)) := by
  rw [readClear_four hb ha]
  simp [State.barReadWord, hlc, he]

/-- During clock hold a closed block answers all ones (R305). -/
theorem readClear_inHold (hb : s.barOpen) (hlc : s.lc ≠ 4) (ha : off.toNat % 4 = 0) (hh : s.holdCloses off.toNat = true) :
    exec (.readClear off 4 added) s = .next (s.emit (.barRead off.toNat 0xFFFFFFFF)) := by
  rw [readClear_four hb ha]
  simp [State.barReadWord, hlc, hh]

theorem readClear_absent (h : s.answers off.toNat) (hp : s.absentBlock off.toNat = true) (ha : off.toNat % 4 = 0) :
    exec (.readClear off 4 added) s = .next (s.emit (.barRead off.toNat 0)) := by
  obtain ⟨hb, hlc, hh⟩ := h
  rw [readClear_four hb ha]
  simp [State.barReadWord, hlc, hh, hp]

theorem readClear_unmapped (h : s.answers off.toNat) (hp : s.absentBlock off.toNat = false) (ha : off.toNat % 4 = 0)
    (hr : regAt off.toNat = none) : ∃ t, exec (.readClear off 4 added) s = .next t ∧
      t.out.head? = some (.barRead off.toNat 0) ∧ t.isPending Ev.devBadAccess = true ∧ Kept [.evt, .cen, .out] [.evt] s t := by
  obtain ⟨hb, hlc, hh⟩ := h
  have hword : s.barReadWord off.toNat added = (s.raise Ev.devBadAccess, 0) := by simp [State.barReadWord, hlc, hh, hp, hr]
  rw [readClear_four hb ha, hword]
  refine ⟨_, rfl, rfl, ?_, (raise_kept s _).trans ((emit_kept _ _).mono (by simp) (by simp))⟩
  exact (isPending_congr (s := s.raise Ev.devBadAccess) (by decide) rfl).trans (devBadAccess_raised hb.1)

/-! ## Plain words -/

theorem emit_out_of_kept {u : State} {gs : List RegGroup} (h : Kept [.latch] gs s u) (o : Output) : (u.emit o).out = o :: s.out := by
  have hout : u.out = s.out := h.field (f := .out) (by decide)
  rw [← hout]
  rfl

theorem readClear_plain {r : RegRow} {w : Nat} (h : s.answers off.toNat) (ha : off.toNat % 4 = 0) (hp : plainRead off.toNat = true)
    (hm : s.mapped off.toNat r w) (hl : Tbl.get s.latch none off.toNat = none) :
    ∃ t, exec (.readClear off 4 added) s = .next t ∧ t.out = .barRead off.toNat (s.shown off.toNat) :: s.out ∧
      (∀ f, f ∈ r.fields → t.word off.toNat &&& f.mask w = (if f.acc = .rc then added else s.word off.toNat) &&& f.mask w) ∧
      (∀ b, b < 32 → (∀ f, f ∈ r.fields → (f.mask w).getLsbD b = false) →
        (t.word off.toNat).getLsbD b = (s.word off.toNat).getLsbD b) ∧
      (r.wide = true → w = 0 → Tbl.get t.latch none (off.toNat + 4) = some (s.shown (off.toNat + 4))) ∧
      (∀ a, a ≠ off.toNat → regGroup a ≠ .memInteg → t.word a = s.word a) ∧
      Kept [.out, .latch] [regGroup off.toNat, .memInteg] s t := by
  have hk := afterRead_kept s r w off.toNat added
  rw [readClear_four h.1 ha, barReadWord_plain h hm (plainReadAt_of_plainRead hp) hl]
  refine ⟨_, rfl, emit_out_of_kept hk _, fun f hf => afterRead_field (regAt_apart hm.2.1) hf, fun b hb hb' => ?_, fun hw h0 => ?_,
    fun a hne hg => afterRead_word_ne hne hg, (hk.mono (by simp) (by simp)).trans ((emit_kept _ _).mono (by simp) (by simp))⟩
  · refine (afterRead_bit hb).trans ?_
    rw [rcMask_other hb']
    rfl
  · subst h0
    have hlatch : (s.afterRead r 0 off.toNat added).latch = (s.latchHigh r 0 off.toNat).latch :=
      (afterRead_kept_latch s r 0 off.toNat added).field (f := .latch) (by decide)
    show Tbl.get (s.afterRead r 0 off.toNat added).latch none (off.toNat + 4) = _
    rw [hlatch, latchHigh_wide hw, State.withLatch_latch, Tbl.get_set_self]

/-! ## 64-bit registers (R7) -/

theorem wideLowWordRead_low {r : RegRow} (h : s.answers off.toNat) (ha : off.toNat % 4 = 0) (hp : PlainReadAt off.toNat)
    (hw : r.wide = true) (hm : s.mapped off.toNat r 0) (hl : Tbl.get s.latch none off.toNat = none)
    (hrc : ∀ f, f ∈ r.fields → f.acc ≠ .rc) :
    ∃ t, exec (.wideLowWordRead off) s = .next t ∧ t.out = .barRead off.toNat (s.shown off.toNat) :: s.out ∧
      t.latch = Tbl.set s.latch none (off.toNat + 4) (some (s.shown (off.toNat + 4))) ∧ Kept [.out, .latch] [] s t := by
  have hread : s.afterRead r 0 off.toNat 0 = s.withLatch (Tbl.set s.latch none (off.toNat + 4) (some (s.shown (off.toNat + 4)))) := by
    unfold State.afterRead
    rw [clearRc_none hrc, recordRead_block (wide_block hm.2.1 hw), latchHigh_wide hw]
  rw [wideLowWordRead_four h.1 ha, barReadWord_plain h hm hp hl, hread]
  exact ⟨_, rfl, rfl, rfl, ((withLatch_kept s _).mono (by simp) (by simp)).trans ((emit_kept _ _).mono (by simp) (by simp))⟩

theorem wideLowWordRead_latched {r : RegRow} {w : Nat} {v : Word} (h : s.answers off.toNat) (ha : off.toNat % 4 = 0)
    (hp : PlainReadAt off.toNat) (hm : s.mapped off.toNat r w) (hl : Tbl.get s.latch none off.toNat = some v) :
    ∃ t, exec (.wideLowWordRead off) s = .next t ∧ t.out = .barRead off.toNat v :: s.out ∧
      t.latch = Tbl.set s.latch none off.toNat none ∧ Kept [.out, .latch] [] s t := by
  rw [wideLowWordRead_four h.1 ha, barReadWord_latched h hm hp hl]
  exact ⟨_, rfl, rfl, rfl, ((withLatch_kept s _).mono (by simp) (by simp)).trans ((emit_kept _ _).mono (by simp) (by simp))⟩

/-- DEV_TIME. -/
def timeRow : RegRow := ⟨0x000078, [], .none, true, [⟨0, 64, .ro, 0, 0, .ao⟩]⟩

theorem mapped_time {o w : Nat} (hr : regAt o = some (timeRow, w)) (ho : o / 0x100000 = 0) : s.mapped o timeRow w := by
  refine ⟨?_, hr, rfl⟩
  unfold State.absentBlock
  rw [ho]
  rfl

theorem answers_time_high (h : s.answers A.DEV_TIME) : s.answers (A.DEV_TIME + 4) := h

theorem deviceTime_read (h : s.answers A.DEV_TIME) :
    (Tbl.get s.latch none A.DEV_TIME = none → ∃ t, exec (.wideLowWordRead (BitVec.ofNat 24 A.DEV_TIME)) s = .next t ∧
      t.out = .barRead A.DEV_TIME (BitVec.ofNat 32 s.time) :: s.out ∧
      Tbl.get t.latch none (A.DEV_TIME + 4) = some (BitVec.ofNat 32 (s.time / 2 ^ 32)) ∧ Kept [.out, .latch] [] s t) ∧
    (∀ v, Tbl.get s.latch none (A.DEV_TIME + 4) = some v → ∃ t, exec (.wideLowWordRead (BitVec.ofNat 24 (A.DEV_TIME + 4))) s = .next t ∧
      t.out = .barRead (A.DEV_TIME + 4) v :: s.out ∧ Tbl.get t.latch none (A.DEV_TIME + 4) = none ∧ Kept [.out, .latch] [] s t) := by
  have hlow : (BitVec.ofNat 24 A.DEV_TIME).toNat = A.DEV_TIME := by decide
  have hhigh : (BitVec.ofNat 24 (A.DEV_TIME + 4)).toNat = A.DEV_TIME + 4 := by decide
  refine ⟨fun hl => ?_, fun v hl => ?_⟩
  · obtain ⟨t, ht, hout, hlatch, hk⟩ := wideLowWordRead_low (off := BitVec.ofNat 24 A.DEV_TIME) (r := timeRow) (hlow ▸ h) (by decide)
      (plainReadAt_of_plainRead (by decide)) rfl (mapped_time (by decide) (by decide)) (hlow ▸ hl) (by decide)
    rw [hlow] at hout hlatch
    refine ⟨t, ht, hout, ?_, hk⟩
    rw [hlatch, Tbl.get_set_self]
    rfl
  · obtain ⟨t, ht, hout, hlatch, hk⟩ := wideLowWordRead_latched (off := BitVec.ofNat 24 (A.DEV_TIME + 4)) (r := timeRow) (w := 1)
      (hhigh ▸ answers_time_high h) (by decide) (plainReadAt_of_plainRead (by decide)) (mapped_time (by decide) (by decide)) (hhigh ▸ hl)
    rw [hhigh] at hout hlatch
    refine ⟨t, ht, hout, ?_, hk⟩
    rw [hlatch, Tbl.get_set_self]

/-! ## Registers of a port -/

/-- A register of a port that is not PORT_CAL_STATE is shown as it is stored. -/
theorem shown_port {at_ n : Nat} (hn : n < 16) (ha : at_ < 0xA00) : s.shown (0x400000 + at_ + 0x20000 * n) =
    s.word (0x400000 + at_ + 0x20000 * n) := by
  have hd : (0x400000 + at_ + 0x20000 * n) / 0x100000 = 4 ∨ (0x400000 + at_ + 0x20000 * n) / 0x100000 = 5 := by omega
  have hs : strideIdx (A.PORT_CAL_STATE 0) 0x20000 16 (0x400000 + at_ + 0x20000 * n) = none := by
    refine if_neg ?_
    unfold A.PORT_CAL_STATE
    simp only [Bool.and_eq_true, decide_eq_true_eq]
    omega
  unfold State.shown
  rcases hd with h | h <;> simp only [h, hs]

/-- The read of a port's register: nothing but its own counters changes. -/
theorem readClear_port {at_ n : Nat} {fields : List FieldRow} (ho : off.toNat = 0x400000 + at_ + 0x20000 * n) (hn : n < s.nPorts)
    (hat : at_ < 0xA00 ∧ at_ % 4 = 0) (hr : regAt off.toNat = some (portRow at_ fields, 0)) (hp : plainRead off.toNat = true)
    (h : s.answers off.toNat) (hl : Tbl.get s.latch none off.toNat = none) :
    exec (.readClear off 4 added) s =
      .next ((s.clearRc (portRow at_ fields) 0 off.toNat added).emit (.barRead off.toNat (s.word off.toNat))) := by
  have h16 := nPorts_le s
  have hm : s.mapped off.toNat (portRow at_ fields) 0 := by
    rw [ho] at hr ⊢
    exact mapped_port hn (by omega) hr
  have hsh : s.shown off.toNat = s.word off.toNat := by
    rw [ho]
    exact shown_port (by omega) hat.1
  rw [readClear_four h.1 (by omega), barReadWord_plain h hm (plainReadAt_of_plainRead hp) hl, hsh]
  unfold State.afterRead
  rw [recordRead_block (by omega), latchHigh_narrow rfl]

theorem plainRead_hostOvf : ∀ n : Fin 16, plainRead (A.PORT_PAD_HOST_OVF n) = true := by decide
theorem plainRead_linkStatus : ∀ n : Fin 16, plainRead (A.PORT_LINK_STATUS n) = true := by decide

theorem readClear_hostOvf (n : Fin 16) (ho : off.toNat = A.PORT_PAD_HOST_OVF n) (hn : n < s.nPorts) (h : s.answers off.toNat)
    (hl : Tbl.get s.latch none off.toNat = none) :
    ∃ t, exec (.readClear off 4 added) s = .next t ∧ t.out = .barRead off.toNat (s.word off.toNat) :: s.out ∧ t.word off.toNat = added ∧
      (∀ a, a ≠ off.toNat → t.word a = s.word a) ∧ Kept [.out] [.portPad] s t := by
  have hg : regGroup off.toNat = .portPad := by rw [ho, A.PORT_PAD_HOST_OVF_group]
  have hk := clearRc_kept s (portRow 0x664 counterFields) 0 off.toNat added
  rw [hg] at hk
  rw [readClear_port (at_ := 0x664) (n := n) (by rw [ho]; unfold A.PORT_PAD_HOST_OVF; omega) hn (by decide) (ho ▸ regAt_hostOvf n)
    (ho ▸ plainRead_hostOvf n) h hl]
  refine ⟨_, rfl, emit_out_of_kept (hk.mono (fs' := [.latch]) (gs' := [.portPad]) (by simp) (by simp)) _, ?_, fun a hne => clearRc_word_ne hne,
    (hk.mono (by simp) (by simp)).trans ((emit_kept _ _).mono (by simp) (by simp))⟩
  refine BitVec.eq_of_getLsbD_eq fun b hb => ?_
  refine (clearRc_bit hb).trans ?_
  have hm : (FieldRow.mask ⟨0, 32, .rc, 0, 0, .core⟩ 0).getLsbD b = true := by
    rw [mask_bit _ _ hb]
    exact decide_eq_true (by dsimp only; omega)
  rw [rcMask_field (f := ⟨0, 32, .rc, 0, 0, .core⟩) (by decide) (by decide) hb hm]
  simp

theorem readClear_linkStatus (n : Fin 16) (ho : off.toNat = A.PORT_LINK_STATUS n) (hn : n < s.nPorts) (h : s.answers off.toNat)
    (hl : Tbl.get s.latch none off.toNat = none) :
    ∃ t, exec (.readClear off 4 added) s = .next t ∧ t.out = .barRead off.toNat (s.word off.toNat) :: s.out ∧ Kept [.out] [] s t := by
  rw [readClear_port (at_ := 0xC) (n := n) (by rw [ho]; unfold A.PORT_LINK_STATUS; omega) hn (by decide) (ho ▸ regAt_linkStatus n)
    (ho ▸ plainRead_linkStatus n) h hl, clearRc_none (by decide)]
  exact ⟨_, rfl, rfl, emit_kept _ _⟩

/-! ## The last word of a freeze record -/

/-- MEM_FREEZE_REC (Table 10-6). -/
def freezeRow : RegRow := ⟨0x801000, [(16, 0x10000), (2, 0x400), (160, 0x4)], .channel, false, [⟨0, 32, .ro, 0, 0, .nv⟩]⟩

theorem regAt_freezeLast : ∀ (c : Fin 16) (p : Fin 2), regAt (A.MEM_FREEZE_REC c p 159) = some (freezeRow, 0) := by decide

theorem plainRead_freezeLast : ∀ (c : Fin 16) (p : Fin 2), plainRead (A.MEM_FREEZE_REC c p 159) = true := by decide

theorem freezeLast_at {c p : Nat} (hc : c < 16) (hp : p < 2) : A.MEM_FREEZE_REC c p 159 = 0x80127C + 0x10000 * c + 0x400 * p := by
  unfold A.MEM_FREEZE_REC
  omega

theorem freezeRecordRead_sets {pc : BitVec 5} (hc : pc.toNat / 2 < s.nChans) (h : s.answers (A.MEM_FREEZE_REC (pc.toNat / 2) (pc.toNat % 2) 159))
    (hl : Tbl.get s.latch none (A.MEM_FREEZE_REC (pc.toNat / 2) (pc.toNat % 2) 159) = none) :
    exec (.freezeRecordRead pc) s = .next ((s.put (F.MEM_INTEG_STATE_REC_READ (pc.toNat / 2) (pc.toNat % 2)) 1).emit
      (.barRead (A.MEM_FREEZE_REC (pc.toNat / 2) (pc.toNat % 2) 159) (s.word (A.MEM_FREEZE_REC (pc.toNat / 2) (pc.toNat % 2) 159)))) := by
  have hlt : pc.toNat < 32 := pc.isLt
  show Host.Outcome.next (s.bar fun t => t.barRead (A.MEM_FREEZE_REC (pc.toNat / 2) (pc.toNat % 2) 159) 4 0) = _
  generalize hce : pc.toNat / 2 = c at *
  generalize hpe : pc.toNat % 2 = p at *
  have hc16 : c < 16 := by omega
  have hp2 : p < 2 := by omega
  have ho := freezeLast_at hc16 hp2
  have hr := regAt_freezeLast ⟨c, hc16⟩ ⟨p, hp2⟩
  have hpl := plainRead_freezeLast ⟨c, hc16⟩ ⟨p, hp2⟩
  dsimp only at hr hpl
  generalize A.MEM_FREEZE_REC c p 159 = o at *
  have h8 : o / 0x100000 = 8 := by omega
  have hm : s.mapped o freezeRow 0 := by
    refine ⟨?_, hr, decide_eq_true ?_⟩
    · unfold State.absentBlock
      rw [h8]
      exact decide_eq_false (by omega)
    · show (o - 0x801000) / 0x10000 < s.nChans
      omega
  have hsh : s.shown o = s.word o := by
    unfold State.shown
    simp only [h8]
  have hread : s.afterRead freezeRow 0 o 0 = s.put (F.MEM_INTEG_STATE_REC_READ c p) 1 := by
    unfold State.afterRead
    rw [latchHigh_narrow rfl, clearRc_none (by decide)]
    unfold State.recordRead
    rw [if_neg (by simp; omega), show o / 0x10000 % 16 = c by omega, show o / 0x400 % 4 = p by omega]
  rw [bar_open h.1, barRead_four (by omega), barReadWord_plain h hm (plainReadAt_of_plainRead hpl) hl, hread, hsh]

theorem freezeRecordRead_answers (pc : BitVec 5) (hc : pc.toNat / 2 < s.nChans)
    (h : s.answers (A.MEM_FREEZE_REC (pc.toNat / 2) (pc.toNat % 2) 159))
    (hl : Tbl.get s.latch none (A.MEM_FREEZE_REC (pc.toNat / 2) (pc.toNat % 2) 159) = none) :
    ∃ t, exec (.freezeRecordRead pc) s = .next t ∧
      t.out = .barRead (A.MEM_FREEZE_REC (pc.toNat / 2) (pc.toNat % 2) 159) (s.word (A.MEM_FREEZE_REC (pc.toNat / 2) (pc.toNat % 2) 159)) :: s.out ∧
      t.flag (F.MEM_INTEG_STATE_REC_READ (pc.toNat / 2) (pc.toNat % 2)) = true ∧
      (∀ a, a ≠ A.MEM_INTEG_STATE (pc.toNat / 2) (pc.toNat % 2) → t.word a = s.word a) ∧ Kept [.out, .latch] [.memInteg] s t := by
  refine ⟨_, freezeRecordRead_sets hc h hl, rfl, ?_, fun a hne => word_put_ne s (f := F.MEM_INTEG_STATE_REC_READ _ _) 1 hne, ?_⟩
  · refine (show State.flag (s.put (F.MEM_INTEG_STATE_REC_READ (pc.toNat / 2) (pc.toNat % 2)) 1) _ = true from ?_)
    unfold State.flag
    rw [get_put_self s _ 1 (by show 28 + 1 ≤ 32; decide)]
    rfl
  · have hput : Kept [] [.memInteg] s (s.put (F.MEM_INTEG_STATE_REC_READ (pc.toNat / 2) (pc.toNat % 2)) 1) := by
      have := putWord_kept s (A.MEM_INTEG_STATE (pc.toNat / 2) (pc.toNat % 2))
        (setBits (s.word (A.MEM_INTEG_STATE (pc.toNat / 2) (pc.toNat % 2))) 28 1 1)
      rw [A.MEM_INTEG_STATE_group] at this
      exact this
    exact (hput.mono (by simp) (by simp)).trans ((emit_kept _ _).mono (by simp) (by simp))

/-! ## A piste entry (R183) -/

/-- PISTE_ENTRY (Table 6-4). -/
def entryRow : RegRow := ⟨0xc80000, [(32768, 0x10), (4, 0x4)], .none, false, [⟨0, 32, .rwi, 0, 0, .core⟩]⟩

theorem rowsPos_entry : rowsPos = rowsPos.take 20 ++ [entryRow] := by decide

theorem rowsPos_below_entry : ∀ r, r ∈ rowsPos.take 20 → r.below 0xc80000 = true := by decide

theorem covers_entry {o : Nat} (h : 0xc80000 ≤ o ∧ o < 0xd00000) (ha : o % 4 = 0) : entryRow.covers o = some 0 := by
  refine covers_of_rest h.1 ?_
  show (if (o - 0xc80000) / 0x10 < 32768 then (if (o - 0xc80000) % 0x10 / 4 < 4 then some ((o - 0xc80000) % 0x10 % 4) else none) else none) =
    some 0
  rw [if_pos (by omega), if_pos (by omega), show (o - 0xc80000) % 0x10 % 4 = 0 by omega]

theorem regAt_entry {o : Nat} (h : 0xc80000 ≤ o ∧ o < 0xd00000) (ha : o % 4 = 0) : regAt o = some (entryRow, 0) := by
  have hb : o / 0x100000 = 12 := by omega
  unfold regAt blockRows
  simp only [hb]
  rw [rowsPos_entry, findRow_skip fun r hr => RegRow.below_mono (rowsPos_below_entry r hr) h.1, findRow, covers_entry h ha]

theorem pisteEntryRead_latches (idx : BitVec 15) (h : s.answers (A.PISTE_ENTRY idx.toNat 0)) :
    ∃ t, exec (.pisteEntryRead idx) s = .next t ∧
      t.out = .barRead (A.PISTE_ENTRY idx.toNat 0) (s.word (A.PISTE_ENTRY idx.toNat 0)) :: s.out ∧
      t.piste.latch = some (idx.toNat, [s.word (A.PISTE_ENTRY idx.toNat 0), s.word (A.PISTE_ENTRY idx.toNat 1),
        s.word (A.PISTE_ENTRY idx.toNat 2), s.word (A.PISTE_ENTRY idx.toNat 3)]) ∧ Kept [.out, .piste] [] s t := by
  have hi : idx.toNat < 32768 := idx.isLt
  have ho : A.PISTE_ENTRY idx.toNat 0 = 0xc80000 + 4 * (4 * idx.toNat) := by unfold A.PISTE_ENTRY; omega
  have hb : A.PISTE_ENTRY idx.toNat 0 / 0x100000 = 12 := by omega
  have hm : s.mapped (A.PISTE_ENTRY idx.toNat 0) entryRow 0 := by
    refine ⟨?_, regAt_entry (by omega) (by omega), rfl⟩
    unfold State.absentBlock
    rw [hb]
    rfl
  have hidx : strideIdx (A.PISTE_ENTRY 0 0) 4 131072 (A.PISTE_ENTRY idx.toNat 0) = some (4 * idx.toNat) := by
    rw [ho]
    exact strideIdx_at (by decide) (by omega)
  have hread : s.barReadWord (A.PISTE_ENTRY idx.toNat 0) 0 = s.readEntry idx.toNat 0 := by
    rw [barReadWord_mapped h hm (by unfold A.CLK_HOLD_TIME; omega)]
    unfold State.readMapped
    simp only [hidx]
    rw [show 4 * idx.toNat / 4 = idx.toNat by omega, show 4 * idx.toNat % 4 = 0 by omega]
  have hkeep : ∀ v, Kept [.piste] [] s (s.withPiste v) := fun v => kept_of_keeps (fun _ c h => withPiste_keeps c h) (by decide)
  have hexec : exec (.pisteEntryRead idx) s = .next ((s.readEntry idx.toNat 0).1.emit
      (.barRead (A.PISTE_ENTRY idx.toNat 0) (s.readEntry idx.toNat 0).2)) := by
    show Host.Outcome.next (s.bar fun t => t.barRead (A.PISTE_ENTRY idx.toNat 0) 4 0) = _
    rw [bar_open h.1, barRead_four (by omega), hread]
  exact ⟨_, hexec, rfl, rfl, ((hkeep _).mono (by simp) (by simp)).trans ((emit_kept _ _).mono (by simp) (by simp))⟩

/-- Settles O57: one lemma for each kind of read. -/
theorem registerReadsAnswerAndClear : Obligations.RegisterReadsAnswerAndClear := by
  unfold Obligations.RegisterReadsAnswerAndClear
  refine ⟨fun off added s => ⟨?_, ?_, ?_, ?_, ?_, ?_, ?_, ?_⟩, fun off s h ha hp => ?_, fun s h => deviceTime_read h, ?_, ?_⟩
  · exact fun _ h => readClear_illFormed h
  · exact fun hb hlc ha he => ⟨_, readClear_inEnd hb hlc ha he, rfl, emit_kept s _⟩
  · exact fun hb hlc ha hh => ⟨_, readClear_inHold hb hlc ha hh, rfl, emit_kept s _⟩
  · exact fun h hp ha => ⟨_, readClear_absent h hp ha, rfl, emit_kept s _⟩
  · exact fun r w h ha hp hm hl => readClear_plain h ha hp hm hl
  · exact fun h hp ha hr => readClear_unmapped h hp ha hr
  · exact fun n ho hn h hl => readClear_hostOvf n ho hn h hl
  · exact fun n ho hn h hl => readClear_linkStatus n ho hn h hl
  · have hp := plainReadAt_of_plainRead hp
    exact ⟨fun r hw hm hl hrc => wideLowWordRead_low h ha hp hw hm hl hrc, fun r w v hm hl => wideLowWordRead_latched h ha hp hm hl⟩
  · exact fun pc s hc h hl => freezeRecordRead_answers pc hc h hl
  · exact fun idx s h => pisteEntryRead_latches idx h

end Sys2Proof.Machine
end

section
/-!
SUPPORT. What the operations of Machine/Loading.lean make of a port's line: the changes pending, those to be announced again and the
SWAP words owed (R16, R66 to R68).
-/
namespace Sys2Proof.Machine

variable {s t : State} {n : Nat}

/-! ## A port's line -/

@[simp] theorem ln_modLn (s : State) (n : Nat) (f : Line → Line) : (s.modLn n f).ln n = f (s.ln n) := Tbl.get_set_self _ _ _ _

theorem ln_congr (h : t.line = s.line) : t.ln n = s.ln n := by unfold State.ln; rw [h]

theorem showPend_kept (s : State) (n : Nat) : Kept [] [.portIlm, .piste] s (s.showPend n) :=
  kept_of_keeps (fun _ c h => State.showPend_keeps c h) (by decide)

@[simp] theorem modPend_ln (s : State) (n : Nat) (f : List Change → List Change) :
    (s.modPend n f).ln n = { s.ln n with pend := f (s.ln n).pend } :=
  (ln_congr ((showPend_kept _ n).field (f := .line) (by decide))).trans (ln_modLn s n _)

@[simp] theorem oweSwap_ln (s : State) (n op : Nat) (dir : Bool) (kind arg sf : Nat) :
    (s.oweSwap n op dir kind arg sf).ln n = { s.ln n with swapQ := (s.ln n).swapQ ++ [swapPayload op dir kind arg sf] } := ln_modLn s n _

theorem each_oweSwap_ln (s : State) (n op kind arg sf : Nat) (dirs : List Bool) :
    (s.each dirs fun t rx => t.oweSwap n op rx kind arg sf).ln n =
      { s.ln n with swapQ := (s.ln n).swapQ ++ dirs.map fun rx => swapPayload op rx kind arg sf } := by
  induction dirs generalizing s with
  | nil => simp [State.each]
  | cons rx dirs ih =>
    have h := ih (s.oweSwap n op rx kind arg sf)
    rw [oweSwap_ln] at h
    simpa [State.each] using h

/-! ## Changes that are dropped or displaced -/

/-- A change of the list stays when the changes that satisfy `p` are dropped with their second words (R68). -/
def staysIn (l : List Change) (p : Change → Bool) (x : Change) : Bool :=
  !(p x || (l.filter p).any fun y => decide (x.kind ≠ 0) && decide (x.kind = y.kind) && decide (x.sf = y.sf) && x.mine = y.mine)

theorem staysIn_of_sf_ne {l : List Change} {p : Change → Bool} {f : Nat} {x : Change} (hp : ∀ y ∈ l, p y = true → y.sf = f)
    (hx : x ∈ l) (hf : x.sf ≠ f) : staysIn l p x = true := by
  have hpx : p x = false := Bool.eq_false_iff.mpr fun h => hf (hp x hx h)
  have hany : ∀ y ∈ l, p y = true → x.sf ≠ y.sf := fun y hy h e => hf (e.trans (hp y hy h))
  simp only [staysIn, hpx, Bool.false_or, Bool.not_eq_true', List.any_eq_false, List.mem_filter, and_imp]
  intro y hy h
  simp [hany y hy h]

theorem filter_staysIn_eq {l : List Change} {p : Change → Bool} {f : Nat} (hp : ∀ y ∈ l, p y = decide (y.sf = f)) :
    l.filter (staysIn l p) = l.filter fun x => decide (x.sf ≠ f) := by
  refine List.filter_congr fun x hx => ?_
  by_cases hf : x.sf = f
  · simp [staysIn, hp x hx, hf]
  · rw [staysIn_of_sf_ne (fun y hy h => by simpa [hp y hy] using h) hx hf]
    simp [hf]

theorem dropChanges_ln (s : State) (n : Nat) (p : Change → Bool) :
    (s.dropChanges n p).ln n = { s.ln n with pend := (s.ln n).pend.filter (staysIn (s.ln n).pend p) } :=
  modPend_ln s n _

theorem displace_ln (s : State) (n : Nat) (losers : List Change) :
    (s.displace n losers).ln n = { s.ln n with
      again := (s.ln n).again ++ losers.filter (·.mine), pend := (s.ln n).pend.filter (staysIn (s.ln n).pend losers.contains) } := by
  unfold State.displace
  by_cases h : losers = []
  · have hall : (s.ln n).pend.filter (staysIn (s.ln n).pend ([] : List Change).contains) = (s.ln n).pend :=
      List.filter_eq_self.mpr fun x _ => by simp [staysIn]
    rw [if_pos h, h, hall]
    simp
  · rw [if_neg h, dropChanges_ln, ln_modLn]

theorem newBands_congr {rx : Bool} {p : Nat} (ha : (t.ln n).custAck = (s.ln n).custAck) (hp : (t.ln n).custPart = (s.ln n).custPart) :
    t.newBands n rx p = s.newBands n rx p := by
  unfold State.newBands
  rw [ha, hp]

/-! ## Which changes lose their superframe -/

theorem mem_pendDir {rx : Bool} {x : Change} : x ∈ s.pendDir n rx ↔ x ∈ (s.ln n).pend ∧ x.rxDir = rx := by simp [State.pendDir]

theorem mem_pendDir_self {x : Change} (h : x ∈ (s.ln n).pend) : x ∈ s.pendDir n x.rxDir := mem_pendDir.mpr ⟨h, rfl⟩

/-- A pending change of a lower precedence at the superframe of a new one loses it (R16). -/
theorem mem_losers_of_lower {kind f : Nat} {dirs : List Bool} {x : Change} (hx : x ∈ (s.ln n).pend) (hd : x.rxDir ∈ dirs) (hf : x.sf = f)
    (hk : changeRank x.kind < changeRank kind) : x ∈ s.losers n kind f dirs := by
  have hat : x ∈ (s.pendDir n x.rxDir).filter fun x => x.sf = f && changeRank x.kind < changeRank kind := by
    simp [mem_pendDir_self hx, hf, hk]
  refine List.mem_flatMap.mpr ⟨x.rxDir, hd, ?_⟩
  dsimp only
  rw [if_pos (by simp [List.ne_nil_of_mem hat])]
  exact hat

/-- Where no direction is full, or the new change is not a profile swap, only changes at its own superframe lose it. -/
theorem mem_losers_at {kind f : Nat} {dirs : List Bool} (hfree : kind = 1 → ∀ rx ∈ dirs, (s.pendDir n rx).length < 4) {x : Change}
    (h : x ∈ s.losers n kind f dirs) : x ∈ (s.ln n).pend ∧ x.sf = f := by
  obtain ⟨rx, hrx, hx⟩ := List.mem_flatMap.mp h
  dsimp only at hx
  have hroom : (s.pendDir n rx).length < 4 ∨ kind ≠ 1 := by
    by_cases hk : kind = 1
    · exact .inl (hfree hk rx hrx)
    · exact .inr hk
  rw [if_pos (by simpa using hroom.elim (fun h => .inl (.inr h)) .inr)] at hx
  simp only [List.mem_filter, mem_pendDir, Bool.and_eq_true, decide_eq_true_eq] at hx
  exact ⟨hx.1.1, hx.2.1⟩

theorem roomFor_of_length {kind f : Nat} {dirs : List Bool} (h : ∀ rx ∈ dirs, (s.pendDir n rx).length < 4) : s.roomFor n kind f dirs = true := by
  simp only [State.roomFor, List.all_eq_true]
  intro rx hrx
  simp [h rx hrx]

/-! ## Announcing -/

/-- The changes that an announcement puts on the list, one for each direction. -/
def State.announced (s : State) (n kind arg sf : Nat) (entries : List Nat) (cap : Nat) (rx : Bool) : Change :=
  { kind := kind, sf := sf, arg := arg, rxDir := rx, mine := true, entries := if kind = 1 then s.newBands n rx arg else entries, cap := cap }

/-- What an announcement with room makes of the line. -/
theorem announce_ln {kind arg from_ f : Nat} {dirs : List Bool} {entries : List Nat} {cap : Nat}
    (hf : s.freeSf n kind from_ dirs % 2 ^ 32 = f) (hroom : s.roomFor n kind f dirs = true) :
    (s.announce n kind arg from_ dirs entries cap).ln n = { s.ln n with
      again := (s.ln n).again ++ (s.losers n kind f dirs).filter (·.mine)
      pend := (s.ln n).pend.filter (staysIn (s.ln n).pend (s.losers n kind f dirs).contains) ++
        dirs.map (s.announced n kind arg f entries cap)
      swapQ := (s.ln n).swapQ ++ dirs.map fun rx => swapPayload 0 rx kind arg f } := by
  have hnew : ∀ rx, (s.displace n (s.losers n kind f dirs)).newBands n rx arg = s.newBands n rx arg := fun rx =>
    newBands_congr (by rw [displace_ln]) (by rw [displace_ln])
  unfold State.announce
  simp only [hf, hroom, Bool.not_true, Bool.false_eq_true, if_false, each_oweSwap_ln, modPend_ln, hnew, displace_ln]
  rfl

/-- A change that was pending at another superframe stays pending through an announcement that displaces only at its own. -/
theorem announce_keeps_other {kind arg from_ f : Nat} {dirs : List Bool} {entries : List Nat} {cap : Nat}
    (hf : s.freeSf n kind from_ dirs % 2 ^ 32 = f) (hlen : ∀ rx ∈ dirs, (s.pendDir n rx).length < 4) {x : Change} (hx : x ∈ (s.ln n).pend)
    (hne : x.sf ≠ f) : x ∈ ((s.announce n kind arg from_ dirs entries cap).ln n).pend := by
  rw [announce_ln hf (roomFor_of_length hlen)]
  refine List.mem_append_left _ (List.mem_filter.mpr ⟨hx, staysIn_of_sf_ne (fun y _ h => ?_) hx hne⟩)
  exact (mem_losers_at (fun _ => hlen) (List.contains_iff_mem.mp h)).2

end Sys2Proof.Machine
end

section
/-!
SUPPORT. The superframe for which a change is announced: the first, from the earliest allowed, at which no change of the same or a
higher precedence is pending (R16, R66).
-/
namespace Sys2Proof.Machine

variable {s : State} {n kind from_ : Nat} {dirs : List Bool}

/-- No pending change of the same or a higher precedence stands at the superframe in the directions named. -/
def State.sfFree (s : State) (n kind f : Nat) (dirs : List Bool) : Prop :=
  ∀ rx ∈ dirs, ∀ x ∈ s.pendDir n rx, x.sf = f → changeRank x.kind < changeRank kind

/-- The test by which a superframe is chosen. -/
def State.freeTest (s : State) (n kind f : Nat) (dirs : List Bool) : Bool :=
  dirs.all fun rx => !(s.pendDir n rx).any fun x => x.sf = f && changeRank kind ≤ changeRank x.kind

theorem freeTest_iff {f : Nat} : s.freeTest n kind f dirs = true ↔ s.sfFree n kind f dirs := by
  simp [State.freeTest, State.sfFree]

theorem freeSf_eq (s : State) (n kind from_ : Nat) (dirs : List Bool) : s.freeSf n kind from_ dirs =
    ((List.range 9).find? fun d => s.freeTest n kind ((from_ + d) % 2 ^ 32) dirs).getD 0 + from_ := rfl

theorem freeSf_of_free (h : s.sfFree n kind (from_ % 2 ^ 32) dirs) : s.freeSf n kind from_ dirs = from_ := by
  have hfind : ((List.range 9).find? fun d => s.freeTest n kind ((from_ + d) % 2 ^ 32) dirs) = some 0 :=
    List.find?_cons_of_pos (p := fun d => s.freeTest n kind ((from_ + d) % 2 ^ 32) dirs) (freeTest_iff.mpr h)
  rw [freeSf_eq, hfind, Option.getD_some, Nat.zero_add]

theorem freeSf_within (s : State) (n kind from_ : Nat) (dirs : List Bool) : ∃ d ≤ 8, s.freeSf n kind from_ dirs = from_ + d := by
  rw [freeSf_eq]
  cases h : (List.range 9).find? _ with
  | none => exact ⟨0, by omega, by simp⟩
  | some d =>
    have := List.mem_range.mp (List.mem_of_find?_eq_some h)
    exact ⟨d, by omega, by simp [Nat.add_comm]⟩

theorem pend_length (s : State) (n : Nat) : (s.ln n).pend.length = (s.pendDir n false).length + (s.pendDir n true).length := by
  have hsplit := List.length_eq_countP_add_countP (l := (s.ln n).pend) fun x => decide (x.rxDir = false)
  rw [List.countP_eq_length_filter, List.countP_eq_length_filter] at hsplit
  have hneg : (s.ln n).pend.filter (fun x => decide ¬decide (x.rxDir = false) = true) = s.pendDir n true :=
    List.filter_congr fun x _ => by cases x.rxDir <;> rfl
  rw [hneg] at hsplit
  exact hsplit

/-- A list without repeats is no longer than one that holds all its members. -/
theorem nodup_length_le {l m : List Nat} (hl : l.Nodup) (hsub : ∀ a ∈ l, a ∈ m) : l.length ≤ m.length := by
  induction l generalizing m with
  | nil => exact Nat.zero_le _
  | cons a l ih =>
    obtain ⟨hnot, hl⟩ := List.nodup_cons.mp hl
    have ha : a ∈ m := hsub a List.mem_cons_self
    have hle : l.length ≤ (m.erase a).length := ih hl fun b hb =>
      (List.mem_erase_of_ne fun e : b = a => hnot (e ▸ hb)).mpr (hsub b (List.mem_cons_of_mem a hb))
    have hpos : 0 < m.length := List.length_pos_of_mem ha
    rw [List.length_erase_of_mem ha] at hle
    rw [List.length_cons]
    omega

/-- Nine superframes in a row are all different, over the wrap of the count too. -/
theorem nine_sfs_nodup (from_ : Nat) : ((List.range 9).map fun d => (from_ + d) % 2 ^ 32).Nodup := by
  rw [List.Nodup, List.pairwise_map]
  refine List.Pairwise.imp_of_mem (fun {a b} ha hb hlt => ?_) List.pairwise_lt_range
  have ha := List.mem_range.mp ha
  have hb := List.mem_range.mp hb
  omega

/-- Of nine superframes in a row, no more than eight pending changes leave one without any. -/
theorem exists_sf_unused (from_ : Nat) (h : (s.ln n).pend.length < 9) : ∃ d < 9, ∀ x ∈ (s.ln n).pend, x.sf ≠ (from_ + d) % 2 ^ 32 := by
  refine Classical.byContradiction fun hcon => ?_
  have hsub : ∀ f ∈ (List.range 9).map fun d => (from_ + d) % 2 ^ 32, f ∈ (s.ln n).pend.map (·.sf) := by
    intro f hf
    obtain ⟨d, hd, rfl⟩ := List.mem_map.mp hf
    exact Classical.byContradiction fun hno => hcon ⟨d, List.mem_range.mp hd, fun x hx e => hno (List.mem_map.mpr ⟨x, hx, e⟩)⟩
  have hle := nodup_length_le (nine_sfs_nodup from_) hsub
  rw [List.length_map, List.length_map, List.length_range] at hle
  omega

theorem freeSf_is_free (h : (s.ln n).pend.length < 9) : s.sfFree n kind (s.freeSf n kind from_ dirs % 2 ^ 32) dirs := by
  obtain ⟨d, hd, hun⟩ := exists_sf_unused from_ h
  rw [freeSf_eq]
  cases hfind : (List.range 9).find? _ with
  | none =>
    have hblocked := List.find?_eq_none.mp hfind d (List.mem_range.mpr hd)
    exact absurd (freeTest_iff.mpr fun rx _ x hx e => absurd e (hun x (mem_pendDir.mp hx).1)) hblocked
  | some e =>
    rw [Option.getD_some, Nat.add_comm]
    exact freeTest_iff.mp (List.find?_some (p := fun d => s.freeTest n kind ((from_ + d) % 2 ^ 32) dirs) hfind)

end Sys2Proof.Machine
end

section
/-!
SUPPORT. Sending a message on the embedded operations channel (R106, R107).
-/
namespace Sys2Proof.Machine

variable {s t : State} {n : Nat}

theorem modLn_kept (s : State) (n : Nat) (f : Line → Line) : Kept [.line] [] s (s.modLn n f) :=
  kept_of_keeps (fun _ c h => State.modLn_keeps c h) (by decide)

theorem cenHerd_kept (s : State) (ev k : Nat) : Kept [.cen] [] s (s.cenHerd ev k) :=
  kept_of_keeps (fun _ c h => State.cenHerd_keeps c h) (by decide)

@[simp] theorem cenHerd_ln (s : State) (ev k : Nat) : (s.cenHerd ev k).ln n = s.ln n :=
  ln_congr ((cenHerd_kept s ev k).field (f := .line) (by decide))

theorem Kept.get {fs : List Field} {gs : List RegGroup} (h : Kept fs gs s t) {f : Fld} (hf : regGroup f.off ∉ gs) : t.get f = s.get f :=
  get_congr (h.word hf)

theorem Kept.time_eq {fs : List Field} {gs : List RegGroup} (h : Kept fs gs s t) (hf : Field.time ∉ fs) : t.time = s.time := by
  have ht : t.ao.time10 = s.ao.time10 := h.field hf
  unfold State.time
  rw [ht]

theorem Kept.upIlm_eq {fs : List Field} {gs : List RegGroup} (h : Kept fs gs s t) (hg : RegGroup.portLink ∉ gs) : t.upIlm n = s.upIlm n := by
  unfold State.upIlm State.up State.mode State.flag
  rw [h.get (f := F.PORT_LINK_STATUS_UP n) (by simpa using hg), h.get (f := F.PORT_LINK_STATUS_MODE n) (by simpa using hg)]

theorem eocOpen_of_upIlm (h : s.upIlm n = true) : s.eocOpen n = true := by simp [State.eocOpen, h]

/-- A message on the open channel, but for those without acknowledgement: it is sent under the next SEQ, or waits (R107). -/
theorem sendEoc_ln {typ : Nat} {body : Bytes} (ho : s.eocOpen n = true) (ht : eocNoack typ = false) : (s.sendEoc n typ body).ln n =
    if (s.ln n).unacked.length < 8 then { s.ln n with
      eocQ := (s.ln n).eocQ ++ Eoc.bytes ⟨typ, (s.ln n).eocSeq, false, body⟩ false, eocSeq := ((s.ln n).eocSeq + 1) % 256
      unacked := (s.ln n).unacked ++ [⟨⟨typ, (s.ln n).eocSeq, false, body⟩, s.time, 0⟩] }
    else { s.ln n with waiting := (s.ln n).waiting ++ [⟨typ, 0, false, body⟩] } := by
  have htime : (s.cenHerd 0x03 1).time = s.time := (cenHerd_kept s 0x03 1).time_eq (by decide)
  unfold State.sendEoc State.putEoc
  by_cases h : (s.ln n).unacked.length < 8 <;> simp [ho, ht, h, htime]

end Sys2Proof.Machine
end

section
/-!
THEOREM. The changes of loading that this end starts: bit swaps asked for, profile swaps and tone caps announced (R72, R74, R75, R171).
-/
namespace Sys2Proof.Machine

variable {s : State} {n : Nat}

/-! ## A bit swap asked for (R72) -/

/-- The entries of R47 that differ from those in force on the tones chosen, at most 512. -/
def State.swapEntries (s : State) (n : Nat) (tones : List (BitVec 12)) : List Nat :=
  (((s.decideNormal n (s.snrNow n)).filter fun e => (tones.map BitVec.toNat).contains (e % 4096) &&
    decide (s.get (toneFld n true 0 (e % 4096)) ≠ bits e 12 4 + 16 * bits e 16 6))).take 512

/-- The body of the LOADING_UPDATE that asks for entries (Table 3-8). -/
def updateBody (id : Nat) (es : List Nat) : Bytes := BitVec.ofNat 8 id :: leBytes es.length 2 ++ es.flatMap fun e => leBytes e 4

/-- The state that has noted the LOADING_UPDATE it is about to send. -/
def State.noteUpdate (s : State) (n : Nat) (es : List Nat) : State :=
  (s.modLn n fun l => { l with updSent := some ((s.ln n).updNext, es), updNext := ((s.ln n).updNext + 1) % 0xF0 }).cenHerd 0x04 1

theorem noteUpdate_kept (s : State) (n : Nat) (es : List Nat) : Kept [.cen, .line] [] s (s.noteUpdate n es) :=
  ((modLn_kept s n _).mono (by simp) (by simp)).trans ((cenHerd_kept _ 0x04 1).mono (by simp) (by simp))

theorem noteUpdate_ln (s : State) (n : Nat) (es : List Nat) : (s.noteUpdate n es).ln n =
    { s.ln n with updSent := some ((s.ln n).updNext, es), updNext := ((s.ln n).updNext + 1) % 0xF0 } := by simp [State.noteUpdate]

theorem bitSwapRequest_eq (port : BitVec 4) (tones : List (BitVec 12)) (s : State) : exec (.bitSwapRequest port tones) s =
    .next (if !(s.upIlm port.toNat && s.herderRuns && s.flag (F.PORT_ILM_CTRL_BITSWAP_EN port.toNat) && s.bitSwapOk port.toNat &&
      s.swapEntries port.toNat tones ≠ [] && !s.overCap port.toNat true (s.swapEntries port.toNat tones)) then s else
      (s.noteUpdate port.toNat (s.swapEntries port.toNat tones)).sendEoc port.toNat 0x21
        (updateBody (s.ln port.toNat).updNext (s.swapEntries port.toNat tones))) := rfl

theorem bitSwapRequest_asks {port : BitVec 4} {tones : List (BitVec 12)} {es : List Nat} (hes : s.swapEntries port.toNat tones = es)
    (hup : s.upIlm port.toNat = true) (hherd : s.herderRuns = true) (hen : s.flag (F.PORT_ILM_CTRL_BITSWAP_EN port.toNat) = true)
    (hok : s.bitSwapOk port.toNat = true) (hne : es ≠ []) (hcap : s.overCap port.toNat true es = false) :
    ∃ t, exec (.bitSwapRequest port tones) s = .next t ∧ (t.ln port.toNat).updSent = some ((s.ln port.toNat).updNext, es) ∧
      (t.ln port.toNat).updNext = ((s.ln port.toNat).updNext + 1) % 0xF0 ∧
      ((s.ln port.toNat).unacked.length < 8 → (t.ln port.toNat).unacked = (s.ln port.toNat).unacked ++
        [⟨⟨0x21, (s.ln port.toNat).eocSeq, false, updateBody (s.ln port.toNat).updNext es⟩, s.time, 0⟩]) ∧ Kept [.cen, .line] [] s t := by
  have hexec : exec (.bitSwapRequest port tones) s =
      .next ((s.noteUpdate port.toNat es).sendEoc port.toNat 0x21 (updateBody (s.ln port.toNat).updNext es)) := by
    rw [bitSwapRequest_eq, hes]
    simp [hup, hherd, hen, hok, hne, hcap]
  have hkept := noteUpdate_kept s port.toNat es
  have hline := sendEoc_ln (typ := 0x21) (body := updateBody (s.ln port.toNat).updNext es)
    (eocOpen_of_upIlm ((hkept.upIlm_eq (by decide)).trans hup)) rfl
  rw [noteUpdate_ln, hkept.time_eq (by decide)] at hline
  refine ⟨_, hexec, ?_, ?_, fun hlen => ?_, kept_of (fun _ c h => execBitSwapRequest_keeps c h) (by decide) hexec⟩ <;> rw [hline]
  · split <;> rfl
  · split <;> rfl
  · rw [if_pos hlen]

/-! ## A profile swap announced (R74, R171) -/

/-- The profile that the leading end wants in force. -/
def State.wantProf (s : State) (n : Nat) : Nat :=
  if s.flag (F.PORT_ILM_CTRL_FORCE_EN n) then s.get (F.PORT_ILM_CTRL_FORCE_PROF n) else s.get (F.PISTE_PORT_ZONE_PROF n)

/-- The superframe for which it is announced, before the count wraps. -/
def State.wantFrom (s : State) (n : Nat) : Nat := s.sfc n + if s.flag (F.PORT_ILM_CTRL_FORCE_EN n) then 64 else 4

theorem profileSwapAnnounce_eq (port : BitVec 4) (s : State) : exec (.profileSwapAnnounce port) s =
    .next (if s.leads port.toNat && s.upIlm port.toNat &&
      (decide (s.wantProf port.toNat ≠ s.prof port.toNat false) || decide (s.wantProf port.toNat ≠ s.prof port.toNat true)) &&
      !(s.ln port.toNat).pend.any (fun x => decide (x.kind = 1)) then
      s.announce port.toNat 1 (s.wantProf port.toNat) (s.wantFrom port.toNat) [false, true] [] 0 else s) := rfl

section
variable (hpend : ∀ x, x ∈ (s.ln n).pend → x.kind = 0 ∨ x.kind = 2)
include hpend

/-- With no profile swap pending, every pending change ranks below one (R16). -/
theorem rank_lt_swap {x : Change} (hx : x ∈ (s.ln n).pend) : changeRank x.kind < changeRank 1 := by
  rcases hpend x hx with h | h <;> rw [h] <;> decide

/-- No bit swap and no tone cap defers a profile swap (R16). -/
theorem sfFree_swap (f : Nat) (dirs : List Bool) : s.sfFree n 1 f dirs :=
  fun _ _ _ hx _ => rank_lt_swap hpend (mem_pendDir.mp hx).1

/-- A profile swap finds room: a full direction gives up the last change that is not a profile swap (R16, R66). -/
theorem roomFor_swap (f : Nat) (dirs : List Bool) : s.roomFor n 1 f dirs = true := by
  simp only [State.roomFor, List.all_eq_true, Bool.or_eq_true, decide_eq_true_eq]
  intro rx _
  by_cases hlen : (s.pendDir n rx).length < 4
  · exact .inl hlen
  · have hall : (s.pendDir n rx).filter (fun x => decide (x.kind ≠ 1)) = s.pendDir n rx := by
      refine List.filter_eq_self.mpr fun x hx => ?_
      rcases hpend x (mem_pendDir.mp hx).1 with h | h <;> simp [h]
    have hne : s.pendDir n rx ≠ [] := fun h => hlen (by simp [h])
    simp only [State.losers, List.flatMap_singleton, hall]
    right
    split
    next hcond => simpa [hlen] using hcond
    next => simpa using hne

/-- Where neither direction is full, the changes that a profile swap displaces are all those at its superframe. -/
theorem contains_losers_swap {f : Nat} {y : Change} (hy : y ∈ (s.ln n).pend)
    (hlen : ∀ rx ∈ [false, true], (s.pendDir n rx).length < 4) : (s.losers n 1 f [false, true]).contains y = decide (y.sf = f) := by
  rw [Bool.eq_iff_iff, List.contains_iff_mem, decide_eq_true_eq]
  exact ⟨fun h => (mem_losers_at (fun _ => hlen) h).2, fun h => mem_losers_of_lower hy (by simp) h (rank_lt_swap hpend hy)⟩

end

theorem profileSwapAnnounce_pends {port : BitVec 4} {f : Nat} (hup : s.upIlm port.toNat = true) (hlead : s.leads port.toNat = true)
    (hwant : s.wantProf port.toNat ≠ s.prof port.toNat false ∨ s.wantProf port.toNat ≠ s.prof port.toNat true)
    (hpend : ∀ x, x ∈ (s.ln port.toNat).pend → x.kind = 0 ∨ x.kind = 2) (hf : s.wantFrom port.toNat % 2 ^ 32 = f) :
    ∃ t, exec (.profileSwapAnnounce port) s = .next t ∧
      (t.ln port.toNat).pend = (s.ln port.toNat).pend.filter
          (staysIn (s.ln port.toNat).pend (s.losers port.toNat 1 f [false, true]).contains) ++
        [false, true].map (s.announced port.toNat 1 (s.wantProf port.toNat) f [] 0) ∧
      (t.ln port.toNat).again = (s.ln port.toNat).again ++ (s.losers port.toNat 1 f [false, true]).filter (·.mine) ∧
      (t.ln port.toNat).swapQ = (s.ln port.toNat).swapQ ++
        [swapPayload 0 false 1 (s.wantProf port.toNat) f, swapPayload 0 true 1 (s.wantProf port.toNat) f] ∧
      Kept [.line] [.portIlm, .piste] s t := by
  have hnone : ((s.ln port.toNat).pend.any fun x => decide (x.kind = 1)) = false :=
    List.any_eq_false.mpr fun x hx => by rcases hpend x hx with h | h <;> simp [h]
  have hexec : exec (.profileSwapAnnounce port) s =
      .next (s.announce port.toNat 1 (s.wantProf port.toNat) (s.wantFrom port.toNat) [false, true] [] 0) := by
    rw [profileSwapAnnounce_eq, hnone]
    simp [hlead, hup, hwant]
  have hsf : s.freeSf port.toNat 1 (s.wantFrom port.toNat) [false, true] % 2 ^ 32 = f := by
    rw [freeSf_of_free (sfFree_swap hpend _ _), hf]
  have hline := announce_ln (arg := s.wantProf port.toNat) (entries := []) (cap := 0) hsf (roomFor_swap hpend f _)
  exact ⟨_, hexec, by rw [hline], by rw [hline], by rw [hline]; rfl,
    kept_of (fun _ c h => execProfileSwapAnnounce_keeps c h) (by decide) hexec⟩

/-! ## A tone cap announced (R75) -/

theorem not_swap_nor_cap_of_rank {k : Nat} (h : changeRank k < changeRank 2) : k ≠ 1 ∧ k ≠ 2 := by
  constructor <;> rintro rfl <;> exact absurd h (by decide)

theorem toneCapAnnounce_announces {port : BitVec 4} {a : Nat} (hup : s.upIlm port.toNat = true)
    (hcap : (s.ln port.toNat).capSent = some (a, true)) (hlen : ∀ rx ∈ [false, true], (s.pendDir port.toNat rx).length < 4) :
    exec (.toneCapAnnounce port) s =
      .next ((s.announce port.toNat 2 0 (s.sfc port.toNat + 4) [false, true] [] a).modLn port.toNat fun l => { l with capSent := none }) := by
  show execToneCapAnnounce port s = _
  unfold execToneCapAnnounce
  simp only [hcap, hup, roomFor_of_length hlen, Bool.and_self, if_true]

theorem toneCapAnnounce_pends {port : BitVec 4} {a f : Nat} (hup : s.upIlm port.toNat = true)
    (hcap : (s.ln port.toNat).capSent = some (a, true)) (hlen : ∀ rx ∈ [false, true], (s.pendDir port.toNat rx).length < 4)
    (hf : s.freeSf port.toNat 2 (s.sfc port.toNat + 4) [false, true] % 2 ^ 32 = f) :
    ∃ t, exec (.toneCapAnnounce port) s = .next t ∧ (t.ln port.toNat).capSent = none ∧
      [false, true].map (s.announced port.toNat 2 0 f [] a) <:+ (t.ln port.toNat).pend ∧
      (∀ x, x ∈ (s.ln port.toNat).pend → x.sf ≠ f → x ∈ (t.ln port.toNat).pend) ∧
      (t.ln port.toNat).swapQ = (s.ln port.toNat).swapQ ++ [swapPayload 0 false 2 0 f, swapPayload 0 true 2 0 f] ∧
      Kept [.line] [.portIlm, .piste] s t := by
  have hexec := toneCapAnnounce_announces hup hcap hlen
  have hline := announce_ln (arg := 0) (entries := []) (cap := a) hf (roomFor_of_length hlen)
  refine ⟨_, hexec, ?_, ?_, fun x hx hne => ?_, ?_, kept_of (fun _ c h => execToneCapAnnounce_keeps c h) (by decide) hexec⟩ <;> rw [ln_modLn]
  · rw [hline]
    exact List.suffix_append _ _
  · exact announce_keeps_other hf hlen hx hne
  · rw [hline]
    rfl

/-- Settles O25: one lemma for each of the three rows, and the superframe that a tone cap gets. -/
theorem ownChangesAreAnnounced : Obligations.OwnChangesAreAnnounced := by
  unfold Obligations.OwnChangesAreAnnounced
  intro port s n hup
  refine ⟨fun tones hherd hen hok hne hcap => bitSwapRequest_asks rfl hup hherd hen hok hne hcap, ?_, ?_⟩
  · intro force want f c hlead hwant hpend
    obtain ⟨t, hexec, hlist, hagain, hq, hkept⟩ := profileSwapAnnounce_pends hup hlead hwant hpend rfl
    refine ⟨t, hexec, ⟨_, hlist.symm⟩, fun h0 h1 => ?_, fun x hx hf hm => ?_, hq, hkept⟩
    · rw [hlist, filter_staysIn_eq fun y hy => contains_losers_swap hpend hy (by simp [h0, h1])]
      rfl
    · rw [hagain]
      have hlost := mem_losers_of_lower hx (dirs := [false, true]) (by simp) hf (rank_lt_swap hpend hx)
      exact List.mem_append_right _ (List.mem_filter.mpr ⟨hlost, hm⟩)
  · intro a hcap h0 h1 f c
    have hlen : ∀ rx ∈ [false, true], (s.pendDir n rx).length < 4 := by simp [h0, h1]
    obtain ⟨d, hd, hsf⟩ := freeSf_within s n 2 (s.sfc n + 4) [false, true]
    refine ⟨by simp only [f, hsf]; omega, fun x hx hxf => ?_, toneCapAnnounce_pends hup hcap hlen rfl⟩
    have hfree := freeSf_is_free (kind := 2) (from_ := s.sfc n + 4) (dirs := [false, true]) (by rw [pend_length s n]; omega)
    exact not_swap_nor_cap_of_rank (hfree x.rxDir (by simp) x (mem_pendDir_self hx) hxf)

end Sys2Proof.Machine
end

section
/-!
SUPPORT. A structural apply ends every diagnostic (R216), and with it the command of the slot that the diagnostic is kept under. No
hypothesis of O47 keeps that slot apart from the FOLD_LOAD's own, whose command is then done where the statement has it running.
-/
namespace Sys2Proof.Machine

/-! ## FOLD_LOAD of a sound image with APPLY -/

@[simp] theorem writeFoldSlot_box (s : State) (u : Nat) (b : Bytes) (f : Bool) : (s.writeFoldSlot u b f).box = s.box := by
  unfold State.writeFoldSlot
  split <;> rfl

@[simp] theorem writeFoldSlot_fold (s : State) (u : Nat) (b : Bytes) (f : Bool) : (s.writeFoldSlot u b f).fold = s.fold := by
  unfold State.writeFoldSlot
  split <;> rfl

theorem param_congr {s t : State} (h : t.box = s.box) (k i : Nat) : t.param k i = s.param k i := by
  unfold State.param State.slot
  rw [h]

theorem sameStructure_congr {s t : State} (h : t.fold = s.fold) (b : Bytes) : t.sameStructure b = s.sameStructure b := by
  unfold State.sameStructure
  rw [h]

/-- The state in which FOLD_LOAD has written a sound image into its slot, and its structural apply is about to begin (R31, R35). -/
def State.foldLoadBegun (s : State) (k : Nat) (b : Bytes) : State :=
  ((s.writeFoldSlot s.loadSlot b false).put F.DEV_FOLD_STATUS_LAST_ERR 0).begin k []

theorem foldLoad_begins_apply {s : State} {slot : BitVec 6} {bad : BitVec 48} {b : Bytes} (ht : s.taken slot.toNat 0x01 = true)
    (hr : s.herderRuns = true) (ho : s.stackOpen = true) (hf : s.foldBusy = false) (hb : s.staged (s.param slot.toNat 0) = b)
    (he : s.imageErr b (s.param slot.toNat 0) = none) (ha : (s.param slot.toNat 1).testBit 0 = true) (hs : s.sameStructure b = false) :
    exec (.foldLoad slot false bad) s = .next ((s.foldLoadBegun slot.toNat b).beginApply (bodyOf b 1) (bodyOf b 2)
      { slot := slot.toNat + 1, image := b, src := s.loadSlot + 1, skipped := skippedIds b }) := by
  subst hb
  have hparam := param_congr (s := s) (writeFoldSlot_box s s.loadSlot (s.staged (s.param slot.toNat 0)) false) slot.toNat 1
  have hsame := sameStructure_congr (s := s) (writeFoldSlot_fold s s.loadSlot (s.staged (s.param slot.toNat 0)) false)
  show execFoldLoad slot false bad s = _
  unfold execFoldLoad
  simp [ht, hr, ho, hf, he, State.foldLoadBegun, param_congr (put_box _ _ _), sameStructure_congr (put_fold _ _ _), hparam, hsame, ha, hs]

/-! ## CRC-32 byte by byte -/

/-- The CRC register after some bytes. Each step asks for its register's value, so that an evaluation goes no deeper than a byte. -/
def crcSteps (c : Word) : Bytes → Word
  | [] => c
  | b :: bs => if c = c then crcSteps (crc32Byte c b) bs else 0

theorem foldl_crc32Byte (c : Word) (bs : Bytes) : bs.foldl crc32Byte c = crcSteps c bs := by
  induction bs generalizing c with
  | nil => rfl
  | cons b bs ih => simp [crcSteps, ih]

/-! ## A sound image (R20 to R27) -/

/-- The words of an image of format 2.0 and role 0, without a signature, which a part in MFG accepts (Tables 2-1, 2-2, 2-11). No port
is used, no lane serves one, a paddock of 1 MiB is the one partition, and POWER has the default delays. -/
def bareWords : List Nat :=
  [0x444C4F46, 0x400200, 712, 0x4FF0716] ++ List.replicate 11 0 ++ [0xB85C34CE] ++
  [0x10001, 128, 320, 0xADC7574D] ++ [0x10002, 448, 128, 0x626FC297] ++ [0x10003, 576, 24, 0x5A70B1FB] ++ [0x10004, 600, 48, 0xFBCD4880] ++
  List.replicate 80 0 ++ (List.replicate 16 [0xFF, 0]).flatten ++ [0x100, 0, 1, 0, 1, 0] ++ ([60000, 0] ++ returnDefaults ++ [0, 0, 0]) ++
  List.replicate 16 0

/-- The image. -/
def bareImage : Bytes := bareWords.flatMap (leBytes · 4)

/-! ## The state -/

/-- The device after reset with the image in the staging buffer. -/
def bareStaged : State :=
  let (lo, hi) := State.reset.regs.partition (·.1 < A.DEV_FOLD_STAGE 0)
  State.reset.withRegs (lo ++ (wordsAt (A.DEV_FOLD_STAGE 0) bareWords).filter (·.2 ≠ 0) ++ hi)

/-- A FOLD_LOAD of the image with APPLY has started in slot 3, and a diagnostic of port 2 is kept under that slot. -/
def loadUnderDiag : State :=
  (((bareStaged.put (F.CMD_SLOT_STATE_STATE 3) 2).put (F.CMD_SLOT_STATE_OPCODE 3) 0x01).modSlot 3 fun x =>
    { x with params := [712, 1] }).withDiag [(2, { slot := 4 })]

theorem loadUnderDiag_taken : loadUnderDiag.taken 3 0x01 = true ∧ loadUnderDiag.herderRuns = true ∧ loadUnderDiag.stackOpen = true ∧
    loadUnderDiag.foldBusy = false := by decide +kernel

theorem loadUnderDiag_params : loadUnderDiag.param 3 0 = 712 ∧ (loadUnderDiag.param 3 1).testBit 0 = true := by decide +kernel

theorem loadUnderDiag_staged : loadUnderDiag.staged 712 = bareImage := eq_of_beq (by decide +kernel)

theorem bareImage_sound : loadUnderDiag.imageErr bareImage 712 = none := by
  simp only [State.imageErr, State.headerErr, crcErr, crc32, foldl_crc32Byte]
  decide +kernel

theorem bareImage_structural : loadUnderDiag.sameStructure bareImage = false := by decide +kernel

/-- The apply ends the diagnostic of port 2, which completes slot 3. -/
theorem apply_ends_slot_of_diag : ((loadUnderDiag.foldLoadBegun 3 bareImage).beginApply (bodyOf bareImage 1) (bodyOf bareImage 2)
      { slot := 4, image := bareImage, src := loadUnderDiag.loadSlot + 1, skipped := skippedIds bareImage }).slotState 3 = 3 := by
  decide +kernel

/-- Refutes O47: after the FOLD_LOAD of `loadUnderDiag` slot 3 is done, and not running, since the structural apply that begins ends
the diagnostic kept under that slot. -/
theorem not_foldsAreLoadedAppliedAndCommitted : ¬ Obligations.FoldsAreLoadedAppliedAndCommitted := by
  unfold Obligations.FoldsAreLoadedAppliedAndCommitted
  rintro ⟨hload, -⟩
  obtain ⟨ht, hr, ho, hf⟩ := loadUnderDiag_taken
  obtain ⟨hlen, happly⟩ := loadUnderDiag_params
  have hstaged : loadUnderDiag.staged (loadUnderDiag.param 3 0) = bareImage := hlen ▸ loadUnderDiag_staged
  have hsound : loadUnderDiag.imageErr bareImage (loadUnderDiag.param 3 0) = none := hlen ▸ bareImage_sound
  obtain ⟨-, -, -, hwritten⟩ := hload 3 false 0 loadUnderDiag ht hr ho
  obtain ⟨t, hexec, -, -, -, -, -, hbegins, -⟩ := hwritten hf (hstaged.symm ▸ hsound) rfl
  obtain ⟨hrunning, -⟩ := hbegins happly (hstaged.symm ▸ bareImage_structural)
  have hnext := foldLoad_begins_apply (slot := 3) (bad := 0) ht hr ho hf hstaged hsound happly bareImage_structural
  obtain rfl := Host.Outcome.next.inj (hnext.symm.trans hexec)
  exact absurd (apply_ends_slot_of_diag.symm.trans hrunning) (by decide)

end Sys2Proof.Machine
end
